-- ==== Sys2Proof/Word.lean ====
section
/-! DEFINITION. The word types of the model and nothing else: bytes, 64-bit registers, and the names of the
device's numbered units (01_architecture.md R8, 00_scope.md "Names used throughout"). -/

namespace Sys2Proof

/-- One byte. -/
abbrev Byte := BitVec 8

/-- A 64-bit register or a global address (09 R163, R167). -/
abbrev Word64 := BitVec 64

/-- A tick domain, 0-3 (02 R15). -/
abbrev Dom := Fin 4

/-- A cluster, C000-C143 (01 R8). -/
abbrev Cluster := Fin 144

/-- A DMA engine, 0-63 (11 R208). -/
abbrev Engine := Fin 64

/-- A device channel number, 0-1279 (10 R178). -/
abbrev Channel := Fin 1280

/-- A stack, S0-S19 (10 R178). -/
abbrev Stack := Fin 20

/-- An Evten link, 0-31 (01 R8). -/
abbrev Link := Fin 32

/-- A neighbour port, A+ = 0 to D- = 7 (01 R8). -/
abbrev NPort := Fin 8

/-- A media port, 0-3 (18 R334). -/
abbrev MPort := Fin 4

/-- A sequence slot, 0-31 (13 R241). -/
abbrev Slot := Fin 32

/-- A catalogue index of a model, 0-15 (12 R227). -/
abbrev Model := Fin 16

/-- A media flow, 0-47 (18 Table 18.2). -/
abbrev Flow := Fin 48

/-- A codec complex, CX0 or CX1 (17 R311). -/
abbrev Complex := Fin 2

/-- A quadrant, Q0-Q3, with its collective unit (01 R8, 15 R283). -/
abbrev Quad := Fin 4

end Sys2Proof
end

