-- ==== Sys2Proof/Syntax.lean ====
section
/-! DEFINITION. The commands of the block: one constructor per row of the table of operations and events, with the
operands that come from outside the device. A thread's instruction carries the cluster that issues it and the
instruction word below its OPC field (the row fixes OPC); a DMA or codec command carries the engine that starts it;
a sample carries the readings; a message carries its fields. -/

namespace Sys2Proof

/-- A message of IEEE 1588 that crosses a media port (18 R335), times in ns. -/
inductive PtpMsg where
  /-- Sync, with the time in the message when the master is one-step. -/
  | sync (oneStep : Bool) (origin : Nat)
  /-- Follow_Up of a two-step master. -/
  | followUp (origin : Nat)
  /-- Delay_Req leaves the port. -/
  | delayReq
  /-- Delay_Resp, with the master's receive time of the request. -/
  | delayResp (received : Nat)
deriving DecidableEq, Repr

/-- One scalar load or store (09 R168, R170): its direction, its size in bytes, the global address and the register
it loads into or stores from. The spec gives no encoding of these instructions. -/
structure ScalarAcc where
  store : Bool
  size  : Nat
  addr  : Word64
  reg   : Fin 32
deriving DecidableEq, Repr

/-- What an error found in a sector is: confined to one symbol, or not (10 R184). -/
inductive EccKind where
  | corrected
  | uncorrectable
deriving DecidableEq, Repr

/-- Why a link is retrained (14 R266): its error counts, or a lane that lost signal. -/
inductive LinkCause where
  | errors
  | lostSignal
deriving DecidableEq, Repr

/-- How the training of a link ended (14 R266, R267, R270): it failed, or it measured a latency and received a
coordinate frame. -/
inductive LinkTraining where
  | failed
  | trained (latencyNs : Nat) (coord dims : BitVec 16) (portCode : NPort)
deriving DecidableEq, Repr

/-- Where a host write of BAR0 goes: its offset, and its width in bytes (11 R225). -/
structure RegPlace where
  offs  : BitVec 24
  bytes : Nat
deriving DecidableEq, Repr

/-- A memory-class operation of a T4 request (14 R275). -/
inductive MemOp where
  | read
  | write
  /-- A write that delivers its sectors as poison (11 R216; log entry 105). -/
  | poison
  | atom (op : BitVec 4) (operand compare : Word64)
deriving DecidableEq, Repr

/-- The status of a memory response (11 R223, 14 R275); the data may be poison (10 R186; log entry 70). -/
inductive MemStatus where
  | data (poisoned : Bool)
  | faulted (tag : BitVec 32)
  | retry
  | abort
deriving DecidableEq, Repr

/-- One shard as it arrives (15 R289): sender, CID, its header and its data. `expertRow` names the row a dispatch or
combine shard carries. -/
structure Shard where
  src   : Nat
  cid   : BitVec 32
  shseq : BitVec 32
  tick  : BitVec 32
  offs  : BitVec 32
  crc   : BitVec 32
  data  : List Byte
deriving DecidableEq, Repr

/-- A piece of a mirror on its way to the buddy: its bytes, the numbers of its poisoned sectors, and whether a tensor begins
with it (16 R302, R303). -/
structure Piece where
  bytes : List Byte
  bad   : List Nat
  first : Bool
deriving DecidableEq, Repr

/-- Which reset reaches the endpoint (19 Table 19.5). -/
inductive EndpointReset where
  | perst
  | hot
  | flr
deriving DecidableEq, Repr

/-- What an NVMe/TCP fetch failure was (12 R230). -/
inductive FetchFail where
  /-- The connection failed. -/
  | connection
  /-- Read command k of the yealm ended in an NVMe error status or a digest failure. -/
  | command (k : Nat)
deriving DecidableEq, Repr

/-- The parts of a decoded access unit that the cited standards give and this spec does not (17 R328, R329): what the
entropy decoding of the access unit says about it. -/
structure AccessUnit where
  /-- An IDR, BLA or CRA picture, or a shown KEY_FRAME. -/
  key        : Bool
  /-- A CRA picture's RASL picture. -/
  rasl       : Bool
  /-- It outputs a picture. -/
  shown      : Bool
  /-- The bitstream breaks the standard's syntax. -/
  syntaxErr  : Bool
  /-- It uses a feature that Table 17.3 does not support. -/
  unsupported : Bool
  width      : Nat
  height     : Nat
  order      : BitVec 32
  /-- Orders of the references it names. -/
  refs       : List (BitVec 32)
deriving DecidableEq, Repr

/-- The commands. -/
inductive Instr where
  -- tick unit (02)
  | tickBoundary (d : Dom)
  | admitSlot (d : Dom)
  | depart (d : Dom)
  | chunkBegin (d : Dom)
  | chunkEnd (d : Dom)
  | work (d : Dom)
  | computeWindowStart (d : Dom)
  | checkpoint (d : Dom) (second : Bool)
  | computeWindowEnd (d : Dom)
  | guardStart (d : Dom)
  | ptpTimeAcquired (d : Dom) (ptpNs : Nat)
  | ptpSourceLost (d : Dom)
  | ptpSourceReturn (d : Dom) (phaseErrNs : Int)
  | ptpMessage (p : MPort) (m : PtpMsg)
  -- tile, vector and detection instructions (04-08)
  | tmm (c : Cluster) (w : BitVec 248)
  | tgrid (c : Cluster) (w : BitVec 248)
  | tileStepRelease (c : Cluster)
  | conversionComplete (c : Cluster) (slot : Fin 4)
  | tconv (c : Cluster) (w : BitVec 248)
  | tconvPrep (c : Cluster) (w : BitVec 248)
  | vew (c : Cluster) (w : BitVec 56)
  | vcvt (c : Cluster) (w : BitVec 56)
  | vqnt (c : Cluster) (w : BitVec 56)
  | vsf (c : Cluster) (w : BitVec 56)
  | vstat (c : Cluster) (w : BitVec 56)
  | vstatPartial (c : Cluster) (w : BitVec 56)
  | vstatCombine (c : Cluster) (w : BitVec 56)
  | vsoft (c : Cluster) (w : BitVec 56)
  | vsoftSum (c : Cluster) (w : BitVec 56)
  | vsoftProb (c : Cluster) (w : BitVec 56)
  | vargmax (c : Cluster) (w : BitVec 56)
  | dbox (c : Cluster) (w : BitVec 56)
  | dnms (c : Cluster) (w : BitVec 56)
  -- threads (09)
  | bar (c : Cluster) (w : BitVec 56)
  | mfence (c : Cluster) (w : BitVec 56)
  | tfence (c : Cluster) (w : BitVec 56)
  | atom (c : Cluster) (w : BitVec 56)
  | lds (c : Cluster) (w : BitVec 56)
  | sts (c : Cluster) (w : BitVec 56)
  | susp (c : Cluster) (w : BitVec 56)
  | exit (c : Cluster) (w : BitVec 56)
  | scalarAccess (c : Cluster) (a : ScalarAcc)
  | dq (c : Cluster) (w : BitVec 56)
  | dwait (c : Cluster) (w : BitVec 56)
  -- DMA and translation (11)
  | kvput (e : Engine)
  | kvget (e : Engine)
  | copy (e : Engine) (hostErrAt : Option Nat)
  | fmapPack (e : Engine)
  | fmapUnpack (e : Engine)
  | hostIn (e : Engine) (hostErrAt : Option Nat)
  | hostOut (e : Engine) (hostErrAt : Option Nat)
  | dmaEngDb (n : Engine) (v : Word64)
  | xltResolveRetry (tag : BitVec 32)
  | xltResolveAbort (tag : BitVec 32)
  | xltInval (v : Word64)
  | invalComplete
  | faultTimeout (tag : BitVec 32)
  | peerFaultTimeout (tag : BitVec 32)
  -- memory stacks (10)
  | eavesTimeout (sector : Nat)
  | scrub (ch : Channel) (found : List (Nat × EccKind))
  | stackTempSample (ts : List Int)
  | channelRetrain (ch : Channel) (drift : Bool)
  | retrainDone (ch : Channel) (trained : Bool) (badLanes : List (Fin 40))
  -- weights (12)
  | loadComplete (m : Model) (failed : Bool)
  | verifyComplete (m : Model)
  | refetchDone (m : Model) (y : Nat) (loaded : Bool)
  | copyRetire (m : Model)
  | fetchFailure (m : Model) (y : Nat) (what : FetchFail)
  | fallbackNotice (m : Model) (tick : Nat)
  | returnNotice (m : Model) (tick : Nat)
  | sequenceNotice (n : Slot) (toFallback : Bool) (tick : Nat)
  -- links (14)
  | flitReceive (l : Link) (flit : BitVec 2048)
  | retryRequest (l : Link) (fseq : BitVec 12)
  | packetReceive (p : NPort) (hdr : BitVec 128) (payload : List Byte)
  | memRequest (src : BitVec 16) (req : BitVec 32) (op : MemOp) (va : BitVec 52) (sectors : Nat) (data : List Byte)
  | memResponse (req : BitVec 32) (status : MemStatus) (data : List Byte)
  | memTimeout (req : BitVec 32)
  | linkRetrain (l : Link) (cause : LinkCause)
  | linkTrainingDone (l : Link) (result : LinkTraining)
  | setCoord (inst : Byte) (coord dims : BitVec 16)
  | coordWaitTimeout
  -- collectives (15)
  | allReduce (c : Cluster) (w : BitVec 56)
  | reduceScatter (c : Cluster) (w : BitVec 56)
  | allGather (c : Cluster) (w : BitVec 56)
  | allToAll (c : Cluster) (w : BitVec 56)
  | broadcast (c : Cluster) (w : BitVec 56)
  | dispatch (c : Cluster) (w : BitVec 56)
  | combine (c : Cluster) (w : BitVec 56)
  | cwait (c : Cluster) (w : BitVec 56)
  | shardReceive (sh : Shard)
  | shardAck (dst : Nat) (cid shseq : BitVec 32)
  | shardRetry (dst : Nat) (cid shseq : BitVec 32)
  | notreadyResend (dst : Nat) (cid shseq : BitVec 32)
  | collectiveComplete (q : Quad) (cid : BitVec 32)
  | collectiveTimeout (q : Quad) (cid : BitVec 32)
  | paceNoticeTimer
  | paceNotice (src : BitVec 16) (sliceId : BitVec 16) (number : Nat) (delayNs : Nat)
  -- snapshots (16)
  | mirrorReceive (slot : Bool) (offs : Nat) (data : Piece) (trailer : Bool)
  | captureDone
  | mirrorTimeout
  | drainStart (ward : Option Nat)
  | drainComplete (ward : Option (List Byte)) (ok : Bool)
  | snapshotNotice (step : Nat)
  | intervalNotice (next f tObs cUs stepUs : Nat)
  | observationSecond
  | restoreComplete (data : List (List Byte)) (crcOk : Bool) (buddyHolds : Bool)
  | restoreRequest (src : Nat) (step : Nat)
  -- codec (17)
  | open_ (e : Engine)
  | close (e : Engine)
  | encode (e : Engine)
  | decode (e : Engine) (au : AccessUnit)
  | codecRowSchedule (x : Complex) (encoder : Bool)
  | codKeyreq (v : Word64)
  -- media (18)
  | play (e : Engine)
  | inputPacketReceive (f : Flow) (port1 : Bool) (seq : BitVec 16) (ssrc : BitVec 32) (marker : Bool) (payload : List Byte)
  | rtpOutAccessUnit (f : Flow)
  | rtpInPacket (f : Flow) (seq : BitVec 16) (ssrc ts : BitVec 32) (marker : Bool) (payload : List Byte)
  | mediaLinkLoss (p : MPort)
  | mediaLinkUp (p : MPort)
  -- boot, host and management (19)
  | boot (untrainable : List Channel)
  | repairListTimeout
  | sysRstAssert
  | endpointReset (kind : EndpointReset)
  | botWin (v : Word64)
  | bar2Access (write : Bool) (offs : BitVec 36) (len : Nat) (data : List Byte)
  | storageLinkLoss
  | registerWrite (offs : RegPlace) (v : Word64)
  | dynamicAddressAssign (setdasa : Bool) (addr : BitVec 7)
  | endpointIdAssign (eid : Byte)
  | getStatus (inst : Byte)
  | setRepairs (inst : Byte) (final : Bool) (entries : List Word64)
  | getRepairs (inst : Byte) (first : BitVec 16)
  | readCounters (inst : Byte) (first : BitVec 16) (count : Byte)
  | readReg (inst : Byte) (offs : BitVec 32)
  | selectImage (inst : Byte) (b : Byte)
  | flashErase (inst : Byte) (offs : BitVec 32)
  | flashWrite (inst : Byte) (offs : BitVec 32) (bytes : List Byte)
  | flashRead (inst : Byte) (offs : BitVec 32) (len : BitVec 16)
  | setSvnMin (inst : Byte) (svn : Byte)
  | revokeKey (inst : Byte) (slot : Byte)
  | reset (inst : Byte)
  -- power, thermal, clocks (20, 23)
  | railSample (inTolerance : List Bool)
  | vaonRecover
  | dieTempSample (cd bd : List Int) (iod : Int)
  | powerSample (watts : Nat)
  | opticalTempSample (links media : List Int)
  | exitAttempt (untrainable : List Channel) (railsBad : Bool)
  | sysclk25Stop
  | peRefclkStop
  | refclk156LStop
  | refclk156MStop
  -- observation and events (21, 22)
  | obsFilter (v : Word64)
  | obsRing (v : Word64)
  | obsCons (v : Word64)
  | traceDomainPowered
  | traceRecordWrite
  | traceWriteError
  | eventRecordWrite
  | event
  | evtRing (v : Word64)
  | evtCons (v : Word64)
  | endpointLinkUp
  | storageLinkUp (conforms : Bool) (nsze : Nat)
  | sysclk25Return
  | testPortClock (tms tdi trstN : Bool) (pins : List Bool)
deriving DecidableEq, Repr

end Sys2Proof
end

