-- ==== Sys2Proof/Decode.lean ====
section
/-! DEFINITION. Reading a command from the bits that the table of operations gives it. The table gives no row any bits: its
rows are events, register writes and messages, each with its own carrier, so no word spells a command. -/

namespace Sys2Proof

/-- The command that a word of the table's bits spells: none, for the table gives no row bits. -/
def decodeTableWord (_nbits _w : Nat) : Option Instr := none

end Sys2Proof
end

