-- ==== Sys2Proof/Machine/State.lean ====
section
/-! DEFINITION. The state of the block as plain data: every register, buffer, queue, counter, mode and pin the spec
gives the device, and the queue of waiting commands; the state right after reset; the reasons a step can stop.
INVENTORY.md lists every field with its rule and its reset value. -/

namespace Sys2Proof.Machine

/-- A memory: (address, byte) cells, addresses strictly rising, no cell equal to what an unlisted address reads as. -/
abbrev Mem := List Host.Cell

/-! ### Events (22) -/

/-- An event record (22 Table 22.2), with the destinations that took it (R394). -/
structure EvRec where
  time     : Nat
  eseq     : BitVec 32
  block    : Nat
  severity : Nat
  number   : Nat
  location : BitVec 32
  seq      : BitVec 8
  merged   : Bool
  keepalive : Bool
  lost     : Bool
  count    : Nat
  detail   : Word64
  /-- Taken by the management controller. -/
  tookMgmt : Bool
  /-- Taken by the host ring. -/
  tookHost : Bool
deriving DecidableEq, Repr

/-- The event path (22 R394-R400, Table 22.5). -/
structure EvSt where
  buf       : List EvRec      -- oldest first
  eseq      : BitVec 32
  lost      : Bool
  dropped   : Nat
  hostDrops : Nat
  seen      : BitVec 4
  ringBase  : Word64
  ringSize  : Nat
  ringOn    : Bool
  /-- When vector 65 was last signalled, and whether a signal is due (R397: at most once in any 2 µs). -/
  sigAt     : Option Nat
  sigDue    : Bool
  prod      : BitVec 32
  cons      : BitVec 32
deriving DecidableEq, Repr

/-! ### Observation (21) -/

/-- A trace record (21 Table 21.2). -/
structure TraceRec where
  time  : Nat
  rseq  : BitVec 32
  kind  : Nat
  seq   : Nat
  wher  : Nat
  tick  : BitVec 32
  data  : List Byte
  /-- The die whose buffer holds it (R387). -/
  die   : Nat
deriving DecidableEq, Repr

/-- The power state of the trace domain (21 R385, 20 Table 20.2). -/
inductive TraceDomain where
  | off
  | powering
  | on
  | draining
deriving DecidableEq, Repr

/-- Fibry (21 R381-R389, Table 21.4). `ctr` holds the counters that are not zero, by index. -/
structure ObsSt where
  ctr      : List (Nat × Nat)
  kinds    : BitVec 16
  seqs     : BitVec 32
  domains  : BitVec 4
  enable   : Bool
  ringBase : Word64
  ringSize : Nat
  prod     : BitVec 32
  cons     : BitVec 32
  rseq     : BitVec 32
  buf      : List TraceRec
  dropSaid : Bool
  domain   : TraceDomain
deriving DecidableEq, Repr

/-! ### Tick unit (02) -/

/-- The phase of a tick (02 Table 2.6); `noRecord` is code 7. -/
inductive Phase where
  | admission
  | window
  | drain
  | guard
  | noRecord
deriving DecidableEq, Repr

/-- A latched plan record (02 Table 2.5). -/
structure PlanRec where
  gen        : Nat
  source     : Nat
  rate       : Nat
  admitUs    : Nat
  drainUs    : Nat
  guardUs    : Nat
  mask       : BitVec 192
  cp1        : Nat
  cp2        : Nat
  allow      : Nat
  ptpPort    : Nat
  anchorTick : Nat
  anchorTime : Nat
  costTable  : Nat
  admitQueue : Nat
  playoutCfg : Nat
deriving DecidableEq, Repr

/-- One entry of a playout block (18 Table 18.2). -/
structure FlowCfg where
  flow      : Nat
  kind      : Nat
  ports     : Nat
  depth     : Nat
  repeatMax : Nat
  pass      : Nat
  slate     : Nat
  format    : Nat
  width     : Nat
  height    : Nat
  pt        : Nat
  dscp      : Nat
  ttl       : Nat
  ssrc      : BitVec 32
  udp       : BitVec 32
  troNs     : Nat
  pitch     : Nat
  dstIp     : BitVec 128
  dstIpB    : BitVec 128
  ring      : Nat
  ringBytes : Nat
deriving DecidableEq, Repr

/-- One tick domain (02 R15-R31, Tables 2.6 and 2.7). -/
structure DomSt where
  running     : Bool
  tickNo      : Nat
  phase       : Phase
  latchedGen  : Nat
  latchedSlot : Bool
  plan        : Option PlanRec
  /-- Generation word last rejected (R26). -/
  lastRej     : Option Nat
  /-- Source, rate and PTP port in force, and those that the next boundary brings (R17). -/
  source      : Nat
  rate        : Nat
  ptpPort     : Nat
  nextRate    : Option (Nat × Nat × Nat)
  acquired    : Bool
  hasTime     : Bool
  holdover    : Bool
  /-- Phase error still to be slewed away, ns (R17). -/
  phaseErr    : Int
  /-- An anchor by which the next boundary is numbered (R16): a tick number and the local time of its boundary. -/
  renumber    : Option (Nat × Int)
  /-- Media time of the tick's boundary on its grid, in 1/240,000 s since tick 0 or the SMPTE epoch (18 R338). -/
  clock       : Nat
  tickStart   : Nat
  windowStart : Nat
  events      : BitVec 6
  /-- The device's own consumer position of the admission queue, the start and the end of this admit phase's part of
  it, and whether that part is still being processed (R243). -/
  cons        : Nat
  qStart      : Nat
  qEnd        : Nat
  admitting   : Bool
  /-- CONS could not be written: the device's own position stands (11 R421). -/
  consOwn     : Bool
  /-- L1 and L2 work pre-empted for the rest of the tick (R29). -/
  stopL1      : Bool
  stopL2      : Bool
  /-- Sequence that a checkpoint pre-emption is charged to (13 R255). -/
  payer       : Option Nat
  /-- Flows in force, and the copied block that governs from the next boundary (18 R336). -/
  flows       : List FlowCfg
  flowsNext   : Option (List FlowCfg)
deriving DecidableEq, Repr

/-! ### Exact values and panels (03, 04 R67) -/

/-- The exact value n x 2^e. -/
structure Dy where
  n : Int
  e : Int
deriving DecidableEq, Repr

/-- A value that may be poison. -/
abbrev Val := Option Dy

/-- What an operand position reads as, and whether it held a marker that no gutter entry covers. -/
structure Elem where
  v    : Val
  bare : Bool
deriving DecidableEq, Repr

/-- The panel of one operand in one step: a row of elements for each tile position, the terms of the scale-derived
anchor, and how many elements a widening saturated. -/
structure Panel where
  elems : List (List Elem)
  terms : List Int
  sat   : Nat
deriving DecidableEq, Repr

/-- A panel that the sequencer holds (04 R67): the thread and the issue of the instruction that read it, what names it
(its place, formats, rows and K positions, as numbers), and its elements. -/
structure HeldPanel where
  thr   : Nat
  stamp : Nat
  key   : List Int
  panel : Panel
deriving DecidableEq, Repr

/-! ### Sequences and work (13) -/

/-- A work item record (13 Table 13.4) and where it stands. -/
inductive ItemPhase where
  /-- On the list, not yet placed. -/
  | waiting
  /-- Placed in this tick, its threads not started yet. -/
  | placed
  /-- Its threads are on its clusters. -/
  | running
  /-- Saved; restored when placed again. -/
  | carried
deriving DecidableEq, Repr

/-- Thread state that a save holds (13 Table 13.6), and why the thread waits. -/
inductive Wait where
  | none
  | tile
  | barrier (workItem : Bool) (id count : Nat)
  | mfence
  | exitFence
  | tfence
  | dwait
  | cwait
  /-- The engine that takes the command is full; the thread stands at its DQ. -/
  | dqFull (e : Nat)
  /-- The collective unit is full; the thread stands at its CQ. -/
  | cqFull (q : Nat)
  | fault (tag : BitVec 32)
  /-- A T4 load or ATOM is outstanding; the register that takes its result. -/
  | t4 (req : BitVec 32) (reg : Fin 32)
deriving DecidableEq, Repr

/-- The states of a thread (09 Table 9.2). -/
inductive ThrState where
  | free
  | ready
  | waiting
  | saved
  | suspended
  | exited
deriving DecidableEq, Repr

/-- A tile instruction in progress (04 R60, R64, 05 R85, R92, 13 Table 13.6): its opcode and word; its per-problem and
precision descriptors as they stood at issue, and the bucket's extents with the problem number. Then how far it is: the
curve index of its cell (the number of its unit on the frequency path), its next K step, the formats it reads its operands
in and whether from their source copies, L, whether this attempt is a re-execution, whether its group is open, the attempt's
array cycles so far, and the events raised for the tile. -/
structure TileProg where
  opc    : Nat
  word   : BitVec 248
  desc   : List Byte
  prec   : Option (List Byte)
  ext    : List Nat
  begun  : Bool
  curve  : Nat
  step   : Nat
  fmtA   : Nat
  wideA  : Bool
  fmtB   : Nat
  wideB  : Bool
  level  : Nat
  rerun  : Bool
  isOpen : Bool
  cycles : Nat
  said30 : Bool
  said31 : Bool
  said43 : Bool
deriving DecidableEq, Repr

/-- A hardware thread (09 Table 9.1). -/
structure Thread where
  state      : ThrState
  pc         : Word64
  regs       : List Word64     -- G1-G31
  pidx       : Nat
  rank       : Nat
  tdescBase  : Nat
  tdescCount : Nat
  pdescBase  : Nat
  pdescCount : Nat
  vdescBase  : Nat
  vdescCount : Nat
  seq        : Nat
  domain     : Nat
  /-- The work item it runs (the item's number). -/
  item       : Nat
  wait       : Wait
  /-- When it last issued, as a count of issues (R165). -/
  stamp      : Nat
  /-- Its tile instruction, from issue until its last step is done. -/
  prog       : Option TileProg
deriving DecidableEq, Repr

/-- An LA96 element (03 R43): its extended value E modulo 2^125 and its three flags. -/
structure LaElem where
  e       : BitVec 125
  inexact : Bool
  ovf    : Bool
  poison  : Bool
deriving DecidableEq, Repr

/-- An accumulation group (03 R48, 04 R62): its owner, its extents, anchor, step count, formats, L, the elements that its
widened operands saturated (03 R39, 05 R83), and its own elements. -/
structure Group where
  item    : Nat
  rank    : Nat
  m       : Nat
  n       : Nat
  anchor  : Int
  count   : Nat
  fmtA    : Nat
  fmtB    : Nat
  level   : Nat
  sat     : Nat
  elems   : List LaElem      -- row-major, m x n
deriving DecidableEq, Repr

/-- One physical accumulator slot of a cluster (04 R62, R63). -/
structure AccSlot where
  /-- The work item it is granted to and the number that item names it by. -/
  owner      : Option (Nat × Nat)
  group      : Option Group
  /-- The thread number whose close is being converted, while the converter runs, and the bytes that the conversion
  writes into the cluster store: offsets and bytes (R63). -/
  converting : Option Nat
  result     : List (Nat × List Byte)
deriving DecidableEq, Repr

/-- The saved image of one item on one cluster (13 R254): the cluster, its threads by number, and its open groups with the
slot numbers they had. -/
structure SaveImg where
  cluster : Nat
  threads : List (Nat × Thread)
  groups  : List (Nat × Group)
deriving DecidableEq, Repr

/-- A work item on a sequence's list (13 Table 13.4, R249-R254). -/
structure Item where
  num      : Nat
  order    : Nat
  launch   : Nat
  costNs   : Nat
  clusters : Nat
  nthr     : Nat
  acc      : Nat
  affinity : Nat
  kind     : Nat
  doneVa   : Nat
  target   : Nat
  phase    : ItemPhase
  placed   : List Nat
  prev     : List Nat
  saves    : List SaveImg
  lastTick : Nat
  deferred : Bool
  /-- FAULT_VA of its launch record, once read (09 R422). -/
  faultVa  : Nat
  /-- It was pre-empted at a checkpoint: who pays for its restore (13 R255). -/
  payer    : Option Nat
  /-- It read a poisoned weight sector or a holed collective (12 R238, 15 R292). -/
  spoiled  : Bool
  /-- Its own thread caused a termination (13 R247). -/
  terminated : Bool
  /-- It is an item of the first refinement pass after HISTORY_VALID was cleared (05 R95). -/
  firstPass : Bool
  /-- Placed in the tick (02 R28). -/
  placedTick : Bool
  /-- It waits for the next window because a cluster had too few threads or slots for it (09 R164). -/
  short    : Bool
  /-- Sectors of its save area that a restore has read so far: address, bytes (11 R222). -/
  kept     : List (Nat × List Byte)
deriving DecidableEq, Repr

/-- A batch that waits for its target tick (13 R249). -/
structure Batch where
  target : Nat
  items  : List Item
deriving DecidableEq, Repr

/-- STATE of a slot (13 Table 13.1). -/
inductive SeqState where
  | free
  | active
  | departing
deriving DecidableEq, Repr

/-- One slot of the sequence table (13 Table 13.1) and what the tick unit keeps beside it. -/
structure SeqSlot where
  state       : SeqState
  cls         : Nat
  domain      : Nat
  coarse      : Bool
  fault       : Bool
  history     : Bool
  onFallback  : Bool
  deferred    : Bool
  primary     : Nat
  fallback    : Nat
  running     : Nat
  tag         : Word64
  kvDesc      : Word64
  resBase     : Word64
  resBytes    : Nat
  saveBase    : Word64
  saveN       : Nat
  lateRun     : Nat
  coarseRun   : Nat
  deferRun    : Nat
  historyRatio : BitVec 32
  historyCount : Nat
  backRun     : Nat
  reserved    : Nat
  admitTick   : Nat
  -- beside the slot
  batches     : List Batch
  items       : List Item
  chargedNs   : Nat
  totalCost   : Nat
  doneCost    : Nat
  /-- Restore time of the tick that another sequence pays, in ns (13 R255). -/
  exemptNs    : Nat
  /-- Rethatch allowance granted for the tick, in 1/256 ns (05 R87), what has been taken of it, and what has been charged in
  the tick, both in units of 1 / (3,724,680,960 x N_c) ns. -/
  allow256    : Nat
  allowUsed   : Nat
  rethatchUsed : Nat
  denied      : Bool
  lateCp2     : Bool
  late21      : Bool
  /-- Moves that sequence notices call for, by tick; true is to the fallback (13 R258). -/
  moves       : List (Nat × Bool)
  said022     : Bool
  beginRefused : Bool
  recheck     : Bool
  ringBytes   : Nat
  /-- Frames whose tag is cleared at the next admit phase (07 R138). -/
  badFrames   : List Nat
  /-- The first full refinement pass has completed since HISTORY_VALID was cleared (05 R95). -/
  passDone    : Bool
  shedSaid    : Bool
  /-- Departs at the next admit phase (09 R174, 07 R126). -/
  departNext  : Bool
  /-- Clusters that the work list assigned to the sequence in the tick (05 R87). -/
  assigned    : List Nat
  /-- It runs on its fallback by a model notice (12 R239). -/
  byNotice    : Bool
  /-- Target ticks of batches of which an item was spoiled (12 R238, 15 R292). -/
  spoiled   : List Nat
deriving DecidableEq, Repr

/-! ### Clusters (04, 09) -/

/-- A step of a tile instruction, as its trace record tells it (21 Table 21.3): cycles, formats, GRP. -/
structure StepRec where
  cycles : Nat
  fmtA   : Nat
  fmtB   : Nat
  grp    : Nat
deriving DecidableEq, Repr

/-- What occupies the array (04 R56): the thread, its work item and sequence, the opcode and problem, the step, the
promotion that is charged as it ends (05 R88: cycles and the rung reached), and what it writes into the cluster store as it
ends (09 R174). -/
structure ArrayStep where
  thr  : Nat
  item : Nat
  seq  : Nat
  opc  : Nat
  prob : Nat
  step : StepRec
  promo : Option (Nat × Nat)
  out  : List (Nat × List Byte)
deriving DecidableEq, Repr

/-- One cluster. -/
structure ClusterSt where
  dom     : Option Nat
  /-- Local time at which it last left a domain (02 R23). -/
  freedAt : Option Nat
  powered : Bool
  tag     : Nat
  array   : Option ArrayStep
  /-- The panels of the step just executed (04 R67). -/
  heldA   : Option HeldPanel
  heldB   : Option HeldPanel
  /-- Threads whose next step waits for the array or for a slot, in the order of R56. -/
  waitQ   : List Nat
  slots   : List AccSlot
  threads : List Thread
  issues  : Nat
  /-- Elements that the last VQNT or VCVT saturated, by gutter region or by row (03 R39, 06 R103). -/
  vecSat  : List Nat
deriving DecidableEq, Repr

/-! ### Memory stacks (10) -/

/-- An open eaves entry (10 R181): its sector, the bytes written (offset, byte), and when it opened. -/
structure Eaves where
  sector : Nat
  bytes  : List (Nat × Byte)
  opened : Nat
deriving DecidableEq, Repr

/-- One stack (10 Table 10.3, R189). `row` numbers the rows of Table 10.1 from 0. -/
structure StackSt where
  temp      : Int
  row       : Nat
  coolSince : Option Nat
  /-- Powered without a valid reading yet: 4x refresh (R188). -/
  noReading : Bool
  failed    : Bool
deriving DecidableEq, Repr

/-- A lane or row repair (10 R194), as GET_REPAIRS and the repair list name it (19 R356). -/
structure Repair where
  channel : Nat
  isRow   : Bool
  lane    : Nat
  bank    : Nat
  row     : Nat
  /-- The spare lane or spare row that took its place. -/
  spare   : Nat
deriving DecidableEq, Repr

/-- Tier T2 and its channels. -/
structure MemSt where
  stack      : Mem
  /-- Sectors that hold the reserved check pattern (R185). -/
  poison     : List Nat
  /-- Physical errors that stand in sectors until a read meets them (MODEL's own field, log entry 5). -/
  eccErr     : List (Nat × EccKind)
  /-- Sectors that a quadrant cache holds (R9). -/
  lines      : List Nat
  eaves      : List Eaves      -- oldest first
  on         : Bool
  stks     : List StackSt
  /-- Corrected and uncorrectable errors: channel, time (R193). -/
  corrTimes  : List (Nat × Nat)
  uncorrTimes : List (Nat × Nat)
  /-- Corrected errors by row: channel, bank, row, time (R194). -/
  rowErrs    : List (Nat × Nat × Nat × Nat)
  repairs    : List Repair     -- made since boot, oldest first
  bootRepairs : List Repair    -- applied at boot (19 R356)
  rowsFull   : List (Nat × Nat × Nat)
  retrainReq : List Nat
  /-- Channels in a full retrain, and when each began (R193). -/
  retraining : List (Nat × Nat)
  /-- Times in which maintenance blocked a channel: from, to (R195). -/
  maint      : List (Nat × Nat)
  retrainTimes : List (Nat × Nat)
  lastRetrain : Option Nat
  /-- Channels that fail the next training (MODEL's own field, log entry 5). -/
  untrainable : List Nat
deriving DecidableEq, Repr

/-- Spectra that PREP has written for one output channel (08 R153): the geometry, the filter's values in its K order, and the
bytes. MODEL's own record, by which the bound of R151 is tied to the filter (log entry 18). -/
structure Prep where
  geom   : List Nat
  filter : List Dy
  bytes  : List Byte
deriving DecidableEq, Repr

/-- The cluster stores and host memory. A store byte has the key cluster x 2^24 + offset. -/
structure StoreSt where
  cs       : Mem
  /-- Poisoned store sectors: key / 32. -/
  csPoison : List Nat
  csErr    : List (Nat × EccKind)
  host     : Mem
  preps    : List Prep
deriving DecidableEq, Repr

/-! ### Translation and DMA (11) -/

/-- A page-table entry that a translation or walk cache holds (11 R203): its level, the local virtual address above the
level's span, and the entry as it was read. -/
structure PtEntry where
  level  : Nat
  key    : Nat
  entry  : Word64
  /-- The cache that holds it: of base die 0-3, or 4 + e of engine e. -/
  home   : Nat
deriving DecidableEq, Repr

/-- Who issued a DMA command or waits for a translation (11 R210, R217). -/
inductive Issuer where
  /-- Thread: cluster, thread, work item. -/
  | thread (c t item : Nat)
  | host
deriving DecidableEq, Repr

/-- A DMA, key/value, codec or PLAY command of 64 bytes, as accepted, and how far it is. -/
structure DmaCmd where
  num      : Nat
  raw      : BitVec 512
  issuer   : Issuer
  /-- Address of the instruction that issued it (09 Table 9.8). -/
  pc       : Word64
  /-- RANK and PIDX of the thread that issued it, its slot, and the target tick of its work item's batch. -/
  rank     : Nat
  pidx     : Nat
  owner    : Nat
  target   : Nat
  done     : Nat
  faults   : Nat
  poisoned : Nat
  /-- Pieces complete, and sectors of the next one complete (R217). -/
  parts    : Nat
  within   : Nat
  /-- The sector at which a PCIe completion error or timeout meets it (R216). -/
  errAt    : Option Nat
  /-- PLAY for this flow and tick was accepted (18 R341). -/
  started  : Bool
deriving DecidableEq, Repr

/-- One DMA engine (11 R208-R217). -/
structure EngSt where
  head    : BitVec 10
  tail    : BitVec 10
  thrQ    : List DmaCmd
  hostQ   : List DmaCmd
  /-- Commands stopped at a fault, oldest first, with the tags; beyond four of them the engine is stalled (R217). -/
  parked  : List (BitVec 32 × DmaCmd)
  /-- A host-issued command goes next within a rank (R213). -/
  hostTurn : Bool
  /-- The command that runs and waits for a peer's answer (11 R223, 14 R275). -/
  cur      : Option DmaCmd
  /-- Since when the engine is stalled (R217). -/
  stallAt  : Option Nat
deriving DecidableEq, Repr

/-- What waits on an outstanding fault. -/
inductive Requester where
  /-- Thread access: cluster, thread, work item. -/
  | thread (c t item : Nat)
  | engine (e : Nat)
  /-- Restore of a work item: sequence, item. -/
  | restore (slot item : Nat)
  /-- The load of a yealm: model, GEN of its copy, yealm (12 R229). -/
  | load (m gen y : Nat)
  /-- A peer's request: member, request number. -/
  | peer (src req : Nat)
  | none
deriving DecidableEq, Repr

/-- A fault record (11 Table 11.5) that stands in the ring, and what waits on it. -/
structure FaultRec where
  tag     : BitVec 32
  code    : Nat
  kind    : Nat
  level   : Nat
  va      : Nat
  who     : Nat
  seq     : Nat
  final   : Bool
  done    : Nat
  cmdTag  : BitVec 32
  /-- The peer's device index; none for the own one (Table 11.5). -/
  peer    : Option Nat
  req     : Requester
  arose   : Nat
  /-- Tick boundaries of its domain since it arose (R219). -/
  ticks   : Nat
deriving DecidableEq, Repr

/-- A memory request to a peer that is not answered yet (11 R223, 14 R280). -/
structure T4Req where
  req     : BitVec 32
  who     : Requester
  item    : Nat
  dst     : Nat
  op      : MemOp
  va      : Nat
  sectors : Nat
  data    : List Byte
  /-- A FAULTED answer came: the peer's tag, this device's own tag, boundaries since. -/
  faulted : Option (BitVec 32 × BitVec 32 × Nat × Nat)
  sentAt  : Nat
  size    : Nat
  /-- Address of the instruction, for a thread's access (09 Table 9.8). -/
  pc      : Word64
deriving DecidableEq, Repr

/-- Translation state (11 R200-R224, Table 11.8). -/
structure XltSt where
  tlb       : List PtEntry
  /-- Invalidations not yet completed: start and log2 of the bytes covered, or none for all of them (R204). -/
  invals    : List (Option (Nat × Nat))
  produced  : BitVec 32
  invalDone : BitVec 32
  faults    : List FaultRec
  nextTag   : BitVec 32
  t4        : List T4Req
  nextReq   : BitVec 32
deriving DecidableEq, Repr

/-! ### Weights (12) -/

/-- A yealm entry (12 Table 12.3), as accepted. -/
structure Yealm where
  layer : Nat
  kind  : Nat
  crc   : BitVec 32
  va    : Nat
  bytes : Nat
  twin  : Nat
  src   : Nat
  aux   : Nat
deriving DecidableEq, Repr

/-- A manifest (12 R228), as accepted. -/
structure Manifest where
  va      : Nat
  gen     : Nat
  modelId : Nat
  nyealm  : Nat
  fallback : Nat
  same    : Bool
  nlayer  : Nat
  ents    : List Yealm
deriving DecidableEq, Repr

/-- A copy of a model's weights in a manifest slot (12 R232), with the STATUS of each yealm that is not valid. -/
structure WCopy where
  gen    : Nat
  slot   : Bool
  man    : Manifest
  /-- Yealms with STATUS 3 or 4: index, status. -/
  bad    : List (Nat × Nat)
  /-- TWIN copies that passed verification (R237). -/
  twinOk : List Nat
  /-- WGT.022 was raised for these yealms. -/
  said022 : List Nat
  /-- Refetches in progress: yealm, attempts made (R237). -/
  refetch : List (Nat × Nat)
deriving DecidableEq, Repr

/-- A build in progress (12 R232): its copy, the STATE before it, whether it is loading, and the yealm that loads next. -/
structure Build where
  copy    : WCopy
  before  : Nat
  loading : Bool
  next    : Nat
deriving DecidableEq, Repr

/-- An old copy still referenced (12 R235): the items placed before the switch that have not finished, and all that were, by
sequence and number, less those of sequences that departed. -/
structure OldCopy where
  copy   : WCopy
  items  : List Nat
  placed : List (Nat × Nat)
deriving DecidableEq, Repr

/-- The HOST_IN of a yealm that is stopped at a fault (12 R229, 11 R217): the GEN of its copy, the yealm, the engine. -/
structure LoadJob where
  gen : Nat
  y   : Nat
  eng : Nat
  cmd : DmaCmd
deriving DecidableEq, Repr

/-- One catalogue entry, as the device holds it (12 R227-R239). -/
structure ModelSt where
  /-- DOMAIN of the entry, as last read (R227). -/
  dom      : Nat
  maxGen   : Nat
  lastRej  : Option Nat
  state    : Nat
  live     : Option WCopy
  /-- Builds in progress, oldest first. -/
  build    : List Build
  ready    : List WCopy
  old      : Option OldCopy
  retired  : Nat
  lapsed   : Option Nat
  /-- NVMe/TCP attempts of a Read command: yealm, command of the yealm, attempts (R230). -/
  fetchTries : List (Nat × Nat × Nat)
  fetchPort  : Nat
  /-- Loads that are stopped at a fault. -/
  loads    : List LoadJob
  /-- Model notices not due yet, by tick; true is a fallback notice (R239). -/
  notices  : List (Nat × Bool)
  /-- Ticks that fallback notices named which were due lately. -/
  fbTicks  : List Nat
  /-- Fallback notices are being sent by this member. -/
  noticing : Bool
  returnsLeft : Nat
  /-- The model's sequences run on the fallback by a model notice (R239). -/
  fallen   : Bool
  /-- A device field of the entry could not be written and is written again (11 R421). -/
  owed     : Bool
  /-- STATUS bytes of manifests that could not be written: address and value. -/
  owedStat : List (Nat × Nat)
deriving DecidableEq, Repr

/-! ### Links (14) -/

/-- A flit on its way to a link's wire: the port that its packet came in by (8: it is the device's own), class, order,
dateline lane, SOP, EOP, 242 payload bytes. -/
structure TxFlit where
  port  : Nat
  cls   : Nat
  order : Bool
  lane  : Bool
  sop   : Bool
  eop   : Bool
  pay   : BitVec 1936
deriving DecidableEq, Repr

/-- One Evten link (14 R263-R267, R278-R279). -/
structure LinkSt where
  active   : Bool
  training : Bool
  removed  : Bool
  hot      : Bool
  txSeq    : BitVec 12
  rxSeq    : BitVec 12
  replay   : List (BitVec 12 × BitVec 2048)
  /-- Flits sent and not yet returned as credits, by class, order, lane: index 4 x class + 2 x order + lane (R278). -/
  inFlight : List Nat
  /-- Flits taken in whose packet is not whole, and flits freed and not yet returned as credits, by the same index. -/
  rxHeld   : List Nat
  owed     : List Nat
  txQ      : List TxFlit
  /-- Flits sent in the last 256 flit slots: slot number and class, newest first; and the first slot not used (R279). -/
  slots    : List (Nat × Nat)
  slotNo   : Nat
  rrNext   : Nat
  /-- The input port whose transit packet went last, and whether that packet is still under way (R279). -/
  tPort    : Nat
  tOpen    : Bool
  /-- Replays of flits: FSEQ, time; failed retrains: time (R266). -/
  retries  : List (BitVec 12 × Nat)
  fails    : List Nat
  latency  : Nat
  /-- The training in progress is a retrain (R266). -/
  again    : Bool
deriving DecidableEq, Repr

/-- The state of a neighbour port (14 R268, Table 14.7). -/
inductive PortState where
  | down
  | up
  | fenced
  | unused
deriving DecidableEq, Repr

/-- One neighbour port (14 R267, R268). -/
structure PortSt where
  state    : PortState
  nbr      : BitVec 16
  /-- Next PSEQ to send, by class (log entry 43). -/
  txPseq   : List (BitVec 16)
  rxPseq   : List (BitVec 16)     -- next PSEQ by class
  held     : List (BitVec 128 × List Byte)
  lastDrop : Option Nat
deriving DecidableEq, Repr

/-- A slice record (14 Table 14.3). -/
structure SliceRec where
  gen      : Nat
  sliceId  : BitVec 16
  origin   : BitVec 16
  extent   : BitVec 16
  domain   : Nat
  nsub     : Nat
  switchTick : Nat
  dirBase  : Nat
  subs     : List (Nat × BitVec 16)
deriving DecidableEq, Repr

/-- The device's place in the torus (14 R269-R273, Table 14.6). -/
structure SelfSt where
  coord      : BitVec 16
  dims       : BitVec 16
  coordValid : Bool
  waitOver   : Bool
  slice      : Option SliceRec
  latchedGen : Nat
  latchedSlot : Bool
  lastRej    : Option Nat
  member     : Bool
  index      : Nat
  sliceId    : BitVec 16
  /-- The copied direction table, one byte per index; empty for the default rule (R273). -/
  dirs       : List Byte
deriving DecidableEq, Repr

/-! ### Collectives (15) -/

/-- A collective descriptor (15 Table 15.1). -/
structure ColDesc where
  op      : Nat
  mode    : Nat
  infmt   : Nat
  outfmt  : Nat
  cid     : BitVec 32
  nmem    : Nat
  anchor  : Int
  tileM   : Nat
  tileN   : Nat
  srcT0   : Bool
  dstT0   : Bool
  root    : Nat
  group   : Nat
  src     : Nat
  srcLd   : Nat
  rows    : Nat
  cols    : Nat
  dstLd   : Nat
  dst     : Nat
  aux0    : Nat
  aux1    : Nat
  aux1Ld  : Nat
  timeoutUs : Nat
  cpl     : Nat
  emap    : Nat
  cap     : Nat
  topk    : Nat
  cluster : Nat
  /-- Quadrant of the unit that accepted it. -/
  quad    : Nat
deriving DecidableEq, Repr

/-- A shard that was sent and is kept until it is acknowledged (15 R290), with the place of its copy in the retention
region. -/
structure Retained where
  dst   : Nat
  shard : Shard
  place : Nat
deriving DecidableEq, Repr

/-- A collective in progress on a unit (15 R283-R297). -/
structure Collective where
  desc     : ColDesc
  members  : List Nat
  pos      : Nat
  issuer   : Issuer
  /-- Address of the CQ that issued it, RANK and PIDX of its thread (09 Table 9.8). -/
  pc       : Word64
  rank     : Nat
  pidx     : Nat
  item     : Nat
  seq      : Nat
  tick     : Nat
  accepted : Nat
  /-- The expert home map, copied at acceptance (R295). -/
  emap     : List Byte
  /-- Contributions received: group position of the sender, offset, bytes. -/
  got      : List (Nat × Nat × List Byte)
  /-- Shards that wait for room in the retention region, and those sent and not yet acknowledged (R290). -/
  toSend   : List Retained
  sent     : List Retained
  retries  : Nat
  /-- Failed copies by sender and shard. -/
  bad      : List (Nat × BitVec 32 × Nat)
  rescaled : Bool
  inexact  : Bool
  ovf     : Bool
  poisoned : Bool
  dropped  : Bool
  /-- The own block is reduced, or the rows of a dispatch or combine are placed. -/
  reduced  : Bool
  /-- Pace notices outstanding: sender, number, delay in ns (R294). -/
  paces    : List (BitVec 16 × Nat × Nat)
  paceSaid : Bool
deriving DecidableEq, Repr

/-- One collective unit. -/
structure ColUnit where
  inProg : List Collective
deriving DecidableEq, Repr

/-- What the four units share. -/
structure ColSt where
  units    : List ColUnit
  /-- Collectives that completed here: CID and tick (R290 "Duplicate"). -/
  done     : List (BitVec 32 × Nat)
  noticeNo : Nat
  /-- Notices of an own cap have gone out, and none yet of its end (R294). -/
  paceOn   : Bool
deriving DecidableEq, Repr

/-! ### Snapshots (16) -/

/-- A protected tensor (16 Table 16.1). -/
structure Tensor where
  va     : Nat
  bytes  : Nat
  period : Nat
deriving DecidableEq, Repr

/-- A protection record (16 Table 16.1). -/
structure ProtRec where
  gen         : Nat
  seq         : Nat
  buddy       : Nat
  ward        : Nat
  restore     : Bool
  force       : Bool
  stepVa      : Nat
  stageVa     : Nat
  stageBytes  : Nat
  mirrorVa    : Nat
  mirrorBytes : Nat
  restoreStep : Nat
  tensors     : List Tensor
deriving DecidableEq, Repr

/-- A capture in progress (16 R302). -/
structure Capture where
  step     : Nat
  slot     : Bool
  snapshot : Bool
  startedAt : Nat
deriving DecidableEq, Repr

/-- The resilience state (16 Table 16.2 and R302-R308). CAPT and LAST_SNAP: none is all ones. -/
structure SnpSt where
  prot        : Option ProtRec
  latchedGen  : Nat
  latchedSlot : Bool
  lastRej     : Option Nat
  capt        : Option Nat
  lastSnap    : Option Nat
  nextSnap    : Nat
  wardSnap    : Nat
  wardM0      : Word64
  wardM1      : Word64
  restored    : Nat
  /-- The averages of R306 in ns, once there is a measurement; C_US and STEP_US show them in µs. -/
  cNs         : Option Nat
  stepNs      : Option Nat
  mtbfS       : Nat
  f           : Nat
  n           : Nat
  tObs        : Nat
  method      : BitVec 128
  written     : BitVec 128
  /-- Tensors dirtied since the capture whose drain is in progress. -/
  dirtiedSince : BitVec 128
  capture     : Option Capture
  /-- Staging holds the snapshot of this step: the step, its mirror slot, whether its drain has started. -/
  staged      : Option (Nat × Bool × Bool)
  /-- A drain of the ward's snapshot into the own store: the step, the store slot. -/
  wardDrain   : Option (Nat × Bool)
  /-- A restore in progress: the step. -/
  restoring   : Option Nat
  lastCapture : Option (Nat × Nat)
  captures    : Nat
  forceNext   : Bool
  /-- The ward's mirror slot that a drain holds. -/
  wardHold    : Option Bool
  /-- Bytes before the trailer in each of the ward's mirror slots. -/
  wardLen     : List Nat
  /-- Where the tensors begin in each of the ward's mirror slots. -/
  wardStarts  : List (List Nat)
  store       : Mem
  storeOk     : Bool
  nsze        : Nat
  /-- The history was taken at the leader's first latch since boot (R307). -/
  histTaken   : Bool
deriving DecidableEq, Repr

/-! ### Codec (17) -/

/-- A codec context descriptor (17 Table 17.4). -/
structure CtxDesc where
  dir       : Nat
  ctx       : Nat
  std       : Nat
  profile   : Nat
  tier      : Nat
  level     : Nat
  depth     : Nat
  chroma    : Nat
  width     : Nat
  height    : Nat
  rateNum   : Nat
  rateDen   : Nat
  cls       : Nat
  domain    : Nat
  gop       : Nat
  refs      : Nat
  keyint    : Nat
  cq        : Nat
  aq        : Nat
  capPic    : Nat
  rate      : Nat
  buf       : Nat
  pitch     : Nat
  chromaOff : Nat
  dpbBase   : Nat
  dpbBytes  : Nat
  ringBase  : Nat
  ringBytes : Nat
deriving DecidableEq, Repr

/-- A picture that a context works on (17 R323, R326): its command, how many block rows are done and the bits spent. -/
structure Picture where
  cmd      : DmaCmd
  eng      : Nat
  deadline : Nat
  begun    : Bool
  key      : Bool
  rowsDone : Nat
  rows     : Nat
  budget   : Nat
  spent    : Nat
  /-- The source bytes read so far. -/
  src      : List Byte
  stage    : Nat
  srcPoison : List Nat       -- blocks with a poisoned source sample
  flags    : BitVec 16
  au       : Option AccessUnit
  level    : Nat
  /-- Its command is parked on a fault (17 R331). -/
  parked   : Bool
deriving DecidableEq, Repr

/-- One codec context (17 R316-R332). -/
structure CtxSt where
  desc     : Option CtxDesc
  level    : Nat
  lastBits : Nat
  sinceKey : Option Nat
  picNo    : Nat
  queue    : List Picture
  run2     : Bool
  run3     : Bool
  /-- Orders of the pictures held as references. -/
  dpb      : List (BitVec 32)
  /-- The context has decoded a picture since OPEN. -/
  decoded  : Bool
  concealing : Bool
  /-- RASL pictures of the last key picture are discarded (17 R329). -/
  skipRasl : Bool
  /-- COD.020 was raised in this concealment run (17 R328). -/
  said020  : Bool
  prodAt   : Nat
  /-- What coding or decoding carries from picture to picture (17 R323; Config.coderStart). -/
  coder    : Nat
  /-- A CLOSE that waits for earlier commands: its engine and command (17 R318). -/
  closing  : Option (Nat × DmaCmd)
deriving DecidableEq, Repr

/-- The codec complexes (17 R311-R327). Contexts 0-63 encode, 64-127 decode. -/
structure CodSt where
  ctxs    : List CtxSt
  keyReq  : Word64
  fileTurn : List Nat        -- next file context per complex and half
  encOn   : List Bool
  decOn   : List Bool
deriving DecidableEq, Repr

/-! ### Media (18) -/

/-- A frame in the playout store: its tick, whether it is good (18 R341), its length and bytes. -/
structure Frame where
  tick  : Nat
  good  : Bool
  bytes : Nat
  data  : Mem
deriving DecidableEq, Repr

/-- A frame as an input flow receives it: the payloads so far, complete or spoiled, arrival of its last packet. -/
structure InFrame where
  parts   : List (List Byte)
  whole   : Bool
  lost    : Bool
  lastAt  : Nat
deriving DecidableEq, Repr

/-- An RTP packet that an input flow holds: sequence number, timestamp, marker, payload, arrival. -/
structure Packet where
  seq     : BitVec 16
  ts      : BitVec 32
  marker  : Bool
  payload : List Byte
  arrival : Nat
deriving DecidableEq, Repr

/-- One media flow (18 R340-R347, Table 18.6). -/
structure FlowSt where
  cfg      : Option FlowCfg
  domain   : Nat
  lastTick : Nat
  repeats  : Nat
  source   : Nat
  inRun    : Bool
  waiting  : List Frame
  held     : Option Frame
  /-- Ticks for which a PLAY was accepted (R341). -/
  accepted : List Nat
  slots    : List InFrame
  nextSeq  : Option (BitVec 16)
  /-- Packets held for merging or reordering (18 R339, R347). -/
  window   : List Packet
  /-- Position in the ring that the flow fills (kind 5). -/
  prodAt   : Nat
deriving DecidableEq, Repr

/-- One media port and its clock (18 R334, R335, Table 18.7). -/
structure MPortSt where
  powered   : Bool
  linkUp    : Bool
  ptpLocked : Bool
  hot       : Bool
  coolSince : Option Nat
  /-- Ordinary clock: offset from the master, path delay, and the timestamps of the exchange in progress. -/
  offsetNs  : Int
  delayNs   : Int
  t1        : Option Nat
  t2        : Option Nat
  t3        : Option Nat
deriving DecidableEq, Repr

/-! ### Boot, host, management (19) -/

/-- One step of a special-function micro-program (06 Table 6.3). -/
structure MicroStep where
  code : Nat
  a    : Nat
  b    : Nat
deriving DecidableEq, Repr

/-- A segment of a micro-program (06 Table 6.3). -/
structure Segment where
  centre : BitVec 32
  tag    : Nat
  deg    : Nat
  coef   : List (BitVec 32)
deriving DecidableEq, Repr

/-- A micro-program block and the seam values that boot computes (06 Table 6.3, R107, R108). -/
structure MicroProg where
  slot    : Nat
  outfmt  : Nat
  seglog2 : Nat
  domLo   : BitVec 32
  domHi   : BitVec 32
  steps   : List MicroStep
  consts  : List (BitVec 32)
  segs    : List Segment
  /-- Per segment s > 0, the L of the seam below it; index 0 is the wrap seam; none where there is no flashed seam. -/
  seams   : List (Option (BitVec 32))
deriving DecidableEq, Repr

/-- A slate (19 Table 19.2): number, size, depth, audio channels, offset of its bytes in the flash image and count. -/
structure Slate where
  num    : Nat
  width  : Nat
  height : Nat
  depth  : Nat
  ch     : Nat
  data   : Mem
  bytes  : Nat
deriving DecidableEq, Repr

/-- What the booted image holds (19 Table 19.2, R354). -/
structure ImageCfg where
  params    : List (Nat × Nat)
  progs     : List MicroProg
  playout   : List (List FlowCfg)
  slates    : List Slate
  /-- Per port: MAC and IP; PTP domain number; controllers: address, port, NQN bytes. -/
  macs      : List (Nat × Nat)
  ptpDomain : Nat
  ctrls     : List (Nat × Nat × List Byte)
  i3cAddr   : Nat
  vendorId  : Nat
deriving DecidableEq, Repr

/-- Boot state (19 R350-R358, Tables 19.7 and 19.8). -/
structure BootSt where
  /-- SYS_RST_N is held low by the board (R370). -/
  rstPin    : Bool
  /-- The device is in reset: the pin, VAON out of tolerance, or SYSCLK25 stopped. -/
  inReset   : Bool
  step      : Nat
  sealed    : Bool
  noImage   : Bool
  image     : Bool
  imageSeq  : Nat
  svn       : Nat
  keySlot   : Nat
  win       : Nat
  prefer    : Option Bool
  cfg       : ImageCfg
  /-- BOT_PARAM is readable (boot step 6). -/
  paramsIn  : Bool
  /-- Repair entries received in this boot (R356). -/
  repairCount : Nat
  flash     : Mem
  svnMin    : Nat
  keyHashes : List (BitVec 384)
  revoked   : List Nat
deriving DecidableEq, Repr

/-- PCIe endpoint, storage root port, I3C target (19 R358-R365, 20 Table 20.2). -/
structure HostIf where
  epPowered  : Bool
  /-- The link is up and Bus Master Enable is set. -/
  epUp       : Bool
  stPowered  : Bool
  stUp       : Bool
  /-- Since when the storage root port is powered, and whether its store has been identified or found absent (R355). -/
  stAt       : Nat
  stKnown    : Bool
  dynAddr    : Option (BitVec 7)
  eid        : Option Byte
deriving DecidableEq, Repr

/-- States of the TAP controller (IEEE 1149.1, 19 R367). -/
inductive Tap where
  | testLogicReset | runTestIdle
  | selectDr | captureDr | shiftDr | exit1Dr | pauseDr | exit2Dr | updateDr
  | selectIr | captureIr | shiftIr | exit1Ir | pauseIr | exit2Ir | updateIr
deriving DecidableEq, Repr

/-- The test port (19 R367). -/
structure JtagSt where
  state : Tap
  ir    : BitVec 4
  irSh  : BitVec 4
  /-- The data register being shifted, bit 0 first. -/
  drSh  : List Bool
  tdo   : Bool
deriving DecidableEq, Repr

/-! ### Power (20) -/

/-- One quadrant's clock and temperatures (20 R374, Table 20.7). -/
structure QuadSt where
  tjCd      : Int
  tjBd      : Int
  row       : Nat
  coolSince : Option Nat
  clock     : Nat
deriving DecidableEq, Repr

/-- Why the device is in keep-alive mode, as R379 divides the causes. -/
inductive Cause where
  | thermal
  | rail
  | other
deriving DecidableEq, Repr

/-- Power, thermal and keep-alive state (20 R371-R379, Tables 20.6-20.8). -/
structure PwrSt where
  keepalive : Bool
  causeNum  : Nat
  causeMem  : Bool
  cause     : Cause
  attempts  : Nat
  exhausted : Bool
  enteredAt : Nat
  /-- Since when every temperature is 15 C below its trip, and every rail within tolerance. -/
  coolSince : Option Nat
  railSince : Option Nat
  samples   : List Nat
  cap       : Nat
  episode   : Bool
  /-- The cap has fallen in this episode (R375). -/
  fell      : Bool
  lowRun    : Nat
  overSince : Option Nat
  tjIod     : Int
  quads     : List QuadSt
  events    : BitVec 4
  /-- Samples in a row outside tolerance, per rail (22 Table 22.3 numbering). -/
  railBad   : List Nat
  vaonOk    : Bool
  thermtrip : Bool
  linkCool  : List (Option Nat)
  toLink    : List Int
  toMedia   : List Int
  /-- SYSCLK25 runs (23 R413). -/
  sysclk    : Bool
deriving DecidableEq, Repr

/-! ### What leaves the device -/

/-- A buddy's answer to a restore request (16 R308): it has served the step, holds no copy of it that is right, or holds no
copy of the member. -/
inductive RestoreAnswer where
  | served
  | noStep
  | noCopy
deriving DecidableEq, Repr

/-- The body of a packet that this device injects (14 R275). -/
inductive Body where
  | memRequest (req : BitVec 32) (op : MemOp) (va sectors : Nat) (data : List Byte)
  | memResponse (req : BitVec 32) (status : MemStatus) (data : List Byte)
  | shard (s : Shard)
  | shardAck (cid shseq : BitVec 32)
  | shardRetry (cid shseq : BitVec 32)
  | notReady (cid shseq : BitVec 32)
  | fallbackNotice (m tick : Nat)
  | returnNotice (m tick : Nat)
  | sequenceNotice (slot : Nat) (toFallback : Bool) (tick : Nat)
  | paceNotice (coord : BitVec 16) (slice : BitVec 16) (number delayNs : Nat)
  | mirrorData (slot : Bool) (offs : Nat) (p : Piece)
  | mirrorAck (slot : Bool) (offs : Nat)
  | mirrorTrailer (slot : Bool) (step base : Nat) (mask : BitVec 128) (slice : BitVec 16) (crc : BitVec 32)
  | snapshotData (step offs : Nat) (data : List Byte)
  | snapshotNotice (step : Nat)
  | intervalNotice (next f tObs cUs stepUs : Nat)
  | restoreRequest (step : Nat)
  | restoreData (step part offs : Nat) (data : List Byte)
  | restoreAnswer (step : Nat) (what : RestoreAnswer)
deriving DecidableEq, Repr

/-- What a flow sends at a tick (18 R342, Table 18.5): its frame; the held frame, an input frame's bytes, a slate of the image,
or black of a luma and a chroma level; samples of silence on each channel; a packet with ANC_Count 0. -/
inductive FrameOut where
  | good (f : Frame)
  | repeated (f : Frame)
  | passed (data : List Byte)
  | slate (n : Nat)
  | black (luma chroma : Nat)
  | silence (samples : Nat)
  | ancEmpty
deriving DecidableEq, Repr

/-- One thing that leaves the device (MODEL's own record of its outputs, log entry 4). -/
inductive Out where
  | reply (inst status : Byte) (payload : List Byte)
  | eventMsg (r : EvRec)
  | msix (v : Nat)
  | flit (l : Nat) (f : BitVec 2048)
  | packet (dst : Nat) (hdr : BitVec 128) (b : Body)
  | delivered (hdr : BitVec 128) (payload : List Byte)
  | coordFrame (l : Nat) (coord dims : BitVec 16) (port : Nat)
  | frame (flow tick : Nat) (ports : Nat) (rtpTime : Nat) (source : Nat) (f : FrameOut)
  | rtpUnit (flow : Nat) (pts : Nat) (payloads : List (List Byte))
  | completion (ok poisoned : Bool) (data : List Byte)
  | register (v : Word64)
  | fetchRead (m y port : Nat)
  | askRepairs
  | tdo (b : Bool)
  | thermtrip
deriving DecidableEq, Repr

/-! ### The whole state -/

structure State where
  pending : List Instr
  free    : Nat
  nextNum : Nat
  out     : List Out
  time    : Nat
  dom     : List DomSt
  seq     : List SeqSlot
  cl      : List ClusterSt
  mem     : MemSt
  st      : StoreSt
  xlt     : XltSt
  eng     : List EngSt
  wgt     : List ModelSt
  link    : List LinkSt
  port    : List PortSt
  self    : SelfSt
  col     : ColSt
  snp     : SnpSt
  cod     : CodSt
  flow    : List FlowSt
  mport   : List MPortSt
  boot    : BootSt
  hif     : HostIf
  jtag    : JtagSt
  pwr     : PwrSt
  obs     : ObsSt
  ev      : EvSt
deriving DecidableEq, Repr

/-- Why a step stops with a fault. -/
inductive Fault where
  /-- Raised by nobody: every effect the spec describes for an error is a next state of this model, and no command can
  name an address that the device lacks. Safe (it stands for the interface's fault outcome only). -/
  | noSuchAddress (addr : Nat)
deriving DecidableEq, Repr

/-- Why a command is refused. -/
inductive Refusal where
  /-- Raised by an arm of exec that has no meaning yet. Safe: it stops. -/
  | notModelled (mnemonic : String)
deriving DecidableEq, Repr

/-! ### Reset -/

/-- A domain while SYS_RST_N is held (02 Tables 2.6, 2.7; log entry 6). -/
def DomSt.reset : DomSt where
  running := false
  tickNo := 0
  phase := .admission
  latchedGen := 0
  latchedSlot := false
  plan := none
  lastRej := none
  source := 0
  rate := 0
  ptpPort := 0
  nextRate := none
  acquired := false
  hasTime := false
  holdover := false
  phaseErr := 0
  renumber := none
  clock := 0
  tickStart := 0
  windowStart := 0
  events := 0
  cons := 0
  qStart := 0
  qEnd := 0
  admitting := false
  consOwn := false
  stopL1 := false
  stopL2 := false
  payer := none
  flows := []
  flowsNext := none

/-- A free sequence slot (13 R241; log entry 7). -/
def SeqSlot.reset : SeqSlot where
  state := .free
  cls := 0
  domain := 0
  coarse := false
  fault := false
  history := false
  onFallback := false
  deferred := false
  primary := 0
  fallback := 0
  running := 0
  tag := 0
  kvDesc := 0
  resBase := 0
  resBytes := 0
  saveBase := 0
  saveN := 0
  lateRun := 0
  coarseRun := 0
  deferRun := 0
  historyRatio := 0
  historyCount := 0
  backRun := 0
  reserved := 0
  admitTick := 0
  batches := []
  items := []
  chargedNs := 0
  totalCost := 0
  doneCost := 0
  exemptNs := 0
  allow256 := 0
  allowUsed := 0
  rethatchUsed := 0
  denied := false
  lateCp2 := false
  late21 := false
  moves := []
  said022 := false
  beginRefused := false
  recheck := false
  ringBytes := 0
  badFrames := []
  passDone := false
  shedSaid := false
  departNext := false
  assigned := []
  byNotice := false
  spoiled := []

/-- A free thread (09 Table 9.2; log entry 8). -/
def Thread.reset : Thread where
  state := .free
  pc := 0
  regs := List.replicate 31 0
  pidx := 0
  rank := 0
  tdescBase := 0
  tdescCount := 0
  pdescBase := 0
  pdescCount := 0
  vdescBase := 0
  vdescCount := 0
  seq := 0
  domain := 0
  item := 0
  wait := .none
  stamp := 0
  prog := none

/-- A slot that nobody is granted (04 R62). -/
def AccSlot.reset : AccSlot where
  owner := none
  group := none
  converting := none
  result := []

/-- A cluster in no domain (02 R22; log entry 8). -/
def ClusterSt.reset : ClusterSt where
  dom := none
  freedAt := none
  powered := false
  tag := 0
  array := none
  heldA := none
  heldB := none
  waitQ := []
  slots := List.replicate 4 AccSlot.reset
  threads := List.replicate 64 Thread.reset
  issues := 0
  vecSat := []

/-- A stack whose interface is off (10 Table 10.3, R188; log entry 10). -/
def StackSt.reset : StackSt where
  temp := 0
  row := 0
  coolSince := none
  noReading := true
  failed := false

def MemSt.reset : MemSt where
  stack := []
  poison := []
  eccErr := []
  lines := []
  eaves := []
  on := false
  stks := List.replicate 20 StackSt.reset
  corrTimes := []
  uncorrTimes := []
  rowErrs := []
  repairs := []
  bootRepairs := []
  rowsFull := []
  retrainReq := []
  retraining := []
  maint := []
  retrainTimes := []
  lastRetrain := none
  untrainable := []

def StoreSt.reset : StoreSt where
  cs := []
  csPoison := []
  csErr := []
  host := []
  preps := []

def XltSt.reset : XltSt where
  tlb := []
  invals := []
  produced := 0
  invalDone := 0
  faults := []
  nextTag := 0
  t4 := []
  nextReq := 0

/-- An engine with empty queues (11 Table 11.9; log entry 11). -/
def EngSt.reset : EngSt where
  head := 0
  tail := 0
  thrQ := []
  hostQ := []
  parked := []
  hostTurn := false
  cur := none
  stallAt := none

/-- An empty catalogue entry (12 R227). -/
def ModelSt.reset : ModelSt where
  dom := 0
  maxGen := 0
  lastRej := none
  state := 0
  live := none
  build := []
  ready := []
  old := none
  retired := 0
  lapsed := none
  fetchTries := []
  fetchPort := 2
  loads := []
  notices := []
  fbTicks := []
  noticing := false
  returnsLeft := 0
  fallen := false
  owed := false
  owedStat := []

/-- A link that has not trained (14 R268; log entry 12). -/
def LinkSt.reset : LinkSt where
  active := false
  training := false
  removed := false
  hot := false
  txSeq := 0
  rxSeq := 0
  replay := []
  inFlight := List.replicate 28 0
  rxHeld := List.replicate 28 0
  owed := List.replicate 28 0
  txQ := []
  slots := []
  slotNo := 0
  rrNext := 0
  tPort := 8
  tOpen := false
  retries := []
  fails := []
  latency := 0
  again := false

def PortSt.reset : PortSt where
  state := .down
  nbr := 0
  txPseq := List.replicate 7 0
  rxPseq := List.replicate 7 0
  held := []
  lastDrop := none

def SelfSt.reset : SelfSt where
  coord := 0
  dims := 0
  coordValid := false
  waitOver := false
  slice := none
  latchedGen := 0
  latchedSlot := false
  lastRej := none
  member := false
  index := 0
  sliceId := 0
  dirs := []

def ColSt.reset : ColSt where
  units := List.replicate 4 ⟨[]⟩
  done := []
  noticeNo := 0
  paceOn := false

/-- No record latched, nothing captured (16 R299, R302; log entry 14). -/
def SnpSt.reset : SnpSt where
  prot := none
  latchedGen := 0
  latchedSlot := false
  lastRej := none
  capt := none
  lastSnap := none
  nextSnap := 0
  wardSnap := 0
  wardM0 := 0
  wardM1 := 0
  restored := 0
  cNs := none
  stepNs := none
  mtbfS := 0
  f := 0
  n := 0
  tObs := 0
  method := 0
  written := 0
  dirtiedSince := 0
  capture := none
  staged := none
  wardDrain := none
  restoring := none
  lastCapture := none
  captures := 0
  forceNext := false
  wardHold := none
  wardLen := [0, 0]
  wardStarts := [[], []]
  store := []
  storeOk := false
  nsze := 0
  histTaken := false

def CtxSt.reset : CtxSt where
  desc := none
  level := 0
  lastBits := 0
  sinceKey := none
  picNo := 0
  queue := []
  run2 := false
  run3 := false
  dpb := []
  decoded := false
  concealing := false
  skipRasl := false
  said020 := false
  prodAt := 0
  coder := 0
  closing := none

def CodSt.reset : CodSt where
  ctxs := List.replicate 128 CtxSt.reset
  keyReq := 0
  fileTurn := [0, 0, 0, 0]
  encOn := [false, false]
  decOn := [false, false]

/-- An idle flow (18 Table 18.6: SOURCE 7). -/
def FlowSt.reset : FlowSt where
  cfg := none
  domain := 0
  lastTick := 0
  repeats := 0
  source := 7
  inRun := false
  waiting := []
  held := none
  accepted := []
  slots := []
  nextSeq := none
  window := []
  prodAt := 0

def MPortSt.reset : MPortSt where
  powered := false
  linkUp := false
  ptpLocked := false
  hot := false
  coolSince := none
  offsetNs := 0
  delayNs := 0
  t1 := none
  t2 := none
  t3 := none

def ImageCfg.reset : ImageCfg where
  params := []
  progs := []
  playout := [[], [], [], []]
  slates := []
  macs := []
  ptpDomain := 0
  ctrls := []
  i3cAddr := 0
  vendorId := 0

/-- SYS_RST_N is held; step 1 is shown (19 Table 19.7; log entry 15 for the fuses). -/
def BootSt.reset : BootSt where
  rstPin := true
  inReset := true
  step := 1
  sealed := false
  noImage := false
  image := false
  imageSeq := 0
  svn := 0
  keySlot := 0
  win := 0
  prefer := none
  cfg := ImageCfg.reset
  paramsIn := false
  repairCount := 0
  flash := []
  svnMin := 0
  keyHashes := List.replicate 4 0
  revoked := []

def HostIf.reset : HostIf where
  epPowered := false
  epUp := false
  stPowered := false
  stUp := false
  stAt := 0
  stKnown := false
  dynAddr := none
  eid := none

/-- Test-Logic-Reset with IDCODE selected (19 R367). -/
def JtagSt.reset : JtagSt where
  state := .testLogicReset
  ir := 0b0010
  irSh := 0
  drSh := []
  tdo := false

def QuadSt.reset : QuadSt where
  tjCd := 0
  tjBd := 0
  row := 0
  coolSince := none
  clock := 0

/-- The power registers at reset (20 Tables 20.6-20.8: CAP and THERM_CAP 20; log entry 16). -/
def PwrSt.reset : PwrSt where
  keepalive := false
  causeNum := 0
  causeMem := false
  cause := .other
  attempts := 0
  exhausted := false
  enteredAt := 0
  coolSince := none
  railSince := none
  samples := []
  cap := 20
  episode := false
  fell := false
  lowRun := 0
  overSince := none
  tjIod := 0
  quads := List.replicate 4 QuadSt.reset
  events := 0
  railBad := List.replicate 32 0
  vaonOk := true
  thermtrip := false
  linkCool := List.replicate 32 none
  toLink := List.replicate 32 0
  toMedia := List.replicate 4 0
  sysclk := true

def ObsSt.reset : ObsSt where
  ctr := []
  kinds := 0
  seqs := 0
  domains := 0
  enable := false
  ringBase := 0
  ringSize := 0
  prod := 0
  cons := 0
  rseq := 0
  buf := []
  dropSaid := false
  domain := .off

def EvSt.reset : EvSt where
  buf := []
  eseq := 0
  lost := false
  dropped := 0
  hostDrops := 0
  seen := 0
  ringBase := 0
  ringSize := 0
  ringOn := false
  sigAt := none
  sigDue := false
  prod := 0
  cons := 0

/-- The machine right after reset: SYS_RST_N is held and nothing has booted (02 R417, 19 R355). -/
def State.reset : State where
  pending := []
  free := 0
  nextNum := 0
  out := []
  time := 0
  dom := List.replicate 4 DomSt.reset
  seq := List.replicate 32 SeqSlot.reset
  cl := List.replicate 144 ClusterSt.reset
  mem := MemSt.reset
  st := StoreSt.reset
  xlt := XltSt.reset
  eng := List.replicate 64 EngSt.reset
  wgt := List.replicate 16 ModelSt.reset
  link := List.replicate 32 LinkSt.reset
  port := List.replicate 8 PortSt.reset
  self := SelfSt.reset
  col := ColSt.reset
  snp := SnpSt.reset
  cod := CodSt.reset
  flow := List.replicate 48 FlowSt.reset
  mport := List.replicate 4 MPortSt.reset
  boot := BootSt.reset
  hif := HostIf.reset
  jtag := JtagSt.reset
  pwr := PwrSt.reset
  obs := ObsSt.reset
  ev := EvSt.reset

end Sys2Proof.Machine
end

