-- ==== Sys2Proof/Machine/Bits.lean ====
section
/-! DEFINITION. Bit fields, little-endian bytes, signed fields, cyclic redundancy checks and small list helpers. Multi-
byte fields are little-endian (03 R33, 14 Table 14.2; log entry 2). -/

namespace Sys2Proof.Machine

/-- Bits [hi:lo] of a number. -/
def bits (x hi lo : Nat) : Nat := (x / 2 ^ lo) % 2 ^ (hi + 1 - lo)

/-- Bit i of a number. -/
def bitOn (x i : Nat) : Bool := (x / 2 ^ i) % 2 == 1

/-- A field of w bits read as two's complement. -/
def signed (w x : Nat) : Int :=
  if x % 2 ^ w < 2 ^ (w - 1) then ((x % 2 ^ w : Nat) : Int) else ((x % 2 ^ w : Nat) : Int) - ((2 ^ w : Nat) : Int)

/-- An integer as a field of w bits, two's complement. -/
def field (w : Nat) (i : Int) : Nat := (i % ((2 ^ w : Nat) : Int)).toNat

/-- n little-endian bytes of a number. -/
def leBytes : Nat → Nat → List Byte
  | 0, _ => []
  | n + 1, x => BitVec.ofNat 8 x :: leBytes n (x / 256)

/-- The number that little-endian bytes spell. -/
def ofLE : List Byte → Nat
  | [] => 0
  | b :: bs => b.toNat + 256 * ofLE bs

/-- `size` bytes at `offs` of a record, as a number. -/
def fld (bs : List Byte) (offs size : Nat) : Nat := ofLE ((bs.drop offs).take size)

/-- Every byte of [lo, hi) of a record is zero. -/
def zeroIn (bs : List Byte) (lo hi : Nat) : Bool := ((bs.drop lo).take (hi - lo)).all (· == 0)

/-- A record of `size` bytes with fields (offset, size, value) and zeros elsewhere. -/
def record (size : Nat) (fs : List (Nat × Nat × Nat)) : List Byte :=
  leBytes size (fs.foldl (fun acc f => acc + (f.2.2 % 2 ^ (8 * f.2.1)) * 2 ^ (8 * f.1)) 0)

/-- ⌈a / b⌉. -/
def cdiv (a b : Nat) : Nat := (a + b - 1) / b

/-- The least k with n ≤ 2^k. -/
def clog2 (n : Nat) : Nat := if n ≤ 1 then 0 else Nat.log2 (n - 1) + 1

/-- a rounded up to a multiple of b. -/
def roundUp (a b : Nat) : Nat := cdiv a b * b

/-- Insert into a rising list without repeats. -/
def insertNat (x : Nat) : List Nat → List Nat
  | [] => [x]
  | y :: ys => if x < y then x :: y :: ys else if x = y then y :: ys else y :: insertNat x ys

/-- One step of a reflected CRC over bit i of the byte. -/
def crcByte (poly crc : Nat) : Nat → Nat
  | 0 => crc
  | k + 1 => crcByte poly (if crc % 2 == 1 then (crc / 2) ^^^ poly else crc / 2) k

/-- CRC32C (Castagnoli): reflected, polynomial 0x1EDC6F41, initial and final value all ones (12 Table 12.3, 15 R289;
log entry 24). -/
def crc32c (bs : List Byte) : BitVec 32 :=
  BitVec.ofNat 32 ((bs.foldl (fun c b => crcByte 0x82F63B78 (c ^^^ b.toNat) 8) 0xFFFFFFFF) ^^^ 0xFFFFFFFF)

/-- One step of the plain (not reflected) CRC-64 over 8 bits. -/
def crc64Step (c : Nat) : Nat → Nat
  | 0 => c
  | k + 1 => crc64Step (if bitOn c 63 then ((c * 2) % 2 ^ 64) ^^^ 0x42F0E1EBA9EA3693 else (c * 2) % 2 ^ 64) k

/-- CRC-64/ECMA-182: polynomial 0x42F0E1EBA9EA3693, initial value 0, no reflection (14 Table 14.1; log entry 24). -/
def crc64 (bs : List Byte) : BitVec 64 :=
  BitVec.ofNat 64 (bs.foldl (fun c b => crc64Step (c ^^^ (b.toNat * 2 ^ 56)) 8) 0)

/-- The 32-byte sectors that [a, a + n) touches, each as (address of the first byte taken, bytes taken). -/
def chunks (a n : Nat) : List (Nat × Nat) :=
  if n = 0 then [] else
    (List.range ((a + n - 1) / 32 - a / 32 + 1)).map fun i =>
      let sec := a / 32 + i
      let lo := max a (sec * 32)
      let hi := min (a + n) (sec * 32 + 32)
      (lo, hi - lo)

end Sys2Proof.Machine
end

