-- ==== Sys2Proof/Machine/Numeric.lean ====
section
/-! DEFINITION. Number formats (03): exact dyadic values, BF16, FP32 and WX32 (R40-R42), the block-scaled formats
(R32-R39), LA96 (R43-R52) and the conversions of Table 3.7. A value that is `none` is poison. -/

namespace Sys2Proof.Machine

/-! ### Exact values -/

def Dy.zero : Dy := ⟨0, 0⟩

/-- The integer n x 2^(e - k) for k at most e. -/
def Dy.at (x : Dy) (k : Int) : Int := x.n * ((2 ^ (x.e - k).toNat : Nat) : Int)

def Dy.add (x y : Dy) : Dy := let k := min x.e y.e; ⟨x.at k + y.at k, k⟩
def Dy.neg (x : Dy) : Dy := ⟨-x.n, x.e⟩
def Dy.sub (x y : Dy) : Dy := x.add y.neg
def Dy.mul (x y : Dy) : Dy := ⟨x.n * y.n, x.e + y.e⟩
def Dy.abs (x : Dy) : Dy := ⟨x.n.natAbs, x.e⟩
/-- x < y. -/
def Dy.lt (x y : Dy) : Bool := (x.sub y).n < 0
def Dy.le (x y : Dy) : Bool := (x.sub y).n ≤ 0
/-- x x 2^k. -/
def Dy.scale (x : Dy) (k : Int) : Dy := ⟨x.n, x.e + k⟩
def Dy.ofInt (n : Int) : Dy := ⟨n, 0⟩

/-- The same value with an odd integer. -/
def oddForm : Nat → Dy → Dy
  | 0, x => x
  | k + 1, x => if x.n = 0 then ⟨0, 0⟩ else if x.n % 2 = 0 then oddForm k ⟨x.n / 2, x.e + 1⟩ else x

/-- The canonical form of a value: equal values give equal forms. -/
def Dy.norm (x : Dy) : Dy := oddForm (Nat.log2 x.n.natAbs + 1) x

def Val.map2 (f : Dy → Dy → Dy) (x y : Val) : Val := x.bind fun a => y.map fun b => f a b

/-- a / b to the nearest integer, ties to even. -/
def rneDiv (a b : Nat) : Nat :=
  let d := a / b
  let r := a % b
  if b < 2 * r ∨ (2 * r = b ∧ d % 2 = 1) then d + 1 else d

/-- n x 2^e to the nearest integer, ties to even. -/
def rnePow (n : Nat) (e : Int) : Nat := if 0 ≤ e then n * 2 ^ e.toNat else rneDiv n (2 ^ (-e).toNat)

/-- ⌊log2 (n / d)⌋ for positive n and d. -/
def ilog2 (n d : Nat) : Int :=
  let k : Int := (Nat.log2 n : Int) - (Nat.log2 d : Int)
  let ge := if 0 ≤ k then d * 2 ^ k.toNat ≤ n else d ≤ n * 2 ^ (-k).toNat
  if ge then k else k - 1

/-! ### BF16, FP32 and WX32 (03 R40-R42) -/

/-- A binary format: significant bits, least quantum, greatest finite quantum. -/
structure Bin where
  p    : Nat
  qmin : Int
  qmax : Int
deriving DecidableEq, Repr

def binFp32 : Bin := ⟨24, -149, 104⟩
def binBf16 : Bin := ⟨8, -133, 120⟩
def binWx32 : Bin := ⟨20, -2065, 2028⟩

/-- Round n / d x 2^e (n, d > 0) once to nearest, ties to even: (integer, quantum), the integer below 2^p, saturated at
the greatest finite value. -/
def roundRat (b : Bin) (n d : Nat) (e : Int) : Nat × Int :=
  let lg := ilog2 n d + e
  let q := max (lg - (b.p - 1 : Int)) b.qmin
  let s := e - q
  let m := if 0 ≤ s then rneDiv (n * 2 ^ s.toNat) d else rneDiv n (d * 2 ^ (-s).toNat)
  let r := if m = 2 ^ b.p then (2 ^ (b.p - 1), q + 1) else (m, q)
  if b.qmax < r.2 then (2 ^ b.p - 1, b.qmax) else r

/-- Fields of a rounded value for a format with subnormals: exponent field and fraction as one number. -/
def packSub (b : Bin) (r : Nat × Int) : Nat :=
  if r.1 < 2 ^ (b.p - 1) then r.1 else (r.2 - b.qmin + 1).toNat * 2 ^ (b.p - 1) + (r.1 - 2 ^ (b.p - 1))

/-- The FP32 pattern of n / d x 2^e with a sign, rounded once. -/
def fp32Rat (neg : Bool) (n d : Nat) (e : Int) : BitVec 32 :=
  if n = 0 then 0 else BitVec.ofNat 32 (neg.toNat * 2 ^ 31 + packSub binFp32 (roundRat binFp32 n d e))

/-- Write a value as FP32 (R40): RNE with subnormals, saturating; poison is the canonical NaN. An exact zero is +0 (log
entry 28). -/
def toFp32 : Val → BitVec 32
  | none => 0x7FC00000
  | some x => fp32Rat (x.n < 0) x.n.natAbs 1 x.e

/-- Write a value as BF16. -/
def toBf16 : Val → BitVec 16
  | none => 0x7FC0
  | some x =>
    if x.n = 0 then 0
    else BitVec.ofNat 16 ((decide (x.n < 0)).toNat * 2 ^ 15 + packSub binBf16 (roundRat binBf16 x.n.natAbs 1 x.e))

/-- The WX32 pattern of n / d x 2^e with a sign (R42), rounded once: no subnormals; below 2^-2046 the nearer of 0 and
2^-2046, a tie to 0. -/
def wx32Rat (neg : Bool) (n d : Nat) (e : Int) : BitVec 32 :=
  let sg := neg.toNat * 2 ^ 31
  if n = 0 then 0
  else if ilog2 n d + e < -2046 then
    -- above the half, 2^-2047
    if ilog2 n d + e = -2047 ∧ n ≠ d * 2 ^ (Nat.log2 n - Nat.log2 d) ∧ n * 2 ^ (Nat.log2 d - Nat.log2 n) ≠ d then
      BitVec.ofNat 32 (sg + 2 ^ 19)
    else 0
  else
    let r := roundRat binWx32 n d e
    BitVec.ofNat 32 (sg + (r.2 + 2066).toNat * 2 ^ 19 + (r.1 - 2 ^ 19))

/-- Write a value as WX32 (R42). -/
def toWx32 : Val → BitVec 32
  | none => 0x7FF80000
  | some x => wx32Rat (x.n < 0) x.n.natAbs 1 x.e

/-- Read an FP32 operand (R40, R41): an infinity or NaN is poison. -/
def ofFp32 (b : BitVec 32) : Val :=
  let e := bits b.toNat 30 23
  let f := bits b.toNat 22 0
  let s : Int := if b.getLsbD 31 then -1 else 1
  if e = 255 then none
  else if e = 0 then some ⟨s * f, -149⟩
  else some ⟨s * ((f + 2 ^ 23 : Nat) : Int), (e : Int) - 150⟩

/-- Read a BF16 operand. -/
def ofBf16 (b : BitVec 16) : Val := ofFp32 (BitVec.ofNat 32 (b.toNat * 65536))

/-- Read a WX32 operand (R42). -/
def ofWx32 (b : BitVec 32) : Val :=
  let e := bits b.toNat 30 19
  let f := bits b.toNat 18 0
  let s : Int := if b.getLsbD 31 then -1 else 1
  if e = 4095 then none
  else if e = 0 then some Dy.zero
  else some ⟨s * ((f + 2 ^ 19 : Nat) : Int), (e : Int) - 2066⟩

/-- Round a value into FP32 and read it back. -/
def rnd32 (x : Val) : Val := ofFp32 (toFp32 x)

/-- FP32 operations: exact, then rounded once. -/
def fAdd (x y : Val) : Val := rnd32 (Val.map2 Dy.add x y)
def fSub (x y : Val) : Val := rnd32 (Val.map2 Dy.sub x y)
def fMul (x y : Val) : Val := rnd32 (Val.map2 Dy.mul x y)

/-- x / y rounded once into FP32, y not zero. -/
def fDiv (x y : Val) : Val :=
  match x, y with
  | some a, some b =>
    if b.n = 0 then none
    else ofFp32 (fp32Rat ((a.n < 0) != (b.n < 0)) a.n.natAbs b.n.natAbs (a.e - b.e))
  | _, _ => none

/-! ### Block-scaled formats (03 R32-R39). Codes 0-4 are V2, V3, V4, V6, V8. -/

/-- Element width. -/
def elemBits : Nat → Nat
  | 0 => 2
  | 1 => 3
  | 2 => 4
  | 3 => 6
  | _ => 8

/-- Mantissa bits of V4, V6 and V8. -/
def manBits : Nat → Nat
  | 2 => 1
  | 3 => 2
  | _ => 3

/-- log2 of the element granule (Table 3.1). -/
def granule : Nat → Int
  | 0 => 0
  | 1 => 0
  | 2 => -1
  | 3 => -4
  | _ => -9

/-- Vmax in granules. -/
def vmaxUnits : Nat → Nat
  | 0 => 1
  | 1 => 3
  | 2 => 12
  | 3 => 448
  | _ => 245760

/-- The marker code (Table 3.1). -/
def marker (f : Nat) : Nat := 2 ^ (elemBits f - 1)

/-- Payload bytes of a block. -/
def payBytes (f : Nat) : Nat := 4 * elemBits f

/-- An element's value in granules (R35); the marker reads as 0. -/
def elemUnits (f code : Nat) : Int :=
  if code = marker f then 0
  else if f ≤ 1 then signed (elemBits f) code
  else
    let mb := manBits f
    let half := marker f
    let c := code % half
    let ex := c / 2 ^ mb
    let m := c % 2 ^ mb
    let u : Nat := if ex = 0 then m else (2 ^ mb + m) * 2 ^ (ex - 1)
    if half ≤ code then -(u : Int) else (u : Int)

/-- An element under a BSE (R34): poison at 0xFF. -/
def elemVal (f code bse : Nat) : Val :=
  if bse = 255 then none else some ⟨elemUnits f code, granule f + bse - 127⟩

/-- The code of the magnitude n x 2^e granules, rounded once, ties to the code with bit 0 clear; saturated at Vmax. The
flag says that it saturated (R38: a magnitude above Vmax). -/
def magCode (f n : Nat) (e : Int) : Nat × Bool :=
  let ovf := Dy.lt ⟨vmaxUnits f, 0⟩ ⟨n, e⟩
  if n = 0 then (0, false)
  else if ovf then (if f ≤ 1 then vmaxUnits f else marker f - 1, true)
  else if f ≤ 1 then (rnePow n e, false)
  else
    let mb := manBits f
    let lg := ilog2 n 1 + e
    if lg < (mb + 1 : Int) then (rnePow n e, false)
    else
      let ex := (lg - mb + 1).toNat
      ((ex * 2 ^ mb + rnePow n (e - (ex - 1 : Int))) - 2 ^ mb, false)

/-- Encode a value under a BSE (R38). A negative value that rounds to zero is the +0 code. -/
def elemEnc (f bse : Nat) (x : Dy) : Nat × Bool :=
  let r := magCode f x.n.natAbs (x.e - ((bse : Int) - 127) - granule f)
  if r.1 = 0 then r
  else if x.n < 0 then ((if f ≤ 1 then 2 ^ elemBits f - r.1 else marker f + r.1), r.2)
  else r

/-- The BSE of R37 for a largest magnitude. -/
def chooseBse (f : Nat) (amax : Dy) : Nat :=
  ((List.range 255).find? fun (e : Nat) =>
    Dy.le (amax.scale (127 - (e : Int))) ⟨vmaxUnits f, granule f⟩).getD 254

/-- The largest magnitude of a list. -/
def amaxOf (l : List Dy) : Dy := l.foldl (fun m x => if Dy.lt m x.abs then x.abs else m) Dy.zero

/-- Pack element codes into the payload of a block (R33). -/
def packElems (f : Nat) (codes : List Nat) : List Byte :=
  leBytes (payBytes f)
    (((List.range codes.length).zip codes).foldl (fun acc c => acc + c.2 % 2 ^ elemBits f * 2 ^ (elemBits f * c.1)) 0)

/-- Code of element i in a payload. -/
def elemCode (f : Nat) (pay : List Byte) (i : Nat) : Nat := (ofLE pay / 2 ^ (elemBits f * i)) % 2 ^ elemBits f

/-- An encoded block: its BSE, its codes, and which elements saturated. -/
structure Block where
  bse   : Nat
  codes : List Nat
  sat   : List Bool
deriving DecidableEq, Repr

/-- Encode the elements of one block. `none` elements are poison: the whole block is poisoned with every code 0 (R51,
Table 3.7). `lifted` positions are in the gutter and take the marker (R36, R80). -/
def encBlock (f : Nat) (xs : List Val) (lifted : List Bool) : Block :=
  let pairs := xs.zip lifted
  if pairs.any (fun p => p.1.isNone && !p.2) then ⟨255, xs.map fun _ => 0, xs.map fun _ => false⟩
  else
    let main := pairs.filterMap fun p => if p.2 then none else p.1
    let bse := chooseBse f (amaxOf main)
    let enc := pairs.map fun p => if p.2 then (marker f, false) else elemEnc f bse (p.1.getD Dy.zero)
    ⟨bse, enc.map (·.1), enc.map (·.2)⟩

/-- Encode a block with nothing lifted. -/
def encPlain (f : Nat) (xs : List Val) : Block := encBlock f xs (xs.map fun _ => false)

/-! ### LA96 (03 R43-R52) -/

def LaElem.zero : LaElem := ⟨0, false, false, false⟩

/-- E as a signed number. -/
def laE (x : LaElem) : Int := x.e.toInt

/-- V: the low 96 bits as two's complement (R43). -/
def laV (x : LaElem) : Int := signed 96 (x.e.toNat % 2 ^ 96)

/-- W as a 29-bit field: E = V + W x 2^96. -/
def laW (x : LaElem) : Nat := field 29 ((laE x - laV x) / ((2 ^ 96 : Nat) : Int))

/-- LA_OVER as it is reported (R45). -/
def laOver (x : LaElem) : Bool := x.ovf || laW x != 0

/-- Add a contribution (R44). -/
def laAdd (anchor : Int) (x : LaElem) (a b : Val) : LaElem :=
  match a, b with
  | some p, some q =>
    let n := p.n * q.n
    let sh := p.e + q.e - anchor
    let m := rnePow n.natAbs sh
    let lost := sh < 0 && n.natAbs % 2 ^ (-sh).toNat != 0
    let ovf := decide (2 ^ 95 ≤ m)
    let c := if ovf then 2 ^ 95 - 1 else m
    { x with e := x.e + BitVec.ofInt 125 (if n < 0 then -(c : Int) else (c : Int)),
             inexact := x.inexact || lost, ovf := x.ovf || ovf }
  | _, _ => { x with poison := true }

/-- Two stored elements with the same anchor combine (R52). -/
def laCombine (x y : LaElem) : LaElem :=
  ⟨x.e + y.e, x.inexact || y.inexact, x.ovf || y.ovf, x.poison || y.poison⟩

/-- The value that an element converts from (R51 steps 1, 2). -/
def laVal (anchor : Int) (x : LaElem) : Val :=
  if x.poison then none
  else if laOver x then some ⟨if laE x < 0 then -((2 ^ 95 : Nat) : Int) else ((2 ^ 95 - 1 : Nat) : Int), anchor⟩
  else some ⟨laE x, anchor⟩

/-- The stored form of an element, 16 bytes (R52). -/
def laBytes (x : LaElem) : List Byte :=
  leBytes 16 (x.e.toNat % 2 ^ 96 + laW x * 2 ^ 96 + x.inexact.toNat * 2 ^ 125 + x.ovf.toNat * 2 ^ 126
    + x.poison.toNat * 2 ^ 127)

/-- An element from its stored form. -/
def laOfBytes (bs : List Byte) : LaElem :=
  let n := ofLE bs
  { e := BitVec.ofInt 125 (signed 96 n + ((n / 2 ^ 96 % 2 ^ 29 : Nat) : Int) * ((2 ^ 96 : Nat) : Int)),
    inexact := bitOn n 125, ovf := bitOn n 126, poison := bitOn n 127 }

end Sys2Proof.Machine
end

