-- ==== Sys2Proof/Config.lean ====
section
/-! DEFINITION. What the spec leaves open, as constants with no body: free values that the device draws, outcomes it
may choose, and functions that a cited standard fixes and this spec does not give. Nothing in Lean can evaluate them,
so a statement holds whatever they are. Log entries 3, 17-22 and 44-47. -/

namespace Sys2Proof.Config

/-- A free natural number: the n-th value drawn (State.free counts them), for a purpose named by `tag`. Log entry 3. -/
opaque freeNat (n tag : Nat) : Nat

/-- Bits that a shipped special function returns before they are held to the bound of 06 R111: slot, and the input
n x 2^e with n odd or 0. They depend on nothing else (R111: bit-identical on every cluster, device and run). Log entry
17. -/
opaque sfu (slot : Nat) (n e : Int) : BitVec 32

/-- A bin of the spectrum of one input plane of a frequency-path tile, complex BF16 before it is held to finite values (08
R150: the transform's order of operations is not given): the tile's FFT sizes, the plane's values as pairs of an odd
integer and an exponent, bin. Log entry 18. -/
opaque fwdBin (geom : List Nat) (plane : List (Int × Int)) (bin : Nat) : BitVec 32

/-- A point of the inverse transform of a mixed spectrum, FP32 (08 R150): the FFT sizes, the mixed bins, position. Log entry
18. -/
opaque invOut (geom : List Nat) (mixed : List (BitVec 64)) (pos : Nat) : BitVec 32

/-- The complex BF16 bin of a filter spectrum (08 R153): geometry, the values of one output channel's filter in its K
order, K_mix index, bin. Log entry 18. -/
opaque specBin (geom : List Nat) (filter : List (Int × Int)) (j bin : Nat) : BitVec 32

/-- Whether a quadrant cache still holds a sector (10 R179; the spec gives no replacement rule): draw number, sector.
Log entry 19. -/
opaque keepLine (n sector : Nat) : Bool

/-- What a compressed block of a Zstandard frame decodes to (11 R206, IETF RFC 8878): the frame's content so far, the bytes
of the block; none where it does not decode. Log entry 20. -/
opaque zstdBlock (before body : List (BitVec 8)) : Option (List (BitVec 8))

/-- The compressed bytes of a unit that HOST_OUT writes (11 R207: not specified): the number of the unit among all
that are written, the unit. Log entry 21. -/
opaque zstdEncode (n : Nat) (bytes : List (BitVec 8)) : List (BitVec 8)

/-- What a codec context carries from picture to picture, as one number (17 R314, R315, R323): at OPEN, from the descriptor;
after an encoded picture, from what was carried, whether it is a key picture, the blocks whose source is poisoned and the source
bytes; after a decoded access unit, from what was carried, whether it is damaged and its bytes. So a coded or decoded picture
depends on nothing else, as R323 says. The cited standards give the coding. Log entry 22. -/
opaque coderStart (desc : List (BitVec 8)) : Nat
opaque coderNext (coder : Nat) (key : Bool) (bad : List Nat) (src : List (BitVec 8)) : Nat
opaque decoderNext (coder : Nat) (bad : Bool) (unit : List (BitVec 8)) : Nat

/-- Header bits of a picture (17 R322: at most 2,048). Log entry 22. -/
opaque headerBits (coder : Nat) (key : Bool) : Nat

/-- The entropy-coded size in bits of one 64 x 64 block at a stage (17 R323), by what the context carries and the source bytes
up to its row. Log entry 22. -/
opaque blockBits (coder : Nat) (key : Bool) (src : List (BitVec 8)) (block stage : Nat) : Nat

/-- The bits that end a picture (17 R323: at most 64), by what the context carries after it. Log entry 22. -/
opaque endBits (coder : Nat) : Nat

/-- A byte of a coded access unit (17 R314: it conforms to the cited standard), by what the context carries after it. Log entry
22. -/
opaque codedByte (coder i : Nat) : BitVec 8

/-- A decoded sample (17 R315: the cited standards fix it), by what the context carries after the picture: plane, row, column.
Log entry 22. -/
opaque decodedSample (coder plane row col : Nat) : Nat

/-- The AV1 order hint of a picture (17 Table 17.6; AV1 fixes how it starts), by what the context carries after it. Log entry
22. -/
opaque orderHint (coder : Nat) : BitVec 32

/-- Serialised bytes of a message whose layout the spec does not give (14 R275 "Defined by the class's user"): message
code, byte number. Log entry 23. -/
opaque bodyByte (code i : Nat) : BitVec 8

/-- NSZE of the sarking store of a member (16 R299: a member is not told its buddy's). Log entry 65. -/
opaque buddyNsze (member : Nat) : Nat

/-- Codes that a trace record holds and the spec names without a number (21 Table 21.3): what is coded (1 the outcome of
a work item, 4 the rethatch action), which of its cases. Log entry 30. -/
opaque traceCode (what case : Nat) : BitVec 8

end Sys2Proof.Config
end

