-- ==== Sys2Proof/Machine/Memory.lean ====
section
/-! DEFINITION. The memories as canonical lists of cells: the form, reading and writing of bytes. `d` is what an
unlisted address reads as. -/

namespace Sys2Proof.Machine

/-- What an unlisted byte reads as: zero in the stacks (10 R188), in the cluster stores, host memory and the sarking
store (log entry 9). -/
def zeroByte : Byte := 0

/-- What an unlisted byte of the boot flash reads as: erased NOR (log entry 9). -/
def erasedByte : Byte := 0xFF

/-- The canonical form: addresses strictly rising, no cell equal to the unlisted value. -/
def memWf (d : Byte) : Mem → Bool
  | [] => true
  | [c] => c.2 != d
  | c :: c' :: m => c.2 != d && decide (c.1 < c'.1) && memWf d (c' :: m)

/-- The byte at an address. -/
def memRd (d : Byte) : Mem → Nat → Byte
  | [], _ => d
  | c :: m, x => if c.1 = x then c.2 else if x < c.1 then d else memRd d m x

/-- Write one byte, keeping the canonical form. -/
def memWr (d : Byte) : Mem → Nat → Byte → Mem
  | [], x, b => if b = d then [] else [(x, b)]
  | c :: m, x, b =>
    if x < c.1 then (if b = d then c :: m else (x, b) :: c :: m)
    else if x = c.1 then (if b = d then m else (x, b) :: m)
    else c :: memWr d m x b

/-- n bytes from an address. -/
def memRdN (d : Byte) (m : Mem) (a n : Nat) : List Byte := (List.range n).map fun i => memRd d m (a + i)

/-- Write a run of bytes. -/
def memWrs (d : Byte) (m : Mem) (a : Nat) : List Byte → Mem
  | [] => m
  | b :: bs => memWrs d (memWr d m a b) (a + 1) bs

/-- Every byte of [a, a + n) reads as the unlisted value. -/
def memClear (m : Mem) (a n : Nat) : Mem := m.filter fun c => c.1 < a || a + n ≤ c.1

/-- The cells of [a, a + n), with addresses counted from a. -/
def memSlice (m : Mem) (a n : Nat) : Mem :=
  (m.filter fun c => a ≤ c.1 && c.1 < a + n).map fun c => (c.1 - a, c.2)

/-- Key of a cluster-store byte: cluster x 2^24 + offset (09 R169). -/
def csKey (c offs : Nat) : Nat := c * 16777216 + offs

/-- Size of a cluster store: 12 MiB (04 R61). -/
def csSize : Nat := 0xC00000

end Sys2Proof.Machine
end

