-- ==== Sys2Proof/Machine/Events.lean ====
section
/-! DEFINITION. What every block shares to report itself: free values, outputs, counters (21 R381), trace records (21
R383-R389), MSI-X (19 Table 19.9), the event path (22 R391-R400) and a command's kind. -/

namespace Sys2Proof.Machine

/-! ### The fields of a command that more than its engine looks at (11 R210, 17 R318) -/

/-- A field of a 64-byte command. -/
def cmdN (c : DmaCmd) (offs size : Nat) : Nat := (c.raw.toNat / 2 ^ (8 * offs)) % 2 ^ (8 * size)

def cmdOp (c : DmaCmd) : Nat := cmdN c 0 1
def cmdIsCodec (c : DmaCmd) : Bool := decide (0x20 ≤ cmdOp c ∧ cmdOp c ≤ 0x23)

/-! ### Lists of units -/

/-- Unit i of a list of units, or its reset value beyond the list. -/
def unit {α : Type} (l : List α) (i : Nat) (d : α) : α := l.getD i d

def domAt (s : State) (d : Nat) : DomSt := unit s.dom d DomSt.reset
def seqAt (s : State) (n : Nat) : SeqSlot := unit s.seq n SeqSlot.reset
def clAt (s : State) (c : Nat) : ClusterSt := unit s.cl c ClusterSt.reset
def engAt (s : State) (e : Nat) : EngSt := unit s.eng e EngSt.reset
def flowAt (s : State) (f : Nat) : FlowSt := unit s.flow f FlowSt.reset
def mportAt (s : State) (p : Nat) : MPortSt := unit s.mport p MPortSt.reset
def linkAt (s : State) (k : Nat) : LinkSt := unit s.link k LinkSt.reset
def portAt (s : State) (p : Nat) : PortSt := unit s.port p PortSt.reset
def wgtAt (s : State) (m : Nat) : ModelSt := unit s.wgt m ModelSt.reset
def ctxAt (s : State) (c : Nat) : CtxSt := unit s.cod.ctxs c CtxSt.reset

def modDom (s : State) (d : Nat) (f : DomSt → DomSt) : State := { s with dom := s.dom.modify d f }
def modSeq (s : State) (n : Nat) (f : SeqSlot → SeqSlot) : State := { s with seq := s.seq.modify n f }
def modCl (s : State) (c : Nat) (f : ClusterSt → ClusterSt) : State := { s with cl := s.cl.modify c f }
def modEng (s : State) (e : Nat) (f : EngSt → EngSt) : State := { s with eng := s.eng.modify e f }
def modFlow (s : State) (n : Nat) (f : FlowSt → FlowSt) : State := { s with flow := s.flow.modify n f }
def modMport (s : State) (p : Nat) (f : MPortSt → MPortSt) : State := { s with mport := s.mport.modify p f }
def modLink (s : State) (k : Nat) (f : LinkSt → LinkSt) : State := { s with link := s.link.modify k f }
def modPort (s : State) (p : Nat) (f : PortSt → PortSt) : State := { s with port := s.port.modify p f }
def modWgt (s : State) (m : Nat) (f : ModelSt → ModelSt) : State := { s with wgt := s.wgt.modify m f }
def modCtx (s : State) (c : Nat) (f : CtxSt → CtxSt) : State :=
  { s with cod := { s.cod with ctxs := s.cod.ctxs.modify c f } }

/-- Do `f` for each number of a list, from left to right. -/
def each {α : Type} (l : List α) (f : State → α → State) (s : State) : State := l.foldl f s

/-! ### Free values and outputs -/

/-- The next free value for a purpose (log entry 3). -/
def drawn (s : State) (tag : Nat) : Nat := Config.freeNat s.free tag

/-- Count a free value as drawn. -/
def drew (s : State) : State := { s with free := s.free + 1 }

/-- Something leaves the device (log entry 4). -/
def emit (s : State) (o : Out) : State := { s with out := o :: s.out }

/-- May a host register write act: sealed, and the PCIe link is up (19 R357, R362)? -/
def hostMay (s : State) : Bool := s.boot.sealed && s.hif.epUp

/-- MSI-X vector v (19 Table 19.9); dropped while the endpoint is reset or off (19 R362). -/
def msix (s : State) (v : Nat) : State := if s.hif.epUp then emit s (.msix v) else s

/-- A device-initiated write to host memory; dropped while the endpoint is reset or off (19 R362). -/
def hostWrite (s : State) (a : Nat) (bs : List Byte) : State :=
  if s.hif.epUp then { s with st := { s.st with host := memWrs zeroByte s.st.host a bs } } else s

/-! ### Counters (21 R381, Table 21.1) -/

/-- Put counter i at v in the list of counters that are not 0, which rises by index. -/
def ctrPut : List (Nat × Nat) → Nat → Nat → List (Nat × Nat)
  | [], i, v => if v = 0 then [] else [(i, v)]
  | c :: l, i, v =>
    if i < c.1 then (if v = 0 then c :: l else (i, v) :: c :: l)
    else if i = c.1 then (if v = 0 then l else (i, v) :: l)
    else c :: ctrPut l i v

/-- OBS_CTR[i]. -/
def ctrGet (s : State) (i : Nat) : Nat := (s.obs.ctr.find? (·.1 == i)).elim 0 (·.2)

/-- Counter i takes a value modulo 2^64. -/
def ctrSet (s : State) (i v : Nat) : State := { s with obs := { s.obs with ctr := ctrPut s.obs.ctr i (v % 2 ^ 64) } }

/-- Counter i advances by n. -/
def ctrAdd (s : State) (i n : Nat) : State := ctrSet s i (ctrGet s i + n)

/-- A gauge takes a sample, a negative one as two's complement. -/
def ctrGauge (s : State) (i : Nat) (v : Int) : State := ctrSet s i (field 64 v)

def ctrCluster (c k : Nat) : Nat := 0x040 + 8 * c + k
def ctrChannel (ch : Nat) : Nat := 0x4C0 + ch
def ctrStack (n k : Nat) : Nat := 0x9C0 + 8 * n + k
def ctrLink (l k : Nat) : Nat := 0xA60 + 8 * l + k
def ctrPort (p k : Nat) : Nat := 0xB60 + 4 * p + k
def ctrEngine (e k : Nat) : Nat := 0xB80 + 4 * e + k
def ctrComplex (x k : Nat) : Nat := 0xC80 + 16 * x + k
def ctrFlow (f k : Nat) : Nat := 0xCA0 + 4 * f + k
def ctrMedia (p k : Nat) : Nat := 0xD60 + 8 * p + k
def ctrSeq (n k : Nat) : Nat := 0xD80 + 8 * n + k
def ctrFibry (k : Nat) : Nat := 0xE80 + k

/-! ### Trace (21 R383-R387) -/

/-- Unit types of WHERE (Table 21.2). -/
def whereOf (type number : Nat) : Nat := type * 8192 + number

/-- The tick domain a unit belongs to. -/
def whereDomain (s : State) (w : Nat) : Option Nat :=
  let n := w % 8192
  match w / 8192 with
  | 0 => (clAt s n).dom
  | 3 => (ctxAt s n).desc.map (·.domain)
  | 4 => (flowAt s n).cfg.map fun _ => (flowAt s n).domain
  | 5 => some n
  | _ => none

/-- The die whose trace buffer takes a unit's records (R387: 64 KiB per die): compute dies 0-3, base dies 4-7, I/O
die 8. -/
def whereDie (w : Nat) : Nat :=
  let n := w % 8192
  match w / 8192 with
  | 0 => n / 36
  | 1 => 4 + n / 16
  | 2 => 4 + n / 8
  | _ => 8

/-- The three tests of R384. -/
def traceKept (s : State) (kind seq : Nat) (d : Option Nat) : Bool :=
  s.obs.kinds.getLsbD kind && (seq == 0xFF || s.obs.seqs.getLsbD seq)
    && (d.elim true fun x => s.obs.domains.getLsbD x)

/-- One record offered to the trace path: `u` is WHERE of its unit, none where Table 21.2 has no type for the unit, and
then WHERE is a free value (log entry 3). It is counted where a test fails, dropped and counted where its die's buffer
is full, and kept otherwise. The flag says that OBS.002 is due (R386). -/
def traceBare (s : State) (kind seq : Nat) (u : Option Nat) (data : List Byte) : State × Bool :=
  let d := u.bind (whereDomain s)
  let die := u.elim 8 whereDie
  if !(s.obs.enable && s.obs.domain == .on) then (s, false)
  else if !traceKept s kind seq d then (ctrAdd s (ctrFibry 2) 1, false)
  else
    let full := 2048 ≤ (s.obs.buf.filter fun r => r.die == die).length
    let r : TraceRec :=
      { time := s.time, rseq := s.obs.rseq, kind := kind, seq := seq, wher := u.getD (drawn s 10 % 65536),
        tick := BitVec.ofNat 32 (d.elim 0 fun d => (domAt s d).tickNo),
        data := data ++ List.replicate (12 - data.length) 0, die := die }
    let s1 := { s with
      free := if u.isNone then s.free + 1 else s.free
      obs := { s.obs with
        rseq := s.obs.rseq + 1
        buf := if full then s.obs.buf else s.obs.buf ++ [r]
        dropSaid := s.obs.dropSaid || full } }
    if full then (ctrAdd s1 (ctrFibry 1) 1, !s.obs.dropSaid) else (s1, false)

/-! ### The catalogue (22 Tables 22.1, 22.3, 22.6) -/

/-- Block codes of Table 22.6. -/
def bTCK : Nat := 0
def bMXE : Nat := 1
def bVEC : Nat := 2
def bATT : Nat := 3
def bCNV : Nat := 4
def bMEM : Nat := 5
def bXLT : Nat := 6
def bDMA : Nat := 7
def bWGT : Nat := 8
def bSEQ : Nat := 9
def bLNK : Nat := 10
def bCOL : Nat := 11
def bSNP : Nat := 12
def bCOD : Nat := 13
def bMED : Nat := 14
def bBOT : Nat := 15
def bPWR : Nat := 16
def bOBS : Nat := 17

/-- Codes of a block that are info, corrected and fatal; the block's other codes are contained (Table 22.6). -/
def catalogue : Nat → List Nat × List Nat × List Nat
  | 0 => ([2, 10, 11, 20], [1], [])
  | 1 => ([30, 41, 42, 43], [31, 33, 44], [])
  | 2 => ([11, 30], [33], [])
  | 3 => ([11, 12], [5], [])
  | 4 => ([11, 12, 30, 31], [], [])
  | 5 => ([3, 10, 11, 24], [1, 20, 21, 22], [12, 23])
  | 6 => ([1], [], [])
  | 7 => ([3, 20], [], [])
  | 8 => ([1, 2, 3, 11, 22], [21], [])
  | 9 => ([1, 2, 3, 11, 12, 20, 21, 22], [], [])
  | 10 => ([12, 21, 22, 30, 31], [1, 2], [])
  | 11 => ([3, 11, 12, 21, 22], [2], [])
  | 12 => ([1, 2, 10, 13, 20], [], [])
  | 13 => ([1, 2, 10, 11, 21, 23, 31, 40], [20, 22], [])
  | 14 => ([1, 11, 13, 14, 30, 31, 32], [], [])
  | 15 => ([10, 11, 20, 40], [1, 2], [3])
  | 16 => ([1, 2, 12], [], [10, 11, 13, 14, 30])
  | 17 => ([1, 2, 10], [], [])
  | _ => ([], [], [])

/-- Severity of a code (Table 22.1): 0 info, 1 corrected, 2 contained, 3 fatal. -/
def severity (block num : Nat) : Nat :=
  let c := catalogue block
  if c.2.2.contains num then 3 else if c.1.contains num then 0 else if c.2.1.contains num then 1 else 2

/-- A LOCATION (R393, Table 22.3). -/
def loc (type value : Nat) : BitVec 32 := BitVec.ofNat 32 (type * 2 ^ 27 + value)

def locDevice : BitVec 32 := 0
def locCluster (c : Nat) : BitVec 32 := loc 1 c
def locChannel (ch : Nat) : BitVec 32 := loc 2 ch
def locStack (n : Nat) : BitVec 32 := loc 3 n
def locLink (l : Nat) : BitVec 32 := loc 4 l
def locPort (p : Nat) : BitVec 32 := loc 5 p
def locEngine (e : Nat) : BitVec 32 := loc 6 e
def locCtx (c : Nat) : BitVec 32 := loc 7 c
def locComplex (x : Nat) : BitVec 32 := loc 8 x
def locFlow (f : Nat) : BitVec 32 := loc 9 f
def locMedia (p : Nat) : BitVec 32 := loc 10 p
def locDomain (d : Nat) : BitVec 32 := loc 11 d
def locSlot (n : Nat) : BitVec 32 := loc 12 n
def locModel (m : Nat) : BitVec 32 := loc 13 m
def locQuad (q : Nat) : BitVec 32 := loc 14 q
def locImage (b : Bool) : BitVec 32 := loc 15 b.toNat
def locRail (r : Nat) : BitVec 32 := loc 16 r
def locOptic (o : Nat) : BitVec 32 := loc 17 o
def locCoord (c : BitVec 16) : BitVec 32 := loc 18 c.toNat

/-- The type and the value of a LOCATION. -/
def locType (l : BitVec 32) : Nat := l.toNat / 2 ^ 27
def locValue (l : BitVec 32) : Nat := l.toNat % 2 ^ 27

/-- WHERE of a KIND 10 trace record from LOCATION; none where Table 21.2 has no type for the unit. -/
def whereOfLoc (l : BitVec 32) : Option Nat :=
  match locType l with
  | 1 => some (whereOf 0 (locValue l))
  | 6 => some (whereOf 1 (locValue l))
  | 4 => some (whereOf 2 (locValue l))
  | 7 => some (whereOf 3 (locValue l))
  | 9 => some (whereOf 4 (locValue l))
  | 11 => some (whereOf 5 (locValue l))
  | _ => none

/-! ### The event buffer (22 R392-R396) -/

/-- No sequence slot. -/
def noSeq : Nat := 0xFF

/-- A record that meets R395 for an occurrence. -/
def mergeable (block num : Nat) (l : BitVec 32) (seq : Nat) (r : EvRec) : Bool :=
  r.block == block && r.number == num && r.location == l && r.seq.toNat == seq && !r.tookMgmt && !r.tookHost

/-- One occurrence more in a record: COUNT saturates, MERGED is set. -/
def mergedRec (r : EvRec) : EvRec := { r with count := min 65535 (r.count + 1), merged := true }

/-- Apply f to the first element that meets p. -/
def modFirst {α : Type} (p : α → Bool) (f : α → α) : List α → List α
  | [] => []
  | x :: xs => if p x then f x :: xs else x :: modFirst p f xs

/-- Apply f to the last element that meets p. -/
def modLast {α : Type} (p : α → Bool) (f : α → α) (l : List α) : List α := (modFirst p f l.reverse).reverse

/-- The management destination is enabled (R394). -/
def mgmtOn (s : State) : Bool := s.hif.eid.isSome

/-- Records that every enabled destination has taken leave (R394); a record that no destination has taken yet stays
(log entry 25). -/
def evPurge (mgmt ring : Bool) (l : List EvRec) : List EvRec :=
  l.filter fun r => !((r.tookMgmt || !mgmt) && (r.tookHost || !ring) && (r.tookMgmt || r.tookHost))

/-- A new record of an occurrence. While the host ring is in force and the endpoint is reset, the host destination
takes it unwritten (R399). -/
def newRec (s : State) (block num : Nat) (l : BitVec 32) (seq : Nat) (detail : Word64) (lost : Bool) : EvRec :=
  { time := s.time, eseq := s.ev.eseq, block := block, severity := severity block num, number := num, location := l,
    seq := BitVec.ofNat 8 seq, merged := false, keepalive := s.pwr.keepalive, lost := lost, count := 1,
    detail := detail, tookMgmt := false, tookHost := s.ev.ringOn && !s.hif.epUp }

/-- An occurrence that takes no record: it uses its ESEQ and is counted as dropped (R396). -/
def evDropped (e : EvSt) : EvSt := { e with eseq := e.eseq + 1, dropped := min 65535 (e.dropped + 1), lost := true }

/-- The event buffer after one occurrence (R394-R396). -/
def evTake (s : State) (block num : Nat) (l : BitVec 32) (seq : Nat) (detail : Word64) : EvSt :=
  let e := s.ev
  let sev := severity block num
  let held := e.buf.length
  let room := if sev ≤ 1 then decide (held < 3840) else if sev = 2 then decide (held < 4080) else decide (held < 4096)
  let put (e : EvSt) (buf : List EvRec) : EvSt :=
    { e with eseq := e.eseq + 1, lost := false,
             buf := evPurge (mgmtOn s) e.ringOn (buf ++ [newRec s block num l seq detail e.lost]) }
  if sev ≤ 1 && e.buf.any (mergeable block num l seq) then
    { e with buf := modFirst (mergeable block num l seq) mergedRec e.buf }
  else if room then put e e.buf
  else if sev = 3 then
    match e.buf.findIdx? (fun r => r.severity ≤ 1) with
    | some i => put { e with dropped := min 65535 (e.dropped + 1), lost := true } (e.buf.eraseIdx i)
    | none =>
      if e.buf.any (fun r => r.block == block && r.number == num) then
        { e with buf := modLast (fun r => r.block == block && r.number == num) mergedRec e.buf }
      else evDropped e
  else evDropped e

/-- The bit of TCK_DOMn_EVENTS that a TCK code sets (02 Table 2.7). -/
def tckBit : Nat → Option Nat
  | 1 => some 0
  | 10 => some 1
  | 11 => some 2
  | 20 => some 3
  | 21 => some 4
  | 30 => some 5
  | _ => none

/-- The bit of PWR_EVENTS that a PWR code sets (20 Table 20.8). -/
def pwrBit : Nat → Option Nat
  | 1 => some 0
  | 2 => some 1
  | 12 => some 2
  | 20 => some 3
  | _ => none

/-- The summaries outside the event path: TCK_DOMn_EVENTS by the domain in LOCATION, PWR_EVENTS. -/
def evSummary (s : State) (block num : Nat) (l : BitVec 32) : State :=
  if block = bTCK && locType l = 11 then
    match tckBit num with
    | some b => modDom s (locValue l) fun d => { d with events := d.events ||| BitVec.ofNat 6 (2 ^ b) }
    | none => s
  else if block = bPWR then
    match pwrBit num with
    | some b => { s with pwr := { s.pwr with events := s.pwr.events ||| BitVec.ofNat 4 (2 ^ b) } }
    | none => s
  else s

/-- The KIND 10 trace record of an event (21 Table 21.3). -/
def evTrace (s : State) (block num : Nat) (l : BitVec 32) (seq : Nat) : State × Bool :=
  traceBare s 10 seq (whereOfLoc l)
    (leBytes 1 block ++ leBytes 2 num ++ leBytes 1 (severity block num) ++ leBytes 4 l.toNat)

/-- Raise an event, except for the OBS.002 that its own trace record may set off. -/
def raiseBare (s : State) (block num : Nat) (l : BitVec 32) (seq : Nat) (detail : Word64) : State × Bool :=
  let s1 := { s with ev := { evTake s block num l seq detail with
                             seen := s.ev.seen ||| BitVec.ofNat 4 (2 ^ severity block num) } }
  let s2 := ctrAdd s1 (4 + severity block num) 1
  evTrace (evSummary s2 block num l) block num l seq

/-- Raise an event (22 R394-R396): its record or merge, the counters and SEEN, the summaries, its trace record, and
OBS.002 at the first dropped trace record (21 R386). -/
def raise (s : State) (block num : Nat) (l : BitVec 32) (seq : Nat) (detail : Word64) : State :=
  let r := raiseBare s block num l seq detail
  if r.2 then (raiseBare r.1 bOBS 2 locDevice noSeq 0).1 else r.1

/-- A trace record of another kind, with OBS.002 where due. -/
def trace (s : State) (kind seq wher : Nat) (data : List Byte) : State :=
  let r := traceBare s kind seq (some wher) data
  if r.2 then raise r.1 bOBS 2 locDevice noSeq 0 else r.1

/-- The layout of an event record (22 Table 22.2). -/
def evBytes (r : EvRec) : List Byte :=
  record 32 [(0, 8, r.time), (8, 4, r.eseq.toNat), (0xC, 1, r.block), (0xD, 1, r.severity), (0xE, 2, r.number),
    (0x10, 4, r.location.toNat), (0x14, 1, r.seq.toNat),
    (0x15, 1, r.merged.toNat + 2 * r.keepalive.toNat + 4 * r.lost.toNat), (0x16, 2, r.count),
    (0x18, 8, r.detail.toNat)]

/-- Signal vector 65 if 2 µs have passed since the last signal, else leave it due (22 R397). -/
def evSignal (s : State) : State :=
  if s.ev.sigAt.elim true (fun t => t + 2000 ≤ s.time) then
    msix { s with ev := { s.ev with sigAt := some s.time, sigDue := false } } 65
  else { s with ev := { s.ev with sigDue := true } }

end Sys2Proof.Machine
end

