-- ==== Sys2Proof/Machine/Stacks.lean ====
section
/-! DEFINITION. The memory stacks and the cluster stores by sector: interleave (10 R180), eaves buffer (R181-R183), error
correction, poison and row repair (R184-R194), the quadrant caches (R9, R179), and reads and writes of the cluster
stores (04 R77). -/

namespace Sys2Proof.Machine

/-- The home of a sector (10 R180). -/
structure Home where
  stack  : Nat
  chan   : Nat
  bank   : Nat
  row    : Nat
  column : Nat
deriving DecidableEq, Repr

/-- The interleave function (10 R180). -/
def home (sec : Nat) : Home :=
  let lo := sec % 256
  let hi := sec / 256
  let g := hi % 5
  let w := hi / 5
  let h := (w % 256) ^^^ ((w / 256) % 256) ^^^ ((w / 65536) % 256) ^^^ ((w / 16777216) % 2)
  let x := lo ^^^ h
  { stack := 5 * (x % 4) + g, chan := x / 4, column := w % 32,
    bank := ((w / 32) % 16) ^^^ ((w / 131072) % 16), row := w / 512 }

/-- The device channel number of a sector (10 R178). -/
def homeCh (sec : Nat) : Nat := 64 * (home sec).stack + (home sec).chan

/-- DETAIL of MEM.002, MEM.003, MEM.022 and MEM.024 (22 Table 22.4). -/
def memDetail (sec : Nat) : Word64 :=
  let h := home sec
  BitVec.ofNat 64 (homeCh sec + h.bank * 2 ^ 11 + h.row * 2 ^ 15 + h.column * 2 ^ 31)

/-- Sectors of the stacks: 1,280 GiB / 32 (10 R179). -/
def nSectors : Nat := 0xA00000000

/-! ### Row repair (10 R194) -/

/-- One second and 24 hours, in ns. -/
def second : Nat := 1000000000
def day : Nat := 86400 * second

/-- Spare rows in use on a channel: repairs of the boot and those made since. -/
def rowsUsed (s : State) (ch : Nat) : Nat :=
  ((s.mem.bootRepairs ++ s.mem.repairs).filter fun r => r.isRow && r.channel == ch).length

/-- Longest time that a full retrain blocks its channel, in ns (10 R193). -/
def retrainMax : Nat := 1500000

/-- The times in which channel maintenance blocks a channel: those that have ended, and the retrains in progress. -/
def maintTimes (s : State) : List (Nat × Nat) :=
  s.mem.maint ++ s.mem.retraining.map fun r => (r.2, min s.time (r.2 + retrainMax))

/-- Length of the union of some times within [lo, hi). -/
def coverNs (l : List (Nat × Nat)) (lo hi : Nat) : Nat :=
  ((l.mergeSort fun a b => a.1 ≤ b.1).foldl (fun (acc : Nat × Nat) r =>
    (acc.1 + (min hi r.2 - max acc.2 r.1), max acc.2 r.2)) (0, lo)).1

/-- Keep a time of maintenance; those that ended more than a second ago are in no window any more. -/
def noteMaint (s : State) (lo hi : Nat) : State :=
  { s with mem := { s.mem with maint := (lo, hi) :: s.mem.maint.filter fun r => decide (s.time < r.2 + second) } }

/-- The errors in other sectors of a row as it is copied to a spare row: corrected, or poisoned (10 R194, R185). -/
def copyRow (s : State) (sec : Nat) : State :=
  let h := home sec
  let mine (x : Nat × EccKind) : Bool :=
    let k := home x.1
    homeCh x.1 == homeCh sec && k.bank == h.bank && k.row == h.row
  let s1 := { s with mem := { s.mem with eccErr := s.mem.eccErr.filter fun x => !mine x } }
  each (s.mem.eccErr.filter mine) (fun s x =>
    match x.2 with
    | .corrected => raise (ctrAdd s (ctrChannel (homeCh sec)) 1) bMEM 1 (locChannel (homeCh sec)) noSeq 0
    | .uncorrectable => raise { s with mem := { s.mem with poison := insertNat x.1 s.mem.poison, lines := s.mem.lines.filter (· != x.1) } }
        bMEM 2 (locChannel (homeCh sec)) noSeq (memDetail x.1)) s1

/-- Remap the row of a sector to a spare row, copied with correction, with MEM.022, or raise MEM.024 once per row (10 R194).
The bank is blocked for a free time of at most 10 µs (log entry 3), which is domain overhead where it lies in a window
(R195). -/
def rowRepair (s : State) (sec : Nat) : State :=
  let h := home sec
  let ch := homeCh sec
  if rowsUsed s ch < 64 then
    let s1 := { s with mem := { s.mem with
      repairs := s.mem.repairs ++ [{ channel := ch, isRow := true, lane := 0, bank := h.bank, row := h.row,
                                     spare := rowsUsed s ch }]
      rowErrs := s.mem.rowErrs.filter fun e => !(e.1 == ch && e.2.1 == h.bank && e.2.2.1 == h.row) } }
    let s2 := noteMaint (drew s1) s1.time (s1.time + drawn s1 195 % 10001)
    raise (ctrAdd (copyRow s2 sec) (ctrStack h.stack 6) 1) bMEM 22 (locChannel ch) noSeq (memDetail sec)
  else if s.mem.rowsFull.contains (ch, h.bank, h.row) then s
  else
    raise { s with mem := { s.mem with rowsFull := s.mem.rowsFull ++ [(ch, h.bank, h.row)] } }
      bMEM 24 (locChannel ch) noSeq (memDetail sec)

/-! ### Error correction (10 R184, R185, R193) -/

/-- Ask for a full retrain of a channel, once. -/
def askRetrain (s : State) (ch : Nat) : State :=
  if s.mem.retrainReq.contains ch then s
  else { s with mem := { s.mem with retrainReq := s.mem.retrainReq ++ [ch] } }

/-- Times of a channel's errors in the last second. -/
def recent (s : State) (l : List (Nat × Nat)) (ch : Nat) : Nat :=
  (l.filter fun e => e.1 == ch && s.time < e.2 + second).length

/-- A single-symbol error is corrected and written back: MEM.001, the channel's and the row's counts, a retrain after
more than 16 in one second, a row repair after 3 on one row in 24 hours. -/
def corrected (s : State) (sec : Nat) : State :=
  let h := home sec
  let ch := homeCh sec
  let s1 := { s with mem := { s.mem with
    eccErr := s.mem.eccErr.filter (·.1 != sec)
    corrTimes := (ch, s.time) :: s.mem.corrTimes.filter fun e => s.time < e.2 + second
    rowErrs := (ch, h.bank, h.row, s.time) :: s.mem.rowErrs.filter fun e => s.time < e.2.2.2 + day } }
  let s2 := raise (ctrAdd s1 (ctrChannel ch) 1) bMEM 1 (locChannel ch) noSeq 0
  let s3 := if 16 < recent s2 s2.mem.corrTimes ch then askRetrain s2 ch else s2
  if 3 ≤ (s3.mem.rowErrs.filter fun e => e.1 == ch && e.2.1 == h.bank && e.2.2.1 == h.row).length then rowRepair s3 sec
  else s3

/-- A detected uncorrectable error poisons the sector: MEM.002, a row repair, and a retrain after 2 in one second. -/
def uncorrectable (s : State) (sec : Nat) : State :=
  let ch := homeCh sec
  let s1 := { s with mem := { s.mem with
    eccErr := s.mem.eccErr.filter (·.1 != sec)
    poison := insertNat sec s.mem.poison
    lines := s.mem.lines.filter (· != sec)
    uncorrTimes := (ch, s.time) :: s.mem.uncorrTimes.filter fun e => s.time < e.2 + second } }
  let s2 := raise s1 bMEM 2 (locChannel ch) noSeq (memDetail sec)
  rowRepair (if 2 ≤ recent s2 s2.mem.uncorrTimes ch then askRetrain s2 ch else s2) sec

/-- One read of a sector on its channel, without the events of a sector that is poisoned already. -/
def eccRead (s : State) (sec : Nat) : State :=
  let s1 := ctrAdd s (ctrStack (home sec).stack 0) 1
  match s1.mem.eccErr.find? (·.1 == sec) with
  | some (_, .corrected) => corrected s1 sec
  | some (_, .uncorrectable) => uncorrectable s1 sec
  | none => s1

/-- A read of a sector on its channel (10 R185): MEM.003 where it held the check pattern before the read. -/
def chanRead (s : State) (sec : Nat) : State :=
  if s.mem.poison.contains sec then raise (eccRead s sec) bMEM 3 (locChannel (homeCh sec)) noSeq (memDetail sec)
  else eccRead s sec

/-! ### The eaves buffer (10 R181, R182) -/

/-- An entry leaves with its mask incomplete: read-modify-write. A poisoned sector stays poisoned (R185). -/
def eavesRmw (s : State) (e : Eaves) : State :=
  let s1 := chanRead s e.sector
  let n := (home e.sector).stack
  let s2 := ctrAdd (ctrAdd s1 (ctrStack n 1) 1) (ctrStack n 2) 1
  if s2.mem.poison.contains e.sector then s2
  else { s2 with mem := { s2.mem with
    stack := e.bytes.foldl (fun m b => memWr zeroByte m (32 * e.sector + b.1) b.2) s2.mem.stack } }

/-- The entry of a sector leaves the buffer. -/
def eavesFlush (s : State) (sec : Nat) : State :=
  match s.mem.eaves.find? (·.sector == sec) with
  | none => s
  | some e => eavesRmw { s with mem := { s.mem with eaves := s.mem.eaves.filter (·.sector != sec) } } e

/-- Every entry leaves (10 R182: the guard phase of any domain begins). -/
def eavesFlushAll (s : State) : State := each (s.mem.eaves.map (·.sector)) eavesFlush s

/-- Is the sector's line held by its quadrant cache now? The replacement rule is open (log entry 19). A poisoned sector is
read on its channel each time (10 R185). -/
def cacheHit (s : State) (sec : Nat) : Bool :=
  s.mem.lines.contains sec && !s.mem.poison.contains sec && Config.keepLine s.free sec

/-- A write that covers a whole sector (10 R181): the poison goes, an open entry merges into it and is full. -/
def writeWhole (s : State) (sec : Nat) (bs : List Byte) : State :=
  if !s.mem.on then s
  else
    ctrAdd { s with mem := { s.mem with
      stack := memWrs zeroByte s.mem.stack (32 * sec) bs
      poison := s.mem.poison.filter (· != sec)
      eccErr := s.mem.eccErr.filter (·.1 != sec)
      eaves := s.mem.eaves.filter (·.sector != sec) } } (ctrStack (home sec).stack 1) 1

/-- Write the poison pattern over a whole sector (11 R216). -/
def writePoison (s : State) (sec : Nat) : State :=
  if !s.mem.on then s
  else
    ctrAdd { s with mem := { s.mem with
      poison := insertNat sec s.mem.poison
      lines := s.mem.lines.filter (· != sec)
      eccErr := s.mem.eccErr.filter (·.1 != sec)
      eaves := s.mem.eaves.filter (·.sector != sec) } } (ctrStack (home sec).stack 1) 1

/-- Put a byte into the bytes of an entry, by offset. -/
def eavesPut : List (Nat × Byte) → Nat → Byte → List (Nat × Byte)
  | [], i, b => [(i, b)]
  | x :: l, i, b => if i < x.1 then (i, b) :: x :: l else if i = x.1 then (i, b) :: l else x :: eavesPut l i b

/-- The bytes of an entry after bytes arrive at an offset. -/
def eavesMerge (old : List (Nat × Byte)) (offs : Nat) (bs : List Byte) : List (Nat × Byte) :=
  ((List.range bs.length).zip bs).foldl (fun l b => eavesPut l (offs + b.1) b.2) old

/-- Make room for a new entry in a channel's 32: the oldest leaves (10 R182). -/
def eavesRoom (s : State) (ch : Nat) : State :=
  let mine := s.mem.eaves.filter fun e => homeCh e.sector == ch
  if mine.length < 32 then s
  else match mine.head? with
    | some e => eavesFlush s e.sector
    | none => s

/-- Merge bytes into the entry of a sector, opening it if none exists; a full mask leaves as a whole sector. -/
def eavesWrite (s : State) (sec offs : Nat) (bs : List Byte) : State :=
  match s.mem.eaves.find? (·.sector == sec) with
  | some e =>
    let merged := eavesMerge e.bytes offs bs
    if merged.length = 32 then writeWhole s sec (merged.map (·.2))
    else { s with mem := { s.mem with
      eaves := s.mem.eaves.map fun x => if x.sector = sec then { x with bytes := merged } else x } }
  | none =>
    let s1 := eavesRoom s (homeCh sec)
    { s1 with mem := { s1.mem with
      eaves := s1.mem.eaves ++ [{ sector := sec, bytes := eavesMerge [] offs bs, opened := s1.time }] } }

/-- A write of fewer than 32 bytes of a sector (10 R181): into the cached line on a hit, into the eaves entry else. -/
def writePart (s : State) (sec offs : Nat) (bs : List Byte) : State :=
  if !s.mem.on then s
  else if s.mem.lines.contains sec then
    if cacheHit s sec then
      ctrAdd { s with
        free := s.free + 1
        mem := { s.mem with stack := memWrs zeroByte s.mem.stack (32 * sec + offs) bs } } (ctrStack (home sec).stack 1) 1
    else eavesWrite { s with free := s.free + 1, mem := { s.mem with lines := s.mem.lines.filter (· != sec) } } sec offs bs
  else eavesWrite s sec offs bs

/-! ### Sector reads -/

/-- What a read delivers: bytes, whether they are poison, and the DETAIL of the memory event where they are. -/
structure Read where
  bytes  : List Byte
  poison : Bool
  detail : Word64
deriving DecidableEq, Repr

/-- A read of a sector (10 R181, R182, R185, 20 R419). With the interfaces off it is poison without an event. -/
def readSector (s : State) (sec : Nat) (alloc : Bool) : Read × State :=
  if !s.mem.on then (⟨List.replicate 32 0, true, 0⟩, s)
  else
    let hit := s.mem.lines.contains sec && cacheHit s sec
    let s1 :=
      if hit then drew s
      else if s.mem.eaves.any (·.sector == sec) then eavesFlush s sec
      else chanRead s sec
    let bad := s1.mem.poison.contains sec
    let s2 := { s1 with mem := { s1.mem with
      lines := if bad then s1.mem.lines.filter (· != sec) else if alloc then insertNat sec s1.mem.lines else s1.mem.lines } }
    (⟨memRdN zeroByte s2.mem.stack (32 * sec) 32, bad, if bad then memDetail sec else 0⟩, s2)

/-- Put the reads of successive sectors together; the first poison gives the detail. -/
def Read.join (a b : Read) : Read := ⟨a.bytes ++ b.bytes, a.poison || b.poison, if a.poison then a.detail else b.detail⟩

/-- A read of any bytes by stack physical address, sector by sector. -/
def readPA (s : State) (pa n : Nat) (alloc : Bool := true) : Read × State :=
  (chunks pa n).foldl (fun acc c =>
    let r := readSector acc.2 (c.1 / 32) alloc
    (acc.1.join ⟨(r.1.bytes.drop (c.1 % 32)).take c.2, r.1.poison, r.1.detail⟩, r.2)) (⟨[], false, 0⟩, s)

/-- A write of bytes by stack physical address: whole sectors directly, ragged edges as partial writes (11 R215). -/
def writePA (s : State) (pa : Nat) (bs : List Byte) : State :=
  each (chunks pa bs.length) (fun s c =>
    let part := (bs.drop (c.1 - pa)).take c.2
    if c.2 = 32 then writeWhole s (c.1 / 32) part else writePart s (c.1 / 32) (c.1 % 32) part) s

/-- The 8-byte word of an ATOM at a stack physical address, executed in the eaves entry of its sector (10 R183): the old
value, or poison; `f` gives the new value. -/
def atomPA (s : State) (pa : Nat) (f : Word64 → Word64) : Read × State :=
  let sec := pa / 32
  if !s.mem.on then (⟨List.replicate 8 0, true, 0⟩, s)
  else
    let s1 := chanRead s sec
    if s1.mem.poison.contains sec then (⟨List.replicate 8 0, true, memDetail sec⟩, s1)
    else
      let base := memRdN zeroByte s1.mem.stack (32 * sec) 32
      let now := ((s1.mem.eaves.find? (·.sector == sec)).elim [] (·.bytes)).foldl (fun l b => l.set b.1 b.2) base
      let old := (now.drop (pa % 32)).take 8
      (⟨old, false, 0⟩, eavesWrite { s1 with mem := { s1.mem with lines := s1.mem.lines.filter (· != sec) } } sec (pa % 32)
        (leBytes 8 (f (BitVec.ofNat 64 (ofLE old))).toNat))

/-! ### Cluster stores (04 R61, R71, R77) -/

/-- Byte of a cluster store. -/
def csByte (s : State) (c offs : Nat) : Byte := memRd zeroByte s.st.cs (csKey c offs)

/-- Bytes of a cluster store, without the errors that a read meets. -/
def csBytes (s : State) (c offs n : Nat) : List Byte := memRdN zeroByte s.st.cs (csKey c offs) n

/-- Is the store sector that holds an offset poisoned? -/
def csBad (s : State) (c offs : Nat) : Bool := s.st.csPoison.contains (csKey c offs / 32)

/-- A poisoned byte range. -/
def csBadRange (s : State) (c offs n : Nat) : Bool := (chunks offs n).any fun x => csBad s c x.1

/-- An engine reads a store sector (R77): a correctable error is corrected with `blk`.033, an uncorrectable one poisons
the sector; a poisoned sector raises `blk`.032 with its offset. -/
def csTouch (s : State) (blk c seq offs : Nat) : State :=
  let sec := csKey c offs / 32
  let s1 :=
    match s.st.csErr.find? (·.1 == sec) with
    | some (_, .corrected) =>
      raise { s with st := { s.st with csErr := s.st.csErr.filter (·.1 != sec) } } blk 33 (locCluster c) seq 0
    | some (_, .uncorrectable) =>
      { s with st := { s.st with csErr := s.st.csErr.filter (·.1 != sec), csPoison := insertNat sec s.st.csPoison } }
    | none => s
  if s1.st.csPoison.contains sec then raise s1 blk 32 (locCluster c) seq (BitVec.ofNat 64 (offs / 32 * 32)) else s1

/-- An engine reads every sector that a range touches. -/
def csTouchRange (s : State) (blk c seq offs n : Nat) : State :=
  each ((chunks offs n).map (·.1)) (fun s a => csTouch s blk c seq a) s

/-- Write bytes of a cluster store. A whole sector written clears its poison; a part of one leaves it (log entry 26). -/
def csWrite (s : State) (c offs : Nat) (bs : List Byte) : State :=
  let whole := (chunks offs bs.length).filterMap fun x => if x.2 = 32 then some (csKey c x.1 / 32) else none
  { s with st := { s.st with
    cs := memWrs zeroByte s.st.cs (csKey c offs) bs
    csPoison := s.st.csPoison.filter fun x => !whole.contains x
    csErr := s.st.csErr.filter fun x => !whole.contains x.1 } }

/-- Mark a store sector as poisoned. -/
def csPoisonAt (s : State) (c offs : Nat) : State :=
  { s with st := { s.st with csPoison := insertNat (csKey c offs / 32) s.st.csPoison } }

end Sys2Proof.Machine
end

