-- ==== Sys2Proof/Machine/Translate.lean ====
section
/-! DEFINITION. Translation (11 R200-R204), the device's own accesses (R420, R421), the fault ring (R224) and the image's
parameters (19 R354). -/

namespace Sys2Proof.Machine

/-! ### Parameters and the slice -/

/-- A parameter of the booted image (19 R354); defaults were filled in at boot. -/
def param (s : State) (id : Nat) : Nat := (s.boot.cfg.params.find? (·.1 == id)).elim 0 (·.2)

/-- A nibble of a coordinate: axis 0-3. -/
def axisOf (c : BitVec 16) (j : Nat) : Nat := (c.toNat / 16 ^ j) % 16

/-- The product of (nibble + 1) over the axes. -/
def blockSize (e : BitVec 16) : Nat := (axisOf e 0 + 1) * (axisOf e 1 + 1) * (axisOf e 2 + 1) * (axisOf e 3 + 1)

/-- The slice size: 1 while the device is no member of a latched slice (09 R167). -/
def sliceSize (s : State) : Nat := if s.self.member then s.self.slice.elim 1 fun r => blockSize r.extent else 1

/-- The own device index: 0 while the device is no member (09 R167). -/
def ownIndex (s : State) : Nat := if s.self.member then s.self.index else 0

/-- Device index and local part of a global address (09 R167). -/
def gIndex (a : Word64) : Nat := bits a.toNat 63 52
def gLocal (a : Word64) : Nat := bits a.toNat 51 0

/-! ### The walk (11 R200-R203) -/

/-- What an access needs of a leaf. -/
inductive Need where
  | r
  | w
  | x
  | rw
deriving DecidableEq, Repr

/-- The outcome of a translation: a place, a recoverable fault at a level, a fatal one with its XLT code. -/
inductive Xl where
  | stack (pa : Nat)
  | host (a : Nat)
  | retry (level : Nat)
  | fatal (code level : Nat)
deriving DecidableEq, Repr

/-- log2 of the bytes that an entry of a level spans (07 Table 7.6). -/
def spanBits : Nat → Nat
  | 0 => 16
  | 1 => 21
  | 2 => 30
  | _ => 39

/-- The index of a local virtual address into the table of a level. -/
def tableIndex (level va : Nat) : Nat :=
  let n := match level with
    | 0 => 32
    | 3 => 8192
    | _ => 512
  (va / 2 ^ spanBits level) % n

/-- Size of a table by level (R200). -/
def tableBytes : Nat → Nat
  | 0 => 256
  | 3 => 65536
  | _ => 4096

def pteV (e : Word64) : Bool := e.getLsbD 0
def pteLeaf (e : Word64) : Bool := e.getLsbD 1
def pteTarget (e : Word64) : Nat := bits e.toNat 6 5
def pteAddr (e : Word64) : Nat := e.toNat / 256 * 256

/-- A valid entry that breaks Table 11.2 (R201). -/
def pteBad (level : Nat) (e : Word64) : Bool :=
  e.getLsbD 7 || 2 ≤ pteTarget e
    || (pteLeaf e && level == 3) || (!pteLeaf e && level == 0)
    || (if pteLeaf e then pteAddr e % 2 ^ spanBits level != 0
        else pteAddr e % tableBytes (level - 1) != 0 || pteTarget e != 0)
    || (pteTarget e == 0 && 0x013FFFFFFFFF < pteAddr e)

/-- Does a leaf permit the access? -/
def ptePermits (need : Need) (e : Word64) : Bool :=
  match need with
  | .r => e.getLsbD 2
  | .w => e.getLsbD 3
  | .x => e.getLsbD 4
  | .rw => e.getLsbD 2 && e.getLsbD 3

/-- A well-formed leaf as the outcome of an access (R201, R202). -/
def leafOut (level va : Nat) (need : Need) (hostOk : Bool) (e : Word64) : Xl :=
  if !ptePermits need e then .fatal 10 level
  else
    let a := pteAddr e + va % 2 ^ spanBits level
    if pteTarget e == 1 then (if hostOk then .host a else .fatal 12 level) else .stack a

/-- The caches that a requester uses: of its base die (0-3), and an engine (4 + e) its own too (R203). -/
def tlbHomes (port : Nat) : List Nat := if port < 4 then [port] else [port, (port - 4) / 16]

/-- Entries that a cache holds: leaves, or entries of the walk (R203). -/
def tlbCap (home : Nat) (leaf : Bool) : Nat := if home < 4 then (if leaf then 4096 else 256) else if leaf then 64 else 0

/-- Cached entries of a level that cover an address, leaves or pointers. -/
def cachedAt (s : State) (port level va : Nat) (leaf : Bool) : List Word64 :=
  (s.xlt.tlb.filter fun t => (tlbHomes port).contains t.home && t.level == level && t.key == va / 2 ^ spanBits level
    && pteLeaf t.entry == leaf).map (·.entry)

/-- A free choice: one of the cached entries, or none of them (R203; log entry 19). -/
def pick (s : State) (l : List Word64) : Option Word64 × State :=
  if l.isEmpty then (none, s) else (l[drawn s 203 % (l.length + 1)]?, drew s)

/-- Keep an entry in one cache; where that is full, a free choice leaves it (log entry 19). -/
def cacheIn (s : State) (t : PtEntry) : State :=
  let same := s.xlt.tlb.filter fun x => x.home == t.home && pteLeaf x.entry == pteLeaf t.entry
  let cap := tlbCap t.home (pteLeaf t.entry)
  if cap = 0 || s.xlt.tlb.contains t then s
  else if same.length < cap then { s with xlt := { s.xlt with tlb := s.xlt.tlb ++ [t] } }
  else
    let out := same[drawn s 204 % same.length]?
    { drew s with xlt := { s.xlt with tlb := (s.xlt.tlb.filter fun x => some x != out) ++ [t] } }

/-- Keep an entry in the caches of a requester. -/
def cache (s : State) (port level va : Nat) (e : Word64) : State :=
  each (tlbHomes port) (fun s h => cacheIn s ⟨level, va / 2 ^ spanBits level, e, h⟩) s

/-- The walk from a level down, `base` being that level's table. -/
def walk (port va : Nat) (need : Need) (hostOk : Bool) : Nat → Nat → State → Xl × State
  | 0, base, s => entry 0 base s fun _ s => (.fatal 11 0, s)
  | level + 1, base, s => entry (level + 1) base s fun next s => walk port va need hostOk level next s
where
  /-- One entry: from the walk cache or from memory. -/
  entry (level base : Nat) (s : State) (down : Nat → State → Xl × State) : Xl × State :=
    let p := pick s (cachedAt s port level va false)
    match p.1 with
    | some e => down (pteAddr e) p.2
    | none =>
      let r := readPA p.2 (base + 8 * tableIndex level va) 8
      let e := BitVec.ofNat 64 (ofLE r.1.bytes)
      if r.1.poison then (.fatal 11 level, r.2)
      else if !pteV e then (.retry level, r.2)
      else if pteBad level e then (.fatal 11 level, r.2)
      else
        let s1 := cache r.2 port level va e
        if pteLeaf e then (leafOut level va need hostOk e, s1) else down (pteAddr e) s1

/-- Translate a local virtual address (R200-R203): a cached leaf that still stands may be used, else the tables are
walked from L3. `port` tells whose caches are used; the device's own accesses, which belong to no die, use those of die 0 (log
entry 19). -/
def translate (s : State) (va : Nat) (need : Need) (hostOk : Bool) (port : Nat := 0) : Xl × State :=
  let leaves := (cachedAt s port 0 va true).map (fun e => (0, e)) ++ (cachedAt s port 1 va true).map (fun e => (1, e))
    ++ (cachedAt s port 2 va true).map (fun e => (2, e))
  if leaves.isEmpty then walk port va need hostOk 3 (param s 0x020) s
  else
    match leaves[drawn s 203 % (leaves.length + 1)]? with
    | some (level, e) => (leafOut level va need hostOk e, drew s)
    | none => walk port va need hostOk 3 (param s 0x020) (drew s)

/-! ### The device's own accesses (11 R420, R421) -/

/-- The kinds of address of R420. -/
inductive Ad where
  | pa (a : Nat)
  | lva (a : Nat)
  | gva (a : Word64)
deriving DecidableEq, Repr

def Ad.plus : Ad → Nat → Ad
  | .pa a, n => .pa (a + n)
  | .lva a, n => .lva (a + n)
  | .gva a, n => .gva (a + BitVec.ofNat 64 n)

/-- Raise XLT.005 with the address of the failed access (22 Table 22.4). -/
def devFail (s : State) (a : Nat) (write : Bool) : State :=
  raise s bXLT 5 locDevice noSeq (BitVec.ofNat 64 (a % 2 ^ 52 + write.toNat * 2 ^ 63))

/-- The stack physical address of one chunk of a device access; none where it fails. -/
def devPlace (s : State) (ad : Ad) (write : Bool) : Option Nat × State :=
  let need : Need := if write then .w else .r
  match ad with
  | .pa a => (some a, s)
  | .lva a =>
    let t := translate s (a % 2 ^ 52) need false
    match t.1 with
    | .stack p => (some p, t.2)
    | _ => (none, devFail t.2 a write)
  | .gva g =>
    if gIndex g ≠ ownIndex s then (none, devFail s (gLocal g) write)
    else
      let t := translate s (gLocal g) need false
      match t.1 with
      | .stack p => (some p, t.2)
      | _ => (none, devFail t.2 (gLocal g) write)

/-- The number that places an access among its sectors. -/
def Ad.low : Ad → Nat
  | .pa a => a
  | .lva a => a
  | .gva g => g.toNat

/-- Places of all the chunks of a device access; none as soon as one fails. -/
def devPlaces (s : State) (ad : Ad) (write : Bool) : List (Nat × Nat) → Option (List (Nat × Nat)) × State
  | [] => (some [], s)
  | c :: cs =>
    let p := devPlace s (ad.plus (c.1 - ad.low)) write
    match p.1 with
    | none => (none, p.2)
    | some a =>
      let r := devPlaces p.2 ad write cs
      (r.1.map ((a, c.2) :: ·), r.2)

/-- A read by the device itself: none where it fails (with XLT.005) or returns poison (with the memory event). While the
stacks are off no such access is made (20 R419). -/
def devRead (s : State) (ad : Ad) (n : Nat) : Option (List Byte) × State :=
  if !s.mem.on then (none, s)
  else
    let p := devPlaces s ad false (chunks ad.low n)
    match p.1 with
    | none => (none, p.2)
    | some l =>
      let r := l.foldl (fun acc c => let r := readPA acc.2 c.1 c.2; (acc.1.join r.1, r.2)) ((⟨[], false, 0⟩ : Read), p.2)
      (if r.1.poison then none else some r.1.bytes, r.2)

/-- A write by the device itself; the flag says that it was made. -/
def devWrite (s : State) (ad : Ad) (bs : List Byte) : Bool × State :=
  if !s.mem.on then (false, s)
  else
    let p := devPlaces s ad true (chunks ad.low bs.length)
    match p.1 with
    | none => (false, p.2)
    | some l => (true, (l.foldl (fun acc c => (acc.1.drop c.2, writePA acc.2 c.1 (acc.1.take c.2))) (bs, p.2)).2)

/-- A write whose failure has no outcome but that it is not made (Table 11.13). -/
def devPut (s : State) (ad : Ad) (bs : List Byte) : State := (devWrite s ad bs).2

/-! ### The fault ring (11 R224, Table 11.5) -/

/-- The layout of a fault record. -/
def faultBytes (s : State) (f : FaultRec) : List Byte :=
  record 64 [(0, 4, f.tag.toNat), (4, 2, f.code), (6, 1, f.kind), (7, 1, f.level), (8, 8, f.va), (0x10, 2, f.who),
    (0x12, 1, f.seq), (0x13, 1, f.final.toNat), (0x14, 4, f.done), (0x18, 4, f.cmdTag.toNat), 
    (0x1C, 2, f.peer.getD (ownIndex s))]

/-- LOCATION of a fault: its engine for KIND 2 and 3, its cluster for KIND 0, 1, 4 and 5. -/
def faultLoc (f : FaultRec) : BitVec 32 :=
  if f.kind = 2 ∨ f.kind = 3 then locEngine f.who else if f.kind = 6 then locDevice else locCluster f.who

/-- Is the ring entry that a tag takes occupied by an unresolved fault? -/
def faultBusy (s : State) (tag : BitVec 32) : Bool := s.xlt.faults.any fun f => f.tag.toNat % 16384 == tag.toNat % 16384

/-- Write a record into the ring: PRODUCED, vector 64 and the trace record follow (R224). -/
def faultWrite (s : State) (f : FaultRec) : State :=
  let s1 := writePA s (param s 0x022 + 64 * (f.tag.toNat % 16384)) (faultBytes s f)
  let s2 := msix { s1 with xlt := { s1.xlt with produced := s1.xlt.produced + 1 } } 64
  let data := leBytes 4 f.tag.toNat ++ leBytes 2 f.code ++ leBytes 1 f.kind
  let r := traceBare s2 6 f.seq (if f.kind = 6 then none
    else some (if f.kind = 2 ∨ f.kind = 3 then whereOf 1 f.who else whereOf 0 f.who)) data
  if r.2 then raise r.1 bOBS 2 locDevice noSeq 0 else r.1

/-- A fault takes the next tag (log entry 27). -/
def nextTag (s : State) : State := { s with xlt := { s.xlt with nextTag := s.xlt.nextTag + 1 } }

/-- A recoverable fault: its tag where its record is written and its requester waits, none where the entry is occupied
and the fault is aborted at once with XLT.004. -/
def faultRetry (s : State) (f : FaultRec) : Option (BitVec 32) × State :=
  let tag := s.xlt.nextTag
  let f1 := { f with tag := tag, code := 1, final := false, arose := s.time, ticks := 0 }
  let s1 := nextTag s
  if faultBusy s tag then (none, raise s1 bXLT 4 (faultLoc f) f.seq (tag.setWidth 64))
  else
    let s2 := raise s1 bXLT 1 (faultLoc f) f.seq (tag.setWidth 64)
    let s3 := { s2 with xlt := { s2.xlt with faults := s2.xlt.faults ++ [f1] } }
    (some tag, faultWrite s3 f1)

/-- A fatal fault: its code is raised, and a final record is written unless the entry is occupied. -/
def faultFatal (s : State) (f : FaultRec) : State :=
  let tag := s.xlt.nextTag
  let f1 := { f with tag := tag, final := true, arose := s.time, ticks := 0 }
  let s1 := raise (nextTag s) bXLT f.code (faultLoc f) f.seq (tag.setWidth 64)
  if faultBusy s tag then s1 else faultWrite s1 f1

/-- A fault record with nothing but its place. -/
def mkFault (kind level va who seq : Nat) (req : Requester) : FaultRec where
  tag := 0
  code := 1
  kind := kind
  level := level
  va := va
  who := who
  seq := seq
  final := false
  done := 0
  cmdTag := 0
  peer := none
  req := req
  arose := 0
  ticks := 0

end Sys2Proof.Machine
end

