-- ==== Sys2Proof/Machine/Yealms.lean ====
section
/-! DEFINITION. The catalogue's device fields and the yealms of the copies that work reads: what a poisoned one does (12
R227, R237, 11 R421). -/

namespace Sys2Proof.Machine

/-! ### The catalogue (Table 12.1) -/

def catAddr (s : State) (m : Nat) : Nat := param s 0x023 + 128 * m

/-- Write bytes of a catalogue entry; where that fails they are written again at the next admit phase (11 R421). -/
def catPut (s : State) (m offs : Nat) (bs : List Byte) : State :=
  let r := devWrite s (.lva (catAddr s m + offs)) bs
  if r.1 then r.2 else modWgt r.2 m fun w => { w with owed := true }

/-- LIVE, the spar pointer. -/
def liveWord (w : ModelSt) : Nat :=
  match w.live with
  | some c => c.gen * 65536 + 2 + c.slot.toNat
  | none => 0

/-- Write a STATUS byte of a manifest; one that cannot be written is written again (11 R421). -/
def putStatus (s : State) (m va st : Nat) : State :=
  let r := devWrite s (.lva va) [BitVec.ofNat 8 st]
  modWgt r.2 m fun w => { w with owedStat := w.owedStat.filter (·.1 != va) ++ (if r.1 then [] else [(va, st)]) }

/-- STATUS of a yealm in its manifest. -/
def yealmStatus (s : State) (m : Nat) (man : Manifest) (y st : Nat) : State := putStatus s m (man.va + 0x40 + 64 * y + 3) st

/-- Write the device's fields of an entry, and the STATUS bytes that are owed. -/
def catSync (s : State) (m : Nat) : State :=
  let w := wgtAt s m
  let s1 := modWgt s m fun w => { w with owed := false, owedStat := [] }
  let s2 := each w.owedStat (fun s o => putStatus s m o.1 o.2) s1
  let s3 := catPut s2 m 0x20 (leBytes 8 (liveWord w) ++ leBytes 8 (w.retired * 65536))
  catPut s3 m 0x30 (leBytes 1 w.state ++ leBytes 1 (min 255 (w.live.elim 0 (·.bad.length))))

/-- Does the device owe a write to an entry or its manifests? -/
def catOwed (w : ModelSt) : Bool := w.owed || !w.owedStat.isEmpty

/-- Set STATE. -/
def setState (s : State) (m st : Nat) : State :=
  let s1 := modWgt s m fun w => { w with state := st }
  catPut s1 m 0x30 (leBytes 1 st)

/-- A model is live while LIVE.VALID is set (R227). -/
def modelLive (s : State) (m : Nat) : Bool := decide (m < 16) && (wgtAt s m).live.isSome

/-! ### The copies that work reads (R235, R237) -/

/-- The live copy and an old one still referenced. -/
def servedCopies (w : ModelSt) : List WCopy := w.live.toList ++ (w.old.map (·.copy)).toList

/-- The served copy with a GEN. -/
def copyOf (w : ModelSt) (gen : Nat) : Option WCopy := (servedCopies w).find? (·.gen == gen)

/-- Change the served copy with a GEN. -/
def modCopy (s : State) (m gen : Nat) (f : WCopy → WCopy) : State :=
  let g (c : WCopy) : WCopy := if c.gen = gen then f c else c
  modWgt s m fun w => { w with live := w.live.map g, old := w.old.map fun o => { o with copy := g o.copy } }

/-- The yealm of a copy that holds an address. -/
def yealmAt (c : WCopy) (va : Nat) : Option Nat := c.man.ents.findIdx? fun y => y.va ≤ va && va < y.va + y.bytes

/-- The model, copy and yealm that hold an address. -/
def servedYealm (s : State) (va : Nat) : Option (Nat × WCopy × Nat) :=
  (List.range 16).findSome? fun m => (servedCopies (wgtAt s m)).findSome? fun c => (yealmAt c va).map fun y => (m, c, y)

/-- POISONED follows the live copy's bad yealms. -/
def putPoisoned (s : State) (m : Nat) : State :=
  catPut s m 0x31 (leBytes 1 (min 255 ((wgtAt s m).live.elim 0 (·.bad.length))))

/-- The health of the live copy, 4 live or 5 degraded. STATE shows it unless a build or a ready copy is shown (R227); a
build that fails goes back to it. -/
def setHealth (s : State) (m st : Nat) : State :=
  let w := wgtAt s m
  if w.state = 4 ∨ w.state = 5 then setState s m st
  else modWgt s m fun w => { w with
    build := w.build.map fun b => if b.before = 4 ∨ b.before = 5 then { b with before := st } else b }

/-- A yealm of the live copy is found poisoned (R237 steps 1 and 2). One without a source cannot be refetched: the copy is
degraded at once (log entry 50). -/
def yealmPoisoned (s : State) (m y : Nat) : State :=
  match (wgtAt s m).live with
  | none => s
  | some c =>
    if c.bad.any (·.1 == y) then s
    else
      let again := ((c.man.ents[y]?).elim 2 (·.kind)) ≠ 2
      let s1 := modCopy s m c.gen fun c => { c with bad := c.bad ++ [(y, if again then 4 else 3)] }
      let s2 := raise (yealmStatus s1 m c.man y 3) bWGT 20 (locModel m) noSeq 0
      let s3 := putPoisoned s2 m
      if again then
        yealmStatus (modCopy s3 m c.gen fun c => { c with refetch := c.refetch ++ [(y, 0)] }) m c.man y 4
      else setHealth s3 m 5

/-- A weights-class COPY from [va, va + n) reported poison: the live yealms that it touches are poisoned. -/
def copyPoisoned (s : State) (va n : Nat) : State :=
  each (List.range 16) (fun s m =>
    match (wgtAt s m).live with
    | none => s
    | some c => each ((List.range c.man.ents.length).filter fun y =>
        (c.man.ents[y]?).elim false fun e => decide (e.va < va + n ∧ va < e.va + e.bytes)) (fun s y => yealmPoisoned s m y) s) s

end Sys2Proof.Machine
end

