-- ==== Sys2Proof/Machine/Ops.lean ====
section
/-! DEFINITION. The named operations that the families share: threads and work items (09 R163-R175, 13 R249), commands
and their completion (11 R214, 17 R318, 18 R341), termination (09 R174), fetching and issuing an instruction
(R165-R167). -/

namespace Sys2Proof.Machine

/-! ### Sequences and work items -/

/-- Priority class of a sequence slot; 0xFF ranks as L2 (11 R213). -/
def seqClass (s : State) (n : Nat) : Nat := if n < 32 then (seqAt s n).cls else 2

/-- A work item on a sequence's list, by its number. -/
def itemOf (s : State) (slot num : Nat) : Option Item := (seqAt s slot).items.find? (·.num == num)

/-- Change a work item. -/
def modItem (s : State) (slot num : Nat) (f : Item → Item) : State :=
  modSeq s slot fun q => { q with items := q.items.map fun i => if i.num = num then f i else i }

/-- Put a word into bits of a 64-bit datum, for DONE (13 Table 13.4): bit k of the outcome and the tick of the last
placement. -/
def doneWord (k tick : Nat) : Nat := 2 ^ k + (tick % 2 ^ 48) * 65536

/-- Write an item's DONE (R249); a failed write is not made (11 Table 13.4, R421). -/
def writeDone (s : State) (i : Item) (k : Nat) : State :=
  if i.doneVa = 0 then s else devPut s (.lva i.doneVa) (leBytes 8 (doneWord k i.lastTick))

/-! ### Threads -/

def thrOf (cl : ClusterSt) (t : Nat) : Thread := unit cl.threads t Thread.reset
def thrAt (s : State) (c t : Nat) : Thread := thrOf (clAt s c) t

def modThr (s : State) (c t : Nat) (f : Thread → Thread) : State :=
  modCl s c fun cl => { cl with threads := cl.threads.modify t f }

/-- Make a thread wait. -/
def wait (s : State) (c t : Nat) (w : Wait) : State := modThr s c t fun h => { h with state := .waiting, wait := w }

/-- Make a waiting thread ready. -/
def ready (s : State) (c t : Nat) : State :=
  modThr s c t fun h => if h.state == .waiting then { h with state := .ready, wait := .none } else h

/-- A scalar register; G0 reads as 0 (09 Table 9.1). -/
def reg (h : Thread) (n : Nat) : Word64 := if n = 0 then 0 else h.regs.getD (n - 1) 0

/-- Write a scalar register; a write of G0 is ignored. -/
def setReg (h : Thread) (n : Nat) (v : Word64) : Thread := if n = 0 then h else { h with regs := h.regs.set (n - 1) v }

/-- Free every thread of a cluster that has exited (09 Table 9.2, code 5). -/
def freeExited (cl : ClusterSt) : ClusterSt :=
  { cl with threads := cl.threads.map fun h => if h.state == .exited then Thread.reset else h }

/-- Does a thread run a work item: it has neither exited nor been suspended? -/
def ofItem (h : Thread) (num : Nat) : Bool :=
  h.state != .free && h.state != .exited && h.state != .suspended && h.item == num

/-- Take an item's slots and waiting steps off a cluster, with what a conversion of it would still write, and change its
threads (09 R174, 04 R62). -/
def clLeave (num : Nat) (f : Thread → Thread) (cl : ClusterSt) : ClusterSt :=
  { cl with
    threads := cl.threads.map fun h => if ofItem h num then f h else h
    slots := cl.slots.map fun a =>
      if a.owner.any (·.1 == num) then { a with owner := none, group := none, result := [] } else a
    waitQ := cl.waitQ.filter fun t => !ofItem (thrOf cl t) num }

/-- Free an item's threads, slots and waiting steps on a cluster. -/
def clDropItem (num : Nat) (cl : ClusterSt) : ClusterSt := clLeave num (fun _ => Thread.reset) cl

/-- An item's threads on a cluster are suspended, those at a barrier too, and leave no result (09 R174, R175). -/
def clSuspend (num : Nat) (cl : ClusterSt) : ClusterSt :=
  clLeave num (fun h => { h with state := .suspended, wait := .none, prog := none }) cl

/-- The suspended threads of a terminated item are free, but for one whose step is on the array: it stops when that step
ends (Table 9.2). -/
def clFreeSuspended (num : Nat) (cl : ClusterSt) : ClusterSt :=
  { cl with threads := ((List.range cl.threads.length).zip cl.threads).map fun p =>
      if p.2.state == .suspended && p.2.item == num && !(cl.array.any fun a => a.thr == p.1 && a.item == num) then Thread.reset
      else p.2 }

/-- Free an item's threads and slots on every cluster. -/
def dropThreads (s : State) (num : Nat) : State := { s with cl := s.cl.map (clDropItem num) }

/-- Suspend an item's threads on every cluster, and free those that have stopped. -/
def suspendThreads (s : State) (num : Nat) : State := { s with cl := s.cl.map (clSuspend num) }
def freeSuspended (s : State) (num : Nat) : State := { s with cl := s.cl.map (clFreeSuspended num) }

/-- An item leaves its sequence's list: its threads, slots and weight references go (13 R249, 12 R235). -/
def removeItem (s : State) (slot num : Nat) : State :=
  let s1 := dropThreads s num
  { s1 with
    seq := s1.seq.modify slot fun q => { q with items := q.items.filter (·.num != num) }
    wgt := s1.wgt.map fun m => { m with old := m.old.map fun o => { o with items := o.items.filter (· != num) } } }

/-- A work item is not complete, nor is the frame that its batch contributes to: it read poisoned weights, or a holed
collective contributed to it (12 R238, 15 R292). -/
def spoil (item : Nat) (s : State) : State :=
  { s with seq := s.seq.map fun q =>
      { q with
        spoiled := q.spoiled ++ (q.items.filter fun i => i.num == item && !q.spoiled.contains i.target).map (·.target)
        items := q.items.map fun i => if i.num = item then { i with spoiled := true } else i } }

/-! ### Commands and their completion (11 R214) -/

def cmdIsKv (c : DmaCmd) : Bool := cmdOp c == 1 || cmdOp c == 2
def cmdIsPlay (c : DmaCmd) : Bool := cmdOp c == 0x24
/-- CLASS; a key/value command has none and belongs to class 1 (07 R132, 11 Table 11.3). -/
def cmdClass (c : DmaCmd) : Nat := if cmdIsKv c then 1 else cmdN c 1 1
def cmdFlags (c : DmaCmd) : Nat := if cmdIsKv c then 0 else cmdN c 2 1
def cmdSeq (c : DmaCmd) : Nat := if cmdIsKv c then cmdN c 1 1 else cmdN c 4 1
def cmdTag (c : DmaCmd) : Nat := if cmdIsPlay c then cmdN c 0x14 4 else if cmdIsKv c then 0 else cmdN c 0x1C 4
def cmdCpl (c : DmaCmd) : Nat := cmdN c 0x20 8

/-- Was the command issued by a thread of this item? -/
def byItem (num : Nat) (c : DmaCmd) : Bool :=
  match c.issuer with
  | .thread _ _ i => i == num
  | .host => false

/-- Was the command issued by this thread of this item? -/
def byThread (cl t item : Nat) (c : DmaCmd) : Bool := c.issuer == .thread cl t item

/-- Commands accepted and not complete, of every engine and codec context. -/
def liveCmds (s : State) : List DmaCmd :=
  s.eng.flatMap (fun e => e.thrQ ++ e.hostQ ++ e.parked.map (·.2) ++ e.cur.toList)
    ++ s.cod.ctxs.flatMap (fun x => x.queue.map (·.cmd) ++ (x.closing.map (·.2)).toList)

/-- A thread has an unanswered request to a peer. -/
def t4Busy (s : State) (c t item : Nat) : Bool := s.xlt.t4.any fun r => r.who == .thread c t item

/-- A thread has a collective in progress. -/
def colBusy (s : State) (c t item : Nat) : Bool :=
  s.col.units.any fun u => u.inProg.any fun x => x.issuer == .thread c t item

/-- A request of the thread to a peer is held up by the peer's fault (11 R223). -/
def t4Held (s : State) (c t item : Nat) : Bool := s.xlt.t4.any fun r => r.who == .thread c t item && r.faulted.isSome

/-- What TFENCE waits for is done: accesses, commands and collectives of the thread. -/
def fenceOver (s : State) (c t item : Nat) : Bool :=
  !t4Busy s c t item && !(liveCmds s).any (byThread c t item) && !colBusy s c t item

/-- Is what a waiting thread waits for done (09 Table 9.3, 11 R210, 15 R283)? TFENCE gives up the tick (R173): its
thread goes on in a later window. -/
def waitOver (s : State) (c t : Nat) (h : Thread) : Bool :=
  match h.wait with
  | .mfence => !t4Busy s c t h.item
  | .dwait => !(liveCmds s).any (byThread c t h.item)
  | .cwait => !colBusy s c t h.item
  | _ => false

/-- Does a thread number of a cluster hold a thread of this item? -/
def isOn (s : State) (c t item : Nat) : Bool := ofItem (thrAt s c t) item

/-- Change a thread named by where it last ran: on its cluster, or in the image that a save made of it. -/
def modAny (s : State) (c t item : Nat) (f : Thread → Thread) : State :=
  if isOn s c t item then modThr s c t f
  else
    { s with seq := s.seq.map fun q => { q with items := q.items.map fun i =>
        if i.num = item then
          { i with saves := i.saves.map fun m =>
              if m.cluster = c then
                { m with threads := m.threads.map fun p => if p.1 = t then (p.1, f p.2) else p }
              else m }
        else i } }

/-- A thread no longer waits; a saved one is ready once it is restored. -/
def unwait (h : Thread) : Thread :=
  { h with state := if h.state == .waiting then .ready else h.state, wait := .none }

/-- Let a thread go on that waits for its commands, requests or collectives, once they are done. -/
def wake (s : State) (c t item : Nat) : State :=
  let h := thrAt s c t
  if isOn s c t item && h.state == .waiting && waitOver s c t h then ready s c t else s

/-- Wake the thread that issued a command. -/
def wakeIssuer (s : State) : Issuer → State
  | .thread c t item => wake s c t item
  | .host => s

/-- Bytes of a 16-byte completion record (R214). -/
def cplBytes (status faults done poisoned tag : Nat) : List Byte :=
  record 16 [(0, 2, status), (2, 2, min 65535 faults), (4, 4, done), (8, 4, poisoned), (12, 4, tag)]

/-- Bytes of a 32-byte codec completion record (17 Table 17.6). -/
def codCplBytes (c : DmaCmd) (status flags nbits budget order : Nat) : List Byte :=
  record 32 [(0, 2, status), (2, 2, flags), (4, 4, nbits), (8, 8, cmdN c 0x28 8), (0x10, 4, budget), (0x14, 4, order),
    (0x18, 4, cmdTag c)]

/-- A command has left its queue: its record is written where FLAGS[0] asks for it, MSI-X vector e is raised for a
host-issued command with FLAGS[1], the counter and the trace record follow, and its issuer may go on. -/
def finishCmd (s : State) (e : Nat) (c : DmaCmd) (status : Nat) (rec16 : List Byte) : State :=
  let s1 := if bitOn (cmdFlags c) 0 then devPut s (.gva (BitVec.ofNat 64 (cmdCpl c))) rec16 else s
  let s2 := if bitOn (cmdFlags c) 1 && c.issuer == .host then msix s1 e else s1
  let s3 := ctrAdd s2 (ctrEngine e 0) 1
  let s4 := trace s3 5 (cmdSeq c) (whereOf 1 e)
    (leBytes 1 (cmdOp c) ++ leBytes 2 status ++ leBytes 4 c.done ++ leBytes 4 (cmdTag c))
  wakeIssuer s4 c.issuer

/-- The source range of a weights-class COPY, where a command is one (12 R237). -/
def weightCopy (c : DmaCmd) : Option (Nat × Nat) :=
  if cmdOp c = 0x10 ∧ cmdClass c = 0 then some (gLocal (BitVec.ofNat 64 (cmdN c 8 8)), cmdN c 0x18 4) else none

/-- A weights-class COPY that reports poison, with whatever status, marks the yealms and its work item (12 R237, R238). -/
def poisonReport (c : DmaCmd) (s : State) : State :=
  match weightCopy c with
  | some (va, n) =>
    if c.poisoned = 0 then s
    else
      let s1 := copyPoisoned s va n
      match c.issuer with
      | .thread _ _ item => spoil item s1
      | .host => s1
  | none => s

/-- Complete a command with a status and its own counts. A codec command's record has 32 bytes. -/
def complete (s : State) (e : Nat) (c : DmaCmd) (status : Nat) : State :=
  finishCmd (poisonReport c s) e c status
    (if cmdIsCodec c then codCplBytes c status 0 0 0 0 else cplBytes status c.faults c.done c.poisoned (cmdTag c))

/-- Statuses of R214. -/
def stOK : Nat := 0
def stABORTED : Nat := 1
def stOVERFLOW : Nat := 2
def stCLASS : Nat := 3
def stINVALID : Nat := 4
def stHOSTERR : Nat := 5
def stREFUSED : Nat := 6
def stLATE : Nat := 7

/-- Take a fault out of the ring: its entry is free again. -/
def dropFault (s : State) (tag : BitVec 32) : State :=
  { s with xlt := { s.xlt with faults := s.xlt.faults.filter (·.tag != tag) } }

/-! ### Termination (09 R174, R175) -/

/-- The first cause of a termination, as the fault record holds it (09 Table 9.8). -/
structure FaultCause where
  block   : Nat
  num     : Nat
  cluster : Nat
  rank    : Nat
  pc      : Word64
  pidx    : Nat
  code    : Nat
  place   : Nat
deriving DecidableEq, Repr

/-- The fault record (Table 9.8). -/
def causeBytes (x : FaultCause) (tick : Nat) : List Byte :=
  record 64 [(0, 1, x.block), (2, 2, x.num), (4, 2, x.cluster), (6, 1, x.rank), (8, 8, x.pc.toNat), (0x10, 2, x.pidx),
    (0x12, 2, x.code), (0x18, 8, x.place), (0x20, 8, tick % 2 ^ 48)]

/-- Has a command begun: a piece of it is complete, or it has met a fault? -/
def cmdBegun (c : DmaCmd) : Bool := c.parts != 0 || c.within != 0 || c.faults != 0

/-- A fault has met 4 parked commands, and none of them has resumed (R217). -/
def engStalled (g : EngSt) : Bool := decide (4 < g.parked.length)

/-- Placed work of a sequence that is not finished, or waits for free threads (09 R164). -/
def hasWork (q : SeqSlot) : Bool := q.items.any fun i => i.placedTick && (i.phase == .placed || i.phase == .running || i.short)

/-- Charge a sequence for time of its domain's window since an instant, where its own work does not already hold that time
(02 R31). -/
def chargeSince (s : State) (slot since : Nat) : State :=
  let q := seqAt s slot
  if 32 ≤ slot || q.state == .free || hasWork q || (domAt s q.domain).phase != .window then s
  else modSeq s slot fun q => { q with chargedNs := q.chargedNs + (s.time - max since (domAt s q.domain).windowStart) }

/-- A parked command leaves: the stall of its engine, where it ends, is charged to the sequence of the oldest parked command
(R217). `oldest` is that sequence. -/
def stallEnd (s : State) (e oldest : Nat) : State :=
  match (engAt s e).stallAt with
  | none => s
  | some t =>
    if engStalled (engAt s e) then s else modEng (chargeSince s oldest t) e fun g => { g with stallAt := none }

/-- Sequence of the oldest parked command of an engine. -/
def oldestSeq (s : State) (e : Nat) : Nat := ((engAt s e).parked.head?).elim 255 fun p => cmdSeq p.2

/-- Take an item's commands off one engine: those not begun and those parked end with status ABORTED (R174, R220). -/
def abortOnEngine (num : Nat) (s : State) (e : Nat) : State :=
  let g := engAt s e
  let out := g.thrQ.filter fun c => byItem num c && !cmdBegun c
  let parked := g.parked.filter fun p => byItem num p.2
  let s0 := modEng s e fun g => { g with
    thrQ := g.thrQ.filter fun c => !byItem num c || cmdBegun c
    parked := g.parked.filter fun p => !byItem num p.2 }
  let s1 := stallEnd s0 e (oldestSeq s e)
  let s2 := each (parked.map (·.1)) dropFault s1
  each (parked.map (·.2) ++ out) (fun s c => complete s e c stABORTED) s2

/-- Discard an item's codec commands that have not begun. -/
def abortOnCtx (num : Nat) (s : State) (x : Nat) : State :=
  let gone := (ctxAt s x).queue.filter fun p => !p.begun && byItem num p.cmd
  let shut := (ctxAt s x).closing.filter fun p => byItem num p.2
  let s1 := modCtx s x fun k => { k with
    queue := k.queue.filter fun p => p.begun || !byItem num p.cmd
    closing := k.closing.filter fun p => !byItem num p.2 }
  let s2 := each gone (fun s p => complete s p.eng p.cmd stABORTED) s1
  each shut.toList (fun s p => complete s p.1 p.2 stABORTED) s2

/-- A collective's completion record (15 Table 15.3). -/
def colBytes (x : Collective) (status : Nat) (holes : List Nat) : List Byte :=
  record 32 ([(0, 2, status), (2, 2, min 65535 x.retries),
    (4, 2, x.rescaled.toNat + 2 * x.inexact.toNat + 4 * x.ovf.toNat + 8 * x.poisoned.toNat + 16 * x.dropped.toNat),
    (6, 2, holes.length), (8, 4, x.desc.cid.toNat)]
    ++ ((List.range 8).zip holes).map fun h => (0x10 + 2 * h.1, 2, h.2))

/-- A collective ends locally: its record, its trace record, and its issuer may go on (15 R291-R293). -/
def colEnd (s : State) (q : Nat) (x : Collective) (status : Nat) (holes : List Nat) : State :=
  let s1 := { s with col := { s.col with
    units := s.col.units.modify q fun u => ⟨u.inProg.filter fun y => !(y.desc.cid == x.desc.cid && y.tick == x.tick)⟩
    done := (x.desc.cid, x.tick) :: s.col.done } }
  let s2 := devPut s1 (.gva (BitVec.ofNat 64 x.desc.cpl)) (colBytes x status holes)
  let flags := x.rescaled.toNat + 2 * x.inexact.toNat + 4 * x.ovf.toNat + 8 * x.poisoned.toNat + 16 * x.dropped.toNat
  let s3 := trace s2 7 x.seq (whereOf 0 (match x.issuer with
      | .thread c _ _ => c
      | .host => 36 * q))
    (leBytes 4 x.desc.cid.toNat ++ leBytes 2 status ++ leBytes 2 flags ++ leBytes 4 ((s.time - x.accepted) / 1000))
  let go (h : Thread) : Thread := if h.state == .waiting && h.wait == .cqFull q then unwait h else h
  wakeIssuer { s3 with cl := s3.cl.map fun cl => { cl with threads := cl.threads.map go } } x.issuer

/-- End an item's collectives of one unit with status ABORTED (15 R293). -/
def abortOnUnit (num : Nat) (s : State) (q : Nat) : State :=
  each ((unit s.col.units q ⟨[]⟩).inProg.filter fun x => x.item == num) (fun s x => colEnd s q x 2 []) s

/-- The requester belongs to the item: a thread of it, or a restore of it. -/
def reqOfItem (num : Nat) : Requester → Bool
  | .thread _ _ item => item == num
  | .restore _ i => i == num
  | _ => false

/-- Withdraw an item's faults and forget its requests to peers (11 R220). -/
def withdraw (s : State) (num : Nat) : State :=
  { s with xlt := { s.xlt with
    faults := s.xlt.faults.filter fun f => !reqOfItem num f.req
    t4 := s.xlt.t4.filter fun r => !(reqOfItem num r.who && r.item == num) } }

/-! ### Charged time (02 R28, R31) -/

/-- Time of a domain's compute window so far, less the domain overhead of channel maintenance (10 R195). -/
def elapsed (s : State) (d : Nat) : Nat :=
  s.time - (domAt s d).windowStart - coverNs (maintTimes s) (domAt s d).windowStart s.time

/-- Window time charged to a sequence: the window's time while the sequence has unfinished placed work, less the restores that
another sequence pays (13 R255). A checkpoint's saves fall into the window time of the sequence that they are charged to. -/
def charged (s : State) (slot : Nat) : Nat :=
  let q := seqAt s slot
  if (domAt s q.domain).phase == .window && hasWork q then elapsed s q.domain - q.exemptNs else q.chargedNs

/-- Keep what has been charged, as work of the sequence ends. -/
def noteCharge (s : State) (slot : Nat) : State := modSeq s slot fun q => { q with chargedNs := charged s slot }

/-- Terminate a work item for a cause (09 R174). `named` is false where the launch record could not be read: no fault
record is written. The sequence departs at the next admit phase. Only the first cause terminates. -/
def terminate (s : State) (slot num : Nat) (x : FaultCause) (named : Bool := true) : State :=
  match itemOf s slot num with
  | none => dropThreads s num
  | some i => if i.terminated then s else
    let s1 := suspendThreads (withdraw (noteCharge s slot) num) num
    let s2 := each (List.range 64) (abortOnEngine num) s1
    let s3 := each (List.range 128) (abortOnCtx num) s2
    let s4 := each (List.range 4) (abortOnUnit num) s3
    let s5 := if named && i.faultVa != 0 then
        devPut s4 (.gva (BitVec.ofNat 64 i.faultVa)) (causeBytes x (domAt s (seqAt s slot).domain).tickNo)
      else s4
    let s6 := modItem s5 slot num fun i => { i with terminated := true, phase := .waiting, placed := [], saves := [], kept := [] }
    let s7 := modSeq s6 slot fun q => { q with fault := true, departNext := true }
    raise (freeSuspended s7 num) bSEQ 43 (locSlot slot) slot 0

/-- The cause that a thread's own instruction gives. -/
def threadCause (c : Nat) (h : Thread) (pc : Word64) (block num code place : Nat) : FaultCause :=
  ⟨block, num, c, h.rank, pc, h.pidx, code, place⟩

/-- A fault of a thread's instruction (09 Table 9.4): the event is raised, the thread is suspended, and its work item is
terminated. `pc` is the instruction's address. -/
def threadFault (s : State) (c t : Nat) (pc : Word64) (block num : Nat) (code : Nat := 0) (place : Nat := 0) : State :=
  let h := thrAt s c t
  let s1 := raise s block num (locCluster c) h.seq 0
  terminate s1 h.seq h.item (threadCause c h pc block num code place)

/-- A fault whose event is raised already, or carries its own location (XLT, LNK). -/
def threadEnd (s : State) (c t : Nat) (pc : Word64) (block num : Nat) (place : Nat := 0) : State :=
  let h := thrAt s c t
  terminate s h.seq h.item (threadCause c h pc block num 0 place)

/-! ### Issue (09 R165-R167) -/

/-- Does thread a go before thread b: by class, then by least recent issue? -/
def goesFirst (s : State) (a b : Thread) : Bool :=
  let ka := seqClass s a.seq
  let kb := seqClass s b.seq
  ka < kb || (ka == kb && a.stamp < b.stamp)

/-- The Ready thread that the cluster issues from (R165); the lowest number on a tie. -/
def pickThread (s : State) (c : Nat) : Option Nat :=
  let cl := clAt s c
  (List.range cl.threads.length).foldl (fun best t =>
    let h := thrOf cl t
    if h.state != .ready || t4Held s c t h.item then best
    else match best with
      | none => some t
      | some b => if goesFirst s h (thrOf cl b) then some t else some b) none

/-- May the cluster issue: it belongs to a domain that is in its compute window, outside keep-alive mode (02 R20, R22, 20
R378)? -/
def mayIssue (s : State) (c : Nat) : Bool :=
  !s.pwr.keepalive && !s.boot.inReset &&
    ((clAt s c).dom.elim false fun d => (domAt s d).phase == .window && (domAt s d).running)

/-- The first translation of a fetch that is not a place. An address that names another member is translated there (R167), and
no fetch is refused here (log entry 103). -/
def fetchXl (s : State) (c : Nat) (pc : Word64) (nbytes : Nat) : Option Xl × State :=
  if gIndex pc ≠ ownIndex s then (none, s) else
  let go (s : State) (a : Nat) : Option Xl × State :=
    let r := translate s (a % 2 ^ 52) .x false (c / 36)
    match r.1 with
    | .stack _ => (none, r.2)
    | x => (some x, r.2)
  let r1 := go s (gLocal pc)
  match r1.1 with
  | some x => (some x, r1.2)
  | none =>
    if gLocal pc / 65536 = (gLocal pc + nbytes - 1) / 65536 then (none, r1.2)
    else go r1.2 (gLocal pc + nbytes - 1)

/-- A translation fault of a thread: it waits, or its item is terminated (09 Table 9.4, 11 R220, R224). -/
def threadXl (s : State) (c t : Nat) (pc : Word64) (kind va : Nat) (x : Xl) : State :=
  let h := thrAt s c t
  match x with
  | .retry level =>
    let r := faultRetry s (mkFault kind level va c h.seq (.thread c t h.item))
    match r.1 with
    | some tag => modThr (wait r.2 c t (.fault tag)) c t fun h => { h with pc := pc }
    | none => threadEnd r.2 c t pc bXLT 4 va
  | .fatal code level =>
    threadEnd (faultFatal s { mkFault kind level va c h.seq .none with code := code }) c t pc bXLT code va
  | _ => s

/-- Issue one instruction of `nbytes` from a cluster: the thread of R165 fetches at its PC with X, its PC and stamp
advance, and `body` runs with the thread's number and the instruction's address. Where no thread may issue, nothing
happens (log entry 1). -/
def issue (s : State) (c nbytes : Nat) (body : Nat → Word64 → State → State) : State :=
  if !mayIssue s c then s
  else
    match pickThread s c with
    | none => s
    | some t =>
      let s1 := modCl s c freeExited
      let pc := (thrAt s1 c t).pc
      if sliceSize s1 ≤ gIndex pc then threadFault s1 c t pc bSEQ 42 0 pc.toNat
      else
        let f := fetchXl s1 c pc nbytes
        match f.1 with
        | some x => threadXl f.2 c t pc 1 (gLocal pc) x
        | none =>
          let s2 := modCl f.2 c fun cl => { cl with
            issues := cl.issues + 1
            threads := cl.threads.modify t fun h =>
              { h with pc := pc + BitVec.ofNat 64 nbytes, stamp := cl.issues + 1 } }
          body t pc s2

/-- An issue fault of a tile, vector or detection instruction. WHERE names the byte offset of the faulting field; which
field counts as faulting is not fixed, so it is a free value (log entry 29). -/
def issueFault (s : State) (c t : Nat) (pc : Word64) (block num : Nat) : State :=
  threadFault (drew s) c t pc block num 0 (drawn s 422 % 2 ^ 64)

/-- Put a thread back at an instruction's address, to issue it again later. -/
def setPc (s : State) (c t : Nat) (pc : Word64) : State := modThr s c t fun h => { h with pc := pc }

end Sys2Proof.Machine
end

