-- ==== Sys2Proof/Machine/Operands.lean ====
section
/-! DEFINITION. Operand forms: the instruction words and the descriptors that tile and vector instructions read from the
cluster store (04 Tables 4.2 and 4.3, 05 Table 5.2, 06 Table 6.2). -/

namespace Sys2Proof.Machine

/-! ### The tile instruction word (04 Table 4.2) -/

structure TileWord where
  fmtA   : Nat
  fmtB   : Nat
  fmtC   : Nat
  ceil   : Nat
  slot   : Nat
  grp    : Nat
  amode  : Nat
  anchor : Int
  m      : Nat
  n      : Nat
  k      : Nat
  ldim   : Nat
  order  : Nat
  prob   : Nat
  blist  : Nat
  nbucket : Nat
  res    : Nat
  m0     : Nat
  n0     : Nat
  k0     : Nat
deriving DecidableEq, Repr

def tileWord (w : BitVec 248) : TileWord :=
  let x := w.toNat
  { fmtA := bits x 247 244, fmtB := bits x 243 240, fmtC := bits x 239 236, ceil := bits x 235 232,
    slot := bits x 231 229, grp := bits x 228 227, amode := bits x 226 225, anchor := signed 10 (bits x 224 215),
    m := 16 * (bits x 214 211 + 1), n := 16 * (bits x 210 207 + 1), k := 32 * (bits x 206 196 + 1),
    ldim := bits x 195 193, order := bits x 192 192, prob := bits x 191 176, blist := bits x 175 152,
    nbucket := bits x 151 149 + 1, res := bits x 148 128 + bits x 31 0,
    m0 := bits x 127 96, n0 := bits x 95 64, k0 := bits x 63 32 }

/-! ### The per-problem descriptor (04 Table 4.3) -/

/-- Base, stride, scale base and scale stride of an operand, and its gutter region. -/
structure Place where
  base  : Nat
  ld    : Nat
  sbase : Nat
  sld   : Nat
  gut   : Nat
deriving DecidableEq, Repr

structure TileDesc where
  mLen   : Nat
  nLen   : Nat
  kLen   : Nat
  anchor : Int
  padA   : Nat
  padB   : Nat
  a      : Place
  b      : Place
  c      : Place
  bad    : Bool
deriving DecidableEq, Repr

/-- No region. -/
def noRegion : Nat := 0xFFFFFFFF

def tileDesc (bs : List Byte) : TileDesc :=
  { mLen := fld bs 0 4, nLen := fld bs 4 4, kLen := fld bs 8 4, anchor := signed 10 (fld bs 0xC 2),
    padA := fld bs 0xE 2, padB := fld bs 0x10 2,
    a := ⟨fld bs 0x14 4, fld bs 0x18 4, fld bs 0x1C 4, fld bs 0x20 4, fld bs 0x44 4⟩,
    b := ⟨fld bs 0x24 4, fld bs 0x28 4, fld bs 0x2C 4, fld bs 0x30 4, fld bs 0x48 4⟩,
    c := ⟨fld bs 0x34 4, fld bs 0x38 4, fld bs 0x3C 4, fld bs 0x40 4, noRegion⟩,
    bad := !(zeroIn bs 0x12 0x14 && zeroIn bs 0x4C 0x80) }

/-! ### The precision descriptor (05 Table 5.2) -/

/-- A source copy of an operand. -/
structure SrcCopy where
  base  : Nat
  ld    : Nat
  sbase : Nat
  sld   : Nat
  fmt   : Nat
deriving DecidableEq, Repr

structure PrecDesc where
  a        : SrcCopy
  b        : SrcCopy
  resBase  : Nat
  resLd    : Nat
  resSbase : Nat
  resSld   : Nat
  satLimit : Nat
  resLimit : Nat
  trig     : Nat
deriving DecidableEq, Repr

def srcCopy (bs : List Byte) (o : Nat) : SrcCopy :=
  ⟨fld bs o 4, fld bs (o + 4) 4, fld bs (o + 8) 4, fld bs (o + 0xC) 2, fld bs (o + 0xE) 1⟩

def precDesc (bs : List Byte) : PrecDesc :=
  { a := srcCopy bs 0, b := srcCopy bs 0x10, resBase := fld bs 0x20 4, resLd := fld bs 0x24 4,
    resSbase := fld bs 0x28 4, resSld := fld bs 0x2C 2, satLimit := fld bs 0x2E 2, resLimit := fld bs 0x30 2,
    trig := fld bs 0x32 1 }

/-- The precision descriptor of a problem; none at or beyond the entry count (R81). -/
def precOf (s : State) (c : Nat) (h : Thread) (prob : Nat) : Option PrecDesc :=
  if prob < h.pdescCount then some (precDesc (csBytes s c (h.pdescBase + 64 * prob) 64)) else none

/-! ### The vector word and descriptor (06 R98, Table 6.2) -/

structure VecDesc where
  rows   : Nat
  cols   : Nat
  xBase  : Nat
  xLd    : Nat
  xSbase : Nat
  xSld   : Nat
  yBase  : Nat
  yLd    : Nat
  zBase  : Nat
  zLd    : Nat
  zSbase : Nat
  zSld   : Nat
  xFmt   : Nat
  yFmt   : Nat
  zFmt   : Nat
  mode   : Nat
  pad    : Nat
  eps    : BitVec 32
  prob   : Nat
  gutShift : Nat
  gutX   : Nat
  gutBase : Nat
  gutStep : Nat
  gutOther : Nat
  emax   : Int
  aux    : Nat
  bad    : Bool
deriving DecidableEq, Repr

def vecDesc (bs : List Byte) : VecDesc :=
  { rows := fld bs 0 4, cols := fld bs 4 4, xBase := fld bs 8 4, xLd := fld bs 0xC 4, xSbase := fld bs 0x10 4,
    xSld := fld bs 0x14 4, yBase := fld bs 0x18 4, yLd := fld bs 0x1C 4, zBase := fld bs 0x20 4, zLd := fld bs 0x24 4,
    zSbase := fld bs 0x28 4, zSld := fld bs 0x2C 4, xFmt := fld bs 0x30 1, yFmt := fld bs 0x31 1,
    zFmt := fld bs 0x32 1, mode := fld bs 0x33 1, pad := fld bs 0x34 4, eps := BitVec.ofNat 32 (fld bs 0x38 4),
    prob := fld bs 0x3C 2, gutShift := fld bs 0x3E 1, gutX := 16 * (fld bs 0x3F 1 + 1), gutBase := fld bs 0x40 4,
    gutStep := fld bs 0x44 4, gutOther := fld bs 0x48 2, emax := signed 8 (fld bs 0x4A 1), aux := fld bs 0x4C 4,
    bad := !(zeroIn bs 0x4B 0x4C && zeroIn bs 0x50 0x80) }

/-- FUNC, DESC and the reserved bits of a vector or detection word below OPC. -/
def vecFunc (w : BitVec 56) : Nat := bits w.toNat 55 48
def vecIndex (w : BitVec 56) : Nat := bits w.toNat 47 32
def vecRes (w : BitVec 56) : Nat := bits w.toNat 31 0

/-! ### The convolution word and descriptor (08 Tables 8.1 and 8.2) -/

structure ConvWord where
  fmtA   : Nat
  fmtB   : Nat
  fmtC   : Nat
  mode   : Nat
  amode  : Nat
  slot   : Nat
  order  : Nat
  anchor : Int
  m      : Nat
  n      : Nat
  k      : Nat
  prob   : Nat
  res    : Nat
deriving DecidableEq, Repr

def convWord (w : BitVec 248) : ConvWord :=
  let x := w.toNat
  { fmtA := bits x 247 244, fmtB := bits x 243 240, fmtC := bits x 239 236, mode := bits x 235 234,
    amode := bits x 233 232, slot := bits x 231 229, order := bits x 228 228, anchor := signed 10 (bits x 227 218),
    m := 16 * (bits x 217 214 + 1), n := 16 * (bits x 213 210 + 1), k := 32 * (bits x 209 199 + 1),
    prob := bits x 198 183, res := bits x 182 0 }

/-- Three values along (t, h, w). -/
structure Axes where
  t : Nat
  h : Nat
  w : Nat
deriving DecidableEq, Repr

/-- A channel-last map in the store: payload and scale bases, and row and frame strides of both. -/
structure MapPlace where
  base   : Nat
  sbase  : Nat
  row    : Nat
  frame  : Nat
  srow   : Nat
  sframe : Nat
deriving DecidableEq, Repr

structure ConvDesc where
  inp    : Axes
  cIn    : Nat
  cOut   : Nat
  pad    : Nat
  out    : Axes
  t0     : Nat
  kern   : Axes
  stride : Axes
  dil    : Axes
  lead   : Axes
  flog   : Axes
  anchor : Int
  x      : MapPlace
  w      : Place
  y      : MapPlace
  spec   : Nat
  work   : Nat
  tile0  : Nat
  ntiles : Nat
  bad    : Bool
deriving DecidableEq, Repr

def axes3 (bs : List Byte) (o : Nat) : Axes := ⟨fld bs o 1, fld bs (o + 1) 1, fld bs (o + 2) 1⟩

def convDesc (bs : List Byte) : ConvDesc :=
  { inp := ⟨fld bs 8 2, fld bs 0 4, fld bs 4 4⟩, cIn := fld bs 0xA 2, cOut := fld bs 0xC 2, pad := fld bs 0xE 2,
    out := ⟨fld bs 0x1A 2, fld bs 0x10 4, fld bs 0x14 4⟩, t0 := fld bs 0x18 2, kern := axes3 bs 0x1C,
    stride := axes3 bs 0x20, dil := axes3 bs 0x24, lead := axes3 bs 0x28, flog := axes3 bs 0x2C,
    anchor := signed 10 (fld bs 0x30 2),
    x := ⟨fld bs 0x34 4, fld bs 0x38 4, fld bs 0x3C 4, fld bs 0x40 4, fld bs 0x44 4, fld bs 0x48 4⟩,
    w := ⟨fld bs 0x4C 4, fld bs 0x54 4, fld bs 0x50 4, fld bs 0x58 4, noRegion⟩,
    y := ⟨fld bs 0x5C 4, fld bs 0x60 4, fld bs 0x64 4, fld bs 0x68 4, fld bs 0x6C 4, fld bs 0x70 4⟩,
    spec := fld bs 0x74 4, work := fld bs 0x78 4, tile0 := fld bs 0x7C 2, ntiles := fld bs 0x7E 2,
    bad := !(zeroIn bs 0x1F 0x20 && zeroIn bs 0x23 0x24 && zeroIn bs 0x27 0x28 && zeroIn bs 0x2B 0x2C
      && zeroIn bs 0x2F 0x30 && zeroIn bs 0x32 0x34) }

/-! ### Regions of the cluster store (04 R61) -/

/-- Offset of element position n in a row of a format, in bytes. -/
def fmtOff (f n : Nat) : Nat :=
  if f ≤ 4 then n / 32 * payBytes f else if f = 5 then 2 * n else if f = 7 then 16 * n else 4 * n

/-- Bytes that n element positions of a row take. -/
def fmtLen (f n : Nat) : Nat :=
  if f ≤ 4 then cdiv n 32 * payBytes f else if f = 5 then 2 * n else if f = 7 then 16 * n else 4 * n

/-- A region [lo, hi): rows of `len` bytes at a stride. Empty where there are no rows or no bytes. -/
def region (base ld rows len : Nat) : Nat × Nat :=
  if rows = 0 ∨ len = 0 then (0, 0) else (base, base + (rows - 1) * ld + len)

def regionIn (r : Nat × Nat) : Bool := r.2 ≤ csSize
def regionsMeet (a b : Nat × Nat) : Bool := a.1 < b.2 && b.1 < a.2

/-- Bytes of a gutter region (05 R78). -/
def gutSize (x : Nat) : Nat := 64 + 8 * x + 8 * cdiv x 32

/-! ### Curves (04 R65, 06 R103) -/

/-- The loop of R65 from a side s, for `fuel` doublings. -/
def hilbertLoop : Nat → Nat → Nat → Nat → Nat → Nat × Nat
  | 0, _, _, m, n => (m, n)
  | fuel + 1, s, d, m, n =>
    let rm := d / 2 % 2
    let rn := (d ^^^ rm) % 2
    let (m, n) :=
      if rn = 0 then
        let (m, n) := if rm = 1 then (s - 1 - m, s - 1 - n) else (m, n)
        (n, m)
      else (m, n)
    hilbertLoop fuel (2 * s) (d / 4) (m + s * rm) (n + s * rn)

/-- The Hilbert cell of index d in a 2^k square. -/
def hilbertCell (d k : Nat) : Nat × Nat := hilbertLoop k 1 d 0 0

/-- The Morton cell: n from even bits, m from odd bits. -/
def mortonCell (d k : Nat) : Nat × Nat :=
  (List.range k).foldl (fun mn j => (mn.1 + bits d (2 * j + 1) (2 * j + 1) * 2 ^ j, mn.2 + bits d (2 * j) (2 * j) * 2 ^ j))
    (0, 0)

/-- The cell of a curve: order 0 Hilbert, 1 Morton. -/
def curveCell (order d k : Nat) : Nat × Nat := if order = 0 then hilbertCell d k else mortonCell d k

/-- The order of gutter regions, as (tile, step) pairs (06 R103): mode 0 row-tile-major, 1 Hilbert, 2 Morton. -/
def regionOrder (mode role gt gs gother : Nat) : List (Nat × Nat) :=
  if mode % 4 = 0 then (List.range gt).flatMap fun t => (List.range gs).map fun x => (t, x)
  else
    let k := clog2 (max gt gother)
    let tiles := (List.range (4 ^ k)).foldl (fun (seen : List Nat) d =>
      let mn := curveCell (mode % 4 - 1) d k
      let (t, o) := if role = 0 then mn else (mn.2, mn.1)
      if t < gt ∧ o < gother ∧ !seen.contains t then seen ++ [t] else seen) []
    tiles.flatMap fun t => (List.range gs).map fun x => (t, x)

/-- The number of a (tile, step) region in an order. -/
def regionIndex (l : List (Nat × Nat)) (t x : Nat) : Nat := l.findIdx (· == (t, x))

end Sys2Proof.Machine
end

