-- ==== Sys2Proof/Machine/Panels.lean ====
section
/-! DEFINITION. What the array reads: operand panels in their compiled format or widened from a source copy (04 R59,
R71-R73, R77; 05 R79, R83), gutter regions (R78), and the scale terms of a scale-derived anchor (03 R48). -/

namespace Sys2Proof.Machine

/-- An operand of a tile instruction: compiled format, place, actual length along the tile, padding, tile extent, and
its source copy where it may widen (R81, R83). -/
structure Opnd where
  fmt  : Nat
  at_  : Place
  len  : Nat
  pad  : Nat
  x    : Nat
  src  : Option SrcCopy
deriving DecidableEq, Repr

/-! ### Gutter regions (05 R78, R79) -/

/-- COUNT of a region; a value above 8 is read as 8. Of an uncorrectable error in bytes that belong to no block (COUNT,
OVERFLOW and KIDX of a region, a descriptor, a bucket list) R77 states no effect: the stored bytes are used (DESIGN CHOICE,
log entry 98). -/
def gutCount (s : State) (c region : Nat) : Nat := min 8 (csByte s c region).toNat

/-- OVERFLOW of a region. -/
def gutOver (s : State) (c region : Nat) : Bool := (csByte s c (region + 1)).getLsbD 0

/-- KIDX[j]. -/
def gutKidx (s : State) (c region j : Nat) : Nat := ofLE (csBytes s c (region + 8 + 4 * j) 4)

/-- The lowest entry that covers a K position. -/
def gutEntry (s : State) (c region k : Nat) : Option Nat :=
  (List.range (gutCount s c region)).find? fun j => gutKidx s c region j == k

/-- GSE of entry j at block b of a region whose tile has X positions; 0xFF where a sector of the block is poisoned. -/
def gutScale (s : State) (c region X j b : Nat) : Nat :=
  let gse := region + 0x40 + 8 * X + j * cdiv X 32 + b
  if csBad s c gse || csBadRange s c (region + 0x40 + j * X + 32 * b) (min 32 (X - 32 * b)) then 255
  else (csByte s c gse).toNat

/-- The V8 value of entry j at tile position x. An entry that itself holds the V8 marker code 0x80 reads as 0 and raises
nothing (R36 does not say what it decodes as: DESIGN CHOICE, log entry 93). -/
def gutVal (s : State) (c region X j x : Nat) : Val :=
  elemVal 4 (csByte s c (region + 0x40 + j * X + x)).toNat (gutScale s c region X j (x / 32))

/-! ### Blocks and rows -/

/-- Bytes that the first n elements of a row touch. -/
def elemEnd (f n : Nat) : Nat := if f ≤ 4 then cdiv (n * elemBits f) 8 else fmtLen f n

/-- The BSE of block b of a row: 127 where no part of the block is read, 0xFF where a sector that it is read from is
poisoned (R71, R72, R77). -/
def blockBse (s : State) (c f : Nat) (p : Place) (row b kLen : Nat) (read : Bool) : Nat :=
  let pay := p.base + row * p.ld + b * payBytes f
  let sc := p.sbase + row * p.sld + b
  if !read then 127
  else if csBadRange s c pay (elemEnd f (min 32 (kLen - 32 * b))) || csBad s c sc then 255
  else (csByte s c sc).toNat

/-- One block's 32 elements. `cover k` is the value of the gutter entry that covers position k. -/
def blockElems (s : State) (c f : Nat) (p : Place) (row b : Nat) (inRow : Bool) (kLen : Nat) (pad : Nat → Val)
    (cover : Nat → Option Val) : List Elem :=
  let read := inRow && decide (32 * b < kLen)
  let bse := blockBse s c f p row b kLen read
  let pay := csBytes s c (p.base + row * p.ld + b * payBytes f) (payBytes f)
  (List.range 32).map fun i =>
    let k := 32 * b + i
    if read && decide (k < kLen) then
      let code := elemCode f pay i
      if bse = 255 then ⟨none, false⟩
      else if code = marker f then
        match cover k with
        | some v => ⟨v, false⟩
        | none => ⟨some Dy.zero, true⟩
      else ⟨elemVal f code bse, false⟩
    else ⟨if bse = 255 then none else pad bse, false⟩

/-- A BF16 element in a store. -/
def bf16At (s : State) (c a : Nat) : Val :=
  if csBad s c a then none else ofBf16 (BitVec.ofNat 16 (ofLE (csBytes s c a 2)))

/-- The elements of one row over K positions k0 .. k0 + ks - 1. -/
def rowElems (s : State) (c f : Nat) (p : Place) (row len kLen : Nat) (pad : Nat → Val) (cover : Nat → Option Val)
    (k0 ks : Nat) : List Elem :=
  if f = 5 then
    (List.range ks).map fun i =>
      let k := k0 + i
      if row < len ∧ k < kLen then ⟨bf16At s c (p.base + row * p.ld + 2 * k), false⟩ else ⟨pad 127, false⟩
  else
    (List.range (ks / 32)).flatMap fun j => blockElems s c f p row (k0 / 32 + j) (row < len) kLen pad cover

/-- Padding of a compiled operand (R72). -/
def padValue (f pad bse : Nat) : Val :=
  if f = 5 then ofBf16 (BitVec.ofNat 16 pad) else elemVal f (pad % 2 ^ elemBits f) bse

/-- Padding of a widened operand. A zero code stays zero; what another code becomes in a wider format is not stated, so
its unscaled value is the free value `free` (log entry 31). -/
def padWide (f pad : Nat) (free : Val) (newFmt bse : Nat) : Val :=
  if elemUnits f (pad % 2 ^ elemBits f) = 0 then some Dy.zero
  else free.map fun v => if newFmt = 5 then v else v.scale ((bse : Int) - 127)

/-- The place of a source copy. -/
def srcPlace (r : SrcCopy) : Place := ⟨r.base, r.ld, r.sbase, r.sld, noRegion⟩

/-- One row of a widened operand: requantised from its source copy under R37 and R38 (R83), without gutter or markers.
The count is of the elements that saturated; the BSE list is of the blocks that were read. -/
def wideRow (s : State) (c : Nat) (o : Opnd) (r : SrcCopy) (newFmt row kLen : Nat) (free : Val) (k0 ks : Nat) :
    List Elem × List Nat × Nat :=
  let srcEls := rowElems s c r.fmt (srcPlace r) row o.len kLen (fun _ => some Dy.zero) (fun _ => none) k0 ks
  let inside (i : Nat) : Bool := decide (row < o.len) && decide (k0 + i < kLen)
  if newFmt = 5 then
    (((List.range ks).zip srcEls).map fun e =>
      if inside e.1 then ⟨e.2.v.bind fun v => ofBf16 (toBf16 (some v)), e.2.bare⟩ else ⟨padWide o.fmt o.pad free 5 127, false⟩,
      [], 0)
  else
    (List.range (ks / 32)).foldl (fun acc j =>
      let els := (srcEls.drop (32 * j)).take 32
      let read := inside (32 * j)
      let b := encPlain newFmt (els.map (·.v))
      let bse := if read then b.bse else 127
      let out := ((List.range 32).zip (els.zip b.codes)).map fun e =>
        if inside (32 * j + e.1) then (⟨elemVal newFmt e.2.2 bse, e.2.1.bare⟩ : Elem)
        else ⟨if bse = 255 then none else padWide o.fmt o.pad free newFmt bse, false⟩
      (acc.1 ++ out, (if read then acc.2.1 ++ [bse] else acc.2.1), acc.2.2 + (b.sat.filter id).length)) ([], [], 0)

/-- BSEs of the blocks that a compiled row reads. -/
def rowBses (s : State) (c f : Nat) (p : Place) (row len kLen k0 ks : Nat) : List Nat :=
  if f = 5 ∨ len ≤ row then []
  else (List.range (ks / 32)).filterMap fun j =>
    if 32 * (k0 / 32 + j) < kLen then some (blockBse s c f p row (k0 / 32 + j) kLen true) else none

/-- A BSE's term of the scale-derived anchor; a poisoned block gives its 255 (R48). -/
def anchorTerm (f bse : Nat) : Int := (bse : Int) - 127 + granule f

/-- Gutter terms of a step: the blocks of entries that lie in the step and within the lengths. -/
def gutTerms (s : State) (c region X : Nat) (o : Opnd) (x0 kLen k0 ks : Nat) : List Int :=
  (List.range (gutCount s c region)).flatMap fun j =>
    let k := gutKidx s c region j
    if k0 ≤ k ∧ k < k0 + ks ∧ k < kLen then
      (List.range (cdiv X 32)).filterMap fun b =>
        if x0 + 32 * b < o.len then some (anchorTerm 4 (gutScale s c region X j b)) else none
    else []

/-- The terms that a step of one operand gives to the scale-derived anchor, at its compiled format. -/
def stepTerms (s : State) (c : Nat) (o : Opnd) (gut : Option Nat) (x0 kLen k0 ks : Nat) : List Int :=
  ((List.range o.x).flatMap fun x =>
      (rowBses s c o.fmt o.at_ (x0 + x) o.len kLen k0 ks).map (anchorTerm o.fmt))
    ++ gut.elim [] fun g => gutTerms s c g o.x o x0 kLen k0 ks

/-- The panel of an operand in one step: at its compiled format with its gutter, or widened to `newFmt`. -/
def panel (s : State) (c : Nat) (o : Opnd) (wide : Bool) (newFmt : Nat) (gut : Option Nat) (x0 kLen k0 ks : Nat)
    (free : Val) : Panel :=
  match wide, o.src with
  | true, some r =>
    let rows := (List.range o.x).map fun x => wideRow s c o r newFmt (x0 + x) kLen free k0 ks
    ⟨rows.map (·.1), rows.flatMap fun q => q.2.1.map (anchorTerm newFmt),
      rows.foldl (fun n q => n + q.2.2) 0⟩
  | _, _ =>
    let cover (x k : Nat) : Option Val := gut.bind fun g => (gutEntry s c g k).map fun j => gutVal s c g o.x j x
    ⟨(List.range o.x).map fun x =>
        rowElems s c o.fmt o.at_ (x0 + x) o.len kLen (padValue o.fmt o.pad) (cover x) k0 ks,
      stepTerms s c o gut x0 kLen k0 ks, 0⟩

/-! ### Sectors that a step reads (R71, R76, R77) -/

/-- Ranges of one row that hold elements within the lengths: their payload bytes, and the scale bytes of a block format
(R71). -/
def rowRanges (f : Nat) (p : Place) (row len kLen k0 ks : Nat) : List (Nat × Nat) :=
  let hi := min kLen (k0 + ks)
  if len ≤ row ∨ hi ≤ k0 then []
  else
    let lo := fmtOff f k0
    (p.base + row * p.ld + lo, elemEnd f hi - lo)
      :: (if f ≤ 4 then [(p.sbase + row * p.sld + k0 / 32, cdiv hi 32 - k0 / 32)] else [])

/-- Ranges that a panel reads. -/
def panelRanges (o : Opnd) (wide : Bool) (x0 kLen k0 ks : Nat) : List (Nat × Nat) :=
  match wide, o.src with
  | true, some r => (List.range o.x).flatMap fun x => rowRanges r.fmt (srcPlace r) (x0 + x) o.len kLen k0 ks
  | _, _ => (List.range o.x).flatMap fun x => rowRanges o.fmt o.at_ (x0 + x) o.len kLen k0 ks

/-- An engine reads each sector of some ranges once. -/
def touchAll (s : State) (blk c seq : Nat) (ranges : List (Nat × Nat)) : State :=
  each (ranges.flatMap fun r => (chunks r.1 r.2).map fun x => x.1 / 32 * 32).eraseDups (fun s a => csTouch s blk c seq a) s

end Sys2Proof.Machine
end

