-- ==== Sys2Proof/Machine/TileChecks.lean ====
section
/-! DEFINITION. The issue checks of the tile instructions (04 R61, R62, R68, R70): bucket choice, regions, slots, and
what may widen (05 R81). -/

namespace Sys2Proof.Machine

/-- Array cycles of k positions at a format's rate (Table 4.1). -/
def kCycles (f k : Nat) : Nat := if f = 0 then k / 2 else if f ≤ 2 then k else if f ≤ 4 then 2 * k else 4 * k

/-- Array cycles of a step: the slower of the two formats sets the rate (R55, R56). -/
def stepCycles (fa fb k : Nat) : Nat := max (kCycles fa k) (kCycles fb k)

/-- A tile instruction with its descriptors, as issued. -/
structure TileJob where
  grid : Bool
  prob : Nat
  w    : TileWord
  d    : TileDesc
  p    : Option PrecDesc
  /-- Extents: the chosen bucket's for a TGRID, the tile's for a TMM. -/
  mExt : Nat
  nExt : Nat
  kExt : Nat
deriving DecidableEq, Repr

def TileJob.gm (j : TileJob) : Nat := if j.grid then cdiv j.mExt j.w.m else 1
def TileJob.gn (j : TileJob) : Nat := if j.grid then cdiv j.nExt j.w.n else 1
def TileJob.gk (j : TileJob) : Nat := if j.grid then cdiv j.kExt j.w.k else 1

/-- A dimension is a length dimension. -/
def TileWord.isLen (w : TileWord) (dim : Nat) : Bool := bitOn w.ldim dim

/-- A padding code that equals its operand's marker. -/
def padIsMarker (f pad : Nat) : Bool := f ≤ 4 && pad % 2 ^ elemBits f == marker f

/-- A base or a stride of a place is misaligned. R58 and the bad_fields of R61 want every stride a multiple of 32; the worked
example of the chapter has C_SLD = 8, which faults here with MXE.002 (DESIGN CHOICE, log entry 97). -/
def placeBad (p : Place) : Bool := p.base % 32 != 0 || p.ld % 32 != 0 || p.sbase % 32 != 0 || p.sld % 32 != 0

/-- bad_fields of R61. -/
def tileBad (j : TileJob) : Bool :=
  let w := j.w
  let d := j.d
  5 < w.fmtA || 5 < w.fmtB || 7 < w.fmtC || 5 < w.ceil || w.ceil < w.fmtA || w.ceil < w.fmtB || w.amode == 3
    || padIsMarker w.fmtA d.padA || padIsMarker w.fmtB d.padB
    || placeBad d.a || placeBad d.b || placeBad d.c
    || w.m0 % 16 != 0 || w.n0 % 16 != 0 || w.k0 % 32 != 0
    || (if j.grid then w.slot % 2 != 0 || w.grp != 0 || w.blist % 32 != 0 || w.m0 != 0 || w.n0 != 0 || w.k0 != 0
        else w.order != 0 || w.blist != 0 || w.nbucket != 1)
    || w.res != 0 || d.bad

/-- The bucket entries of a TGRID: M_EXT, N_EXT, K_EXT. -/
def buckets (s : State) (c : Nat) (w : TileWord) : List (Nat × Nat × Nat) :=
  (List.range w.nbucket).map fun i =>
    let bs := csBytes s c (w.blist + 16 * i) 16
    (fld bs 0 4, fld bs 4 4, fld bs 8 4)

/-- Does an extent cover an actual length, where the dimension is a picture-size one? -/
def bucketFits (w : TileWord) (d : TileDesc) (e : Nat × Nat × Nat) : Bool :=
  (w.isLen 0 || d.mLen ≤ e.1) && (w.isLen 1 || d.nLen ≤ e.2.1) && (w.isLen 2 || d.kLen ≤ e.2.2)

/-- The entry of R68: the least product among those that fit, the lowest index on a tie. -/
def chooseBucket (w : TileWord) (d : TileDesc) (l : List (Nat × Nat × Nat)) : Option (Nat × Nat × Nat) :=
  (l.filter (bucketFits w d)).foldl (fun best e =>
    match best with
    | none => some e
    | some b => if e.1 * e.2.1 * e.2.2 < b.1 * b.2.1 * b.2.2 then some e else some b) none

/-- An actual length above the bucket's extent in a length dimension (MXE.021). -/
def bucketShort (w : TileWord) (d : TileDesc) (e : Nat × Nat × Nat) : Bool :=
  (w.isLen 0 && e.1 < d.mLen) || (w.isLen 1 && e.2.1 < d.nLen) || (w.isLen 2 && e.2.2 < d.kLen)

/-- Payload and scale regions of an operand over its rows and positions along the blocks' dimension. -/
def operandRegions (f : Nat) (p : Place) (r0 rows k0 n : Nat) : List (Nat × Nat) :=
  region (p.base + r0 * p.ld + fmtOff f k0) p.ld rows (fmtLen f (k0 + n) - fmtOff f k0)
    :: (if f ≤ 4 then [region (p.sbase + r0 * p.sld + k0 / 32) p.sld rows (cdiv (k0 + n) 32 - k0 / 32)] else [])

/-- A gutter region list of an operand. -/
def gutRegions (gut x count : Nat) : List (Nat × Nat) := if gut = noRegion then [] else [region gut 0 1 (count * gutSize x)]

/-- Input regions: A, B and the gutters. -/
def TileJob.inputs (j : TileJob) : List (Nat × Nat) :=
  operandRegions j.w.fmtA j.d.a j.w.m0 j.mExt j.w.k0 j.kExt
    ++ operandRegions j.w.fmtB j.d.b j.w.n0 j.nExt j.w.k0 j.kExt
    ++ gutRegions j.d.a.gut j.w.m (j.gm * j.gk) ++ gutRegions j.d.b.gut j.w.n (j.gn * j.gk)

/-- Output regions: C, and its scales or anchors. -/
def TileJob.outputs (j : TileJob) : List (Nat × Nat) :=
  operandRegions j.w.fmtC j.d.c j.w.m0 j.mExt j.w.n0 j.nExt
    ++ (if j.w.fmtC = 7 then [region j.d.c.sbase 0 1 (2 * (j.gm * j.gn))] else [])

/-- The slot numbers an instruction uses. -/
def TileJob.slots (j : TileJob) : List Nat := if j.grid then [j.w.slot, j.w.slot + 1] else [j.w.slot]

/-- It opens its slots. -/
def TileJob.opens (j : TileJob) : Bool := j.grid || j.w.grp == 0 || j.w.grp == 3

/-- The physical slot that a work item names by a number (R62). -/
def physSlot (cl : ClusterSt) (item n : Nat) : Option Nat := cl.slots.findIdx? (·.owner == some (item, n))

/-- slot_checks of R61 for one slot number. -/
def slotCheck (cl : ClusterSt) (h : Thread) (acc : Nat) (j : TileJob) (n : Nat) : Option Nat :=
  if 3 < n ∨ acc ≤ n then some 10
  else
    match physSlot cl h.item n with
    | none => some 10
    | some i =>
      match j.opens, (unit cl.slots i AccSlot.reset).group with
      | true, some _ => some 11
      | true, none => none
      | false, none => some 12
      | false, some g =>
        if g.rank ≠ h.rank ∨ g.m = 0 then some 13
        else if g.m ≠ j.w.m ∨ g.n ≠ j.w.n then some 14
        else none

/-- Contributions already counted in the group that the instruction continues. -/
def groupCount (cl : ClusterSt) (h : Thread) (j : TileJob) : Nat :=
  if j.opens then 0
  else ((physSlot cl h.item j.w.slot).bind fun i => (unit cl.slots i AccSlot.reset).group).elim 0 (·.count)

/-- The checks after the extents are known: regions, overlaps, slots, anchor mode, count. -/
def tileLate (s : State) (c : Nat) (h : Thread) (acc : Nat) (j : TileJob) : Option Nat :=
  let cl := clAt s c
  if !(j.inputs ++ j.outputs).all regionIn then some 4
  else if j.outputs.any (fun o =>
      ((h.tdescBase, h.tdescBase + 128 * h.tdescCount) :: j.inputs).any (regionsMeet o)) then some 5
  else
    match j.slots.findSome? (slotCheck cl h acc j) with
    | some e => some e
    | none =>
      if j.w.amode = 1 ∧ (j.w.fmtA = 5 ∨ j.w.fmtB = 5) then some 16
      else if 2 ^ 29 < groupCount cl h j + j.gk * j.w.k then some 15
      else none

/-- issue_checks of R61: the instruction with its extents, or the number of the MXE fault. A bucket list that reaches beyond
the store faults with MXE.004 before a bucket is chosen; a descriptor entry that lies beyond it is checked by nothing, and
its bytes read as the store's unlisted ones (neither is stated: DESIGN CHOICE, log entry 96). -/
def tileChecks (s : State) (c : Nat) (h : Thread) (acc : Nat) (grid : Bool) (w : TileWord) : Nat ⊕ TileJob :=
  let prob := if w.prob = 0xFFFF then h.pidx else w.prob
  if h.tdescCount ≤ prob then .inl 1
  else
    let d := tileDesc (csBytes s c (h.tdescBase + 128 * prob) 128)
    let j : TileJob := ⟨grid, prob, w, d, precOf s c h prob, w.m, w.n, w.k⟩
    if tileBad j then .inl 2
    else if 65536 < max (stepCycles w.fmtA w.fmtB w.k) (kCycles w.ceil w.k) then .inl 3
    else if !grid then
      match tileLate s c h acc j with
      | some e => .inl e
      | none => .inr j
    else if csSize < w.blist + 16 * w.nbucket then .inl 4
    else
      match chooseBucket w d (buckets s c w) with
      | none => .inl 20
      | some e =>
        if bucketShort w d e then .inl 21
        else
          let j := { j with mExt := e.1, nExt := e.2.1, kExt := e.2.2 }
          match tileLate s c h acc j with
          | some e => .inl e
          | none => .inr j

/-- Is a source copy eligible (R81): named, inside the store, and no narrower than RT_CEIL? -/
def srcOk (r : SrcCopy) (ceil r0 rows k0 n : Nat) : Bool :=
  r.base != noRegion && decide (r.fmt ≤ 5) && decide (ceil ≤ r.fmt)
    && (operandRegions r.fmt (srcPlace r) r0 rows k0 n).all regionIn

/-- The source copy that an operand may widen from (R81, R83). -/
def eligible (f ceil : Nat) (r : Option SrcCopy) (r0 rows k0 n : Nat) : Option SrcCopy :=
  if f < ceil then r.filter fun r => srcOk r ceil r0 rows k0 n else none

def TileJob.opndA (j : TileJob) : Opnd :=
  ⟨j.w.fmtA, j.d.a, j.d.mLen, j.d.padA, j.w.m,
    eligible j.w.fmtA j.w.ceil (j.p.map (·.a)) j.w.m0 j.mExt j.w.k0 j.kExt⟩
def TileJob.opndB (j : TileJob) : Opnd :=
  ⟨j.w.fmtB, j.d.b, j.d.nLen, j.d.padB, j.w.n,
    eligible j.w.fmtB j.w.ceil (j.p.map (·.b)) j.w.n0 j.nExt j.w.k0 j.kExt⟩

/-- MXE.042 is due at issue: a source of the precision descriptor is absent, reaches beyond the store, or is narrower than
RT_CEIL (R81; raised at issue: log entry 34). -/
def TileJob.noSource (j : TileJob) : Bool :=
  j.p.any fun p => !(srcOk p.a j.w.ceil j.w.m0 j.mExt j.w.k0 j.kExt && srcOk p.b j.w.ceil j.w.n0 j.nExt j.w.k0 j.kExt)

end Sys2Proof.Machine
end

