-- ==== Sys2Proof/Machine/Precision.lean ====
section
/-! DEFINITION. Rethatching and error feedback (05 R82-R96): the allowance, promotion of a step, the trial conversion of
a closing group with its residuals, and the triggers. -/

namespace Sys2Proof.Machine

/-! ### The allowance (05 R87-R89) -/

/-- The cluster clock in units of 100 MHz (20 Table 20.7). -/
def clockOf (s : State) (c : Nat) : Nat := (unit s.pwr.quads (c / 36) QuadSt.reset).clock

/-- The allowance is counted in units of 1 / (3,724,680,960 x N_c) ns, of which every cluster clock makes whole numbers of a
cycle / N_c (R87). -/
def rethatchUnit : Nat := 3724680960

/-- N_c: clusters that the work list assigns to the sequence in the tick. -/
def assignedCount (q : SeqSlot) : Nat := max 1 q.assigned.length

/-- Cycles at a cluster's clock f as a charge: cycles / (N_c x f) (R87). -/
def chargeUnits (s : State) (c cycles : Nat) : Nat := cycles * 10 * (rethatchUnit / clockOf s c)

/-- The allowance of the tick. -/
def allowUnits (q : SeqSlot) : Nat := q.allow256 * (rethatchUnit / 256) * assignedCount q

/-- What is left of the allowance, in ns. -/
def allowLeft (q : SeqSlot) : Int := ((allowUnits q : Int) - q.allowUsed) / ((rethatchUnit * assignedCount q : Nat) : Int)

/-- Time charged to the allowance in the tick, in µs. -/
def rethatchUs (q : SeqSlot) : Nat := q.rethatchUsed / (rethatchUnit * assignedCount q * 1000)

/-- CP2 sets the remaining allowance to zero (02 R29). -/
def forfeit (q : SeqSlot) : SeqSlot := { q with allowUsed := max q.allowUsed (allowUnits q) }

/-- Charge rethatch cycles to the allowance. The sequence is charged for them under R31 as its window time runs. -/
def rethatchCharge (s : State) (c slot cycles : Nat) : State :=
  modSeq s slot fun q => { q with
    allowUsed := q.allowUsed + chargeUnits s c cycles
    rethatchUsed := q.rethatchUsed + chargeUnits s c cycles }

/-- May an action begin (R88, R89)? -/
def mayRethatch (s : State) (slot : Nat) : Bool :=
  decide ((seqAt s slot).allowUsed < allowUnits (seqAt s slot)) && !(seqAt s slot).denied

/-- The trace record of an action (21 Table 21.3, KIND 4): which action, the rung reached, its cycles, the allowance left
in µs. -/
def rethatchTrace (s : State) (c slot action rung cycles : Nat) : State :=
  trace s 4 slot (whereOf 0 c)
    (leBytes 1 (Config.traceCode 4 action).toNat ++ leBytes 1 rung ++ leBytes 4 cycles
      ++ leBytes 4 (field 32 (allowLeft (seqAt s slot) / 1000)))

/-- A denial: at the first in a tick COARSE is set and MXE.041 is raised, and no action begins for the rest of the tick
(R89). -/
def rethatchDenied (s : State) (c slot rung : Nat) : State :=
  let s1 := rethatchTrace (ctrAdd s (ctrCluster c 4) 1) c slot 2 rung 0
  if (seqAt s1 slot).denied then s1
  else raise (modSeq s1 slot fun q => { q with denied := true, coarse := true }) bMXE 41 (locSlot slot) slot 0

/-! ### Formats of an operand within a group -/

/-- What an operand is read as: its format and whether it comes from its source copy. -/
structure Rung where
  fmt  : Nat
  wide : Bool
deriving DecidableEq, Repr

/-- Can the operand widen from this rung (R83)? -/
def Rung.can (r : Rung) (o : Opnd) (ceil : Nat) : Bool := o.src.isSome && decide (r.fmt < ceil)

/-- One rung wider. -/
def Rung.up (r : Rung) : Rung := ⟨r.fmt + 1, true⟩

/-- Widen every operand that can widen and whose format is the narrowest among those that can (R83). -/
def widen (oa ob : Opnd) (ceil : Nat) (a b : Rung) : Rung × Rung :=
  match a.can oa ceil, b.can ob ceil with
  | true, true => if a.fmt = b.fmt then (a.up, b.up) else if a.fmt < b.fmt then (a.up, b) else (a, b.up)
  | true, false => (a.up, b)
  | false, true => (a, b.up)
  | false, false => (a, b)

/-! ### Trial conversion (03 R51, 05 R82, R93) -/

/-- Error feedback is in force for a conversion: the region is named and lies inside the store. -/
def resInForce (p : Option PrecDesc) (rows cols : Nat) : Option PrecDesc :=
  p.filter fun p => p.resBase != noRegion
    && regionIn (region p.resBase p.resLd rows (fmtLen 4 cols)) && regionIn (region p.resSbase p.resSld rows (cdiv cols 32))

/-- The previous residuals of one block, and whether it was poisoned (R93, R96). -/
def readResidual (s : State) (c : Nat) (p : PrecDesc) (row b : Nat) : List Dy × Bool :=
  let pay := p.resBase + row * p.resLd + 32 * b
  let sc := p.resSbase + row * p.resSld + b
  let bse := if csBad s c pay || csBad s c sc then 255 else (csByte s c sc).toNat
  ((List.range 32).map fun i => (elemVal 4 (csByte s c (pay + i)).toNat bse).getD Dy.zero, bse == 255)

/-- One output block in trial: which positions count, x or x', the encoding, the errors x' - decode(q(x')), and the
residuals to be written. -/
structure TrialBlock where
  row    : Nat
  b      : Nat
  inside : List Bool
  xs     : List Val
  enc    : Block
  err    : List Val
  res    : List Val
deriving DecidableEq, Repr

/-- Quantise one output block from its in-extent values (R51, R74, R93, Table 5.4). -/
def trialBlock (f row b : Nat) (inside : List Bool) (xs : List Val) (prev : Option (List Dy)) : TrialBlock :=
  let x1 : List Val := match prev with
    | none => xs
    | some l => (xs.zip l).map fun v => rnd32 (v.1.map fun x => x.add v.2)
  let used := (x1.zip inside).map fun v => if v.2 then v.1 else some Dy.zero
  let e := encPlain f used
  let codes := (e.codes.zip inside).map fun v => if v.2 then v.1 else 0
  let err := (used.zip codes).map fun v => Val.map2 Dy.sub v.1 (elemVal f v.2 e.bse)
  let res := (used.zip (err.zip e.sat)).map fun v => if v.1.isNone then none else if v.2.2 then some Dy.zero else v.2.1
  ⟨row, b, inside, used, { e with codes := codes }, err, res⟩

/-- Saturated in-extent elements of a block (R39, R75). -/
def TrialBlock.sats (t : TrialBlock) : Nat := ((t.enc.sat.zip t.inside).filter fun v => v.1 && v.2).length

/-- One more term of a sum in FP32. -/
def sumStep (acc : Dy) (x : Dy) : Dy := (fAdd (some acc) (some x.abs)).getD acc

/-- The sums of R82's residual test over blocks in row-major order, in FP32: Σ|r| and Σ|x'|. Poisoned elements are left
out (log entry 36). -/
def trialSums (l : List TrialBlock) : Dy × Dy :=
  l.foldl (fun acc t =>
    (t.inside.zip (t.xs.zip t.err)).foldl (fun acc v =>
      match v.1, v.2.1, v.2.2 with
      | true, some x, some r => (sumStep acc.1 r, sumStep acc.2 x)
      | _, _, _ => acc) acc) (Dy.zero, Dy.zero)

/-- ρ above RES_LIMIT x 2^-16. -/
def rhoAbove (limit : Nat) (sums : Dy × Dy) : Bool :=
  limit != 0 && Dy.lt ((Dy.ofInt limit).scale (-16) |>.mul sums.2) sums.1

/-- Previous residuals of a run of blocks; none where the conversion takes no feedback. With HISTORY_VALID clear, or for
an item of the first pass, they are 0 and nothing is read (R93, R95). -/
def prevResidual (s : State) (c : Nat) (res : Option PrecDesc) (valid : Bool) (row b : Nat) : Option (List Dy) :=
  res.map fun p => if valid then (readResidual s c p row b).1 else List.replicate 32 Dy.zero

/-- May the item read residuals (R95)? -/
def historyValid (s : State) (slot item : Nat) : Bool :=
  (seqAt s slot).history && !((itemOf s slot item).elim false (·.firstPass))

/-- Read the residual blocks of a conversion that a block `blk` makes: sectors are touched, and MXE.044 is raised where one is
poisoned (R77, R96, 06 R102). -/
def touchResiduals (s : State) (blk c slot : Nat) (p : PrecDesc) (blocks : List (Nat × Nat)) : State :=
  let s1 := touchAll s blk c slot
    (blocks.flatMap fun x => [(p.resBase + x.1 * p.resLd + 32 * x.2, 32), (p.resSbase + x.1 * p.resSld + x.2, 1)])
  each (blocks.filter fun x => (readResidual s1 c p x.1 x.2).2)
    (fun s _ => raise s bMXE 44 (locCluster c) slot 0) s1

/-- The residuals of an accepted conversion as they are written in place (R93, Table 5.4): only the in-extent positions. -/
def residualWrites (p : PrecDesc) (t : TrialBlock) : List (Nat × List Byte) :=
  let e := encPlain 4 t.res
  let pay := p.resBase + t.row * p.resLd + 32 * t.b
  (((List.range 32).zip (e.codes.zip t.inside)).filterMap fun v =>
      if v.2.2 then some (pay + v.1, [BitVec.ofNat 8 v.2.1]) else none)
    ++ [(p.resSbase + t.row * p.resSld + t.b, [BitVec.ofNat 8 e.bse])]

/-- Make the writes of a conversion into a cluster's store. -/
def csWrites (s : State) (c : Nat) (l : List (Nat × List Byte)) : State := each l (fun s w => csWrite s c w.1 w.2) s

end Sys2Proof.Machine
end

