-- ==== Sys2Proof/Machine/TileRun.lean ====
section
/-! DEFINITION. The effect of the steps of a tile instruction (04 R59, R60, R65-R75; 05 R84-R89; 03 R44-R51): a step into
its group, the close of a group with re-execution, and the writing of C. -/

namespace Sys2Proof.Machine

/-- A cell of a tile instruction: its number i (R74), first row, first column, and gutter tiles along A and B. -/
structure Cell where
  i  : Nat
  tm : Nat
  tn : Nat
  m0 : Nat
  n0 : Nat
deriving DecidableEq, Repr

/-- A step as it will run: its first K position, operand rungs, gutter regions in use, cycles, and the promotion that is
charged as it ends (cycles, rung reached). -/
structure StepPlan where
  k0   : Nat
  ra   : Rung
  rb   : Rung
  ga   : Option Nat
  gb   : Option Nat
  cycles : Nat
  promo : Option (Nat × Nat)
deriving DecidableEq, Repr

/-- What a step carries: whether MXE.030, 031 and 043 were raised for the tile. -/
structure RunSt where
  s     : State
  said30 : Bool
  said31 : Bool
  said43 : Bool
deriving DecidableEq, Repr

/-- Where an instruction runs: cluster, thread, sequence slot, work item. -/
structure RunAt where
  c    : Nat
  t    : Nat
  slot : Nat
  item : Nat
deriving DecidableEq, Repr

/-- Order of gutter regions for an operand of a TGRID: curve order of R103's modes (05 R78). -/
def TileJob.gutOrder (j : TileJob) (role : Nat) : List (Nat × Nat) :=
  if j.grid then
    if role = 0 then regionOrder (j.w.order + 1) 0 j.gm j.gk j.gn else regionOrder (j.w.order + 1) 1 j.gn j.gk j.gm
  else [(0, 0)]

/-- The gutter region of an operand for a tile and a K step. -/
def gutAt (gut x : Nat) (order : List (Nat × Nat)) (tile step : Nat) : Option Nat :=
  if gut = noRegion then none else some (gut + gutSize x * regionIndex order tile step)

/-- A K step is skipped (R70). -/
def TileJob.skipK (j : TileJob) (k0 : Nat) : Bool := j.w.isLen 2 && decide (j.d.kLen ≤ k0)

/-- A tile is skipped (R70). -/
def TileJob.skipTile (j : TileJob) (m0 n0 : Nat) : Bool :=
  (j.w.isLen 0 && decide (j.d.mLen ≤ m0)) || (j.w.isLen 1 && decide (j.d.nLen ≤ n0))

/-- Free padding value of a widened operand (log entry 31). -/
def freePad (s : State) : Val := ofBf16 (BitVec.ofNat 16 (drawn s 83))

/-- Prepare one step (R82-R84): its gutters are read, and where one has overflowed the step is promoted if the operand
can widen and the allowance lets it. The charge is against the compiled step and comes when the step ends (R87, R88). -/
def prepStep (w : RunAt) (j : TileJob) (cell : Cell) (ra rb : Rung) (oa ob : List (Nat × Nat)) (step k0 : Nat) (r : RunSt) :
    StepPlan × RunSt :=
  let A := j.opndA
  let B := j.opndB
  let ga := if ra.wide then none else gutAt j.d.a.gut j.w.m oa cell.tm step
  let gb := if rb.wide then none else gutAt j.d.b.gut j.w.n ob cell.tn step
  let s1 := touchAll r.s bMXE w.c w.slot
    ((ga.elim [] fun g => [(g, gutSize j.w.m)]) ++ (gb.elim [] fun g => [(g, gutSize j.w.n)]))
  let trig := j.p.elim false fun p => bitOn p.trig 0
  let overA := trig && ga.elim false (gutOver s1 w.c)
  let overB := trig && gb.elim false (gutOver s1 w.c)
  let upA := overA && ra.can A j.w.ceil
  let upB := overB && rb.can B j.w.ceil
  let (ra', rb', promo, s2, said43) :=
    if upA || upB then
      if mayRethatch s1 w.slot then
        let na := if upA then ra.up else ra
        let nb := if upB then rb.up else rb
        let extra := stepCycles na.fmt nb.fmt j.w.k - stepCycles j.w.fmtA j.w.fmtB j.w.k
        (na, nb, some (extra, if upA then na.fmt else nb.fmt), s1, r.said43)
      else (ra, rb, none, rethatchDenied s1 w.c w.slot (if upA then ra.fmt else rb.fmt), r.said43)
    else if overA || overB then
      (ra, rb, none, if r.said43 then s1 else raise s1 bMXE 43 (locCluster w.c) w.slot 0, true)
    else (ra, rb, none, s1, r.said43)
  (⟨k0, ra', rb', if ra'.wide then none else ga, if rb'.wide then none else gb, stepCycles ra'.fmt rb'.fmt j.w.k, promo⟩,
    { r with s := s2, said43 := said43 })

/-! ### Held panels (R67) -/

/-- What names a panel: the operand as it is read, its rows and its K positions. -/
def panelKey (o : Opnd) (r : Rung) (gut : Option Nat) (x0 kLen k0 ks : Nat) : List Int :=
  let p := if r.wide then o.src.elim o.at_ srcPlace else o.at_
  ([p.base, p.ld, p.sbase, p.sld, if r.wide then o.src.elim 0 (·.fmt) else o.fmt, o.len, o.pad, o.x, r.fmt, r.wide.toNat,
    gut.elim 0 (· + 1), x0, kLen, k0, ks] : List Nat).map Int.ofNat

/-- Is the held panel the one that a step needs? Within an instruction it is used as it was read. A later instruction uses
it where the operand is the same and the store still reads so (DEDUCED from R67 and R76, log entry 99). -/
def heldFits (h : HeldPanel) (w : RunAt) (stamp : Nat) (key : List Int) (now : Unit → Panel) : Bool :=
  h.key == key && ((h.thr == w.t && h.stamp == stamp) || h.panel == now ())

/-- The held panel of an operand that a step reuses. -/
def heldPanel (h : Option HeldPanel) (w : RunAt) (stamp : Nat) (key : List Int) (now : Unit → Panel) : Option Panel :=
  (h.filter fun h => heldFits h w stamp key now).map (·.panel)

/-- One operand of a step: what names its panel, the panel as a state holds it, and the ranges that reading it takes. -/
structure PanelSrc where
  key    : List Int
  read   : State → Panel
  ranges : List (Nat × Nat)

/-- The panels of a step, held or read, and the state after the sectors were read; the cluster holds them from now on. -/
def takePanels (w : RunAt) (a b : PanelSrc) (s : State) : (Panel × Panel) × State :=
  let cl := clAt s w.c
  let stamp := (thrOf cl w.t).stamp
  let ha := heldPanel cl.heldA w stamp a.key fun _ => a.read s
  let hb := heldPanel cl.heldB w stamp b.key fun _ => b.read s
  let s1 := touchAll s bMXE w.c w.slot ((if ha.isSome then [] else a.ranges) ++ (if hb.isSome then [] else b.ranges))
  let pa := ha.getD (a.read s1)
  let pb := hb.getD (b.read s1)
  ((pa, pb), modCl s1 w.c fun cl => { cl with
    heldA := some ⟨w.t, stamp, a.key, pa⟩, heldB := some ⟨w.t, stamp, b.key, pb⟩ })

/-- The operands of a step of a TMM or TGRID. -/
def srcA (w : RunAt) (j : TileJob) (cell : Cell) (p : StepPlan) (f : Val) : PanelSrc where
  key := panelKey j.opndA p.ra p.ga cell.m0 j.d.kLen p.k0 j.w.k
  read s := panel s w.c j.opndA p.ra.wide p.ra.fmt p.ga cell.m0 j.d.kLen p.k0 j.w.k f
  ranges := panelRanges j.opndA p.ra.wide cell.m0 j.d.kLen p.k0 j.w.k

def srcB (w : RunAt) (j : TileJob) (cell : Cell) (p : StepPlan) (f : Val) : PanelSrc where
  key := panelKey j.opndB p.rb p.gb cell.n0 j.d.kLen p.k0 j.w.k
  read s := panel s w.c j.opndB p.rb.wide p.rb.fmt p.gb cell.n0 j.d.kLen p.k0 j.w.k f
  ranges := panelRanges j.opndB p.rb.wide cell.n0 j.d.kLen p.k0 j.w.k

/-- The panels of a step as a state holds them. -/
def stepPanels (w : RunAt) (j : TileJob) (cell : Cell) (s : State) (p : StepPlan) : Panel × Panel :=
  ((srcA w j cell p (freePad s)).read s, (srcB w j cell p (freePad s)).read s)

/-- The least of some terms. -/
def minTerm (l : List Int) : Option Int := l.foldl (fun m x => some (m.elim x (min x))) none

/-- The anchor under R48, before any rise of R85; `ps` are the panels that the attempt reads for the tile. Where no block is
read in scale-derived mode, or an operand is read as BF16, the spec gives no value: it is free (log entry 33). -/
def openAnchor (s : State) (j : TileJob) (ps : Unit → List (Panel × Panel)) : Int :=
  if j.w.amode = 0 then j.w.anchor
  else if j.w.amode = 2 then j.d.anchor
  else
    let l := ps ()
    match minTerm (l.flatMap (·.1.terms)), minTerm (l.flatMap (·.2.terms)) with
    | some a, some b => a + b
    | _, _ => signed 10 (drawn s 48)

/-- Add the products of one step to the elements of a group, row-major (R59, R44). -/
def addStep (anchor : Int) (n : Nat) (a b : Panel) (elems : List LaElem) : List LaElem :=
  (List.range elems.length).zip elems |>.map fun e =>
    ((a.elems.getD (e.1 / n) []).zip (b.elems.getD (e.1 % n) [])).foldl (fun x p => laAdd anchor x p.1.v p.2.v) e.2

/-- Any element of two panels is poison; any holds a marker that nothing covers. -/
def anyPoison (p : Panel × Panel) : Bool := (p.1.elems ++ p.2.elems).any fun r => r.any (·.v.isNone)
def anyBare (p : Panel × Panel) : Bool := (p.1.elems ++ p.2.elems).any fun r => r.any (·.bare)

/-- Raise MXE.030 and MXE.031, once per tile. -/
def tileEvents (w : RunAt) (ps : List (Panel × Panel)) (r : RunSt) : RunSt :=
  let p := ps.any anyPoison
  let b := ps.any anyBare
  let s1 := if p && !r.said30 then raise r.s bMXE 30 (locCluster w.c) w.slot 0 else r.s
  let s2 := if b && !r.said31 then raise s1 bMXE 31 (locCluster w.c) w.slot 0 else s1
  { r with s := s2, said30 := r.said30 || p, said31 := r.said31 || b }

/-- The rungs of an attempt. -/
def TileProg.ra (p : TileProg) : Rung := ⟨p.fmtA, p.wideA⟩
def TileProg.rb (p : TileProg) : Rung := ⟨p.fmtB, p.wideB⟩

/-- The run that a step of an instruction in progress starts from. -/
def TileProg.run (p : TileProg) (s : State) : RunSt := ⟨s, p.said30, p.said31, p.said43⟩

/-- The instruction after a step of some cycles, and its events. -/
def TileProg.ran (p : TileProg) (k cycles : Nat) (r : RunSt) : TileProg :=
  { p with begun := true, step := k + 1, isOpen := true, cycles := p.cycles + cycles, said30 := r.said30,
           said31 := r.said31, said43 := r.said43 }

/-- K steps of a cell with their numbers, without the skipped ones. -/
def TileJob.ksteps (j : TileJob) : List (Nat × Nat) :=
  ((List.range j.gk).map fun i => (i, j.w.k0 + i * j.w.k)).filter fun k => !j.skipK k.2

/-- The K steps that an instruction runs: none where a TMM's tile is skipped (R70). -/
def TileJob.steps (j : TileJob) : List (Nat × Nat) := if !j.grid && j.skipTile j.w.m0 j.w.n0 then [] else j.ksteps

/-- The next K step of an attempt. -/
def TileJob.nextStep (j : TileJob) (p : TileProg) : Option (Nat × Nat) := j.steps.find? fun k => decide (p.step ≤ k.1)

/-- A fresh group of an attempt: its anchor raised by 16 x L and capped (R85). -/
def openGroup (w : RunAt) (j : TileJob) (p : TileProg) (rank : Nat) (anchor : Int) : Group :=
  { item := w.item, rank := rank, m := j.w.m, n := j.w.n, anchor := if p.level = 0 then anchor else min (anchor + 16 * (p.level : Int)) 511,
    count := 0, fmtA := j.w.fmtA, fmtB := j.w.fmtB, level := p.level, sat := 0, elems := List.replicate (j.w.m * j.w.n) LaElem.zero }

/-- The group that a step of the attempt adds to: the open one, or a fresh one. -/
def stepGroup (w : RunAt) (j : TileJob) (p : TileProg) (rank : Nat) (held : Option Group) (anchor : Unit → Int) : Group :=
  match p.isOpen, held with
  | true, some g => g
  | _, _ => openGroup w j p rank (anchor ())

/-- A group after one step: what its widened operands saturated counts with it (03 R39, 05 R83). -/
def Group.step (g : Group) (k fmtA fmtB : Nat) (a b : Panel) : Group :=
  { g with count := g.count + k, fmtA := fmtA, fmtB := fmtB, sat := g.sat + a.sat + b.sat, elems := addStep g.anchor g.n a b g.elems }

/-- The panels of the K steps that follow in the attempt, at its rungs: the sequencer reads the scale arrays before the tile
starts (R48). -/
def laterPanels (w : RunAt) (j : TileJob) (cell : Cell) (p : TileProg) (k : Nat) (s : State) : List (Panel × Panel) :=
  (j.steps.filter fun x => decide (k < x.1)).map fun x =>
    stepPanels w j cell s ⟨x.2, p.ra, p.rb, if p.wideA then none else gutAt j.d.a.gut j.w.m (j.gutOrder 0) cell.tm x.1,
      if p.wideB then none else gutAt j.d.b.gut j.w.n (j.gutOrder 1) cell.tn x.1, 0, none⟩

/-- What a step leaves: the state, its group, the instruction's progress, the step's record and its promotion. -/
structure StepOut where
  s    : State
  g    : Group
  p    : TileProg
  rec_ : StepRec
  promo : Option (Nat × Nat)
deriving DecidableEq, Repr

/-- One K step of a TMM or of a TGRID cell (R59). -/
def tileStep (w : RunAt) (j : TileJob) (cell : Cell) (rank : Nat) (held : Option Group) (p : TileProg) (k : Nat × Nat) (s : State) :
    StepOut :=
  let x := prepStep w j cell p.ra p.rb (j.gutOrder 0) (j.gutOrder 1) k.1 k.2 (p.run s)
  let pl := x.1
  let f := freePad x.2.s
  let y := takePanels w (srcA w j cell pl f) (srcB w j cell pl f) x.2.s
  let ab := y.1
  let r := tileEvents w [ab] { x.2 with s := y.2 }
  let g := stepGroup w j p rank held fun _ => openAnchor r.s j fun _ => ab :: laterPanels w j cell p k.1 r.s
  { s := drew r.s
    g := g.step j.w.k pl.ra.fmt pl.rb.fmt ab.1 ab.2
    p := p.ran k.1 (pl.cycles - pl.promo.elim 0 (·.1)) r
    rec_ := ⟨pl.cycles, pl.ra.fmt, pl.rb.fmt, j.w.grp⟩
    promo := pl.promo }

/-! ### The close (03 R51, 04 R74, R75) -/

/-- Rows and columns of a cell that lie within the lengths. -/
def inRows (j : TileJob) (cell : Cell) : Nat := min j.w.m (j.d.mLen - cell.m0)
def inCols (j : TileJob) (cell : Cell) : Nat := min j.w.n (j.d.nLen - cell.n0)

/-- Element (i, k) of a group. -/
def groupElem (g : Group) (i k : Nat) : LaElem := g.elems.getD (i * g.n + k) LaElem.zero

/-- Output blocks that hold an in-extent element of the cell, as (row, block). -/
def outBlocks (j : TileJob) (cell : Cell) : List (Nat × Nat) :=
  if inCols j cell = 0 then []
  else (List.range (inRows j cell)).flatMap fun i =>
    (List.range (cdiv (cell.n0 + inCols j cell) 32 - cell.n0 / 32)).map fun b => (cell.m0 + i, cell.n0 / 32 + b)

/-- Trial conversion of a group into its block format. Where N or N0 is an odd multiple of 16, a block of 32 lies only half
within the tile: its scale comes from the tile's own elements, the other half is written as code 0, and the scale byte is
written (R51 and R74 do not say who owns the other half: DESIGN CHOICE, log entry 95). -/
def trial (s : State) (c : Nat) (j : TileJob) (cell : Cell) (g : Group) (res : Option PrecDesc) (valid : Bool) :
    List TrialBlock :=
  (outBlocks j cell).map fun x =>
    let cols := (List.range 32).map fun i => 32 * x.2 + i
    let inside := cols.map fun n => decide (cell.n0 ≤ n) && decide (n < cell.n0 + inCols j cell)
    let xs := cols.map fun n =>
      if cell.n0 ≤ n ∧ n < cell.n0 + inCols j cell then laVal g.anchor (groupElem g (x.1 - cell.m0) (n - cell.n0))
      else some Dy.zero
    trialBlock j.w.fmtC x.1 x.2 inside xs (prevResidual s c res valid x.1 x.2)

/-- The bytes of a block of C: its payload and its scale byte. -/
def blockWrites (j : TileJob) (t : TrialBlock) : List (Nat × List Byte) :=
  let f := j.w.fmtC
  [(j.d.c.base + t.row * j.d.c.ld + t.b * payBytes f, packElems f t.enc.codes),
    (j.d.c.sbase + t.row * j.d.c.sld + t.b, [BitVec.ofNat 8 t.enc.bse])]

/-- The bytes of one element in an element format (BF16, FP32, LA96). -/
def elemBytes (f : Nat) (anchor : Int) (x : LaElem) : List Byte :=
  if f = 5 then leBytes 2 (toBf16 (laVal anchor x)).toNat
  else if f = 6 then leBytes 4 (toFp32 (laVal anchor x)).toNat
  else laBytes x

/-- The bytes of C in an element format, and the anchor where it is LA96 (R74). -/
def elemWrites (j : TileJob) (cell : Cell) (g : Group) : List (Nat × List Byte) :=
  let f := j.w.fmtC
  ((List.range (inRows j cell)).map fun i =>
      (j.d.c.base + (cell.m0 + i) * j.d.c.ld + fmtOff f cell.n0,
        (List.range (inCols j cell)).flatMap fun n => elemBytes f g.anchor (groupElem g i n)))
    ++ (if f = 7 then [(j.d.c.sbase + 2 * cell.i, leBytes 2 (field 16 g.anchor))] else [])

/-- The in-extent elements of a group. -/
def inElems (j : TileJob) (cell : Cell) (g : Group) : List LaElem :=
  (List.range (inRows j cell)).flatMap fun i => (List.range (inCols j cell)).map fun n => groupElem g i n

/-- The close triggers that fire (R82): LA_OVER, and any of LA_OVER, saturation and residual. -/
def closeTriggers (j : TileJob) (cell : Cell) (g : Group) (ts : List TrialBlock) : Bool × Bool :=
  match j.p with
  | none => (false, false)
  | some p =>
    let ovf := bitOn p.trig 1 && (inElems j cell g).any laOver
    let block := decide (j.w.fmtC ≤ 4)
    let satd := block && bitOn p.trig 2 && decide (p.satLimit < ts.foldl (fun n t => n + t.sats) g.sat)
    let rho := block && bitOn p.trig 3 && rhoAbove p.resLimit (trialSums ts)
    (ovf, ovf || satd || rho)

/-- What the conversion of the accepted attempt writes: C and the residuals. -/
def closeWrites (j : TileJob) (cell : Cell) (g : Group) (ts : List TrialBlock) (res : Option PrecDesc) :
    List (Nat × List Byte) :=
  if j.w.fmtC ≤ 4 then ts.flatMap (blockWrites j) ++ res.elim [] fun p => ts.flatMap (residualWrites p)
  else elemWrites j cell g

/-- How a close ends: its conversion begins, with the bytes that it will write, or the group is executed again. -/
inductive Closed where
  | written (l : List (Nat × List Byte))
  | again (p : TileProg)
deriving DecidableEq, Repr

/-- The instruction as it goes on to another cell (R64): its compiled rungs, no step of it run. -/
def TileProg.cell (p : TileProg) (j : TileJob) (curve : Nat) : TileProg :=
  { p with begun := true, curve := curve, step := 0, fmtA := j.w.fmtA, wideA := false, fmtB := j.w.fmtB, wideB := false, level := 0,
           rerun := false, isOpen := false, cycles := 0, said30 := false, said31 := false, said43 := false }

/-- The instruction as it opens its group afresh, one rung wider (R83, R85). -/
def TileProg.again (p : TileProg) (a b : Rung) (level : Nat) : TileProg :=
  { p with step := 0, fmtA := a.fmt, wideA := a.wide, fmtB := b.fmt, wideB := b.wide, level := level, rerun := true,
           isOpen := false, cycles := 0, begun := true }

/-- A re-execution that ends, or is cut by a pre-emption, is charged the cycles it has run (R87, R88, R92). -/
def chargeRerun (w : RunAt) (p : TileProg) (s : State) : State :=
  if p.rerun && p.cycles != 0 then rethatchCharge s w.c w.slot p.cycles else s

/-- The trace record of a re-execution that ends. -/
def traceRerun (w : RunAt) (p : TileProg) (s : State) : State :=
  if p.rerun then rethatchTrace s w.c w.slot 1 (min p.fmtA p.fmtB) p.cycles else s

/-- Close a group (R82, R85, R86, R89): its conversion begins, or the group is executed again one rung wider. -/
def tileClose (w : RunAt) (j : TileJob) (cell : Cell) (g : Group) (p : TileProg) (s : State) : State × Closed :=
  let s0 := traceRerun w p (chargeRerun w p s)
  let res := if j.w.fmtC ≤ 4 then resInForce j.p j.d.mLen j.d.nLen else none
  let valid := historyValid s0 w.slot w.item
  let s1 := match res with
    | some d => if valid then touchResiduals s0 bMXE w.c w.slot d (outBlocks j cell) else s0
    | none => s0
  let ts := if j.w.fmtC ≤ 4 then trial s1 w.c j cell g res valid else []
  let trig := closeTriggers j cell g ts
  let accept (s : State) : State × Closed := (s, .written (closeWrites j cell g ts res))
  if !trig.2 then accept s1
  else if !(j.grid || j.w.grp == 3) then accept (raise s1 bMXE 42 (locCluster w.c) w.slot 0)
  else if !(p.ra.can j.opndA j.w.ceil || p.rb.can j.opndB j.w.ceil) then
    accept (if p.said43 then s1 else raise s1 bMXE 43 (locCluster w.c) w.slot 0)
  else if !mayRethatch s1 w.slot then accept (rethatchDenied s1 w.c w.slot (min p.fmtA p.fmtB))
  else
    let up := widen j.opndA j.opndB j.w.ceil p.ra p.rb
    (ctrAdd s1 (ctrCluster w.c 3) 1, .again (p.again up.1 up.2 (if trig.1 then p.level + 1 else p.level)))

/-! ### The cells of an instruction (R60, R65, R66, R70) -/

/-- k of R65. -/
def TileJob.order2 (j : TileJob) : Nat := clog2 (max j.gm j.gn)

/-- The cell of a curve index that a TGRID runs; a TMM has one cell. -/
def TileJob.cellAt (j : TileJob) (d : Nat) : Option Cell :=
  if !j.grid then some ⟨0, 0, 0, j.w.m0, j.w.n0⟩
  else
    let mn := curveCell j.w.order d j.order2
    if d < 4 ^ j.order2 ∧ mn.1 < j.gm ∧ mn.2 < j.gn ∧ !j.skipTile (mn.1 * j.w.m) (mn.2 * j.w.n) then
      some ⟨mn.1 * j.gn + mn.2, mn.1, mn.2, mn.1 * j.w.m, mn.2 * j.w.n⟩
    else none

/-- The first curve index from d on whose cell runs. -/
def TileJob.curveFrom (j : TileJob) (d : Nat) : Option Nat :=
  if !j.grid then (if d = 0 then some 0 else none)
  else ((List.range (4 ^ j.order2)).drop d).find? fun x => (j.cellAt x).isSome

/-- Cells that run before the one of curve index d. -/
def TileJob.cellsBefore (j : TileJob) (d : Nat) : Nat := ((List.range d).filter fun x => (j.cellAt x).isSome).length

end Sys2Proof.Machine
end

