-- ==== Sys2Proof/Machine/Matrix.lean ====
section
/-! DEFINITION. Accumulator slots, and the words of TMM and TGRID as they start (04 R57, R60-R63). -/

namespace Sys2Proof.Machine

/-- Change one physical slot of a cluster. -/
def modSlot (s : State) (c i : Nat) (f : AccSlot → AccSlot) : State :=
  modCl s c fun cl => { cl with slots := cl.slots.modify i f }

/-- A slot that an instruction has opened and not run yet: a group without extent (R63: the opening waits). -/
def reservedGroup (item rank : Nat) : Group where
  item := item
  rank := rank
  m := 0
  n := 0
  anchor := 0
  count := 0
  fmtA := 0
  fmtB := 0
  level := 0
  sat := 0
  elems := []

/-- The physical slots of an instruction, in the order of its slot numbers. -/
def jobSlots (s : State) (c item : Nat) (j : TileJob) : List Nat := j.slots.filterMap (physSlot (clAt s c) item)

/-- Reserve slots that hold no group. -/
def reserveSlots (s : State) (c item rank : Nat) (l : List Nat) : State :=
  each l (fun s i => modSlot s c i fun a => { a with group := some (a.group.getD (reservedGroup item rank)) }) s

/-- Give up the reservations among some slots. -/
def unreserve (s : State) (c : Nat) (l : List Nat) : State :=
  each l (fun s i => modSlot s c i fun a => { a with group := a.group.filter (·.m != 0) }) s

/-- A conversion is still running in one of some slots. -/
def converting (s : State) (c : Nat) (l : List Nat) : Bool :=
  l.any fun i => (unit (clAt s c).slots i AccSlot.reset).converting.isSome

/-- A tile instruction as it is issued: `first` is its first cell, or unit. -/
def TileProg.start (opc : Nat) (word : BitVec 248) (desc : List Byte) (prec : Option (List Byte)) (ext : List Nat)
    (j : TileJob) (first : Nat) : TileProg :=
  { opc := opc, word := word, desc := desc, prec := prec, ext := ext, begun := false, curve := first, step := 0,
    fmtA := j.w.fmtA, wideA := false, fmtB := j.w.fmtB, wideB := false, level := 0, rerun := false, isOpen := !j.opens,
    cycles := 0, said30 := false, said31 := false, said43 := false }

/-- The TMM or TGRID that an instruction in progress is. -/
def TileProg.tile (p : TileProg) : TileJob :=
  { grid := p.opc == 0x41, prob := p.ext.getD 3 0, w := tileWord p.word, d := tileDesc p.desc, p := p.prec.map precDesc,
    mExt := p.ext.getD 0 0, nExt := p.ext.getD 1 0, kExt := p.ext.getD 2 0 }

end Sys2Proof.Machine
end

