-- ==== Sys2Proof/Machine/Conv.lean ====
section
/-! DEFINITION. What TCONV and its PREP mode compute (08 R144-R154): issue checks, the direct path as a TGRID over a gathered
operand, and the frequency path in overlap-save tiles. -/

namespace Sys2Proof.Machine

/-- A TCONV with its descriptor, as issued. -/
structure ConvJob where
  prob : Nat
  w    : ConvWord
  d    : ConvDesc
deriving DecidableEq, Repr

/-- An axis is transformed: its filter extent is 9 or more (R146). -/
def tall (k : Nat) : Bool := decide (9 ≤ k)

def ConvJob.freq (j : ConvJob) : Bool := tall j.d.kern.t || tall j.d.kern.h || tall j.d.kern.w

/-- Channel blocks of a position. -/
def ConvJob.inBlocks (j : ConvJob) : Nat := cdiv j.d.cIn 32
def ConvJob.outBlocks (j : ConvJob) : Nat := cdiv j.d.cOut 32

/-- Payload bytes of one position of C channels in a format (Table 8.2). -/
def posBytes (f c : Nat) : Nat :=
  if f ≤ 4 then cdiv c 32 * payBytes f else roundUp (fmtLen f c) 32

def ConvJob.taps (j : ConvJob) : Nat := j.d.kern.t * j.d.kern.h * j.d.kern.w
/-- K positions of one tap: its channels start a new block. -/
def ConvJob.tapK (j : ConvJob) : Nat := 32 * j.inBlocks
def ConvJob.kLen (j : ConvJob) : Nat := j.taps * j.tapK
def ConvJob.mLen (j : ConvJob) : Nat := j.d.out.t * j.d.out.h * j.d.out.w
def ConvJob.gm (j : ConvJob) : Nat := cdiv j.mLen j.w.m
def ConvJob.gn (j : ConvJob) : Nat := cdiv j.d.cOut j.w.n
def ConvJob.gk (j : ConvJob) : Nat := cdiv j.kLen j.w.k

/-! ### Frequency-path sizes (R149, R154) -/

/-- FFT size of an axis, 1 where it is not transformed. -/
def fftSize (k flog : Nat) : Nat := if tall k then 2 ^ flog else 1

def ConvJob.npt (j : ConvJob) : Nat :=
  fftSize j.d.kern.t j.d.flog.t * fftSize j.d.kern.h j.d.flog.h * fftSize j.d.kern.w j.d.flog.w
def ConvJob.sumLog (j : ConvJob) : Nat :=
  (if tall j.d.kern.t then j.d.flog.t else 0) + (if tall j.d.kern.h then j.d.flog.h else 0)
    + (if tall j.d.kern.w then j.d.flog.w else 0)
/-- F of the innermost transformed axis. -/
def ConvJob.fLast (j : ConvJob) : Nat :=
  if tall j.d.kern.w then 2 ^ j.d.flog.w else if tall j.d.kern.h then 2 ^ j.d.flog.h else fftSize j.d.kern.t j.d.flog.t
def ConvJob.bins (j : ConvJob) : Nat := j.npt / j.fLast * (j.fLast / 2 + 1)
def ConvJob.kMix (j : ConvJob) : Nat :=
  j.d.cIn * (if tall j.d.kern.t then 1 else j.d.kern.t) * (if tall j.d.kern.h then 1 else j.d.kern.h)
    * (if tall j.d.kern.w then 1 else j.d.kern.w)
/-- Cycles of a step (R154), a fraction counting as a whole cycle. -/
def ConvJob.freqCycles (j : ConvJob) : Nat :=
  cdiv ((j.kMix + j.d.cOut) * j.npt * j.sumLog + 2 * (j.bins * j.kMix * j.d.cOut)) 128
def ConvJob.prepCycles (j : ConvJob) : Nat := cdiv (j.kMix * j.npt * j.sumLog) 128
def ConvJob.specBytes (j : ConvJob) : Nat := 32 + j.d.cOut * j.kMix * j.bins * 4

/-! ### Issue checks (R147) -/

def badAxis (k st dil lead flog : Nat) : Bool :=
  k == 0 || st == 0 || decide (4 < st) || dil == 0 || decide (4 < dil) || decide (254 < lead) || (tall k != (flog != 0))

def mapBad (p : MapPlace) : Bool :=
  p.base % 32 != 0 || p.sbase % 32 != 0 || p.row % 32 != 0 || p.frame % 32 != 0 || p.srow % 32 != 0 || p.sframe % 32 != 0

/-- CNV.002. Fields that Tables 8.1 and 8.2 give to one path or mode only are not looked at on the other, but for those of
the output, which every form has (log entry 38). -/
def convBad (j : ConvJob) : Bool :=
  let d := j.d
  let prep := j.w.mode == 1
  1 < j.w.mode || j.w.res != 0 || d.bad || 5 < j.w.fmtA || padIsMarker j.w.fmtA d.pad || mapBad d.x
    || ((!j.freq || prep) && (5 < j.w.fmtB || placeBad d.w))
    || 7 < j.w.fmtC || mapBad d.y
    || (!j.freq && !prep && (j.w.amode == 3 || j.w.slot % 2 != 0))
    || ((j.freq || prep) && (d.spec % 32 != 0 || d.work % 32 != 0))
    || d.cIn == 0 || 4096 < d.cIn || d.cOut == 0 || 4096 < d.cOut || d.out.t == 0 || 256 < d.out.t
    || badAxis d.kern.t d.stride.t d.dil.t d.lead.t d.flog.t || badAxis d.kern.h d.stride.h d.dil.h d.lead.h d.flog.h
    || badAxis d.kern.w d.stride.w d.dil.w d.lead.w d.flog.w

/-- F outside 16-4,096 or below 2k on a transformed axis. -/
def fftBad (k flog : Nat) : Bool := tall k && (decide (flog < 4) || decide (12 < flog) || decide (2 ^ flog < 2 * k))

/-- CNV.003. -/
def convFreqBad (j : ConvJob) : Bool :=
  let d := j.d
  j.freq && (d.stride.t != 1 || d.stride.h != 1 || d.stride.w != 1 || d.dil.t != 1 || d.dil.h != 1 || d.dil.w != 1
    || fftBad d.kern.t d.flog.t || fftBad d.kern.h d.flog.h || fftBad d.kern.w d.flog.w
    || decide (2 ^ 22 < j.npt) || j.w.fmtC == 7)

/-- Payload and scale regions of a map. -/
def mapRegions (f c : Nat) (p : MapPlace) (a : Axes) : List (Nat × Nat) :=
  if a.t = 0 ∨ a.h = 0 ∨ a.w = 0 then []
  else
    (p.base, p.base + (a.t - 1) * p.frame + (a.h - 1) * p.row + a.w * posBytes f c)
      :: (if f ≤ 4 then [(p.sbase, p.sbase + (a.t - 1) * p.sframe + (a.h - 1) * p.srow + a.w * cdiv c 32)] else [])

def ConvJob.filterRegions (j : ConvJob) : List (Nat × Nat) := operandRegions j.w.fmtB j.d.w 0 j.d.cOut 0 j.kLen

def ConvJob.specRegion (j : ConvJob) : Nat × Nat := (j.d.spec, j.d.spec + j.specBytes)

/-- Inputs: the filter in PREP and on the direct path, the map in compute mode. -/
def ConvJob.inputs (j : ConvJob) : List (Nat × Nat) :=
  if j.w.mode = 1 then j.filterRegions
  else mapRegions j.w.fmtA j.d.cIn j.d.x j.d.inp ++ (if j.freq then [] else j.filterRegions)

/-- What is written: the spectra in PREP, else the map with its scales or anchors, and the work area. -/
def ConvJob.outputs (j : ConvJob) : List (Nat × Nat) :=
  if j.w.mode = 1 then [j.specRegion]
  else mapRegions j.w.fmtC j.d.cOut j.d.y j.d.out
    ++ (if j.freq then [(j.d.work, j.d.work + j.d.cOut * j.npt * 4)]
        else if j.w.fmtC = 7 then [(j.d.y.sbase, j.d.y.sbase + 2 * (j.gm * j.gn))] else [])

/-- The spectra that a tile of the frequency path reads. -/
def ConvJob.spectraIn (j : ConvJob) : List (Nat × Nat) := if j.freq && j.w.mode == 0 then [j.specRegion] else []

/-- An overlap that R147 forbids: an output, spectra or work region over an input or the descriptor table; and an output or
work region over the spectra that the tiles read. -/
def ConvJob.meets (j : ConvJob) (table : Nat × Nat) : Bool :=
  (j.outputs ++ j.spectraIn).any (fun o => (table :: j.inputs).any (regionsMeet o))
    || j.outputs.any fun o => j.spectraIn.any (regionsMeet o)

/-- The ten bytes of the spectra header that must agree, and the 22 zeros (R153). -/
def ConvJob.header (j : ConvJob) : List Byte :=
  record 32 [(0, 1, j.d.flog.t), (1, 1, j.d.flog.h), (2, 1, j.d.flog.w), (3, 1, j.d.kern.t), (4, 1, j.d.kern.h),
    (5, 1, j.d.kern.w), (6, 2, j.d.cIn), (8, 2, j.d.cOut)]

/-- A TCONV on the direct path seen as a tile instruction, for the slot checks and the count of R61 (R148). -/
def ConvJob.asTile (j : ConvJob) : TileJob where
  grid := true
  prob := j.prob
  w := { fmtA := j.w.fmtA, fmtB := j.w.fmtB, fmtC := j.w.fmtC, ceil := max j.w.fmtA j.w.fmtB, slot := j.w.slot, grp := 0,
         amode := j.w.amode, anchor := j.w.anchor, m := j.w.m, n := j.w.n, k := j.w.k, ldim := 7, order := j.w.order,
         prob := j.prob, blist := 0, nbucket := 1, res := 0, m0 := 0, n0 := 0, k0 := 0 }
  d := { mLen := j.mLen, nLen := j.d.cOut, kLen := j.kLen, anchor := j.d.anchor, padA := j.d.pad, padB := 0,
         a := ⟨0, 0, 0, 0, noRegion⟩, b := j.d.w, c := ⟨0, 0, 0, 0, noRegion⟩, bad := false }
  p := none
  mExt := j.mLen
  nExt := j.d.cOut
  kExt := j.kLen

/-- The checks of R147: a fault as (block, number), or the job. -/
def convChecks (s : State) (c : Nat) (h : Thread) (acc : Nat) (w : ConvWord) : (Nat × Nat) ⊕ ConvJob :=
  let prob := if w.prob = 0xFFFF then h.pidx else w.prob
  if h.tdescCount ≤ prob then .inl (bCNV, 1)
  else
    let j : ConvJob := ⟨prob, w, convDesc (csBytes s c (h.tdescBase + 128 * prob) 128)⟩
    let direct := !j.freq && j.w.mode == 0
    let cyc := if direct then stepCycles w.fmtA w.fmtB w.k else if w.mode = 1 then j.prepCycles else j.freqCycles
    if convBad j then .inl (bCNV, 2)
    else if convFreqBad j then .inl (bCNV, 3)
    else if 65536 < cyc then .inl (bCNV, 6)
    else if !(j.inputs ++ j.spectraIn ++ j.outputs).all regionIn then .inl (bCNV, 4)
    else if j.meets (h.tdescBase, h.tdescBase + 128 * h.tdescCount) then .inl (bCNV, 5)
    else if j.freq && w.mode == 0 && (csBytes s c j.d.spec 10 != j.header.take 10) then .inl (bCNV, 7)
    else if !direct then .inr j
    else
      match j.asTile.slots.findSome? (slotCheck (clAt s c) h acc j.asTile) with
      | some e => .inl (bMXE, e)
      | none =>
        if w.amode = 1 ∧ (w.fmtA = 5 ∨ w.fmtB = 5) then .inl (bMXE, 16)
        else if 2 ^ 29 < j.gk * w.k then .inl (bMXE, 15)
        else .inr j

/-! ### Gathering (R145, R148) -/

/-- The input coordinate of an output coordinate and a tap along one axis; none outside the input. -/
def tapAt (out stride lead k dil size : Nat) : Option Nat :=
  let x := out * stride + k * dil
  if lead ≤ x ∧ x - lead < size then some (x - lead) else none

/-- The input position of an output position (t, h, w) and a tap. -/
def ConvJob.source (j : ConvJob) (t h w kt kh kw : Nat) : Option (Nat × Nat × Nat) :=
  match tapAt (j.d.t0 + t) j.d.stride.t j.d.lead.t kt j.d.dil.t j.d.inp.t,
      tapAt h j.d.stride.h j.d.lead.h kh j.d.dil.h j.d.inp.h, tapAt w j.d.stride.w j.d.lead.w kw j.d.dil.w j.d.inp.w with
  | some a, some b, some c => some (a, b, c)
  | _, _, _ => none

/-- Payload and scale offsets of a position of a map. -/
def mapPay (p : MapPlace) (f c t h w : Nat) : Nat := p.base + t * p.frame + h * p.row + w * posBytes f c
def mapSc (p : MapPlace) (c t h w : Nat) : Nat := p.sbase + t * p.sframe + h * p.srow + w * cdiv c 32

/-- The place of a position as an operand row. -/
def posPlace (p : MapPlace) (f c t h w : Nat) : Place := ⟨mapPay p f c t h w, 0, mapSc p c t h w, 0, noRegion⟩

/-- The elements of one block of one position: its channels within C, code 0 beyond. -/
def posElems (s : State) (c : Nat) (f : Nat) (p : MapPlace) (cIn : Nat) (pos : Nat × Nat × Nat) (b : Nat) : List Elem :=
  rowElems s c f (posPlace p f cIn pos.1 pos.2.1 pos.2.2) 0 1 cIn (fun _ => some Dy.zero) (fun _ => none) (32 * b) 32

/-- The BSE of such a block, where it has one. -/
def posBse (s : State) (c : Nat) (f : Nat) (p : MapPlace) (cIn : Nat) (pos : Nat × Nat × Nat) (b : Nat) : List Nat :=
  rowBses s c f (posPlace p f cIn pos.1 pos.2.1 pos.2.2) 0 1 cIn (32 * b) 32

/-- Output position m as (t, h, w), w fastest. -/
def ConvJob.outPos (j : ConvJob) (m : Nat) : Nat × Nat × Nat :=
  (m / (j.d.out.h * j.d.out.w), m / j.d.out.w % j.d.out.h, m % j.d.out.w)

/-- Tap number as (kt, kh, kw). -/
def ConvJob.tap (j : ConvJob) (i : Nat) : Nat × Nat × Nat :=
  (i / (j.d.kern.h * j.d.kern.w), i / j.d.kern.w % j.d.kern.h, i % j.d.kern.w)

/-- Where block kb of the filter's K order comes from for output position m: the input position, or none for PAD, and the
channel block. Beyond M_LEN or K_LEN there is nothing. -/
def ConvJob.gather (j : ConvJob) (m kb : Nat) : Option (Option (Nat × Nat × Nat) × Nat) :=
  if m < j.mLen ∧ kb < j.taps * j.inBlocks then
    let p := j.outPos m
    let k := j.tap (kb / j.inBlocks)
    some (j.source p.1 p.2.1 p.2.2 k.1 k.2.1 k.2.2, kb % j.inBlocks)
  else none

/-- A block of PAD: PAD in the channels within C_IN, code 0 beyond. -/
def ConvJob.padBlock (j : ConvJob) (b : Nat) : List Elem :=
  (List.range 32).map fun i =>
    ⟨if 32 * b + i < j.d.cIn then padValue j.w.fmtA j.d.pad 127 else some Dy.zero, false⟩

/-- The panel of the gathered operand A in a step. -/
def ConvJob.panelA (s : State) (c : Nat) (j : ConvJob) (m0 k0 : Nat) : Panel :=
  ⟨(List.range j.w.m).map fun x =>
      (List.range (j.w.k / 32)).flatMap fun i =>
        match j.gather (m0 + x) (k0 / 32 + i) with
        | some (some pos, b) => posElems s c j.w.fmtA j.d.x j.d.cIn pos b
        | some (none, b) => j.padBlock b
        | none => List.replicate 32 ⟨some Dy.zero, false⟩,
    (List.range j.w.m).flatMap fun x =>
      (List.range (j.w.k / 32)).flatMap fun i =>
        match j.gather (m0 + x) (k0 / 32 + i) with
        | some (some pos, b) => (posBse s c j.w.fmtA j.d.x j.d.cIn pos b).map (anchorTerm j.w.fmtA)
        | _ => [], 0⟩

/-- Sectors of one block of one position. -/
def posRanges (f : Nat) (p : MapPlace) (cIn : Nat) (pos : Nat × Nat × Nat) (b : Nat) : List (Nat × Nat) :=
  rowRanges f (posPlace p f cIn pos.1 pos.2.1 pos.2.2) 0 1 cIn (32 * b) 32

/-- Sectors of the input that the panel reads. -/
def ConvJob.rangesA (j : ConvJob) (m0 k0 : Nat) : List (Nat × Nat) :=
  (List.range j.w.m).flatMap fun x =>
    (List.range (j.w.k / 32)).flatMap fun i =>
      match j.gather (m0 + x) (k0 / 32 + i) with
      | some (some pos, b) => posRanges j.w.fmtA j.d.x j.d.cIn pos b
      | _ => []

/-! ### Writing Y (R51, R74) -/

/-- The bytes of the channels [n0, n0 + xs.length) of one output position, as they are written. The values are exact, before
the one rounding; channels at or beyond C_OUT are masked. -/
def ConvJob.yWrites (j : ConvJob) (t h w n0 : Nat) (xs : List Val) (raw : Nat → List Byte) : List (Nat × List Byte) :=
  let f := j.w.fmtC
  let cnt := min xs.length (j.d.cOut - n0)
  let pay := mapPay j.d.y f j.d.cOut t h w
  if cnt = 0 then []
  else if f ≤ 4 then
    (List.range (cdiv (n0 + cnt) 32 - n0 / 32)).flatMap fun i =>
      let b := n0 / 32 + i
      let inside := (List.range 32).map fun k => decide (n0 ≤ 32 * b + k) && decide (32 * b + k < n0 + cnt)
      let vals := (List.range 32).map fun k =>
        if n0 ≤ 32 * b + k then xs.getD (32 * b + k - n0) (some Dy.zero) else some Dy.zero
      let tb := trialBlock f 0 b inside vals none
      [(pay + b * payBytes f, packElems f tb.enc.codes), (mapSc j.d.y j.d.cOut t h w + b, [BitVec.ofNat 8 tb.enc.bse])]
  else
    [(pay + fmtOff f n0, (List.range cnt).flatMap fun k =>
      if f = 5 then leBytes 2 (toBf16 (xs.getD k none)).toNat
      else if f = 6 then leBytes 4 (toFp32 (xs.getD k none)).toNat
      else raw k)]

/-! ### The direct path (R148) -/

/-- The panels of one K step. -/
def ConvJob.panels (j : ConvJob) (w : RunAt) (cell : Cell) (k0 : Nat) (s : State) : Panel × Panel :=
  (ConvJob.panelA s w.c j cell.m0 k0, panel s w.c j.asTile.opndB false 0 none cell.n0 j.kLen k0 j.w.k none)

/-- The gathered operand and the filter in one step: what names a panel of the gathered one is the instruction itself. -/
def ConvJob.srcA (j : ConvJob) (w : RunAt) (cell : Cell) (p : TileProg) (k0 : Nat) : PanelSrc where
  key := [-1, p.opc, p.word.toNat, ofLE p.desc, cell.m0, k0]
  read s := ConvJob.panelA s w.c j cell.m0 k0
  ranges := j.rangesA cell.m0 k0

def ConvJob.srcB (j : ConvJob) (w : RunAt) (cell : Cell) (k0 : Nat) : PanelSrc where
  key := panelKey j.asTile.opndB ⟨j.w.fmtB, false⟩ none cell.n0 j.kLen k0 j.w.k
  read s := panel s w.c j.asTile.opndB false 0 none cell.n0 j.kLen k0 j.w.k none
  ranges := panelRanges j.asTile.opndB false cell.n0 j.kLen k0 j.w.k

/-- One K step of a cell into its group. -/
def ConvJob.gridStep (j : ConvJob) (w : RunAt) (cell : Cell) (rank : Nat) (held : Option Group) (p : TileProg)
    (k : Nat × Nat) (s : State) : StepOut :=
  let y := takePanels w (j.srcA w cell p k.2) (j.srcB w cell k.2) s
  let r := tileEvents w [y.1] (p.run y.2)
  let later := fun _ => (j.asTile.steps.filter fun x => decide (k.1 < x.1)).map fun x => j.panels w cell x.2 r.s
  let g := stepGroup w j.asTile p rank held fun _ => openAnchor r.s j.asTile fun u => y.1 :: later u
  let cyc := stepCycles j.w.fmtA j.w.fmtB j.w.k
  { s := drew r.s, g := g.step j.w.k j.w.fmtA j.w.fmtB y.1.1 y.1.2, p := p.ran k.1 cyc r,
    rec_ := ⟨cyc, j.w.fmtA, j.w.fmtB, 0⟩, promo := none }

/-- What the close of a cell's group writes into Y (R51, R74). -/
def ConvJob.gridWrites (j : ConvJob) (cell : Cell) (g : Group) : List (Nat × List Byte) :=
  ((List.range (min j.w.m (j.mLen - cell.m0))).flatMap fun i =>
      let p := j.outPos (cell.m0 + i)
      let row := (g.elems.drop (i * j.w.n)).take j.w.n
      j.yWrites p.1 p.2.1 p.2.2 cell.n0 (row.map (laVal g.anchor)) (fun k => laBytes (row.getD k LaElem.zero)))
    ++ (if j.w.fmtC = 7 then [(j.d.y.sbase + 2 * cell.i, leBytes 2 (field 16 g.anchor))] else [])

/-! ### The frequency path (R149-R153) -/

/-- Outputs that a tile yields along an axis. -/
def tileYield (k flog : Nat) : Nat := if tall k then 2 ^ flog + 1 - k else 1

def ConvJob.tileGrid (j : ConvJob) : Axes :=
  ⟨cdiv j.d.out.t (tileYield j.d.kern.t j.d.flog.t), cdiv j.d.out.h (tileYield j.d.kern.h j.d.flog.h),
    cdiv j.d.out.w (tileYield j.d.kern.w j.d.flog.w)⟩

/-- The tiles that the instruction runs (R149). -/
def ConvJob.tileList (j : ConvJob) : List Nat :=
  let g := j.tileGrid
  let all := g.t * g.h * g.w
  let n := if j.d.ntiles = 0 then all - j.d.tile0 else min j.d.ntiles (all - j.d.tile0)
  (List.range n).map (· + j.d.tile0)

/-- First output of a tile along each axis. -/
def ConvJob.tileStart (j : ConvJob) (i : Nat) : Axes :=
  let g := j.tileGrid
  ⟨i / (g.h * g.w) * tileYield j.d.kern.t j.d.flog.t, i / g.w % g.h * tileYield j.d.kern.h j.d.flog.h,
    i % g.w * tileYield j.d.kern.w j.d.flog.w⟩

/-- Input positions along an axis that a tile reads: F of them where it is transformed, one for each tap where not. -/
def tileReads (k flog : Nat) : Nat := if tall k then 2 ^ flog else k

/-- Every input position of a tile; none where it takes PAD. -/
def ConvJob.tilePositions (j : ConvJob) (i : Nat) : List (Option (Nat × Nat × Nat)) :=
  let o := j.tileStart i
  (List.range (tileReads j.d.kern.t j.d.flog.t)).flatMap fun a =>
    (List.range (tileReads j.d.kern.h j.d.flog.h)).flatMap fun b =>
      (List.range (tileReads j.d.kern.w j.d.flog.w)).map fun e => j.source o.t o.h o.w a b e

/-- Input elements of a tile, PAD included. -/
def ConvJob.tileElems (s : State) (c : Nat) (j : ConvJob) (i : Nat) : List Elem :=
  (j.tilePositions i).flatMap fun p =>
    (List.range j.inBlocks).flatMap fun b =>
      match p with
      | some pos => posElems s c j.w.fmtA j.d.x j.d.cIn pos b
      | none => j.padBlock b

/-- A poisoned complex BF16 value, or a poisoned sector, among the spectra (R152). -/
def ConvJob.specPoison (s : State) (c : Nat) (j : ConvJob) : Bool :=
  let n := j.d.cOut * j.kMix * j.bins * 2
  csBadRange s c (j.d.spec + 32) (2 * n)
    || (List.range n).any fun i => (ofBf16 (BitVec.ofNat 16 (ofLE (csBytes s c (j.d.spec + 32 + 2 * i) 2)))).isNone

/-! #### Transforms and mixing (R150) -/

/-- FFT sizes along the axes, 1 where an axis is not transformed, and taps along those that are not. -/
def ConvJob.fftAxes (j : ConvJob) : Axes :=
  ⟨fftSize j.d.kern.t j.d.flog.t, fftSize j.d.kern.h j.d.flog.h, fftSize j.d.kern.w j.d.flog.w⟩
def ConvJob.tapAxes (j : ConvJob) : Axes :=
  ⟨if tall j.d.kern.t then 1 else j.d.kern.t, if tall j.d.kern.h then 1 else j.d.kern.h,
    if tall j.d.kern.w then 1 else j.d.kern.w⟩

/-- Row-major number i within some extents. -/
def unravel (a : Axes) (i : Nat) : Axes := ⟨i / (a.h * a.w), i / a.w % a.h, i % a.w⟩

/-- FFT sizes, filter extents and channels: what spectra depend on beside the filter. -/
def ConvJob.geom (j : ConvJob) : List Nat :=
  [j.d.flog.t, j.d.flog.h, j.d.flog.w, j.d.kern.t, j.d.kern.h, j.d.kern.w, j.d.cIn, j.d.cOut]

/-- The elements of the position (t, h, w) of a tile among all of them, each position taking a whole number of blocks. -/
def ConvJob.tileElem (j : ConvJob) (els : List Elem) (p : Axes) (ch : Nat) : Val :=
  let i := (p.t * tileReads j.d.kern.h j.d.flog.h + p.h) * tileReads j.d.kern.w j.d.flog.w + p.w
  (els.getD (i * j.tapK + ch) ⟨none, false⟩).v

/-- Input plane number jm: the K_mix index runs over the taps of the axes that are not transformed, then the channels, as the
filter's K order does (log entry 18). -/
def ConvJob.plane (j : ConvJob) (els : List Elem) (jm : Nat) : List Val :=
  let tap := unravel j.tapAxes (jm / j.d.cIn)
  (List.range j.npt).map fun i =>
    let f := unravel j.fftAxes i
    j.tileElem els ⟨f.t + tap.t, f.h + tap.h, f.w + tap.w⟩ (jm % j.d.cIn)

/-- A value as an opaque function takes it: an odd integer and an exponent. -/
def plainForm (x : Val) : Int × Int := let y := (x.getD Dy.zero).norm; (y.n, y.e)

/-- Free BF16 bits held to finite values (03 R40). -/
def finBf16 (b : Nat) : Nat := if bits b 14 7 = 255 then b % 2 ^ 7 else b % 2 ^ 16

/-- A complex BF16 bin whose halves are finite. -/
def finBin (b : BitVec 32) : BitVec 32 := BitVec.ofNat 32 (finBf16 b.toNat + 65536 * finBf16 (b.toNat / 65536))

/-- Real and imaginary part of a complex BF16. -/
def binRe (b : BitVec 32) : Val := ofBf16 (BitVec.ofNat 16 b.toNat)
def binIm (b : BitVec 32) : Val := ofBf16 (BitVec.ofNat 16 (b.toNat / 65536))

/-- One fused complex multiply-accumulate: exact, then one rounding of each part (R150). -/
def cmac (acc : Val × Val) (x w : BitVec 32) : Val × Val :=
  let m (a b : Val) : Val := Val.map2 Dy.mul a b
  (fAdd acc.1 (Val.map2 Dy.sub (m (binRe x) (binRe w)) (m (binIm x) (binIm w))),
    fAdd acc.2 (Val.map2 Dy.add (m (binRe x) (binIm w)) (m (binIm x) (binRe w))))

/-- Bin number b of the mixed spectrum of an output channel, in ascending K_mix index. `spec` are the channel's spectra. -/
def ConvJob.mixed (j : ConvJob) (fwd : List (List (BitVec 32))) (spec : List (BitVec 32)) (b : Nat) : BitVec 64 :=
  let r := (List.range j.kMix).foldl (fun acc jm =>
    cmac acc ((fwd.getD jm []).getD b 0) (spec.getD (jm * j.bins + b) 0)) (some Dy.zero, some Dy.zero)
  (toFp32 r.2) ++ (toFp32 r.1)

/-- The spectra of output channel o as a store holds them. -/
def ConvJob.specOf (s : State) (c : Nat) (j : ConvJob) (o : Nat) : List Byte :=
  csBytes s c (j.d.spec + 32 + o * (j.kMix * j.bins * 4)) (j.kMix * j.bins * 4)

/-- Words of four bytes. -/
def words32 (bs : List Byte) : List (BitVec 32) :=
  (List.range (bs.length / 4)).map fun i => BitVec.ofNat 32 (fld bs (4 * i) 4)

/-! #### The bound of R151 -/

/-- The sum of the squares of some values. -/
def sumSq (l : List Dy) : Dy := l.foldl (fun a x => a.add (x.mul x)) Dy.zero

/-- The exact value of R145 of an output position, from its gathered input and a filter in its K order. -/
def ConvJob.exactOut (s : State) (c : Nat) (j : ConvJob) (filter : List Dy) (m : Nat) : Dy :=
  let xs := (List.range (j.taps * j.inBlocks)).flatMap fun kb =>
    match j.gather m kb with
    | some (some pos, b) => posElems s c j.w.fmtA j.d.x j.d.cIn pos b
    | some (none, b) => j.padBlock b
    | none => []
  ((xs.map fun e => e.v.getD Dy.zero).zip filter).foldl (fun a p => a.add (p.1.mul p.2)) Dy.zero

/-- Does a value lie within (4 + Σ log2 F) ulps of BF16 at ‖x‖ ‖w‖ of the exact one? `sq` is the square of that product. -/
def ConvJob.within (j : ConvJob) (sq exact y : Dy) : Bool :=
  if sq.n = 0 then (y.sub exact).n == 0
  else Dy.le (y.sub exact).abs ⟨4 + j.sumLog, (ilog2 sq.n.natAbs 1 + sq.e) / 2 - 7⟩

/-- The value of output position m and channel o: the point of the inverse transform, which for spectra that PREP made from a
filter lies within the bound of R151; where the free bits do not, the exact value stands for it (log entry 18). -/
def ConvJob.freqValue (s : State) (c : Nat) (j : ConvJob) (els : List Elem) (spec : List Byte) (m : Nat) (point : BitVec 32) : Val :=
  match (s.st.preps.find? fun p => p.geom == j.geom && p.bytes == spec), ofFp32 point with
  | none, v => some (v.getD Dy.zero)
  | some p, v =>
    let sq := (sumSq (els.map fun e => e.v.getD Dy.zero)).mul (sumSq p.filter)
    let x := ConvJob.exactOut s c j p.filter m
    match v with
    | some y => if j.within sq x y then some y else some x
    | none => some x

/-- Circular position of an output of a tile: the first k - 1 positions of a transformed axis are discarded (R149). -/
def ConvJob.keptAt (j : ConvJob) (u : Axes) : Nat :=
  let f := j.fftAxes
  let sh (k x : Nat) : Nat := if tall k then x + k - 1 else x
  (sh j.d.kern.t u.t * f.h + sh j.d.kern.h u.h) * f.w + sh j.d.kern.w u.w

/-- The work area of one output channel: FP32 points of the inverse transform. -/
def ConvJob.workPlane (j : ConvJob) (fwd : List (List (BitVec 32))) (spec : List Byte) : List (BitVec 32) :=
  let ws := words32 spec
  let mixed := (List.range j.bins).map fun b => j.mixed fwd ws b
  (List.range j.npt).map fun i => toFp32 (some ((ofFp32 (Config.invOut j.geom mixed i)).getD Dy.zero))

/-- The outputs of a tile that lie within range: their place in the tile and in the map. -/
def ConvJob.tileOuts (j : ConvJob) (i : Nat) : List (Axes × Axes) :=
  let o := j.tileStart i
  let u := Axes.mk (tileYield j.d.kern.t j.d.flog.t) (tileYield j.d.kern.h j.d.flog.h) (tileYield j.d.kern.w j.d.flog.w)
  (List.range (u.t * u.h * u.w)).filterMap fun p =>
    let a := unravel u p
    let at_ := Axes.mk (o.t + a.t) (o.h + a.h) (o.w + a.w)
    if at_.t < j.d.out.t ∧ at_.h < j.d.out.h ∧ at_.w < j.d.out.w then some (a, at_) else none

/-- What a unit leaves: the state with its events, and the bytes that it writes as it ends. -/
structure UnitOut where
  r   : RunSt
  out : List (Nat × List Byte)

/-- One tile: its sectors are read and poison spreads over it; then the forward transforms, the mixing, the inverse
transforms into the work area, and the outputs within range, rounded once (R149-R152). Poison raises CNV.030 and no MXE.030
beside it (R41 and R152 do not say: DESIGN CHOICE, log entry 94). -/
def ConvJob.tileRun (j : ConvJob) (w : RunAt) (r : RunSt) (i : Nat) : UnitOut :=
  let pos := (j.tilePositions i).filterMap id
  let s1 := touchAll r.s bMXE w.c w.slot
    ((pos.flatMap fun p => (List.range j.inBlocks).flatMap fun b => posRanges j.w.fmtA j.d.x j.d.cIn p b)
      ++ [(j.d.spec, j.specBytes)])
  let els := ConvJob.tileElems s1 w.c j i
  let bad := els.any (·.v.isNone) || ConvJob.specPoison s1 w.c j
  let s2 := if bad then raise s1 bCNV 30 (locCluster w.c) w.slot 0 else s1
  let s2 := if els.any (·.bare) then raise s2 bMXE 31 (locCluster w.c) w.slot 0 else s2
  let fwd := (List.range j.kMix).map fun jm =>
    let p := (j.plane els jm).map plainForm
    (List.range j.bins).map fun b => finBin (Config.fwdBin j.geom p b)
  let chans := (List.range j.d.cOut).map fun o =>
    let spec := ConvJob.specOf s2 w.c j o
    (spec, if bad then List.replicate j.npt (toFp32 none) else j.workPlane fwd spec)
  let ys := (j.tileOuts i).flatMap fun x =>
    let m := (x.2.t * j.d.out.h + x.2.h) * j.d.out.w + x.2.w
    j.yWrites x.2.t x.2.h x.2.w 0 (chans.map fun ch =>
      if bad then none else ConvJob.freqValue s2 w.c j els ch.1 m (ch.2.getD (j.keptAt x.1) 0)) (fun _ => [])
  ⟨{ r with s := s2 }, (j.d.work, chans.flatMap fun ch => ch.2.flatMap fun v => leBytes 4 v.toNat) :: ys⟩

/-- The filter elements of output channel o, in the filter's K order. -/
def ConvJob.filterElems (s : State) (c : Nat) (j : ConvJob) (o : Nat) : List Elem :=
  rowElems s c j.w.fmtB j.d.w o j.d.cOut j.kLen (fun _ => some Dy.zero) (fun _ => none) 0 j.kLen

/-- The spectra of one output channel's filter. -/
def ConvJob.spectra (j : ConvJob) (filter : List Val) : List Byte :=
  (List.range (j.kMix * j.bins)).flatMap fun i =>
    leBytes 4 (finBin (Config.specBin j.geom (filter.map plainForm) (i / j.bins) (i % j.bins))).toNat

/-- Keep what PREP has transformed (log entry 18). -/
def notePrep (s : State) (p : Prep) : State :=
  if s.st.preps.contains p then s else { s with st := { s.st with preps := p :: s.st.preps } }

/-- PREP: the spectra of one output channel, then the header with the last (R153). A poisoned filter poisons its
spectra. -/
def ConvJob.prepRun (j : ConvJob) (w : RunAt) (r : RunSt) (o : Nat) : UnitOut :=
  let s1 := touchAll r.s bMXE w.c w.slot (rowRanges j.w.fmtB j.d.w o j.d.cOut j.kLen 0 j.kLen)
  let els := ConvJob.filterElems s1 w.c j o
  let bad := els.any (·.v.isNone)
  let s2 := if bad && !r.said30 then raise s1 bMXE 30 (locCluster w.c) w.slot 0 else s1
  let s2 := if els.any (·.bare) && !r.said31 then raise s2 bMXE 31 (locCluster w.c) w.slot 0 else s2
  let spec := if bad then (List.range (j.kMix * j.bins)).flatMap fun _ => leBytes 4 0x7FC07FC0 else j.spectra (els.map (·.v))
  let s3 := if bad then s2 else notePrep s2 ⟨j.geom, els.map fun e => (e.v.getD Dy.zero).norm, spec⟩
  ⟨{ r with s := s3, said30 := r.said30 || bad, said31 := r.said31 || els.any (·.bare) },
    (j.d.spec + 32 + o * j.kMix * j.bins * 4, spec) :: (if o + 1 = j.d.cOut then [(j.d.spec, j.header)] else [])⟩

/-! ### Units of the frequency path and of PREP -/

/-- A TCONV uses accumulator slots: the direct path, in compute mode. -/
def ConvJob.direct (j : ConvJob) : Bool := !j.freq && j.w.mode == 0

/-- Tiles, or output channels, that the instruction runs one by one. -/
def ConvJob.units (j : ConvJob) : Nat := if j.w.mode = 1 then j.d.cOut else j.tileList.length

/-- Cycles of one of them (R154). -/
def ConvJob.unitCycles (j : ConvJob) : Nat := if j.w.mode = 1 then j.prepCycles else j.freqCycles

/-- Run unit number i. -/
def ConvJob.unitRun (j : ConvJob) (w : RunAt) (i : Nat) (r : RunSt) : UnitOut :=
  if j.w.mode = 1 then j.prepRun w r i else j.tileRun w r (j.tileList.getD i 0)

end Sys2Proof.Machine
end

