-- ==== Sys2Proof/Machine/Ring.lean ====
section
/-! DEFINITION. The key/value ring of a sequence (07 R126-R131, R138): its descriptor, the layout of its planes, and the
changes that the device makes to the descriptor. -/

namespace Sys2Proof.Machine

/-- The ring descriptor (Table 7.3). -/
structure RingDesc where
  kvBase   : Nat
  stats    : Nat
  layers   : Nat
  heads    : Nat
  dim      : Nat
  slots    : Nat
  window   : Nat
  chunk    : Nat
  kFmt     : Nat
  vFmt     : Nat
  head0    : Nat
  tokcap   : Nat
  tokens   : Nat
  lo       : Option Nat
  hi       : Option Nat
  tags     : List Nat
  reserved : Bool
deriving DecidableEq, Repr

/-- Bytes of a ring descriptor. -/
def ringSize : Nat := 0x240

/-- ACTIVE_LO or ACTIVE_HI: all ones for none. -/
def frameOr (n : Nat) : Option Nat := if n = 2 ^ 64 - 1 then none else some n

def ringDesc (bs : List Byte) : RingDesc where
  kvBase := fld bs 0 8
  stats := fld bs 8 8
  layers := fld bs 0x10 2
  heads := fld bs 0x12 1
  dim := 32 * (fld bs 0x13 1 + 1)
  slots := fld bs 0x14 1
  window := fld bs 0x15 1
  chunk := fld bs 0x16 1
  kFmt := fld bs 0x17 1
  vFmt := fld bs 0x18 1
  head0 := fld bs 0x1A 2
  tokcap := fld bs 0x1C 4
  tokens := fld bs 0x20 4
  lo := frameOr (fld bs 0x28 8)
  hi := frameOr (fld bs 0x30 8)
  tags := (List.range 64).map fun i => fld bs (0x40 + 8 * i) 8
  reserved := zeroIn bs 0x19 0x1A && zeroIn bs 0x24 0x28 && zeroIn bs 0x38 0x40

/-! ### Planes (R127, R128) -/

/-- Element width in bits: codes 2, 3, 4 and 5 (BF16). -/
def ringBits (f : Nat) : Nat := if f = 5 then 16 else elemBits f

/-- Payload bytes of a plane. -/
def planePay (d : RingDesc) (f : Nat) : Nat := d.tokcap * d.dim * ringBits f / 8

/-- Bytes of a plane: payload, then one scale byte per block; BF16 has none. -/
def planeBytes (d : RingDesc) (f : Nat) : Nat := planePay d f + (if f = 5 then 0 else d.tokcap * d.dim / 32)

/-- Planes of a kind. -/
def planeCount (d : RingDesc) : Nat := d.layers * d.slots * d.heads

/-- Format of a plane: 0 keys, 1 values. -/
def planeFmt (d : RingDesc) (c : Nat) : Nat := if c = 0 then d.kFmt else d.vFmt

def planeIndex (d : RingDesc) (l f h : Nat) : Nat := (l * d.slots + f % d.slots) * d.heads + h

/-- Address of a plane (R127). -/
def planeAddr (d : RingDesc) (l f h c : Nat) : Nat :=
  if c = 0 then d.kvBase + planeIndex d l f h * planeBytes d d.kFmt
  else d.kvBase + planeCount d * planeBytes d d.kFmt + planeIndex d l f h * planeBytes d d.vFmt

/-- Bytes of the planes alone. -/
def planesBytes (d : RingDesc) : Nat := planeCount d * (planeBytes d d.kFmt + planeBytes d d.vFmt)

/-- Address of a summary byte (R127). -/
def summaryAddr (d : RingDesc) (l f h c : Nat) : Nat := d.kvBase + planesBytes d + 2 * planeIndex d l f h + c

/-- The ring bytes: planes and summaries, rounded up to 32. -/
def ringTotal (d : RingDesc) : Nat := roundUp (planesBytes d + 2 * planeCount d) 32

/-- Bytes of the statistics region (R141), 0 where there is none. -/
def statsTotal (d : RingDesc) : Nat := if d.stats = 0 then 0 else d.layers * d.heads * d.chunk * d.tokcap * 16

/-- The limits of Table 7.3 and of R126. -/
def ringOk (d : RingDesc) : Bool :=
  d.reserved && d.kvBase % 2 ^ 36 == 0 && decide (d.kvBase < 2 ^ 52) && d.stats % 65536 == 0 && decide (d.stats < 2 ^ 52)
    && decide (1 ≤ d.layers ∧ d.layers ≤ 256) && decide (1 ≤ d.heads ∧ d.heads ≤ 64) && decide (d.dim ≤ 256)
    && decide (1 ≤ d.slots ∧ d.slots ≤ 64) && decide (1 ≤ d.window ∧ d.window ≤ d.slots)
    && decide (1 ≤ d.chunk ∧ d.chunk ≤ 8 ∧ d.chunk ≤ d.window)
    && decide (2 ≤ d.kFmt ∧ d.kFmt ≤ 5) && decide (2 ≤ d.vFmt ∧ d.vFmt ≤ 5)
    && d.tokcap % 64 == 0 && decide (64 ≤ d.tokcap ∧ d.tokcap ≤ 1048576)
    && decide (1 ≤ d.tokens ∧ d.tokens ≤ d.tokcap) && decide (ringTotal d ≤ 2 ^ 36)

/-! ### Tags (R129-R131) -/

/-- VALID and the frame of a tag. -/
def tagWord (f : Nat) : Nat := 2 ^ 63 + f % 2 ^ 48

/-- Does slot f mod SLOTS hold frame f with VALID set? -/
def tagHolds (d : RingDesc) (f : Nat) : Bool := d.tags.getD (f % d.slots) 0 == tagWord f

/-- Is a frame of a chunk in refinement: between ACTIVE_LO and the end of the newest chunk? -/
def inRefinement (d : RingDesc) (f : Nat) : Bool :=
  match d.lo, d.hi with
  | some lo, some hi => decide (lo ≤ f ∧ f < hi + d.chunk)
  | _, _ => false

/-- The descriptor of a sequence, where it can be read (R126, 11 R421). -/
def readRing (s : State) (slot : Nat) : Option RingDesc × State :=
  let r := devRead s (.lva ((seqAt s slot).kvDesc.toNat % 2 ^ 52)) ringSize
  (r.1.map ringDesc, r.2)

/-- Write bytes of the descriptor. Where a write fails the sequence departs at the next admit phase with ATT.001 (Table
11.13). -/
def ringPut (s : State) (slot offs : Nat) (bs : List Byte) : State :=
  let r := devWrite s (.lva ((seqAt s slot).kvDesc.toNat % 2 ^ 52 + offs)) bs
  if r.1 then r.2
  else modSeq (raise r.2 bATT 1 (locSlot slot) slot 0) slot fun q => { q with departNext := true }

/-- Every tag cleared, ACTIVE_LO and ACTIVE_HI none (R131). -/
def ringClear (s : State) (slot : Nat) : State :=
  ringPut (ringPut s slot 0x28 (leBytes 16 (2 ^ 128 - 1))) slot 0x40 (List.replicate 512 0)

/-- The summary bytes of a frame's slot go to 0: a pair for each layer and head (R129). -/
def zeroSummaries (s : State) (d : RingDesc) (f : Nat) : State :=
  each (List.range d.layers) (fun s l => devPut s (.lva (summaryAddr d l f 0 0)) (List.replicate (2 * d.heads) 0)) s

/-- May chunk g begin (R129)? -/
def beginOk (d : RingDesc) (g : Nat) : Bool :=
  d.hi.elim true (fun hi => g == hi + d.chunk) && d.lo.elim true (fun lo => decide (g + d.window ≤ lo + d.slots))

/-- Begin chunk g in a ring that allows it. -/
def beginChunk (s : State) (slot : Nat) (d : RingDesc) (g : Nat) : State :=
  let s1 := each (List.range d.chunk) (fun s j =>
    zeroSummaries (ringPut s slot (0x40 + 8 * ((g + j) % d.slots)) (leBytes 8 (tagWord (g + j)))) d (g + j)) s
  let s2 := ringPut s1 slot 0x30 (leBytes 8 g)
  if d.lo.isNone then ringPut s2 slot 0x28 (leBytes 8 g) else s2

/-- End the oldest chunk in refinement (R129). -/
def endChunk (s : State) (slot : Nat) (d : RingDesc) : State :=
  match d.lo with
  | none => s
  | some lo =>
    let next := lo + d.chunk
    ringPut s slot 0x28 (leBytes 8 (if d.hi.elim true (fun hi => decide (hi < next)) then 2 ^ 64 - 1 else next))

/-- Clear VALID in the tags of frames that met an uncorrectable error (R138). -/
def dropBadFrames (s : State) (slot : Nat) : State :=
  let bad := (seqAt s slot).badFrames
  if bad.isEmpty then s
  else
    let r := readRing s slot
    let s1 := match r.1 with
      | none => r.2
      | some d => each bad (fun s f =>
          if tagHolds d f then ringPut s slot (0x40 + 8 * (f % d.slots)) (leBytes 8 (f % 2 ^ 48)) else s) r.2
    modSeq s1 slot fun q => { q with badFrames := [] }

end Sys2Proof.Machine
end

