-- ==== Sys2Proof/Machine/Commands.lean ====
section
/-! DEFINITION. The 64-byte commands of the DMA engines: their fields (07 Table 7.4, 11 Table 11.4, 17 Table 17.5, 18
Table 18.4), the checks made at acceptance (11 R210, 07 R132), and the engine that a thread's command joins. -/

namespace Sys2Proof.Machine

/-! ### Fields -/

/-- The fields of Table 11.4. -/
structure DmaDesc where
  op      : Nat
  cls     : Nat
  srcT0   : Bool
  dstT0   : Bool
  noAlloc : Bool
  rate    : Nat
  cluster : Nat
  src     : Word64
  dst     : Word64
  length  : Nat
  p0      : Nat
  p1      : Nat
  p2      : Nat
  p3      : Nat
deriving DecidableEq, Repr

def dmaDesc (c : DmaCmd) : DmaDesc :=
  { op := cmdOp c, cls := cmdClass c, srcT0 := bitOn (cmdFlags c) 2, dstT0 := bitOn (cmdFlags c) 3,
    noAlloc := bitOn (cmdFlags c) 4, rate := cmdN c 3 1, cluster := cmdN c 6 2, src := BitVec.ofNat 64 (cmdN c 8 8),
    dst := BitVec.ofNat 64 (cmdN c 0x10 8), length := cmdN c 0x18 4, p0 := cmdN c 0x28 4, p1 := cmdN c 0x2C 4,
    p2 := cmdN c 0x30 8, p3 := cmdN c 0x38 8 }

/-- H, W and C of an FMAP command. -/
def DmaDesc.h (d : DmaDesc) : Nat := d.p0 % 65536
def DmaDesc.w (d : DmaDesc) : Nat := d.p0 / 65536
def DmaDesc.c (d : DmaDesc) : Nat := d.p1 % 65536

/-- The fields of Table 7.4. -/
structure KvDesc where
  op     : Nat
  seq    : Nat
  plane  : Nat
  widen  : Nat
  layout : Nat
  head   : Nat
  layer  : Nat
  frame  : Nat
  frameHi : Nat
  t0     : Nat
  tcount : Nat
  cluster : Nat
  base   : Nat
  ld     : Nat
  sbase  : Nat
  sld    : Nat
deriving DecidableEq, Repr

def kvDesc (c : DmaCmd) : KvDesc :=
  { op := cmdOp c, seq := cmdN c 1 1, plane := cmdN c 2 1, widen := cmdN c 3 1, layout := cmdN c 4 1, head := cmdN c 5 1,
    layer := cmdN c 6 2, frame := cmdN c 8 6, frameHi := cmdN c 0xE 2, t0 := cmdN c 0x10 4, tcount := cmdN c 0x14 4,
    cluster := cmdN c 0x18 2, base := cmdN c 0x1C 4, ld := cmdN c 0x20 4, sbase := cmdN c 0x24 4, sld := cmdN c 0x28 4 }

/-! ### Classes (11 Table 11.3) -/

/-- First local engine and engine count of a class. -/
def classEngines : Nat → Nat × Nat
  | 0 => (0, 4)
  | 1 => (4, 4)
  | 2 => (8, 2)
  | 3 => (10, 3)
  | 4 => (13, 1)
  | _ => (14, 2)

/-- The class that an engine serves. -/
def engineClass (e : Nat) : Nat :=
  let k := e % 16
  if k < 4 then 0 else if k < 8 then 1 else if k < 10 then 2 else if k < 13 then 3 else if k = 13 then 4 else 5

/-- The engine that a thread's command joins: 16 q + b + (RANK mod n) (R210). -/
def engineFor (cluster rank cls : Nat) : Nat :=
  16 * (cluster / 36) + (classEngines cls).1 + rank % (classEngines cls).2

/-- Classes whose engines reach host memory (R202). -/
def classHost (cls : Nat) : Bool := cls == 0 || cls == 2 || cls == 5

/-! ### The checks -/

/-- What a check found: a DMA or ATT code, or SEQ.042 with the address. -/
inductive CmdBad where
  | dma (code : Nat)
  | att (code : Nat)
  | index (va : Nat)
deriving DecidableEq, Repr

/-- Is the SEQ field a slot or 0xFF? -/
def seqField (n : Nat) : Bool := decide (n < 32) || n == 255

/-- CPL must carry the own index, and its alignment where it is used (R210; log entry 45). -/
def cplBad (s : State) (c : DmaCmd) (align : Nat) : Bool :=
  gIndex (BitVec.ofNat 64 (cmdCpl c)) != ownIndex s || (bitOn (cmdFlags c) 0 && cmdCpl c % align != 0)

/-- Bytes of cluster store that a side takes, as far as the command's fields give them (R210). -/
def DmaDesc.t0Bytes (d : DmaDesc) : Nat :=
  match d.op with
  | 0x10 => d.length
  | 0x11 => if d.h = 0 then 0 else (d.h - 1) * d.p2 + d.w * posBytes 5 d.c
  | 0x12 => if d.h = 0 then 0 else (d.h - 1) * d.p2 + d.w * posBytes 5 d.c
  | _ => if d.p1 = 0 then 0 else (d.p1 - 1) * 65536 + 1

/-- A side in T0 names no cluster, or runs past the store. -/
def DmaDesc.t0Bad (d : DmaDesc) : Bool :=
  (d.srcT0 || d.dstT0) && decide (143 < d.cluster)
    || (d.srcT0 && decide (csSize < d.src.toNat + d.t0Bytes))
    || (d.dstT0 && decide (csSize < d.dst.toNat + d.t0Bytes))

/-- A field of Table 11.4 that is invalid or reserved. -/
def dmaFieldBad (s : State) (c : DmaCmd) (d : DmaDesc) : Bool :=
  5 < d.cls || 31 < cmdFlags c || !seqField (cmdN c 4 1) || cmdN c 5 1 != 0
    || (if d.op = 0x11 ∨ d.op = 0x12 then d.rate == 0 || 3 < d.rate else d.rate != 0)
    || (d.op == 0x10 && (d.length == 0 || 2 ^ 32 - 32 < d.length))
    || (d.op != 0x14 && d.p3 != 0) || (d.op == 0x13 && d.p2 != 0)
    || d.t0Bad || cplBad s c 16

/-- Does a side outside T0 carry another member's index? -/
def sidePeer (s : State) (t0 : Bool) (a : Word64) : Bool := !t0 && gIndex a != ownIndex s

/-- Is the operation with its sides permitted for its class (Table 11.3, R210)? -/
def dmaAllowed (s : State) (d : DmaDesc) : Bool :=
  let ps := sidePeer s d.srcT0 d.src
  let pd := sidePeer s d.dstT0 d.dst
  match d.cls with
  | 0 => !ps && !pd && !d.srcT0 && (d.op == 0x10 || (d.op == 0x13 && !d.dstT0))
  | 1 => !ps && !pd && ((d.op == 0x10 && (d.srcT0 || d.dstT0)) || (d.op == 0x11 && d.srcT0 && !d.dstT0)
      || (d.op == 0x12 && !d.srcT0 && d.dstT0))
  | 2 => !ps && !pd && ((d.op == 0x10 && !(d.srcT0 && d.dstT0)) || (d.op == 0x13 && !d.srcT0)
      || (d.op == 0x14 && !d.dstT0))
  | 3 => d.op == 0x10 && ps != pd
  | _ => false

/-- The checks of a DMA command of Table 11.4. -/
def dmaCheck (s : State) (thread : Bool) (c : DmaCmd) : Option CmdBad :=
  let d := dmaDesc c
  let far (t0 : Bool) (a : Word64) : Bool := !t0 && decide (sliceSize s ≤ gIndex a)
  if dmaFieldBad s c d then some (.dma 1)
  else if far d.srcT0 d.src || far d.dstT0 d.dst then
    some (if thread then .index (if far d.srcT0 d.src then d.src else d.dst).toNat else .dma 1)
  else if !dmaAllowed s d then some (.dma 2)
  else none

/-- The checks of a codec command (17 Table 17.5). -/
def codCheck (s : State) (thread : Bool) (c : DmaCmd) : Option CmdBad :=
  let op := cmdOp c
  let dir := bitOn (cmdN c 3 1) 6
  if cmdN c 1 1 != 5 then some (if 5 < cmdN c 1 1 then .dma 1 else .dma 2)
  else if (if op = 0x22 then 7 else 3) < cmdFlags c || bitOn (cmdN c 3 1) 7 || (op == 0x22 && dir) || (op == 0x23 && !dir)
      || !seqField (cmdN c 4 1) || cmdN c 5 3 != 0 || (op != 0x23 && cmdN c 0x10 8 != 0) || cmdN c 0x18 4 != 0
      || cmdN c 0x38 8 != 0 || cplBad s c 32 then some (.dma 1)
  else if op != 0x21 && sliceSize s ≤ gIndex (BitVec.ofNat 64 (cmdN c 8 8)) then some (if thread then .index (cmdN c 8 8) else .dma 1)
  else if op != 0x21 && gIndex (BitVec.ofNat 64 (cmdN c 8 8)) != ownIndex s then some (.dma 2)
  else none

/-- The checks of a PLAY command (18 Table 18.4). -/
def playCheck (s : State) (c : DmaCmd) : Option CmdBad :=
  if cmdN c 1 1 != 5 then some (if 5 < cmdN c 1 1 then .dma 1 else .dma 2)
  else if 3 < cmdFlags c || 31 < cmdN c 3 1 || !seqField (cmdN c 4 1) || cmdN c 5 3 != 0 || cmdN c 0x1E 2 != 0
      || cmdN c 0x28 8 != 0 || cmdN c 0x30 8 != 0 || cmdN c 0x38 8 != 0 || 2 ^ 52 ≤ cmdN c 8 8 || cplBad s c 16 then
    some (.dma 1)
  else none

/-- Bytes of cluster store from a base: `rows` rows at a stride. -/
def kvSpan (base ld rows len : Nat) : Bool := decide ((region base ld rows len).2 ≤ csSize)

/-- Rows of the store side and bytes of a row's payload and scales (R133, R135, R136). -/
def kvShape (d : RingDesc) (k : KvDesc) : Nat × Nat × Nat :=
  let f := planeFmt d k.plane
  let n := min k.tcount (d.tokens - k.t0)
  let rows := if k.plane = 0 then n else d.dim
  let len := if k.plane = 0 then d.dim else if f = 5 then n else roundUp n 32
  if k.layout = 1 then (len, 2 * rows, 0)
  else if k.widen = 5 ∨ (k.widen = 15 ∧ f = 5) then (rows, 2 * len, 0)
  else
    let g := if k.widen = 4 then 4 else f
    (rows, cdiv len 32 * payBytes g, cdiv len 32)

/-- An invalid WIDEN or LAYOUT (R132, R135): ATT.004. -/
def kvFormBad (d : RingDesc) (k : KvDesc) : Bool :=
  let f := planeFmt d k.plane
  if k.op = 1 then k.widen != 15 || k.layout != 0
  else (k.widen != 15 && k.widen != 4 && k.widen != 5) || (k.widen == 4 && f == 5) || 1 < k.layout
    || (k.layout == 1 && k.widen != 5)

/-- The checks of a key/value command (07 R132). Fields outside Table 7.4 that R132 does not name fail in the same way
(log entry 44). -/
def kvCheck (s : State) (c : DmaCmd) : Option CmdBad × State :=
  let k := kvDesc c
  if 31 < k.seq || (seqAt s k.seq).state == .free then (some (.att 3), s)
  else
    let r := readRing s k.seq
    match r.1 with
    | none => (some (.att 3), r.2)
    | some d =>
      let sh := kvShape d k
      if 1 < k.plane || d.layers ≤ k.layer || d.heads ≤ k.head || k.t0 % 64 != 0 || !tagHolds d k.frame
          || (k.op == 1 && !inRefinement d k.frame) || k.frameHi != 0 || k.tcount == 0 || d.tokcap < k.t0 + k.tcount
          || 143 < k.cluster || k.base % 32 != 0 || cmdN c 0x1A 2 != 0 || cmdN c 0x2C 8 != 0 || cmdN c 0x34 8 != 0
          || cmdN c 0x3C 4 != 0 || !kvSpan k.base k.ld sh.1 sh.2.1 || !kvSpan k.sbase k.sld sh.1 sh.2.2 then
        (some (.att 3), r.2)
      else if kvFormBad d k then (some (.att 4), r.2)
      else (none, r.2)

/-- The checks of any command at acceptance (R210). -/
def cmdCheck (s : State) (thread : Bool) (c : DmaCmd) : Option CmdBad × State :=
  let op := cmdOp c
  if cmdIsKv c then kvCheck s c
  else if 0x10 ≤ op ∧ op ≤ 0x14 then (dmaCheck s thread c, s)
  else if cmdIsCodec c then (codCheck s thread c, s)
  else if cmdIsPlay c then (playCheck s c, s)
  else (some (.dma 1), s)

/-- A command as accepted. -/
def mkCmd (num : Nat) (raw : BitVec 512) (who : Issuer) (pc : Word64) : DmaCmd where
  num := num
  raw := raw
  issuer := who
  pc := pc
  rank := 0
  pidx := 0
  owner := 255
  target := 0
  done := 0
  faults := 0
  poisoned := 0
  parts := 0
  within := 0
  errAt := none
  started := false

/-- A thread's own slot replaces SEQ in a command of Table 11.4 (R209). -/
def ownSeq (raw : BitVec 512) (seq : Nat) : BitVec 512 :=
  let op := raw.toNat % 256
  if 0x10 ≤ op ∧ op ≤ 0x14 then
    BitVec.ofNat 512 (raw.toNat - (raw.toNat / 2 ^ 32 % 256) * 2 ^ 32 + seq * 2 ^ 32)
  else raw

end Sys2Proof.Machine
end

