-- ==== Sys2Proof/Machine/Wire.lean ====
section
/-! DEFINITION. What the device sends on its Evten links: coordinates and indices (14 R269, R272), routes (R273, R274),
packet headers (R275), flits, credits and arbitration (R264, R278, R279), and the dropping of packets (R280). -/

namespace Sys2Proof.Machine

/-!  Coordinates and indices (R269, R272) -/

/-- Torus size of an axis. -/
def torus (s : State) (j : Nat) : Nat := axisOf s.self.dims j + 1

/-- The block coordinate of an index, before substitutes. -/
def blockCoord (dims : BitVec 16) (r : SliceRec) (i : Nat) : BitVec 16 :=
  let e (j : Nat) := axisOf r.extent j + 1
  let o := [i % e 0, i / e 0 % e 1, i / (e 0 * e 1) % e 2, i / (e 0 * e 1 * e 2) % e 3]
  BitVec.ofNat 16 ((List.range 4).foldl (fun acc j =>
    acc + ((axisOf r.origin j + o.getD j 0) % (axisOf dims j + 1)) * 16 ^ j) 0)

/-- The coordinate of a member: its substitute's where it has been moved. -/
def coordOf (dims : BitVec 16) (r : SliceRec) (i : Nat) : BitVec 16 :=
  match r.subs.find? (·.1 == i) with
  | some x => x.2
  | none => blockCoord dims r i

/-- Offset of a coordinate in the block along an axis; none outside it. -/
def blockOffset (dims : BitVec 16) (r : SliceRec) (c : BitVec 16) (j : Nat) : Option Nat :=
  let n := axisOf dims j + 1
  let d := (axisOf c j + n - axisOf r.origin j % n) % n
  if d ≤ axisOf r.extent j then some d else none

/-- The device index of a coordinate; none where it makes no member (R272). -/
def indexOf (dims : BitVec 16) (r : SliceRec) (c : BitVec 16) : Option Nat :=
  match r.subs.find? (·.2 == c) with
  | some x => some x.1
  | none =>
    match blockOffset dims r c 0, blockOffset dims r c 1, blockOffset dims r c 2, blockOffset dims r c 3 with
    | some a, some b, some g, some d =>
      let e (j : Nat) := axisOf r.extent j + 1
      let i := a + e 0 * (b + e 1 * (g + e 2 * d))
      if r.subs.any (·.1 == i) then none else some i
    | _, _, _, _ => none

/-!  Routes (R273, R274) -/

/-- The shorter way from x to y on a ring of n: true for the - direction, + on a tie. -/
def shorter (x y n : Nat) : Bool := decide ((x + n - y) % n < (y + n - x) % n)

/-- The default direction on an axis to a member coordinate. -/
def defaultDir (s : State) (r : SliceRec) (toSub : Bool) (dst : BitVec 16) (j : Nat) : Bool :=
  let x := axisOf s.self.coord j
  let y := axisOf dst j
  let n := torus s j
  if toSub || axisOf r.extent j + 1 == n then shorter x y n
  else
    match blockOffset s.self.dims r s.self.coord j, blockOffset s.self.dims r dst j with
    | some a, some b => decide (b < a)
    | _, _ => shorter x y n

/-- DIRS and ORDER for a destination index: the direction table's byte, or the default rule. -/
def routeTo (s : State) (r : SliceRec) (i : Nat) : Nat × Bool :=
  match s.self.dirs[i]? with
  | some b => (b.toNat % 16, b.getLsbD 4)
  | none =>
    let dst := coordOf s.self.dims r i
    let sub := r.subs.any (·.1 == i)
    ((List.range 4).foldl (fun acc j => acc + (defaultDir s r sub dst j).toNat * 2 ^ j) 0, false)

/-- The axis that a packet travels next: A to D in order 0, D to A in order 1; none at its destination. -/
def nextAxis (cur dst : BitVec 16) (order : Bool) : Option Nat :=
  (if order then [3, 2, 1, 0] else [0, 1, 2, 3]).find? fun j => axisOf cur j != axisOf dst j

/-- The neighbour port of an axis and a direction bit. -/
def portOf (axis : Nat) (minus : Bool) : Nat := 2 * axis + minus.toNat

/-- The dateline lane on the link that a packet leaves by: 1 once it has crossed between the last coordinate and 0. -/
def datelineLane (src cur : BitVec 16) (axis : Nat) (minus : Bool) : Bool :=
  if minus then decide (axisOf src axis < axisOf cur axis) else decide (axisOf cur axis < axisOf src axis)

/-!  Flits (R264, R278, R279) -/

/-- Index of a lane among the 28. -/
def laneIdx (cls : Nat) (order lane : Bool) : Nat := 4 * cls + 2 * order.toNat + lane.toNat

/-- Pool of a class in flits (Table 14.5, image parameters). -/
def poolOf (s : State) (cls : Nat) : Nat := param s (0x043 + cls)

/-- Flits in flight of a lane, and what a class uses of the shared part of its pool. -/
def laneUse (l : LinkSt) (i : Nat) : Nat := l.inFlight.getD i 0
def sharedUse (l : LinkSt) (cls : Nat) : Nat :=
  (List.range 4).foldl (fun n k => n + (laneUse l (4 * cls + k) - 16)) 0

/-- There is a credit for a flit of a class and lane: in the lane's own 16, or in the shared rest (R278). -/
def hasCredit (s : State) (l : LinkSt) (f : TxFlit) : Bool :=
  let i := laneIdx f.cls f.order f.lane
  decide (laneUse l i < 16) || decide (sharedUse l f.cls + 64 < poolOf s f.cls)

/-- The first waiting flit of a class that has a credit. -/
def flitOf (s : State) (l : LinkSt) (cls : Nat) : Option TxFlit :=
  (l.txQ.filter fun f => f.cls == cls).find? fun f => hasCredit s l f

/-- The next transit flit: the packet under way goes on; else the input ports have their turns, each with the flit that came
first (R279). -/
def transitFlit (s : State) (l : LinkSt) : Option TxFlit :=
  (if l.tOpen then [l.tPort] else (List.range 9).map fun i => (l.tPort + 1 + i) % 9).findSome? fun p =>
    (l.txQ.find? fun f => f.cls == 4 && f.port == p).filter fun f => hasCredit s l f

/-- Weight of a job class in the round robin. -/
def weightOf (s : State) (cls : Nat) : Nat :=
  match cls with
  | 0 => param s 0x04A
  | 1 => param s 0x04B
  | 2 => param s 0x04C
  | 3 => param s 0x04D
  | 5 => param s 0x04E
  | _ => 1

/-- The round of the job classes: each has as many turns as its weight. -/
def jobWheel (s : State) : List Nat := [0, 1, 2, 3, 5].flatMap fun c => List.replicate (weightOf s c) c

/-- The job class whose turn comes first among those that can send, and the turn after it: the turns of a class that cannot
send are passed over. -/
def jobTurn (s : State) (l : LinkSt) (can : Nat → Bool) : Option (Nat × Nat) :=
  let w := jobWheel s
  let k := l.rrNext % max 1 w.length
  ((w.drop k ++ w.take k).findIdx? can).map fun i => (w.getD ((k + i) % max 1 w.length) 0, k + i + 1)

/-- The flit slot that stands now: one passes every 1.2096 ns (R263). -/
def slotNow (s : State) : Nat := s.time * 10000 / 12096

/-- What a link sends next: the flit, its slot, and the job turn that follows. -/
structure Turn where
  flit : TxFlit
  slot : Nat
  rr   : Nat
deriving DecidableEq, Repr

/-- The flit that a link sends next (R279): control where none went in the 63 slots before, transit within its share of the
last 256 slots, the job classes, then transit. Where only control waits, idle slots pass until it may go. -/
def nextTurn (s : State) (l : LinkSt) : Option Turn :=
  let cur := max l.slotNo (slotNow s)
  let free6 := (l.slots.find? (·.2 == 6)).elim cur fun x => max cur (x.1 + 64)
  let sent4 := (l.slots.filter fun x => x.2 == 4 && decide (cur ≤ x.1 + 256)).length
  let c6 := flitOf s l 6
  let c4 := transitFlit s l
  let go (slot : Nat) (f : TxFlit) : Turn := ⟨f, slot, l.rrNext⟩
  match (if free6 = cur then c6 else none), (if sent4 < 4 * param s 0x042 then c4 else none) with
  | some f, _ => some (go cur f)
  | none, some f => some (go cur f)
  | none, none =>
    match jobTurn s l fun c => (flitOf s l c).isSome with
    | some (c, rr) => (flitOf s l c).map fun f => ⟨f, cur, rr⟩
    | none => (c4.map (go cur)).or (c6.map (go free6))

/-- The bits of a flit (Tables 14.1 and 14.2), with the acknowledgement and the credits that ride with it. -/
def flitBits (fseq ack : BitVec 12) (cls : Nat) (cr : Nat × Nat) (kind : Nat) (sop eop lane order : Bool)
    (pay : BitVec 1936) : BitVec 2048 :=
  let hdr := order.toNat * 2 + lane.toNat * 4 + eop.toNat * 8 + sop.toNat * 16 + kind * 2 ^ 5 + cr.2 * 2 ^ 7
    + (cr.1 / 2 % 2) * 2 ^ 16 + (cr.1 / 4) * 2 ^ 17 + (cr.1 % 2) * 2 ^ 20 + cls * 2 ^ 21 + ack.toNat * 2 ^ 24
    + fseq.toNat * 2 ^ 36
  let body := leBytes 248 (hdr + pay.toNat * 2 ^ 48)
  BitVec.ofNat 2048 (ofLE body + (crc64 body).toNat * 2 ^ 1984)

/-- Credits that a flit returns: the first lane that owes any, at most 511. -/
def creditsDue (l : LinkSt) : Nat × Nat :=
  match l.owed.findIdx? (0 < ·) with
  | some i => (i, min 511 (l.owed.getD i 0))
  | none => (0, 0)

/-- Put a flit on the wire: it takes the FSEQ and a slot, acknowledges, returns credits, and is kept for replay (R265). -/
def putFlit (s : State) (k slot cls kind : Nat) (sop eop lane order : Bool) (pay : BitVec 1936) : State :=
  let l := linkAt s k
  let cr := creditsDue l
  let f := flitBits l.txSeq (l.rxSeq - 1) cls cr kind sop eop lane order pay
  let s1 := modLink s k fun l => { l with
    txSeq := l.txSeq + 1
    replay := l.replay ++ [(l.txSeq, f)]
    owed := l.owed.modify cr.1 (· - cr.2)
    slots := (slot, cls) :: l.slots.filter fun x => slot < x.1 + 256
    slotNo := slot + 1 }
  emit (ctrAdd s1 (ctrLink k 0) 1) (.flit k f)

/-- Send one waiting flit of a link in its turn. -/
def sendFlit (s : State) (k : Nat) (t : Turn) : State :=
  let f := t.flit
  let s1 := modLink s k fun l => { l with
    inFlight := l.inFlight.modify (laneIdx f.cls f.order f.lane) (· + 1)
    txQ := l.txQ.erase f
    rrNext := t.rr
    tPort := if f.cls = 4 then f.port else l.tPort
    tOpen := if f.cls = 4 then !f.eop else l.tOpen }
  putFlit (if f.cls = 4 then ctrAdd s1 (ctrLink k 5) 1 else s1) k t.slot f.cls 0 f.sop f.eop f.lane f.order f.pay

/-- May a link send: it is active, and its replay buffer has room (R265)? -/
def maySend (l : LinkSt) : Bool := l.active && decide (l.replay.length < 2048)

/-- A flit without a packet: KIND 1 null or 2 retry request, in class 7. -/
def sendBare (s : State) (k kind : Nat) : State :=
  let l := linkAt s k
  if maySend l then putFlit s k (max l.slotNo (slotNow s)) 7 kind false false false false 0 else s

/-- Send what may be sent on a link; the number of waiting flits is fuel enough. A slot with a flit waiting and no credit
is counted once (21 Table 21.1). -/
def drainLink (k : Nat) : Nat → State → State
  | 0, s => s
  | n + 1, s =>
    let l := linkAt s k
    if !maySend l then s
    else
      match nextTurn s l with
      | some t => drainLink k n (sendFlit s k t)
      | none => if l.txQ.isEmpty then s else ctrAdd s (ctrLink k 6) 1

def drain (s : State) (k : Nat) : State := drainLink k (linkAt s k).txQ.length s

/-!  Packets (R267, R275, R276, R280) -/

/-- The header of Table 14.4; bits [127:80] belong to the class's user. -/
def packetHeader (dst src slice : BitVec 16) (dirs pclass : Nat) (order : Bool) (len : Nat) (pseq : BitVec 16) (user : Nat) :
    BitVec 128 :=
  BitVec.ofNat 128 (dst.toNat + src.toNat * 2 ^ 16 + slice.toNat * 2 ^ 32 + dirs * 2 ^ 48 + pclass * 2 ^ 52
    + order.toNat * 2 ^ 55 + len * 2 ^ 56 + pseq.toNat * 2 ^ 64 + user * 2 ^ 80)

def hdrDst (h : BitVec 128) : BitVec 16 := h.extractLsb' 0 16
def hdrSrc (h : BitVec 128) : BitVec 16 := h.extractLsb' 16 16
def hdrSlice (h : BitVec 128) : BitVec 16 := h.extractLsb' 32 16
def hdrDirs (h : BitVec 128) : Nat := (h.extractLsb' 48 4).toNat
def hdrClass (h : BitVec 128) : Nat := (h.extractLsb' 52 3).toNat
def hdrOrder (h : BitVec 128) : Bool := h.getLsbD 55
def hdrPseq (h : BitVec 128) : BitVec 16 := h.extractLsb' 64 16

/-- The active links of a port. -/
def activeLinks (s : State) (p : Nat) : List Nat := [p, p + 8, p + 16, p + 24].filter fun k => (linkAt s k).active

/-- The link that takes a packet: the active one with fewest unacknowledged flits, the lowest number on a tie (R267). -/
def pickLink (s : State) (p : Nat) : Option Nat :=
  (activeLinks s p).foldl (fun best k =>
    match best with
    | none => some k
    | some b => if (linkAt s k).replay.length < (linkAt s b).replay.length then some k else some b) none

/-- A packet is dropped at a port that is down or fenced: LNK.032 at most once per port per millisecond (R280). -/
def dropAt (s : State) (p : Nat) : State :=
  let s1 := ctrAdd s (ctrPort p 0) 1
  if (portAt s1 p).lastDrop.elim true (fun t => t + 1000000 ≤ s1.time) then
    raise (modPort s1 p fun q => { q with lastDrop := some s1.time }) bLNK 32 (locPort p) noSeq 0
  else s1

/-- The flits of a packet that came in by a port: 242 bytes each. -/
def flitsOf (port cls : Nat) (order lane : Bool) (bytes : List Byte) : List TxFlit :=
  let n := max 1 (cdiv bytes.length 242)
  (List.range n).map fun i =>
    { port := port, cls := cls, order := order, lane := lane, sop := i == 0, eop := i + 1 == n,
      pay := BitVec.ofNat 1936 (ofLE ((bytes.drop (242 * i)).take 242)) }

/-- Send a packet, which came in by port `from'`, out of a port in a buffer class. It takes the port's next PSEQ of its
class. -/
def sendOut (s : State) (from' p cls : Nat) (hdr : BitVec 128) (lane : Bool) (payload : List Byte) : State :=
  match (portAt s p).state, pickLink s p with
  | .up, some k =>
    let pseq := ((portAt s p).txPseq).getD (hdrClass hdr) 0
    let h := BitVec.ofNat 128 (hdr.toNat - (hdrPseq hdr).toNat * 2 ^ 64 + pseq.toNat * 2 ^ 64)
    let s1 := modPort s p fun q => { q with txPseq := q.txPseq.modify (hdrClass hdr) (· + 1) }
    let s2 := modLink s1 k fun l => { l with
      txQ := l.txQ ++ flitsOf from' cls (hdrOrder hdr) lane (leBytes 16 h.toNat ++ payload) }
    drain s2 k
  | _, _ => dropAt s p

/-- Forward or send a packet on its way from a coordinate that this device has. -/
def sendOn (s : State) (from' cls : Nat) (hdr : BitVec 128) (payload : List Byte) : State :=
  match nextAxis s.self.coord (hdrDst hdr) (hdrOrder hdr) with
  | none => s
  | some j =>
    let minus := (hdrDirs hdr).testBit j
    sendOut s from' (portOf j minus) cls hdr (datelineLane (hdrSrc hdr) s.self.coord j minus) payload

/-- Data bytes of a body whose header the spec does not lay out. -/
def bodyData : Body → List Byte
  | .memRequest _ _ _ _ d => d
  | .memResponse _ _ d => d
  | .mirrorData _ _ p => p.bytes
  | .snapshotData _ _ d => d
  | .restoreData _ _ _ d => d
  | _ => []

/-- The payload of a packet: a shard's header and data (15 R289); else 32 bytes in the class's own layout, which is not given
and free (log entry 23), before the data. -/
def bodyBytes (s : State) : Body → List Byte
  | .shard x =>
    leBytes 4 x.shseq.toNat ++ leBytes 4 x.tick.toNat ++ leBytes 4 x.offs.toNat ++ leBytes 4 x.crc.toNat ++ x.data.take 3840
  | b => (List.range 32).map (Config.bodyByte s.free) ++ (bodyData b).take 3824

/-- Bits [127:80] of a packet header: CID of a shard (15 R289), else not given and free (log entry 23). -/
def bodyUser (s : State) : Body → Nat
  | .shard x => x.cid.toNat
  | _ => Config.freeNat s.free 232 % 2 ^ 48

/-- Inject a packet to a member of the slice in a class (R273, R275, R276): it leaves as an output and as flits. -/
def inject (s : State) (dstIdx pclass : Nat) (b : Body) : State :=
  match s.self.slice with
  | none => s
  | some r =>
    if !s.self.member then s
    else
      let dst := coordOf s.self.dims r dstIdx
      let rt := routeTo s r dstIdx
      let payload := bodyBytes s b
      let len := cdiv (16 + payload.length) 242 - 1
      let h := packetHeader dst s.self.coord s.self.sliceId rt.1 pclass rt.2 len 0 (bodyUser s b)
      sendOn (emit (drew s) (.packet dstIdx h b)) 8 pclass h payload

/-- Members of the slice other than this device. -/
def peers (s : State) : List Nat := (List.range (sliceSize s)).filter (· != ownIndex s)

end Sys2Proof.Machine
end

