-- ==== Sys2Proof/Machine/Work.lean ====
section
/-! DEFINITION. How a work item ends (13 R249): its DONE, its compiled cost, the first refinement pass (05 R95); and the
barriers of its threads (09 R171, R175). -/

namespace Sys2Proof.Machine

/-- An item leaves the list with bit k of DONE. -/
def itemEnd (s : State) (slot num k : Nat) : State :=
  match itemOf s slot num with
  | none => s
  | some i => removeItem (writeDone s i k) slot num

/-- An item completes: all its threads have exited. The first full refinement pass has ended where no item is left on the
list (05 R95, log entry 46). -/
def itemDone (s : State) (slot num : Nat) : State :=
  match itemOf s slot num with
  | none => s
  | some i =>
    let s1 := itemEnd (noteCharge s slot) slot num 0
    modSeq s1 slot fun q => { q with
      doneCost := q.doneCost + i.costNs
      passDone := q.passDone || (!q.history && q.items.isEmpty) }

/-- Threads of an item that a cluster still has. -/
def liveOn (cl : ClusterSt) (num : Nat) : Nat := (cl.threads.filter fun h => ofItem h num).length

/-- Threads of an item on the device, and those in its saved images. -/
def liveAll (s : State) (i : Item) : Nat :=
  (s.cl.map fun cl => liveOn cl i.num).sum + (i.saves.map (·.threads.length)).sum

/-- Does a thread wait at this barrier of its item? -/
def atBarrier (num : Nat) (scope : Bool) (id : Nat) (h : Thread) : Bool :=
  ofItem h num &&
    (match h.wait with
     | .barrier w i _ => w == scope && i == id
     | _ => false)

/-- Threads at a barrier: those of the cluster for scope 0; for scope 1 those of every cluster, saved ones too. -/
def arrived (s : State) (i : Item) (c : Nat) (scope : Bool) (id : Nat) : List Thread :=
  if scope then
    s.cl.flatMap (fun cl => cl.threads.filter (atBarrier i.num scope id))
      ++ i.saves.flatMap fun m => (m.threads.map (·.2)).filter (atBarrier i.num scope id)
  else (clAt s c).threads.filter (atBarrier i.num scope id)

/-- The count that a waiting thread executed BAR with. -/
def barCount (h : Thread) : Option Nat :=
  match h.wait with
  | .barrier _ _ n => some n
  | _ => none

/-- Release the threads at a barrier of an item of a slot. -/
def release (s : State) (slot : Nat) (i : Item) (c : Nat) (scope : Bool) (id : Nat) : State :=
  let go (h : Thread) : Thread := if atBarrier i.num scope id h then unwait h else h
  if scope then
    modItem { s with cl := s.cl.map fun cl => { cl with threads := cl.threads.map go } } slot i.num fun i =>
      { i with saves := i.saves.map fun m => { m with threads := m.threads.map fun p => (p.1, go p.2) } }
  else modCl s c fun cl => { cl with threads := cl.threads.map go }

/-- Release a barrier where its count has arrived, or where threads of its scope have exited and every thread left waits at
it (R171, R175: a barrier never waits for a thread that has exited). -/
def settleBarrier (s : State) (slot num c : Nat) (scope : Bool) (id : Nat) : State :=
  match itemOf s slot num with
  | none => s
  | some i =>
    let l := arrived s i c scope id
    let left := if scope then liveAll s i else liveOn (clAt s c) num
    let full := if scope then i.nthr * i.clusters else i.nthr
    match l.head?.bind barCount with
    | none => s
    | some n =>
      if n ≤ l.length || (left < full && left ≤ l.length) then release s slot i c scope id else s

/-- The barriers that some thread of an item waits at: cluster, scope, id. -/
def openBarriers (s : State) (num : Nat) : List (Nat × Bool × Nat) :=
  (List.range s.cl.length).flatMap fun c =>
    (clAt s c).threads.filterMap fun h =>
      match ofItem h num, h.wait with
      | true, .barrier w id _ => some (c, w, id)
      | _, _ => none

/-- A thread exits: its barriers no longer wait for it, and the last exit completes the item (R170, R175, 13 R249). -/
def threadExit (s : State) (c t : Nat) : State :=
  let h := thrAt s c t
  let s1 := modThr s c t fun h => { h with state := .exited, wait := .none }
  let s2 := each (openBarriers s1 h.item) (fun s b => settleBarrier s h.seq h.item b.1 b.2.1 b.2.2) s1
  match itemOf s2 h.seq h.item with
  | none => s2
  | some i => if liveAll s2 i = 0 then itemDone s2 h.seq h.item else s2

/-- A thread whose request to a peer was answered goes on, and one that waits to exit exits (Table 9.3). -/
def t4Settle (s : State) (c t item : Nat) : State :=
  let h := thrAt s c t
  if isOn s c t item && h.state == .waiting && h.wait == .exitFence && !t4Busy s c t item then threadExit s c t
  else wake s c t item

end Sys2Proof.Machine
end

