-- ==== Sys2Proof/Machine/Threads.lean ====
section
/-! DEFINITION. The thread-control, memory and command-issuing instructions (09 Table 9.3, R168-R175; 11 R210). -/

namespace Sys2Proof.Machine

/-- Fields of a scalar word below OPC. -/
def wReg (w : BitVec 56) (hi lo : Nat) : Nat := bits w.toNat hi lo

/-! ### Barriers and fences -/

/-- BAR (R171). A scope above 1 is no instruction (SEQ.040, log entry 47). WHERE names the byte of the word that holds the
scope, or the count. -/
def bar (w : BitVec 56) (c t : Nat) (pc : Word64) (s : State) : State :=
  let h := thrAt s c t
  let scope := wReg w 55 54
  let id := wReg w 53 48
  let count := wReg w 47 32
  if 1 < scope then threadFault s c t pc bSEQ 40 0 6
  else
    match itemOf s h.seq h.item with
    | none => s
    | some i =>
      if (arrived s i c (scope == 1) id).any fun x => barCount x != some count then threadFault s c t pc bSEQ 44 0 4
      else settleBarrier (wait s c t (.barrier (scope == 1) id count)) h.seq h.item c (scope == 1) id

def execBar (c : Cluster) (w : BitVec 56) (s : State) : Host.Outcome State Fault Refusal := 
  .next (issue s c 8 (fun t pc s => bar w c t pc s))

/-- MFENCE: every earlier access has completed at its home; only requests to peers can be open here. -/
def mfence (c t : Nat) (s : State) : State :=
  let h := thrAt s c t
  if t4Busy s c t h.item then wait s c t .mfence else s

def execMfence (c : Cluster) (_w : BitVec 56) (s : State) : Host.Outcome State Fault Refusal :=
  .next (issue s c 8 (fun t _ s => mfence c t s))

/-- TFENCE: the thread gives up its cluster for the rest of the tick, and goes on in the next window in which its item is placed
and what it waits for is done (R173). -/
def execTfence (c : Cluster) (_w : BitVec 56) (s : State) : Host.Outcome State Fault Refusal :=
  .next (issue s c 8 (fun t _ s => wait s c t .tfence))

/-- DWAIT: until every earlier command of the thread has completed (11 R210). -/
def dwait (c t : Nat) (s : State) : State :=
  let h := thrAt s c t
  if (liveCmds s).any (byThread c t h.item) then wait s c t .dwait else s

def execDwait (c : Cluster) (_w : BitVec 56) (s : State) : Host.Outcome State Fault Refusal :=
  .next (issue s c 8 (fun t _ s => dwait c t s))

/-- CWAIT: until every earlier collective of the thread has completed locally (15 R283). -/
def cwait (c t : Nat) (s : State) : State :=
  let h := thrAt s c t
  if colBusy s c t h.item then wait s c t .cwait else s

def execCwait (c : Cluster) (_w : BitVec 56) (s : State) : Host.Outcome State Fault Refusal :=
  .next (issue s c 8 (fun t _ s => cwait c t s))

/-- SUSP: SEQ.040 with CODE 0xFFFF. -/
def execSusp (c : Cluster) (_w : BitVec 56) (s : State) : Host.Outcome State Fault Refusal :=
  .next (issue s c 8 (fun t pc s => threadFault s c t pc bSEQ 40 0xFFFF))

/-- EXIT: waits as MFENCE, then exits. -/
def exitThread (c t : Nat) (s : State) : State :=
  if t4Busy s c t (thrAt s c t).item then wait s c t .exitFence else threadExit s c t

def execExit (c : Cluster) (_w : BitVec 56) (s : State) : Host.Outcome State Fault Refusal :=
  .next (issue s c 8 (fun t _ s => exitThread c t s))

/-! ### The own cluster store -/

/-- Size code of LDS and STS. -/
def lsSize (w : BitVec 56) : Nat := 2 ^ wReg w 41 40

/-- The offset of LDS or STS, or the code of its fault: misaligned SEQ.041, beyond the store SEQ.040 (log entry 47). -/
def lsPlace (h : Thread) (w : BitVec 56) : Nat ⊕ Nat :=
  let a := (reg h (wReg w 51 47)).toNat
  if a % lsSize w ≠ 0 then .inl 41 else if csSize < a + lsSize w then .inl 40 else .inr a

/-- A load that receives poison terminates its work item, with the place of the poison (10 R186). -/
def poisonEnd (s : State) (c t : Nat) (pc : Word64) (num place : Nat) : State := threadEnd s c t pc bMEM num place

/-- LDS. -/
def lds (w : BitVec 56) (c t : Nat) (pc : Word64) (s : State) : State :=
  let h := thrAt s c t
  match lsPlace h w with
  | .inl code => threadFault s c t pc bSEQ code 0 (reg h (wReg w 51 47)).toNat
  | .inr a =>
    if csBadRange s c a (lsSize w) then poisonEnd s c t pc 3 a
    else modThr s c t fun h => setReg h (wReg w 46 42) (BitVec.ofNat 64 (ofLE (csBytes s c a (lsSize w))))

def execLds (c : Cluster) (w : BitVec 56) (s : State) : Host.Outcome State Fault Refusal :=
  .next (issue s c 8 (fun t pc s => lds w c t pc s))

/-- STS. -/
def sts (w : BitVec 56) (c t : Nat) (pc : Word64) (s : State) : State :=
  let h := thrAt s c t
  match lsPlace h w with
  | .inl code => threadFault s c t pc bSEQ code 0 (reg h (wReg w 51 47)).toNat
  | .inr a => csWrite s c a (leBytes (lsSize w) (reg h (wReg w 46 42)).toNat)

def execSts (c : Cluster) (w : BitVec 56) (s : State) : Host.Outcome State Fault Refusal :=
  .next (issue s c 8 (fun t pc s => sts w c t pc s))

/-! ### Global memory (R167-R172, 10 R183, R186, 14 R275) -/

/-- Send a memory request to a peer and remember it until its answer (11 R223, 14 R280). -/
def t4Send (s : State) (who : Requester) (item dst : Nat) (op : MemOp) (va size : Nat) (data : List Byte)
    (pc : Word64) : State :=
  let req := s.xlt.nextReq
  let r : T4Req := ⟨req, who, item, dst, op, va, (chunks va size).length, data, none, s.time, size, pc⟩
  let s1 := { s with xlt := { s.xlt with nextReq := req + 1, t4 := s.xlt.t4 ++ [r] } }
  inject s1 dst 2 (.memRequest req op va r.sectors data)

/-- The memory event of a poisoned read: MEM.002 where the read found the error, MEM.003 where the sector was poisoned. -/
def poisonNum (before : State) (pa : Nat) : Nat := if before.mem.poison.contains (pa / 32) then 3 else 2

/-- Where a thread's access goes: refused by its index, to a peer, or to a place here. -/
inductive AccPlace where
  | refused
  | peer (dst va : Nat)
  | here (x : Xl)
deriving DecidableEq, Repr

/-- Resolve the address of a scalar access (R168). -/
def accPlace (s : State) (c : Nat) (a : Word64) (need : Need) : AccPlace × State :=
  if sliceSize s ≤ gIndex a then (.refused, s)
  else if gIndex a ≠ ownIndex s then (.peer (gIndex a) (gLocal a), s)
  else let r := translate s (gLocal a) need false (c / 36); (.here r.1, r.2)

/-- An earlier access of the thread to one of these bytes of a peer is not answered: this one waits for it and is made again,
since a thread's accesses to one address take effect in program order (R170). -/
def t4Before (s : State) (c t item dst va n : Nat) : Bool :=
  s.xlt.t4.any fun r => r.who == .thread c t item && r.dst == dst && decide (r.va < va + n ∧ va < r.va + r.size)

def t4Again (s : State) (c t : Nat) (pc : Word64) : State :=
  modThr (wait s c t .mfence) c t fun h => { h with pc := pc }

/-- A scalar load or store (R168, R170). -/
def scalar (a : ScalarAcc) (c t : Nat) (pc : Word64) (s : State) : State :=
  let h := thrAt s c t
  let me := Requester.thread c t h.item
  let data := leBytes a.size (reg h a.reg).toNat
  if a.addr.toNat % a.size ≠ 0 then threadFault s c t pc bSEQ 41 0 a.addr.toNat
  else
    let r := accPlace s c a.addr (if a.store then .w else .r)
    match r.1 with
    | .refused => threadFault s c t pc bSEQ 42 0 a.addr.toNat
    | .peer dst va =>
      if t4Before s c t h.item dst va a.size then t4Again s c t pc
      else if a.store then t4Send s me h.item dst .write va a.size data pc
      else
        let s1 := wait s c t (.t4 s.xlt.nextReq a.reg)
        t4Send s1 me h.item dst .read va a.size [] pc
    | .here (.stack pa) =>
      if a.store then writePA r.2 pa data
      else
        let x := readPA r.2 pa a.size
        if x.1.poison then poisonEnd x.2 c t pc (poisonNum r.2 pa) x.1.detail.toNat
        else modThr x.2 c t fun h => setReg h a.reg (BitVec.ofNat 64 (ofLE x.1.bytes))
    | .here x => threadXl r.2 c t pc 0 (gLocal a.addr) x

def execScalarAccess (c : Cluster) (a : ScalarAcc) (s : State) : Host.Outcome State Fault Refusal :=
  .next (issue s c 8 (fun t pc s => scalar a c t pc s))

/-- The new value of an ATOM (Table 9.3). `cmp` is the compare value of compare-and-swap. -/
def atomOp (op : Nat) (old x cmp : Word64) : Word64 :=
  match op with
  | 0 => old + x
  | 1 => if old.toNat < x.toNat then x else old
  | 2 => if x.toNat < old.toNat then x else old
  | 3 => x
  | _ => if old = cmp then x else old

/-- ATOM. An op above 4 is no instruction (SEQ.040, log entry 47). The spec names no register for the compare value of
compare-and-swap: it is a free value (log entry 48). -/
def atom (w : BitVec 56) (c t : Nat) (pc : Word64) (s0 : State) : State :=
  let h := thrAt s0 c t
  let op := wReg w 55 52
  let a := reg h (wReg w 51 47)
  let x := reg h (wReg w 46 42)
  let rd := wReg w 41 37
  if 4 < op then threadFault s0 c t pc bSEQ 40 0 6
  else if a.toNat % 8 ≠ 0 then threadFault s0 c t pc bSEQ 41 0 a.toNat
  else
    let cmp := BitVec.ofNat 64 (drawn s0 172)
    let s := if op = 4 then drew s0 else s0
    let r := accPlace s c a .rw
    match r.1 with
    | .refused => threadFault s c t pc bSEQ 42 0 a.toNat
    | .peer dst va =>
      if t4Before s c t h.item dst va 8 then t4Again s c t pc else
      let s1 := wait s c t (.t4 s.xlt.nextReq (Fin.ofNat 32 rd))
      t4Send s1 (.thread c t h.item) h.item dst (.atom (BitVec.ofNat 4 op) x cmp) va 8 [] pc
    | .here (.stack pa) =>
      let y := atomPA r.2 pa fun old => atomOp op old x cmp
      if y.1.poison then poisonEnd y.2 c t pc (poisonNum r.2 pa) y.1.detail.toNat
      else modThr y.2 c t fun h => setReg h rd (BitVec.ofNat 64 (ofLE y.1.bytes))
    | .here z => threadXl r.2 c t pc 0 (gLocal a) z

def execAtom (c : Cluster) (w : BitVec 56) (s : State) : Host.Outcome State Fault Refusal :=
  .next (issue s c 8 (fun t pc s => atom w c t pc s))

/-! ### DQ (11 R210) -/

/-- The fault that a failed check gives the issuing thread. -/
def cmdFault (s : State) (c t : Nat) (pc : Word64) : CmdBad → State
  | .dma n => threadFault (drew s) c t pc bDMA n 0 (drawn s 422 % 2 ^ 64)
  | .att n => threadFault (drew s) c t pc bATT n 0 (drawn s 422 % 2 ^ 64)
  | .index a => threadFault s c t pc bSEQ 42 0 a

/-- An accepted command joins its engine's queue. -/
def enqueue (s : State) (e : Nat) (c : DmaCmd) : State :=
  modEng { s with nextNum := s.nextNum + 1 } e fun g => { g with thrQ := g.thrQ ++ [c] }

/-- DQ: the command is read from the store and checked; it joins its engine, or the thread waits while that is full. An
offset that is not a multiple of 64 gives SEQ.041, one beyond the store SEQ.040 (log entry 47). -/
def dq (w : BitVec 56) (c t : Nat) (pc : Word64) (s : State) : State :=
  let h := thrAt s c t
  let a := (reg h (wReg w 51 47)).toNat
  if a % 64 ≠ 0 then threadFault s c t pc bSEQ 41 0 a
  else if csSize < a + 64 then threadFault s c t pc bSEQ 40 0 a
  else if csBadRange s c a 64 then poisonEnd s c t pc 3 a
  else
    let raw := ownSeq (BitVec.ofNat 512 (ofLE (csBytes s c a 64))) h.seq
    let k := { mkCmd s.nextNum raw (.thread c t h.item) pc with
      rank := h.rank, pidx := h.pidx, owner := h.seq, target := (itemOf s h.seq h.item).elim 0 (·.target) }
    let e := engineFor c h.rank (cmdClass k)
    if 256 ≤ (engAt s e).thrQ.length then setPc (wait s c t (.dqFull e)) c t pc
    else
      let r := cmdCheck s true k
      match r.1 with
      | some bad => cmdFault r.2 c t pc bad
      | none => enqueue r.2 e k

/-- Threads that stood at a full engine issue their DQ again. -/
def wakeFull (s : State) (e : Nat) : State :=
  let go (h : Thread) : Thread := if h.state == .waiting && h.wait == .dqFull e then unwait h else h
  { s with cl := s.cl.map fun cl => { cl with threads := cl.threads.map go } }

def execDq (c : Cluster) (w : BitVec 56) (s : State) : Host.Outcome State Fault Refusal :=
  .next (issue s c 8 (fun t pc s => dq w c t pc s))

end Sys2Proof.Machine
end

