-- ==== Sys2Proof/Machine/Zstd.lean ====
section
/-! DEFINITION. The Zstandard frames of the host tier (11 R206, R207; IETF RFC 8878, log entry 20): the header's subset, raw
and repeated blocks, the content's checksum (XXH64), and the stored frame. What a compressed block decodes to is free, held
to its sizes. -/

namespace Sys2Proof.Machine

/-! ### XXH64 -/

def xxP1 : BitVec 64 := 0x9E3779B185EBCA87
def xxP2 : BitVec 64 := 0xC2B2AE3D27D4EB4F
def xxP3 : BitVec 64 := 0x165667B19E3779F9
def xxP4 : BitVec 64 := 0x85EBCA77C2B2AE63
def xxP5 : BitVec 64 := 0x27D4EB2F165667C5

def xxWord (bs : List Byte) (o n : Nat) : BitVec 64 := BitVec.ofNat 64 (fld bs o n)
def xxStep (acc x : BitVec 64) : BitVec 64 := (acc + x * xxP2).rotateLeft 31 * xxP1

/-- The four accumulators after the whole stripes of 32 bytes. -/
def xxLanes (bs : List Byte) : List (BitVec 64) :=
  (List.range (bs.length / 32)).foldl (fun l i =>
    (l.zipIdx).map fun v => xxStep v.1 (xxWord bs (32 * i + 8 * v.2) 8)) [xxP1 + xxP2, xxP2, 0, -xxP1]

/-- What follows the stripes: words of 8 bytes, one of 4, single bytes; the fuel is the number of bytes left. -/
def xxTail : Nat → List Byte → BitVec 64 → BitVec 64
  | 0, _, h => h
  | n + 1, bs, h =>
    if 8 ≤ bs.length then
      xxTail n (bs.drop 8) ((h ^^^ xxStep 0 (xxWord bs 0 8)).rotateLeft 27 * xxP1 + xxP4)
    else if 4 ≤ bs.length then
      xxTail n (bs.drop 4) ((h ^^^ (xxWord bs 0 4 * xxP1)).rotateLeft 23 * xxP2 + xxP3)
    else
      match bs with
      | [] => h
      | b :: rest => xxTail n rest ((h ^^^ (b.setWidth 64 * xxP5)).rotateLeft 11 * xxP1)

/-- XXH64 with seed 0. -/
def xxh64 (bs : List Byte) : BitVec 64 :=
  let l := xxLanes bs
  let lane (i : Nat) : BitVec 64 := l.getD i 0
  let h0 :=
    if bs.length < 32 then xxP5
    else
      let s := (lane 0).rotateLeft 1 + (lane 1).rotateLeft 7 + (lane 2).rotateLeft 12 + (lane 3).rotateLeft 18
      l.foldl (fun h v => (h ^^^ xxStep 0 v) * xxP1 + xxP4) s
  let tail := bs.drop (bs.length / 32 * 32)
  let h1 := xxTail tail.length tail (h0 + BitVec.ofNat 64 bs.length)
  let h2 := (h1 ^^^ (h1 >>> 33)) * xxP2
  let h3 := (h2 ^^^ (h2 >>> 29)) * xxP3
  h3 ^^^ (h3 >>> 32)

/-! ### Frames -/

/-- Bytes of the dictionary ID and of the content size, by the descriptor byte; a single segment has a content size. -/
def zstdDict (d : Nat) : Nat := [0, 1, 2, 4].getD (d % 4) 0
def zstdFcs (d : Nat) : Nat := [1, 2, 4, 8].getD (d / 64) 0

/-- The header obeys R206: magic, Single_Segment_Flag, no dictionary, the content size. -/
def frameSubset (fr : List Byte) (size : Nat) : Bool :=
  let d := fld fr 4 1
  let n := zstdFcs d
  fld fr 0 4 == 0xFD2FB528 && bitOn d 5 && !bitOn d 3 && fld fr 5 (zstdDict d) == 0
    && fld fr (5 + zstdDict d) n + (if n = 2 then 256 else 0) == size

/-- Does the frame carry Content_Checksum? -/
def zstdSummed (fr : List Byte) : Bool := bitOn (fld fr 4 1) 2

/-- The blocks of a frame from a place on: the content so far grows to `size` bytes at most. None where a block is bad; else
the content, and the place where the blocks end. -/
def zstdBlocks (fr : List Byte) (size : Nat) : Nat → Nat → List Byte → Option (List Byte × Nat)
  | 0, _, _ => none
  | n + 1, o, out =>
    let h := fld fr o 3
    let len := h / 8
    let held := if bits h 2 1 = 1 then 1 else len
    let body := (fr.drop (o + 3)).take held
    let got := match bits h 2 1 with
      | 0 => some body
      | 1 => some (List.replicate len (body.headD 0))
      | 2 => Config.zstdBlock out body
      | _ => none
    if fr.length < o + 3 + held || min size 131072 < (if bits h 2 1 = 1 then len else held) then none
    else
      match got with
      | none => none
      | some bs =>
        if size < out.length + bs.length || 131072 < bs.length then none
        else if bitOn h 0 then some (out ++ bs, o + 3 + held) else zstdBlocks fr size n (o + 3 + held) (out ++ bs)

/-- Decode a frame of R206 whose content has `size` bytes; none where it breaks the subset, fails to decode or fails its
checksum. -/
def zstdDecode (fr : List Byte) (size : Nat) : Option (List Byte) :=
  let d := fld fr 4 1
  if !frameSubset fr size then none
  else
    (zstdBlocks fr size fr.length (5 + zstdDict d + zstdFcs d) []).bind fun r =>
      let sum := if zstdSummed fr then 4 else 0
      if r.1.length = size ∧ r.2 + sum = fr.length ∧ (sum = 0 ∨ fld fr r.2 4 = (xxh64 r.1).toNat % 2 ^ 32) then some r.1
      else none

/-- A stored frame: one raw block, with its checksum. -/
def zstdStored (bs : List Byte) : List Byte :=
  let n := bs.length
  let fcs := if n < 256 then (0x24, leBytes 1 n) else (0x64, leBytes 2 (n - 256))
  leBytes 4 0xFD2FB528 ++ leBytes 1 fcs.1 ++ fcs.2 ++ leBytes 3 (8 * n + 1) ++ bs ++ leBytes 4 (xxh64 bs).toNat

/-- The frame of a unit (R207): free bytes that decode to the unit, with Content_Checksum, in at most 65,550 bytes; bytes
that do not are no such frame, and the unit is stored. `n` tells one unit of one command from another (log entry 21). -/
def zstdFrame (n : Nat) (unit : List Byte) : List Byte :=
  let fr := Config.zstdEncode n unit
  if zstdSummed fr && decide (fr.length ≤ 65550) && zstdDecode fr unit.length == some unit then fr else zstdStored unit

end Sys2Proof.Machine
end

