-- ==== Sys2Proof/Machine/Access.lean ====
section
/-! DEFINITION. How a DMA engine reads and writes by local virtual address, sector by sector, on its own device (11 R201-
R203, R215, R216), and the containers of the host tier (R205-R207). -/

namespace Sys2Proof.Machine

/-- What a read of an engine gave: bytes with poison and tier, a translation that is no place, or a host error. -/
inductive Got where
  | data (bytes : List Byte) (poison host : Bool)
  | xl (x : Xl) (va : Nat)
  | hostErr
deriving DecidableEq, Repr

/-- Is host memory reachable: the link is up with Bus Master Enable (19 R362)? -/
def hostReady (s : State) : Bool := s.hif.epUp

/-- Read some bytes of one sector. -/
def engPiece (s : State) (va n : Nat) (hostOk alloc : Bool) (port : Nat := 0) : Got × State :=
  let t := translate s (va % 2 ^ 52) .r hostOk port
  match t.1 with
  | .stack pa =>
    let r := readPA t.2 pa n alloc
    (.data r.1.bytes r.1.poison false, r.2)
  | .host a => if hostReady t.2 then (.data (memRdN zeroByte t.2.st.host a n) false true, t.2) else (.hostErr, t.2)
  | x => (.xl x va, t.2)

/-- Read bytes sector by sector; the first sector that cannot be read stops the read. -/
def engRead (s : State) (va n : Nat) (hostOk alloc : Bool) (port : Nat := 0) : Got × State :=
  (chunks va n).foldl (fun acc c =>
    match acc.1 with
    | .data bs p h =>
      let r := engPiece acc.2 c.1 c.2 hostOk alloc port
      (match r.1 with
       | .data bs' p' h' => .data (bs ++ bs') (p || p') (h || h')
       | x => x, r.2)
    | x => (x, acc.2)) (.data [] false false, s)

/-- Write bytes at a place that a translation gave. -/
def putPlace (s : State) (x : Xl) (bs : List Byte) : State :=
  match x with
  | .stack pa => writePA s pa bs
  | .host a => hostWrite s a bs
  | _ => s

/-- Write poison over the sectors of a range of one page (R216): the pattern in the stacks, zeros in host memory. -/
def putPoison (s : State) (x : Xl) (n : Nat) : State :=
  match x with
  | .stack pa => each (chunks pa n) (fun s c => writePoison s (c.1 / 32)) s
  | .host a => hostWrite s a (List.replicate n 0)
  | _ => s

/-! ### Containers (R205-R207) -/

/-- Size of a unit. -/
def unitSize : Nat := 65536

/-- The header of a container: UNITS and LAST. -/
structure Container where
  units : Nat
  last  : Nat
deriving DecidableEq, Repr

/-- An index entry: offset, length and POISON of a frame. -/
structure FrameRef where
  offs   : Nat
  len    : Nat
  poison : Bool
deriving DecidableEq, Repr

def frameRef (n : Nat) : FrameRef := ⟨bits n 39 0, bits n 56 40, bitOn n 62⟩

/-- Size of unit k of a container. -/
def Container.size (c : Container) (k : Nat) : Nat := if k + 1 = c.units then c.last else unitSize

/-- Read the header of a container: a first problem, or the header. -/
def readContainer (s : State) (base : Nat) (port : Nat := 0) : Got × Container × State :=
  let r := engRead s base 8 true false port
  match r.1 with
  | .data bs _ _ => (r.1, ⟨fld bs 0 4, fld bs 4 4⟩, r.2)
  | x => (x, ⟨0, 0⟩, r.2)

/-- A unit as HOST_IN reads it: its bytes, or none where it is delivered as poison (R206). -/
structure UnitRead where
  got  : Got
  unit : Option (List Byte)
  size : Nat
deriving DecidableEq, Repr

/-- Read unit k of the container at `base`. A unit that the container does not have is a bad frame (log entry 53). -/
def readUnit (s : State) (base : Nat) (c : Container) (k : Nat) (port : Nat := 0) : UnitRead × State :=
  if c.units ≤ k then (⟨.data [] false true, none, unitSize⟩, s) else
  let e := engRead s (base + 64 + 8 * k) 8 true false port
  match e.1 with
  | .data bs _ _ =>
    let fr := frameRef (ofLE bs)
    let size := c.size k
    if fr.poison then (⟨e.1, none, size⟩, e.2)
    else
      let f := engRead e.2 (base + fr.offs) fr.len true false port
      match f.1 with
      | .data frame _ _ => (⟨f.1, zstdDecode frame size, size⟩, f.2)
      | x => (⟨x, none, 0⟩, f.2)
  | x => (⟨x, none, 0⟩, e.2)

end Sys2Proof.Machine
end

