-- ==== Sys2Proof/Machine/Weights.lean ====
section
/-! DEFINITION. Weight copies (12 R228-R239): manifests, the judging and building of a copy, its switch and retirement,
refetches and twins, and the notices of R239 and 13 R258. -/

namespace Sys2Proof.Machine

/-! ### Manifests (R228) -/

def yealmOf (bs : List Byte) : Yealm where
  layer := fld bs 0 2
  kind := fld bs 2 1
  crc := BitVec.ofNat 32 (fld bs 4 4)
  va := fld bs 8 8
  bytes := fld bs 0x10 8
  twin := fld bs 0x18 8
  src := fld bs 0x20 8
  aux := fld bs 0x28 8

/-- A yealm entry obeys Table 12.3. -/
def yealmOk (nlayer : Nat) (bs : List Byte) : Bool :=
  let y := yealmOf bs
  (y.layer == 65535 || decide (y.layer < nlayer)) && decide (y.kind ≤ 2) && decide (y.va < 2 ^ 52) && y.va % 32 == 0
    && decide (1024 ≤ y.bytes ∧ y.bytes ≤ 2 ^ 30) && y.bytes % 32 == 0 && decide (y.twin < 2 ^ 52) && y.twin % 32 == 0
    && (y.kind != 1 || decide (y.aux % 256 < 4 ∧ y.aux < 2 ^ 40)) && zeroIn bs 0x30 0x40

/-- Read the entries of a manifest; none where one cannot be read or breaks its table. -/
def readYealms (s : State) (va nlayer : Nat) : Nat → Option (List Yealm) × State
  | 0 => (some [], s)
  | n + 1 =>
    let r := readYealms s va nlayer n
    match r.1 with
    | none => r
    | some l =>
      let e := devRead r.2 (.lva (va + 0x40 + 64 * n)) 64
      (e.1.bind fun bs => if yealmOk nlayer bs then some (l ++ [yealmOf bs]) else none, e.2)

/-- Read and check the manifest that a SPAR_WORD names (R228, R232). -/
def readManifest (s : State) (m va gen : Nat) : Option Manifest × State :=
  let h := devRead s (.lva va) 64
  match h.1 with
  | none => (none, h.2)
  | some bs =>
    let ny := fld bs 0xC 4
    let fb := fld bs 0x10 1
    let fl := fld bs 0x11 1
    let nl := fld bs 0x12 2
    let ok := fld bs 0 8 == gen && fld bs 8 4 != 0 && decide (1 ≤ ny ∧ ny ≤ 65536) && (fb == 255 || decide (fb < 16))
      && fb != m && decide (fl ≤ 1) && decide (1 ≤ nl ∧ nl ≤ 256) && zeroIn bs 0x14 0x40
    if !ok then (none, h.2)
    else
      let tail := devRead h.2 (.lva (va + 0x40 + 64 * ny)) 8
      if tail.1.elim true (fun t => ofLE t != gen) then (none, tail.2)
      else
        let e := readYealms tail.2 va nl ny
        (e.1.map fun l => ⟨va, gen, fld bs 8 4, ny, fb, fl == 1, nl, l⟩, e.2)

/-! ### Judging a SPAR_WORD (R232) -/

/-- Is a manifest slot free: no live copy, build, ready copy or old copy still referenced? -/
def slotFree (w : ModelSt) (slot : Bool) : Bool :=
  !(w.live.any (·.slot == slot) || w.build.any (·.copy.slot == slot) || w.ready.any (·.slot == slot)
    || w.old.any (·.copy.slot == slot))

/-- A word is rejected with WGT.010 and its GEN. -/
def sparReject (s : State) (m word : Nat) : State :=
  raise (modWgt s m fun w => { w with lastRej := some word }) bWGT 10 (locModel m) noSeq (BitVec.ofNat 64 (word / 65536))

/-- Accept a word: STATE goes to loading, or straight to verifying. A build in the other slot of an entry without a live copy
goes on beside it (log entry 107). -/
def sparAccept (s : State) (m : Nat) (load slot : Bool) (man : Manifest) : State :=
  let c : WCopy := ⟨man.gen, slot, man, [], [], [], []⟩
  let s1 := modWgt s m fun w => { w with maxGen := man.gen, build := w.build ++ [⟨c, w.state, load, 0⟩] }
  let s2 := if load then
      each (List.range man.ents.length) (fun s y =>
        if ((man.ents[y]?).elim 2 (·.kind)) = 2 then s else yealmStatus s m man y 1) s1
    else s1
  setState s2 m (if load then 1 else 2)

/-- Judge the SPAR_WORD of an entry. -/
def sparJudge (s : State) (m : Nat) (entry : List Byte) : State :=
  let w := wgtAt s m
  let word := fld entry 0x10 8
  let gen := word / 65536
  let slot := bitOn word 0
  if gen = 0 ∨ gen = w.maxGen ∨ w.lastRej = some word then s
  else if gen < w.maxGen || !slotFree w slot then sparReject s m word
  else
    let r := readManifest s m (fld entry (if slot then 8 else 0) 8) gen
    match r.1 with
    | none => sparReject r.2 m word
    | some man => sparAccept r.2 m (bitOn word 2) slot man

/-- The load of a yealm is over: its place is forgotten and its fault withdrawn. -/
def dropLoad (m gen : Nat) (which : Nat → Bool) (s : State) : State :=
  let s1 := modWgt s m fun w => { w with loads := w.loads.filter fun j => !(j.gen == gen && which j.y) }
  { s1 with xlt := { s1.xlt with faults := s1.xlt.faults.filter fun f =>
      match f.req with
      | .load k g y => !(k == m && g == gen && which y)
      | _ => true } }

/-- A build leaves: the STATE before it passes to the next of the builds in progress. -/
def takeBuild (gen : Nat) : List Build → List Build
  | [] => []
  | b :: bs =>
    if b.copy.gen = gen then
      match bs with
      | [] => []
      | n :: ns => { n with before := b.before } :: ns
    else b :: takeBuild gen bs

/-- A build stops: STATE goes back where no later build shows its own, and WGT.010 is raised; its slot is free. -/
def buildFail (s : State) (m gen : Nat) : State :=
  match (wgtAt s m).build.find? (·.copy.gen == gen) with
  | none => s
  | some b =>
    let last := ((wgtAt s m).build.getLast?).any (·.copy.gen == gen)
    let s1 := dropLoad m gen (fun _ => true) (modWgt s m fun w => { w with build := takeBuild gen w.build, fetchTries := [] })
    raise (if last then setState s1 m b.before else s1) bWGT 10 (locModel m) noSeq (BitVec.ofNat 64 gen)

/-- A build reaches a stage: STATE shows it, and builds that began later, whose GEN is greater, would go back to it. -/
def stage (s : State) (m gen st : Nat) : State :=
  setState (modWgt s m fun w => { w with
    build := w.build.map fun b => if gen < b.copy.gen then { b with before := st } else b }) m st

/-! ### Verifying (R230, R232) -/

/-- Write bytes to T2 by local virtual address as an engine does; the flag says that every sector could be placed. -/
def putVa (s : State) (va : Nat) (bs : List Byte) : Bool × State :=
  (chunks va bs.length).foldl (fun acc c =>
    if !acc.1 then acc
    else
      let t := translate acc.2 (c.1 % 2 ^ 52) .w true
      match t.1 with
      | .stack pa => (true, writePA t.2 pa ((bs.drop (c.1 - va)).take c.2))
      | _ => (false, t.2)) (true, s)

/-- Bytes that a forerunner source delivers: not the device's to know, so free values (log entry 3). -/
def fetched (s : State) (n : Nat) : List Byte := (List.range n).map fun i => BitVec.ofNat 8 (Config.freeNat (s.free + i) 230)

/-- The bytes of a yealm or a twin match their CRC (R232). -/
def crcOk (s : State) (va n : Nat) (crc : BitVec 32) : Bool × State :=
  let r := devRead s (.lva va) n
  (r.1.elim false fun bs => crc32c bs == crc, r.2)

/-- One yealm and its twin verify. -/
def verifyYealm (s : State) (y : Yealm) : Bool × State :=
  let a := crcOk s y.va y.bytes y.crc
  if a.1 && y.twin != 0 then crcOk a.2 y.twin y.bytes y.crc else a

def verifyAll (l : List Yealm) (s : State) : Bool × State :=
  l.foldl (fun acc y => if acc.1 then verifyYealm acc.2 y else acc) (true, s)

/-- With SAME set, every CRC equals that of the same entry of the live copy. -/
def sameOk (w : ModelSt) (c : WCopy) : Bool :=
  !c.man.same || (w.live.elim false fun l => l.man.ents.map (·.crc) == c.man.ents.map (·.crc))

/-- VERIFY_COMPLETE (R232) of the oldest build that is past loading. -/
def verifyComplete (m : Nat) (s : State) : State :=
  match (wgtAt s m).build.find? (!·.loading) with
  | some b =>
    let c := b.copy
    let r := verifyAll c.man.ents s
    if !r.1 || !sameOk (wgtAt s m) c then buildFail r.2 m c.gen
    else
      let n := c.man.ents.length
      let twins := (List.range n).filter fun y => ((c.man.ents[y]?).elim 0 (·.twin)) != 0
      let s1 := each (List.range n) (fun s y => yealmStatus s m c.man y 2) r.2
      setState (modWgt s1 m fun w => { w with
        build := (w.build.filter (·.copy.gen != c.gen)).map fun b => { b with before := 3 }
        ready := w.ready ++ [{ c with twinOk := twins }] }) m 3
  | _ => s

def execVerifyComplete (m : Model) (s : State) : Host.Outcome State Fault Refusal := .next (verifyComplete m s)

/-! ### Refetches and twins (R237) -/

/-- The served copy that refetches a yealm, with the attempts made. -/
def refetching (s : State) (m y : Nat) : Option (WCopy × Nat) :=
  (servedCopies (wgtAt s m)).findSome? fun c => (c.refetch.find? (·.1 == y)).map fun r => (c, r.2)

/-- Is a copy the live one? -/
def isLive (s : State) (m gen : Nat) : Bool := (wgtAt s m).live.any (·.gen == gen)

/-- A refetch attempt failed; after the third STATE is degraded with WGT.024. -/
def refetchFail (s : State) (m y : Nat) : State :=
  match refetching s m y with
  | some (c, n) =>
    let s0 := modWgt (dropLoad m c.gen (· == y) s) m fun w => { w with fetchTries := w.fetchTries.filter (·.1 != y) }
    if n < 2 then modCopy s0 m c.gen fun c => { c with refetch := c.refetch.map fun r => if r.1 = y then (y, n + 1) else r }
    else
      let s1 := modCopy s0 m c.gen fun c => { c with
        refetch := c.refetch.filter (·.1 != y)
        bad := c.bad.map fun b => if b.1 = y then (y, 3) else b }
      let s2 := yealmStatus s1 m c.man y 3
      raise (if isLive s2 m c.gen then setHealth s2 m 5 else s2) bWGT 24 (locModel m) noSeq 0
  | none => s

/-- A refetched yealm is valid again. -/
def refetchOk (s : State) (m y : Nat) : State :=
  match refetching s m y with
  | none => s
  | some (c, _) =>
    let s0 := modWgt (dropLoad m c.gen (· == y) s) m fun w => { w with fetchTries := w.fetchTries.filter (·.1 != y) }
    let s1 := modCopy s0 m c.gen fun c => { c with
      refetch := c.refetch.filter (·.1 != y)
      bad := c.bad.filter (·.1 != y)
      said022 := c.said022.filter (· != y) }
    let s2 := putPoisoned (yealmStatus s1 m c.man y 2) m
    let s3 := if (wgtAt s2 m).live.elim false (·.bad.isEmpty) then setHealth s2 m 4 else s2
    raise s3 bWGT 21 (locModel m) noSeq 0

/-- Where a weights-class COPY reads a source address (R237 steps 3 and 4): the stack, the twin, or nowhere. -/
inductive WeightSrc where
  | plain (va : Nat)
  | poison
deriving DecidableEq, Repr

def weightSrc (s : State) (va : Nat) : WeightSrc × State :=
  match servedYealm s va with
  | none => (.plain va, s)
  | some (m, c, y) =>
    if !c.bad.any (·.1 == y) then (.plain va, s)
    else if c.twinOk.contains y then
      match c.man.ents[y]? with
      | none => (.poison, s)
      | some ye =>
        let s1 := if c.said022.contains y then s
          else raise (modCopy s m c.gen fun c => { c with said022 := c.said022 ++ [y] }) bWGT 22 (locModel m) noSeq 0
        (.plain (ye.twin + (va - ye.va)), s1)
    else (.poison, s)

/-! ### The switch (R233-R236) -/

/-- An entry of the compiled cost table (02 R418): absent where its MODEL_ID is not the live manifest's. -/
structure CostEntry where
  tickNs : Nat
  layers : List Nat
deriving DecidableEq, Repr

def costEntry (s : State) (d m : Nat) : Option CostEntry × State :=
  match (domAt s d).plan, (wgtAt s m).live with
  | some p, some c =>
    let r := devRead s (.lva (p.costTable + 32 * m)) 32
    match r.1 with
    | none => (none, r.2)
    | some bs =>
      let n := fld bs 4 2
      if fld bs 0 4 ≠ c.man.modelId ∨ fld bs 0 4 = 0 then (none, r.2)
      else
        let l := devRead r.2 (.lva (fld bs 0x10 8)) (4 * n)
        (l.1.map fun ls => ⟨fld bs 8 4, (List.range n).map fun i => fld ls (4 * i) 4⟩, l.2)
  | _, _ => (none, s)

/-- WGT.003 for each layer whose bytes exceed 2.048 TB/s x t_l (R236). -/
def streamCheck (s : State) (d m : Nat) : State :=
  let e := costEntry s d m
  match e.1, (wgtAt s m).live with
  | some ce, some c =>
    each ((List.range c.man.nlayer).zip ce.layers) (fun s l =>
      let n := ((c.man.ents.filter fun y => y.layer == l.1).map (·.bytes)).sum
      if 2048 * l.2 < n then raise s bWGT 3 (locModel m) noSeq 0 else s) e.2
  | _, _ => e.2

/-- Items that were placed and have not finished, with their sequences: they may hold the old copy. -/
def placedItems (s : State) (m : Nat) : List (Nat × Nat) :=
  (List.range 32).flatMap fun n =>
    let q := seqAt s n
    if q.running = m then
      (q.items.filter fun i => i.phase != .waiting || i.lastTick != 0 || !i.saves.isEmpty).map fun i => (n, i.num)
    else []

/-- Effects on the sequences that run a model whose copy changed without SAME (R234). -/
def modelChanged (s : State) (m : Nat) : State :=
  { s with seq := s.seq.map fun q =>
      if q.state != .free && q.running = m then { q with history := false, historyCount := 0, passDone := false } else q }

/-- FALLBACK of the slots whose primary is the model is copied from the manifest (13 Table 13.1). -/
def copyFallback (s : State) (m fb : Nat) : State :=
  { s with seq := s.seq.map fun q => if q.state != .free && q.primary = m then { q with fallback := fb } else q }

/-- The spar pointer switches. -/
def sparSwitch (s : State) (d m word : Nat) (c : WCopy) : State :=
  let refs := placedItems s m
  let s1 := modWgt s m fun w => { w with
    live := some c
    ready := w.ready.filter (·.gen != c.gen)
    old := (w.live.map fun l => ⟨l, refs.map (·.2), refs⟩).or w.old
    lapsed := some word }
  let s2 := setState (catPut s1 m 0x20 (leBytes 8 (c.gen * 65536 + 2 + c.slot.toNat))) m 4
  let s3 := putPoisoned (raise s2 bWGT 1 (locModel m) noSeq 0) m
  let s4 := copyFallback s3 m c.man.fallback
  streamCheck (if c.man.same then s4 else modelChanged s4 m) d m

/-- A word lapses with WGT.011. -/
def switchLapse (s : State) (m word : Nat) : State :=
  raise (modWgt s m fun w => { w with lapsed := some word }) bWGT 11 (locModel m) noSeq 0

/-- Act on SWITCH_WORD at an admit phase of the entry's domain (R233). -/
def switchJudge (s : State) (d m : Nat) (entry : List Byte) : State :=
  let w := wgtAt s m
  let word := fld entry 0x18 8
  let now := (domAt s d).tickNo % 2 ^ 48
  let at' := word / 65536
  if word = 0 ∨ w.lapsed = some word then s
  else if at' = now then
    match w.ready.find? (fun c => decide (c.gen % 65536 = word % 65536)) with
    | some c => if w.state = 3 then sparSwitch s d m word c else switchLapse s m word
    | none => switchLapse s m word
  else if at' < now then switchLapse s m word
  else s

/-- Step 3 of an admit phase (13 R244): the words of every entry of the domain. -/
def readWords (s : State) (d : Nat) : State :=
  each (List.range 16) (fun s m =>
    let r := devRead s (.lva (catAddr s m)) 128
    match r.1 with
    | none => r.2
    | some e =>
      let dom := if fld e 0x32 1 < 4 then fld e 0x32 1 else 0
      let s0 := modWgt r.2 m fun w => { w with dom := dom }
      if dom ≠ d then s0
      else
        let s1 := if catOwed (wgtAt s0 m) then catSync s0 m else s0
        switchJudge (sparJudge s1 m e) d m e) s

/-- Do two ranges meet? -/
def meets (a n b k : Nat) : Bool := decide (a < b + k ∧ b < a + n)

/-- Does a command, issued by an item placed before the switch, that has not completed still read an old copy (R235)? -/
def copyRead (s : State) (o : OldCopy) : Bool :=
  (liveCmds s).any fun k => cmdOp k == 0x10 && cmdClass k == 0
    && (match k.issuer with
        | .thread _ _ item => o.placed.any fun p => p.1 == k.owner && p.2 == item
        | .host => false)
    && o.copy.man.ents.any fun y => meets (gLocal (BitVec.ofNat 64 (cmdN k 8 8))) (cmdN k 0x18 4) y.va y.bytes

/-- COPY_RETIRE (R235): no work placed before the switch is left. -/
def copyRetire (m : Nat) (s : State) : State :=
  match (wgtAt s m).old with
  | some o =>
    if !o.items.isEmpty || copyRead s o then s
    else
      let s1 := modWgt (dropLoad m o.copy.gen (fun _ => true) s) m fun w => { w with old := none, retired := o.copy.gen }
      raise (catPut s1 m 0x28 (leBytes 8 (o.copy.gen * 65536))) bWGT 2 (locModel m) noSeq 0
  | none => s

def execCopyRetire (m : Model) (s : State) : Host.Outcome State Fault Refusal := .next (copyRetire m s)

/-- A sequence that departs releases its references (R235). -/
def releaseRefs (slot : Nat) (s : State) : State :=
  { s with wgt := s.wgt.map fun w => { w with old := w.old.map fun o => { o with
      items := o.items.filter fun i => !(o.placed.any fun p => p.1 == slot && p.2 == i)
      placed := o.placed.filter (·.1 != slot) } } }

/-- The build that loads. -/
def loadingBuild (w : ModelSt) : Option Build := w.build.find? (·.loading)

/-- FETCH_FAILURE (R230): a failed connection is retried on the other port; a command that failed three times raises
WGT.030 and its yealm fails to load. -/
def fetchFailure (m y : Nat) (what : FetchFail) (s : State) : State :=
  let w := wgtAt s m
  let again := (refetching s m y).isSome
  if (loadingBuild w).isNone && !again then s
  else
    match what with
    | .connection => modWgt s m fun w => { w with fetchPort := 5 - w.fetchPort }
    | .command k =>
      let n := (w.fetchTries.find? fun t => t.1 == y && t.2.1 == k).elim 0 (·.2.2) + 1
      let s1 := modWgt s m fun w => { w with
        fetchTries := (w.fetchTries.filter fun t => !(t.1 == y && t.2.1 == k)) ++ (if n < 3 then [(y, k, n)] else []) }
      if n < 3 then s1
      else
        let s2 := raise s1 bWGT 30 (locModel m) noSeq 0
        if again then refetchFail s2 m y else (loadingBuild w).elim s2 fun b => buildFail s2 m b.copy.gen

def execFetchFailure (m : Model) (y : Nat) (what : FetchFail) (s : State) : Host.Outcome State Fault Refusal :=
  .next (fetchFailure m y what s)

/-! ### Notices (R239, 13 R258) -/

/-- A notice takes its place among those not due, by tick. -/
def putNotice (n : Nat × Bool) : List (Nat × Bool) → List (Nat × Bool)
  | [] => [n]
  | x :: xs => if x = n then x :: xs else if n.1 < x.1 then n :: x :: xs else x :: putNotice n xs

/-- A model notice, of fallback or of return, waits for the tick it names. -/
def modelNotice (m tick : Nat) (toFb : Bool) (s : State) : State :=
  modWgt s m fun w => { w with notices := putNotice (tick, toFb) w.notices }

/-- A fallback notice: the model's sequences run on the fallback from the tick it names. -/
def fallbackNotice (m tick : Nat) (s : State) : State := modelNotice m tick true s

/-- A return notice: the model's sequences return at the tick it names, unless a fallback notice names the same tick. -/
def returnNotice (m tick : Nat) (s : State) : State := modelNotice m tick false s

/-- Where the sequences of a model run after the notices due at tick n: a fallback notice moves them, a return notice brings
them back unless a fallback notice names the same tick. -/
def noticesDue (n : Nat) (w : ModelSt) : ModelSt :=
  let due := w.notices.filter (·.1 ≤ n)
  let fb := (due.filter (·.2)).map (·.1) ++ w.fbTicks
  { w with
    notices := w.notices.filter (n < ·.1)
    fbTicks := fb.filter fun t => n < t + 16
    fallen := due.foldl (fun on x => if x.2 then true else if fb.contains x.1 then on else false) w.fallen }

def execFallbackNotice (m : Model) (tick : Nat) (s : State) : Host.Outcome State Fault Refusal :=
  .next (if s.self.member then fallbackNotice m tick s else s)

def execReturnNotice (m : Model) (tick : Nat) (s : State) : Host.Outcome State Fault Refusal :=
  .next (if s.self.member then returnNotice m tick s else s)

/-- A sequence notice (13 R258): the slot moves at the tick it names. -/
def sequenceNotice (slot : Nat) (toFallback : Bool) (tick : Nat) (s : State) : State :=
  if (seqAt s slot).state != .active then s
  else modSeq s slot fun q => { q with moves := putNotice (tick, toFallback) q.moves }

def execSequenceNotice (n : Slot) (toFallback : Bool) (tick : Nat) (s : State) : Host.Outcome State Fault Refusal :=
  .next (if s.self.member then sequenceNotice n toFallback tick s else s)

end Sys2Proof.Machine
end

