-- ==== Sys2Proof/Machine/Engine.lean ====
section
/-! DEFINITION. How a DMA engine runs a command (11 R211-R217): the choice of the next command, the transfer piece by piece
in the engine's sector order, parking and stalling, and how a command ends. -/

namespace Sys2Proof.Machine

/-! ### Pieces -/

/-- What one piece of a transfer came to. `done` tells the sectors delivered as poison, and whether a poisoned source
sector was transferred (DMA.020). -/
inductive PieceEnd where
  | done (poisoned : Nat) (said : Bool)
  | fault (kind va : Nat) (x : Xl)
  | tier (va : Nat)
  | hostErr
  | overflow
  | peer
deriving DecidableEq, Repr

/-- Source bytes that this run has read: their address, poison, a sector in T3, sectors in both tiers. -/
structure Held where
  sec    : Nat
  bytes  : List Byte
  poison : Bool
  host   : Bool
  mixed  : Bool
deriving DecidableEq, Repr

/-- A transfer as it runs on an engine. -/
structure Xfer where
  s    : State
  cmd  : DmaCmd
  held : List Held
  e    : Nat
deriving DecidableEq, Repr

/-- The translation caches that the transfer's engine uses (R203). -/
def Xfer.port (x : Xfer) : Nat := 4 + x.e

/-- How an engine reads its source sectors: host memory allowed, T1 allocation. -/
structure SrcMode where
  hostOk : Bool
  alloc  : Bool
deriving DecidableEq, Repr

/-- A source sector by its local virtual address, read once in a run (R215). -/
def srcSector (m : SrcMode) (va : Nat) (x : Xfer) : (Held ⊕ PieceEnd) × Xfer :=
  match x.held.find? (·.sec == va) with
  | some h => (.inl h, x)
  | none =>
    let r := engPiece x.s va 32 m.hostOk m.alloc x.port
    match r.1 with
    | .data bs p h => (.inl ⟨va, bs, p, h, false⟩, { x with s := r.2, held := ⟨va, bs, p, h, false⟩ :: x.held })
    | .xl t v => (.inr (.fault 2 v t), { x with s := r.2 })
    | .hostErr => (.inr .hostErr, { x with s := r.2 })

/-- Put source bytes together. -/
def Held.join (a b : Held) : Held :=
  ⟨a.sec, a.bytes ++ b.bytes, a.poison || b.poison, a.host || b.host,
    a.mixed || b.mixed || (!a.bytes.isEmpty && a.host != b.host)⟩

/-- Bytes [va, va + n) of a source by local virtual address. -/
def srcBytes (m : SrcMode) (va n : Nat) (x : Xfer) : (Held ⊕ PieceEnd) × Xfer :=
  (chunks va n).foldl (fun acc c =>
    match acc.1 with
    | .inr _ => acc
    | .inl h =>
      let r := srcSector m (c.1 / 32 * 32) acc.2
      (match r.1 with
       | .inl g => .inl (h.join ⟨va, (g.bytes.drop (c.1 % 32)).take c.2, g.poison, g.host, g.mixed⟩)
       | .inr e => .inr e, r.2)) (.inl ⟨va, [], false, false, false⟩, x)

/-- A store sector as an engine of the DMA reads it: an error that stands in it is corrected, or poisons it (04 R77). -/
def csSettle (s : State) (c offs : Nat) : State :=
  let sec := csKey c offs / 32
  match s.st.csErr.find? (·.1 == sec) with
  | some (_, .corrected) => { s with st := { s.st with csErr := s.st.csErr.filter (·.1 != sec) } }
  | some (_, .uncorrectable) =>
    { s with st := { s.st with csErr := s.st.csErr.filter (·.1 != sec), csPoison := insertNat sec s.st.csPoison } }
  | none => s

/-- Bytes of a cluster store as a source. -/
def storeBytes (c offs n : Nat) (x : Xfer) : Held × Xfer :=
  let s1 := each ((chunks offs n).map (·.1)) (fun s a => csSettle s c a) x.s
  (⟨offs, csBytes s1 c offs n, csBadRange s1 c offs n, false, false⟩, { x with s := s1 })

/-- Deliver bytes to a store, or deliver their sectors as poisoned (R216). -/
def storePut (s : State) (c offs : Nat) (bs : List Byte) (poison : Bool) : State :=
  let s1 := csWrite s c offs bs
  if poison then each ((chunks offs bs.length).map (·.1)) (fun s a => csPoisonAt s c a) s1 else s1

/-- Deliver bytes at a place, or poison (R216). -/
def placePut (s : State) (t : Xl) (bs : List Byte) (poison : Bool) : State :=
  if poison then putPoison s t bs.length else putPlace s t bs

/-! ### The end of a command -/

/-- The thread that issued a command, where it is. -/
def thrAny (s : State) (c t item : Nat) : Option Thread :=
  if isOn s c t item then some (thrAt s c t)
  else (s.seq.flatMap (·.items)).findSome? fun i =>
    if i.num = item then
      (i.saves.find? (·.cluster == c)).bind fun m => (m.threads.find? (·.1 == t)).map (·.2)
    else none

/-- Terminate the work item of a thread-issued command, where the item is still on its list. -/
def endIssuer (s : State) (c : DmaCmd) (block num place : Nat) : State :=
  match c.issuer with
  | .host => s
  | .thread cl _ item =>
    if (itemOf s c.owner item).isNone then s
    else terminate s c.owner item ⟨block, num, cl, c.rank, c.pc, c.pidx, 0, place⟩

/-- The fault record of a command. -/
def cmdFaultRec (e : Nat) (c : DmaCmd) (kind level va code : Nat) : FaultRec :=
  { mkFault kind level va e (cmdSeq c) (.engine e) with
    code := code, done := c.done, cmdTag := BitVec.ofNat 32 (cmdTag c) }

/-- Stop a command at a recoverable fault whose record is given (R217). A fault whose ring entry is occupied is aborted at
once (R224). -/
def parkAt (s : State) (e : Nat) (c : DmaCmd) (f : FaultRec) : State :=
  let r := faultRetry s f
  match r.1 with
  | some tag =>
    ctrAdd (modEng r.2 e fun g =>
      let g1 := { g with parked := g.parked ++ [(tag, c)] }
      { g1 with stallAt := if engStalled g1 then some (g.stallAt.getD s.time) else none }) (ctrEngine e 2) 1
  | none => endIssuer (complete r.2 e c stABORTED) c bXLT 4 f.va

def park (s : State) (e : Nat) (c : DmaCmd) (kind va level : Nat) : State := parkAt s e c (cmdFaultRec e c kind level va 1)

/-- What a run of a command leaves: the end of the command, or the command stopped or waiting. -/
def settle (e : Nat) (r : Option PieceEnd × Xfer) : State :=
  let s := r.2.s
  let c := r.2.cmd
  match r.1 with
  | none => complete s e c stOK
  | some (.done _ _) => complete s e c stOK
  | some (.fault kind va (.retry level)) => park s e c kind va level
  | some (.fault kind va (.fatal code level)) =>
    endIssuer (complete (faultFatal s (cmdFaultRec e c kind level va code)) e c stINVALID) c bXLT code va
  | some (.fault _ _ _) => complete s e c stINVALID
  | some (.tier va) =>
    endIssuer (complete (raise s bDMA 2 (locEngine e) (cmdSeq c) 0) e c stINVALID) c bDMA 2 va
  | some .hostErr => complete (raise s bDMA 30 (locEngine e) (cmdSeq c) 0) e c stHOSTERR
  | some .overflow => complete (raise s bDMA 11 (locEngine e) (cmdSeq c) 0) e c stOVERFLOW
  | some .peer => modEng s e fun g => { g with cur := some c }

/-- A piece is complete: DONE, POISONED, the counter, and DMA.020 once per command. The next piece is due. -/
def advance (e sectors poisoned : Nat) (said : Bool) (x : Xfer) : Xfer :=
  let s1 := ctrAdd x.s (ctrEngine e 1) sectors
  let s2 := if said && x.cmd.poisoned == 0 then raise s1 bDMA 20 (locEngine e) (cmdSeq x.cmd) 0 else s1
  { x with s := s2, cmd := { x.cmd with
      done := x.cmd.done + sectors, poisoned := x.cmd.poisoned + poisoned, parts := x.cmd.parts + 1, within := 0 } }

/-- Run the pieces of a command from the first that is not complete on; each piece has its count of sectors. -/
def runPieces (e : Nat) : List (Nat × (Xfer → PieceEnd × Xfer)) → Nat → Xfer → Option PieceEnd × Xfer
  | [], _, x => (none, x)
  | p :: ps, i, x =>
    if i < x.cmd.parts then runPieces e ps (i + 1) x
    else
      let r := p.2 x
      match r.1 with
      | .done n said => runPieces e ps (i + 1) (advance e p.1 n said r.2)
      | z => (some z, r.2)

/-! ### The choice of the next command (R211-R213) -/

/-- What orders codec commands of one context and PLAY commands of one flow (17 R318, 18 R341). -/
def chainOf (c : DmaCmd) : Option (Bool × Nat) :=
  if cmdIsCodec c then some (false, cmdN c 3 1)
  else if cmdIsPlay c then some (true, cmdN c 3 1)
  else none

/-- Commands that have not started, of every engine. -/
def waitingCmds (s : State) : List DmaCmd := s.eng.flatMap fun g => g.thrQ ++ g.hostQ ++ g.parked.map (·.2)

/-- Is a command behind an earlier one of its context or flow, or behind a CLOSE that waits? -/
def chained (s : State) (c : DmaCmd) : Bool :=
  (cmdIsCodec c && (ctxAt s (cmdN c 3 1)).closing.isSome) || (chainOf c).isSome && (waitingCmds s).any fun x => chainOf x == chainOf c && decide (x.num < c.num)

/-- Commands of a queue that may start: no earlier one of the issuer waits where order binds, none of it is parked. -/
def mayStart (s : State) (g : EngSt) (c : DmaCmd) : Bool :=
  !(g.parked.any fun p => p.2.issuer == c.issuer) && !chained s c
    && (match c.issuer with
        | .host => true
        | who => !(g.thrQ.any fun x => x.issuer == who && decide (x.num < c.num)))

/-- The first command of the highest rank of a list. -/
def bestOf (s : State) (l : List DmaCmd) : Option DmaCmd :=
  l.foldl (fun best c =>
    match best with
    | none => some c
    | some b => if seqClass s (cmdSeq c) < seqClass s (cmdSeq b) then some c else some b) none

/-- The command that an engine starts next. -/
def nextCmd (s : State) (e : Nat) : Option DmaCmd :=
  let g := engAt s e
  match bestOf s (g.thrQ.filter (mayStart s g)), bestOf s (g.hostQ.filter (mayStart s g)) with
  | some t, some h =>
    let rt := seqClass s (cmdSeq t)
    let rh := seqClass s (cmdSeq h)
    if rh < rt || (rh == rt && g.hostTurn) then some h else some t
  | some t, none => some t
  | none, h => h

/-- Take a command out of its queue. -/
def takeCmd (s : State) (e : Nat) (c : DmaCmd) : State :=
  let s1 := modEng s e fun g => { g with
    thrQ := g.thrQ.filter (·.num != c.num)
    hostQ := g.hostQ.filter (·.num != c.num)
    hostTurn := c.issuer != .host }
  if c.issuer == .host then s1 else wakeFull s1 e

/-- The address of a host-queue entry (R212). -/
def hostEntry (s : State) (e i : Nat) : Nat := param s 0x021 + 65536 * e + 64 * (i % 1024)

/-- The engine reads one owned entry of its host queue and checks it (R210, R212). -/
def readHost (e : Nat) (s : State) : State :=
  let g := engAt s e
  let r := readPA s (hostEntry s e g.head.toNat) 64
  let c := mkCmd r.2.nextNum (BitVec.ofNat 512 (ofLE r.1.bytes)) .host 0
  let s1 := modEng { r.2 with nextNum := r.2.nextNum + 1 } e fun g => { g with head := g.head + 1 }
  if r.1.poison then raise s1 bDMA 1 (locEngine e) noSeq 0
  else if cmdClass c ≠ engineClass e then complete s1 e c stCLASS
  else
    let k := cmdCheck s1 false c
    match k.1 with
    | none => modEng k.2 e fun g => { g with hostQ := g.hostQ ++ [c] }
    | some (.att n) => complete (raise k.2 bATT n (locEngine e) (cmdSeq c) 0) e c stINVALID
    | some (.dma n) => complete (raise k.2 bDMA n (locEngine e) (cmdSeq c) 0) e c stINVALID
    | some (.index _) => complete (raise k.2 bDMA 1 (locEngine e) (cmdSeq c) 0) e c stINVALID

/-- The engine reads the entries that it owns. -/
def readQueue (e : Nat) : Nat → State → State
  | 0, s => s
  | n + 1, s => readQueue e n (readHost e s)

def ownedEntries (g : EngSt) : Nat := (g.tail - g.head).toNat

/-- May an engine run: outside reset and keep-alive mode, not stalled, nothing waiting for a peer (R211, R217)? -/
def engFree (s : State) (e : Nat) : Bool :=
  !s.pwr.keepalive && !s.boot.inReset && s.mem.on && !engStalled (engAt s e)
    && !(s.xlt.t4.any fun r => r.who == .engine e && r.faulted.isNone)

/-- Start the command that is next on an engine where its OP is the one that the row names; `run` carries it out. -/
def startOp (e op : Nat) (run : DmaCmd → State → State) (s : State) : State :=
  if !engFree s e then s
  else
    let s1 := readQueue e (ownedEntries (engAt s e)) s
    match nextCmd s1 e with
    | some c => if cmdOp c = op then run c (takeCmd s1 e c) else s1
    | none => s1

end Sys2Proof.Machine
end

