-- ==== Sys2Proof/Machine/Playout.lean ====
section
/-! DEFINITION. Media ports and playout (18 R334-R345): playout blocks, PLAY, what leaves at each tick, input flows, the
ports' links and clocks. -/

namespace Sys2Proof.Machine

/-! ### Rates (02 Table 2.2, 18 R338) -/

/-- The exact period of a rate code in seconds, as numerator and denominator. -/
def ratePeriod : Nat → Nat × Nat
  | 0 => (1001, 24000)
  | 1 => (1, 24)
  | 2 => (1, 25)
  | 3 => (1001, 30000)
  | 4 => (1, 30)
  | 5 => (1001, 48000)
  | 6 => (1, 48)
  | 7 => (1, 50)
  | 8 => (1001, 60000)
  | 9 => (1, 60)
  | 0xA => (1, 100)
  | 0xB => (1001, 120000)
  | _ => (1, 120)

/-- The period of a rate code in 1/240,000 s, exactly. -/
def periodUnits (rate : Nat) : Nat := 240000 * (ratePeriod rate).1 / (ratePeriod rate).2

/-- Media time of a domain's boundary in thirds of a ns: its place on the grid and its phase error. -/
def mediaThirds (x : DomSt) : Int := (x.clock : Int) * 12500 + 3 * x.phaseErr

/-- A media clock at the boundary of a domain's tick: its count since tick 0 or the SMPTE epoch. It runs on over changes of
rate. -/
def mediaClock (hz : Nat) (x : DomSt) : Nat := ((hz : Int) * mediaThirds x / 3000000000).toNat

/-- Samples of the first n ticks at a rate. -/
def samplesTo (rate n : Nat) : Nat := 48000 * n * (ratePeriod rate).1 / (ratePeriod rate).2

/-- Samples that tick n supplies (R338). -/
def samplesAt (rate n : Nat) : Nat := samplesTo rate (n + 1) - samplesTo rate n

/-- The largest number of samples of a tick. -/
def samplesMax (rate : Nat) : Nat := cdiv (48000 * (ratePeriod rate).1) (ratePeriod rate).2

/-- Period in ns, rounded down. -/
def periodNs (rate : Nat) : Nat := second * (ratePeriod rate).1 / (ratePeriod rate).2

/-! ### Blocks (R336, R340, R343) -/

def flowVideo (f : FlowCfg) : Bool := f.kind == 1 || f.kind == 6
def flowAudio (f : FlowCfg) : Bool := f.kind == 2 || f.kind == 7
def flowChannels (f : FlowCfg) : Nat := f.format % 16 + 1

/-- Source bytes of a picture row: 2 or 2.5 bytes a pixel. -/
def rowBytesOf (f : FlowCfg) : Nat := if f.format % 2 = 1 then f.width * 5 / 2 else f.width * 2

/-- Frame bytes (R340). -/
def frameBytes (rate : Nat) (f : FlowCfg) : Nat :=
  if flowVideo f then f.height * rowBytesOf f
  else if flowAudio f then samplesMax rate * flowChannels f * 3
  else 4096

/-- Slots of a flow in the store. -/
def flowSlots (f : FlowCfg) : Nat := if f.kind ≤ 3 then f.depth + 2 else if f.kind = 6 ∨ f.kind = 7 then 2 else 0

def flowCfg (bs : List Byte) : FlowCfg where
  flow := fld bs 0 1
  kind := fld bs 1 1
  ports := fld bs 2 1
  depth := fld bs 3 1
  repeatMax := fld bs 4 1
  pass := fld bs 5 1
  slate := fld bs 6 1
  format := fld bs 7 1
  width := fld bs 8 2
  height := fld bs 0xA 2
  pt := fld bs 0xC 1
  dscp := fld bs 0xD 1
  ttl := fld bs 0xE 1
  ssrc := BitVec.ofNat 32 (fld bs 0x10 4)
  udp := BitVec.ofNat 32 (fld bs 0x14 4)
  troNs := fld bs 0x18 4
  pitch := fld bs 0x1C 4
  dstIp := BitVec.ofNat 128 (fld bs 0x20 16)
  dstIpB := BitVec.ofNat 128 (fld bs 0x30 16)
  ring := fld bs 0x40 8
  ringBytes := fld bs 0x48 8

/-- An entry keeps within Tables 18.2 and 18.3. -/
def entryOk (slates : List Nat) (bs : List Byte) : Bool :=
  let f := flowCfg bs
  let out := decide (1 ≤ f.kind ∧ f.kind ≤ 4)
  zeroIn bs 0xF 0x10 && zeroIn bs 0x50 0x80 && decide (1 ≤ f.kind ∧ f.kind ≤ 7)
    && (if out then decide (f.flow < 32) else decide (32 ≤ f.flow ∧ f.flow < 48))
    && (if f.kind = 4 ∨ f.kind = 5 then f.ports == 4 || f.ports == 8 else decide (1 ≤ f.ports ∧ f.ports ≤ 3))
    && decide (96 ≤ f.pt ∧ f.pt ≤ 127) && decide (f.dscp ≤ 63) && decide (1 ≤ f.ttl)
    && (decide (3 < f.kind) || (decide (2 ≤ f.depth ∧ f.depth ≤ 4) && (f.pass == 255 || decide (32 ≤ f.pass ∧ f.pass < 48))
        && (f.slate == 255 || slates.contains f.slate)))
    && (!flowVideo f || (decide (f.format ≤ 3) && decide (64 ≤ f.width ∧ f.width ≤ 7680) && f.width % 2 == 0
        && decide (64 ≤ f.height ∧ f.height ≤ 4320) && f.pitch % 32 == 0))
    && (!flowAudio f || (decide (f.format < 32) && (f.format < 16 || decide (flowChannels f ≤ 8))))
    && ((f.kind != 4 && f.kind != 5) || decide (f.format ≤ 63))
    && (f.kind != 5 || f.ring % 64 == 0)

/-- Do the numbers of a list differ? -/
def allDiffer : List Nat → Bool
  | [] => true
  | x :: xs => !xs.contains x && allDiffer xs

/-- Bytes of the image's slates in the store (R340). -/
def slateBytes (s : State) : Nat := (s.boot.cfg.slates.map (·.bytes)).sum

/-- Bits per second of a flow on a port, headers included: 78 bytes of headers on every 1,460 of payload (log entry 55).
Coded flows have the rate of their context and are left out. -/
def flowBps (rate : Nat) (f : FlowCfg) : Nat :=
  if f.kind = 4 ∨ f.kind = 5 then 0
  else 8 * frameBytes rate f * (ratePeriod rate).2 * 1538 / ((ratePeriod rate).1 * 1460)

/-- Flows of the other domains: the block that governs next, or the one in force. -/
def otherFlows (s : State) (d : Nat) : List (Nat × FlowCfg) :=
  (List.range 4).flatMap fun k =>
    if k = d then [] else ((domAt s k).flowsNext.getD (domAt s k).flows).map fun f => ((domAt s k).rate, f)

/-- An input flow that serves pass-through matches the output flow that names it (R343). -/
def passOk (all : List FlowCfg) (f : FlowCfg) : Bool :=
  f.kind != 1 && f.kind != 2 || f.pass == 255
    || all.any fun i => i.flow == f.pass && i.kind == f.kind + 5 && i.format == f.format && i.width == f.width
        && i.height == f.height

/-- The tests of a parsed block for a domain at a rate (R336). -/
def flowsOk (s : State) (d rate : Nat) (l : List FlowCfg) : Bool :=
  let others := otherFlows s d
  let all := l.map (fun f => (rate, f)) ++ others
  allDiffer (l.map (·.flow)) && !(l.any fun f => others.any fun o => o.2.flow == f.flow)
    && l.all (passOk (all.map (·.2)))
    && decide (slateBytes s + (all.map fun f => flowSlots f.2 * frameBytes f.1 f.2).sum ≤ 768 * 2 ^ 20)
    && [0, 1].all fun p =>
        decide (((all.filter fun f => bitOn f.2.ports p).map fun f => flowBps f.1 f.2).sum ≤ 360 * 1000000000)

/-- The entries of a block's bytes, where each keeps within Table 18.2. -/
def blockEntries (slates : List Nat) (bs : List Byte) : Option (List FlowCfg) :=
  let l := (List.range (bs.length / 128)).map fun i => (bs.drop (128 * i)).take 128
  if l.all (entryOk slates) then some (l.map flowCfg) else none

/-- The block of a plan record: the image's default, or the one in memory; none where it is invalid. -/
def readBlock (s : State) (d rate va : Nat) : Option (List FlowCfg) × State :=
  let slates := s.boot.cfg.slates.map (·.num)
  let judge (l : Option (List FlowCfg)) : Option (List FlowCfg) := l.filter (flowsOk s d rate)
  if va = 0 then (judge (some (s.boot.cfg.playout.getD d [])), s)
  else
    let h := devRead s (.lva va) 64
    match h.1 with
    | none => (none, h.2)
    | some hd =>
      if 48 < fld hd 0 1 ∨ zeroIn hd 1 64 = false then (none, h.2)
      else
        let b := devRead h.2 (.lva (va + 64)) (128 * fld hd 0 1)
        (judge (b.1.bind (blockEntries slates)), b.2)

/-! ### The block takes effect (R344) -/

/-- Does a change of configuration clear the flow's frames? -/
def reshaped (a b : FlowCfg) : Bool :=
  a.kind != b.kind || a.format != b.format || a.width != b.width || a.height != b.height || a.ports != b.ports

/-- The accepted PLAY commands of a flow end with status REFUSED. -/
def refusePlays (f : Nat) (s : State) : State :=
  each (List.range 64) (fun s e =>
    let gone := (engAt s e).parked.filter fun p => cmdIsPlay p.2 && cmdN p.2 3 1 == f
    let s1 := modEng s e fun g => { g with
      parked := g.parked.filter fun p => !(cmdIsPlay p.2 && cmdN p.2 3 1 == f) }
    each gone (fun s p => complete (dropFault s p.1) e p.2 stREFUSED) s1) s

/-- A flow takes a new configuration, or none. -/
def applyFlow (d f : Nat) (new : Option FlowCfg) (s : State) : State :=
  let old := flowAt s f
  match old.cfg, new with
  | none, none => s
  | some _, none => if old.domain = d then refusePlays f (modFlow s f fun _ => FlowSt.reset) else s
  | none, some c => modFlow s f fun _ => { FlowSt.reset with cfg := some c, domain := d }
  | some a, some c =>
    if reshaped a c then refusePlays f (modFlow s f fun _ => { FlowSt.reset with cfg := some c, domain := d })
    else modFlow s f fun x => { x with cfg := some c, domain := d }

/-- The copied block governs from this boundary on; the default block before the first latch. -/
def applyFlows (d : Nat) (s : State) : State :=
  match (domAt s d).flowsNext with
  | none => s
  | some l =>
    each (List.range 48) (fun s f => applyFlow d f (l.find? (·.flow == f)) s)
      (modDom s d fun x => { x with flows := l, flowsNext := none })

/-! ### What leaves at a tick (R342) -/

/-- Ports of a flow that are up. -/
def portsUp (s : State) (f : FlowCfg) : Nat :=
  ((List.range 4).filter fun p => bitOn f.ports p && (mportAt s p).linkUp).foldl (fun n p => n + 2 ^ p) 0

/-- The latest fresh frame of an input flow at a boundary. -/
def freshFrame (s : State) (rate f : Nat) : Option (List Byte) :=
  ((flowAt s f).slots.find? fun x => x.whole && !x.lost && decide (s.time ≤ x.lastAt + periodNs rate)).map (·.parts.flatten)

/-- The last n bytes of a list. -/
def lastN (n : Nat) (l : List Byte) : List Byte := l.drop (l.length - n)

/-- What a substitute step sends, by the flow's essence: an ancillary flow sends a packet with ANC_Count 0 (Table 18.5). -/
def byEssence (c : FlowCfg) (video audio : FrameOut) : FrameOut :=
  if flowVideo c then video else if flowAudio c then audio else .ancEmpty

/-- Black at the flow's depth. -/
def blackOf (c : FlowCfg) : FrameOut := if bitOn c.format 0 then .black 64 512 else .black 16 128

/-- The substitute of a flow that has no good frame: SOURCE and what is sent. -/
def substitute (s : State) (rate n : Nat) (c : FlowCfg) (x : FlowSt) : Nat × FrameOut :=
  let quiet : FrameOut := .silence (samplesAt rate n)
  match x.held.filter fun _ => decide (x.repeats < c.repeatMax) with
  | some h => (1, byEssence c (.repeated h) quiet)
  | none =>
    match (if c.pass = 255 then none else freshFrame s rate c.pass) with
    | some data => (2, byEssence c (.passed data) (.passed (lastN (samplesAt rate n * flowChannels c * 3) data)))
    | none =>
      if c.slate = 255 then (4, byEssence c (blackOf c) quiet)
      else (3, byEssence c (.slate c.slate) (.slate c.slate))

/-- Packets of a frame: one for an ancillary flow (Table 18.3); a free number for video and audio, whose cut into packets is that
of the cited standards (log entry 145). -/
def countPackets (up f : Nat) (s : State) : State :=
  let media := (flowAt s f).cfg.elim false fun c => flowVideo c || flowAudio c
  let n := if media then drawn s 338 else 1
  each ((List.range 4).filter fun p => bitOn up p) (fun s p => ctrAdd s (ctrMedia p 0) n) (if media then drew s else s)

/-- One output flow sends at the boundary of tick n. -/
def sendFlow (d n : Nat) (s : State) (f : Nat) : State :=
  let x := flowAt s f
  match x.cfg with
  | none => s
  | some c =>
    if x.domain ≠ d ∨ 3 < c.kind then s
    else
      let rate := (domAt s d).rate
      let good := x.waiting.find? fun w => w.tick == n && w.good
      let pick : Nat × FrameOut := match good with
        | some w => (0, .good w)
        | none => substitute s rate n c x
      let s1 := modFlow s f fun y => { y with
        lastTick := n
        repeats := if pick.1 = 0 then 0 else if pick.1 = 1 then y.repeats + 1 else y.repeats
        source := pick.1
        inRun := pick.1 != 0
        held := match good with
          | some w => some w
          | none => y.held
        waiting := y.waiting.filter fun w => decide (n < w.tick)
        accepted := y.accepted.filter fun k => decide (n < k) }
      let s2 := ctrAdd s1 (ctrFlow f (min 3 pick.1)) 1
      let s3 :=
        if pick.1 = 0 && x.inRun then raise s2 bMED 14 (locFlow f) noSeq 0
        else if pick.1 != 0 && !x.inRun then raise s2 bMED 13 (locFlow f) noSeq 0
        else s2
      let s4 := trace s3 9 noSeq (whereOf 4 f) (leBytes 1 pick.1 ++ leBytes 1 (flowAt s3 f).repeats)
      let up := portsUp s4 c
      if up = 0 then s4
      else
        let clock := mediaClock (if flowAudio c then 48000 else 90000) (domAt s d)
        countPackets up f (emit s4 (.frame f n up (clock % 2 ^ 32) pick.1 pick.2))

/-- Is a PLAY for a flow and tick accepted and not complete (it is parked)? -/
def playOpen (s : State) (f n : Nat) : Bool :=
  s.eng.any fun g => (g.parked.map (·.2) ++ g.cur.toList ++ g.thrQ ++ g.hostQ).any fun c =>
    cmdIsPlay c && c.started && cmdN c 3 1 == f && cmdN c 0x18 8 == n

/-- A store write that is not complete when guard ends leaves its frame late: TCK.030 (02 R21). -/
def lateWrites (d n : Nat) (s : State) : State :=
  each (List.range 32) (fun s f =>
    if (flowAt s f).domain = d && (flowAt s f).accepted.contains n && playOpen s f n then
      raise s bTCK 30 (locDomain d) noSeq 0 else s) s

/-- The flows of a domain send at the boundary of tick n. -/
def sendFlows (d n : Nat) (s : State) : State := each (List.range 32) (fun s f => sendFlow d n s f) s

/-! ### PLAY (R341) -/

/-- The source runs of a frame: rows at PITCH for video. -/
def playRuns (c : FlowCfg) (va n : Nat) : List (Nat × Nat) :=
  if c.kind = 1 then (List.range c.height).map fun r => (va + r * c.pitch, rowBytesOf c) else [(va, n)]

/-- Put bytes into the frame that is being written for a tick. -/
def framePut (f tick offs n : Nat) (bs : List Byte) (s : State) : State :=
  modFlow s f fun x =>
    { x with waiting :=
        if x.waiting.any (·.tick == tick) then
          x.waiting.map fun w => if w.tick = tick then { w with data := memWrs zeroByte w.data offs bs } else w
        else x.waiting ++ [⟨tick, false, n, memWrs zeroByte [] offs bs⟩] }

/-- One source sector of a PLAY: read, and written into the store at an offset of the frame. -/
def playPiece (f tick n va len offs : Nat) (x : Xfer) : PieceEnd × Xfer :=
  let r := srcBytes ⟨true, true⟩ va len x
  match r.1 with
  | .inr z => (z, r.2)
  | .inl g =>
    if g.host then (.tier va, r.2)
    else
      let s1 := if g.poison && x.cmd.poisoned == 0 then raise r.2.s bMED 12 (locFlow f) (cmdSeq x.cmd) 0 else r.2.s
      (.done g.poison.toNat false, { r.2 with s := framePut f tick offs n g.bytes s1, held := r.2.held.take 2 })

/-- The pieces of a PLAY. -/
def playPieces (c : FlowCfg) (f tick va n : Nat) : List (Nat × (Xfer → PieceEnd × Xfer)) :=
  let runs := playRuns c va n
  ((List.range runs.length).zip runs).flatMap fun r =>
    (chunks r.2.1 r.2.2).map fun k => (1, playPiece f tick n k.1 k.2 (r.1 * rowBytesOf c + (k.1 - r.2.1)))

/-- Does LENGTH obey the rule of its essence? -/
def playLength (rate : Nat) (c : FlowCfg) (tick n : Nat) : Bool :=
  if c.kind = 1 then n == frameBytes rate c
  else if c.kind = 2 then n == samplesAt rate tick * flowChannels c * 3
  else decide (4 ≤ n ∧ n ≤ 4096) && n % 4 == 0

/-- A frame to which a spoiled work item contributed (12 R238, 15 R292): an item of the batch of the PLAY's own item; for a
host-issued PLAY, an item of its sequence for the tick before the frame's (R13; log entry 106). -/
def frameSpoiled (s : State) (c : DmaCmd) (tick : Nat) : Bool :=
  match c.issuer with
  | .thread _ _ _ => (seqAt s c.owner).spoiled.contains c.target
  | .host => decide (cmdSeq c < 32) && (seqAt s (cmdSeq c)).spoiled.any fun t => t + 1 == tick

/-- The end of a PLAY: good in time, or LATE with MED.010 and its slot freed. -/
def playEnd (e f tick : Nat) (r : Option PieceEnd × Xfer) : State :=
  match r.1 with
  | none =>
    let s := r.2.s
    let drop (s : State) : State := modFlow s f fun x => { x with waiting := x.waiting.filter (·.tick != tick) }
    if tick ≤ (domAt s (flowAt s f).domain).tickNo then
      complete (raise (drop s) bMED 10 (locFlow f) (cmdSeq r.2.cmd) 0) e r.2.cmd stLATE
    else if r.2.cmd.poisoned = 0 && !frameSpoiled s r.2.cmd tick then
      complete (modFlow s f fun x => { x with
        waiting := x.waiting.map fun w => if w.tick = tick then { w with good := true } else w }) e r.2.cmd stOK
    else complete (drop s) e r.2.cmd stOK
  | some _ => settle e r

/-- Run a PLAY, from its start or after a fault was resolved. -/
def runPlay (e : Nat) (c : DmaCmd) (s : State) : State :=
  let f := cmdN c 3 1
  let tick := cmdN c 0x18 8
  let n := cmdN c 0x10 4
  let x := flowAt s f
  match x.cfg with
  | none => complete (raise s bMED 11 (locFlow f) (cmdSeq c) 0) e c stREFUSED
  | some k =>
    let now := (domAt s x.domain).tickNo
    let go (c : DmaCmd) (s : State) : State :=
      playEnd e f tick (runPieces e (playPieces k f tick (cmdN c 8 8) n) 0 ⟨s, c, [], e⟩)
    if c.started then go c s
    else if k.kind > 3 then complete s e c stINVALID
    else if !(decide (now < tick ∧ tick ≤ now + k.depth)) || x.accepted.contains tick then
      complete (raise s bMED 11 (locFlow f) (cmdSeq c) 0) e c stREFUSED
    else if !playLength (domAt s x.domain).rate k tick n then complete s e c stINVALID
    else go { c with started := true } (modFlow s f fun x => { x with accepted := x.accepted ++ [tick] })

def execPlay (e : Engine) (s : State) : Host.Outcome State Fault Refusal :=
  .next (startOp e 0x24 (fun c s => runPlay e c s) s)

/-! ### Input flows (R339, R343) -/

/-- Audio bytes that an input flow keeps: the samples of two ticks. -/
def audioKeep (rate : Nat) (c : FlowCfg) : Nat := 2 * samplesMax rate * flowChannels c * 3

/-- The frame being received, or a new one in the next of the two slots. -/
def startSlot (l : List InFrame) : List InFrame :=
  match l with
  | x :: xs => if x.whole then (⟨[], false, false, 0⟩ :: x :: xs).take 2 else x :: xs
  | [] => [⟨[], false, false, 0⟩]

/-- The frames of a flow after a packet of its frame: the frame lost a packet, goes on, or is whole at its marker. The
flag says that a frame was lost. -/
def takeFrame (now : Nat) (gap marker : Bool) (payload : List Byte) (l : List InFrame) : List InFrame × Bool :=
  match startSlot l with
  | [] => ([], false)
  | x :: xs =>
    let y : InFrame := ⟨x.parts ++ [payload], false, x.lost || gap, now⟩
    if !marker then (y :: xs, false) else if y.lost then (xs, true) else ({ y with whole := true } :: xs, false)

/-- Take in one packet in sequence; `gap` says that packets before it are lost. A video frame ends at its marker; audio is
one stream of samples. -/
def takePacket (f : Nat) (gap : Bool) (p : Packet) (s : State) : State :=
  let x := flowAt s f
  match x.cfg with
  | none => s
  | some c =>
    let s1 := modFlow s f fun y => { y with lastTick := (domAt s y.domain).tickNo }
    if c.kind = 7 then
      let keep := audioKeep (domAt s x.domain).rate c
      let old := if gap then [] else x.slots.head?.elim [] (·.parts.flatten)
      let s2 := modFlow s1 f fun y => { y with slots := [⟨[lastN keep (old ++ p.payload)], true, false, s.time⟩] }
      if gap then raise (ctrAdd s2 (ctrFlow f 1) 1) bMED 31 (locFlow f) noSeq 0 else ctrAdd s2 (ctrFlow f 0) 1
    else
      let r := takeFrame s.time gap p.marker p.payload x.slots
      let s2 := modFlow s1 f fun y => { y with slots := r.1 }
      if r.2 then raise (ctrAdd s2 (ctrFlow f 1) 1) bMED 31 (locFlow f) noSeq 0
      else if p.marker then ctrAdd s2 (ctrFlow f 0) 1
      else s2

/-- Is a sequence number behind the next one that is expected? -/
def behind (next : Option (BitVec 16)) (seq : BitVec 16) : Bool :=
  next.elim false fun n => decide (0 < (n - seq).toNat ∧ (n - seq).toNat < 32768)

/-- The packet of a window that comes first after the expected one. -/
def firstPacket (next : Option (BitVec 16)) (l : List Packet) : Option Packet :=
  l.foldl (fun best p =>
    match best, next with
    | some b, some n => if (p.seq - n).toNat < (b.seq - n).toNat then some p else some b
    | some b, none => some b
    | none, _ => some p) none

/-- Deliver what a window may give: the expected packet, or, once `hold` ns have passed, the first that has come. -/
def flushWindow (f hold : Nat) (deliver : Bool → Packet → State → State) : Nat → State → State
  | 0, s => s
  | fuel + 1, s =>
    let x := flowAt s f
    match firstPacket x.nextSeq x.window with
    | none => s
    | some p =>
      let due := x.nextSeq.elim true (· == p.seq)
      if !due && decide (s.time < p.arrival + hold) then s
      else
        let s1 := modFlow s f fun y => { y with
          nextSeq := some (p.seq + 1), window := y.window.filter (·.seq != p.seq) }
        flushWindow f hold deliver fuel (deliver (!due) p s1)

/-- A packet joins the window of a flow unless it is behind or a copy is there, and what may be delivered is. -/
def offerPacket (f hold : Nat) (deliver : Bool → Packet → State → State) (p : Packet) (s : State) : State :=
  let x := flowAt s f
  if behind x.nextSeq p.seq || x.window.any (·.seq == p.seq) then s
  else
    let s1 := modFlow s f fun y => { y with window := y.window ++ [p] }
    flushWindow f hold deliver (flowAt s1 f).window.length s1

/-- Does an input flow accept a packet that comes over a port? -/
def accepts (s : State) (f port : Nat) (kinds : List Nat) (ssrc : BitVec 32) : Option FlowCfg :=
  (flowAt s f).cfg.filter fun c =>
    kinds.contains c.kind && bitOn c.ports port && (mportAt s port).linkUp && (c.ssrc == 0 || c.ssrc == ssrc)

/-- INPUT_PACKET_RECEIVE: a packet of a video or audio input flow; a flow on both ports is merged with a skew of up to 10
ms (R339). -/
def inputPacket (f port : Nat) (seq : BitVec 16) (ssrc : BitVec 32) (marker : Bool) (payload : List Byte) (s : State) :
    State :=
  match accepts s f port [6, 7] ssrc with
  | none => s
  | some c =>
    offerPacket f (if c.ports = 3 then 10000000 else 0) (takePacket f) ⟨seq, 0, marker, payload, s.time⟩
      (ctrAdd s (ctrMedia port 1) 1)

def execInputPacketReceive (f : Flow) (port1 : Bool) (seq : BitVec 16) (ssrc : BitVec 32) (marker : Bool)
    (payload : List Byte) (s : State) : Host.Outcome State Fault Refusal :=
  .next (inputPacket f port1.toNat seq ssrc marker payload s)

/-! ### Links and clocks of the ports (R335, R339) -/

/-- Some configured flow forms a 2022-7 pair of ports 0 and 1. -/
def pairOn (s : State) : Bool := s.flow.any fun x => x.cfg.elim false fun c => c.ports % 4 == 3

/-- A port goes down: a port of a 2022-7 pair raises MED.020, and the other keeps sending (R339, 23 R413). -/
def mportDown (p : Nat) (s : State) : State :=
  if !(mportAt s p).linkUp then s
  else
    let s1 := modMport s p fun m => { m with linkUp := false, ptpLocked := false, t1 := none, t2 := none, t3 := none }
    if p < 2 && pairOn s1 then raise s1 bMED 20 (locMedia p) noSeq 0 else s1

def execMediaLinkLoss (p : MPort) (s : State) : Host.Outcome State Fault Refusal := .next (mportDown p s)

/-- A port's link comes up while it is powered and its optical engine is not held off. -/
def mportUp (p : Nat) (s : State) : State :=
  if (mportAt s p).powered && !(mportAt s p).hot then modMport s p fun m => { m with linkUp := true } else s

def execMediaLinkUp (p : MPort) (s : State) : Host.Outcome State Fault Refusal := .next (mportUp p s)

/-- The offset of an ordinary clock from its master, once both times of a Sync are known. -/
def clockSync (m : MPortSt) : MPortSt :=
  match m.t1, m.t2 with
  | some a, some b => { m with offsetNs := (b : Int) - (a : Int) - m.delayNs }
  | _, _ => m

/-- PTP_MESSAGE: a message that crosses a port is timestamped by local time; the ordinary clock of ports 0 and 1 follows
the delay request-response mechanism (R335). -/
def ptpMessage (p : Nat) (msg : PtpMsg) (s : State) : State :=
  if !(mportAt s p).linkUp then s
  else
    let s1 := ctrAdd s (ctrMedia p 2) 1
    if 2 ≤ p then s1
    else
      modMport s1 p fun m =>
        match msg with
        | .sync true origin => clockSync { m with t1 := some origin, t2 := some s.time }
        | .sync false _ => { m with t1 := none, t2 := some s.time }
        | .followUp origin => if m.t2.isSome && m.t1.isNone then clockSync { m with t1 := some origin } else m
        | .delayReq => { m with t3 := some s.time }
        | .delayResp t4 =>
          match m.t1, m.t2, m.t3 with
          | some a, some b, some c =>
            clockSync { m with delayNs := (((b : Int) - a) + ((t4 : Int) - c)) / 2, ptpLocked := true, t3 := none }
          | _, _, _ => m

def execPtpMessage (p : MPort) (m : PtpMsg) (s : State) : Host.Outcome State Fault Refusal := .next (ptpMessage p m s)

end Sys2Proof.Machine
end

