-- ==== Sys2Proof/Machine/Sign.lean ====
section
/-! DEFINITION. What the image's check needs of the standards of Table 0.1: SHA-384 (FIPS 180-4) and the verification of an
ECDSA P-384 signature (FIPS 186-5), for 19 R350 and R351 (log entry 20). -/

namespace Sys2Proof.Machine

/-- The number that big-endian bytes spell. -/
def ofBE (bs : List Byte) : Nat := bs.foldl (fun n b => 256 * n + b.toNat) 0

/-- Big-endian bytes of a number. -/
def beBytes (n x : Nat) : List Byte := (leBytes n x).reverse

/-! ### SHA-384 -/

/-- The primes below a number that is at most 441: no factor from 2 to 20 but themselves. -/
def primesTo (n : Nat) : List Nat :=
  (List.range' 2 (n - 2)).filter fun p => (List.range' 2 19).all fun d => p % d != 0 || p == d

/-- The largest x below 2^k with x^e at most n, bit by bit. -/
def rootBits (e n : Nat) : Nat → Nat → Nat
  | 0, x => x
  | k + 1, x => rootBits e n k (if (x + 2 ^ k) ^ e ≤ n then x + 2 ^ k else x)

/-- 64 bits of the fraction of the square root (e = 2) or cube root (e = 3) of a prime. -/
def rootFrac (e p : Nat) : BitVec 64 := BitVec.ofNat 64 (rootBits e (p * 2 ^ (64 * e)) 70 0)

/-- The round constants: cube roots of the first 80 primes. The initial hash: square roots of the ninth to the sixteenth. -/
def shaK : List (BitVec 64) := (primesTo 410).map (rootFrac 3)
def shaInit : List (BitVec 64) := ((primesTo 54).drop 8).map (rootFrac 2)

def sigma (a b : Nat) (x y : BitVec 64) : BitVec 64 := x.rotateRight a ^^^ x.rotateRight b ^^^ y

/-- The message schedule, newest word first. -/
def shaSchedule (blk : List Byte) : List (BitVec 64) :=
  let first := ((List.range 16).map fun i => BitVec.ofNat 64 (ofBE ((blk.drop (8 * i)).take 8))).reverse
  (List.range 64).foldl (fun w _ =>
    let u := w.getD 1 0
    let v := w.getD 14 0
    (sigma 19 61 u (u >>> 6) + w.getD 6 0 + sigma 1 8 v (v >>> 7) + w.getD 15 0) :: w) first

/-- One round on the eight working words. -/
def shaRound (v : List (BitVec 64)) (kw : BitVec 64 × BitVec 64) : List (BitVec 64) :=
  let at' (i : Nat) : BitVec 64 := v.getD i 0
  let e := at' 4
  let a := at' 0
  let t1 := at' 7 + sigma 14 18 e (e.rotateRight 41) + ((e &&& at' 5) ^^^ (~~~e &&& at' 6)) + kw.1 + kw.2
  let t2 := sigma 28 34 a (a.rotateRight 39) + ((a &&& at' 1) ^^^ (a &&& at' 2) ^^^ (at' 1 &&& at' 2))
  [t1 + t2, a, at' 1, at' 2, at' 3 + t1, e, at' 5, at' 6]

def shaBlock (h : List (BitVec 64)) (blk : List Byte) : List (BitVec 64) :=
  let v := (shaK.zip (shaSchedule blk).reverse).foldl shaRound h
  (h.zip v).map fun p => p.1 + p.2

/-- The message with its padding: a one bit, zeros, the length in 128 bits. -/
def shaPad (bs : List Byte) : List Byte :=
  bs ++ [0x80] ++ List.replicate ((239 - bs.length % 128) % 128) 0 ++ beBytes 16 (8 * bs.length)

/-- SHA-384, as the number that its 48 bytes spell. -/
def sha384 (bs : List Byte) : BitVec 384 :=
  let m := shaPad bs
  let h := (List.range (m.length / 128)).foldl (fun h i => shaBlock h ((m.drop (128 * i)).take 128)) shaInit
  BitVec.ofNat 384 ((h.take 6).foldl (fun n x => n * 2 ^ 64 + x.toNat) 0)

/-! ### ECDSA P-384 -/

def p384 : Nat := 2 ^ 384 - 2 ^ 128 - 2 ^ 96 + 2 ^ 32 - 1
def p384B : Nat := 0xB3312FA7E23EE7E4988E056BE3F82D19181D9C6EFE8141120314088F5013875AC656398D8A2ED19D2A85C8EDD3EC2AEF
def p384N : Nat := 0xFFFFFFFFFFFFFFFFFFFFFFFFFFFFFFFFFFFFFFFFFFFFFFFFC7634D81F4372DDF581A0DB248B0A77AECEC196ACCC52973

/-- b^e mod m, for an exponent below 2^384. -/
def powMod (m b e : Nat) : Nat :=
  (List.range 384).foldl (fun r i => let q := r * r % m; if bitOn e (383 - i) then q * b % m else q) 1

/-- The inverse modulo a prime. -/
def invMod (m x : Nat) : Nat := powMod m (x % m) (m - 2)

/-- A point of the curve in Jacobian coordinates: (x, y) is (X / Z^2, Y / Z^3); Z = 0 is the point at infinity. -/
structure EcPoint where
  x : Nat
  y : Nat
  z : Nat
deriving DecidableEq, Repr

/-- A difference modulo p384, of numbers below it. -/
def subP (a b : Nat) : Nat := (a + (p384 - b)) % p384

def ecDouble (p : EcPoint) : EcPoint :=
  let yy := p.y * p.y % p384
  let zz := p.z * p.z % p384
  let s := 4 * p.x * yy % p384
  let m := 3 * (p.x + zz) * subP p.x zz % p384
  let x := subP (m * m % p384) (2 * s % p384)
  ⟨x, subP (m * subP s x % p384) (8 * yy * yy % p384), 2 * p.y * p.z % p384⟩

def ecAdd (p q : EcPoint) : EcPoint :=
  if p.z = 0 then q
  else if q.z = 0 then p
  else
    let zp := p.z * p.z % p384
    let zq := q.z * q.z % p384
    let u := p.x * zq % p384
    let s := p.y * zq * q.z % p384
    let h := subP (q.x * zp % p384) u
    let r := subP (q.y * zp * p.z % p384) s
    if h = 0 then (if r = 0 then ecDouble p else ⟨1, 1, 0⟩)
    else
      let hh := h * h % p384
      let v := u * hh % p384
      let x := subP (subP (r * r % p384) (hh * h % p384)) (2 * v % p384)
      ⟨x, subP (r * subP v x % p384) (s * (hh * h % p384) % p384), h * p.z * q.z % p384⟩

/-- A multiple of a point, for a factor below 2^384. -/
def ecMul (k : Nat) (p : EcPoint) : EcPoint :=
  (List.range 384).foldl (fun r i => let q := ecDouble r; if bitOn k (383 - i) then ecAdd q p else q) ⟨1, 1, 0⟩

/-- The base point. -/
def p384G : EcPoint where
  x := 0xAA87CA22BE8B05378EB1C71EF320AD746E1D3B628BA79B9859F741E082542A385502F25DBF55296C3A545E3872760AB7
  y := 0x3617DE4A96262C6F5D9E98BF9292DC29F8F41DBD289A147CE9DA3113B5F0B8C00A60B1CE1D7E819D7A431D7C90EA0E5F
  z := 1

/-- Does a signature (r, then s) over a digest verify under an uncompressed point? -/
def ecdsaVerify (key : List Byte) (digest : BitVec 384) (sig : List Byte) : Bool :=
  let x := ofBE ((key.drop 1).take 48)
  let y := ofBE ((key.drop 49).take 48)
  let r := ofBE (sig.take 48)
  let z := ofBE (sig.drop 48)
  let onCurve := y * y % p384 == (x * x * x + (p384 - 3) * x + p384B) % p384
  if key[0]? != some 4 || !decide (x < p384 ∧ y < p384 ∧ 0 < r ∧ r < p384N ∧ 0 < z ∧ z < p384N) || !onCurve then false
  else
    let w := invMod p384N z
    let q := ecAdd (ecMul (digest.toNat * w % p384N) p384G) (ecMul (r * w % p384N) ⟨x, y, 1⟩)
    q.z != 0 && q.x * invMod p384 (q.z * q.z) % p384 % p384N == r

end Sys2Proof.Machine
end

