-- ==== Sys2Proof/Machine/Special.lean ====
section
/-! DEFINITION. Special functions (06 R105-R112): FP32 values with their sign, the true values of the shipped functions in
fixed point, the shipped functions as free values held to their bounds, and image-supplied micro-programs. -/

namespace Sys2Proof.Machine

/-! ### FP32 values with a sign (03 R40, 06 R100) -/

/-- A value that may be poison, with its sign; the sign tells only where the value is zero. -/
structure Fv where
  v   : Val
  neg : Bool
deriving DecidableEq, Repr

def Fv.ofBits (b : BitVec 32) : Fv := ⟨ofFp32 b, b.getLsbD 31⟩
def Fv.poison : Fv := ⟨none, false⟩
/-- An exact value whose zero is +0. -/
def Fv.of (x : Val) : Fv := ⟨x, x.elim false fun d => decide (d.n < 0)⟩

/-- Sign of a value, zero included. -/
def Fv.minus (x : Fv) : Bool := x.v.elim false fun d => if d.n = 0 then x.neg else decide (d.n < 0)

/-- Write as FP32: a zero keeps its sign. -/
def Fv.bits (x : Fv) : BitVec 32 :=
  match x.v with
  | some d => if d.n = 0 then (if x.neg then 0x80000000 else 0) else toFp32 (some d)
  | none => toFp32 none

/-- Write as BF16. -/
def Fv.bits16 (x : Fv) : BitVec 16 :=
  match x.v with
  | some d => if d.n = 0 then (if x.neg then 0x8000 else 0) else toBf16 (some d)
  | none => toBf16 none

/-- Round into FP32; what rounds to zero keeps the sign of the exact result. -/
def Fv.rnd (x : Fv) : Fv := ⟨rnd32 x.v, x.minus⟩

/-- Exact operations; an exact zero sum is +0 (R40). -/
def Fv.addX (x y : Fv) : Fv := Fv.of (Val.map2 Dy.add x.v y.v)
def Fv.negX (x : Fv) : Fv := ⟨x.v.map Dy.neg, !x.minus⟩
def Fv.subX (x y : Fv) : Fv := x.addX y.negX
def Fv.mulX (x y : Fv) : Fv := ⟨Val.map2 Dy.mul x.v y.v, x.minus != y.minus⟩
def Fv.absX (x : Fv) : Fv := ⟨x.v.map Dy.abs, false⟩
def Fv.fmaX (x y z : Fv) : Fv := (x.mulX y).addX z

/-- The lesser and the greater; -0 counts as below +0. -/
def Fv.less (x y : Fv) : Bool :=
  match x.v, y.v with
  | some a, some b => Dy.lt a b || ((a.sub b).n == 0 && x.minus && !y.minus)
  | _, _ => false
def Fv.minX (x y : Fv) : Fv := if x.v.isNone || y.v.isNone then Fv.poison else if y.less x then y else x
def Fv.maxX (x y : Fv) : Fv := if x.v.isNone || y.v.isNone then Fv.poison else if x.less y then y else x

/-! ### True values in fixed point with 400 fraction bits -/

def fixBits : Nat := 400
def fixOne : Int := ((2 ^ fixBits : Nat) : Int)
/-- ln 2, π, 2/√π and √2, rounded down. -/
def fixLn2 : Int := 0xb17217f7d1cf79abc9e3b39803f2f6af40f343267298b62d8a0d175b8baafa2be7b876206debac98559552fb4afa1b10ed2e
def fixPi : Int := 0x3243f6a8885a308d313198a2e03707344a4093822299f31d0082efa98ec4e6c89452821e638d01377be5466cf34e90c6cc0ac
def fixTwoSqrtPi : Int := 0x120dd750429b6d11ae3a914fed7fd8688281341d7587cea2e7342b06199cc416180eb39f0b24e1e2281806c12d98f35d77a3e
def fixSqrt2 : Int := 0x16a09e667f3bcc908b2fb1366ea957d3e3adec17512775099da2f590b0667322a95f90608757145875163fcdfb907b6721ee9

/-- Fixed-point product and quotient. -/
def fixMul (a b : Int) : Int := a * b / fixOne
def fixDiv (a b : Int) : Int := a * fixOne / b

/-- An exact value in fixed point, and back. -/
def toFix (x : Dy) : Int :=
  let k := x.e + fixBits
  if 0 ≤ k then x.n * ((2 ^ k.toNat : Nat) : Int) else x.n / ((2 ^ (-k).toNat : Nat) : Int)
def ofFix (a : Int) : Dy := ⟨a, -(fixBits : Int)⟩

/-- Nearest integer to a / b, b > 0, ties to even. -/
def rneInt (a b : Int) : Int :=
  let q : Int := (rneDiv a.natAbs b.natAbs : Nat)
  if a < 0 then -q else q

/-- Taylor sum: term i + 1 is term i x r / (d i), for n terms after the first. -/
def taylor (r : Int) (d : Nat → Int) (first : Int) (n : Nat) : Int :=
  ((List.range n).foldl (fun (acc : Int × Int) (i : Nat) => let t := fixMul acc.1 r / d i; (t, acc.2 + t)) (first, first)).2

/-- e^x for |x| at most 2^20. -/
def trueExp (x : Dy) : Dy :=
  let a := toFix x
  let k := rneInt a fixLn2
  ⟨taylor (a - k * fixLn2) (fun i => (i : Int) + 1) fixOne 90, k - fixBits⟩

/-- ln x for x > 0. -/
def trueLn (x : Dy) : Int :=
  let lg := Nat.log2 x.n.natAbs
  let m := toFix ⟨x.n, -(lg : Int)⟩
  let z := fixDiv (m - fixOne) (m + fixOne)
  let z2 := fixMul z z
  let s := ((List.range 140).foldl (fun (acc : Int × Int) (i : Nat) =>
    (fixMul acc.1 z2, acc.2 + acc.1 / (2 * (i : Int) + 1))) (z, 0)).2
  2 * s + ((lg : Int) + x.e) * fixLn2

/-- erf x for |x| at most 8. -/
def trueErf (a : Int) : Int :=
  let x2 := fixMul a a
  let s := ((List.range 330).foldl (fun (acc : Int × Int) (i : Nat) =>
    (-(fixMul acc.1 x2) / ((i : Int) + 1), acc.2 + acc.1 / (2 * (i : Int) + 1))) (a, 0)).2
  fixMul s fixTwoSqrtPi

/-- sin or cos of x for |x| at most 2^20. -/
def trueSin (cos : Bool) (x : Dy) : Int :=
  let a := toFix x
  let half := fixPi / 2
  let k := rneInt a half
  let r := a - k * half
  let r2 := -(fixMul r r)
  let q := (k + if cos then 1 else 0) % 4
  let sn := taylor r2 (fun i => (2 * (i : Int) + 2) * (2 * (i : Int) + 3)) r 60
  let cs := taylor r2 (fun i => (2 * (i : Int) + 1) * (2 * (i : Int) + 2)) fixOne 60
  if q = 0 then sn else if q = 1 then cs else if q = 2 then -sn else -cs

/-- ⌊√n⌋, bit by bit from bit k. -/
def isqrtFrom : Nat → Nat → Nat → Nat
  | 0, n, r => if (r + 1) * (r + 1) ≤ n then r + 1 else r
  | k + 1, n, r => isqrtFrom k n (if (r + 2 ^ (k + 1)) * (r + 2 ^ (k + 1)) ≤ n then r + 2 ^ (k + 1) else r)
def isqrt (n : Nat) : Nat := isqrtFrom (Nat.log2 n / 2 + 1) n 0

/-- √x for x ≥ 0, with a sticky last bit, so that one rounding into FP32 is correct. -/
def trueSqrt (x : Dy) : Dy :=
  let up : Nat := 128 + (x.e % 2).toNat
  let n := x.n.natAbs * 2 ^ up
  let r := isqrt n
  ⟨2 * (r : Int) + (if r * r = n then 0 else 1), (x.e - up) / 2 - 1⟩

/-- 1/√x for x > 0. -/
def trueRsqrt (x : Dy) : Dy :=
  let m := x.n.natAbs * 2 ^ (x.e % 2).toNat
  ⟨isqrt (2 ^ 800 / m), -400 - (x.e - x.e % 2) / 2⟩

def Dy.gt (x : Dy) (k : Int) : Bool := Dy.lt (Dy.ofInt k) x

/-- 1/(1 + e^-x). -/
def trueSigmoid (x : Dy) : Dy :=
  if x.gt 100 then ⟨1, 0⟩
  else if Dy.lt x (Dy.ofInt (-2000)) then Dy.zero
  else if Dy.lt x (Dy.ofInt (-200)) then trueExp x
  else ofFix (fixDiv fixOne (fixOne + toFix (trueExp x.neg)))

/-- The true value of a shipped function inside its domain, to far more digits than its bound needs (Table 6.5). -/
def trueFn (slot : Nat) (x : Dy) : Dy :=
  match slot with
  | 0 => trueExp x
  | 1 => trueExp (ofFix (fixMul (toFix x) fixLn2))
  | 2 => trueExp x
  | 3 => ofFix (trueLn x)
  | 4 => ofFix (fixDiv (trueLn x) fixLn2)
  | 6 => trueRsqrt x
  | 7 => trueSqrt x
  | 8 =>
    if Dy.lt (Dy.ofInt 50) x.abs then ⟨if x.n < 0 then -1 else 1, 0⟩
    else let e := toFix (trueExp (x.scale 1)); ofFix (fixDiv (e - fixOne) (e + fixOne))
  | 9 => trueSigmoid x
  | 10 => if x.gt 100 then x else x.mul (trueSigmoid x)
  | 11 =>
    if x.gt 10 then x
    else x.mul ((ofFix (fixOne + trueErf (fixDiv (toFix x) fixSqrt2))).scale (-1))
  | 12 => if Dy.lt (Dy.ofInt 8) x.abs then ⟨if x.n < 0 then -1 else 1, 0⟩ else ofFix (trueErf (toFix x))
  | 13 => ofFix (trueSin false x)
  | 14 => ofFix (trueSin true x)
  | _ =>
    if x.gt 200 then x
    else if Dy.lt x (Dy.ofInt (-2000)) then Dy.zero
    else if Dy.lt x (Dy.ofInt (-200)) then trueExp x
    else ofFix (trueLn ((trueExp x).add ⟨1, 0⟩))

/-! ### Shipped functions (R105, R111, Table 6.5) -/

/-- Units in the last place allowed (Table 6.5). -/
def sfuUlps (slot : Nat) : Int :=
  if slot ≤ 1 ∨ slot = 3 ∨ slot = 4 ∨ slot = 6 then 1 else if slot = 10 ∨ slot = 11 then 3 else 2

/-- log2 of the ulp of FP32, or of WX32 for slot 2, at a true value. -/
def ulpExp (wx : Bool) (t : Dy) : Int :=
  if wx then ilog2 t.n.natAbs 1 + t.e - 19
  else if t.n = 0 then -149 else max (ilog2 t.n.natAbs 1 + t.e) (-126) - 23

/-- A result lies within the bound of its true value; sine and cosine may also lie within 2^-24. -/
def sfuClose (slot : Nat) (t y : Dy) : Bool :=
  let d := (y.sub t).abs
  Dy.le d ⟨sfuUlps slot, ulpExp (slot == 2) t⟩ || ((slot == 13 || slot == 14) && Dy.le d ⟨1, -24⟩)

/-- The device's own value of a shipped function, in the function's format, where its bits are a value within the bound. -/
def sfuRaw (slot : Nat) (x : Dy) : Option Fv :=
  let o := x.norm
  let b := Config.sfu slot o.n o.e
  match (if slot = 2 then ofWx32 b else ofFp32 b) with
  | some v => if sfuClose slot (trueFn slot x) v then some ⟨some v, b.getLsbD 31⟩ else none
  | none => none

/-- The monotone interval of a slot that holds x: its number, and whether the function increases on it; none outside the
declared intervals of Table 6.5. -/
def sfuPiece (slot : Nat) (x : Dy) : Option (Nat × Bool) :=
  let in_ (lo hi : Dy) : Bool := Dy.le lo x && Dy.le x hi
  match slot with
  | 0 => if Dy.le ⟨-10397, 0⟩ (x.mul ⟨100, 0⟩) && Dy.le (x.mul ⟨100, 0⟩) ⟨8872, 0⟩ then some (0, true) else none
  | 1 => if in_ ⟨-150, 0⟩ ⟨128, 0⟩ && Dy.lt x ⟨128, 0⟩ then some (0, true) else none
  | 2 => if in_ ⟨-1400, 0⟩ ⟨1400, 0⟩ then some (0, true) else none
  | 3 => if 0 < x.n then some (0, true) else none
  | 4 => if 0 < x.n then some (0, true) else none
  | 6 => if 0 < x.n then some (0, false) else none
  | 10 => if Dy.le (x.mul ⟨10000, 0⟩) ⟨-12785, 0⟩ then some (0, false) else some (1, true)
  | 11 =>
    if Dy.lt x ⟨-10, 0⟩ then none
    else if Dy.le (x.mul ⟨10000, 0⟩) ⟨-7518, 0⟩ then some (0, false) else some (1, true)
  | 13 => none
  | 14 => none
  | _ => some (0, true)

/-- Two inputs a < b keep the order that their interval declares. -/
def sfuOrdered (slot : Nat) (a b : Dy) : Bool :=
  match sfuPiece slot a, sfuPiece slot b, sfuRaw slot a, sfuRaw slot b with
  | some p, some q, some ⟨some u, _⟩, some ⟨some v, _⟩ => p.1 != q.1 || (if p.2 then Dy.le u v else Dy.le v u)
  | some _, some _, _, _ => false
  | _, _, _, _ => true

/-- p holds of i, i + 1 and so on, for n numbers. -/
def allFrom (p : Nat → Bool) : Nat → Nat → Bool
  | 0, _ => true
  | n + 1, i => p i && allFrom p n (i + 1)

/-- The device's own values of a slot meet their bound and are monotone over the declared intervals, for every two adjacent
FP32 inputs of either sign (R109, R111); slot 6 returns 1,024 for 2^-20, as the worked example of R115 has it. -/
def sfuLawful (slot : Nat) : Bool :=
  allFrom (fun i =>
    match ofFp32 (BitVec.ofNat 32 i), ofFp32 (BitVec.ofNat 32 (i + 1)) with
    | some a, some b => sfuOrdered slot a b && sfuOrdered slot b.neg a.neg
    | _, _ => true) (2 ^ 31) 0
    && (slot != 6 || sfuRaw 6 ⟨1, -20⟩ == some ⟨some ⟨2 ^ 23, -13⟩, false⟩)

/-- A shipped function inside its domain: the device's own bits, where the function that they make meets R109 and R111, else
the true value rounded (log entry 17). -/
def sfuIn (slot : Nat) (x : Dy) : Fv :=
  let t := trueFn slot x
  let near := Fv.of (if slot = 2 then ofWx32 (toWx32 (some t)) else rnd32 (some t))
  match sfuRaw slot x with
  | some y => if sfuLawful slot then y else near
  | none => near

/-- The greatest FP32 value, with a sign. -/
def fpMax (neg : Bool) : Fv := Fv.ofBits (if neg then 0xFF7FFFFF else 0x7F7FFFFF)

/-- A shipped function (Table 6.5): its result before rounding into Z_FMT, and whether the input lies outside the domain
in the sense of VEC.011. The result of slot 6 for -0 is not stated: its bits are free. -/
def shipped (slot : Nat) (x : Fv) : Fv × Bool :=
  match x.v with
  | none => (Fv.poison, false)
  | some d =>
    match slot with
    | 0 => if Dy.lt (d.mul ⟨100, 0⟩) ⟨-10397, 0⟩ then (⟨some Dy.zero, false⟩, false)
           else if Dy.lt ⟨8872, 0⟩ (d.mul ⟨100, 0⟩) then (fpMax false, false) else (sfuIn 0 d, false)
    | 1 => if Dy.lt d ⟨-150, 0⟩ then (⟨some Dy.zero, false⟩, false)
           else if Dy.le ⟨128, 0⟩ d then (fpMax false, false) else (sfuIn 1 d, false)
    | 2 => if Dy.lt ⟨1400, 0⟩ d.abs then (sfuIn 2 ⟨if d.n < 0 then -1400 else 1400, 0⟩, true) else (sfuIn 2 d, false)
    | 3 => if d.n = 0 then (fpMax true, false) else if d.n < 0 then (Fv.poison, true) else (sfuIn 3 d, false)
    | 4 => if d.n = 0 then (fpMax true, false) else if d.n < 0 then (Fv.poison, true) else (sfuIn 4 d, false)
    | 5 => if d.n = 0 then (fpMax x.neg, false) else (Fv.of (fDiv (some ⟨1, 0⟩) (some d)), false)
    | 6 => if d.n = 0 then ((if x.neg then Fv.ofBits (Config.sfu 6 0 (-1)) else fpMax false), false)
           else if d.n < 0 then (Fv.poison, true) else (sfuIn 6 d, false)
    | 7 => if d.n = 0 then (x, false) else if d.n < 0 then (Fv.poison, true)
           else (Fv.of (rnd32 (some (trueSqrt d))), false)
    | 11 => if Dy.lt d ⟨-10, 0⟩ then (⟨some Dy.zero, true⟩, false) else (sfuIn 11 d, false)
    | 13 => if Dy.lt ⟨1048576, 0⟩ d.abs then (Fv.poison, true) else (sfuIn 13 d, false)
    | 14 => if Dy.lt ⟨1048576, 0⟩ d.abs then (Fv.poison, true) else (sfuIn 14 d, false)
    | n => (sfuIn n d, false)

/-! ### Micro-programs (R106-R108) -/

/-- Working values of a micro-program. r reads as x until a step sets it (Table 6.3 gives it no first value: DESIGN CHOICE,
log entry 100). -/
structure Micro where
  x   : Fv
  r   : Fv
  rSet : Bool
  k   : Int
  neg : Bool
  y   : Fv
  seg : Nat
  out : Bool
deriving DecidableEq, Repr

/-- Round into the program's output format. -/
def outRnd (p : MicroProg) (x : Fv) : Fv :=
  if p.outfmt = 1 then Fv.of (ofWx32 (toWx32 x.v)) else x.rnd

/-- CONST[i]. -/
def MicroProg.const (p : MicroProg) (i : Nat) : Fv := Fv.ofBits (p.consts.getD i 0)

/-- v(code) of FMAC and DIV. -/
def Micro.sel (m : Micro) (p : MicroProg) (i : Nat) : Fv :=
  if i = 16 then m.x else if i = 17 then m.r else if i = 18 then Fv.of (some (Dy.ofInt m.k)) else p.const i

/-- Nearest integer to a / b, ties to even; a division by zero has no stated result and is free. -/
def quotInt (slot : Nat) (a b : Fv) : Int :=
  match a.v, b.v with
  | some p, some q =>
    if q.n = 0 then (Config.freeNat slot 106 : Nat)
    else
      let k := min p.e q.e
      let n := p.at k
      let d := q.at k
      rneInt (if d < 0 then -n else n) (if d < 0 then -d else d)
  | _, _ => 0

/-- POLY over a segment: Horner with fused steps. -/
def polyAt (g : Segment) (r : Fv) : Fv :=
  let t := (r.subX (Fv.ofBits g.centre)).rnd
  (List.range g.deg).reverse.foldl (fun y i => (y.fmaX t (Fv.ofBits (g.coef.getD i 0))).rnd)
    (Fv.ofBits (g.coef.getD g.deg 0))

/-- FLASH in a segment: where the seam below it holds a value, y is lifted or lowered to it (R108). -/
def flashAt (p : MicroProg) (seg : Nat) (y : Fv) : Fv :=
  match p.seams.getD seg none with
  | none => y
  | some b => if (p.segs.getD seg ⟨0, 0, 0, []⟩).tag = 1 then y.maxX (Fv.ofBits b) else y.minX (Fv.ofBits b)

/-- Exponent and significand of r for REDEXP. -/
def redExp (a : Nat) (r : Fv) : Int × Fv :=
  match r.v with
  | none => (0, r)
  | some d =>
    if d.n = 0 then (0, r)
    else
      let e := ilog2 d.n.natAbs 1 + d.e
      let e := if a = 2 then e - e % 2 else e
      (e / (max 1 a : Nat), Fv.of (some (d.scale (-e))))

/-- One step (Table 6.4). -/
def microStep (p : MicroProg) (m : Micro) (st : MicroStep) : Micro :=
  match st.code with
  | 1 =>
    let lo := Fv.ofBits p.domLo
    let hi := Fv.ofBits p.domHi
    let clampAt (e : Fv) : Micro := { m with x := e, r := if m.rSet then m.r else e, out := true }
    if m.x.less lo then clampAt lo else if hi.less m.x then clampAt hi else m
  | 2 => { m with neg := m.x.minus, r := m.x.absX, rSet := true }
  | 3 =>
    let k := quotInt p.slot m.r (p.const st.a)
    let k := max (-32768) (min 32768 k)
    let kf := Fv.of (some (Dy.ofInt k))
    { m with k := k, rSet := true, r := ((m.r.subX (kf.mulX (p.const st.a))).subX (kf.mulX (p.const (st.a + 1)))).rnd }
  | 4 => let e := redExp st.a m.r; { m with k := e.1, r := e.2, rSet := true }
  | 5 =>
    match (m.r.subX (p.const st.a)).v, (p.const (st.a + 1)).v with
    | some t, some w =>
      let k := min t.e w.e
      let q := if w.n = 0 then 0 else (t.at k * ((2 ^ p.seglog2 : Nat) : Int)) / (w.at k)
      { m with seg := min (2 ^ p.seglog2 - 1) q.toNat }
    | _, _ => m
  | 6 => { m with y := polyAt (p.segs.getD m.seg ⟨0, 0, 0, []⟩) m.r }
  | 7 => { m with y := flashAt p m.seg m.y }
  | 8 => { m with y := outRnd p ⟨m.y.v.map fun d => d.scale (signed 8 st.a * m.k), m.y.minus⟩ }
  | 9 => { m with y := outRnd p (m.y.fmaX (m.sel p st.a) (m.sel p st.b)) }
  | 10 =>
    if !m.neg then m
    else if st.a = 0 then { m with y := m.y.negX }
    else { m with y := outRnd p ((p.const st.b).subX m.y) }
  | 11 =>
    let a := m.sel p st.a
    match a.v, m.y.v with
    | some n, some d =>
      if d.n = 0 then { m with y := Fv.ofBits (BitVec.ofNat 32 (Config.freeNat p.slot 111)) }
      else if p.outfmt = 0 then { m with y := ⟨fDiv (some n) (some d), a.minus != m.y.minus⟩ }
      else
        { m with y := Fv.of (ofWx32 (wx32Rat ((n.n < 0) != (d.n < 0)) n.n.natAbs d.n.natAbs (n.e - d.e))) }
    | _, _ => { m with y := Fv.poison }
  | 12 => { m with y := outRnd p (m.y.mulX m.x) }
  | _ => m

/-- Run a micro-program on an element: the result in its output format, and the domain flag. y holds a free value until a
step writes it. -/
def microRun (p : MicroProg) (x : Fv) : Fv × Bool :=
  if x.v.isNone then (Fv.poison, false)
  else
    let m : Micro := ⟨x, x, false, 0, false, Fv.ofBits (BitVec.ofNat 32 (Config.freeNat p.slot 107)), 0, false⟩
    let m := p.steps.foldl (microStep p) m
    (outRnd p m.y, m.out)

/-- The micro-program of an image-supplied slot. -/
def progOf (s : State) (slot : Nat) : Option MicroProg := s.boot.cfg.progs.find? (·.slot == slot)

/-- A function slot holds a function. -/
def slotFull (s : State) (slot : Nat) : Bool := decide (slot < 16) || (progOf s slot).isSome

/-- The slot's output format is WX32. -/
def slotWx (s : State) (slot : Nat) : Bool := slot == 2 || (progOf s slot).elim false (·.outfmt == 1)

/-- Evaluate a function slot. -/
def evalSlot (s : State) (slot : Nat) (x : Fv) : Fv × Bool :=
  if slot < 16 then shipped slot x
  else match progOf s slot with
    | some p => microRun p x
    | none => (Fv.poison, false)

end Sys2Proof.Machine
end

