-- ==== Sys2Proof/Machine/Image.lean ====
section
/-! DEFINITION. The Delnal image (19 R349-R354): its layout, the conditions of its validity, and what its sections hold:
parameters, micro-programs with their seams (06 R107-R110), default playout blocks, slates, network and management. -/

namespace Sys2Proof.Machine

/-! ### Layout (R349, R350) -/

/-- Flash offset of image A or B, and the largest image. -/
def imgBase (b : Bool) : Nat := b.toNat * 0x8000000
def imgMax : Nat := 0x8000000

/-- Bytes of an image, and a field of it. -/
def imgBytes (flash : Mem) (b : Bool) (offs n : Nat) : List Byte := memRdN erasedByte flash (imgBase b + offs) n
def imgN (flash : Mem) (b : Bool) (offs size : Nat) : Nat := ofLE (imgBytes flash b offs size)

/-- An entry SECT[j] of the header. -/
structure Sect where
  type   : Nat
  flags  : Nat
  offset : Nat
  size   : Nat
  rsv    : Nat
deriving DecidableEq, Repr

/-- The header (Table 19.1). -/
structure ImgHeader where
  seq     : Nat
  svn     : Nat
  length  : Nat
  keySlot : Nat
  sects   : List Sect
deriving DecidableEq, Repr

def imgHeader (flash : Mem) (b : Bool) : ImgHeader where
  seq := imgN flash b 8 8
  svn := imgN flash b 0x10 4
  length := imgN flash b 0x14 4
  keySlot := imgN flash b 0x18 1
  sects := (List.range (imgN flash b 6 2)).map fun j =>
    let o := 0x100 + 16 * j
    ⟨imgN flash b o 2, imgN flash b (o + 2) 2, imgN flash b (o + 4) 4, imgN flash b (o + 8) 4, imgN flash b (o + 12) 4⟩

/-- MAGIC matches. -/
def imgMagic (flash : Mem) (b : Bool) : Bool := imgN flash b 0 4 == 0x4C4E4C44

/-- IMAGE_SEQ, as the choice of R352 compares it; a half without MAGIC holds no image (log entry 82). -/
def imgSeq (flash : Mem) (b : Bool) : Nat := if imgMagic flash b then imgN flash b 8 8 else 0

/-- Condition 1 of R351, and the limits of Table 19.1. -/
def headerOk (flash : Mem) (b : Bool) : Bool :=
  let h := imgHeader flash b
  let n := imgN flash b 6 2
  imgMagic flash b && imgN flash b 4 2 == 1 && decide (1 ≤ n ∧ n ≤ 64) && h.seq != 0
    && decide (h.svn ≤ 63 ∧ h.keySlot ≤ 3 ∧ h.length ≤ imgMax ∧ 0x100 + 16 * n + 160 ≤ h.length)
    && imgN flash b 0x19 1 == 1 && imgN flash b 0x1A 6 == 0 && imgN flash b 0x81 127 == 0
    && imgN flash b (h.length - 16) 16 == 0

/-- Conditions 2 and 3 of R351. -/
def signatureOk (x : BootSt) (b : Bool) : Bool :=
  let h := imgHeader x.flash b
  let key := imgBytes x.flash b 0x20 97
  let digest := sha384 (imgBytes x.flash b 0 (h.length - 160))
  decide (x.svnMin ≤ h.svn) && !x.revoked.contains h.keySlot && x.keyHashes[h.keySlot]? == some (sha384 key)
    && imgBytes x.flash b (h.length - 160) 48 == beBytes 48 digest.toNat
    && ecdsaVerify key digest (imgBytes x.flash b (h.length - 112) 96)

/-- Two sections share a byte. -/
def overlap (p q : Sect) : Bool := decide (p.offset < q.offset + q.size ∧ q.offset < p.offset + p.size)

/-- No section of a list overlaps a later one. -/
def apart : List Sect → Bool
  | [] => true
  | p :: l => l.all (fun q => !overlap p q) && apart l

/-- FLAGS of a section's type (Table 19.2). -/
def flagsOk (p : Sect) : Bool := if p.type = 3 then decide (p.flags < 4) else if p.type = 4 then decide (p.flags < 16) else p.flags == 0

/-- The sections obey R350 and Table 19.2 (condition 4 of R351). -/
def sectsOk (h : ImgHeader) : Bool :=
  let l := h.sects
  (l.all fun p => p.offset % 64 == 0 && decide (0x100 + 16 * l.length ≤ p.offset ∧ p.offset + p.size ≤ h.length - 160)
      && decide (1 ≤ p.type ∧ p.type ≤ 6) && flagsOk p && p.rsv == 0)
    && apart l
    && ([1, 2, 5, 6].all fun t => decide ((l.filter (·.type == t)).length ≤ 1))
    && [0, 1, 2, 3].all fun d => decide ((l.filter fun p => p.type == 3 && p.flags == d).length ≤ 1)

/-! ### Parameters (R354, Table 19.3) -/

/-- Parameters without a default. -/
def paramNeeded : List Nat := [0x010, 0x011, 0x012, 0x013, 0x020, 0x021, 0x022, 0x023, 0x024, 0x025, 0x050]

/-- Parameters with their defaults, as the chapters give them (02 R15, 11 R219, 12 R230, 13 Table 13.2, 14 R269, R278-R280, 15
R290, 16 Table 16.3, 21 R384). -/
def paramDefaults : List (Nat × Nat) :=
  [(0x014, 0x200), (0x015, 0x200), (0x016, 0x200), (0x017, 0x200), (0x030, 4), (0x031, 100), (0x040, 10), (0x041, 100),
   (0x042, 8)]
  ++ [(0x043, 768), (0x044, 384), (0x045, 128), (0x046, 256), (0x047, 256), (0x048, 192), (0x049, 64)]
  ++ [(0x04A, 4), (0x04B, 2), (0x04C, 1), (0x04D, 1), (0x04E, 1), (0x051, 0x100000000), (0x060, 50)]
  ++ [(0x070, 0x4000000000), (0x071, 2), (0x072, 4), (0x073, 2), (0x074, 250), (0x075, 4), (0x076, 8)]
  ++ [(0x080, 0x10000000), (0x081, 1), (0x082, 0x100000000), (0x083, 10), (0x084, 180000000), (0x085, 3), (0x086, 1),
   (0x087, 10000), (0x090, 0)]

/-- A value lies within the range that its chapter gives. -/
def paramRange (id v : Nat) : Bool :=
  if 0x014 ≤ id ∧ id ≤ 0x017 then decide (v < 2 ^ 17 ∧ v % 256 ≤ 2 ∧ v / 256 % 256 ≤ 0xC)
  else if (0x010 ≤ id ∧ id ≤ 0x013) ∨ id = 0x021 ∨ id = 0x022 ∨ id = 0x024 ∨ id = 0x025 then decide (v < 32 * nSectors)
  else if id = 0x020 then decide (v < 32 * nSectors) && v % 65536 == 0
  else if id = 0x042 then decide (4 ≤ v ∧ v ≤ 16)
  else if 0x043 ≤ id ∧ id ≤ 0x049 then decide (64 ≤ v)
  else if id = 0x060 then decide (v ≤ 100)
  else true

/-- The entries of a parameter section; none where one is malformed. -/
def paramEntries (bs : List Byte) : Option (List (Nat × Nat)) :=
  let l := (List.range (bs.length / 16)).map fun i => (bs.drop (16 * i)).take 16
  if bs.length % 16 = 0 ∧ l.all (fun e => zeroIn e 2 8) then some (l.map fun e => (fld e 0 2, fld e 8 8)) else none

/-- The parameters that an image gives, with defaults for the absent ones; none where condition 5 of R351 fails. -/
def paramList (given : List (Nat × Nat)) : Option (List (Nat × Nat)) :=
  let known (id : Nat) : Bool := paramNeeded.contains id || paramDefaults.any (·.1 == id)
  let all := given ++ paramDefaults.filter fun d => !given.any (·.1 == d.1)
  let pool (c : Nat) : Nat := (all.find? (·.1 == 0x043 + c)).elim 0 (·.2)
  if given.all (fun p => known p.1 && paramRange p.1 p.2) ∧ paramNeeded.all (fun id => given.any (·.1 == id))
      ∧ (pool 0 + pool 1 + pool 2 + pool 3 + pool 4 + pool 5 + pool 6 = 2048) then some all
  else none

/-! ### Micro-programs (06 R107-R110) -/

/-- A block of Table 6.3, without its seams. -/
def microProg (bs : List Byte) : MicroProg where
  slot := fld bs 0 1
  outfmt := fld bs 2 1
  seglog2 := fld bs 3 1
  domLo := BitVec.ofNat 32 (fld bs 4 4)
  domHi := BitVec.ofNat 32 (fld bs 8 4)
  steps := (List.range (fld bs 1 1)).map fun i => ⟨fld bs (0x10 + 8 * i) 1, fld bs (0x11 + 8 * i) 1, fld bs (0x12 + 8 * i) 1⟩
  consts := (List.range 16).map fun i => BitVec.ofNat 32 (fld bs (0x90 + 4 * i) 4)
  segs := (List.range (2 ^ fld bs 3 1)).map fun k =>
    let o := 0xD0 + 40 * k
    { centre := BitVec.ofNat 32 (fld bs o 4), tag := fld bs (o + 4) 1, deg := fld bs (o + 5) 1,
      coef := (List.range 8).map fun i => BitVec.ofNat 32 (fld bs (o + 8 + 4 * i) 4) }
  seams := []

/-- The next FP32 value below a value. -/
def fpPred (x : Fv) : Fv :=
  let b := x.bits
  if (Fv.ofBits b).less x then Fv.ofBits b
  else if b.toNat % 2 ^ 31 = 0 then Fv.ofBits 0x80000001
  else if b.getLsbD 31 then Fv.ofBits (b + 1)
  else Fv.ofBits (b - 1)

/-- The start and the length of the reduced interval: CONST[a] and CONST[a+1] of the SEG step; none without one. -/
def reduced (p : MicroProg) : Option (Fv × Fv) :=
  (p.steps.find? (·.code == 5)).map fun st => (p.const st.a, p.const (st.a + 1))

/-- A value times 2^k. -/
def Fv.twice (x : Fv) (k : Int) : Fv := ⟨x.v.map fun d => d.scale k, x.minus⟩

/-- A program contains RED followed later by SCALE +1: it has a wrap seam (R107). -/
def wraps (p : MicroProg) : Bool := (p.steps.dropWhile (·.code != 3)).any fun st => st.code == 8 && st.a == 1

/-- L and U of the seam below segment k; none where the program has no such seam or its tags do not flash it (R108). -/
def seamLU (p : MicroProg) (k : Nat) : Option (Fv × Fv) :=
  let seg (i : Nat) : Segment := p.segs.getD i ⟨0, 0, 0, []⟩
  let n := 2 ^ p.seglog2
  match reduced p with
  | none => none
  | some (lo, w) =>
    let below := if k = 0 then n - 1 else k - 1
    if (seg k).tag = 0 ∨ (seg below).tag ≠ (seg k).tag then none
    else if k = 0 then
      if wraps p then some ((polyAt (seg below) (fpPred (lo.addX w))).twice (-1), polyAt (seg 0) lo) else none
    else
      let at' := lo.addX ((w.mulX (Fv.of (some (Dy.ofInt k)))).twice (-(p.seglog2 : Int)))
      some (polyAt (seg below) (fpPred at'), polyAt (seg k) at')

/-- The seam values that FLASH uses: L where the two sides break the declared order (R108). -/
def seamOf (p : MicroProg) (k : Nat) : Option (BitVec 32) :=
  match seamLU p k with
  | none => none
  | some (l, u) => if (if (p.segs.getD k ⟨0, 0, 0, []⟩).tag = 1 then u.less l else l.less u) then some l.bits else none

/-- The two sides of a flashed seam lie within 4 ulps of FP32 at L (R110). -/
def seamOk (p : MicroProg) (k : Nat) : Bool :=
  match seamLU p k with
  | none => true
  | some (l, u) =>
    match l.v, (l.subX u).v with
    | some a, some d => Dy.le d.abs ⟨4, ulpExp false a⟩
    | _, _ => true

/-- A step's code and operands lie within Table 6.4 and the 16 constants. -/
def stepOk (last : Bool) (st : MicroStep) : Bool :=
  match st.code with
  | 0 => last
  | 3 => decide (st.a < 15)
  | 4 => st.a == 1 || st.a == 2
  | 5 => decide (st.a < 15)
  | 8 => st.a == 1 || st.a == 255
  | 9 => decide (st.a ≤ 18 ∧ st.b ≤ 18)
  | 10 => st.a == 0 || (st.a == 1 && decide (st.b < 16))
  | 11 => decide (st.a ≤ 18)
  | n => decide (n ≤ 12)

/-- A step that a tagged program may have after FLASH. -/
def afterFlashOk (p : MicroProg) (st : MicroStep) : Bool :=
  st.code != 11 && st.code != 12 && (st.code != 9 || (decide (st.a < 16) && !(p.const st.a).minus))

/-- The tests of R110 and the limits of Table 6.3. -/
def microOk (bs : List Byte) : Bool :=
  let p := microProg bs
  let n := p.steps.length
  let tagged := p.segs.any (·.tag != 0)
  decide (16 ≤ p.slot ∧ p.slot ≤ 63 ∧ p.outfmt ≤ 1 ∧ 1 ≤ n ∧ n ≤ 16) && zeroIn bs 0xC 0x10
    && ((List.range n).zip p.steps).all (fun x => stepOk (x.1 + 1 == n) x.2 && zeroIn bs (0x13 + 8 * x.1) (0x18 + 8 * x.1))
    && p.steps.getLast?.any (·.code == 0)
    && ((List.range p.segs.length).zip p.segs).all (fun x => decide (x.2.tag ≤ 2 ∧ x.2.deg ≤ 7)
      && zeroIn bs (0xD6 + 40 * x.1) (0xD8 + 40 * x.1))
    && (!tagged || ((p.steps.dropWhile (·.code != 7)).all (afterFlashOk p)))
    && (List.range p.segs.length).all (seamOk p)

/-- A program with its seam values, as boot loads it (R108). -/
def microLoad (bs : List Byte) : MicroProg :=
  let p := microProg bs
  { p with seams := (List.range p.segs.length).map (seamOf p) }

/-- The blocks of a micro-program section; none where one is rejected. `n` bounds their number. -/
def microBlocks : Nat → List Byte → Option (List MicroProg)
  | _, [] => some []
  | 0, _ :: _ => none
  | n + 1, b :: bs =>
    let all := b :: bs
    let size := 0xD0 + 40 * 2 ^ fld all 3 1
    if 8 < fld all 3 1 ∨ all.length < size then none
    else if !microOk (all.take size) then none
    else (microBlocks n (all.drop size)).map (microLoad (all.take size) :: ·)

/-! ### Slates, playout blocks, network, management (Table 19.2) -/

/-- Picture bytes of a slate: 2 or 2.5 bytes a pixel. -/
def slatePic (w h depth : Nat) : Nat := if depth = 10 then h * (w * 5 / 2) else h * w * 2

/-- A slate section; none where it is malformed. -/
def slateOf (flash : Mem) (b : Bool) (p : Sect) : Option Slate :=
  let hd := imgBytes flash b p.offset 16
  let w := fld hd 0 2
  let h := fld hd 2 2
  let depth := fld hd 4 1
  let ch := fld hd 5 1
  let body := slatePic w h depth + 144000 * ch
  if 16 ≤ p.size ∧ zeroIn hd 6 16 ∧ (depth = 8 ∨ depth = 10) ∧ p.size = 16 + body then
    some { num := p.flags, width := w, height := h, depth := depth, ch := ch,
           data := memSlice flash (imgBase b + p.offset + 16) body, bytes := body }
  else none

/-- Every slate that a video flow names has the flow's size and depth (condition 7 of R351). -/
def slatesFit (slates : List Slate) (f : FlowCfg) : Bool :=
  f.kind != 1 || f.slate == 255 || slates.any fun x => x.num == f.slate && x.width == f.width && x.height == f.height
    && x.depth == (if f.format % 2 = 1 then 10 else 8)

/-- A default playout block; none where it breaks Table 18.2. -/
def playoutOf (slates : List Slate) (bs : List Byte) : Option (List FlowCfg) :=
  let n := fld bs 0 1
  if 48 < n ∨ bs.length ≠ 64 + 128 * n ∨ !zeroIn bs 1 64 then none
  else (blockEntries (slates.map (·.num)) (bs.drop 64)).filter fun l => l.all (slatesFit slates)

/-- The network section: MAC and address per port, PTP domain, controllers; none where its size is wrong. -/
def networkOf (bs : List Byte) : Option (List (Nat × Nat) × Nat × List (Nat × Nat × List Byte)) :=
  let n := (bs.length - 89) / 242
  if bs.length ≠ 89 + 242 * n ∨ 4 < n then none
  else
    some ((List.range 4).map (fun p => (fld bs (22 * p) 6, fld bs (22 * p + 6) 16)), fld bs 88 1,
      (List.range n).map fun i =>
        (fld bs (89 + 242 * i) 16, fld bs (105 + 242 * i) 2, (bs.drop (107 + 242 * i)).take 224))

/-- The bytes of the first section of a type; none where there is none. -/
def sectBytes (flash : Mem) (b : Bool) (h : ImgHeader) (type flags : Nat) : Option (List Byte) :=
  (h.sects.find? fun p => p.type == type && (type != 3 || p.flags == flags)).map fun p => imgBytes flash b p.offset p.size

/-- A list of results, all of them or none. -/
def allSome {α : Type} : List (Option α) → Option (List α)
  | [] => some []
  | none :: _ => none
  | some x :: l => (allSome l).map (x :: ·)

/-- What an image's sections hold; none where conditions 4 to 7 of R351 fail. -/
def imgCfg (flash : Mem) (b : Bool) : Option ImageCfg :=
  let h := imgHeader flash b
  let sec (t d : Nat) : List Byte := (sectBytes flash b h t d).getD []
  if !sectsOk h then none
  else
    let slates := allSome ((h.sects.filter (·.type == 4)).map (slateOf flash b))
    let playout := slates.bind fun sl => allSome ([0, 1, 2, 3].map fun d =>
      match sectBytes flash b h 3 d with
      | some bs => playoutOf sl bs
      | none => some [])
    let net := match sectBytes flash b h 5 0 with
      | some bs => networkOf bs
      | none => some ([], 0, [])
    let man := sec 6 0
    match (paramEntries (sec 1 0)).bind paramList, microBlocks (sec 2 0).length (sec 2 0), slates, playout, net with
    | some ps, some progs, some sl, some pl, some nw =>
      if man.length ≠ 0 ∧ man.length ≠ 5 then none
      else some { params := ps, progs := progs, playout := pl, slates := sl, macs := nw.1, ptpDomain := nw.2.1,
                  ctrls := nw.2.2, i3cAddr := fld man 0 1, vendorId := fld man 1 4 }
    | _, _, _, _, _ => none

/-- The configuration of a valid image (R351); none where the image is invalid. -/
def validImage (x : BootSt) (b : Bool) : Option ImageCfg :=
  if headerOk x.flash b && signatureOk x b then imgCfg x.flash b else none

end Sys2Proof.Machine
end

