-- ==== Sys2Proof/Machine/KeepAlive.lean ====
section
/-! DEFINITION. The entry to keep-alive mode (20 R378, R419, 10 R191, 14 R281, 18 R345, 21 R389, 22 R399, R403): what is
lost at once, and what stays. The exit is the command EXIT_ATTEMPT. -/

namespace Sys2Proof.Machine

/-- The stack interfaces go off: contents, caches and eaves entries are lost (10 R191). -/
def memOff (m : MemSt) : MemSt :=
  { m with
    stack := []
    poison := []
    eccErr := []
    lines := []
    eaves := []
    on := false
    stks := m.stks.map fun k => { k with noReading := true }
    retrainReq := []
    retraining := []
    maint := [] }

/-- A cluster is gated off: its threads, slots, array and store contents go. -/
def clOff (cl : ClusterSt) : ClusterSt :=
  { cl with powered := false, array := none, heldA := none, heldB := none, waitQ := [], slots := ClusterSt.reset.slots,
            threads := ClusterSt.reset.threads }

/-- An engine loses its accepted commands, but codec commands, which end at the exit (17 R332); HEAD and TAIL hold until
then (11 R212). -/
def engOff (g : EngSt) : EngSt :=
  { EngSt.reset with head := g.head, tail := g.tail, thrQ := g.thrQ.filter cmdIsCodec, hostQ := g.hostQ.filter cmdIsCodec }

/-- A port is down and its link engines are off; an unused port stays unused (14 R281). -/
def portOff (p : PortSt) : PortSt := { PortSt.reset with state := if p.state == .unused then .unused else .down }

/-- A media port that is no part of the always-on domain is off (18 R345). -/
def mportOff (i : Nat) (p : MPortSt) : MPortSt :=
  if i < 2 then p else { p with powered := false, linkUp := false, ptpLocked := false }

/-- A codec context loses its state; its commands end at the exit (17 R332). -/
def ctxOff (x : CtxSt) : CtxSt := { x with dpb := [], run2 := false, run3 := false }

/-- No PLAY completes: frames not written wholly are dropped; ports 2 and 3 lose their packets, and an RTP-in flow begins
again at the start of its ring (18 R345). -/
def flowOff (f : FlowSt) : FlowSt :=
  let g := { f with waiting := f.waiting.filter (·.good) }
  if f.cfg.elim false (·.kind == 5) then { g with slots := [], nextSeq := none, window := [], prodAt := 0 } else g

/-- Every block that is not in the always-on domain is switched off. -/
def blocksOff (s : State) : State :=
  { s with
    mem := memOff s.mem
    st := { s.st with cs := [], csPoison := [], csErr := [] }
    cl := s.cl.map clOff
    eng := s.eng.map engOff
    xlt := { s.xlt with tlb := [], faults := [], t4 := [] }
    link := s.link.map fun k => { LinkSt.reset with removed := k.removed, hot := k.hot, fails := k.fails }
    port := s.port.map portOff
    col := { s.col with units := ColSt.reset.units, paceOn := false }
    cod := { s.cod with ctxs := s.cod.ctxs.map ctxOff, encOn := CodSt.reset.encOn, decOn := CodSt.reset.decOn }
    flow := s.flow.map flowOff
    mport := ((List.range s.mport.length).zip s.mport).map fun p => mportOff p.1 p.2
    hif := { s.hif with epPowered := false, epUp := false, stPowered := false, stUp := false }
    snp := { s.snp with capt := none, capture := none, staged := none, wardDrain := none, restoring := none,
                        wardHold := none,
                        wardM0 := 0, wardM1 := 0, storeOk := false } }

/-- Tracing stops: ENABLE is cleared, buffered records are dropped and counted, and OBS.010 is raised (21 R389). -/
def traceOff (s : State) : State :=
  if s.obs.domain == .off && !s.obs.enable then s
  else
    let n := s.obs.buf.length
    let s1 := { s with obs := { s.obs with enable := false, buf := [], domain := .off } }
    raise (ctrAdd s1 (ctrFibry 1) n) bOBS 10 locDevice noSeq 0

/-- The host destination takes every record without writing it, and the event ring's ENABLE is cleared (22 R399). -/
def eventRingOff (s : State) : State :=
  { s with ev := { s.ev with
    ringOn := false
    buf := evPurge (mgmtOn s) false (s.ev.buf.map fun r => { r with tookHost := r.tookHost || s.ev.ringOn }) } }

/-- The neighbour ports that are up. -/
def upPorts (s : State) : List Nat := (List.range 8).filter fun p => (portAt s p).state == .up

/-- The entry to keep-alive mode for a cause (22 R403: the first fatal event sets CAUSE). Every port that was up is down
(14 R268, R281). -/
def enterKeepalive (s : State) (block num : Nat) (cause : Cause) : State :=
  if s.pwr.keepalive then s
  else
    let s1 := traceOff (ctrAdd s 12 1)
    let s2 := eventRingOff (blocksOff s1)
    let s3 := { s2 with pwr := { s2.pwr with
        keepalive := true
        causeNum := num % 256
        causeMem := block == bMEM
        cause := cause
        enteredAt := s2.time
        coolSince := none
        railSince := none
        quads := s2.pwr.quads.map fun q => { q with clock := 0 } } }
    each (upPorts s) (fun s p => raise s bLNK 11 (locPort p) noSeq 0) s3

/-- Every TJ and TS_Sn is at least 15 °C below its trip (20 R379: trips at 110 °C and 115 °C). -/
def allCool (s : State) : Bool :=
  decide (s.pwr.tjIod ≤ 95) && s.pwr.quads.all (fun q => decide (q.tjCd ≤ 95 ∧ q.tjBd ≤ 95))
    && s.mem.stks.all fun k => decide (k.temp ≤ 100)

/-- Since when it has been so, in keep-alive mode. -/
def noteCool (s : State) : State :=
  if !s.pwr.keepalive then s
  else { s with pwr := { s.pwr with coolSince := if allCool s then some (s.pwr.coolSince.getD s.time) else none } }

/-- The stack interfaces are powered: from boot step 4, outside keep-alive mode (20 Table 20.2). -/
def stacksPowered (s : State) : Bool :=
  !s.boot.inReset && !s.boot.noImage && !s.pwr.keepalive && decide (4 ≤ s.boot.step)

/-- Raise a fatal event and enter keep-alive mode. -/
def raiseFatal (s : State) (block num : Nat) (l : BitVec 32) (detail : Word64) (cause : Cause) : State :=
  enterKeepalive (raise s block num l noSeq detail) block num cause

end Sys2Proof.Machine
end

