-- ==== Sys2Proof/Machine/Channels.lean ====
section
/-! DEFINITION. The events of the memory channels: eaves timeout (10 R182), scrub (R187), the stacks' temperature states
(R188-R191), retraining and repair (R193-R196). -/

namespace Sys2Proof.Machine

/-- EAVES_TIMEOUT: an entry open for 2 µs leaves. -/
def eavesTimeout (sector : Nat) (s : State) : State :=
  match s.mem.eaves.find? (·.sector == sector) with
  | some e => if s.mem.on && e.opened + 2000 ≤ s.time then eavesFlush s sector else s
  | none => s

def execEavesTimeout (sector : Nat) (s : State) : Host.Outcome State Fault Refusal := .next (eavesTimeout sector s)

/-- Errors that have arisen by now, in any sector (log entry 5): they stand until a read meets them. -/
def errorsArise (found : List (Nat × EccKind)) (s : State) : State :=
  let more := found.filter fun f =>
    decide (f.1 < nSectors) && !s.mem.eccErr.any (·.1 == f.1) && !s.mem.poison.contains f.1
  { s with mem := { s.mem with eccErr := s.mem.eccErr ++ more } }

/-- Sectors of a channel in row order: rows, then banks, then columns (10 R187; the order within a row is the model's, log
entry 5). -/
def rowOrder (l : List Nat) : List Nat :=
  l.mergeSort fun a b =>
    let x := home a
    let y := home b
    x.row < y.row || (x.row == y.row && (x.bank < y.bank || (x.bank == y.bank && x.column ≤ y.column)))

/-- SCRUB: the controller reads every sector of a channel in row order and writes back what it corrects (R187); a sector that
is found uncorrectable is poisoned (R185), and a poisoned one is read as poison. Reads of the others show nothing. -/
def scrub (ch : Nat) (found : List (Nat × EccKind)) (s : State) : State :=
  if !s.mem.on then s
  else
    let s1 := errorsArise found s
    each (rowOrder ((s1.mem.poison ++ s1.mem.eccErr.map (·.1)).filter fun n => homeCh n == ch)) chanRead s1

def execScrub (ch : Channel) (found : List (Nat × EccKind)) (s : State) : Host.Outcome State Fault Refusal :=
  .next (scrub ch found s)

/-! ### Temperature (R189-R191) -/

/-- Row of Table 10.1 for a temperature. -/
def stackRow (t : Int) : Nat :=
  if t < 85 then 0 else if t < 95 then 1 else if t < 105 then 2 else if t < 110 then 3 else if t < 115 then 4 else 5

/-- Lower bound of a row. -/
def stackBound : Nat → Int
  | 0 => -1000
  | 1 => 85
  | 2 => 95
  | 3 => 105
  | 4 => 110
  | _ => 115

/-- Every sample since a time has been at least 3 °C below a bound: that time, and whether 100 ms have passed. -/
def coolStep (now : Nat) (bound t : Int) (since : Option Nat) : Option Nat × Bool :=
  if t ≤ bound - 3 then
    match since with
    | some t0 => (some t0, decide (t0 + 100000000 ≤ now))
    | none => (some now, false)
  else (none, false)

/-- A stack after a sample: its state, and the event code of a row entered. A step down goes down one row, and the 100 ms
start again (log entry 54). -/
def stackStep (now : Nat) (k : StackSt) (t : Int) : StackSt × Option Nat :=
  let r := stackRow t
  if k.row < r then
    ({ k with temp := t, row := r, coolSince := none, noReading := false },
      if r = 5 then none else if 3 ≤ r then some 11 else some 10)
  else
    let c := coolStep now (stackBound k.row) t k.coolSince
    if 0 < k.row && c.2 then
      ({ k with
          temp := t
          row := k.row - 1
          coolSince := if 0 < k.row - 1 then (coolStep now (stackBound (k.row - 1)) t none).1 else none
          noReading := false }, none)
    else ({ k with temp := t, coolSince := if k.row = 0 then none else c.1, noReading := false }, none)

/-- One stack's sample: the gauge, the row and its event. -/
def stackSample (s : State) (n : Nat) (t : Int) : State :=
  let k := unit s.mem.stks n StackSt.reset
  let s1 := ctrGauge s (ctrStack n 7) t
  let r := stackStep s.time k t
  let s4 := { s1 with mem := { s1.mem with stks := s1.mem.stks.set n r.1 } }
  match r.2 with
  | some code => raise s4 bMEM code (locStack n) noSeq 0
  | none => s4

/-- Every TS_Sn of a millisecond. At 115 °C the stacks shut down and keep-alive mode begins (R191). In
keep-alive mode the readings serve the exit condition (20 R379). -/
def stackTemps (ts : List Int) (s : State) : State :=
  if s.boot.inReset || s.boot.noImage then s
  else
    let s1 := noteCool (each ((List.range 20).zip ts) (fun s p => stackSample s p.1 p.2) s)
    match (((List.range 20).zip ts).find? fun p => decide (115 ≤ p.2)) with
    | some p => if stacksPowered s1 then raiseFatal s1 bMEM 12 (locStack p.1) 0 .thermal else s1
    | none => s1

/-! ### Retraining and repair (R193-R196) -/

/-- Does the exception of two uncorrectable errors in a second hold for a channel? -/
def urgent (s : State) (ch : Nat) : Bool := decide (2 ≤ recent s s.mem.uncorrTimes ch)

/-- A channel fails: MEM.023, the stacks shut down, keep-alive mode (R196). -/
def channelFail (s : State) (ch : Nat) : State :=
  let s1 := { s with mem := { s.mem with
    stks := s.mem.stks.modify (ch / 64) fun k => { k with failed := true }, retraining := [] } }
  raiseFatal s1 bMEM 23 (locChannel ch) 0 .other

/-- Times of a channel's full retrains within the last 10 s. -/
def retrainsIn10 (s : State) (ch : Nat) : Nat :=
  (s.mem.retrainTimes.filter fun e => e.1 == ch && decide (s.time < e.2 + 10 * second)).length

/-- May a retrain start: no domain is in its admit phase, none runs, and 100 ms have passed since the last; a channel with two
uncorrectable errors within a second is retrained at once (R193). -/
def retrainMay (s : State) (ch : Nat) : Bool :=
  urgent s ch || (!(s.dom.any fun d => d.running && d.phase == .admission) && s.mem.retraining.isEmpty
    && s.mem.lastRetrain.elim true fun t => decide (t + 100000000 ≤ s.time))

/-- CHANNEL_RETRAIN: a full retrain starts, for its error counts or for drift; where it may not start yet, its trigger stands.
A fourth one within 10 s fails the channel (R196). -/
def channelRetrain (ch : Nat) (drift : Bool) (s : State) : State :=
  if !s.mem.on || !(drift || s.mem.retrainReq.contains ch) || s.mem.retraining.any (·.1 == ch) then s
  else if !retrainMay s ch then askRetrain s ch
  else if 3 ≤ retrainsIn10 s ch then channelFail s ch
  else
    { s with mem := { s.mem with
      retrainReq := s.mem.retrainReq.filter (· != ch)
      retraining := s.mem.retraining ++ [(ch, s.time)]
      lastRetrain := some s.time
      retrainTimes := (ch, s.time) :: s.mem.retrainTimes.filter fun e => decide (s.time < e.2 + 10 * second) } }

def execChannelRetrain (ch : Channel) (drift : Bool) (s : State) : Host.Outcome State Fault Refusal :=
  .next (channelRetrain ch drift s)

/-- Lane repairs of a channel. -/
def lanesOf (s : State) (ch : Nat) : List Repair :=
  (s.mem.bootRepairs ++ s.mem.repairs).filter fun r => !r.isRow && r.channel == ch

/-- Spare lanes of a channel that are out of use: those that took a lane's place, and those that failed (R194). -/
def sparesUsed (s : State) (ch : Nat) : List Nat := (lanesOf s ch).map (·.spare)

/-- The data or ECC lane that a spare lane carries: the last that was remapped to it, unless it was remapped again. -/
def carriedBy (s : State) (ch spare : Nat) : Option Nat :=
  ((lanesOf s ch).reverse.find? fun r => r.lane < 36 && r.spare == spare).bind fun r =>
    if ((lanesOf s ch).reverse.find? fun q => q.lane == r.lane).any (·.spare == spare) then some r.lane else none

/-- Remap a data or ECC lane to a free spare; none left fails the channel (R194, R196). The flag says that the channel
failed. A spare lane that fails is taken out of use; the lane that it carried has failed again and takes another spare. -/
def laneRepair (ch : Nat) (acc : State × Bool) (lane : Nat) : State × Bool :=
  if acc.2 then acc
  else
    let s := acc.1
    let used := sparesUsed s ch
    let put (s : State) (lane sp : Nat) : State := { s with mem := { s.mem with
      repairs := s.mem.repairs ++ [{ channel := ch, isRow := false, lane := lane, bank := 0, row := 0, spare := sp }] } }
    let s1 := if 36 ≤ lane ∧ !used.contains lane then put s lane lane else s
    match (if 36 ≤ lane then carriedBy s ch lane else some lane) with
    | none => (s1, false)
    | some l =>
      match [36, 37, 38, 39].find? fun l => !used.contains l with
      | some sp => (raise (put s1 l sp) bMEM 21 (locChannel ch) noSeq 0, false)
      | none => (s1, true)

/-- RETRAIN_DONE: bad lanes are remapped, the time is domain overhead (R195), and MEM.020 is raised; a retrain that fails
fails the channel. The channel was blocked since the retrain began, for at most 1.5 ms. -/
def retrainDone (ch : Nat) (trained : Bool) (bad : List Nat) (s : State) : State :=
  match s.mem.retraining.find? (·.1 == ch) with
  | none => s
  | some x =>
    let s1 := noteMaint { s with mem := { s.mem with retraining := s.mem.retraining.filter (·.1 != ch) } } x.2
      (min s.time (x.2 + retrainMax))
    let r := bad.foldl (laneRepair ch) (s1, false)
    if !trained || r.2 then channelFail r.1 ch
    else raise (ctrAdd r.1 (ctrStack (ch / 64) 5) 1) bMEM 20 (locChannel ch) noSeq 0

def execRetrainDone (ch : Channel) (trained : Bool) (badLanes : List (Fin 40)) (s : State) :
    Host.Outcome State Fault Refusal :=
  .next (retrainDone ch trained (badLanes.map (·.val)) s)

end Sys2Proof.Machine
end

