-- ==== Sys2Proof/Machine/Dma.lean ====
section
/-! DEFINITION. The DMA commands COPY, FMAP_PACK, FMAP_UNPACK, HOST_IN and HOST_OUT (11 R205-R207, R215-R217, 08 R155-R157)
and the doorbell (11 R212). -/

namespace Sys2Proof.Machine

/-! ### COPY (R215) -/

/-- Base of a side: a store offset or a local virtual address. -/
def sideBase (t0 : Bool) (a : Word64) : Nat := if t0 then a.toNat else gLocal a

/-- Are the tiers that the translations showed permitted (Table 11.3)? `none` is T0, `some true` is T3. -/
def tiersOk (cls : Nat) (src dst : Option Bool) : Bool :=
  match cls with
  | 0 => (src == some false && dst.isNone) || (src == some true && dst == some false)
  | 2 => (src == some true) != (dst == some true)
  | _ => src != some true && dst != some true

/-- Source bytes of a weights-class COPY: a yealm that is poisoned is read from its TWIN or delivered as poison (12 R237). -/
def weightBytes (m : SrcMode) (va n : Nat) (x : Xfer) : (Held ⊕ PieceEnd) × Xfer :=
  (chunks va n).foldl (fun acc c =>
    match acc.1 with
    | .inr _ => acc
    | .inl h =>
      let w := weightSrc acc.2.s c.1
      let x1 := { acc.2 with s := w.2 }
      match w.1 with
      | .poison => (.inl (h.join ⟨va, List.replicate c.2 0, true, false, false⟩), x1)
      | .plain a =>
        let r := srcBytes m a c.2 x1
        (match r.1 with
         | .inl g => .inl (h.join g)
         | .inr e => .inr e, r.2)) (.inl ⟨va, [], false, false, false⟩, x)

/-- Source bytes of a COPY on this device. -/
def copySource (d : DmaDesc) (a n : Nat) (x : Xfer) : (Held ⊕ PieceEnd) × Xfer :=
  if d.srcT0 then let r := storeBytes d.cluster a n x; (.inl r.1, r.2)
  else
    let m : SrcMode := ⟨classHost d.cls, !d.noAlloc⟩
    if d.cls = 0 then weightBytes m a n x else srcBytes m a n x

/-- Where a COPY writes on this device: a store, or a translation. -/
def copyDest (d : DmaDesc) (a : Nat) (x : Xfer) : Option Xl × State :=
  if d.dstT0 then (none, x.s) else let r := translate x.s (a % 2 ^ 52) .w (classHost d.cls) x.port; (some r.1, r.2)

/-- Tier of a destination. -/
def xlHost : Option Xl → Option Bool
  | none => none
  | some (.host _) => some true
  | some _ => some false

/-- The address whose translation shows a tier that is not permitted: the destination's where the source lies in T0 or the
destination in T3, else the source's. -/
def tierPlace (d : DmaDesc) (sa a : Nat) (p : Option Xl) : Nat :=
  if d.srcT0 || (xlHost p == some true && d.cls != 2) then a else sa

/-- Write a piece of a COPY at its destination on this device, or say why not: n bytes that came from `sa`. -/
def copyPut (d : DmaDesc) (sa a : Nat) (src : Option Bool) (g : Held) (x : Xfer) : PieceEnd × Xfer :=
  let err := x.cmd.errAt == some x.cmd.done
  let t := copyDest d a x
  let x1 := { x with s := t.2, held := x.held.take 2 }
  match t.1 with
  | some (.retry l) => (.fault 3 a (.retry l), x1)
  | some (.fatal c l) => (.fault 3 a (.fatal c l), x1)
  | some p =>
    if g.mixed || !tiersOk d.cls src (xlHost (some p)) then (.tier (tierPlace d sa a (some p)), x1)
    else if (src == some true || xlHost (some p) == some true) && (err || !hostReady x1.s) then (.hostErr, x1)
    else (.done g.poison.toNat g.poison, { x1 with s := placePut x1.s p g.bytes g.poison })
  | none =>
    if g.mixed || !tiersOk d.cls src none then (.tier (tierPlace d sa a none), x1)
    else if src == some true && err then (.hostErr, x1)
    else (.done g.poison.toNat g.poison, { x1 with s := storePut x1.s d.cluster a g.bytes g.poison })

/-- The work item of an issuer, 0 for the host. -/
def issuerItem : Issuer → Nat
  | .thread _ _ i => i
  | .host => 0

/-- Send the memory request of a piece to a peer (R223, 14 R275). -/
def copyAsk (e : Nat) (dst va n : Nat) (op : MemOp) (data : List Byte) (x : Xfer) : PieceEnd × Xfer :=
  (.peer, { x with s := t4Send x.s (.engine e) (issuerItem x.cmd.issuer) dst op (va % 2 ^ 52) n data 0 })

/-- One destination sector of a COPY: n bytes at destination address a. A poisoned sector goes to a peer as poison (R216). -/
def copyPiece (e : Nat) (d : DmaDesc) (a n : Nat) (x : Xfer) : PieceEnd × Xfer :=
  let sa := sideBase d.srcT0 d.src + (a - sideBase d.dstT0 d.dst)
  if sidePeer x.s d.srcT0 d.src then
    let t := copyDest d a x
    let x1 := { x with s := t.2 }
    match t.1 with
    | some (.retry l) => (.fault 3 a (.retry l), x1)
    | some (.fatal c l) => (.fault 3 a (.fatal c l), x1)
    | _ => copyAsk e (gIndex d.src) sa n .read [] x1
  else
    let r := copySource d sa n x
    match r.1 with
    | .inr z => (z, r.2)
    | .inl g =>
      if sidePeer x.s d.dstT0 d.dst then
        copyAsk e (gIndex d.dst) a n (if g.poison then .poison else .write) g.bytes { r.2 with held := r.2.held.take 2 }
      else copyPut d sa a (if d.srcT0 then none else some g.host) g r.2

/-- The pieces of a COPY: its destination sectors, ascending. -/
def copyPieces (e : Nat) (d : DmaDesc) : List (Nat × (Xfer → PieceEnd × Xfer)) :=
  (chunks (sideBase d.dstT0 d.dst) d.length).map fun c => (1, copyPiece e d c.1 c.2)

def runCopy (e : Nat) (c : DmaCmd) (s : State) : State :=
  settle e (runPieces e (copyPieces e (dmaDesc c)) 0 ⟨s, c, [], e⟩)

def execCopy (e : Engine) (hostErrAt : Option Nat) (s : State) : Host.Outcome State Fault Refusal :=
  .next (startOp e 0x10 (fun c s => runCopy e { c with errAt := hostErrAt } s) s)

/-- A peer answered the request of a COPY: a read with data, which may be poison, or a write, which may have delivered poison.
The sector is complete, and the command goes on. -/
def copyAnswered (e : Nat) (sent bad : Bool) (data : List Byte) (s : State) : State :=
  match (engAt s e).cur with
  | none => s
  | some c =>
    let d := dmaDesc c
    let s1 := modEng s e fun g => { g with cur := none }
    let go (x : Xfer) : State := settle e (runPieces e (copyPieces e d) 0 x)
    match (chunks (sideBase d.dstT0 d.dst) d.length)[c.parts]? with
    | none => complete s1 e c stOK
    | some p =>
      if sidePeer s d.srcT0 d.src then
        let bs := data.take p.2 ++ List.replicate (p.2 - data.length) 0
        let r := copyPut d p.1 p.1 none ⟨0, bs, bad, false, false⟩ ⟨s1, c, [], e⟩
        match r.1 with
        | .done n said => go (advance e 1 n said r.2)
        | z => settle e (some z, r.2)
      else go (advance e 1 sent.toNat sent ⟨s1, c, [], e⟩)

/-! ### FMAP (08 R155-R157) -/

/-- Element width, sectors, blocks and their spacing of a unit by rate code (Table 8.4). -/
def fmapBits (rate : Nat) : Nat := if rate = 1 then 7 else if rate = 2 then 4 else 3
def fmapSize (rate : Nat) : Nat := if rate = 1 then 64 else if rate = 2 then 128 else 32
def fmapBlocks (rate : Nat) : Nat := if rate = 2 then 3 else 1
/-- Bytes that one block takes: 8 row exponents and its elements. -/
def fmapSpan (rate : Nat) : Nat := 8 + 8 * fmapBits rate

/-- The units of a map in T2 order: channel or triple, block row, block column. -/
def fmapUnits (d : DmaDesc) : List (Nat × Nat × Nat) :=
  let bh := cdiv d.h 8
  let bw := cdiv d.w 8
  (List.range (cdiv d.c (fmapBlocks d.rate) * bh * bw)).map fun i => (i / (bh * bw), i / bw % bh, i % bw)

/-- Address of unit i in T2. -/
def fmapAddr (d : DmaDesc) (base i : Nat) : Nat := base + i * fmapSize d.rate

/-- Store offset of an element. -/
def fmapElem (d : DmaDesc) (base h w c : Nat) : Nat := base + h * d.p2 + w * posBytes 5 d.c + 2 * c

/-- Row exponent and codes of one row (R156): `none` marks positions outside the extent. -/
def packRow (b : Nat) (xs : List (Option Val)) : Nat × List Nat :=
  let inside := xs.filterMap id
  if inside.any (·.isNone) then (255, xs.map fun _ => 0)
  else
    let m := amaxOf (inside.filterMap id)
    let top : Int := ((2 ^ (b - 1) - 1 : Nat) : Int)
    let g := ((List.range 255).find? fun (g : Nat) => Dy.le m ⟨top, (g : Int) - 127⟩).getD 254
    let g := if m.n = 0 then 0 else g
    (g, xs.map fun v =>
      match v with
      | some (some x) =>
        let n := rnePow x.n.natAbs (x.e + 127 - (g : Int))
        if x.n < 0 then field b (-(n : Int)) else n
      | _ => 0)

/-- The elements of a block as they are read: position inside the map or not. -/
def fmapRow (s : State) (d : DmaDesc) (base ch bh bw r : Nat) : List (Option Val) :=
  (List.range 8).map fun k =>
    if 8 * bh + r < d.h ∧ 8 * bw + k < d.w ∧ ch < d.c then
      some (bf16At s d.cluster (fmapElem d base (8 * bh + r) (8 * bw + k) ch))
    else none

/-- Bytes of one block. -/
def packBlock (s : State) (d : DmaDesc) (base ch bh bw : Nat) : List Byte :=
  let b := fmapBits d.rate
  let rows := (List.range 8).map fun r => packRow b (fmapRow s d base ch bh bw r)
  rows.map (fun r => BitVec.ofNat 8 r.1) ++ leBytes (8 * b)
    (((List.range 64).zip (rows.flatMap (·.2))).foldl (fun acc v => acc + v.2 % 2 ^ b * 2 ^ (b * v.1)) 0)

/-- Bytes of a unit. -/
def packUnit (s : State) (d : DmaDesc) (base u bh bw : Nat) : List Byte :=
  let n := fmapBlocks d.rate
  let l := (List.range n).flatMap fun k => packBlock s d base (n * u + k) bh bw
  l ++ List.replicate (fmapSize d.rate - l.length) 0

/-- Positions of a unit inside the map: channel and place. -/
def unitPlaces (d : DmaDesc) (base u bh bw : Nat) : List Nat :=
  let n := fmapBlocks d.rate
  (List.range n).flatMap fun k => (List.range 64).filterMap fun i =>
    let h := 8 * bh + i / 8
    let w := 8 * bw + i % 8
    if h < d.h ∧ w < d.w ∧ n * u + k < d.c then some (fmapElem d base h w (n * u + k)) else none

/-- The places of a run of bytes by local virtual address, sector by sector; the first sector that has none stops. -/
def vaPlaces (hostOk : Bool) (va n : Nat) (s : State) (port : Nat := 0) : (List (Xl × Nat) ⊕ PieceEnd) × State :=
  (chunks va n).foldl (fun acc c =>
    match acc.1 with
    | .inr _ => acc
    | .inl l =>
      let t := translate acc.2 (c.1 % 2 ^ 52) .w hostOk port
      (match t.1 with
       | .retry k => .inr (.fault 3 c.1 (.retry k))
       | .fatal k v => .inr (.fault 3 c.1 (.fatal k v))
       | p => .inl (l ++ [(p, c.2)]), t.2)) (.inl [], s)

/-- Deliver bytes to places one after another, or poison to all of them. -/
def putPlaces (l : List (Xl × Nat)) (bs : List Byte) (poison : Bool) (s : State) : State :=
  (l.foldl (fun acc p => (acc.1.drop p.2, placePut acc.2 p.1 (acc.1.take p.2) poison)) (bs, s)).2

/-- One unit of FMAP_PACK: a poisoned source sector poisons the unit. -/
def packPiece (d : DmaDesc) (i u bh bw : Nat) (x : Xfer) : PieceEnd × Xfer :=
  let base := d.src.toNat
  let places := unitPlaces d base u bh bw
  let s1 := each places (fun s a => csSettle s d.cluster a) x.s
  let bad := places.any fun a => csBad s1 d.cluster a
  let t := vaPlaces false (fmapAddr d (gLocal d.dst) i) (fmapSize d.rate) s1 x.port
  match t.1 with
  | .inl l =>
    (.done (if bad then fmapSize d.rate / 32 else 0) bad,
      { x with s := putPlaces l (packUnit t.2 d base u bh bw) bad t.2 })
  | .inr z => (z, { x with s := t.2 })

def packPieces (d : DmaDesc) : List (Nat × (Xfer → PieceEnd × Xfer)) :=
  let l := fmapUnits d
  ((List.range l.length).zip l).map fun p => (fmapSize d.rate / 32, packPiece d p.1 p.2.1 p.2.2.1 p.2.2.2)

def runPack (e : Nat) (c : DmaCmd) (s : State) : State := settle e (runPieces e (packPieces (dmaDesc c)) 0 ⟨s, c, [], e⟩)

def execFmapPack (e : Engine) (s : State) : Host.Outcome State Fault Refusal :=
  .next (startOp e 0x11 (fun c s => runPack e c s) s)

/-- An element of a block decodes (R157); the code -2^(b-1) decodes as 0. -/
def unpackElem (b g q : Nat) : BitVec 16 :=
  if g = 255 then 0x7FC0
  else if q = 2 ^ (b - 1) then 0
  else toBf16 (some ⟨signed b q, (g : Int) - 127⟩)

/-- Write the elements of one block into the store; positions outside the map are masked (04 R74). CNV.031 is raised for a
row with exponent 0xFF. -/
def unpackBlock (e seq : Nat) (d : DmaDesc) (base ch bh bw : Nat) (bs : List Byte) (s : State) : State :=
  let b := fmapBits d.rate
  let body := ofLE (bs.drop 8)
  each (List.range 8) (fun s r =>
    let g := fld bs r 1
    if d.h ≤ 8 * bh + r then s
    else
      let s1 := if g = 255 then raise s bCNV 31 (locEngine e) seq 0 else s
      each (List.range 8) (fun s k =>
        if d.w ≤ 8 * bw + k then s
        else csWrite s d.cluster (fmapElem d base (8 * bh + r) (8 * bw + k) ch)
          (leBytes 2 (unpackElem b g (body / 2 ^ (b * (8 * r + k)) % 2 ^ b)).toNat)) s1) s

/-- One unit of FMAP_UNPACK. -/
def unpackPiece (e : Nat) (d : DmaDesc) (i u bh bw : Nat) (x : Xfer) : PieceEnd × Xfer :=
  let base := d.dst.toNat
  let n := fmapBlocks d.rate
  let r := srcBytes ⟨false, !d.noAlloc⟩ (fmapAddr d (gLocal d.src) i) (fmapSize d.rate) x
  match r.1 with
  | .inr z => (z, r.2)
  | .inl g =>
    let s1 :=
      if g.poison then each (unitPlaces d base u bh bw) (fun s a => csPoisonAt s d.cluster a) r.2.s
      else each ((List.range n).filter fun k => n * u + k < d.c) (fun s k =>
        unpackBlock e (cmdSeq x.cmd) d base (n * u + k) bh bw ((g.bytes.drop (fmapSpan d.rate * k)).take (fmapSpan d.rate)) s)
        r.2.s
    (.done (if g.poison then fmapSize d.rate / 32 else 0) g.poison, { r.2 with s := s1, held := [] })

/-- Units with their numbers, in ascending order of their first destination byte (R215). -/
def unpackOrder (d : DmaDesc) : List ((Nat × Nat × Nat) × Nat) :=
  let at' (p : (Nat × Nat × Nat) × Nat) : Nat :=
    fmapElem d d.dst.toNat (8 * p.1.2.1) (8 * p.1.2.2) (fmapBlocks d.rate * p.1.1)
  (fmapUnits d).zipIdx.mergeSort fun a b => decide (at' a ≤ at' b)

/-- Store sectors that the elements at some offsets lie in. -/
def elemSectors (l : List Nat) : List Nat := l.flatMap fun a => [a / 32, (a + 1) / 32]

/-- How many sectors, in ascending order, each of some pieces completes, from the sectors that each writes: a sector is complete
with the last piece that writes to it, and counts once those before it are complete (R217). -/
def completes (ls : List (List Nat)) : List Nat :=
  let all := (ls.flatMap id).foldl (fun l s => insertNat s l) []
  let last := all.map fun s => (ls.zipIdx.filter fun p => p.1.contains s).foldl (fun m p => max m p.2) 0
  let run := (last.foldl (fun (acc : List Nat × Nat) k => (acc.1 ++ [max acc.2 k], max acc.2 k)) ([], 0)).1
  (List.range ls.length).map fun i => (run.filter (· == i)).length

def unpackPieces (e : Nat) (d : DmaDesc) : List (Nat × (Xfer → PieceEnd × Xfer)) :=
  let l := unpackOrder d
  let n := completes (l.map fun p => elemSectors (unitPlaces d d.dst.toNat p.1.1 p.1.2.1 p.1.2.2))
  (n.zip l).map fun p => (p.1, unpackPiece e d p.2.2 p.2.1.1 p.2.1.2.1 p.2.1.2.2)

def runUnpack (e : Nat) (c : DmaCmd) (s : State) : State :=
  settle e (runPieces e (unpackPieces e (dmaDesc c)) 0 ⟨s, c, [], e⟩)

def execFmapUnpack (e : Engine) (s : State) : Host.Outcome State Fault Refusal :=
  .next (startOp e 0x12 (fun c s => runUnpack e c s) s)

/-! ### HOST_IN and HOST_OUT (R206, R207) -/

/-- A problem of a read as the end of a piece. -/
def gotEnd (va : Nat) : Got → PieceEnd
  | .xl t v => .fault 2 v t
  | .hostErr => .hostErr
  | .data _ _ _ => .tier va

/-- Sectors of a unit of a container. -/
def unitSectors (c : Container) (k : Nat) : Nat := cdiv (c.size k) 32

/-- Does a PCIe error meet one of the sectors of the unit that goes next? -/
def errIn (errAt : Option Nat) (done n : Nat) : Bool := errAt.elim false fun k => decide (done ≤ k ∧ k < done + n)

/-- One unit of HOST_IN: read, checked, decompressed and written; a bad frame is delivered as poison with DMA.010. Every
read must show T3 (R210). -/
def inPiece (e : Nat) (d : DmaDesc) (ct : Container) (i : Nat) (x : Xfer) : PieceEnd × Xfer :=
  let k := d.p0 + i
  let r := readUnit x.s (gLocal d.src) ct k x.port
  let x1 := { x with s := r.2 }
  let n := unitSectors ct k
  if errIn x.cmd.errAt x.cmd.done n then (.hostErr, x1)
  else
    match r.1.got with
    | .data _ _ true =>
      let s1 := if r.1.unit.isNone then raise x1.s bDMA 10 (locEngine e) (cmdSeq x.cmd) 0 else x1.s
      let bs := r.1.unit.getD (List.replicate (ct.size k) 0)
      let bad := r.1.unit.isNone
      if d.dstT0 then
        (.done (if bad then n else 0) false, { x1 with s := storePut s1 d.cluster (d.dst.toNat + unitSize * i) bs bad })
      else
        let dst := gLocal d.dst + unitSize * i
        let p := vaPlaces true dst bs.length x1.s x.port
        match p.1 with
        | .inr z => (z, { x1 with s := p.2 })
        | .inl l =>
          if l.any fun q => xlHost (some q.1) == some true then (.tier dst, { x1 with s := p.2 })
          else
            let s2 := if bad then raise p.2 bDMA 10 (locEngine e) (cmdSeq x.cmd) 0 else p.2
            (.done (if bad then n else 0) false, { x1 with s := putPlaces l bs bad s2 })
    | g => (gotEnd (gLocal d.src) g, x1)

/-- HOST_IN: the header of the container, then its units. -/
def runHostIn (e : Nat) (c : DmaCmd) (s : State) : State :=
  let d := dmaDesc c
  let h := readContainer s (gLocal d.src) (4 + e)
  let x : Xfer := ⟨h.2.2, c, [], e⟩
  match h.1 with
  | .data _ _ true =>
    settle e (runPieces e ((List.range d.p1).map fun i => (unitSectors h.2.1 (d.p0 + i), inPiece e d h.2.1 i)) 0 x)
  | g => settle e (some (gotEnd (gLocal d.src) g), x)

def execHostIn (e : Engine) (hostErrAt : Option Nat) (s : State) : Host.Outcome State Fault Refusal :=
  .next (startOp e 0x13 (fun c s => runHostIn e { c with errAt := hostErrAt } s) s)

/-- Source bytes of a unit of HOST_OUT. -/
def outSource (d : DmaDesc) (i n : Nat) (x : Xfer) : (Held ⊕ PieceEnd) × Xfer :=
  if d.srcT0 then let r := storeBytes d.cluster (d.src.toNat + unitSize * i) n x; (.inl r.1, r.2)
  else srcBytes ⟨true, !d.noAlloc⟩ (gLocal d.src + unitSize * i) n x

/-- Offset of the frame of unit k: the data offset for the first, else the end of the one before. -/
def frameOffset (s : State) (d : DmaDesc) (k port : Nat) : Got × Nat × State :=
  if k = d.p0 then (.data [] false true, d.p3, s)
  else
    let r := engRead s (gLocal d.dst + 64 + 8 * (k - 1)) 8 true false port
    match r.1 with
    | .data bs _ _ => let f := frameRef (ofLE bs); (r.1, f.offs + f.len, r.2)
    | g => (g, 0, r.2)

/-- Write the sectors of a frame that are not written yet, each with its number; the first that meets a fault or a host error
stops (R217). DONE counts the sectors of frames (log entry 52). -/
def putFrame (base : Nat) (fr : List Byte) : List ((Nat × Nat) × Nat) → Xfer → Option PieceEnd × Xfer
  | [], x => (none, x)
  | (c, j) :: cs, x =>
    if j < x.cmd.within then putFrame base fr cs x
    else if x.cmd.errAt == some x.cmd.done || !hostReady x.s then (some .hostErr, x)
    else
      let t := translate x.s (c.1 % 2 ^ 52) .w true x.port
      match t.1 with
      | .host a =>
        putFrame base fr cs { x with
          s := ctrAdd (hostWrite t.2 a ((fr.drop (c.1 - base)).take c.2)) (ctrEngine x.e 1) 1
          cmd := { x.cmd with done := x.cmd.done + 1, within := x.cmd.within + 1 } }
      | .stack _ => (some (.tier c.1), { x with s := t.2 })
      | z => (some (.fault 3 c.1 z), { x with s := t.2 })

/-- Write the index entry of a unit. -/
def putIndex (va n : Nat) (x : Xfer) : Option PieceEnd × Xfer :=
  let q := vaPlaces true va 8 x.s x.port
  match q.1 with
  | .inr z => (some z, { x with s := q.2 })
  | .inl m =>
    if m.any fun z => xlHost (some z.1) != some true then (some (.tier va), { x with s := q.2 })
    else (none, { x with s := putPlaces m (leBytes 8 n) false q.2 })

/-- One unit of HOST_OUT: its frame, sector by sector, then its index entry. -/
def outPiece (d : DmaDesc) (ct : Container) (i : Nat) (x : Xfer) : PieceEnd × Xfer :=
  let k := d.p0 + i
  let r := outSource d i (ct.size k) x
  match r.1 with
  | .inr z => (z, r.2)
  | .inl g =>
    if g.host then (.tier (gLocal d.src + unitSize * i), r.2)
    else
      let o := frameOffset r.2.s d k x.port
      match o.1 with
      | .data _ _ true =>
        let fr := if g.poison then zstdStored (List.replicate g.bytes.length 0)
          else zstdFrame (x.cmd.num * 2 ^ 32 + k) g.bytes
        let x1 := { r.2 with s := o.2.2, held := [] }
        if d.p2 < o.2.1 - d.p3 + fr.length then (.overflow, x1)
        else
          let base := gLocal d.dst
          let p := putFrame (base + o.2.1) fr (chunks (base + o.2.1) fr.length).zipIdx x1
          match p.1 with
          | some z => (z, p.2)
          | none =>
            let q := putIndex (base + 64 + 8 * k)
              (o.2.1 % 2 ^ 40 + fr.length % 2 ^ 17 * 2 ^ 40 + g.poison.toNat * 2 ^ 62) p.2
            match q.1 with
            | some z => (z, q.2)
            | none => (.done (if g.poison then unitSectors ct k else 0) g.poison, q.2)
      | z => (gotEnd (gLocal d.dst) z, { r.2 with s := o.2.2 })

/-- HOST_OUT: the header of the container at DST gives the size of the last unit (log entry 52). -/
def runHostOut (e : Nat) (c : DmaCmd) (s : State) : State :=
  let d := dmaDesc c
  let h := readContainer s (gLocal d.dst) (4 + e)
  let x : Xfer := ⟨h.2.2, c, [], e⟩
  match h.1 with
  | .data _ _ true =>
    settle e (runPieces e ((List.range d.p1).map fun i => (0, outPiece d h.2.1 i)) 0 x)
  | g => settle e (some (gotEnd (gLocal d.dst) g), x)

def execHostOut (e : Engine) (hostErrAt : Option Nat) (s : State) : Host.Outcome State Fault Refusal :=
  .next (startOp e 0x14 (fun c s => runHostOut e { c with errAt := hostErrAt } s) s)

/-! ### The doorbell (R212) -/

/-- A write of DMA_ENGn_DB: the entries up to the written tail are passed to the device, or the write is ignored with
DMA.003 where the tail lies inside the owned span. -/
def doorbell (n : Nat) (v : Word64) (s : State) : State :=
  let g := engAt s n
  let t := v.setWidth 10
  if (g.tail - g.head).toNat ≤ (t - g.head).toNat then modEng s n fun g => { g with tail := t }
  else raise s bDMA 3 (locEngine n) noSeq 0

def execDmaEngDb (n : Engine) (v : Word64) (s : State) : Host.Outcome State Fault Refusal :=
  .next (if hostMay s then doorbell n v s else s)

end Sys2Proof.Machine
end

