-- ==== Sys2Proof/Machine/Codec.lean ====
section
/-! DEFINITION. The codec complexes (17 R311-R332): contexts, rate control, the schedule of block rows, decoding of damaged
streams, and the coded RTP flows (18 R346, R347). What entropy coding and reconstruction give is free (log entry 22). -/

namespace Sys2Proof.Machine

/-! ### Contexts (R311-R317) -/

/-- Number of a command's context: 0-63 encode, 64-127 decode. -/
def cmdCtx (c : DmaCmd) : Nat := cmdN c 3 1 % 128

/-- The complex of a context (Table 17.1). -/
def ctxComplex (i : Nat) : Nat := i % 64 / 32

def ctxDesc (bs : List Byte) : CtxDesc where
  dir := fld bs 0 1
  ctx := fld bs 1 1
  std := fld bs 2 1
  profile := fld bs 3 1
  tier := fld bs 4 1
  level := fld bs 5 1
  depth := fld bs 6 1
  chroma := fld bs 7 1
  width := fld bs 8 2
  height := fld bs 0xA 2
  rateNum := fld bs 0xC 4
  rateDen := fld bs 0x10 4
  cls := fld bs 0x14 1
  domain := fld bs 0x15 1
  gop := fld bs 0x16 1
  refs := fld bs 0x17 1
  keyint := fld bs 0x18 4
  cq := fld bs 0x1C 1
  aq := fld bs 0x1D 1
  capPic := fld bs 0x20 4
  rate := fld bs 0x24 4
  buf := fld bs 0x28 4
  pitch := fld bs 0x2C 4
  chromaOff := fld bs 0x30 4
  dpbBase := fld bs 0x38 8
  dpbBytes := fld bs 0x40 8
  ringBase := fld bs 0x48 8
  ringBytes := fld bs 0x50 8

/-- Bytes of a sample. -/
def CtxDesc.b (d : CtxDesc) : Nat := if d.depth = 8 then 1 else 2

/-- Block columns and rows of 64 x 64. -/
def CtxDesc.bw (d : CtxDesc) : Nat := cdiv d.width 64
def CtxDesc.bh (d : CtxDesc) : Nat := cdiv d.height 64

/-- Chroma rows (R319). -/
def CtxDesc.chromaRows (d : CtxDesc) : Nat := if d.chroma = 0 then 0 else if d.chroma = 1 then d.height / 2 else d.height

/-- Profile, chroma and depth are a combination of Table 17.2 (encode) or Table 17.3 (decode). -/
def CtxDesc.formOk (d : CtxDesc) : Bool :=
  let enc := d.dir == 0
  if d.std = 0 then
    decide (d.level ≤ 186) &&
      (match d.profile with
       | 1 => d.chroma == 1 && d.depth == 8
       | 2 => d.chroma == 1
       | 4 => if enc then d.chroma == 2 && d.depth == 10 else true
       | _ => false)
  else d.profile == 0 && decide (d.level ≤ 19) && (d.chroma == 1 || (!enc && d.chroma == 0))

/-- Bytes of reference region that a context needs (R317). -/
def CtxDesc.dpbNeed (d : CtxDesc) : Nat :=
  let n := roundUp d.width 64 * roundUp d.height 64
  let slots := if d.dir = 0 then d.refs + 2 else if d.std = 0 then 17 else 9
  slots * (n * d.b * (d.chroma + 2) / 2 + n)

/-- M_pic, the least cost of a whole picture at stage 3 (R322). -/
def CtxDesc.mPic (d : CtxDesc) : Nat := 2048 + 32 * (d.bw * d.bh) + 64

/-- Load as a fraction (R311). -/
def CtxDesc.load (d : CtxDesc) : Nat × Nat :=
  (roundUp d.width 16 * roundUp d.height 16 * d.rateNum * (if d.chroma = 2 then 4 else 3) * (if d.dir = 0 then 2 else 1),
    3 * d.rateDen)

/-- The descriptor keeps within its tables and the minima of R317 and R319 (R316). A picture rate of 0 is outside them too
(log entry 57). -/
def CtxDesc.ok (d : CtxDesc) (bs : List Byte) : Bool :=
  decide (d.dir ≤ 1 ∧ d.ctx ≤ 63 ∧ d.std ≤ 1 ∧ d.tier ≤ 1) && (d.depth == 8 || d.depth == 10) && decide (d.chroma ≤ 2)
    && d.formOk
    && d.width % 2 == 0 && decide (16 ≤ d.width ∧ d.width ≤ 8192)
    && d.height % 2 == 0 && decide (16 ≤ d.height ∧ d.height ≤ 4320)
    && d.rateNum != 0 && d.rateDen != 0 && decide (d.cls ≤ 1) && (d.cls == 1 || decide (d.domain ≤ 3))
    && (d.dir == 1 || (decide (d.gop ≤ 3) && (d.cls == 1 || d.gop == 0) && decide (1 ≤ d.refs ∧ d.refs ≤ 4)
        && decide (d.cq ≤ (if d.std = 0 then 51 else 255)) && decide (d.aq ≤ 12) && decide (d.capPic ≤ d.buf)))
    && zeroIn bs 0x1E 0x20 && zeroIn bs 0x34 0x38 && zeroIn bs 0x58 0x80
    && d.pitch % 32 == 0 && decide (roundUp (d.width * d.b) 32 ≤ d.pitch) && decide (d.pitch * d.height ≤ d.chromaOff)
    && d.dpbBase % 65536 == 0 && decide (d.dpbNeed ≤ d.dpbBytes) && d.ringBase % 64 == 0

/-- A sum of fractions. -/
def addFrac (a b : Nat × Nat) : Nat × Nat := (a.1 * b.2 + b.1 * a.2, a.2 * b.2)

/-- Contexts of a complex: its numbers in both directions. -/
def complexCtxs (x : Nat) : List Nat :=
  (List.range 32).map (fun i => 32 * x + i) ++ (List.range 32).map fun i => 64 + 32 * x + i

/-- Load of the open contexts of a class on a complex. -/
def loadOf (s : State) (x cls : Nat) : Nat × Nat :=
  (complexCtxs x).foldl (fun a i =>
    match (ctxAt s i).desc with
    | some d => if d.cls = cls then addFrac a d.load else a
    | none => a) (0, 1)

/-- Would a live context take its complex's live load above 90 % of 8.0 x 10^9 units/s? -/
def overLive (s : State) (i : Nat) (d : CtxDesc) : Bool :=
  let l := addFrac (loadOf s (ctxComplex i) 0) d.load
  d.cls == 0 && decide (7200000000 * l.2 < l.1)

/-- The encoder's rate check (R316, R322). -/
def rateLow (d : CtxDesc) : Bool :=
  d.dir == 0 && (decide (d.capPic < d.mPic) || decide (d.rate * d.rateDen < d.mPic * d.rateNum))

/-- A half powers with its open contexts (R313; gating a half without one is the model's choice, log entry 57). -/
def powerHalves (s : State) : State :=
  let isOpen (l : List Nat) : Bool := l.any fun i => (ctxAt s i).desc.isSome
  { s with cod := { s.cod with
    encOn := [0, 1].map fun x => isOpen ((List.range 32).map fun i => 32 * x + i)
    decOn := [0, 1].map fun x => isOpen ((List.range 32).map fun i => 64 + 32 * x + i) } }

/-- An OPEN is refused: COD.001, and the context stays closed. -/
def openRefuse (s : State) (e i : Nat) (c : DmaCmd) (status : Nat) : State :=
  complete (raise s bCOD 1 (locCtx i) (cmdSeq c) 0) e c status

/-- OPEN (R316): the descriptor is read and checked. A descriptor that reads as poison is refused as an invalid field (log
entry 57). -/
def runOpen (e : Nat) (c : DmaCmd) (s : State) : State :=
  let i := cmdCtx c
  let r := srcBytes ⟨true, true⟩ (cmdN c 8 8 % 2 ^ 52) 128 ⟨s, c, [], e⟩
  match r.1 with
  | .inr z => settle e (some z, r.2)
  | .inl g =>
    let d := ctxDesc g.bytes
    let s1 := r.2.s
    if g.poison || !d.ok g.bytes || 64 * d.dir + d.ctx != i || (ctxAt s1 i).desc.isSome then openRefuse s1 e i c stINVALID
    else if overLive s1 i d || rateLow d then openRefuse s1 e i c stREFUSED
    else complete (powerHalves (modCtx s1 i fun _ => { CtxSt.reset with
      desc := some d, coder := Config.coderStart g.bytes })) e c stOK

def execOpen (e : Engine) (s : State) : Host.Outcome State Fault Refusal :=
  .next (startOp e 0x20 (fun c s => runOpen e c s) s)

/-- A command for a closed context (R318). -/
def closedCtx (s : State) (e : Nat) (c : DmaCmd) : State :=
  complete (raise s bCOD 2 (locCtx (cmdCtx c)) (cmdSeq c) 0) e c stINVALID

/-- The context is closed. -/
def shutCtx (s : State) (i e : Nat) (c : DmaCmd) : State :=
  complete (powerHalves (modCtx s i fun _ => CtxSt.reset)) e c stOK

/-- A CLOSE that waits completes once the context has no picture left (R318). -/
def closeIfDone (i : Nat) (s : State) : State :=
  match (ctxAt s i).closing with
  | some (e, c) => if (ctxAt s i).queue.isEmpty then shutCtx s i e c else s
  | none => s

/-- CLOSE. -/
def runClose (e : Nat) (c : DmaCmd) (s : State) : State :=
  let i := cmdCtx c
  if (ctxAt s i).desc.isNone then closedCtx s e c
  else closeIfDone i (modCtx s i fun k => { k with closing := some (e, c) })

def execClose (e : Engine) (s : State) : Host.Outcome State Fault Refusal :=
  .next (startOp e 0x21 (fun c s => runClose e c s) s)

/-! ### Pictures -/

/-- FLAGS of Table 17.6. -/
def fKEY : BitVec 16 := 1
def fCONCEALED : BitVec 16 := 2
def fSTAGE2 : BitVec 16 := 4
def fSTAGE3 : BitVec 16 := 8
def fLATE : BitVec 16 := 0x10
def fPOISON : BitVec 16 := 0x20
def fNOOUT : BitVec 16 := 0x40
def fSYNTAX : BitVec 16 := 0x80
def fDISCARD : BitVec 16 := 0x100

/-- A picture of a command, as it is handed to its complex. -/
def newPicture (c : DmaCmd) (e rows : Nat) (key : Bool) (au : Option AccessUnit) : Picture where
  cmd := c
  eng := e
  deadline := cmdN c 0x30 8 % 2 ^ 48
  begun := false
  key := key
  rowsDone := 0
  rows := rows
  budget := 0
  spent := 0
  src := []
  stage := 1
  srcPoison := []
  flags := 0
  au := au
  level := 0
  parked := false

/-- Change the picture of a command of a context. -/
def modPic (s : State) (i num : Nat) (f : Picture → Picture) : State :=
  modCtx s i fun k => { k with queue := k.queue.map fun p => if p.cmd.num = num then f p else p }

/-- A picture leaves its context. -/
def dropPic (s : State) (i num : Nat) : State :=
  modCtx s i fun k => { k with queue := k.queue.filter (·.cmd.num != num) }

/-- A live picture that has not completed at the admit phase of its DEADLINE is late (R330). -/
def markLate (i : Nat) (s : State) (p : Picture) : State :=
  let s1 := modPic s i p.cmd.num fun p => { p with flags := p.flags ||| fLATE }
  raise (ctrAdd s1 (ctrComplex (ctxComplex i) 5) 1) bCOD 30 (locCtx i) (cmdSeq p.cmd) 0

/-- The live pictures of a domain that miss their deadline as the admit phase of tick n begins. -/
def codLate (d n : Nat) (s : State) : State :=
  each (List.range 128) (fun s i =>
    match (ctxAt s i).desc with
    | some k =>
      if k.cls = 0 ∧ k.domain = d then
        each ((ctxAt s i).queue.filter fun p => decide (p.deadline ≤ n) && p.flags &&& fLATE == 0) (markLate i) s
      else s
    | none => s) s

/-- Hand a picture to its complex, or let it go on after its fault was resolved. -/
def handPicture (e i : Nat) (c : DmaCmd) (p : Picture) (s : State) : State :=
  match (ctxAt s i).desc with
  | none => closedCtx s e c
  | some d =>
    if (ctxAt s i).queue.any (·.cmd.num == c.num) then modPic s i c.num fun p => { p with cmd := c, parked := false }
    else
      let s1 := modCtx s i fun k => { k with queue := k.queue ++ [p] }
      if d.cls = 0 && decide (p.deadline ≤ (domAt s d.domain).tickNo % 2 ^ 48) then markLate i s1 p else s1

/-- Does COD_KEYREQ ask for a key picture of an encode context? -/
def keyAsked (s : State) (i : Nat) : Bool := s.cod.keyReq.getLsbD i

/-- ENCODE (R318, R323): the picture joins its context. In random-access mode a key request applies to the next picture that
is accepted (R325). -/
def runEncode (e : Nat) (c : DmaCmd) (s : State) : State :=
  let i := cmdCtx c
  let x := ctxAt s i
  let held := x.desc.any (0 < ·.gop) && keyAsked s i && !(x.queue.any fun p => p.key && !p.begun)
  handPicture e i c (newPicture c e (x.desc.elim 1 (·.bh)) held none) s

def execEncode (e : Engine) (s : State) : Host.Outcome State Fault Refusal :=
  .next (startOp e 0x22 (fun c s => runEncode e c s) s)

/-- DECODE: `au` is what entropy decoding of the access unit gives. -/
def runDecode (e : Nat) (au : AccessUnit) (c : DmaCmd) (s : State) : State :=
  handPicture e (cmdCtx c) c (newPicture c e (max 1 (cdiv au.height 64)) false (some au)) s

def execDecode (e : Engine) (au : AccessUnit) (s : State) : Host.Outcome State Fault Refusal :=
  .next (startOp e 0x23 (fun c s => runDecode e au c s) s)

/-! ### Rings (R319) -/

/-- Bytes of a bitstream ring's data, in records of whole 32 bytes. -/
def CtxDesc.ringData (d : CtxDesc) : Nat := (d.ringBytes - 64) / 32 * 32

/-- Bytes of an output slot, and the slots of an output ring. -/
def CtxDesc.slotBytes (d : CtxDesc) : Nat := roundUp (64 + d.chromaOff + d.pitch * d.chromaRows) 64
def CtxDesc.slotCount (d : CtxDesc) : Nat := (d.ringBytes - 64) / d.slotBytes

/-- CONS of a ring, as the device reads it. -/
def readCons (ring : Nat) (x : Xfer) : (Nat ⊕ PieceEnd) × Xfer :=
  let r := srcBytes ⟨true, false⟩ (ring % 2 ^ 52 + 8) 8 { x with held := [] }
  match r.1 with
  | .inl g => (.inl (fld g.bytes 0 8), r.2)
  | .inr z => (.inr z, r.2)

/-- Bytes that a record of n payload bytes takes. -/
def recordBytes (n : Nat) : Nat := roundUp (16 + n) 32

/-- Bytes that a record takes from a position on: what is left of the ring is passed over where the record would cross its
end (R319; what PROD counts: log entry 56). -/
def recordNeed (size at' n : Nat) : Nat :=
  if size < at' % size + recordBytes n then size - at' % size + recordBytes n else recordBytes n

/-- The writes of a record into a ring: address, bytes; the position after it; PROD last. -/
def recordWrites (ring size at' : Nat) (flags pts : Nat) (data : List Byte) : List (Nat × List Byte) × Nat :=
  let base := ring % 2 ^ 52 + 0x40
  let pos := at' % size
  let n := recordBytes data.length
  let rec' := leBytes 4 data.length ++ leBytes 4 flags ++ leBytes 8 pts ++ data ++ List.replicate (n - 16 - data.length) 0
  let skip := if size < pos + n then [(base + pos, leBytes 4 0xFFFFFFFF ++ List.replicate 12 0)] else []
  let next := at' + recordNeed size at' data.length
  (skip ++ [(base + (if size < pos + n then 0 else pos), rec'), (ring % 2 ^ 52, leBytes 8 next)], next)

/-- Make a list of writes at local virtual addresses, all of them or none. -/
def putAll (ws : List (Nat × List Byte)) (s : State) : Option PieceEnd × State :=
  let r := ws.foldl (fun (acc : (List (List (Xl × Nat) × List Byte) ⊕ PieceEnd) × State) w =>
    match acc.1 with
    | .inr _ => acc
    | .inl l =>
      let p := vaPlaces true w.1 w.2.length acc.2
      (match p.1 with
       | .inl q => .inl (l ++ [(q, w.2)])
       | .inr z => .inr z, p.2)) (.inl [], s)
  match r.1 with
  | .inr z => (some z, r.2)
  | .inl l =>
    if (l.any fun w => w.1.any fun q => xlHost (some q.1) == some true) && !hostReady r.2 then (some .hostErr, r.2)
    else (none, each l (fun s w => putPlaces w.1 w.2 false s) r.2)

/-! ### The end of a picture -/

/-- A picture's row met a problem: its command is parked, or ends with its references and bucket as they were (R331). -/
def rowFail (i : Nat) (p : Picture) (z : PieceEnd) (s : State) : State :=
  let e := p.eng
  match z with
  | .fault _ _ (.retry _) =>
    let s1 := settle e (some z, ⟨modPic s i p.cmd.num (fun p => { p with parked := true }), p.cmd, [], e⟩)
    let g := engAt s1 e
    if g.parked.any (·.2.num == p.cmd.num) then s1
    else closeIfDone i (dropPic s1 i p.cmd.num)
  | z => closeIfDone i (settle e (some z, ⟨dropPic s i p.cmd.num, p.cmd, [], e⟩))

/-- A picture completes: it leaves its context, its record and its trace record are written. -/
def picDone (i : Nat) (p : Picture) (nbits budget order : Nat) (s : State) : State :=
  let s1 := finishCmd (dropPic s i p.cmd.num) p.eng p.cmd stOK
    (codCplBytes p.cmd stOK p.flags.toNat nbits budget order)
  let s2 := trace s1 8 (cmdSeq p.cmd) (whereOf 3 i) (leBytes 4 nbits ++ leBytes 2 p.flags.toNat ++ leBytes 4 order)
  closeIfDone i s2

/-! ### Encoding (R320-R325) -/

/-- The level of the bucket for the next picture, times RATE_NUM (R322). -/
def nextLevel (d : CtxDesc) (x : CtxSt) : Nat := x.level + x.lastBits * d.rateNum - d.rate * d.rateDen

/-- The budget at a level (R322). -/
def budgetAt (d : CtxDesc) (level : Nat) : Nat := min d.capPic ((d.buf * d.rateNum - level) / d.rateNum)

/-- Is the next picture a key picture (R324)? -/
def keyDue (s : State) (i : Nat) (d : CtxDesc) (x : CtxSt) (p : Picture) : Bool :=
  p.key || x.picNo == 0 || bitOn (cmdFlags p.cmd) 2 || (d.keyint != 0 && x.sinceKey == some d.keyint)
    || (d.gop == 0 && keyAsked s i)

/-- Coding of a picture begins: its budget, header and kind; COD_KEYREQ is cleared where its request is met (R324). -/
def beginPic (s : State) (i : Nat) (d : CtxDesc) (x : CtxSt) (p : Picture) : Picture × State :=
  let level := nextLevel d x
  let key := keyDue s i d x p
  let met := keyAsked s i && (d.gop == 0 || p.key)
  ({ p with begun := true, key := key, level := level, budget := budgetAt d level,
            spent := min 2048 (Config.headerBits x.coder key), flags := if key then p.flags ||| fKEY else p.flags },
    if met then { s with cod := { s.cod with keyReq := s.cod.keyReq &&& ~~~((1 : Word64) <<< i) } } else s)

/-- The lines of a row of blocks: luma, then chroma (Table 17.4, R319). -/
def rowLines (d : CtxDesc) (src row : Nat) : List Nat :=
  let luma := (List.range 64).filterMap fun k =>
    if 64 * row + k < d.height then some (src + (64 * row + k) * d.pitch) else none
  let step := if d.chroma = 1 then 32 else 64
  let chroma := (List.range step).filterMap fun k =>
    if step * row + k < d.chromaRows then some (src + d.chromaOff + (step * row + k) * d.pitch) else none
  luma ++ chroma

/-- Read the source of a row: the blocks of the row that hold a sample of a poisoned sector, and the bytes. -/
def readRow (d : CtxDesc) (src row : Nat) (x : Xfer) : ((List Nat × List Byte) ⊕ PieceEnd) × Xfer :=
  (rowLines d src row).foldl (fun (acc : ((List Nat × List Byte) ⊕ PieceEnd) × Xfer) line =>
    (chunks line (d.width * d.b)).foldl (fun (acc : ((List Nat × List Byte) ⊕ PieceEnd) × Xfer) c =>
      match acc.1 with
      | .inr _ => acc
      | .inl l =>
        let r := srcBytes ⟨true, true⟩ c.1 c.2 { acc.2 with held := acc.2.held.take 2 }
        (match r.1 with
         | .inr z => .inr z
         | .inl g =>
           let lo := (c.1 - line) / d.b / 64
           let hi := (c.1 - line + c.2 - 1) / d.b / 64
           .inl (if g.poison then l.1 ++ (List.range (hi + 1 - lo)).map (lo + ·) else l.1, l.2 ++ g.bytes), r.2)) acc)
    (.inl ([], []), x)

/-- Bits of a block at a stage; a block at stage 3 takes at most 32 (R323). -/
def blockCost (coder : Nat) (p : Picture) (b stage : Nat) : Nat :=
  let n := Config.blockBits coder p.key p.src b stage
  if stage = 3 then min 32 n else n

/-- The stage at which a block is committed, from the picture's stage upwards (R323). -/
def blockStage (coder : Nat) (p : Picture) (total b stage : Nat) : Nat :=
  let fits (k : Nat) : Bool := decide (p.spent + blockCost coder p b k + ((total - 1 - b) * 32 + 64) ≤ p.budget)
  if stage = 1 && fits 1 then 1 else if stage ≤ 2 && fits 2 then 2 else 3

/-- Code one block; a block with a poisoned source sample is coded at stage 3 and leaves the picture's stage (R321). -/
def codeBlock (coder total : Nat) (bad : List Nat) (base : Nat) (p : Picture) (k : Nat) : Picture :=
  let b := base + k
  if bad.contains k then { p with spent := p.spent + blockCost coder p b 3, srcPoison := p.srcPoison ++ [b] }
  else
    let st := blockStage coder p total b p.stage
    { p with stage := st, spent := p.spent + blockCost coder p b st }

/-- Events of a picture as it completes: the stages at the first picture of a run, once each (R323). -/
def stageEvents (s : State) (i : Nat) (x : CtxSt) (p : Picture) : State :=
  let say (s : State) (code : Nat) : State := raise s bCOD code (locCtx i) (cmdSeq p.cmd) 0
  let s1 := if 2 ≤ p.stage then ctrAdd s (ctrComplex (ctxComplex i) 2) 1 else s
  let s2 := if 3 ≤ p.stage then ctrAdd s1 (ctrComplex (ctxComplex i) 3) 1 else s1
  let s3 := if 2 ≤ p.stage && !x.run2 then say s2 10 else s2
  if 3 ≤ p.stage && !x.run3 then say s3 11 else s3

/-- FLAGS of a coded picture. -/
def stageFlags (x : CtxSt) (p : Picture) : BitVec 16 :=
  p.flags ||| (if 2 ≤ p.stage && !x.run2 then fSTAGE2 else 0) ||| (if 3 ≤ p.stage && !x.run3 then fSTAGE3 else 0)

/-- Picture order count since the last key picture; in AV1 the order hint, which AV1 fixes. -/
def encOrder (d : CtxDesc) (coder : Nat) (x : CtxSt) (p : Picture) : Nat :=
  if d.std = 1 then (Config.orderHint coder).toNat else if p.key then 0 else x.sinceKey.getD 0

/-- The last row of a picture: the access unit goes into the ring, and the picture completes. A fault at the ring restarts the
row (R331): the picture is again as `old`, before the row, but for its flags, so that COD.031 is not raised twice. -/
def encEnd (i : Nat) (d : CtxDesc) (old p0 : Picture) (s : State) : State :=
  let x := ctxAt s i
  let coder := Config.coderNext x.coder p0.key p0.srcPoison p0.src
  let p := { p0 with spent := p0.spent + min 64 (Config.endBits coder), flags := stageFlags x p0 }
  let data := (List.range (cdiv p.spent 8)).map fun k => Config.codedByte coder k
  let w := recordWrites d.ringBase d.ringData x.prodAt p.flags.toNat (cmdN p.cmd 0x28 8) data
  let r := putAll w.1 s
  match r.1 with
  | some z => rowFail i p z (modPic r.2 i p.cmd.num fun _ => { old with flags := p0.flags })
  | none =>
    let s1 := modCtx r.2 i fun k => { k with
      level := p.level
      lastBits := p.spent
      sinceKey := some (if p.key then 1 else k.sinceKey.elim 1 (· + 1))
      picNo := k.picNo + 1
      run2 := decide (2 ≤ p.stage)
      run3 := decide (3 ≤ p.stage)
      coder := coder
      prodAt := w.2 }
    picDone i p p.spent p.budget (encOrder d coder x p) (ctrAdd (stageEvents s1 i x p) (ctrComplex (ctxComplex i) 0) 1)

/-- One block row of a picture. COD.031 and SRC_POISON at its first poisoned block. -/
def encRow (i : Nat) (d : CtxDesc) (p : Picture) (s : State) : State :=
  let r := readRow d (cmdN p.cmd 8 8 % 2 ^ 52) p.rowsDone ⟨s, p.cmd, [], p.eng⟩
  match r.1 with
  | .inr z => rowFail i p z r.2.s
  | .inl (bad, bytes) =>
    let new := !bad.isEmpty && p.flags &&& fPOISON == 0
    let p1 := (List.range d.bw).foldl (codeBlock (ctxAt s i).coder (d.bw * d.bh) bad (p.rowsDone * d.bw))
      { p with src := p.src ++ bytes, flags := if new then p.flags ||| fPOISON else p.flags }
    let p2 := { p1 with rowsDone := p.rowsDone + 1 }
    let s1 := if new then raise r.2.s bCOD 31 (locCtx i) (cmdSeq p.cmd) 0 else r.2.s
    let s2 := modPic s1 i p.cmd.num fun _ => p2
    if p2.rowsDone = p2.rows then encEnd i d p p2 s2 else s2

/-- Try a row of an encode context; the flag says that the complex worked. A picture begins only when the ring holds its
budget and 48 bytes (R319). -/
def encTry (i : Nat) (d : CtxDesc) (p : Picture) (s : State) : Bool × State :=
  if p.begun then (true, encRow i d p s)
  else
    let x := ctxAt s i
    let need := recordNeed d.ringData x.prodAt (cdiv (budgetAt d (nextLevel d x)) 8 + 32)
    let c := readCons d.ringBase ⟨s, p.cmd, [], p.eng⟩
    match c.1 with
    | .inr z => (true, rowFail i p z c.2.s)
    | .inl cons =>
      if d.ringData < (x.prodAt - cons) + need then (false, c.2.s)
      else
        let b := beginPic c.2.s i d x p
        (true, encRow i d b.1 (modPic b.2 i p.cmd.num fun _ => b.1))

/-! ### Decoding (R328, R329, Table 17.10) -/

/-- What decoding an access unit does to its context, and the picture's flags and events. -/
structure Decoding where
  ctx    : CtxSt
  flags  : BitVec 16
  events : List Nat
  out    : Bool
deriving DecidableEq, Repr

/-- Is the picture outside the limits of the context or the device? -/
def auOutside (d : CtxDesc) (a : AccessUnit) : Bool :=
  a.unsupported || decide (d.width < a.width ∨ d.height < a.height ∨ 8192 < a.width ∨ 4320 < a.height)

/-- Orders that the picture buffer holds after a picture: the newest ones it has room for (log entry 58). -/
def dpbAfter (d : CtxDesc) (key : Bool) (held : List (BitVec 32)) (missing : List (BitVec 32)) (order : BitVec 32) :
    List (BitVec 32) :=
  if key then [order] else ((order :: missing) ++ held).take (if d.std = 0 then 16 else 8)

/-- Decode an access unit (R328, R329, Table 17.10). -/
def decodeAu (d : CtxDesc) (x : CtxSt) (a : AccessUnit) (bad : Bool) (unit : List Byte) (flags : BitVec 16) : Decoding :=
  if auOutside d a then ⟨x, flags ||| fDISCARD ||| fNOOUT, [23], false⟩
  else if a.rasl && x.skipRasl then ⟨x, flags ||| fDISCARD ||| fNOOUT, [], false⟩
  else
    let missing := if a.key then [] else a.refs.filter fun r => !x.dpb.contains r
    let gone := !a.key && (!missing.isEmpty || !x.decoded)
    let broken := a.syntaxErr || bad
    let ended := a.key && x.concealing
    let on := (x.concealing && !a.key) || gone || broken
    let say20 := gone && !x.said020
    ⟨{ x with
        dpb := dpbAfter d a.key x.dpb missing a.order
        decoded := true
        coder := Config.decoderNext x.coder bad unit
        concealing := on
        said020 := on && ((x.said020 && !a.key) || gone)
        skipRasl := if a.key then ended || !x.decoded else x.skipRasl },
      flags ||| (if a.key then fKEY else 0) ||| (if on then fCONCEALED else 0) ||| (if broken then fSYNTAX else 0)
        ||| (if a.shown then 0 else fNOOUT),
      (if ended then [21] else []) ++ (if say20 then [20] else []) ++ (if broken then [22] else []),
      a.shown⟩

/-- Bytes of samples of a decoded row: n samples, the sample value free within DEPTH (R320: cropped size only). -/
def sampleRow (d : CtxDesc) (coder plane row n : Nat) : List Byte :=
  (List.range n).flatMap fun k => leBytes d.b (Config.decodedSample coder plane row k % 2 ^ d.depth)

/-- The writes of an output slot (R319): header, luma rows, chroma rows, then PROD. -/
def slotWrites (d : CtxDesc) (coder : Nat) (x : CtxSt) (a : AccessUnit) (p : Picture) (flags : BitVec 16) : List (Nat × List Byte) :=
  let base := d.ringBase % 2 ^ 52
  let slot := base + 0x40 + x.prodAt % max 1 d.slotCount * d.slotBytes
  let head := leBytes 8 (cmdN p.cmd 0x28 8) ++ leBytes 4 flags.toNat ++ leBytes 4 a.order.toNat ++ leBytes 2 a.width
    ++ leBytes 2 a.height ++ List.replicate 44 0
  let rows := if d.chroma = 0 then 0 else if d.chroma = 1 then a.height / 2 else a.height
  [(slot, head)]
    ++ (List.range a.height).map (fun r => (slot + 64 + r * d.pitch, sampleRow d coder 0 r a.width))
    ++ (List.range rows).map (fun r => (slot + 64 + d.chromaOff + r * d.pitch, sampleRow d coder 1 r a.width))
    ++ [(base, leBytes 8 (x.prodAt + 1))]

/-- The access unit is read: whether a sector of it is poisoned, and its bytes. -/
def readAu (p : Picture) (s : State) : ((Bool × List Byte) ⊕ PieceEnd) × State :=
  let r := srcBytes ⟨true, true⟩ (cmdN p.cmd 8 8 % 2 ^ 52) (cmdN p.cmd 0x10 8) ⟨s, p.cmd, [], p.eng⟩
  (match r.1 with
   | .inl g => .inl (g.poison, g.bytes)
   | .inr z => .inr z, r.2.s)

/-- A decode row that meets a fault restarts at the access unit's first sector (R331). -/
def decFail (i : Nat) (p : Picture) (z : PieceEnd) (s : State) : State :=
  rowFail i p z (modPic s i p.cmd.num fun p => { p with rowsDone := 0, begun := false })

/-- The last row of a decoded picture: it is output and the command completes. -/
def decEnd (i : Nat) (d : CtxDesc) (p : Picture) (a : AccessUnit) (s : State) : Bool × State :=
  let r := readAu p s
  match r.1 with
  | .inr z => (true, decFail i p z r.2)
  | .inl (bad, unit) =>
    let x := ctxAt r.2 i
    let k := decodeAu d x a bad unit p.flags
    let fin (s : State) : State :=
      let s1 := modCtx s i fun y => { k.ctx with queue := y.queue, closing := y.closing,
                                                 prodAt := if k.out then x.prodAt + 1 else x.prodAt }
      let s2 := each k.events (fun s n => raise s bCOD n (locCtx i) (cmdSeq p.cmd) 0) s1
      let s3 := if k.flags &&& fCONCEALED == 0 then s2 else ctrAdd s2 (ctrComplex (ctxComplex i) 4) 1
      let s4 := if k.flags &&& fDISCARD == 0 then ctrAdd s3 (ctrComplex (ctxComplex i) 1) 1 else s3
      picDone i { p with flags := k.flags } k.out.toNat 0 a.order.toNat s4
    if !k.out then (true, fin r.2)
    else
      let c := readCons d.ringBase ⟨r.2, p.cmd, [], p.eng⟩
      match c.1 with
      | .inr z => (true, decFail i p z c.2.s)
      | .inl cons =>
        if d.slotCount ≤ x.prodAt - cons then (false, c.2.s)
        else
          let w := putAll (slotWrites d k.ctx.coder x a p k.flags) c.2.s
          match w.1 with
          | some z => (true, decFail i p z w.2)
          | none => (true, fin w.2)

/-- Try a row of a decode context. -/
def decTry (i : Nat) (d : CtxDesc) (p : Picture) (s : State) : Bool × State :=
  match p.au with
  | none => (false, s)
  | some a =>
    if p.rowsDone + 1 < p.rows then
      (true, modPic s i p.cmd.num fun p => { p with begun := true, rowsDone := p.rowsDone + 1 })
    else decEnd i d p a s

/-! ### The schedule (R326) -/

/-- The picture at the head of a context, where it is not parked. -/
def headPic (s : State) (i : Nat) : Option (CtxDesc × Picture) :=
  match (ctxAt s i).desc, (ctxAt s i).queue.head? with
  | some d, some p => if p.parked then none else some (d, p)
  | _, _ => none

/-- Live contexts with work: the earliest deadline first, the lower number on a tie. -/
def liveOrder (s : State) (l : List Nat) : List Nat :=
  let live := l.filterMap fun i => (headPic s i).bind fun p => if p.1.cls = 0 then some (p.2.deadline, i) else none
  (live.mergeSort fun a b => decide (a.1 < b.1) || (a.1 == b.1 && decide (a.2 ≤ b.2))).map (·.2)

/-- File contexts with work, from the one whose turn it is. -/
def fileOrder (s : State) (turn : Nat) (l : List Nat) : List Nat :=
  (l.drop turn ++ l.take turn).filter fun i => (headPic s i).any (·.1.cls == 1)

/-- Try the contexts of a list in order; the first that works takes the row. -/
def tryRows (l : List Nat) (s : State) : Option Nat × State :=
  l.foldl (fun acc i =>
    match acc.1, headPic acc.2 i with
    | none, some (d, p) =>
      let r := if i < 64 then encTry i d p acc.2 else decTry i d p acc.2
      (if r.1 then some i else none, r.2)
    | _, _ => acc) (none, s)

/-- One row of one picture on a half of a complex. -/
def rowSchedule (x : Nat) (encoder : Bool) (s : State) : State :=
  if s.pwr.keepalive || s.boot.inReset then s
  else
    let base := 32 * x + (if encoder then 0 else 64)
    let l := (List.range 32).map (base + ·)
    let h := 2 * x + (!encoder).toNat
    let r := tryRows (liveOrder s l) s
    if r.1.isSome then r.2
    else
      let f := tryRows (fileOrder r.2 (r.2.cod.fileTurn.getD h 0) l) r.2
      match f.1 with
      | some i => { f.2 with cod := { f.2.cod with fileTurn := f.2.cod.fileTurn.set h ((i - base + 1) % 32) } }
      | none => f.2

def execCodecRowSchedule (x : Complex) (encoder : Bool) (s : State) : Host.Outcome State Fault Refusal :=
  .next (rowSchedule x encoder s)

/-- A write of COD_KEYREQ: bits are set (W1S, Table 17.8). -/
def codKeyreq (v : Word64) (s : State) : State := { s with cod := { s.cod with keyReq := s.cod.keyReq ||| v } }

def execCodKeyreq (v : Word64) (s : State) : Host.Outcome State Fault Refusal :=
  .next (if hostMay s then codKeyreq v s else s)

/-- A codec command is aborted: its picture leaves the context (R331). -/
def codAborted (c : DmaCmd) (s : State) : State :=
  if cmdIsCodec c then closeIfDone (cmdCtx c) (dropPic s (cmdCtx c) c.num) else s

end Sys2Proof.Machine
end

