-- ==== Sys2Proof/Machine/Flags.lean ====
section
/-! DEFINITION. The flags and status fields that the device shows: every register of the BAR0 map (19 Table 19.6), bit by bit, as
a read of 8 bytes returns it (19 R360). A field that is reserved or WO reads as 0 (00 R3, R5). -/

namespace Sys2Proof.Machine

/-- A bit of a register. -/
def atBit (b : Bool) (k : Nat) : Nat := b.toNat * 2 ^ k

/-- A field of a register: a value of w bits at bit k. -/
def atField (x w k : Nat) : Nat := x % 2 ^ w * 2 ^ k

/-! ### Boot (19 Tables 19.7, 19.8, 19.3) -/

/-- The configuration was taken from an image (boot step 3). -/
def imageIn (s : State) : Bool := !s.boot.inReset && !s.boot.noImage && decide (3 ≤ s.boot.step)

/-- BOT_STATUS (Table 19.7). -/
def regBotStatus (s : State) : Nat :=
  let b := s.boot
  atField b.imageSeq 32 32 + atField b.svn 6 26 + atBit b.image 25 + atBit b.sealed 24 + atField b.step 4 20 + 0x10000
    + atField b.keySlot 2 14 + atField b.win 5 0

/-- BOT_PARAM[id], readable from boot step 6 (19 R354, 00 R6). -/
def regParam (s : State) (id : Nat) : Nat := if s.boot.paramsIn then param s id % 2 ^ 64 else 0

/-! ### Tick domains (02 Tables 2.6, 2.7) -/

/-- PHASE of Table 2.6. -/
def phaseCode : Phase → Nat
  | .admission => 0
  | .window => 1
  | .drain => 2
  | .guard => 3
  | .noRecord => 7

/-- PTP_LOCKED: SOURCE is 1, time is acquired, and the phase error is below 1 µs. -/
def ptpLockedBit (x : DomSt) : Bool :=
  x.source == 1 && x.acquired && !x.holdover && decide (-1000 < x.phaseErr ∧ x.phaseErr < 1000)

/-- TCK_DOMn_STATUS. -/
def regDomStatus (x : DomSt) : Nat :=
  (if x.plan.isSome then atField x.latchedGen 48 16 + atBit x.latchedSlot 15 else 0) + atBit (ptpLockedBit x) 14
    + atBit x.holdover 13 + atField (phaseCode x.phase) 3 10

/-! ### The sequence table (13 Table 13.1) -/

def seqStateCode : SeqState → Nat
  | .free => 0
  | .active => 1
  | .departing => 2

/-- FLAGS of a slot. -/
def seqFlags (q : SeqSlot) : Nat :=
  atBit q.coarse 0 + atBit q.fault 1 + atBit q.history 2 + atBit q.onFallback 3 + atBit q.deferred 4

/-- The 128 bytes of a slot. -/
def slotBytesOf (q : SeqSlot) : List Byte :=
  record 128 [(0, 1, seqStateCode q.state), (1, 1, q.cls), (2, 1, q.domain), (3, 1, seqFlags q), (4, 1, q.primary),
    (5, 1, q.fallback), (6, 1, q.running), (8, 8, q.tag.toNat), (0x10, 8, q.kvDesc.toNat), (0x18, 8, q.resBase.toNat),
    (0x20, 8, q.resBytes), (0x28, 8, q.saveBase.toNat), (0x30, 2, q.saveN), (0x32, 2, q.lateRun), (0x34, 2, q.coarseRun),
    (0x36, 2, q.deferRun), (0x38, 4, q.historyRatio.toNat), (0x3C, 1, q.historyCount), (0x3E, 2, q.backRun),
    (0x40, 8, q.reserved), (0x48, 8, q.admitTick)]

/-! ### Stacks (10 Table 10.3) -/

/-- REFRESH: 4x before the first reading, then by the row. -/
def refreshCode (k : StackSt) : Nat := if k.noReading then 2 else min 2 k.row

/-- CAP: 3 while the interfaces are off, else by the row. -/
def capCode (powered : Bool) (k : StackSt) : Nat := if !powered then 3 else if k.row = 3 then 1 else if k.row = 4 then 2 else if 5 ≤ k.row then 3 else 0

/-- Repairs of a stack's channels in use: rows, or lanes. A spare lane that failed is out of use (10 R194). -/
def repairsOf (s : State) (n : Nat) (rows : Bool) : Nat :=
  ((s.mem.bootRepairs ++ s.mem.repairs).filter fun r =>
    r.channel / 64 == n && r.isRow == rows && (r.isRow || decide (r.lane < 36))).length

/-- MEM_STACKn_STATUS. -/
def regStack (s : State) (n : Nat) : Nat :=
  let k := unit s.mem.stks n StackSt.reset
  let here := (s.mem.retraining.map (·.1)).find? fun ch => ch / 64 == n
  atField (field 8 k.temp) 8 40 + atField (refreshCode k) 2 38 + atField (capCode (stacksPowered s) k) 2 36
    + atField (here.getD 0 % 64) 6 30 + atBit here.isSome 29 + atBit k.failed 28 + atField (repairsOf s n true) 12 16
    + atField (repairsOf s n false) 8 8

/-! ### Translation and DMA (11 Tables 11.8, 11.9) -/

def regXltStatus (s : State) : Nat := atField s.xlt.produced.toNat 32 32 + atField s.xlt.invalDone.toNat 32 0

/-- DMA_ENGn_STATUS: an engine with more than four commands at faults is stalled (11 R217). -/
def regEngine (g : EngSt) : Nat :=
  atField (min 4 g.parked.length) 3 21 + atBit (decide (4 < g.parked.length)) 20 + atField g.tail.toNat 10 10
    + atField g.head.toNat 10 0

/-! ### Links (14 Tables 14.6, 14.7) -/

def regSelf (x : SelfSt) : Nat :=
  atField x.sliceId.toNat 16 48 + atBit x.member 47 + atBit x.coordValid 46 + atField x.index 12 32
    + atField x.dims.toNat 16 16 + atField x.coord.toNat 16 0

def portCode : PortState → Nat
  | .down => 0
  | .up => 1
  | .fenced => 2
  | .unused => 3

/-- LNK_PORTn_STATUS. -/
def regPort (s : State) (p : Nat) : Nat :=
  let q := portAt s p
  atField q.nbr.toNat 16 48
    + ((List.range 4).foldl (fun n j => n + atBit (linkAt s (p + 8 * j)).active (34 + j)) 0)
    + atField (portCode q.state) 2 32

/-! ### Codec (17 Tables 17.8, 17.11) -/

/-- A load in 2^-16 of the capacity of 8.0 x 10^9 units/s, rounded down. -/
def loadField (l : Nat × Nat) : Nat := l.1 * 65536 / (8000000000 * l.2)

/-- FILE_LOAD: file contexts have no limit, and a load that its field cannot hold has no stated reading: it is free (log
entry 83). -/
def fileLoadField (s : State) (x : Nat) : Nat :=
  let n := loadField (loadOf s x 1)
  if n < 65536 then n else drawn s 1711 % 65536

/-- Open contexts of a complex in a direction. -/
def openCount (s : State) (x dir : Nat) : Nat :=
  ((List.range 32).filter fun i => (ctxAt s (64 * dir + 32 * x + i)).desc.isSome).length

/-- COD_CXn_STATUS. -/
def regComplex (s : State) (x : Nat) : Nat :=
  atField (loadField (loadOf s x 0)) 16 48 + atField (fileLoadField s x) 16 32 + atField (openCount s x 0) 6 26
    + atField (openCount s x 1) 6 20 + atBit (s.cod.encOn.getD x false) 19 + atBit (s.cod.decOn.getD x false) 18

/-! ### Media (18 Tables 18.6, 18.7) -/

/-- MED_FLOWn_STATUS. -/
def regFlow (s : State) (f : Nat) : Nat :=
  let x := flowAt s f
  let up := x.cfg.elim 0 (portsUp s)
  atField x.lastTick 48 16 + atField x.repeats 8 8 + atField x.source 3 5 + atField x.domain 2 3 + atBit (bitOn up 1) 2
    + atBit (bitOn up 0 || bitOn up 2 || bitOn up 3) 1 + atBit x.cfg.isSome 0

/-- MED_PORTn_STATUS. -/
def regMediaPort (p : Nat) (m : MPortSt) : Nat :=
  atBit (m.ptpLocked && decide (p < 2)) 2 + atBit m.linkUp 1 + atBit m.powered 0

/-! ### Power (20 Tables 20.6-20.8) -/

/-- The mean of the last samples of the package power, in W. -/
def pMean (p : PwrSt) : Nat := p.samples.sum / max 1 p.samples.length

/-- The thermal cap of a row of Table 20.4, in 100 MHz; the trip row keeps the lowest cap. -/
def thermCap : Nat → Nat
  | 0 => 20
  | 1 => 18
  | 2 => 15
  | _ => 10

def regPwrStatus (p : PwrSt) : Nat :=
  atField (pMean p) 16 48 + atField p.cap 8 40 + atField (field 8 p.tjIod) 8 32 + atField p.causeNum 8 24
    + atBit p.causeMem 23 + atBit p.keepalive 22 + atField p.attempts 2 20

/-- Clusters of a quadrant that are powered. -/
def poweredIn (s : State) (q : Nat) : Nat :=
  ((List.range 36).filter fun i => (clAt s (36 * q + i)).powered).length

/-- PWR_QUADn_STATUS. -/
def regQuad (s : State) (n : Nat) : Nat :=
  let q := unit s.pwr.quads n QuadSt.reset
  atField (field 8 q.tjCd) 8 56 + atField (field 8 q.tjBd) 8 48 + atField (thermCap q.row) 8 40 + atField q.clock 8 32
    + atField (poweredIn s n) 8 24

/-! ### Events and Fibry (22 Table 22.5, 21 Table 21.4) -/

def regEvtStats (e : EvSt) : Nat :=
  atField e.buf.length 13 38 + atField e.hostDrops 16 22 + atField e.dropped 16 6 + atBit e.ringOn 0

/-- OBS_FILTER_STATUS: the filter in force. -/
def regFilter (o : ObsSt) : Nat :=
  atField o.kinds.toNat 16 48 + atField o.seqs.toNat 32 16 + atField o.domains.toNat 4 12 + atBit o.enable 0

/-! ### The map (19 Table 19.6) -/

/-- A register of a unit in a range of `stride` bytes each from `base`: its number and the offset within it. -/
def bank (offs base stride count : Nat) : Option (Nat × Nat) :=
  if base ≤ offs ∧ offs < base + stride * count then some ((offs - base) / stride, (offs - base) % stride) else none

/-- Registers of the tick unit: domains, and the sequence table. -/
def regTick (s : State) (offs : Nat) : Nat :=
  match bank offs 0x10000 0x40 4, bank offs 0x11000 0x80 32 with
  | some (n, 0), _ => regDomStatus (domAt s n)
  | some (n, 8), _ => (domAt s n).events.toNat
  | _, some (n, o) => fld (slotBytesOf (seqAt s n)) o 8
  | _, _ => 0

/-- Registers of the media ports: flows, and ports. -/
def regMedia (s : State) (offs : Nat) : Nat :=
  match bank offs 0x70000 0x40 48, bank offs 0x70C00 0x40 4 with
  | some (n, 0), _ => regFlow s n
  | _, some (n, 0) => regMediaPort n (mportAt s n)
  | _, _ => 0

/-- Registers of power and of the event path. -/
def regPower (s : State) (offs : Nat) : Nat :=
  if offs = 0x80000 then regPwrStatus s.pwr
  else if offs = 0x80008 then s.pwr.events.toNat
  else match bank offs 0x80040 0x40 4 with
    | some (n, 0) => regQuad s n
    | _ => 0

def regEvents (s : State) (offs : Nat) : Nat :=
  if offs = 0x90010 then atField s.ev.prod.toNat 32 32 + s.ev.cons.toNat
  else if offs = 0x90018 then regEvtStats s.ev
  else if offs = 0x90020 then s.ev.seen.toNat
  else 0

/-- Registers of Fibry: counters, status, filter and ring in force. -/
def regFibry (s : State) (offs : Nat) : Nat :=
  if offs < 0x108000 then ctrGet s ((offs - 0x100000) / 8)
  else if offs = 0x108018 then atField s.obs.prod.toNat 32 32 + s.obs.cons.toNat
  else if offs = 0x108020 then regFilter s.obs
  else if offs = 0x108028 then s.obs.ringBase.toNat / 4096 * 4096 + s.obs.ringSize % 64
  else 0

/-- Registers of the links and of the codec. -/
def regLinks (s : State) (offs : Nat) : Nat :=
  if offs = 0x50000 then regSelf s.self
  else match bank offs 0x50040 0x40 8 with
    | some (n, 0) => regPort s n
    | _ => 0

def regCodec (s : State) (offs : Nat) : Nat :=
  if offs = 0x60000 then s.cod.keyReq.toNat
  else match bank offs 0x60040 0x40 2 with
    | some (n, 0) => regComplex s n
    | _ => 0

/-- Registers of the stacks, of translation and of the engines. -/
def regMemory (s : State) (offs : Nat) : Nat :=
  match bank offs 0x20000 0x40 20, bank offs 0x40000 0x40 64 with
  | some (n, 0), _ => regStack s n
  | _, some (n, 8) => regEngine (engAt s n)
  | _, _ => if offs = 0x30010 then regXltStatus s else 0

/-- A read of 8 bytes at an offset of BAR0. An offset that no chapter assigns reads as 0. -/
def readReg (s : State) (offs : Nat) : Nat :=
  if offs = 0 then regBotStatus s
  else if offs < 0x4000 then 0
  else if offs < 0xC000 then regParam s ((offs - 0x4000) / 8)
  else if offs < 0x20000 then regTick s offs
  else if offs < 0x50000 then regMemory s offs
  else if offs < 0x60000 then regLinks s offs
  else if offs < 0x70000 then regCodec s offs
  else if offs < 0x80000 then regMedia s offs
  else if offs < 0x90000 then regPower s offs
  else if offs < 0x100000 then regEvents s offs
  else regFibry s offs

end Sys2Proof.Machine
end

