-- ==== Sys2Proof/Machine/Links.lean ====
section
/-! DEFINITION. The Evten links and ports: flits in order, replay and credits (14 R264, R265, R278), retrains and training
(R266, R267, R270), the states of a port (R268), and packets that arrive (R267, R276, R280). -/

namespace Sys2Proof.Machine

/-! ### Training (R266-R270) -/

/-- The Evten engines are powered: from boot step 4, outside keep-alive mode (20 Table 20.2). -/
def linksOn (s : State) : Bool :=
  !s.boot.inReset && !s.boot.noImage && !s.pwr.keepalive && decide (4 ≤ s.boot.step)

/-- The port of a link. -/
def linkPort (k : Nat) : Nat := k % 8

/-- The axis of a port is one of size 1: the port is unused (R268). -/
def portUnused (s : State) (p : Nat) : Bool := axisOf s.self.dims (p / 2) == 0

/-- Training of a link begins: it sends its coordinate frame (R270). A removed or hot link, or one of a fenced or unused
port, does not train. -/
def trainLink (k : Nat) (s : State) : State :=
  let p := linkPort k
  let l := linkAt s k
  if !linksOn s || !s.self.coordValid || l.removed || l.hot || portUnused s p || (portAt s p).state == .fenced then s
  else
    emit (modLink s k fun l => { l with training := true, active := false })
      (.coordFrame k s.self.coord s.self.dims p)

/-- A port has lost a link: with none left it is down, and LNK.011 is raised (R268). -/
def portCheck (p : Nat) (s : State) : State :=
  if (portAt s p).state == .up && (activeLinks s p).isEmpty then
    raise (modPort s p fun q => { q with state := .down }) bLNK 11 (locPort p) noSeq 0
  else s

/-- A link leaves its port. -/
def linkOut (k : Nat) (s : State) : State :=
  portCheck (linkPort k) (modLink s k fun l => { l with active := false, training := false })

/-- Every port trains afresh (R269, R281): a fence ends, what the links held is lost. -/
def trainAll (s : State) : State :=
  let s1 := each (List.range 32) (fun s k => linkOut k s) s
  let s2 := { s1 with
    link := s1.link.map fun l => { LinkSt.reset with removed := l.removed, hot := l.hot, fails := l.fails }
    port := (List.range 8).map fun p =>
      { PortSt.reset with state := if portUnused s p then .unused else .down, lastDrop := (portAt s p).lastDrop } }
  each (List.range 32) (fun s k => trainLink k s) s2

/-- A link is retrained out of its port (R266); the port goes on with its other links. -/
def linkRetrain (k : Nat) (s : State) : State :=
  if !(linkAt s k).active then s
  else
    let s1 := modLink (ctrAdd s (ctrLink k 4) 1) k fun l => { l with active := false, retries := [], again := true }
    trainLink k (portCheck (linkPort k) s1)

/-- FEC codewords that could not be corrected reach the model only as a cause of a retrain, and their number is free (log entry
145). -/
def badCodewords (k : Nat) (cause : LinkCause) (s : State) : State :=
  match cause with
  | .errors => if (linkAt s k).active then drew (ctrAdd s (ctrLink k 3) (drawn s 266)) else s
  | .lostSignal => s

/-- The cause is a count beyond R266's limits, or a lane without signal: the retrain is the same. -/
def execLinkRetrain (l : Link) (cause : LinkCause) (s : State) : Host.Outcome State Fault Refusal :=
  .next (if linksOn s then linkRetrain l (badCodewords l cause s) else s)

/-- The neighbour's coordinate on an axis, one step on or back. -/
def neighbour (s : State) (p : Nat) : BitVec 16 :=
  let j := p / 2
  let n := torus s j
  let x := axisOf s.self.coord j
  let y := if p % 2 = 0 then (x + 1) % n else (x + n - 1) % n
  BitVec.ofNat 16 (s.self.coord.toNat - x * 16 ^ j + y * 16 ^ j)

/-- The opposite port code: A+ with A-, and so on. -/
def oppositePort (p : Nat) : Nat := if p % 2 = 0 then p + 1 else p - 1

/-- A training fails: three failed retrains within 60 s remove the link until the next boot with LNK.010, else it trains on
(R266). -/
def trainingFailed (k : Nat) (s : State) : State :=
  if !(linkAt s k).again then trainLink k s else
  let fails := s.time :: (linkAt s k).fails.filter fun t => s.time < t + 60 * second
  if 3 ≤ fails.length then
    let s1 := modLink s k fun l => { LinkSt.reset with removed := true, hot := l.hot, fails := fails }
    raise (portCheck (linkPort k) s1) bLNK 10 (locLink k) noSeq 0
  else trainLink k (modLink s k fun l => { l with fails := fails })

/-- The neighbour check fails: the whole port is fenced with LNK.020 (R270). -/
def fencePort (p : Nat) (coord : BitVec 16) (s : State) : State :=
  let s1 := each [p, p + 8, p + 16, p + 24] (fun s k => modLink s k fun l =>
    { LinkSt.reset with removed := l.removed, hot := l.hot, fails := l.fails }) s
  raise (modPort s1 p fun q => { q with state := .fenced, nbr := coord, held := [] }) bLNK 20 (locPort p) noSeq
    (BitVec.ofNat 64 (s.self.coord.toNat + coord.toNat * 65536))

/-- A link more than 64 ns slower than the port's fastest leaves it with LNK.012 (R267). -/
def skewOut (k : Nat) (s : State) : State := raise (linkOut k s) bLNK 12 (locLink k) noSeq 0

/-- A link joins its port: links that are too slow beside the fastest leave it. A retrain ends with LNK.002. -/
def linkJoins (k latency : Nat) (coord : BitVec 16) (s : State) : State :=
  let p := linkPort k
  let again := (linkAt s k).again
  let s1 := modLink s k fun l => { l with latency := latency, again := false }
  let others := activeLinks s1 p
  if others.any fun j => decide ((linkAt s1 j).latency + 64 < latency) then skewOut k s1
  else
    let s2 := modLink s1 k fun l => { l with active := true, training := false }
    let s3 := modPort s2 p fun q => { q with state := .up, nbr := coord }
    let s4 := if again then raise s3 bLNK 2 (locLink k) noSeq 0 else s3
    let slow := others.filter fun j => decide (latency + 64 < (linkAt s1 j).latency)
    drain (each slow (fun s j => skewOut j s) s4) k

/-- Training of a link ends (R266, R267, R270). -/
def trainingDone (k : Nat) (r : LinkTraining) (s : State) : State :=
  if !(linkAt s k).training then s
  else
    match r with
    | .failed => trainingFailed k s
    | .trained latency coord dims code =>
      if dims = s.self.dims ∧ code.val = oppositePort (linkPort k) ∧ coord = neighbour s (linkPort k) then
        linkJoins k latency coord s
      else fencePort (linkPort k) coord s

def execLinkTrainingDone (l : Link) (result : LinkTraining) (s : State) : Host.Outcome State Fault Refusal :=
  .next (if linksOn s then trainingDone l result s else s)

/-- No coordinates within COORD_WAIT of boot: LNK.021, once (R269). -/
def coordWait (s : State) : State :=
  if s.boot.inReset || s.boot.noImage || decide (s.boot.step < 4) || s.self.coordValid || s.self.waitOver
      || decide (s.time < param s 0x040 * second) then s
  else raise { s with self := { s.self with waitOver := true } } bLNK 21 locDevice noSeq 0

def execCoordWaitTimeout (s : State) : Host.Outcome State Fault Refusal := .next (coordWait s)

/-! ### Flits (R264, R265, R278) -/

/-- Fields of a flit. -/
def flitHdr (f : BitVec 2048) (hi lo : Nat) : Nat := bits f.toNat hi lo
def flitSeq (f : BitVec 2048) : BitVec 12 := f.extractLsb' 36 12
def flitAck (f : BitVec 2048) : BitVec 12 := f.extractLsb' 24 12

/-- The CRC of a flit holds over its bytes 0-247. -/
def flitOk (f : BitVec 2048) : Bool := f.extractLsb' 1984 64 == crc64 (leBytes 248 f.toNat)

/-- The partner has acknowledged a flit: every flit up to that one leaves the replay buffer. -/
def acked (ack : BitVec 12) (l : LinkSt) : LinkSt :=
  { l with replay := l.replay.filter fun r => decide (2048 ≤ (ack - r.1).toNat) }

/-- Credits returned for a lane. -/
def credited (f : BitVec 2048) (l : LinkSt) : LinkSt :=
  let i := laneIdx (flitHdr f 19 17) (flitHdr f 16 16 == 1) (flitHdr f 20 20 == 1)
  { l with inFlight := l.inFlight.modify i (· - flitHdr f 15 7) }

/-- A retry request: the sender replays from the flit that it names, with LNK.001; more than 3 retries of one flit within
1 ms retrain the link (R265, R266). -/
def retryRequest (k : Nat) (fseq : BitVec 12) (s : State) : State :=
  let l := linkAt s k
  if !l.active || !(l.replay.any (·.1 == fseq)) then s
  else
    let again := l.replay.dropWhile (·.1 != fseq)
    let retries := (fseq, s.time) :: l.retries.filter fun r => s.time < r.2 + 1000000
    let s1 := modLink (ctrAdd s (ctrLink k 2) 1) k fun l => { l with retries := retries }
    let s2 := raise s1 bLNK 1 (locLink k) noSeq 0
    let s3 := each again (fun s r => emit (ctrAdd s (ctrLink k 0) 1) (.flit k r.2)) s2
    if 3 < (retries.filter (·.1 == fseq)).length then linkRetrain k s3 else s3

/-- A flit is discarded: the receiver asks for a replay from the next FSEQ that it expects, which is the one after the ACK that
rides with the request (R265; log entry 72). -/
def askReplay (k : Nat) (s : State) : State := sendBare s k 2

/-- A packet's flits stand in the receiver's buffer until its last one has come; then their credits are due (R278). -/
def buffered (f : BitVec 2048) (l : LinkSt) : LinkSt :=
  let i := laneIdx (flitHdr f 23 21) (flitHdr f 1 1 == 1) (flitHdr f 2 2 == 1)
  let n := l.rxHeld.getD i 0 + 1
  if flitHdr f 3 3 = 1 then { l with rxHeld := l.rxHeld.set i 0, owed := l.owed.modify i (· + n) }
  else { l with rxHeld := l.rxHeld.set i n }

/-- Does a flit carry a part of a packet? -/
def flitIsData (f : BitVec 2048) : Bool := flitHdr f 6 5 == 0 && decide (flitHdr f 23 21 < 7)

/-- A flit is accepted in its turn: its ACK, its credits and what it carries take effect. A data flit is acknowledged at once,
by a null flit where no other goes (log entry 72). -/
def takeFlit (k : Nat) (f : BitVec 2048) (s : State) : State :=
  let s1 := modLink s k fun l =>
    let l1 := credited f (acked (flitAck f) { l with rxSeq := l.rxSeq + 1 })
    if flitIsData f then buffered f l1 else l1
  let s2 := drain (ctrAdd s1 (ctrLink k 1) 1) k
  if flitHdr f 6 5 = 2 then retryRequest k (flitAck f + 1) s2
  else if flitIsData f && (linkAt s2 k).txSeq == (linkAt s1 k).txSeq then sendBare s2 k 1
  else s2

/-- A flit arrives (R264): accepted in FSEQ order, else discarded with a retry request. One behind its turn was accepted
before, and its second copy asks for nothing (log entry 72). -/
def flitReceive (k : Nat) (f : BitVec 2048) (s : State) : State :=
  let l := linkAt s k
  if !l.active then s
  else if !flitOk f then askReplay k s
  else if flitSeq f = l.rxSeq then takeFlit k f s
  else if (flitSeq f - l.rxSeq).toNat < 2048 then askReplay k s
  else s

def execFlitReceive (l : Link) (flit : BitVec 2048) (s : State) : Host.Outcome State Fault Refusal :=
  .next (if linksOn s then flitReceive l flit s else s)

def execRetryRequest (l : Link) (fseq : BitVec 12) (s : State) : Host.Outcome State Fault Refusal :=
  .next (if linksOn s then retryRequest l fseq s else s)

/-! ### Packets that arrive (R267, R276, R280) -/

/-- A packet that no device of its slice may take: it is dropped with LNK.032. -/
def dropForeign (p : Nat) (s : State) : State := raise (ctrAdd s (ctrPort p 0) 1) bLNK 32 (locPort p) noSeq 0

/-- Accept a packet, forward it in its class or as transit, or drop it (R276). -/
def routePacket (p : Nat) (hdr : BitVec 128) (payload : List Byte) (s : State) : State :=
  let own := s.self.sliceId != 0 && hdrSlice hdr == s.self.sliceId
  if hdrDst hdr = s.self.coord then
    if own then emit s (.delivered hdr payload) else dropForeign p s
  else sendOn s p (if own && decide (hdrClass hdr < 7) then hdrClass hdr else 4) hdr payload

/-- Packets that a port holds out of order, delivered as their turn comes. -/
def deliverHeld (p cls : Nat) : Nat → State → State
  | 0, s => s
  | n + 1, s =>
    let q := portAt s p
    match q.held.find? fun x => hdrClass x.1 == cls && hdrPseq x.1 == q.rxPseq.getD cls 0 with
    | none => s
    | some x =>
      let s1 := modPort s p fun q => { q with held := q.held.erase x, rxPseq := q.rxPseq.modify cls (· + 1) }
      deliverHeld p cls n (routePacket p x.1 x.2 s1)

/-- A packet arrives at a port: it is delivered in the order of PSEQ within its class (R267). -/
def packetReceive (p : Nat) (hdr : BitVec 128) (payload : List Byte) (s : State) : State :=
  let q := portAt s p
  let cls := hdrClass hdr
  if q.state != .up then s
  else if decide (32768 ≤ (hdrPseq hdr - q.rxPseq.getD cls 0).toNat) then s
  else
    let s1 := modPort s p fun q => { q with held := q.held ++ [(hdr, payload)] }
    deliverHeld p cls (q.held.length + 1) s1

def execPacketReceive (p : NPort) (hdr : BitVec 128) (payload : List Byte) (s : State) :
    Host.Outcome State Fault Refusal := .next (if linksOn s then packetReceive p hdr payload s else s)

end Sys2Proof.Machine
end

