-- ==== Sys2Proof/Machine/Report.lean ====
section
/-! DEFINITION. How reports leave the device: event records to the management controller and to the host ring (22 R394, R397-
R400), and trace records to the trace ring (21 R384-R389), with the registers that control both. -/

namespace Sys2Proof.Machine

def modEv (s : State) (f : EvSt → EvSt) : State := { s with ev := f s.ev }
def modObs (s : State) (f : ObsSt → ObsSt) : State := { s with obs := f s.obs }

/-! ### Events (22 R394, R397-R400) -/

/-- Records that every enabled destination has taken leave the buffer. -/
def evTidy (s : State) : State := modEv s fun e => { e with buf := evPurge (mgmtOn s) e.ringOn e.buf }

/-- EVENT: the oldest record that the management controller has not taken goes out as an EVENT message. -/
def eventSend (s : State) : State :=
  if !mgmtOn s then s
  else
    match s.ev.buf.find? (fun r => !r.tookMgmt) with
    | none => s
    | some r =>
      evTidy (emit (modEv s fun e => { e with
        buf := modFirst (fun r => !r.tookMgmt) (fun r => { r with tookMgmt := true }) e.buf }) (.eventMsg r))

def execEvent (s : State) : Host.Outcome State Fault Refusal := .next (eventSend s)

/-- Every record still due goes to the management controller. -/
def eventSendAll (s : State) : State := each s.ev.buf (fun s _ => eventSend s) s

/-- Records that a ring holds. -/
def ringEntries (size : Nat) : Nat := 2 ^ size / 32

/-- One record is written to the host ring, or counted where it would exceed the ring (R398). The flag says that it was
written. -/
def evWriteOne (acc : State × Bool) (r : EvRec) : State × Bool :=
  let e := acc.1.ev
  let n := ringEntries e.ringSize
  if n < (r.eseq + 1 - e.cons).toNat then
    (modEv acc.1 fun e => { e with hostDrops := min 65535 (e.hostDrops + 1) }, acc.2)
  else
    (hostWrite (modEv acc.1 fun e => { e with prod := r.eseq + 1 })
      (e.ringBase.toNat + 32 * (r.eseq.toNat % n)) (evBytes r), true)

/-- EVENT_RECORD_WRITE: buffered records go to the host ring in ESEQ order, and vector 65 covers them. While the endpoint is
reset the host destination takes them unwritten (R399). -/
def eventWrite (s : State) : State :=
  if !s.ev.ringOn then s
  else
    let due := s.ev.buf.filter fun r => !r.tookHost
    let w := if s.hif.epUp then due.foldl evWriteOne (s, false) else (s, false)
    let s1 := evTidy (modEv w.1 fun e => { e with buf := e.buf.map fun r => { r with tookHost := true } })
    if w.2 then evSignal s1 else s1

def execEventRecordWrite (s : State) : Host.Outcome State Fault Refusal := .next (eventWrite s)

/-- The host destination takes every held record without writing it (R399, R400). -/
def evSkipHeld (s : State) : State :=
  modEv s fun e => { e with buf := e.buf.map fun r => { r with tookHost := true } }

/-- EVT_RING: a ring is enabled only while none is in force and with SIZE in 12-24; ENABLE 0 disables at once (R400). -/
def evtRing (v : Word64) (s : State) : State :=
  let size := bits v.toNat 5 1
  if !hostMay s then s
  else if !v.getLsbD 0 then evTidy (modEv s fun e => { e with ringOn := false })
  else if s.ev.ringOn || decide (size < 12 ∨ 24 < size) then s
  else
    evTidy (evSkipHeld (modEv s fun e => { e with
      ringBase := BitVec.ofNat 64 (v.toNat / 4096 * 4096)
      ringSize := size
      ringOn := true
      prod := e.eseq
      cons := e.eseq }))

def execEvtRing (v : Word64) (s : State) : Host.Outcome State Fault Refusal := .next (evtRing v s)

/-- A consumer position lies neither behind the one in force nor ahead of PROD. -/
def consOk (cons prod v : BitVec 32) : Bool := decide ((v - cons).toNat ≤ (prod - cons).toNat)

/-- EVT_CONS (R400). -/
def evtCons (v : Word64) (s : State) : State :=
  let c := BitVec.ofNat 32 v.toNat
  if hostMay s && consOk s.ev.cons s.ev.prod c then modEv s fun e => { e with cons := c } else s

def execEvtCons (v : Word64) (s : State) : Host.Outcome State Fault Refusal := .next (evtCons v s)

/-! ### The trace filter and ring (21 R384-R386) -/

/-- A Fibry register write that is not in order raises OBS.001 (R385, R386). -/
def obsBad (s : State) : State := raise s bOBS 1 locDevice noSeq 0

/-- Tracing stops keeping records; the domain powers off once none is left (R385). -/
def traceClear (o : ObsSt) : ObsSt :=
  { o with
    enable := false
    domain := match o.domain with
      | .powering => .off
      | .on => if o.buf.isEmpty then .off else .draining
      | d => d }

/-- Tracing is enabled: a domain that is off powers up; one that drains does so once it is empty; one that is on goes on (log
entry 81). -/
def traceSet (o : ObsSt) : ObsSt :=
  { o with enable := true, domain := if o.domain == .off then .powering else o.domain }

/-- OBS_FILTER: the whole filter at one instant; ENABLE without a ring in force stays clear (R384, R385). -/
def obsFilter (v : Word64) (s : State) : State :=
  if !hostMay s then s
  else
    let s1 := modObs s fun o => { o with
      kinds := v.extractLsb' 48 16
      seqs := v.extractLsb' 16 32
      domains := v.extractLsb' 12 4
      dropSaid := false }
    if !v.getLsbD 0 then modObs s1 traceClear
    else if s.obs.ringSize = 0 then obsBad (modObs s1 traceClear)
    else modObs s1 traceSet

def execObsFilter (v : Word64) (s : State) : Host.Outcome State Fault Refusal := .next (obsFilter v s)

/-- OBS_RING: accepted only while tracing is disabled and its domain is off, with SIZE in 16-30 (R385). -/
def obsRing (v : Word64) (s : State) : State :=
  let size := bits v.toNat 5 0
  if !hostMay s then s
  else if s.obs.enable || s.obs.domain != .off || decide (size < 16 ∨ 30 < size) then obsBad s
  else modObs s fun o => { o with ringBase := BitVec.ofNat 64 (v.toNat / 4096 * 4096), ringSize := size }

def execObsRing (v : Word64) (s : State) : Host.Outcome State Fault Refusal := .next (obsRing v s)

/-- OBS_CONS (R386). -/
def obsCons (v : Word64) (s : State) : State :=
  let c := BitVec.ofNat 32 v.toNat
  if !hostMay s then s
  else if consOk s.obs.cons s.obs.prod c then modObs s fun o => { o with cons := c, dropSaid := false }
  else obsBad s

def execObsCons (v : Word64) (s : State) : Host.Outcome State Fault Refusal := .next (obsCons v s)

/-- TRACE_DOMAIN_POWERED: RSEQ restarts at 0, and with it the ring's positions (R385; log entry 81). -/
def traceDomainPowered (s : State) : State :=
  if s.obs.domain != .powering then s
  else modObs s fun o => { o with domain := if o.enable then .on else .off, rseq := 0, prod := 0, cons := 0 }

def execTraceDomainPowered (s : State) : Host.Outcome State Fault Refusal := .next (traceDomainPowered s)

/-! ### Trace records (21 R386, R388, R389) -/

/-- The layout of a trace record (Table 21.2). -/
def traceBytes (r : TraceRec) : List Byte :=
  record 16 [(0, 8, r.time), (8, 4, r.rseq.toNat), (0xC, 1, r.kind), (0xD, 1, r.seq), (0xE, 2, r.wher)]
    ++ leBytes 4 r.tick.toNat ++ r.data.take 12

/-- A record is dropped and counted; OBS.002 at the first drop (R386). -/
def traceDrop (s : State) : State :=
  let s1 := ctrAdd (modObs s fun o => { o with dropSaid := true }) (ctrFibry 1) 1
  if s.obs.dropSaid then s1 else raise s1 bOBS 2 locDevice noSeq 0

/-- The trace domain drains: with no record left it powers off, or up again where ENABLE was set meanwhile. -/
def traceDrained (s : State) : State :=
  if s.obs.domain == .draining && s.obs.buf.isEmpty then
    modObs s fun o => { o with domain := if o.enable then .powering else .off }
  else s

/-- TRACE_RECORD_WRITE: the oldest record is written to the ring, or dropped where the ring is full or the endpoint is reset;
a dropped record does not move PROD (log entry 81). -/
def traceWrite (s : State) : State :=
  if !(s.obs.domain == .on || s.obs.domain == .draining) then s
  else
    match s.obs.buf with
    | [] => s
    | r :: rest =>
      let s1 := modObs s fun o => { o with buf := rest }
      let n := ringEntries s.obs.ringSize
      if !s.hif.epUp || decide (n < (r.rseq + 1 - s.obs.cons).toNat) then traceDrained (traceDrop s1)
      else
        traceDrained (ctrAdd (hostWrite (modObs s1 fun o => { o with prod := r.rseq + 1 })
          (s.obs.ringBase.toNat + 32 * (r.rseq.toNat % n)) (traceBytes r)) (ctrFibry 0) 1)

def execTraceRecordWrite (s : State) : Host.Outcome State Fault Refusal := .next (traceWrite s)

/-- TRACE_WRITE_ERROR: a PCIe completion error on a trace write clears ENABLE with OBS.020 (R389). -/
def traceError (s : State) : State :=
  if s.obs.domain == .on || s.obs.domain == .draining then raise (modObs s traceClear) bOBS 20 locDevice noSeq 0 else s

def execTraceWriteError (s : State) : Host.Outcome State Fault Refusal := .next (traceError s)

end Sys2Proof.Machine
end

