-- ==== Sys2Proof/Machine/Steps.lean ====
section
/-! DEFINITION. TMM, TGRID and TCONV from issue to their end, step by step: the array takes one step at a time, a step
reads its operands as it takes the array and adds to its group, TILE_STEP_RELEASE ends it, and a close begins a conversion
whose bytes CONVERSION_COMPLETE writes (04 R56, R59-R64; 08 R144, R148, R149; log entry 37). -/

namespace Sys2Proof.Machine

/-! ### An instruction in progress -/

/-- The TCONV that an instruction in progress is. -/
def TileProg.conv (p : TileProg) : ConvJob := ⟨p.ext.getD 3 0, convWord p.word, convDesc p.desc⟩

/-- Is it a TMM or a TGRID? -/
def TileProg.isTile (p : TileProg) : Bool := p.opc == 0x40 || p.opc == 0x41

/-- It runs units without accumulator slots: the frequency path, or PREP. -/
def TileProg.byUnit (p : TileProg) : Bool := !p.isTile && !p.conv.direct

/-- Its cells and K steps (08 R148). -/
def TileProg.job (p : TileProg) : TileJob := if p.isTile then p.tile else p.conv.asTile

/-- Its physical slots. -/
def progSlots (s : State) (c item : Nat) (p : TileProg) : List Nat := if p.byUnit then [] else jobSlots s c item p.job

/-- The physical slot of its current cell: cells alternate between the slots of a pair (R60). -/
def cellSlot (s : State) (c item : Nat) (p : TileProg) : Option Nat :=
  (progSlots s c item p)[p.job.cellsBefore p.curve % 2]?

def setProg (s : State) (c t : Nat) (p : Option TileProg) : State := modThr s c t fun h => { h with prog := p }

/-- The next step of an instruction goes before the steps of instructions issued later (R56). -/
def queueNext (s : State) (c t : Nat) : State := modCl s c fun cl => { cl with waitQ := t :: cl.waitQ }

/-- Is a slot of this thread still converting? -/
def stillConverting (s : State) (c t : Nat) : Bool := (clAt s c).slots.any fun a => a.converting == some t

/-- An instruction has run its last step: its thread goes on, once its conversions have ended (R60, R63). -/
def progDone (s : State) (c t : Nat) (p : TileProg) : State :=
  let s1 := setProg (unreserve s c (progSlots s c (thrAt s c t).item p)) c t none
  if stillConverting s1 c t then s1 else ready s1 c t

/-- A group is closed into C or Y, or executed again. -/
def progClose (w : RunAt) (p : TileProg) (cell : Cell) (g : Group) (s : State) : State × Closed :=
  if p.isTile then tileClose w p.tile cell g p s else (s, .written (p.conv.gridWrites cell g))

/-- A slot as its conversion begins: what it will write, and whether the slot is kept for a later cell (R60, R63). -/
def AccSlot.convert (a : AccSlot) (t : Nat) (l : List (Nat × List Byte)) (keep : Option Group) : AccSlot :=
  { a with group := keep, converting := some t, result := l }

/-- One K step. -/
def progStep (w : RunAt) (p : TileProg) (cell : Cell) (rank : Nat) (held : Option Group) (k : Nat × Nat) (s : State) : StepOut :=
  if p.isTile then tileStep w p.tile cell rank held p k s else p.conv.gridStep w cell rank held p k s

/-- The K steps of an attempt are over: the group stays open, or it closes; then comes a re-execution, the next cell, or the
end. -/
def attemptEnd (s : State) (c t : Nat) (p : TileProg) : State :=
  let h := thrAt s c t
  let w : RunAt := ⟨c, t, h.seq, h.item⟩
  let j := p.job
  match j.cellAt p.curve, cellSlot s c h.item p with
  | some cell, some i =>
    let g := stepGroup w j p h.rank (unit (clAt s c).slots i AccSlot.reset).group fun _ => openAnchor s j fun _ => []
    if !j.grid && decide (j.w.grp < 2) then progDone (modSlot s c i fun a => { a with group := some g }) c t p
    else
      let r := progClose w p cell g s
      match r.2 with
      | .again q =>
        queueNext (setProg (modSlot r.1 c i fun a => { a with group := some (reservedGroup h.item h.rank) }) c t (some q)) c t
      | .written l =>
        match j.curveFrom (p.curve + 1) with
        | some d =>
          let s1 := modSlot r.1 c i fun a => a.convert t l (some (reservedGroup h.item h.rank))
          queueNext (setProg s1 c t (some (p.cell j d))) c t
        | none => progDone (modSlot r.1 c i fun a => a.convert t l none) c t p
  | _, _ => progDone s c t p

/-- The array takes a step of a thread: the step, the promotion that is charged and the bytes that are written as it ends. -/
def takeArray (s : State) (c t : Nat) (p : TileProg) (x : StepRec) (promo : Option (Nat × Nat)) (out : List (Nat × List Byte)) :
    State :=
  modCl (setProg s c t (some p)) c fun cl =>
    { cl with array := some ⟨t, (thrOf cl t).item, (thrOf cl t).seq, p.opc % 256, p.ext.getD 3 0, x, promo, out⟩ }

/-- The next step of a thread's instruction starts, or, where none is left in its attempt, what follows. -/
def beginStep (s : State) (c t : Nat) : State :=
  let h := thrAt s c t
  let w : RunAt := ⟨c, t, h.seq, h.item⟩
  match h.prog with
  | none => s
  | some p =>
    if p.byUnit then
      let r := p.conv.unitRun w p.curve (p.run s)
      takeArray r.r.s c t { p with begun := true, curve := p.curve + 1, said30 := r.r.said30, said31 := r.r.said31 }
        ⟨p.conv.unitCycles, p.fmtA, p.fmtB, 0⟩ none r.out
    else
      match p.job.nextStep p, p.job.cellAt p.curve, cellSlot s c h.item p with
      | some k, some cell, some i =>
        let o := progStep w p cell h.rank (unit (clAt s c).slots i AccSlot.reset).group k s
        takeArray (modSlot o.s c i fun a => { a with group := some o.g }) c t o.p o.rec_ o.promo []
      | _, _, _ => attemptEnd s c t p

/-- A step that opens a slot waits while that slot converts (R63). -/
def stepBlocked (s : State) (c t : Nat) : Bool :=
  (thrAt s c t).prog.any fun p => !p.isOpen && converting s c (cellSlot s c (thrAt s c t).item p).toList

/-- Waiting steps start in their order while the array is free. Steps that take no cycles leave it free; `n` bounds them. -/
def startWaiting (c : Nat) : Nat → State → State
  | 0, s => s
  | n + 1, s =>
    match (clAt s c).waitQ with
    | [] => s
    | t :: rest =>
      if (clAt s c).array.isSome || stepBlocked s c t || !mayIssue s c then s
      else startWaiting c n (beginStep (modCl s c fun cl => { cl with waitQ := rest }) c t)

/-- A waiting instruction without cycles closes at most two cells before it waits for a slot, each through at most twelve
re-executions. -/
def startNext (s : State) (c : Nat) : State := startWaiting c (32 * ((clAt s c).waitQ.length + 1)) s

/-! ### The release of the array and the end of a conversion (R56, R63) -/

/-- A step as the counters and the trace tell it (21 Tables 21.1 and 21.3). -/
def stepDone (c : Nat) (a : ArrayStep) (s : State) : State :=
  trace (ctrAdd (ctrAdd s (ctrCluster c 0) a.step.cycles) (ctrCluster c 1) 1) 3 a.seq (whereOf 0 c)
    (leBytes 1 a.opc ++ leBytes 2 a.prob ++ leBytes 4 a.step.cycles ++ leBytes 1 (16 * a.step.fmtA + a.step.fmtB)
      ++ leBytes 1 a.step.grp)

/-- A promotion is charged and traced as its step ends (05 R88). -/
def promoDone (c : Nat) (a : ArrayStep) (s : State) : State :=
  match a.promo with
  | none => s
  | some p => rethatchTrace (rethatchCharge (ctrAdd s (ctrCluster c 2) 1) c a.seq p.1) c a.seq 0 p.2 p.1

/-- A thread's instruction goes on after a step. -/
def stepAfter (s : State) (c t : Nat) (p : TileProg) : State :=
  if p.byUnit then (if p.curve < p.conv.units then queueNext s c t else progDone s c t p)
  else if (p.job.nextStep p).isSome then queueNext s c t
  else attemptEnd s c t p

/-- The step on the array ends. A step whose work item was terminated meanwhile leaves nothing, and its thread, suspended
until now, is free (09 R174, Table 9.2). -/
def stepEnd (s : State) (c : Nat) : State :=
  match (clAt s c).array with
  | none => s
  | some a =>
    let s1 := modCl (promoDone c a (stepDone c a s)) c fun cl => { cl with array := none }
    let h := thrAt s1 c a.thr
    if h.state == .suspended then modThr s1 c a.thr fun _ => Thread.reset
    else if ofItem h a.item && h.wait == .tile then
      let s2 := csWrites s1 c a.out
      h.prog.elim s2 (stepAfter s2 c a.thr)
    else s1

/-- The array is released: a closing conversion begins, or the thread goes on; the next step starts (R56). -/
def tileRelease (s : State) (c : Nat) : State := if (clAt s c).array.isNone then s else startNext (stepEnd s c) c

/-- TILE_STEP_RELEASE (R56). -/
def execTileStepRelease (c : Cluster) (s : State) : Host.Outcome State Fault Refusal := .next (tileRelease s c)

/-- A conversion has written its last byte: its slot is free, its thread may go on, a step that waited may start. -/
def conversionEnd (s : State) (c i : Nat) : State :=
  let a := unit (clAt s c).slots i AccSlot.reset
  match a.converting with
  | none => s
  | some t =>
    let s1 := modSlot (csWrites s c a.result) c i fun a => { a with converting := none, result := [] }
    let h := thrAt s1 c t
    let mine := a.owner.any fun o => ofItem h o.1
    startNext (if mine && h.wait == .tile && h.prog.isNone && !stillConverting s1 c t then ready s1 c t else s1) c

/-- CONVERSION_COMPLETE (R63). -/
def execConversionComplete (c : Cluster) (slot : Fin 4) (s : State) : Host.Outcome State Fault Refusal :=
  .next (conversionEnd s c slot)

/-! ### Issue (R61-R63, 08 R147, 09 R166) -/

/-- A checked instruction enters the queue of the array; one without a cell or a unit completes at once (R70). -/
def enterArray (s : State) (c t : Nat) (p : TileProg) (runs : Bool) : State :=
  let h := thrAt s c t
  let s1 := setProg (wait s c t .tile) c t (some p)
  if !runs then progDone s1 c t p
  else
    let s2 := if p.byUnit || p.isOpen then s1 else reserveSlots s1 c h.item h.rank (progSlots s1 c h.item p)
    startNext (modCl s2 c fun cl => { cl with waitQ := cl.waitQ ++ [t] }) c

/-- A TMM or TGRID at issue. -/
def tileIssue (opc : Nat) (word : BitVec 248) (c t : Nat) (pc : Word64) (s : State) : State :=
  let h := thrAt s c t
  let acc := (itemOf s h.seq h.item).elim 0 (·.acc)
  match tileChecks s c h acc (opc == 0x41) (tileWord word) with
  | .inl code => issueFault s c t pc bMXE code
  | .inr j =>
    let p := TileProg.start opc word (csBytes s c (h.tdescBase + 128 * j.prob) 128)
      (if j.prob < h.pdescCount then some (csBytes s c (h.pdescBase + 64 * j.prob) 64) else none)
      [j.mExt, j.nExt, j.kExt, j.prob] j ((j.curveFrom 0).getD 0)
    enterArray (if j.noSource then raise s bMXE 42 (locCluster c) h.seq 0 else s) c t p (j.curveFrom 0).isSome

/-- TMM (R59). -/
def execTmm (c : Cluster) (w : BitVec 248) (s : State) : Host.Outcome State Fault Refusal :=
  .next (issue s c 32 (fun t pc s => tileIssue 0x40 w c t pc s))

/-- TGRID (R60). -/
def execTgrid (c : Cluster) (w : BitVec 248) (s : State) : Host.Outcome State Fault Refusal :=
  .next (issue s c 32 (fun t pc s => tileIssue 0x41 w c t pc s))

/-- A TCONV at issue. The word's MODE must be the command's; MODE 2 and 3 fault as the compute form does. -/
def convIssue (word : BitVec 248) (c t : Nat) (pc : Word64) (s : State) : State :=
  let h := thrAt s c t
  let acc := (itemOf s h.seq h.item).elim 0 (·.acc)
  match convChecks s c h acc (convWord word) with
  | .inl e => issueFault s c t pc e.1 e.2
  | .inr j =>
    let first := if j.direct then j.asTile.curveFrom 0 else if j.units = 0 then none else some 0
    let p := TileProg.start 0x42 word (csBytes s c (h.tdescBase + 128 * j.prob) 128) none [0, 0, 0, j.prob] j.asTile
      (first.getD 0)
    enterArray s c t p first.isSome

/-- The form of a TCONV word: PREP is MODE 1 (R144). -/
def convIsPrep (w : BitVec 248) : Bool := (convWord w).mode == 1

/-- TCONV in its compute mode (R145, R148-R152). -/
def execTconv (c : Cluster) (w : BitVec 248) (s : State) : Host.Outcome State Fault Refusal :=
  .next (if convIsPrep w then s else issue s c 32 (fun t pc s => convIssue w c t pc s))

/-- TCONV in its PREP mode (R153). -/
def execTconvPrep (c : Cluster) (w : BitVec 248) (s : State) : Host.Outcome State Fault Refusal :=
  .next (if convIsPrep w then issue s c 32 (fun t pc s => convIssue w c t pc s) else s)

end Sys2Proof.Machine
end

