-- ==== Sys2Proof/Machine/Save.lean ====
section
/-! DEFINITION. How a work item comes onto its clusters and leaves them: launch (09 R164), save (13 R253, R254, 11 R221) and
restore (13 R251, 11 R222). -/

namespace Sys2Proof.Machine

/-! ### Halting (13 Table 13.5) -/

/-- A thread of an item as it stops: a tile instruction that has run a step stays in progress (04 R64), one that waits for
its first stands before it again, and one whose last step is done goes on. -/
def haltThread (num : Nat) (h : Thread) : Thread :=
  if ofItem h num && h.wait == .tile then
    match h.prog with
    | some p =>
      if p.begun then { h with prog := some { p with cycles := if p.rerun then 0 else p.cycles } }
      else { h with state := .ready, wait := .none, prog := none, pc := h.pc - 32 }
    | none => { h with state := .ready, wait := .none }
  else h

/-- A slot of an item as its threads stop: a conversion completes, a reservation is taken back. -/
def haltSlot (cl : ClusterSt) (num : Nat) (a : AccSlot) : AccSlot :=
  let a1 := if a.converting.any fun t => ofItem (thrOf cl t) num then { a with converting := none, result := [] } else a
  if a1.owner.any (·.1 == num) && a1.group.any (fun g => g.m == 0) then { a1 with group := none } else a1

/-- The steps that a cut re-execution has run are charged to this tick (05 R92). -/
def haltCharge (num c : Nat) (s : State) (t : Nat) : State :=
  let h := thrAt s c t
  match h.prog with
  | some p => if ofItem h num && h.wait == .tile then chargeRerun ⟨c, t, h.seq, h.item⟩ p s else s
  | none => s

/-- What the conversions of an item on a cluster still have to write. -/
def convRest (cl : ClusterSt) (num : Nat) : List (Nat × List Byte) :=
  cl.slots.flatMap fun a => if a.converting.any fun t => ofItem (thrOf cl t) num then a.result else []

/-- A held panel that an item's thread has not read. -/
def heldByOther (cl : ClusterSt) (num : Nat) (h : HeldPanel) : Bool := !ofItem (thrOf cl h.thr) num

/-- Stop an item's threads on a cluster at their next boundaries: its step on the array and its conversions end first. No
other step begins here. -/
def haltOn (num : Nat) (s : State) (c : Nat) : State :=
  let mine := (clAt s c).array.any fun a => a.item == num
  let s1 := each (List.range (clAt s c).threads.length) (haltCharge num c) (if mine then stepEnd s c else s)
  let cl := clAt s1 c
  modCl (csWrites s1 c (convRest cl num)) c fun k => { k with
    waitQ := k.waitQ.filter fun t => !ofItem (thrOf cl t) num
    slots := k.slots.map (haltSlot cl num)
    heldA := k.heldA.filter (heldByOther cl num)
    heldB := k.heldB.filter (heldByOther cl num)
    threads := k.threads.map (haltThread num) }

/-! ### The save area (13 R254, Table 13.6) -/

def saveRecord (s : State) (slot k : Nat) : Nat := (seqAt s slot).saveBase.toNat % 2 ^ 52 + k * 0x410000

/-- Code of a thread state in a save. -/
def stateCode : ThrState → Nat
  | .free => 0
  | .ready => 1
  | .waiting => 2
  | .saved => 3
  | .suspended => 4
  | .exited => 5

/-- WAIT, the barrier byte and the fault tag of Table 13.6. -/
def waitFields : Wait → Nat × Nat × Nat
  | .barrier scope id _ => (1, id % 64 + scope.toNat * 128, 0)
  | .fault tag => (2, 0, tag.toNat)
  | .dwait => (3, 0, 0)
  | .tfence => (3, 0, 0)
  | _ => (0, 0, 0)

/-- A tile word as it lies in memory: its opcode in the top byte of the first doubleword. -/
def wordBytes (p : TileProg) : List Byte :=
  let w := p.opc % 256 * 2 ^ 248 + p.word.toNat
  leBytes 8 (w / 2 ^ 192) ++ leBytes 8 (w / 2 ^ 128) ++ leBytes 8 (w / 2 ^ 64) ++ leBytes 8 w

/-- The tile fields of the save layout: the word in progress, CURVE, the next K step, the current formats and L. -/
def progFields (p : Option TileProg) : List Byte :=
  match p with
  | none => List.replicate 42 0
  | some p => wordBytes p ++ leBytes 4 p.curve ++ leBytes 4 p.step ++ leBytes 1 (16 * p.fmtA + p.fmtB) ++ leBytes 1 p.level

/-- The thread save layout. -/
def threadBytes (h : Thread) : List Byte :=
  let w := waitFields h.wait
  leBytes 8 h.pc.toNat ++ h.regs.flatMap (fun v => leBytes 8 v.toNat)
    ++ record 32 [(0, 2, h.pidx), (2, 1, h.rank), (3, 1, stateCode h.state), (4, 1, h.seq), (5, 1, h.domain),
      (8, 4, h.tdescBase), (0xC, 2, h.tdescCount), (0xE, 2, h.pdescCount), (0x10, 4, h.pdescBase), (0x14, 4, h.vdescBase),
      (0x18, 2, h.vdescCount)]
    ++ progFields h.prog ++ record 182 [(0, 1, w.1), (1, 1, w.2.1), (2, 4, w.2.2)]

/-- A tile instruction in progress with the values that its save holds. -/
def savedProg (bs : List Byte) (p : TileProg) : TileProg :=
  { p with curve := fld bs 0x140 4, step := fld bs 0x144 4, fmtA := fld bs 0x148 1 / 16, fmtB := fld bs 0x148 1 % 16,
           level := fld bs 0x149 1 }

/-- A thread with the values that its save holds. -/
def threadOf (h : Thread) (bs : List Byte) : Thread :=
  { h with
    pc := BitVec.ofNat 64 (fld bs 0 8)
    regs := (List.range 31).map fun i => BitVec.ofNat 64 (fld bs (8 + 8 * i) 8)
    pidx := fld bs 0x100 2
    rank := fld bs 0x102 1
    tdescBase := fld bs 0x108 4
    tdescCount := fld bs 0x10C 2
    pdescCount := fld bs 0x10E 2
    pdescBase := fld bs 0x110 4
    vdescBase := fld bs 0x114 4
    vdescCount := fld bs 0x118 2
    prog := h.prog.map (savedProg bs) }

/-- The header and the tails of a record: R254 names their contents and gives no layout (log entry 60). -/
def saveHead (i : Item) (tick : Nat) (m : SaveImg) : List Byte :=
  record 64 [(0, 8, i.doneVa - 0x18), (8, 2, m.cluster), (0xA, 1, m.threads.length), (0xB, 1, m.groups.length),
    (0x10, 8, tick)]
    ++ m.groups.flatMap fun g => record 32 [(0, 2, field 16 g.2.anchor), (2, 4, g.2.count), (6, 1, g.2.rank),
        (7, 1, 16 * g.2.fmtA + g.2.fmtB), (8, 1, g.2.level)]

/-- What a save of record k writes: addresses and bytes. -/
def saveWrites (base : Nat) (i : Item) (tick : Nat) (m : SaveImg) : List (Nat × List Byte) :=
  (base, saveHead i tick m) :: (base + 0x1000, m.threads.flatMap fun t => threadBytes t.2)
    :: ((List.range m.groups.length).zip m.groups).map fun g =>
        (base + 0x10000 + g.1 * 0x100000, g.2.2.elems.flatMap laBytes)

/-- Make the writes of a save; the first that faults stops it, with what was written left as it is (R221). -/
def putSave (port : Nat) : List (Nat × List Byte) → State → Option (Xl × Nat) × State
  | [], s => (none, s)
  | w :: ws, s =>
    let p := vaPlaces false w.1 w.2.length s port
    match p.1 with
    | .inl l => putSave port ws (putPlaces l w.2 false p.2)
    | .inr (.fault _ va x) => (some (x, va), p.2)
    | .inr _ => (none, p.2)

/-- The image of an item on one cluster. -/
def saveImage (s : State) (num c : Nat) : SaveImg :=
  let cl := clAt s c
  { cluster := c
    threads := ((List.range cl.threads.length).zip cl.threads).filter fun p => ofItem p.2 num
    groups := cl.slots.filterMap fun a =>
      match a.owner, a.group with
      | some (n, name), some g => if n = num then some (name, g) else none
      | _, _ => none }

/-- A cause that no thread gives (09 R422). -/
def plainCause (block num place : Nat) : FaultCause := ⟨block, num, 0, 0, 0, 0, 0, place⟩

/-- Level of a translation that failed. -/
def xlLevel : Xl → Nat
  | .retry l => l
  | .fatal _ l => l
  | _ => 0

/-- Write the record of one cluster; a place that has none, where a write fails. -/
def saveOne (slot : Nat) (i : Item) (tick : Nat) (m : Nat × SaveImg) (s : State) : Option (Xl × Nat × Nat) × State :=
  let r := putSave (m.2.cluster / 36) (saveWrites (saveRecord s slot m.1) i tick m.2) s
  (r.1.map fun x => (x.1, x.2, m.2.cluster), if r.1.isSome then r.2 else ctrAdd r.2 (ctrCluster m.2.cluster 7) 1)

/-- Write the records of an item, cluster by cluster, up to the first failure. -/
def saveRecords (slot : Nat) (i : Item) (tick : Nat) (l : List (Nat × SaveImg)) (s : State) :
    Option (Xl × Nat × Nat) × State :=
  l.foldl (fun acc m => if acc.1.isSome then acc else saveOne slot i tick m acc.2) (none, s)

/-- Time of a save or a restore in ns: free, for a save at most the 98.8 µs of R254 (log entry 61). -/
def moveNs (s : State) (restore : Bool) : Nat := if restore then drawn s 254 else drawn s 254 % 98801

/-- The KIND 2 trace record of a save or a restore that ends (21 Table 21.3). -/
def saveTrace (s : State) (slot : Nat) (i : Item) (c : Nat) (restore : Bool) : State :=
  trace (drew s) 2 slot (whereOf 0 c)
    (leBytes 6 (i.doneVa - 0x18) ++ leBytes 4 (moveNs s restore / 1000) ++ leBytes 1 restore.toNat)

/-- Other work of a sequence is in progress that it pays for itself. -/
def busyBeside (q : SeqSlot) (num : Nat) : Bool :=
  q.items.any fun x => x.num != num && x.placedTick && x.payer.isNone && (x.phase == .placed || x.phase == .running || x.short)

/-- The restore of an item that a checkpoint pre-empted is charged to the sequence that was late there (R255): its own
sequence is not charged for that time where it runs nothing else, and the payer is charged for it where its own window time
does not already hold it. -/
def chargeRestore (slot : Nat) (i : Item) (ns : Nat) (s : State) : State :=
  match i.payer with
  | none => s
  | some p =>
    if p = slot then s
    else
      let s1 := if busyBeside (seqAt s slot) i.num then s else modSeq s slot fun q => { q with exemptNs := max q.exemptNs ns }
      if hasWork (seqAt s1 p) || (seqAt s1 p).state == .free then s1
      else modSeq s1 p fun q => { q with chargedNs := q.chargedNs + ns }

/-- Pre-empt a running item (R253, R254). A save that faults terminates it with XLT.020 (R221). -/
def saveItem (payer : Option Nat) (slot num : Nat) (s : State) : State :=
  match itemOf s slot num with
  | none => s
  | some i =>
    let s1 := i.placed.foldl (haltOn num) (noteCharge s slot)
    let imgs := i.placed.map (saveImage s1 num)
    let r := saveRecords slot i (domAt s1 (seqAt s1 slot).domain).tickNo ((List.range imgs.length).zip imgs) s1
    match r.1 with
    | some (x, va, c) =>
      let s2 := faultFatal r.2 { mkFault 4 (xlLevel x) (va % 2 ^ 52) c slot .none with code := 20 }
      terminate s2 slot num (plainCause bXLT 20 va)
    | none =>
      let s2 := saveTrace { r.2 with cl := r.2.cl.map (clDropItem num) } slot i (i.placed.headD 0) false
      modItem s2 slot num fun i =>
        { i with phase := .carried, saves := imgs, prev := i.placed, placed := [], payer := payer }

/-! ### Slots and threads of an item on a cluster -/

/-- Grant an item its slots on a cluster: the first free ones take its numbers in order (04 R62). -/
def grantSlots (num acc : Nat) (cl : ClusterSt) : ClusterSt :=
  let free := (List.range cl.slots.length).filter fun i =>
    let a := unit cl.slots i AccSlot.reset
    a.owner.isNone && a.converting.isNone
  ((List.range acc).zip free).foldl (fun cl p =>
    { cl with slots := cl.slots.set p.2 ⟨some (num, p.1), none, none, []⟩ }) cl

/-- Free threads of a cluster, by number. -/
def freeThreads (cl : ClusterSt) : List Nat :=
  (List.range cl.threads.length).filter fun t => (thrOf cl t).state == .free

/-- Free slots of a cluster. -/
def freeSlots (cl : ClusterSt) : Nat := (cl.slots.filter fun a => a.owner.isNone && a.converting.isNone).length

/-- Every cluster has room for the threads and slots of an item. -/
def roomFor (s : State) (l : List Nat) (nthr acc : Nat) : Bool :=
  l.all fun c => decide (nthr ≤ (freeThreads (clAt s c)).length ∧ acc ≤ freeSlots (clAt s c))

/-! ### Launch (09 R164, R422) -/

/-- The launch record of Table 9.7. -/
structure Launch where
  entry : Word64
  tBase : Nat
  tCount : Nat
  pCount : Nat
  pBase : Nat
  vBase : Nat
  vCount : Nat
  nthr  : Nat
  pidx0 : Nat
  fault : Nat
deriving DecidableEq, Repr

def launchOf (bs : List Byte) : Launch :=
  ⟨BitVec.ofNat 64 (fld bs 0 8), fld bs 8 4, fld bs 0xC 2, fld bs 0xE 2, fld bs 0x10 4, fld bs 0x14 4, fld bs 0x18 2,
    fld bs 0x1A 1, fld bs 0x1C 2, fld bs 0x20 8⟩

/-- Offset of the first field that breaks Table 9.1, or of an NTHR that is not the item's. -/
def Launch.badAt (l : Launch) (i : Item) : Option Nat :=
  if l.tBase % 128 ≠ 0 ∨ 2 ^ 24 ≤ l.tBase then some 8
  else if l.pBase % 64 ≠ 0 ∨ 2 ^ 24 ≤ l.pBase then some 0x10
  else if l.vBase % 128 ≠ 0 ∨ 2 ^ 24 ≤ l.vBase then some 0x14
  else if l.nthr ≠ i.nthr then some 0x1A else none

/-- A thread as it starts: G1 holds the address of the launch record. -/
def startThread (l : Launch) (i : Item) (slot dom rank : Nat) : Thread :=
  { Thread.reset with
    state := .ready
    pc := l.entry
    regs := (List.replicate 31 0).set 0 (BitVec.ofNat 64 i.launch)
    pidx := (l.pidx0 + rank) % 65536
    rank := rank
    tdescBase := l.tBase
    tdescCount := l.tCount
    pdescBase := l.pBase
    pdescCount := l.pCount
    vdescBase := l.vBase
    vdescCount := l.vCount
    seq := slot
    domain := dom
    item := i.num }

/-- Start NTHR threads of an item on one cluster. -/
def startOn (l : Launch) (i : Item) (slot dom : Nat) (cl : ClusterSt) : ClusterSt :=
  let cl1 := grantSlots i.num i.acc cl
  ((List.range l.nthr).zip (freeThreads cl1)).foldl (fun cl p =>
    { cl with threads := cl.threads.set p.2 (startThread l i slot dom p.1) }) { cl1 with tag := i.affinity }

/-- Terminate an item that could not be launched: SEQ.040. A launch record that was read names the fault area, whose
record gives CLUSTER, RANK, PC and PIDX 0 and the offset of the bad field (Table 9.8); one that could not be read names none
(R174). -/
def launchFail (slot : Nat) (i : Item) (l : Option Launch) (place : Nat) (s : State) : State :=
  let s1 := modItem s slot i.num fun x => { x with faultVa := (l.map (·.fault)).getD 0 }
  terminate (raise s1 bSEQ 40 (locCluster (i.placed.headD 0)) slot 0) slot i.num (plainCause bSEQ 40 place) l.isSome

/-- Launch an item on the clusters placed for it, or leave it waiting where one has too few free threads (R164). -/
def launchItem (slot num : Nat) (s : State) : State :=
  match itemOf s slot num with
  | none => s
  | some i =>
    let r := devRead s (.gva (BitVec.ofNat 64 i.launch)) 64
    match r.1.map launchOf with
    | none => launchFail slot i none 0 r.2
    | some l =>
      match l.badAt i with
      | some o => launchFail slot i (some l) o r.2
      | none =>
        let s1 := i.placed.foldl (fun s c => modCl s c freeExited) r.2
        if !roomFor s1 i.placed i.nthr i.acc then
          modItem s1 slot num fun i => { i with phase := .waiting, placed := [], short := true }
        else
          let q := seqAt s1 slot
          let s2 := i.placed.foldl (fun s c => modCl s c (startOn l i slot q.domain)) s1
          modItem s2 slot num fun i => { i with phase := .running, faultVa := l.fault, firstPass := !q.history }

/-! ### Restore (13 R251, 11 R222) -/

/-- What stops the reads of a restore. -/
inductive RestEnd where
  | xl (x : Xl) (va c : Nat)
  | poison (num detail : Nat)
deriving DecidableEq, Repr

/-- A sector of the save area that an earlier attempt of this restore has read. -/
def keptAt (s : State) (slot num va : Nat) : Option (List Byte) :=
  (itemOf s slot num).bind fun i => (i.kept.find? (·.1 == va)).map (·.2)

/-- Read bytes of the save area in sector order. What has been read is kept, and a restore that resumes goes on with the
sector that it stopped at (11 R222). -/
def restRead (slot num c va n : Nat) (s : State) : (List Byte ⊕ RestEnd) × State :=
  (chunks va n).foldl (fun acc k =>
    match acc.1 with
    | .inr _ => acc
    | .inl bs =>
      match keptAt acc.2 slot num k.1 with
      | some old => (.inl (bs ++ old), acc.2)
      | none =>
        let t := translate acc.2 (k.1 % 2 ^ 52) .r false (c / 36)
        match t.1 with
        | .stack pa =>
          let r := readPA t.2 pa k.2
          if r.1.poison then (.inr (.poison (poisonNum t.2 pa) r.1.detail.toNat), r.2)
          else (.inl (bs ++ r.1.bytes), modItem r.2 slot num fun i => { i with kept := i.kept ++ [(k.1, r.1.bytes)] })
        | x => (.inr (.xl x k.1 c), t.2)) (.inl [], s)

/-- Read the record of one cluster: its threads and groups with the values that the save area holds. -/
def restImage (slot num base c : Nat) (m : SaveImg) (s : State) : (SaveImg ⊕ RestEnd) × State :=
  let h := restRead slot num c base (64 + 32 * m.groups.length) s
  match h.1 with
  | .inr z => (.inr z, h.2)
  | .inl _ =>
    let t := restRead slot num c (base + 0x1000) (512 * m.threads.length) h.2
    match t.1 with
    | .inr z => (.inr z, t.2)
    | .inl bs =>
      let thr := ((List.range m.threads.length).zip m.threads).map fun p =>
        (p.2.1, threadOf p.2.2 ((bs.drop (512 * p.1)).take 512))
      ((List.range m.groups.length).zip m.groups).foldl (fun (acc : (SaveImg ⊕ RestEnd) × State) g =>
        match acc.1 with
        | .inr _ => acc
        | .inl img =>
          let n := g.2.2.m * g.2.2.n
          let r := restRead slot num c (base + 0x10000 + g.1 * 0x100000) (16 * n) acc.2
          (match r.1 with
           | .inr z => .inr z
           | .inl es =>
             .inl { img with groups := img.groups ++ [(g.2.1, { g.2.2 with
               elems := (List.range n).map fun k => laOfBytes ((es.drop (16 * k)).take 16) })] }, r.2))
        (.inl ⟨c, thr, []⟩, t.2)

/-- Read the records of an item for its clusters, in order. -/
def restImages (slot num : Nat) : List (Nat × Nat × SaveImg) → State → (List SaveImg ⊕ RestEnd) × State
  | [], s => (.inl [], s)
  | m :: ms, s =>
    let r := restImage slot num (saveRecord s slot m.1) m.2.1 m.2.2 s
    match r.1 with
    | .inr z => (.inr z, r.2)
    | .inl img =>
      let q := restImages slot num ms r.2
      (match q.1 with
       | .inr z => .inr z
       | .inl l => .inl (img :: l), q.2)

/-- Where the threads of an item were, and where they are now: old (cluster, thread), new (cluster, thread). -/
abbrev Moves := List ((Nat × Nat) × (Nat × Nat))

def movedTo (m : Moves) (c t : Nat) : Nat × Nat := (m.find? (·.1 == (c, t))).elim (c, t) (·.2)

def moveIssuer (num : Nat) (m : Moves) : Issuer → Issuer
  | .thread c t i => if i = num then .thread (movedTo m c t).1 (movedTo m c t).2 i else .thread c t i
  | .host => .host

def moveReq (num : Nat) (m : Moves) : Requester → Requester
  | .thread c t i => if i = num then .thread (movedTo m c t).1 (movedTo m c t).2 i else .thread c t i
  | r => r

def moveCmd (num : Nat) (m : Moves) (c : DmaCmd) : DmaCmd := { c with issuer := moveIssuer num m c.issuer }

/-- What waits for an item's threads follows them to their new places. -/
def moveAll (num : Nat) (m : Moves) (s : State) : State :=
  { s with
    eng := s.eng.map fun g => { g with
      thrQ := g.thrQ.map (moveCmd num m)
      parked := g.parked.map fun p => (p.1, moveCmd num m p.2)
      cur := g.cur.map (moveCmd num m) }
    cod := { s.cod with ctxs := s.cod.ctxs.map fun x => { x with
      queue := x.queue.map fun p => { p with cmd := moveCmd num m p.cmd }
      closing := x.closing.map fun p => (p.1, moveCmd num m p.2) } }
    xlt := { s.xlt with
      faults := s.xlt.faults.map fun f => { f with req := moveReq num m f.req }
      t4 := s.xlt.t4.map fun r => { r with who := moveReq num m r.who } }
    col := { s.col with units := s.col.units.map fun u =>
      ⟨u.inProg.map fun x => { x with issuer := moveIssuer num m x.issuer }⟩ } }

/-- A thread as it comes back: one that stood at a full queue goes on, and one that gave up the tick, unless what its TFENCE
waits for is still open (R170, R173). -/
def backThread (dom : Nat) (fence : Bool) (h : Thread) : Thread :=
  let w := match h.wait with
    | .tfence => if fence then .none else .tfence
    | .dqFull _ => .none
    | .cqFull _ => .none
    | w => w
  { h with state := if w == .none then .ready else .waiting, wait := w, domain := dom, stamp := 0 }

/-- The tile instructions in progress of restored threads take their slots and wait for the array again (04 R64). -/
def backTiles (i : Item) (c : Nat) (places : List (Nat × Nat × Thread)) (s : State) : State :=
  each places (fun s x =>
    match (thrAt s c x.1).prog with
    | none => s
    | some p =>
      modCl (reserveSlots s c i.num (thrAt s c x.1).rank (if p.job.grid then progSlots s c i.num p else [])) c
        fun cl => { cl with waitQ := cl.waitQ ++ [x.1] }) s

/-- Put the image of one cluster onto another: slots by their numbers, threads into free ones. -/
def attachOn (i : Item) (dom c : Nat) (m : SaveImg) (acc : State × Moves) : State × Moves :=
  let cl1 := grantSlots i.num i.acc (clAt acc.1 c)
  let places := (freeThreads cl1).zip m.threads
  let cl2 := m.groups.foldl (fun (cl : ClusterSt) g =>
    { cl with slots := cl.slots.map fun a => if a.owner == some (i.num, g.1) then { a with group := some g.2 } else a }) cl1
  let cl3 := places.foldl (fun (cl : ClusterSt) p =>
    { cl with threads := cl.threads.set p.1 (backThread dom (fenceOver acc.1 m.cluster p.2.1 i.num) p.2.2) }) cl2
  (backTiles i c places (modCl acc.1 c fun _ => { cl3 with tag := i.affinity }),
    acc.2 ++ places.map fun p => ((m.cluster, p.2.1), (c, p.1)))

/-- Threads of an item on its clusters go on where what they waited for is done. -/
def wakeItem (num : Nat) (l : List Nat) (s : State) : State :=
  each l (fun s c => each (List.range 64) (fun s t =>
    if isOn s c t num then t4Settle s c t num else s) (startNext s c)) s

/-- The restored item runs on its clusters. -/
def attach (slot : Nat) (i : Item) (imgs : List SaveImg) (s : State) : State :=
  let dom := (seqAt s slot).domain
  let keyed := ((imgs.zip i.saves).map fun p => { p.1 with cluster := p.2.cluster })
  let r := (i.placed.zip keyed).foldl (fun acc p => attachOn i dom p.1 p.2 acc) (s, [])
  let s0 := modItem (moveAll i.num r.2 r.1) slot i.num fun i => { i with phase := .running, saves := [], kept := [] }
  let s1 := chargeRestore slot i (moveNs s0 true) (saveTrace s0 slot i (i.placed.headD 0) true)
  wakeItem i.num i.placed s1

/-- A fault of a restore is outstanding for an item. -/
def restoring (s : State) (slot num : Nat) : Bool := s.xlt.faults.any (·.req == .restore slot num)

/-- Restore an item onto the clusters placed for it: its k-th cluster takes record k. It waits for a recoverable fault, and is
terminated by a fatal one or by poison. -/
def restoreItem (slot num : Nat) (s : State) : State :=
  match itemOf s slot num with
  | none => s
  | some i =>
    if restoring s slot num then s
    else
      let s0 := i.placed.foldl (fun s c => modCl s c freeExited) s
      if !roomFor s0 i.placed i.nthr i.acc then modItem s0 slot num fun i => { i with phase := .carried, placed := [], short := true }
      else
        let r := restImages slot num ((List.range i.saves.length).zip (i.placed.zip i.saves)) s0
        match r.1 with
        | .inl imgs => attach slot i imgs r.2
        | .inr (.xl (.retry level) va c) =>
          let f := faultRetry r.2 (mkFault 5 level (va % 2 ^ 52) c slot (.restore slot num))
          match f.1 with
          | some _ => f.2
          | none => terminate f.2 slot num (plainCause bXLT 4 va)
        | .inr (.xl x va c) =>
          let code := match x with
            | .fatal k _ => k
            | _ => 11
          terminate (faultFatal r.2 { mkFault 5 (xlLevel x) (va % 2 ^ 52) c slot .none with code := code }) slot num
            (plainCause bXLT code va)
        | .inr (.poison n detail) => terminate r.2 slot num (plainCause bMEM n detail)

/-- Start or restore an item that is placed. -/
def beginItem (slot num : Nat) (s : State) : State :=
  match itemOf s slot num with
  | none => s
  | some i =>
    if i.phase != .placed then s
    else if i.saves.isEmpty then launchItem slot num s
    else restoreItem slot num s

end Sys2Proof.Machine
end

