-- ==== Sys2Proof/Machine/Sched.lean ====
section
/-! DEFINITION. Sequences and their work (13): model moves (R258, R259, 12 R239), the admission queue and its entries (R243-
R249, 07 R126, R129, R131), releases (R248), shedding (R260) and placement (R250, R252). -/

namespace Sys2Proof.Machine

/-- Slots of a domain in a state. -/
def slotsOf (s : State) (d : Nat) (st : SeqState) : List Nat :=
  (List.range 32).filter fun n => (seqAt s n).state == st && (seqAt s n).domain == d

def activeSlots (s : State) (d : Nat) : List Nat := slotsOf s d .active

/-! ### Discarding work (R247, R259, R249) -/

/-- Every pending batch and item of a sequence goes, with bit k of DONE; an item that was terminated has bit 3 (R247). -/
def discardWork (slot k : Nat) (s : State) : State :=
  let q := seqAt s slot
  let s1 := each q.items (fun s i => itemEnd s slot i.num (if i.terminated then 3 else k)) s
  let s2 := each (q.batches.flatMap (·.items)) (fun s i => writeDone s i k) s1
  modSeq s2 slot fun q => { q with batches := [] }

/-- A slot becomes departing (R247). -/
def departSlot (slot : Nat) (s : State) : State :=
  releaseRefs slot (discardWork slot 4 (modSeq s slot fun q => { q with state := .departing, moves := [], departNext := false }))

/-! ### Model moves (R256-R259, 12 R239) -/

/-- The model that a move would run. -/
def moveTarget (q : SeqSlot) (toFb : Bool) : Nat := if toFb then q.fallback else q.primary

/-- A move is made: RUNNING and ON_FALLBACK change, with the effects of R30, R95 and R259. -/
def makeMove (slot : Nat) (toFb : Bool) (s : State) : State :=
  let s1 := modSeq s slot fun q => { q with
    running := moveTarget q toFb
    onFallback := toFb
    byNotice := q.byNotice && toFb
    history := false
    passDone := false
    historyCount := 0
    lateRun := 0
    coarseRun := 0
    deferRun := 0
    backRun := 0
    said022 := false }
  let s2 := raise (ctrAdd s1 (ctrSeq slot 5) 1) bSEQ (if toFb then 20 else 21) (locSlot slot) slot 0
  ringClear (discardWork slot 2 s2) slot

/-- A move called for by a sequence notice falls due (R258): where its target is not live, SEQ.022 once per run. -/
def seqMove (slot : Nat) (toFb : Bool) (s : State) : State :=
  let q := seqAt s slot
  if q.onFallback = toFb || (q.byNotice && !toFb) then s
  else if modelLive s (moveTarget q toFb) then makeMove slot toFb s
  else if q.said022 then s
  else raise (modSeq s slot fun q => { q with said022 := true }) bSEQ 22 (locSlot slot) slot 0

/-- The sequence moves that fall due at tick n, in the order of their ticks; where notices in both directions name a tick,
the move to the fallback wins. -/
def seqMoves (d n : Nat) (s : State) : State :=
  each (activeSlots s d) (fun s slot =>
    let due := (seqAt s slot).moves.filter (·.1 ≤ n)
    each (due.filter fun x => x.2 || !due.contains (x.1, true)) (fun s x => seqMove slot x.2 s)
      (modSeq s slot fun q => { q with moves := q.moves.filter (n < ·.1) })) s

/-- The model notices that fall due at the admit phase of tick n of the model's domain. -/
def modelDue (d n m : Nat) (s : State) : State :=
  if (wgtAt s m).dom = d then modWgt s m (noticesDue n) else s

/-- A sequence follows the state of its primary: moved while notices hold it on its fallback, returned after. -/
def followModel (slot : Nat) (s : State) : State :=
  let q := seqAt s slot
  let fallen := decide (q.primary < 16) && (wgtAt s q.primary).fallen
  if fallen && q.onFallback then modSeq s slot fun q => { q with byNotice := true }
  else if fallen && modelLive s q.fallback then
    makeMove slot true (modSeq s slot fun q => { q with byNotice := true })
  else if !fallen && q.byNotice then
    let s1 := modSeq s slot fun q => { q with byNotice := false }
    if q.onFallback && modelLive s1 q.primary then makeMove slot false s1 else s1
  else s

/-- Step 2 of an admit phase. -/
def modelMoves (d n : Nat) (s : State) : State :=
  let s1 := seqMoves d n s
  let s2 := each (List.range 16) (fun s m => modelDue d n m s) s1
  each (activeSlots s2 d) (fun s slot => followModel slot s) s2

/-- A live copy has a poisoned yealm without a verified twin. -/
def needsFallback (w : ModelSt) : Bool := w.live.elim false fun c => c.bad.any fun b => !c.twinOk.contains b.1

/-- The notices that a member sends at an admit phase of the models' domain (R239). -/
def sendNotices (d n : Nat) (s : State) : State :=
  each (List.range 16) (fun s m =>
    let w := wgtAt s m
    if w.dom ≠ d then s
    else if needsFallback w then
      let s1 := modWgt s m fun w => { w with noticing := true, returnsLeft := 0 }
      fallbackNotice m (n + 1) (each (peers s1) (fun s i => inject s i 6 (.fallbackNotice m (n + 1))) s1)
    else
      let left := if w.noticing then (if w.live.elim false (·.bad.isEmpty) then 8 else 0) else w.returnsLeft
      if left = 0 then s
      else
        let s1 := modWgt s m fun w => { w with noticing := false, returnsLeft := left - 1 }
        returnNotice m (n + 1) (each (peers s1) (fun s i => inject s i 6 (.returnNotice m (n + 1))) s1)) s

/-! ### Queue entries (R243-R249) -/

/-- Address of the admission queue of a domain; 0 where no record is latched. -/
def queueVa (s : State) (d : Nat) : Option Nat := (domAt s d).plan.map fun p => p.admitQueue % 2 ^ 52

/-- Address of entry i. -/
def entryVa (q i : Nat) : Nat := q + 0x40 + 64 * (i % 1024)

/-- An entry with a valid OP, SLOT and reserved fields (R244). -/
def entryWf (bs : List Byte) : Bool :=
  decide (1 ≤ fld bs 0 1 ∧ fld bs 0 1 ≤ 5 ∧ fld bs 1 1 < 32) && zeroIn bs 4 8 && zeroIn bs 0x32 0x38

/-- Why an entry is refused: block and number. -/
abbrev Refuse := Option (Nat × Nat)

/-- Raise the event of a refused entry. -/
def entryEvent (d slot : Nat) (r : Nat × Nat) (s : State) : State :=
  if slot < 32 then raise s r.1 r.2 (locSlot slot) slot 0 else raise s r.1 r.2 (locDomain d) noSeq 0

/-- STATUS of an entry is written and the device's position moves past it. -/
def entryEnd (d slot : Nat) (r : Refuse × State) : State :=
  let s := match r.1 with
    | some x => entryEvent d slot x r.2
    | none => r.2
  let s1 := match queueVa s d with
    | some q => devPut s (.lva (entryVa q (domAt s d).cons + 0x38))
        (leBytes 8 (match r.1 with
          | some x => 2 + x.2 * 65536
          | none => 1))
    | none => s
  modDom s1 d fun x => { x with cons := x.cons + 1 }

/-- Length of the compute window in ns: the period that runs less the other phases (R17, R19). -/
def windowNs (s : State) (d : Nat) : Nat :=
  match (domAt s d).plan with
  | none => 0
  | some p => periodNs (domAt s d).rate - 1000 * (p.admitUs + p.drainUs + p.guardUs)

/-- The rethatch allowance that a sequence of a domain receives in a tick, in 1/256 ns (05 R87). -/
def allowance (s : State) (d : Nat) : Nat := windowNs s d * (domAt s d).plan.elim 0 (·.allow)

/-- Footprint of a sequence beside its ring (R246). -/
def saveBytes (n : Nat) : Nat := n * 4259840

/-- Bytes reserved by the slots that are not free. -/
def reservedAll (s : State) : Nat := ((s.seq.filter fun q => q.state != .free).map (·.reserved)).sum

/-- The slot of an ADMIT entry. -/
def newSlot (s : State) (d : Nat) (bs : List Byte) (ring : Nat) : SeqSlot :=
  { SeqSlot.reset with
    state := .active
    cls := fld bs 2 1
    domain := d
    primary := fld bs 3 1
    fallback := (wgtAt s (fld bs 3 1)).live.elim 255 (·.man.fallback)
    running := fld bs 3 1
    tag := BitVec.ofNat 64 (fld bs 8 8)
    kvDesc := BitVec.ofNat 64 (fld bs 0x10 8)
    resBase := BitVec.ofNat 64 (fld bs 0x18 8)
    resBytes := fld bs 0x20 8
    saveBase := BitVec.ofNat 64 (fld bs 0x28 8)
    saveN := fld bs 0x30 2
    reserved := ring + fld bs 0x20 8 + saveBytes (fld bs 0x30 2)
    ringBytes := ring
    allow256 := allowance s d
    admitTick := (domAt s d).tickNo }

/-- The fields of an ADMIT entry are valid: its three addresses are local virtual ones (R244, Table 13.3). -/
def admitWf (bs : List Byte) : Bool :=
  decide (fld bs 2 1 ≤ 2 ∧ fld bs 3 1 ≤ 15 ∧ fld bs 0x10 8 < 2 ^ 52 ∧ fld bs 0x18 8 < 2 ^ 52 ∧ fld bs 0x28 8 < 2 ^ 52
    ∧ fld bs 0x28 8 % 65536 = 0 ∧ 1 ≤ fld bs 0x30 2 ∧ fld bs 0x30 2 ≤ 144)

/-- ADMIT (R245, R246, 07 R126, R131). -/
def admitEntry (d : Nat) (bs : List Byte) (s : State) : Refuse × State :=
  let n := fld bs 1 1
  if !admitWf bs || (seqAt s n).state != .free then (some (bSEQ, 1), s)
  else if !modelLive s (fld bs 3 1) then (some (bSEQ, 3), s)
  else
    let r := devRead s (.lva (fld bs 0x10 8)) ringSize
    match (r.1.map ringDesc).filter fun k => ringOk k && fld bs 0x10 8 % 64 == 0 with
    | none => (some (bATT, 1), r.2)
    | some k =>
      let q := newSlot r.2 d bs (ringTotal k + statsTotal k)
      if param r.2 0x070 < reservedAll r.2 + q.reserved then (some (bSEQ, 2), r.2)
      else (none, ringClear (modSeq r.2 n fun _ => q) n)

/-- The descriptor that the run-time wrote again after an exit from keep-alive mode is checked before its first entry (07
R126, R131); a failed check makes the sequence departing. -/
def recheckRing (n : Nat) (s : State) : Bool × State :=
  if !(seqAt s n).recheck then (true, s)
  else
    let s1 := modSeq s n fun q => { q with recheck := false }
    let r := readRing s1 n
    match r.1.filter fun k => ringOk k && decide (ringTotal k + statsTotal k ≤ (seqAt s1 n).ringBytes) with
    | some _ => (true, ringClear r.2 n)
    | none => (false, departSlot n r.2)

/-- CHUNK_BEGIN (07 R129). -/
def chunkBeginEntry (n g : Nat) (s : State) : Refuse × State :=
  let r := readRing s n
  match r.1 with
  | none => (some (bATT, 1), modSeq r.2 n fun q => { q with departNext := true })
  | some k =>
    if beginOk k g then (none, modSeq (beginChunk r.2 n k g) n fun q => { q with beginRefused := false })
    else (some (bATT, 2), modSeq r.2 n fun q => { q with beginRefused := true })

/-- CHUNK_END (07 R129). -/
def chunkEndEntry (n g : Nat) (s : State) : Refuse × State :=
  let r := readRing s n
  match r.1 with
  | none => (some (bATT, 1), modSeq r.2 n fun q => { q with departNext := true })
  | some k => if k.lo = some g then (none, endChunk r.2 n k) else (some (bATT, 2), r.2)

/-- A work item record (Table 13.4). -/
def itemRec (q : SeqSlot) (num target va : Nat) (bs : List Byte) : Item where
  num := num
  order := num
  launch := fld bs 0 8
  costNs := fld bs 8 4
  clusters := fld bs 0xC 2
  nthr := fld bs 0xE 1
  acc := fld bs 0xF 1
  affinity := fld bs 0x10 4
  kind := fld bs 0x14 1
  doneVa := va + 0x18
  target := target
  phase := .waiting
  placed := []
  prev := []
  saves := []
  lastTick := 0
  deferred := false
  faultVa := 0
  payer := none
  spoiled := false
  terminated := false
  firstPass := !q.history
  placedTick := false
  short := false
  kept := []

/-- A valid record. -/
def itemWf (q : SeqSlot) (bs : List Byte) : Bool :=
  decide (1 ≤ fld bs 0xC 2 ∧ fld bs 0xC 2 ≤ min q.saveN 144 ∧ 1 ≤ fld bs 0xE 1 ∧ fld bs 0xE 1 ≤ 64 ∧ fld bs 0xF 1 ≤ 4
    ∧ fld bs 0x14 1 ≤ 1) && zeroIn bs 0x15 0x18 && zeroIn bs 0x20 0x40 && fld bs 0 8 % 64 == 0

/-- WORK (R249). -/
def workEntry (n : Nat) (bs : List Byte) (s : State) : Refuse × State :=
  let q := seqAt s n
  let va := fld bs 0x10 8
  let cnt := fld bs 0x18 8
  if q.beginRefused then (some (bATT, 2), s)
  else if va % 64 ≠ 0 ∨ 2 ^ 52 ≤ va ∨ cnt = 0 ∨ 64 < cnt then (some (bSEQ, 1), s)
  else if 8 ≤ q.batches.length ∨ 64 < q.items.length + (q.batches.map (·.items.length)).sum + cnt then (some (bSEQ, 11), s)
  else
    let r := devRead s (.lva va) (64 * cnt)
    match r.1 with
    | none => (some (bSEQ, 1), r.2)
    | some all =>
      let recs := (List.range cnt).map fun k => (all.drop (64 * k)).take 64
      if !recs.all (itemWf q) then (some (bSEQ, 1), r.2)
      else
        let items := ((List.range cnt).zip recs).map fun p =>
          itemRec q (r.2.nextNum + p.1) (fld bs 8 8) (va + 64 * p.1) p.2
        (none, modSeq { r.2 with nextNum := r.2.nextNum + cnt } n fun q =>
          { q with batches := q.batches ++ [⟨fld bs 8 8, items⟩] })

/-- Any entry but ADMIT: its slot must be active in the queue's domain, and a first frame must fit a TAG (07 Table 7.3). -/
def otherEntry (d : Nat) (bs : List Byte) (s : State) : Refuse × State :=
  let n := fld bs 1 1
  let q := seqAt s n
  let chunk := fld bs 0 1 == 3 || fld bs 0 1 == 4
  if q.state != .active || q.domain != d || (chunk && decide (2 ^ 48 ≤ fld bs 8 8)) then (some (bSEQ, 1), s)
  else
    let r := recheckRing n s
    if !r.1 then (some (bATT, 1), r.2)
    else
      match fld bs 0 1 with
      | 2 => (none, departSlot n r.2)
      | 3 => chunkBeginEntry n (fld bs 8 8) r.2
      | 4 => chunkEndEntry n (fld bs 8 8) r.2
      | _ => workEntry n bs r.2

/-- Process one valid entry. -/
def doEntry (d : Nat) (bs : List Byte) (s : State) : State :=
  entryEnd d (fld bs 1 1) (if fld bs 0 1 = 1 then admitEntry d bs s else otherEntry d bs s)

/-- The next entry of a queue as the device reads it: none where it cannot be read. -/
def peekEntry (s : State) (d : Nat) : Option (List Byte) × State :=
  match queueVa s d with
  | some q => devRead s (.lva (entryVa q (domAt s d).cons)) 64
  | none => (none, s)

/-- Refuse the entries at the front that are invalid or cannot be read. -/
def skipBad (d : Nat) : Nat → State → State
  | 0, s => s
  | n + 1, s =>
    if (domAt s d).qEnd ≤ (domAt s d).cons then s
    else
      let r := peekEntry s d
      match r.1 with
      | none => skipBad d n (entryEnd d 255 (some (bSEQ, 1), r.2))
      | some bs => if entryWf bs then r.2 else skipBad d n (entryEnd d (fld bs 1 1) (some (bSEQ, 1), r.2))

/-! ### Release, shedding, placement (R248, R250, R252, R260) -/

/-- A sequence has an accepted command or collective left (R248). -/
def slotBusy (s : State) (n : Nat) : Bool :=
  (liveCmds s).any (fun c => cmdSeq c == n) || s.col.units.any fun u => u.inProg.any (·.seq == n)

/-- Step 5: departing slots that have nothing left are freed. -/
def releaseSlots (d : Nat) (s : State) : State :=
  each (slotsOf s d .departing) (fun s n => if slotBusy s n then s else modSeq s n fun _ => SeqSlot.reset) s

/-- The KIND 1 trace record of an item (21 Table 21.3); its outcome code is not given (log entry 30). -/
def itemTrace (s : State) (slot : Nat) (i : Item) (case : Nat) : State :=
  trace s 1 slot (whereOf 5 (seqAt s slot).domain)
    (leBytes 6 (i.doneVa - 0x18) ++ leBytes 2 i.clusters ++ leBytes 1 (Config.traceCode 1 case).toNat)

/-- Age beyond which an item of a class is shed; none for L0. -/
def shedAge (s : State) (cls : Nat) : Option Nat :=
  if cls = 1 then some (param s 0x076) else if cls = 2 then some (param s 0x075) else none

/-- Step 6: carried and deferred items of L1 and L2 that are too old. -/
def shedItems (d n : Nat) (s : State) : State :=
  each (activeSlots s d) (fun s slot =>
    let q := seqAt s slot
    match shedAge s q.cls with
    | none => s
    | some age =>
      let gone := q.items.filter fun i => (i.phase == .carried || i.deferred) && decide (age < n - i.target)
      if gone.isEmpty then s
      else
        let s1 := each gone (fun s i => ctrAdd (itemTrace (itemEnd s slot i.num 1) slot i 3) (ctrSeq slot 4) 1) s
        raise s1 bSEQ 12 (locSlot slot) slot 0) s

/-- Clusters that run detection (01 R8: the first four of each quadrant). -/
def detectCluster (c : Nat) : Bool := decide (c % 36 < 4)

/-- Batches whose target tick has come join the list (R249). -/
def joinBatches (d n : Nat) (s : State) : State :=
  each (activeSlots s d) (fun s slot => modSeq s slot fun q => { q with
    items := q.items ++ (q.batches.filter fun b => decide (b.target ≤ n)).flatMap (·.items)
    batches := q.batches.filter fun b => decide (n < b.target) }) s

/-- What orders the work list: class, carried first, slot, order (R250). -/
def workKey (s : State) (slot : Nat) (i : Item) : Nat × Nat × Nat × Nat :=
  ((seqAt s slot).cls, if i.phase == .carried || !i.saves.isEmpty then 0 else 1, slot, i.order)

def keyLe (a b : Nat × Nat × Nat × Nat) : Bool :=
  a.1 < b.1 || (a.1 == b.1 && (a.2.1 < b.2.1 || (a.2.1 == b.2.1 && (a.2.2.1 < b.2.2.1 || (a.2.2.1 == b.2.2.1
    && a.2.2.2 ≤ b.2.2.2)))))

/-- The items of a domain that meet a test, in the order of the work list. -/
def workList (s : State) (d : Nat) (p : Item → Bool) : List (Nat × Nat) :=
  let l := (activeSlots s d).flatMap fun slot => ((seqAt s slot).items.filter p).map fun i => (workKey s slot i, (slot, i.num))
  (l.mergeSort fun a b => keyLe a.1 b.1).map (·.2)

/-- Free threads and slots of a cluster as placement counts them. -/
structure Room where
  c    : Nat
  thr  : Nat
  acc  : Nat
deriving DecidableEq, Repr

/-- Which of two clusters an item prefers (R250). -/
def roomLe (s : State) (i : Item) (a b : Room) : Bool :=
  let k (r : Room) : Nat × Nat × Nat × Nat :=
    (if i.prev.contains r.c then 0 else 1, if (clAt s r.c).tag = i.affinity then 0 else 1, 64 - r.thr, r.c)
  keyLe (k a) (k b)

/-- An item cannot be placed (R252). -/
def deferItem (slot : Nat) (i : Item) (s : State) : State :=
  let s1 := modSeq (modItem s slot i.num fun i => { i with deferred := true }) slot fun q => { q with deferred := true }
  let s2 := itemTrace (ctrAdd s1 (ctrSeq slot 3) 1) slot i 2
  if (seqAt s2 slot).cls = 0 then raise s2 bSEQ 10 (locSlot slot) slot 0 else s2

/-- Place one item, all or nothing. -/
def placeItem (n : Nat) (acc : List Room × State) (w : Nat × Nat) : List Room × State :=
  match itemOf acc.2 w.1 w.2 with
  | none => acc
  | some i =>
    let pool := (acc.1.filter fun r => i.kind == 0 || detectCluster r.c).mergeSort (roomLe acc.2 i)
    let got := ((pool.filter fun r => decide (i.nthr ≤ r.thr ∧ i.acc ≤ r.acc)).take i.clusters).map (·.c)
    if got.length < i.clusters then (acc.1, deferItem w.1 i acc.2)
    else
      let s1 := modItem acc.2 w.1 w.2 fun i => { i with
        phase := .placed, placed := got, prev := got, lastTick := n, deferred := false, placedTick := true }
      let s2 := modSeq s1 w.1 fun q => { q with
        totalCost := q.totalCost + i.costNs
        assigned := q.assigned ++ got.filter fun c => !q.assigned.contains c }
      (acc.1.map fun r => if got.contains r.c then { r with thr := r.thr - i.nthr, acc := r.acc - i.acc } else r,
        itemTrace s2 w.1 i 1)

/-- Step 7: the work list is built and placed. A slot whose ring has not been checked again places no work (R261). -/
def placeWork (d n : Nat) (s : State) : State :=
  let s1 := joinBatches d n s
  let s2 := each (activeSlots s1 d) (fun s slot => modSeq s slot fun q => { q with
    deferred := false, totalCost := 0, doneCost := 0, assigned := [],
    items := q.items.map fun i => { i with placedTick := false, short := false } }) s1
  let l := (workList s2 d fun _ => true).filter fun w => !(seqAt s2 w.1).recheck
  let rooms := ((List.range 144).filter fun c => (clAt s2 c).dom == some d).map fun c => (⟨c, 64, 4⟩ : Room)
  (l.foldl (placeItem n) (rooms, s2)).2

/-! ### The admit phase as a whole (R244) -/

/-- The queue's part of an admit phase is over: CONS is written where entries were processed, then steps 5 to 7 follow. -/
def finishAdmit (d : Nat) (s : State) : State :=
  let n := (domAt s d).tickNo
  let s1 := match queueVa s d with
    | some q =>
      if (domAt s d).cons = (domAt s d).qStart then s
      else
        let r := devWrite s (.lva (q + 8)) (leBytes 8 (domAt s d).cons)
        modDom r.2 d fun x => { x with consOwn := !r.1 }
    | none => s
  let s2 := modDom s1 d fun x => { x with admitting := false }
  placeWork d n (shedItems d n (releaseSlots d s2))

/-- After an entry: refuse bad ones that follow, and finish where none is left. -/
def afterEntry (d : Nat) (s : State) : State :=
  let s1 := skipBad d 64 s
  if (domAt s1 d).qEnd ≤ (domAt s1 d).cons then finishAdmit d s1 else s1

/-- Step 4 begins: PROD is read once (R243). -/
def openQueue (d : Nat) (s : State) : State :=
  match queueVa s d with
  | none => finishAdmit d s
  | some q =>
    let r := devRead s (.lva q) 16
    match r.1 with
    | none => finishAdmit d (modDom r.2 d fun x => { x with qStart := x.cons, qEnd := x.cons })
    | some bs =>
      let cons := if (domAt r.2 d).consOwn then (domAt r.2 d).cons else fld bs 8 8
      let n := (fld bs 0 8 + 2 ^ 64 - cons) % 2 ^ 64
      if 1024 < n then
        finishAdmit d (raise (modDom r.2 d fun x => { x with cons := cons, qStart := cons, qEnd := cons }) bSEQ 4 (locDomain d) noSeq 0)
      else
        afterEntry d (modDom r.2 d fun x => { x with cons := cons, qStart := cons, qEnd := cons + min 64 n, admitting := true })

/-- Process the entry that is next where its OP is one of those that a command names (log entry 62). -/
def entryStep (d op : Nat) (s : State) : State :=
  if !(domAt s d).admitting || s.pwr.keepalive || s.boot.inReset then s
  else
    let r := peekEntry s d
    match r.1 with
    | none => afterEntry d r.2
    | some bs => if fld bs 0 1 = op then afterEntry d (doEntry d bs r.2) else r.2

def execAdmitSlot (d : Dom) (s : State) : Host.Outcome State Fault Refusal := .next (entryStep d 1 s)
def execDepart (d : Dom) (s : State) : Host.Outcome State Fault Refusal := .next (entryStep d 2 s)
def execChunkBegin (d : Dom) (s : State) : Host.Outcome State Fault Refusal := .next (entryStep d 3 s)
def execChunkEnd (d : Dom) (s : State) : Host.Outcome State Fault Refusal := .next (entryStep d 4 s)
def execWork (d : Dom) (s : State) : Host.Outcome State Fault Refusal := .next (entryStep d 5 s)

/-- Process what is left of a queue's part before the compute window starts. -/
def drainQueue (d : Nat) : Nat → State → State
  | 0, s => s
  | n + 1, s =>
    if !(domAt s d).admitting then s
    else
      let r := peekEntry s d
      match r.1 with
      | none => drainQueue d n (afterEntry d (entryEnd d 255 (some (bSEQ, 1), r.2)))
      | some bs => drainQueue d n (afterEntry d (doEntry d bs r.2))

end Sys2Proof.Machine
end

