-- ==== Sys2Proof/Machine/Latch.lean ====
section
/-! DEFINITION. Committed records: the generation word and the tests that plan, slice and protection areas share (02 R24-
R26), and the latch of a slice record (14 R271, R272). -/

namespace Sys2Proof.Machine

/-! ### The generation word (02 R24-R26) -/

/-- What one look at a generation word calls for: nothing, a rejection, or a record whose generations agree. -/
inductive GenCall where
  | pass
  | reject (word : Nat)
  | record (word gen : Nat) (slot : Bool) (bs : List Byte)
deriving DecidableEq, Repr

/-- Read the generation word of an area once and the record that it names. `held` is the slot of the record in force, `gen`
its generation. A word with a reserved bit set is rejected as a record with one is (R25, Table 2.4; log entry 91). -/
def readGen (base : Nat) (held : Option Bool) (gen : Nat) (lastRej : Option Nat) (s : State) : GenCall × State :=
  let w := devRead s (.pa (base + 0x2000)) 8
  match w.1 with
  | none => (.pass, w.2)
  | some bs =>
    let word := ofLE bs
    let now := if held.isNone then 0 else gen
    let g := word / 65536
    let slot := bitOn word 0
    if g = 0 ∨ g = now ∨ lastRej = some word then (.pass, w.2)
    else if g < now || held == some slot || word / 2 % 2 ^ 15 != 0 then (.reject word, w.2)
    else
      let r := devRead w.2 (.pa (base + 0x1000 * slot.toNat)) 4096
      match r.1 with
      | none => (.reject word, r.2)
      | some rec => if fld rec 0 8 = g ∧ fld rec 0xFF8 8 = g then (.record word g slot rec, r.2) else (.reject word, r.2)

/-- DETAIL of a rejection: the rejected GEN (22 Table 22.4). -/
def rejDetail (word : Nat) : Word64 := BitVec.ofNat 64 (word / 65536 % 2 ^ 48)

/-! ### The slice record (14 R271, R272) -/

/-- The fields of Table 14.3. -/
def sliceRec (bs : List Byte) : SliceRec where
  gen := fld bs 0 8
  sliceId := BitVec.ofNat 16 (fld bs 8 2)
  origin := BitVec.ofNat 16 (fld bs 0xA 2)
  extent := BitVec.ofNat 16 (fld bs 0xC 2)
  domain := fld bs 0xE 1
  nsub := fld bs 0xF 1
  switchTick := fld bs 0x10 8
  dirBase := fld bs 0x18 8
  subs := (List.range (fld bs 0xF 1)).map fun k => (fld bs (0x20 + 4 * k) 2 % 4096, BitVec.ofNat 16 (fld bs (0x22 + 4 * k) 2))

/-- A record that obeys Table 14.3 and R272. -/
def sliceOk (dims : BitVec 16) (bs : List Byte) : Bool :=
  let r := sliceRec bs
  r.sliceId != 0 && decide (r.domain < 4 ∧ r.nsub ≤ 16 ∧ r.switchTick < 2 ^ 48 ∧ r.dirBase < 2 ^ 52) && r.dirBase % 64 == 0
    && zeroIn bs 0x60 0xFF8 && decide (blockSize r.extent ≤ 4096)
    && ((List.range 4).all fun j => decide (axisOf r.extent j ≤ axisOf dims j))
    && ((List.range 16).all fun k => decide (fld bs (0x20 + 4 * k) 2 < 4096))
    && r.subs.all fun x => decide (x.1 < blockSize r.extent)

/-- A slice record is rejected with LNK.030 and its GEN. -/
def sliceReject (word : Nat) (s : State) : State :=
  raise { s with self := { s.self with lastRej := some word } } bLNK 30 locDevice noSeq (rejDetail word)

/-- A record takes effect: the slice, the own index and the direction table. -/
def sliceTake (slot : Bool) (r : SliceRec) (dirs : List Byte) (s : State) : State :=
  let i := if s.self.coordValid then indexOf s.self.dims r s.self.coord else none
  raise { s with self := { s.self with
      slice := some r
      latchedGen := r.gen
      latchedSlot := slot
      member := i.isSome
      index := i.getD 0
      sliceId := if i.isSome then r.sliceId else 0
      dirs := dirs } } bLNK 31 locDevice noSeq 0

/-- The slice area at an admit phase of a domain (R271). A record that names another domain is left to that one (log entry
63). -/
def sliceLatch (d : Nat) (s : State) : State :=
  let g := readGen (param s 0x024) (s.self.slice.map fun _ => s.self.latchedSlot) s.self.latchedGen s.self.lastRej s
  match g.1 with
  | .pass => g.2
  | .reject word => sliceReject word g.2
  | .record word _ slot bs =>
    let r := sliceRec bs
    let now := (domAt s d).tickNo % 2 ^ 48
    if r.domain < 4 ∧ r.domain ≠ d then g.2
    else if !sliceOk s.self.dims bs || decide (r.switchTick < now) then sliceReject word g.2
    else if now < r.switchTick then g.2
    else if r.dirBase = 0 then sliceTake slot r [] g.2
    else
      let t := devRead g.2 (.lva r.dirBase) 4096
      match t.1 with
      | none => sliceReject word t.2
      | some dirs => sliceTake slot r dirs t.2

end Sys2Proof.Machine
end

