-- ==== Sys2Proof/Machine/Snap.lean ====
section
/-! DEFINITION. Snapshots, mirrors and restores (16): the protection record (R299, R300), captures (R301-R303), the sarking
store and its drains (R304, R305), the interval (R306, R307), restores (R308). A member plays two parts: it protects its own
tensors, and it is the buddy of its ward. Log entries 64 to 69. -/

namespace Sys2Proof.Machine

/-! ### The protection record (R299) -/

/-- The fields of Table 16.1. -/
def protRec (bs : List Byte) : ProtRec where
  gen := fld bs 0 8
  seq := fld bs 8 1
  buddy := fld bs 0xA 2
  ward := fld bs 0xC 2
  restore := bitOn (fld bs 0xE 2) 0
  force := bitOn (fld bs 0xE 2) 1
  stepVa := fld bs 0x10 8
  stageVa := fld bs 0x18 8
  stageBytes := fld bs 0x20 8
  mirrorVa := fld bs 0x28 8
  mirrorBytes := fld bs 0x30 8
  restoreStep := fld bs 0x38 8
  tensors := (List.range (fld bs 9 1)).map fun j =>
    ⟨fld bs (0x80 + 32 * j) 8, fld bs (0x88 + 32 * j) 8, fld bs (0x90 + 32 * j) 4⟩

/-- Tensor numbers that may be mirrored, in ascending BYTES and then ascending j (R300). -/
def mirrorOrder (s : State) (l : List Tensor) : List (Nat × Nat) :=
  let c := ((List.range l.length).zip l).filterMap fun p =>
    if p.2.bytes ≤ param s 0x080 ∧ p.2.period ≤ param s 0x081 then some (p.2.bytes, p.1) else none
  c.mergeSort fun a b => a.1 < b.1 || (a.1 == b.1 && a.2 ≤ b.2)

/-- METHOD: the tensors that are mirrored (R300). -/
def methodOf (s : State) (l : List Tensor) : BitVec 128 :=
  ((mirrorOrder s l).foldl (fun (acc : Nat × BitVec 128) p =>
    if acc.1 + p.1 ≤ param s 0x082 then (acc.1 + p.1, acc.2 ||| BitVec.ofNat 128 (2 ^ p.2)) else acc) (0, 0)).2

/-- The tensors of a record that are mirrored, or those that are snapshotted, in entry order. -/
def tensorsOf (method : BitVec 128) (mirrored : Bool) (l : List Tensor) : List Tensor :=
  (((List.range l.length).zip l).filter fun p => method.getLsbD p.1 == mirrored).map (·.2)

/-- Bytes of tensors laid out one after another, each on a 4 KiB boundary. -/
def pagedBytes (l : List Tensor) : Nat := (l.map fun t => roundUp t.bytes 4096).sum

/-- Blocks of one slot of a store (R304). -/
def storeSlot (nsze : Nat) : Nat := (nsze - 16) / 2

/-- A record that obeys Table 16.1 and R299. -/
def protOk (s : State) (bs : List Byte) : Bool :=
  let p := protRec bs
  let n := fld bs 9 1
  let m := methodOf s p.tensors
  s.snp.storeOk && decide (p.seq < 32 ∧ 1 ≤ n ∧ n ≤ 120 ∧ fld bs 0xE 2 < 4)
    && decide (p.buddy < sliceSize s ∧ p.ward < sliceSize s) && p.buddy != ownIndex s && p.ward != ownIndex s
    && s.self.member && zeroIn bs 0x40 0x80
    && p.stepVa % 64 == 0 && p.stageVa % 4096 == 0 && p.mirrorVa % 65536 == 0
    && decide (p.stepVa < 2 ^ 52 ∧ p.stageVa < 2 ^ 52 ∧ p.mirrorVa < 2 ^ 52)
    && (p.tensors.all fun t => t.va % 32 == 0 && t.bytes % 32 == 0
      && decide (t.va < 2 ^ 52 ∧ t.bytes ≤ 2 ^ 36 ∧ 1 ≤ t.period ∧ t.period ≤ 2 ^ 20))
    && ((List.range n).all fun j => zeroIn bs (0x94 + 32 * j) (0xA0 + 32 * j))
    && decide (pagedBytes (tensorsOf m false p.tensors) ≤ p.stageBytes)
    && decide (pagedBytes p.tensors ≤ 4096 * (storeSlot (Config.buddyNsze p.buddy) - 1))

/-! ### The status (Table 16.2) -/

/-- A step, with all ones for none. -/
def stepField (o : Option Nat) : Nat := o.getD (2 ^ 64 - 1)

/-- An average of R306 in µs, 0 before the first measurement. -/
def inUs (o : Option Nat) : Nat := o.elim 0 (· / 1000)

def snpBytes (n : SnpSt) : List Byte :=
  record 128 [(0, 8, stepField n.capt), (8, 8, stepField n.lastSnap), (0x10, 8, n.nextSnap), (0x18, 8, n.wardSnap),
    (0x20, 8, n.wardM0.toNat), (0x28, 8, n.wardM1.toNat), (0x30, 8, n.restored), (0x38, 4, inUs n.cNs), (0x3C, 4, inUs n.stepNs),
    (0x40, 8, n.mtbfS), (0x48, 4, n.f), (0x4C, 4, n.n), (0x50, 8, n.tObs), (0x58, 16, n.method.toNat),
    (0x68, 16, n.written.toNat)]

def modSnp (s : State) (f : SnpSt → SnpSt) : State := { s with snp := f s.snp }

/-- Write the status. -/
def snpSync (s : State) : State := devPut s (.pa (param s 0x025 + 0x2040)) (snpBytes s.snp)

/-! ### The own store's header and footers (Table 16.4; log entry 67 for the layout inside a block) -/

def sarkAt (s : State) (block offs n : Nat) : List Byte := memRdN zeroByte s.snp.store (4096 * block + offs) n

def sarkPut (block : Nat) (bs : List Byte) (s : State) : State :=
  modSnp s fun n => { n with store := memWrs zeroByte n.store (4096 * block) bs }

/-- Header: magic, SLICE_ID, the ward's coordinate, and the history. -/
def headerBytes (s : State) (ward : BitVec 16) : List Byte :=
  record 32 [(0, 4, 0x534B5254), (4, 2, s.self.sliceId.toNat), (6, 2, ward.toNat), (8, 4, s.snp.f),
    (0xC, 4, inUs s.snp.cNs), (0x10, 8, s.snp.tObs), (0x18, 4, inUs s.snp.stepNs)]

/-- The coordinate of a member of the latched slice. -/
def memberCoord (s : State) (i : Nat) : BitVec 16 := s.self.slice.elim 0 fun r => coordOf s.self.dims r i

def footerBlock (s : State) (k : Bool) : Nat := 16 + k.toNat * storeSlot s.snp.nsze

/-- Footer: step, SLICE_ID, bytes of the payload, their CRC. -/
def footerBytes (s : State) (step : Nat) (payload : List Byte) : List Byte :=
  record 32 [(0, 8, step), (8, 2, s.self.sliceId.toNat), (0x10, 8, payload.length), (0x18, 4, (crc32c payload).toNat)]

/-- The store slot that holds a step: its footer names it. -/
def slotWith (s : State) (step : Nat) : Option Bool :=
  [false, true].find? fun k =>
    let f := sarkAt s (footerBlock s k) 0 32
    fld f 8 2 != 0 && fld f 0 8 == step

/-- The greatest step of the store's complete snapshots; 0 where it holds none. -/
def storeStep (s : State) : Nat :=
  [false, true].foldl (fun m k =>
    let f := sarkAt s (footerBlock s k) 0 32
    if fld f 8 2 = 0 then m else max m (fld f 0 8)) 0

/-- The index of a coordinate in the slice's block, before substitutes. -/
def blockIndex (s : State) (r : SliceRec) (c : BitVec 16) : Option Nat := indexOf s.self.dims { r with subs := [] } c

/-- The store's header names the ward: its SLICE_ID is the latched one, and its coordinate is the ward's place in the block,
the ward's substitute, or that of an earlier substitute, which no member has now (R304, R308, R309; log entry 109). -/
def namesWard (s : State) (ward : Nat) : Bool :=
  let h := sarkAt s 0 0 32
  let c := BitVec.ofNat 16 (fld h 6 2)
  s.snp.storeOk && fld h 0 4 == 0x534B5254 && fld h 4 2 == s.self.sliceId.toNat && s.self.slice.any fun r =>
    match blockIndex s r c with
    | some i => i == ward
    | none => (indexOf s.self.dims r c).elim true (· == ward)

/-- The store has been identified: WARD_SNAP is the step of the snapshot that it holds (Table 16.2, R305). -/
def storeSeen (s : State) : State :=
  let own := fld (sarkAt s 0 0 32) 0 4 == 0x534B5254
  snpSync (modSnp s fun n => { n with wardSnap := if own then storeStep s else 0 })

/-- Within 1 s of the power-up of the storage root port the store is identified; else it counts as absent, with SNP.003 (R304,
19 R355). -/
def storeDue (s : State) : State :=
  if s.hif.stPowered && !s.hif.stKnown && decide (s.hif.stAt + second ≤ s.time) then
    raise { s with hif := { s.hif with stKnown := true }, snp := { s.snp with storeOk := false } } bSNP 3 locDevice noSeq 0
  else s

/-- The payload of a store slot, where it matches its CRC. -/
def payloadOf (s : State) (k : Bool) : Option (List Byte) :=
  let f := sarkAt s (footerBlock s k) 0 32
  let p := sarkAt s (footerBlock s k + 1) 0 (fld f 0x10 8)
  if crc32c p == BitVec.ofNat 32 (fld f 0x18 4) then some p else none

/-! ### The latch (R299, R300, R307) -/

/-- The leader is the member of device index 0. -/
def isLeader (s : State) : Bool := s.self.member && s.self.index == 0

/-- The leader's first latch since boot takes the history from its store header (R307). -/
def loadHistory (s : State) : State :=
  if !isLeader s || s.snp.histTaken then s
  else
    let h := sarkAt s 0 0 32
    let own := fld h 0 4 == 0x534B5254 && fld h 4 2 == s.self.sliceId.toNat
    modSnp s fun n => { n with
      histTaken := true
      f := if own then fld h 8 4 else 0
      tObs := if own then fld h 0x10 8 else 0
      cNs := if own && fld h 0xC 4 != 0 then some (1000 * fld h 0xC 4) else n.cNs
      stepNs := if own && fld h 0x18 4 != 0 then some (1000 * fld h 0x18 4) else n.stepNs }

/-- A protection record is latched with SNP.002; RESTORE starts a restore from the buddy (R308). -/
def protTake (slot : Bool) (p : ProtRec) (s : State) : State :=
  let s1 := loadHistory s
  let s2 := modSnp s1 fun n => { n with
    prot := some p
    latchedGen := p.gen
    latchedSlot := slot
    method := methodOf s1 p.tensors
    forceNext := n.forceNext || p.force
    f := if p.restore then n.f + 1 else n.f
    wardSnap := if namesWard s1 p.ward then storeStep s1 else 0
    restoring := if p.restore then some p.restoreStep else none }
  let s3 := raise (snpSync s2) bSNP 2 (locSlot p.seq) p.seq 0
  if p.restore then inject s3 p.buddy 5 (.restoreRequest p.restoreStep) else s3

/-- A protection record is rejected with SNP.001 and its GEN. -/
def protReject (word : Nat) (s : State) : State :=
  raise (modSnp s fun n => { n with lastRej := some word }) bSNP 1 locDevice noSeq (rejDetail word)

/-- A capture or a drain is in progress; staging that waits for its drain is part of one (R299). -/
def protWaits (s : State) : Bool := s.snp.capture.isSome || s.snp.staged.isSome || s.snp.wardDrain.isSome

/-- The protection area at an admit phase of a domain (R299). A record whose sequence belongs to another domain, or to none,
is left (log entry 64); one that comes before the store has been identified waits (19 R355). -/
def protLatch (d : Nat) (s0 : State) : State :=
  let s := storeDue s0
  let g := readGen (param s 0x025) (s.snp.prot.map fun _ => s.snp.latchedSlot) s.snp.latchedGen s.snp.lastRej s
  match g.1 with
  | .pass => g.2
  | .reject word => protReject word g.2
  | .record word _ slot bs =>
    let p := protRec bs
    let q := seqAt s p.seq
    if p.seq < 32 ∧ (q.state = .free ∨ q.domain ≠ d) then g.2
    else if !s.hif.stKnown then g.2
    else if !protOk g.2 bs then protReject word g.2
    else if protWaits g.2 then g.2
    else protTake slot p g.2

/-! ### The interval (R306) -/

/-- The MTBF estimate per device, as a fraction of seconds. -/
def mHat (s : State) : Nat × Nat :=
  if s.snp.f < param s 0x085 ∨ s.snp.f = 0 then (param s 0x084, 1) else (s.snp.tObs, s.snp.f)

/-- c in ns as a fraction: the average, or the snapshot bytes at 1.024 TB/s before the first measurement. -/
def costNs (s : State) (p : ProtRec) : Nat × Nat :=
  match s.snp.cNs with
  | some c => (c, 1)
  | none => (((tensorsOf s.snp.method false p.tensors).map (·.bytes)).sum, 1024)

/-- n_int = clamp(round(sqrt(2 c m / n) / t_step)). Until two steps have been captured it is INT_MIN. -/
def intervalOf (s : State) (p : ProtRec) : Nat :=
  let m := mHat s
  let c := costNs s p
  match s.snp.stepNs with
  | none => param s 0x086
  | some t =>
    if s.snp.captures < 2 then param s 0x086
    else if t = 0 then param s 0x087
    else
      let y := isqrt (8 * c.1 * m.1 * second / (c.2 * sliceSize s * t * t * m.2))
      max (param s 0x086) (min (param s 0x087) ((y + 1) / 2))

/-- At a snapshot capture the leader computes the interval and tells every member. -/
def intervalCompute (p : ProtRec) (step : Nat) (s : State) : State :=
  if !isLeader s then s
  else
    let n := intervalOf s p
    let s1 := modSnp s fun k => { k with n := n, nextSnap := step + n, mtbfS := (mHat s).1 / (mHat s).2 }
    let c := costNs s p
    each (peers s1) (fun s i =>
      inject s i 6 (.intervalNotice (step + n) s1.snp.f s1.snp.tObs (c.1 / c.2 / 1000) (inUs s1.snp.stepNs))) s1

/-! ### Capture (R301-R303) -/

/-- Bytes that an engine read, sector by sector: a poisoned sector's are 0, and its number is listed. -/
structure Sectors where
  bytes : List Byte
  bad   : List Nat
deriving DecidableEq, Repr

/-- Read bytes of T2 as a snapshot-class engine does; none where they have no place. -/
def snapRead (va n : Nat) (s : State) : Option Sectors × State :=
  let r := (chunks va n).foldl (fun (acc : Option Sectors × Nat × State) c =>
    match acc.1 with
    | none => acc
    | some x =>
      let p := engPiece acc.2.2 c.1 c.2 false false
      (match p.1 with
       | .data bs bad _ => some ⟨x.bytes ++ (if bad then List.replicate c.2 0 else bs), if bad then x.bad ++ [acc.2.1] else x.bad⟩
       | _ => none, acc.2.1 + 1, p.2)) (some ⟨[], []⟩, 0, s)
  (r.1, r.2.2)

/-- Read tensors one after another. -/
def readTensors : List Tensor → State → Option (List Sectors) × State
  | [], s => (some [], s)
  | t :: ts, s =>
    let r := snapRead t.va t.bytes s
    match r.1 with
    | none => (none, r.2)
    | some x => let q := readTensors ts r.2; (q.1.map (x :: ·), q.2)

/-- Write sectors to T2, the poisoned ones as poison; false where one has no place. -/
def putSectors (va : Nat) (x : Sectors) (s : State) : Bool × State :=
  let w := putVa s va x.bytes
  (w.1, each x.bad (fun s i =>
    let t := translate s ((va + 32 * i) % 2 ^ 52) .w false
    match t.1 with
    | .stack pa => writePoison t.2 (pa / 32)
    | _ => t.2) w.2)

/-- The trailer of a mirror slot (R303). -/
def trailerBytes (step base mask slice crc : Nat) : List Byte :=
  record 64 [(0, 8, step), (8, 8, base), (0x10, 16, mask), (0x20, 2, slice), (0x22, 4, crc)]

/-- Bytes of a mirror or snapshot packet. -/
def mirrorPiece : Nat := 2048

/-- The pieces of the tensors of a mirror slot, with their offsets in the slot: a piece lies in one tensor. -/
def mirrorPieces : List Sectors → Nat → List (Nat × Piece)
  | [], _ => []
  | t :: ts, base =>
    ((List.range (cdiv t.bytes.length mirrorPiece)).map fun i =>
      (base + mirrorPiece * i, ⟨(t.bytes.drop (mirrorPiece * i)).take mirrorPiece,
        (t.bad.filter fun k => k / 64 == i).map (· % 64), i == 0⟩))
      ++ mirrorPieces ts (base + t.bytes.length)

/-- Send a mirror slot to the buddy: its tensors in pieces, then its trailer. -/
def sendMirror (buddy : Nat) (slot : Bool) (step : Nat) (ts : List Sectors) (s : State) : State :=
  let s1 := each (mirrorPieces ts 0) (fun s p => inject s buddy 5 (.mirrorData slot p.1 p.2)) s
  inject s1 buddy 5 (.mirrorTrailer slot step (stepField s.snp.lastSnap) s.snp.written s.self.sliceId
    (crc32c (ts.flatMap (·.bytes))))

/-- The mirror slot of a step: s mod 2, or the other while a drain holds it (R302). -/
def mirrorSlot (s : State) (step : Nat) : Bool :=
  let k := step % 2 == 1
  if s.snp.staged.any fun x => x.2.1 == k then !k else k

/-- Copy tensors to staging, each on a 4 KiB boundary; false where one has no place. -/
def stageAll (va : Nat) : List Sectors → State → Bool × State
  | [], s => (true, s)
  | t :: ts, s =>
    let r := putSectors va t s
    if r.1 then stageAll (va + roundUp t.bytes.length 4096) ts r.2 else r

/-- Step 1: WRITTEN takes the dirty snapshot tensors, and every DIRTY byte is cleared. -/
def takeDirty (p : ProtRec) (dirty : List Byte) (s : State) : State :=
  let bitsOf := ((List.range dirty.length).zip dirty).foldl (fun (acc : BitVec 128) x =>
    if x.2 == 1 && !s.snp.method.getLsbD x.1 then acc ||| BitVec.ofNat 128 (2 ^ x.1) else acc) 0
  devPut (modSnp s fun n => { n with written := n.written ||| bitsOf, dirtiedSince := n.dirtiedSince ||| bitsOf })
    (.lva (p.stepVa + 0x10)) (List.replicate dirty.length 0)

/-- Start the capture of a step: mirrors are sent, and a snapshot that is due is copied to staging or deferred behind a
drain with SNP.010. A tensor that has no place ends the capture (log entry 66). -/
def captureStart (p : ProtRec) (step : Nat) (dirty : List Byte) (s : State) : State :=
  let due := decide (s.snp.nextSnap ≤ step) || s.snp.forceNext || s.snp.lastSnap.isNone
  let s1 := takeDirty p dirty s
  let slot := mirrorSlot s1 step
  let m := readTensors (tensorsOf s1.snp.method true p.tensors) s1
  match m.1 with
  | none => m.2
  | some ms =>
    let s2 := if ms.isEmpty then m.2 else sendMirror p.buddy slot step ms m.2
    let begun (snapshot : Bool) (s : State) : State :=
      modSnp s fun n => { n with capture := some ⟨step, slot, snapshot, s.time⟩ }
    if !due then snpSync (begun false s2)
    else if s2.snp.staged.isSome then
      snpSync (begun false (raise (modSnp s2 fun n => { n with forceNext := true }) bSNP 10 (locSlot p.seq) p.seq 0))
    else
      let t := readTensors (tensorsOf s2.snp.method false p.tensors) s2
      match t.1 with
      | none => t.2
      | some ts =>
        let w := stageAll p.stageVa ts t.2
        if w.1 then
          snpSync (begun true (intervalCompute p step (modSnp w.2 fun n => { n with forceNext := false, dirtiedSince := 0 })))
        else w.2

/-- At an admit phase of the protected sequence's domain the device reads STEP once (R302). -/
def captureCheck (d : Nat) (s : State) : State :=
  match s.snp.prot with
  | none => s
  | some p =>
    if (seqAt s p.seq).domain ≠ d || s.snp.capture.isSome then s
    else
      let r := devRead s (.lva p.stepVa) (16 + p.tensors.length)
      match r.1 with
      | none => r.2
      | some bs =>
        if s.snp.capt.elim true fun c => decide (c < fld bs 0 8) then captureStart p (fld bs 0 8) (bs.drop 16) r.2 else r.2

/-- An average as R30 updates a ratio; the first measurement stands by itself. -/
def average (old : Option Nat) (x : Nat) : Option Nat := some (old.elim x fun o => (7 * o + x) / 8)

/-- CAPT is written: the averages of R306 follow, and a staged snapshot waits for its drain. -/
def captWrite (c : Capture) (s : State) : State :=
  let took := s.time - c.startedAt
  snpSync (modSnp s fun n => { n with
    capt := some c.step
    capture := none
    cNs := if c.snapshot then average n.cNs took else n.cNs
    stepNs := match n.lastCapture with
      | some l => average n.stepNs (s.time - l.2)
      | none => n.stepNs
    lastCapture := some (c.step, s.time)
    captures := min 2 (n.captures + 1)
    staged := if c.snapshot then some (c.step, c.slot, false) else n.staged })

/-- CAPTURE_DONE: every mirror sector is acknowledged and the staging copy is done. -/
def captureDone (s : State) : State :=
  match s.snp.capture with
  | some c => captWrite c s
  | none => s

def execCaptureDone (s : State) : Host.Outcome State Fault Refusal := .next (captureDone s)

/-- MIRROR_TIMEOUT: a mirror unacknowledged after MIRROR_TIMEOUT. -/
def mirrorTimeout (s : State) : State :=
  match s.snp.capture, s.snp.prot with
  | some c, some p =>
    if (tensorsOf s.snp.method true p.tensors).isEmpty || decide (s.time < c.startedAt + 1000000 * param s 0x083) then s
    else captWrite c (raise s bSNP 11 (locSlot p.seq) p.seq 0)
  | _, _ => s

def execMirrorTimeout (s : State) : Host.Outcome State Fault Refusal := .next (mirrorTimeout s)

/-! ### The ward's mirror (R303) -/

def wardWord (s : State) (slot : Bool) : Word64 := if slot then s.snp.wardM1 else s.snp.wardM0

def setWard (slot : Bool) (w : Word64) (s : State) : State :=
  modSnp s fun n => if slot then { n with wardM1 := w } else { n with wardM0 := w }

/-- Where the tensors of a mirror slot begin, after a piece of it. -/
def noteStart (offs : Nat) (p : Piece) (l : List Nat) : List Nat :=
  if offs = 0 then [0] else if p.first && !l.contains offs then l ++ [offs] else l

/-- MIRROR_RECEIVE: sectors of a ward's mirror slot, or its trailer. VALID is clear while sectors are written. A slot that a
drain holds takes nothing. -/
def mirrorReceive (slot : Bool) (offs : Nat) (data : Piece) (trailer : Bool) (s : State) : State :=
  match s.snp.prot with
  | none => s
  | some p =>
    let bs := data.bytes
    if s.snp.wardHold == some slot || decide (p.mirrorBytes < offs + bs.length) then s
    else
      let s0 := setWard slot (wardWord s slot &&& 0x7FFFFFFFFFFFFFFF) s
      let w := putSectors (p.mirrorVa + slot.toNat * p.mirrorBytes + offs) ⟨bs, data.bad⟩ s0
      if !w.1 then snpSync w.2
      else
        let clean := zeroIn bs 0x10 0x20 && fld bs 8 8 == s.snp.wardSnap
        let s1 := if trailer then
            modSnp (setWard slot (BitVec.ofNat 64 (fld bs 0 8 % 2 ^ 48 + clean.toNat * 2 ^ 62 + 2 ^ 63)) w.2) fun n =>
              { n with wardLen := n.wardLen.set slot.toNat offs }
          else modSnp w.2 fun n => { n with wardStarts := n.wardStarts.modify slot.toNat (noteStart offs data) }
        inject (snpSync s1) p.ward 5 (.mirrorAck slot offs)

def execMirrorReceive (slot : Bool) (offs : Nat) (data : Piece) (trailer : Bool) (s : State) :
    Host.Outcome State Fault Refusal :=
  .next (mirrorReceive slot offs data trailer s)

/-! ### Drains (R305) -/

/-- The staging contents leave for the buddy. -/
def drainOwn (s : State) : State :=
  match s.snp.staged, s.snp.prot with
  | some (step, slot, false), some p =>
    let r := snapRead p.stageVa (pagedBytes (tensorsOf s.snp.method false p.tensors)) s
    match r.1 with
    | none => raise (modSnp r.2 fun n => { n with staged := none }) bSNP 12 (locSlot p.seq) p.seq 0
    | some x =>
      each (List.range (cdiv x.bytes.length mirrorPiece)) (fun s i =>
        inject s p.buddy 5 (.snapshotData step (mirrorPiece * i) ((x.bytes.drop (mirrorPiece * i)).take mirrorPiece)))
        (modSnp r.2 fun n => { n with staged := some (step, slot, true) })
  | _, _ => s

/-- The ward's snapshot starts to arrive: the footer of the slot that does not hold WARD_SNAP becomes zero, the header takes
the history, and the mirror slot of the step is held. -/
def drainWard (step : Nat) (s : State) : State :=
  match s.snp.prot with
  | none => s
  | some p =>
    if !(s.hif.stUp && s.snp.storeOk) || s.snp.wardDrain.isSome then s
    else
      let k := !((slotWith s s.snp.wardSnap).getD true)
      let s1 := sarkPut (footerBlock s k) (List.replicate 32 0) s
      let s2 := sarkPut 0 (headerBytes s1 (memberCoord s1 p.ward)) s1
      let hold := [false, true].find? fun j => (wardWord s j).getLsbD 63 && (wardWord s j).toNat % 2 ^ 48 == step % 2 ^ 48
      modSnp s2 fun n => { n with wardDrain := some (step, k), wardHold := hold }

/-- DRAIN_START: the own staging starts to drain, or the ward's snapshot of a step starts to arrive. -/
def drainStart (ward : Option Nat) (s : State) : State :=
  match ward with
  | none => drainOwn s
  | some step => drainWard step s

def execDrainStart (ward : Option Nat) (s : State) : Host.Outcome State Fault Refusal := .next (drainStart ward s)

/-- A drain ends without success. -/
def drainFail (s : State) : State :=
  raise (modSnp s fun n => { n with wardDrain := none, wardHold := none }) bSNP 12 locDevice noSeq 0

/-- The next boundary of 4 KiB. -/
def paged (bs : List Byte) : List Byte := bs ++ List.replicate (roundUp bs.length 4096 - bs.length) 0

/-- The tensors of a mirror slot as the store takes them, each on a boundary of 4 KiB (Table 16.4). -/
def pagedTensors (bs : List Byte) (starts : List Nat) : List Byte :=
  ((List.range starts.length).zip starts).flatMap fun p =>
    paged ((bs.take (starts.getD (p.1 + 1) bs.length)).drop p.2)

/-- The ward's drain completes: payload, the held mirror slot, then the footer (R305). -/
def drainWardEnd (payload : List Byte) (ok : Bool) (s : State) : State :=
  match s.snp.wardDrain, s.snp.prot with
  | some (step, k), some p =>
    if !ok then drainFail s
    else
      let m := match s.snp.wardHold with
        | some j => snapRead (p.mirrorVa + j.toNat * p.mirrorBytes) (s.snp.wardLen.getD j.toNat 0) s
        | none => (some ⟨[], []⟩, s)
      match m.1 with
      | none => drainFail m.2
      | some mir =>
        let starts := s.snp.wardHold.elim [] fun j => s.snp.wardStarts.getD j.toNat []
        let all := paged payload ++ pagedTensors mir.bytes starts
        let s1 := sarkPut (footerBlock s k) (footerBytes s step all) (sarkPut (footerBlock s k + 1) all m.2)
        let s2 := snpSync (modSnp s1 fun n => { n with wardSnap := step, wardDrain := none, wardHold := none })
        inject (raise s2 bSNP 13 locDevice noSeq 0) p.ward 6 (.snapshotNotice step)
  | _, _ => s

/-- The own drain ends; its success is told by the buddy's notice. -/
def drainOwnEnd (ok : Bool) (s : State) : State :=
  match s.snp.staged, s.snp.prot with
  | some (_, _, true), some p =>
    if ok then s else raise (modSnp s fun n => { n with staged := none }) bSNP 12 (locSlot p.seq) p.seq 0
  | _, _ => s

/-- DRAIN_COMPLETE: of the own snapshot, or of the ward's with its payload. -/
def drainComplete (ward : Option (List Byte)) (ok : Bool) (s : State) : State :=
  match ward with
  | some payload => drainWardEnd payload ok s
  | none => drainOwnEnd ok s

def execDrainComplete (ward : Option (List Byte)) (ok : Bool) (s : State) : Host.Outcome State Fault Refusal :=
  .next (drainComplete ward ok s)

/-- SNAPSHOT_NOTICE: the buddy holds the snapshot of a step (R305). -/
def snapshotNotice (step : Nat) (s : State) : State :=
  match s.snp.staged with
  | some (t, _, true) =>
    if t ≠ step then s
    else snpSync (modSnp s fun n => { n with lastSnap := some step, written := n.dirtiedSince, staged := none })
  | _ => s

def execSnapshotNotice (step : Nat) (s : State) : Host.Outcome State Fault Refusal := .next (snapshotNotice step s)

/-- INTERVAL_NOTICE: the leader's NEXT_SNAP and history (R306). -/
def intervalNotice (next f tObs cUs stepUs : Nat) (s : State) : State :=
  let ns (us : Nat) : Option Nat := if us = 0 then none else some (1000 * us)
  if isLeader s then s
  else snpSync (modSnp s fun n => { n with nextSnap := next, f := f, tObs := tObs, cNs := ns cUs, stepNs := ns stepUs })

def execIntervalNotice (next f tObs cUs stepUs : Nat) (s : State) : Host.Outcome State Fault Refusal :=
  .next (intervalNotice next f tObs cUs stepUs s)

/-- OBSERVATION_SECOND: T_OBS grows by n while a record is latched on the leader (R306). -/
def observationSecond (s : State) : State :=
  if s.snp.prot.isSome && isLeader s then snpSync (modSnp s fun n => { n with tObs := n.tObs + sliceSize s }) else s

def execObservationSecond (s : State) : Host.Outcome State Fault Refusal := .next (observationSecond s)

/-! ### Restore (R308) -/

/-- Write restored tensors; false where one has no place. -/
def restoreTensors : List (Tensor × List Byte) → State → Bool × State
  | [], s => (true, s)
  | t :: ts, s => let r := putVa s t.1.va t.2; if r.1 then restoreTensors ts r.2 else r

/-- RESTORE_COMPLETE: the buddy's answer. A refused restore writes no byte. -/
def restoreComplete (data : List (List Byte)) (crcOk buddyHolds : Bool) (s : State) : State :=
  match s.snp.restoring, s.snp.prot with
  | some step, some p =>
    let s1 := modSnp s fun n => { n with restoring := none }
    if !buddyHolds then raise s1 bSNP 31 (locSlot p.seq) p.seq 0
    else if !crcOk || data.map (·.length) != p.tensors.map (·.bytes) then raise s1 bSNP 30 (locSlot p.seq) p.seq 0
    else
      let w := restoreTensors (p.tensors.zip data) s1
      if !w.1 then w.2
      else
        raise (snpSync (modSnp w.2 fun n => { n with
          restored := step, capt := some step, lastSnap := some step, forceNext := true })) bSNP 20 (locSlot p.seq) p.seq 0
  | _, _ => s

def execRestoreComplete (data : List (List Byte)) (crcOk buddyHolds : Bool) (s : State) :
    Host.Outcome State Fault Refusal :=
  .next (restoreComplete data crcOk buddyHolds s)

/-- The mirror slot of a step that is valid and clean and matches its trailer's CRC. -/
def cleanMirror (p : ProtRec) (step : Nat) (s : State) : Option (List Byte) × State :=
  match [false, true].find? fun j => (wardWord s j).getLsbD 63 && (wardWord s j).getLsbD 62
      && (wardWord s j).toNat % 2 ^ 48 == step % 2 ^ 48 with
  | none => (none, s)
  | some j =>
    let n := s.snp.wardLen.getD j.toNat 0
    let b := snapRead (p.mirrorVa + j.toNat * p.mirrorBytes) (n + 64) s
    (b.1.bind fun x => if x.bad.isEmpty && crc32c (x.bytes.take n) == BitVec.ofNat 32 (fld x.bytes (n + 0x22) 4) then
        some (x.bytes.take n) else none, b.2)

/-- What a buddy serves for a step: its store alone, or its store with a clean mirror slot. -/
def restoreCopy (p : ProtRec) (step : Nat) (s : State) : Option (List (List Byte)) × State :=
  let stored (t : Nat) : Option (List Byte) := (slotWith s t).bind (payloadOf s)
  if step = s.snp.wardSnap ∧ (slotWith s step).isSome then ((stored step).map fun x => [x], s)
  else
    let m := cleanMirror p step s
    (match m.1, stored s.snp.wardSnap with
      | some mir, some x => some [x, mir]
      | _, _ => none, m.2)

/-- Send what is served, in pieces, each part with its number. -/
def sendParts (dst step : Nat) (parts : List (List Byte)) (s : State) : State :=
  each ((List.range parts.length).zip parts) (fun s p =>
    each (List.range (cdiv p.2.length mirrorPiece)) (fun s i =>
      inject s dst 5 (.restoreData step p.1 (mirrorPiece * i) ((p.2.drop (mirrorPiece * i)).take mirrorPiece))) s) s

/-- RESTORE_REQUEST: this member as buddy serves its ward's request, or answers why it cannot. -/
def restoreRequest (src step : Nat) (s : State) : State :=
  match s.snp.prot.filter fun p => p.ward == src && namesWard s src with
  | none => inject s src 5 (.restoreAnswer step .noCopy)
  | some p =>
    let r := restoreCopy p step s
    match r.1 with
    | some parts => inject (sendParts src step parts r.2) src 5 (.restoreAnswer step .served)
    | none => inject r.2 src 5 (.restoreAnswer step .noStep)

def execRestoreRequest (src : Nat) (step : Nat) (s : State) : Host.Outcome State Fault Refusal :=
  .next (restoreRequest src step s)

end Sys2Proof.Machine
end

