-- ==== Sys2Proof/Machine/Tick.lean ====
section
/-! DEFINITION. The tick unit (02): boundaries, plan latches and claims, the phases of a tick, the deadline monitor, the
run counts and moves of guard (13 R256-R258), and PTP time. A command that does not follow the phase before it changes nothing
(log entry 1). -/

namespace Sys2Proof.Machine

/-! ### Plan records (R19, R24-R27) -/

/-- The fields of Table 2.5. -/
def planRec (bs : List Byte) : PlanRec where
  gen := fld bs 0 8
  source := fld bs 8 1
  rate := fld bs 9 1
  admitUs := fld bs 0xA 2
  drainUs := fld bs 0xC 2
  guardUs := fld bs 0xE 2
  mask := BitVec.ofNat 192 (fld bs 0x10 24)
  cp1 := fld bs 0x28 1
  cp2 := fld bs 0x29 1
  allow := fld bs 0x2A 1
  ptpPort := fld bs 0x2B 1
  anchorTick := fld bs 0x30 8
  anchorTime := fld bs 0x38 8
  costTable := fld bs 0x40 8
  admitQueue := fld bs 0x48 8
  playoutCfg := fld bs 0x50 8

/-- The limits of Table 2.3 at the period of a rate code. -/
def PlanRec.fits (p : PlanRec) (rate : Nat) : Bool :=
  let n := 1000000 * (ratePeriod rate).1
  let d := (ratePeriod rate).2
  decide (100 ≤ p.admitUs ∧ p.admitUs ≤ 2000 ∧ 500 ≤ p.drainUs ∧ 4 * p.drainUs * d ≤ n ∧ 100 ≤ p.guardUs ∧ p.guardUs ≤ 1000
    ∧ 2 * (p.admitUs + p.drainUs + p.guardUs) * d ≤ n)

/-- The tests of R25 beyond the generations, for a domain that runs at `rate`. Bytes 0x02C-0x02F, which Table 2.5 does not
list, are held to be reserved and must be 0 (DESIGN CHOICE, log entry 88). -/
def planOk (rate : Nat) (bs : List Byte) : Bool :=
  let p := planRec bs
  decide (p.source ≤ 2 ∧ p.rate ≤ 0xC) && (p.source != 1 || decide (p.ptpPort ≤ 1))
    && zeroIn bs 0x2C 0x30 && zeroIn bs 0x58 0xFF8
    && decide (26 ≤ p.cp1 ∧ p.cp1 ≤ 230 ∧ p.cp1 < p.cp2 ∧ p.cp2 ≤ 243 ∧ p.mask.toNat < 2 ^ 144)
    && p.fits rate && p.fits p.rate

/-- A record is not latched: TCK.010 with its GEN (R26). -/
def planReject (d word : Nat) (s : State) : State :=
  raise (ctrAdd (modDom s d fun x => { x with lastRej := some word }) (8 + d) 1) bTCK 10 (locDomain d) noSeq (rejDetail word)

/-- The numbering that a latch brings at the next boundary: a host anchor that is set or changed (R16). -/
def anchorOf (x : DomSt) (p : PlanRec) : Option (Nat × Int) :=
  if p.source = 2 then
    if x.plan.any fun o => o.source == 2 && o.anchorTick == p.anchorTick && o.anchorTime == p.anchorTime then x.renumber
    else some (p.anchorTick, (p.anchorTime : Int))
  else if p.source = 1 && x.source = 1 then x.renumber
  else none

/-- A record is latched: it governs this tick; its rate and source come with the next boundary (R17). -/
def planTake (d : Nat) (slot : Bool) (p : PlanRec) (flows : List FlowCfg) (s : State) : State :=
  modDom s d fun x =>
    let port := if p.source = 1 then p.ptpPort else x.ptpPort
    { x with
      plan := some p
      latchedGen := p.gen
      latchedSlot := slot
      nextRate := if p.rate = x.rate ∧ p.source = x.source ∧ port = x.ptpPort then none else some (p.rate, p.source, port)
      renumber := anchorOf x p
      flowsNext := some flows }

/-- PLAN_LATCH: the plan area at an admit phase. -/
def planLatch (d : Nat) (s : State) : State :=
  let x := domAt s d
  let g := readGen (param s (0x010 + d)) (x.plan.map fun _ => x.latchedSlot) x.latchedGen x.lastRej s
  match g.1 with
  | .pass => g.2
  | .reject word => planReject d word g.2
  | .record word _ slot bs =>
    let p := planRec bs
    if !planOk x.rate bs then planReject d word g.2
    else
      let b := readBlock g.2 d p.rate p.playoutCfg
      match b.1 with
      | none => raise (planReject d word b.2) bMED 1 (locDomain d) noSeq 0
      | some flows => planTake d slot p flows b.2

/-! ### Clusters (R22, R23) -/

def inMask (p : PlanRec) (c : Nat) : Bool := p.mask.getLsbD c

/-- Clusters that the domain's record omits leave it at the end of guard. -/
def releaseClusters (d : Nat) (s : State) : State :=
  match (domAt s d).plan with
  | none => s
  | some p =>
    { s with cl := ((List.range s.cl.length).zip s.cl).map fun k =>
        if k.2.dom == some d && !inMask p k.1 then { k.2 with dom := none, freedAt := some s.time, powered := false } else k.2 }

/-- One claimed cluster: it joins, waits, or is held by another domain that claims it too. -/
def claimCluster (d : Nat) (p : PlanRec) (acc : State × Bool) (c : Nat) : State × Bool :=
  if !inMask p c then acc
  else
    match (clAt acc.1 c).dom with
    | none =>
      if (clAt acc.1 c).freedAt = some acc.1.time then acc
      else (modCl acc.1 c fun k => { k with dom := some d, powered := !acc.1.pwr.keepalive }, acc.2)
    | some o => (acc.1, acc.2 || (o != d && (domAt acc.1 o).plan.any fun q => inMask q c))

/-- The clusters of the mask join; TCK.011 while another record claims one of them. -/
def claimClusters (d : Nat) (s : State) : State :=
  match (domAt s d).plan with
  | none => s
  | some p =>
    let r := (List.range 144).foldl (claimCluster d p) (s, false)
    if r.2 then raise r.1 bTCK 11 (locDomain d) noSeq 0 else r.1

/-! ### Phases -/

/-- A phase begins, with its KIND 0 trace record (21 Table 21.3). -/
def setPhase (d : Nat) (p : Phase) (s : State) : State :=
  let s1 := modDom s d fun x => { x with phase := p }
  trace s1 0 noSeq (whereOf 5 d) (leBytes 1 (phaseCode p) ++ leBytes 4 (domAt s1 d).latchedGen)

/-! ### The boundary (R15-R18) -/

/-- a / b to the nearest integer. -/
def nearest (a : Int) (b : Nat) : Int := (2 * a + (b : Int)) / (2 * (b : Int))

/-- The phase error after a period's slewing of at most 0.1 % (R17). -/
def slewed (rate : Nat) (e : Int) : Int :=
  let lim := ((periodNs rate / 1000 : Nat) : Int)
  if lim < e then e - lim else if e < -lim then e + lim else 0

/-- Number and phase error of a boundary by an anchor: the boundary of tick k lies at local time t. A boundary off the grid
takes the count of its nearest grid point, the later one at half a period, and so slews the shorter way (R16 gives no
rule for it: DESIGN CHOICE, log entry 89). -/
def numberAt (rate : Nat) (now : Nat) (k : Nat) (t : Int) : Nat × Int :=
  let per := second * (ratePeriod rate).1
  let den := (ratePeriod rate).2
  let j := nearest (((now : Int) - t) * (den : Int)) per
  (((k : Int) + j).toNat, (now : Int) - t - j * (per : Int) / (den : Int))

/-- A PTP-locked domain whose rate changes takes the grid of its new rate: the nearest boundary since the SMPTE epoch, with the
phase error that is left (Table 2.1, R17). -/
def regrid (x : DomSt) : DomSt :=
  let p := periodUnits x.rate
  let j := nearest (mediaThirds x) (12500 * p)
  { x with clock := j.toNat * p, phaseErr := (mediaThirds x - j * ((12500 * p : Nat) : Int)) / 3 }

/-- A domain at its next boundary: the rate and source that follow, and its tick number. The flag says that PTP time sets the
number for the first time since boot. -/
def nextBoundary (now : Nat) (x : DomSt) : DomSt × Bool :=
  let r := x.nextRate.getD (x.rate, x.source, x.ptpPort)
  let y := { x with
    rate := r.1, source := r.2.1, ptpPort := r.2.2, nextRate := none, running := true, tickStart := now
    holdover := x.holdover && r.2.1 == 1
    hasTime := x.hasTime && r.2.1 == 1 }
  let clock := if x.running then x.clock + periodUnits x.rate else 0
  match y.renumber with
  | some (k, t) =>
    if y.source = 0 then ({ y with renumber := none, tickNo := if x.running then x.tickNo + 1 else 0, clock := clock }, false)
    else
      let n := numberAt y.rate now k t
      ({ y with renumber := none, tickNo := n.1, clock := n.1 * periodUnits y.rate, phaseErr := n.2
                acquired := y.acquired || y.source == 1 }, y.source == 1)
  | none =>
    let z := { y with
      tickNo := if x.running then x.tickNo + 1 else 0
      clock := clock
      phaseErr := if y.holdover then y.phaseErr else slewed x.rate y.phaseErr }
    (if y.source = 1 ∧ y.acquired ∧ y.hasTime ∧ y.rate ≠ x.rate then regrid z else z, false)

/-- Faults of a domain's sequences count its boundaries (11 R219, R223). -/
def countFaults (d : Nat) (s : State) : State :=
  let mine (seq : Nat) : Bool := seq < 32 && (seqAt s seq).domain == d
  let own (tag : BitVec 32) : Bool := s.xlt.faults.any fun f => f.tag == tag && mine f.seq
  { s with xlt := { s.xlt with
    faults := s.xlt.faults.map fun f => if mine f.seq then { f with ticks := f.ticks + 1 } else f
    t4 := s.xlt.t4.map fun r =>
      match r.faulted with
      | some (peer, tag, n, at') => if own tag then { r with faulted := some (peer, tag, n + 1, at') } else r
      | none => r } }

/-- May a boundary of a domain occur: an image is booted past step 3, and the tick has reached its guard phase, or has no
phases, or no tick has begun? -/
def boundaryMay (s : State) (d : Nat) : Bool :=
  let x := domAt s d
  !s.boot.inReset && !s.boot.noImage && decide (4 ≤ s.boot.step ∧ s.boot.step ≤ 7)
    && (!x.running || x.phase == .guard || x.phase == .noRecord)

/-- The end of guard and the boundary itself: late store writes, releases, the new number, and what the flows send. -/
def boundary (d : Nat) (s : State) : State :=
  let s1 := if (domAt s d).running then releaseClusters d (lateWrites d ((domAt s d).tickNo + 1) s) else s
  let n := nextBoundary s1.time (domAt s1 d)
  let s2 := modDom s1 d fun _ => n.1
  let s3 := if n.2 then raise s2 bTCK 2 (locDomain d) noSeq 0 else s2
  let s4 := countFaults d (ctrAdd s3 d 1)
  sendFlows d (domAt s4 d).tickNo (applyFlows d s4)

/-! ### The admit phase (13 R244) -/

/-- A slot as its domain's admit phase begins: COARSE is cleared (05 R90), the allowance is granted (R87), and
HISTORY_VALID follows the first full pass (R95). -/
def freshSlot (allow : Nat) (q : SeqSlot) : SeqSlot :=
  { q with
    coarse := false
    denied := false
    history := q.history || q.passDone
    allow256 := allow
    allowUsed := 0
    rethatchUsed := 0 }

/-- The slots of a domain at its admit phase. -/
def freshSlots (d : Nat) (s : State) : State :=
  each (activeSlots s d) (fun s n => modSeq s n (freshSlot (allowance s d))) s

/-- The steps of an admit phase that read stack memory. -/
def admitSteps (d : Nat) (s : State) : State :=
  let n := (domAt s d).tickNo
  let s1 := captureCheck d (protLatch d (sliceLatch d s))
  let s2 := each (activeSlots s1 d) (fun s k => if (seqAt s k).departNext then departSlot k s else dropBadFrames s k) s1
  openQueue d (sendNotices d n (readWords (modelMoves d n s2) d))

/-- The admit phase begins. While the stacks are off, or in keep-alive mode, nothing in stack memory is read: the records in
force stand, and so do their claims of clusters (R23, 20 R419). -/
def admitPhase (d : Nat) (s : State) : State :=
  let live := s.mem.on && !s.pwr.keepalive
  let s1 := claimClusters d (if live then planLatch d s else s)
  let s2 := setPhase d (if (domAt s1 d).plan.isSome then .admission else .noRecord) s1
  let s3 := codLate d (domAt s2 d).tickNo (freshSlots d s2)
  if live then admitSteps d s3 else s3

/-- TICK_BOUNDARY. -/
def tickBoundary (d : Nat) (s : State) : State := if boundaryMay s d then admitPhase d (boundary d s) else s

def execTickBoundary (d : Dom) (s : State) : Host.Outcome State Fault Refusal := .next (tickBoundary d s)

/-! ### The compute window (R19, R20) -/

/-- COMPUTE_WINDOW_START: what is left of the queue is processed, and placed items start or are restored. -/
def windowStart (d : Nat) (s : State) : State :=
  if (domAt s d).phase ≠ .admission ∨ !(domAt s d).running ∨ s.boot.inReset then s
  else
    let live := s.mem.on && !s.pwr.keepalive
    let s1 := if live then drainQueue d 128 s else s
    let s2 := modDom s1 d fun x => { x with
      windowStart := s1.time, stopL1 := false, stopL2 := false, payer := none, admitting := false }
    let s3 := each (activeSlots s2 d) (fun s n => modSeq s n fun q => { q with
      chargedNs := 0, exemptNs := 0, lateCp2 := false, late21 := false }) s2
    let s4 := setPhase d .window (msix s3 (66 + d))
    if live then each (workList s4 d fun i => i.phase == .placed) (fun s w => beginItem w.1 w.2 s) s4 else s4

def execComputeWindowStart (d : Dom) (s : State) : Host.Outcome State Fault Refusal := .next (windowStart d s)

/-- The largest delay of the notices outstanding for a collective, in ns (15 R294). -/
def colPace (x : Collective) : Nat := x.paces.foldl (fun m p => max m p.2.2) 0

/-- The largest pace delay outstanding for a sequence's collectives, in ns (15 R294). -/
def paceDelay (s : State) (slot : Nat) : Nat :=
  (s.col.units.flatMap (·.inProg)).foldl (fun m x => if x.seq = slot then max m (colPace x) else m) 0

/-- The ratio of R28 as a fraction. -/
def ratioOf (s : State) (slot : Nat) : Nat × Nat :=
  let q := seqAt s slot
  if q.totalCost ≤ 10 * q.doneCost ∧ q.doneCost ≠ 0 then (charged s slot, q.doneCost)
  else if 4 ≤ q.historyCount then
    match ofFp32 q.historyRatio with
    | some x => (x.n.natAbs * 2 ^ x.e.toNat, 2 ^ (-x.e).toNat)
    | none => (1, 1)
  else (1, 1)

/-- The sequence has work remaining in the tick: an item placed in it that has neither completed nor been terminated. An item
that CP1 pre-empted for the rest of the tick still counts (DESIGN CHOICE, log entry 92). -/
def workRemains (q : SeqSlot) : Bool := q.items.any fun i => i.placedTick && !i.terminated

/-- Does the projection of a sequence with work remaining lie beyond the end of the window (R28)? -/
def projectedLate (s : State) (d slot : Nat) : Bool :=
  let q := seqAt s slot
  let r := ratioOf s slot
  workRemains q
    && decide (windowNs s d * r.2
        < (s.time - (domAt s d).windowStart + paceDelay s slot) * r.2 + r.1 * (q.totalCost - q.doneCost))

/-- Running items of a domain whose class a checkpoint pre-empts. -/
def preemptList (s : State) (d : Nat) (second : Bool) : List (Nat × Nat) :=
  (workList s d fun i => i.phase == .running).filter fun w =>
    (seqAt s w.1).cls == 2 || (second && (seqAt s w.1).cls == 1)

/-- The array of each cluster goes to a waiting step. -/
def startAll (s : State) : State := each (List.range 144) startNext s

/-- CHECKPOINT (R28, R29). The saves are charged to the lowest slot that raised TCK.020 (13 R255). No step begins until all
the saves are made. -/
def checkpoint (d : Nat) (second : Bool) (s : State) : State :=
  if (domAt s d).phase ≠ .window ∨ s.pwr.keepalive ∨ s.boot.inReset then s
  else
    let late := (activeSlots s d).filter (projectedLate s d)
    match late.head? with
    | none => s
    | some payer =>
      let s1 := each late (fun s n =>
        let s1 := raise s bTCK 20 (locSlot n) n 0
        let s2 := modDom s1 d fun x => { x with events := x.events ||| 0b001000 }
        if second then modSeq s2 n fun q => { forfeit q with lateCp2 := true } else s2) s
      let s2 := modDom s1 d fun x => { x with stopL2 := true, stopL1 := x.stopL1 || second, payer := some payer }
      startAll (each (preemptList s2 d second) (fun s w => saveItem (some payer) w.1 w.2 s) s2)

def execCheckpoint (d : Dom) (second : Bool) (s : State) : Host.Outcome State Fault Refusal :=
  .next (checkpoint d second s)

/-- Placed L0 work that is incomplete, whatever stopped it (R29). -/
def workLate (q : SeqSlot) : Bool := q.cls == 0 && q.items.any (·.placedTick)

/-- An item that was placed and not started waits again. -/
def unplace (i : Item) : Item :=
  if i.phase == .placed then { i with phase := if i.saves.isEmpty then .waiting else .carried, placed := [] } else i

/-- COMPUTE_WINDOW_END (R20, R29): TCK.021; the clusters stop issuing, and unfinished items are saved in drain. -/
def windowEnd (d : Nat) (s : State) : State :=
  if (domAt s d).phase ≠ .window ∨ s.boot.inReset then s
  else if s.pwr.keepalive then setPhase d .drain s
  else
    let act := activeSlots s d
    let s1 := each act noteCharge s
    let s2 := each (act.filter fun n => workLate (seqAt s n)) (fun s n =>
      let s1 := raise s bTCK 21 (locSlot n) n 0
      modSeq (modDom s1 d fun x => { x with events := x.events ||| 0b010000 }) n fun q => { q with late21 := true }) s1
    let s3 := setPhase d .drain s2
    let s4 := each (workList s3 d fun i => i.phase == .running) (fun s w => saveItem none w.1 w.2 s) s3
    each act (fun s n => modSeq s n fun q => { q with items := q.items.map unplace }) s4

def execComputeWindowEnd (d : Dom) (s : State) : Host.Outcome State Fault Refusal := .next (windowEnd d s)

/-! ### Guard (R21, R30, 13 R256-R258) -/

/-- history_ratio + (c / done - history_ratio) / 8, exactly, rounded once to FP32 (R30). -/
def foldRatio (h : BitVec 32) (c done : Nat) : BitVec 32 :=
  match ofFp32 h with
  | none => h
  | some x =>
    let k := (-x.e).toNat
    fp32Rat false (7 * x.n.natAbs * 2 ^ x.e.toNat * done + c * 2 ^ k) (8 * done) (-(k : Int))

/-- The history of a sequence after a tick; skipped without placed work or below 10 %. R30 does not say what tick_ratio is
where only a part of total_cost has completed: it is the charged time over the completed cost, as R28 has it (DESIGN
CHOICE, log entry 90). -/
def histUpdate (q : SeqSlot) : SeqSlot :=
  if q.totalCost = 0 ∨ q.doneCost = 0 ∨ 10 * q.doneCost < q.totalCost then q
  else { q with historyRatio := foldRatio q.historyRatio q.chargedNs q.doneCost, historyCount := min 255 (q.historyCount + 1) }

/-- The tick was late for a sequence (R256). -/
def tickLate (q : SeqSlot) : Bool := q.lateCp2 || q.late21

/-- The run counts after a tick. -/
def runCounts (q : SeqSlot) : SeqSlot :=
  { q with
    lateRun := if tickLate q then min 65535 (q.lateRun + 1) else 0
    coarseRun := if q.coarse then min 65535 (q.coarseRun + 1) else 0
    deferRun := if q.deferred then min 65535 (q.deferRun + 1) else 0 }

/-- The condition of R256 for a move to the fallback. -/
def fallDue (s : State) (q : SeqSlot) : Bool :=
  decide (param s 0x071 ≤ q.lateRun ∨ param s 0x072 ≤ q.coarseRun ∨ param s 0x073 ≤ q.deferRun)

/-- Send a sequence notice to every member, this one included (R258). -/
def decideMove (slot : Nat) (toFb : Bool) (s : State) : State :=
  let t := (domAt s (seqAt s slot).domain).tickNo + 2
  sequenceNotice slot toFb t (each (peers s) (fun s i => inject s i 6 (.sequenceNotice slot toFb t)) s)

/-- A clean tick of R257: its charged time, scaled to the primary, would have ended before CP2. -/
def cleanTick (d slot : Nat) (s : State) : Bool × State :=
  let q := seqAt s slot
  if tickLate q || q.coarse || q.deferred then (false, s)
  else
    let a := costEntry s d q.primary
    let b := costEntry a.2 d q.fallback
    let r : Nat × Nat := match a.1, b.1 with
      | some x, some y => (x.tickNs, y.tickNs)
      | _, _ => (1, 1)
    (decide (q.chargedNs * r.1 * 256 < windowNs s d * (domAt s d).plan.elim 0 (·.cp2) * r.2), b.2)

/-- What guard decides for a sequence on its primary (R256). -/
def guardPrimary (slot : Nat) (s : State) : State :=
  let q := seqAt s slot
  if !fallDue s q then modSeq s slot fun q => { q with said022 := false, backRun := 0 }
  else if q.moves.any (·.2) then s
  else if modelLive s q.fallback then decideMove slot true s
  else if q.said022 then s
  else raise (modSeq s slot fun q => { q with said022 := true }) bSEQ 22 (locSlot slot) slot 0

/-- What guard decides for a sequence on its fallback (R257). -/
def guardFallback (d slot : Nat) (s : State) : State :=
  let c := cleanTick d slot s
  let s1 := modSeq c.2 slot fun q => { q with backRun := if c.1 then min 65535 (q.backRun + 1) else 0 }
  let q := seqAt s1 slot
  if q.backRun < param s1 0x074 then modSeq s1 slot fun q => { q with said022 := false }
  else if q.moves.any (!·.2) || q.byNotice then s1
  else decideMove slot false s1

/-- Guard for one active sequence: its counters, history, run counts, and the decision of a move. -/
def guardSlot (d : Nat) (s : State) (slot : Nat) : State :=
  let q := seqAt s slot
  let s1 := ctrAdd s (ctrSeq slot 0) 1
  let s2 := if q.coarse then ctrAdd s1 (ctrSeq slot 1) 1 else s1
  let s3 := if tickLate q then ctrAdd s2 (ctrSeq slot 2) 1 else s2
  let s4 := ctrAdd (ctrAdd s3 (ctrSeq slot 6) (q.chargedNs / 1000)) (ctrSeq slot 7) (rethatchUs q)
  let s5 := modSeq s4 slot fun q => runCounts (histUpdate q)
  if (seqAt s5 slot).onFallback then guardFallback d slot s5 else guardPrimary slot s5

/-- GUARD_START: drain ends, eaves entries leave, and the statistics are updated. -/
def guardStart (d : Nat) (s : State) : State :=
  if (domAt s d).phase ≠ .drain ∨ s.boot.inReset then s
  else
    let s1 := setPhase d .guard s
    if s.pwr.keepalive then s1 else each (activeSlots s1 d) (guardSlot d) (eavesFlushAll s1)

def execGuardStart (d : Dom) (s : State) : Host.Outcome State Fault Refusal := .next (guardStart d s)

/-! ### PTP time (Table 2.1, R18) -/

/-- The source that the next boundary brings. -/
def dueSource (x : DomSt) : Nat := x.nextRate.elim x.source (·.2.1)

/-- A domain as it acquires time: `epoch` is the local time of the SMPTE epoch. The first acquisition numbers the next
boundary, unless that boundary leaves PTP time. At a later one, where the domain came back to PTP time, the tick stands on
the grid's nearest boundary and the phase error is slewed away (R17). -/
def acquire (epoch : Int) (x : DomSt) : DomSt :=
  if x.acquired then
    let n := numberAt x.rate x.tickStart 0 epoch
    { x with hasTime := true, clock := n.1 * periodUnits x.rate, phaseErr := n.2 }
  else if dueSource x = 1 then { x with hasTime := true, renumber := some (0, epoch) }
  else { x with hasTime := true }

/-- PTP_TIME_ACQUIRED: a PTP-locked domain without time acquires it, `ptpNs` after the SMPTE epoch. -/
def ptpAcquired (d ptpNs : Nat) (s : State) : State :=
  let x := domAt s d
  if !x.running || x.source != 1 || x.hasTime || x.holdover then s
  else modDom s d (acquire ((s.time : Int) - (ptpNs : Int)))

def execPtpTimeAcquired (d : Dom) (ptpNs : Nat) (s : State) : Host.Outcome State Fault Refusal := .next (ptpAcquired d ptpNs s)

/-- A PTP-locked domain loses its time: holdover with TCK.001, once it has acquired time (R18). A renumbering that is due
stays due. -/
def ptpLost (d : Nat) (s : State) : State :=
  let x := domAt s d
  if !x.running || x.source != 1 || !x.hasTime then s
  else raise (modDom s d fun x => { x with hasTime := false, holdover := true }) bTCK 1 (locDomain d) noSeq 0

def execPtpSourceLost (d : Dom) (s : State) : Host.Outcome State Fault Refusal := .next (ptpLost d s)

/-- PTP_SOURCE_RETURN: TCK.002, and the phase converges under R17. -/
def ptpReturn (d : Nat) (err : Int) (s : State) : State :=
  let x := domAt s d
  if !x.running || x.source != 1 || !x.holdover then s
  else raise (modDom s d fun x => { x with hasTime := true, holdover := false, phaseErr := err }) bTCK 2 (locDomain d) noSeq 0

def execPtpSourceReturn (d : Dom) (phaseErrNs : Int) (s : State) : Host.Outcome State Fault Refusal :=
  .next (ptpReturn d phaseErrNs s)

end Sys2Proof.Machine
end

