-- ==== Sys2Proof/Machine/Power.lean ====
section
/-! DEFINITION. The reset of the whole device (19 Table 19.5, 02 R417), rails (20 R371), die temperatures and thermal caps
(R374), package power (R375), optical engines (R377), and reference clocks that stop (23 R413). -/

namespace Sys2Proof.Machine

def modPwr (s : State) (f : PwrSt → PwrSt) : State := { s with pwr := f s.pwr }
def modBoot (s : State) (f : BootSt → BootSt) : State := { s with boot := f s.boot }
def modHif (s : State) (f : HostIf → HostIf) : State := { s with hif := f s.hif }

/-! ### The reset of the device (19 Table 19.5, 02 R417) -/

/-- The whole device in reset, the always-on domain included. What is not the device's own state stays: host memory, the
sarking store, the boot flash, the fuses, the image selected for the next boot, the pins (THERMTRIP_N stays low until VAON is
removed, 23 Table 23.5) and references, and what waits outside. -/
def deviceReset (s : State) : State :=
  { State.reset with
    pending := s.pending
    free := s.free
    nextNum := s.nextNum
    out := s.out
    st := { StoreSt.reset with host := s.st.host }
    snp := { SnpSt.reset with store := s.snp.store }
    mem := { MemSt.reset with untrainable := s.mem.untrainable }
    boot := { BootSt.reset with
      rstPin := s.boot.rstPin
      prefer := s.boot.prefer
      flash := s.boot.flash
      svnMin := s.boot.svnMin
      keyHashes := s.boot.keyHashes
      revoked := s.boot.revoked }
    pwr := { PwrSt.reset with vaonOk := s.pwr.vaonOk, sysclk := s.pwr.sysclk, thermtrip := s.pwr.thermtrip } }

/-- SYS_RST_ASSERT: SYS_RST_N is held low. -/
def sysRst (s : State) : State := modBoot (deviceReset s) fun b => { b with rstPin := true }

def execSysRstAssert (s : State) : Host.Outcome State Fault Refusal := .next (sysRst s)

/-- SYSCLK25_STOP acts as SYS_RST_N (23 R413). -/
def sysclkStop (s : State) : State := modPwr (deviceReset s) fun p => { p with sysclk := false }

def execSysclk25Stop (s : State) : Host.Outcome State Fault Refusal := .next (sysclkStop s)

/-- The sensor hub and the power controller run: out of reset, with an image (19 R353). -/
def awake (s : State) : Bool := !s.boot.inReset && !s.boot.noImage

/-! ### Rails (R371, R379) -/

/-- Rails other than VAON that are outside tolerance in this sample. -/
def railsOut (inTol : List Bool) : List Nat := (List.range 32).filter fun r => r != 0 && !inTol.getD r true

/-- Samples in a row outside tolerance, per rail. -/
def railCounts (old : List Nat) (inTol : List Bool) : List Nat :=
  ((List.range 32).zip old).map fun p => if p.1 = 0 || inTol.getD p.1 true then 0 else p.2 + 1

/-- Since when every rail is within tolerance, in keep-alive mode. -/
def railSinceOf (s : State) (inTol : List Bool) : Option Nat :=
  if s.pwr.keepalive && (railsOut inTol).isEmpty then some (s.pwr.railSince.getD s.time) else none

/-- RAIL_SAMPLE: VAON outside its tolerance stops the device as SYS_RST_N does; another rail outside its own for three
samples raises PWR.011, except in keep-alive mode. -/
def railSample (inTol : List Bool) (s : State) : State :=
  if !inTol.getD 0 true then modPwr (deviceReset s) fun p => { p with vaonOk := false, thermtrip := false }
  else if !awake s then s
  else
    let s1 := modPwr s fun p => { p with railBad := railCounts p.railBad inTol, railSince := railSinceOf s inTol }
    if s.pwr.keepalive then s1
    else
      each ((List.range 32).filter fun r => decide (3 ≤ s1.pwr.railBad.getD r 0))
        (fun s r => raiseFatal s bPWR 11 (locRail r) 0 .rail) s1

def execRailSample (inTolerance : List Bool) (s : State) : Host.Outcome State Fault Refusal :=
  .next (railSample inTolerance s)

/-! ### The cluster clock (R374-R376) -/

/-- The clock of each quadrant is the lower of its two caps while its switched domains are powered. -/
def setClocks (s : State) : State :=
  let on := stacksPowered s
  modPwr s fun p => { p with
    quads := p.quads.map fun q => { q with clock := if on then min (thermCap q.row) p.cap else 0 } }

/-- Row of Table 20.4 for a temperature; 4 is the trip. -/
def quadRow (t : Int) : Nat :=
  if t < 95 then 0 else if t < 100 then 1 else if t < 105 then 2 else if t < 110 then 3 else 4

/-- Lower bound of a row. -/
def quadBound : Nat → Int
  | 0 => -1000
  | 1 => 95
  | 2 => 100
  | 3 => 105
  | _ => 110

/-- A quadrant after a sample, and whether it entered a hotter row. The cap steps up one row at a time (log entry 54). -/
def quadStep (now : Nat) (q : QuadSt) (cd bd : Int) : QuadSt × Bool :=
  let t := max cd bd
  let q1 := { q with tjCd := cd, tjBd := bd }
  if q.row < quadRow t then ({ q1 with row := quadRow t, coolSince := none }, true)
  else
    let c := coolStep now (quadBound q.row) t q.coolSince
    if 0 < q.row && c.2 then
      ({ q1 with
          row := q.row - 1
          coolSince := if 0 < q.row - 1 then (coolStep now (quadBound (q.row - 1)) t none).1 else none }, false)
    else ({ q1 with coolSince := if q.row = 0 then none else c.1 }, false)

/-- One quadrant's sample: PWR.001 as it enters a hotter row; at 110 °C PWR.010 and keep-alive mode. -/
def quadSample (s : State) (n : Nat) (cd bd : Int) : State :=
  let r := quadStep s.time (unit s.pwr.quads n QuadSt.reset) cd bd
  let s1 := modPwr s fun p => { p with quads := p.quads.set n r.1 }
  if 4 ≤ r.1.row then
    if r.2 || (!s1.pwr.keepalive && decide (110 ≤ max cd bd)) then raiseFatal s1 bPWR 10 (locQuad n) 0 .thermal else s1
  else if r.2 then raise s1 bPWR 1 (locQuad n) noSeq 0
  else s1

/-- TJ_IOD: PWR.010 at 110 °C; at 125 °C PWR.030 goes out and THERMTRIP_N falls (R377). -/
def iodSample (t : Int) (s : State) : State :=
  let old := s.pwr.tjIod
  let s1 := modPwr s fun p => { p with tjIod := t }
  let s2 := if decide (110 ≤ t) && (decide (old < 110) || !s1.pwr.keepalive) then
      raiseFatal s1 bPWR 10 locDevice 0 .thermal else s1
  if decide (125 ≤ t) && !s2.pwr.thermtrip then
    emit (modPwr (eventSendAll (raise s2 bPWR 30 locDevice noSeq 0)) fun p => { p with thermtrip := true }) .thermtrip
  else s2

/-- DIE_TEMP_SAMPLE: the samples of 100 µs. Events of one cycle come in the order of their LOCATION (22 R397): the I/O die's
names the device. -/
def dieTempSample (cd bd : List Int) (iod : Int) (s : State) : State :=
  if !awake s then s
  else
    setClocks (noteCool (each (List.range 4) (fun s n => quadSample s n (cd.getD n 0) (bd.getD n 0)) (iodSample iod s)))

def execDieTempSample (cd bd : List Int) (iod : Int) (s : State) : Host.Outcome State Fault Refusal :=
  .next (dieTempSample cd bd iod s)

/-! ### Package power (R375) -/

/-- The sums that compare the mean of the samples with a limit in W, without rounding. -/
def pAbove (p : PwrSt) (w : Nat) : Bool := decide (w * p.samples.length < p.samples.sum)
def pBelow (p : PwrSt) (w : Nat) : Bool := decide (p.samples.sum < w * p.samples.length)

/-- The episode, the cap and the counts after a sample, and whether the cap fell for the first time in its episode. -/
def capStep (p : PwrSt) : PwrSt × Bool :=
  let on := pAbove p 3000 || (p.episode && pAbove p 2950)
  let low := if pBelow p 2850 then p.lowRun + 1 else 0
  let down := on && decide (10 < p.cap)
  let up := low != 0 && low % 10 == 0
  ({ p with
      episode := on
      fell := on && (p.fell || down)
      lowRun := low
      cap := if down then p.cap - 1 else if up then min 20 (p.cap + 1) else p.cap }, down && !p.fell)

/-- Since when the mean is above 3,000 W with the cap at 1.0 GHz. -/
def overStep (now : Nat) (p : PwrSt) : Option Nat :=
  if pAbove p 3000 && p.cap == 10 && !p.keepalive then some (p.overSince.getD now) else none

/-- POWER_SAMPLE: the samples of 1 ms. -/
def powerSample (watts : Nat) (s : State) : State :=
  if !awake s then s
  else
    let s1 := modPwr s fun p => { p with samples := (watts :: p.samples).take 10 }
    let c := capStep s1.pwr
    let s2 := modPwr (ctrSet s1 13 (pMean s1.pwr)) fun _ => { c.1 with overSince := overStep s1.time c.1 }
    let s3 := if c.2 then raise s2 bPWR 2 locDevice noSeq 0 else s2
    let s4 := setClocks s3
    match s4.pwr.overSince with
    | some t =>
      if t + second ≤ s4.time then
        raiseFatal (modPwr s4 fun p => { p with overSince := none }) bPWR 14 locDevice 0 .thermal
      else s4
    | none => s4

def execPowerSample (watts : Nat) (s : State) : Host.Outcome State Fault Refusal := .next (powerSample watts s)

/-! ### Optical engines (R377) -/

/-- Every sample since a time has been below a limit: that time, and whether 1 s has passed. -/
def coolFor1s (now : Nat) (lim t : Int) (since : Option Nat) : Option Nat × Bool :=
  if t < lim then
    match since with
    | some t0 => (some t0, decide (t0 + second ≤ now))
    | none => (some now, false)
  else (none, false)

/-- A link engine: at 85 °C its link leaves the port with PWR.020; it trains again after 1 s below 80 °C. -/
def linkOptic (s : State) (k : Nat) (t : Int) : State :=
  let s1 := ctrGauge s (ctrLink k 7) t
  let c := coolFor1s s.time 80 t (s.pwr.linkCool.getD k none)
  let s2 := modPwr s1 fun p => { p with toLink := p.toLink.set k t, linkCool := p.linkCool.set k c.1 }
  if !(linkAt s2 k).hot then
    if 85 ≤ t then raise (linkOut k (modLink s2 k fun l => { l with hot := true })) bPWR 20 (locOptic k) noSeq 0 else s2
  else if c.2 then trainLink k (modLink s2 k fun l => { l with hot := false })
  else s2

/-- A media engine: its port goes down at 95 °C (ports 0-1) or 85 °C (ports 2-3) with PWR.020, and may come up again after
1 s below 90 °C or 80 °C. -/
def mediaOptic (s : State) (p : Nat) (t : Int) : State :=
  let lim : Int := if p < 2 then 95 else 85
  let s1 := ctrGauge s (ctrMedia p 4) t
  let m := mportAt s1 p
  let c := coolFor1s s.time (lim - 5) t m.coolSince
  let s2 := modMport (modPwr s1 fun w => { w with toMedia := w.toMedia.set p t }) p fun m => { m with coolSince := c.1 }
  if !m.hot then
    if lim ≤ t then mportDown p (raise (modMport s2 p fun m => { m with hot := true }) bPWR 20 (locOptic (32 + p)) noSeq 0)
    else s2
  else if c.2 then modMport s2 p fun m => { m with hot := false }
  else s2

/-- OPTICAL_TEMP_SAMPLE: the samples of 1 ms. -/
def opticalTempSample (links media : List Int) (s : State) : State :=
  if !awake s then s
  else
    each ((List.range 4).zip media) (fun s p => mediaOptic s p.1 p.2)
      (each ((List.range 32).zip links) (fun s p => linkOptic s p.1 p.2) s)

def execOpticalTempSample (links media : List Int) (s : State) : Host.Outcome State Fault Refusal :=
  .next (opticalTempSample links media s)

/-! ### References that stop (23 R413; log entry 16) -/

/-- REFCLK156_L_STOP: every lane loses signal, so every link is retrained. -/
def refclkLStop (s : State) : State := each (List.range 32) (fun s k => linkRetrain k s) s

def execRefclk156LStop (s : State) : Host.Outcome State Fault Refusal :=
  .next (if linksOn s then refclkLStop s else s)

/-- REFCLK156_M_STOP: every media port loses its link, and the tick unit goes on in holdover (02 R18). -/
def refclkMStop (s : State) : State :=
  each (List.range 4) (fun s d => ptpLost d s) (each (List.range 4) (fun s p => mportDown p s) s)

def execRefclk156MStop (s : State) : Host.Outcome State Fault Refusal := .next (refclkMStop s)

end Sys2Proof.Machine
end

