-- ==== Sys2Proof/Machine/Boot.lean ====
section
/-! DEFINITION. Boot from release of reset to the seal (19 R352-R358, Table 19.4), what restarts it, the repair list (R356), and
the exit from keep-alive mode (20 R379, 19 R358). -/

namespace Sys2Proof.Machine

/-! ### Steps 1 to 3: image and always-on configuration (R352-R355) -/

/-- The image that is tried first (R352, R365). -/
def firstImage (x : BootSt) : Bool := x.prefer.getD (decide (imgSeq x.flash false < imgSeq x.flash true))

/-- BOT.001 or BOT.002 for an image found invalid. -/
def imageBad (b : Bool) (s : State) : State := raise s bBOT (if b then 2 else 1) (locImage b) noSeq 0

/-- IMAGE_SELECT: the image to boot with its configuration, or none. -/
def pickImage (s : State) : Option (Bool × ImageCfg) × State :=
  let a := firstImage s.boot
  match validImage s.boot a with
  | some c => (some (a, c), s)
  | none =>
    let s1 := imageBad a s
    match validImage s1.boot (!a) with
    | some c => (some (!a, c), s1)
    | none => (none, imageBad (!a) s1)

/-- No valid image: BOT.003, and only the I3C target and the test port run (R353). -/
def bootNone (s : State) : State :=
  modHif (modBoot (raise s bBOT 3 locDevice noSeq 0) fun b => { b with noImage := true, step := 15 })
    fun h => { h with epPowered := false }

/-- A tick domain before its first latch: source, rate and port of the image, and its default playout block (02 R15, 18 R336). -/
def domBoot (s : State) (d : Nat) : State :=
  let v := param s (0x014 + d)
  modDom s d fun x => { x with
    source := v % 256, rate := v / 256 % 256, ptpPort := v / 65536 % 2, flowsNext := some (s.boot.cfg.playout.getD d []) }

/-- Steps 3 and 4: the always-on configuration; then the switched domains are powered, and the repair list is asked for. -/
def bootImage (b : Bool) (c : ImageCfg) (s : State) : State :=
  let h := imgHeader s.boot.flash b
  let s1 := modBoot s fun x => { x with
    image := b, imageSeq := h.seq % 2 ^ 32, svn := h.svn, keySlot := h.keySlot, cfg := c, step := 4 }
  let s2 := each (List.range 4) domBoot s1
  emit (setClocks (each (List.range 4) (fun s p => modMport s p fun m => { m with powered := true }) s2)) .askRepairs

/-- Boot from step 1 of a device that is in reset. The repair list is awaited in step 4. -/
def bootRun (s : State) : State :=
  let s1 := modHif (modBoot s fun b => { b with inReset := false, step := 2 }) fun h => { h with epPowered := true }
  let p := pickImage s1
  let s2 := modBoot p.2 fun b => { b with prefer := none }
  match p.1 with
  | some (b, c) => bootImage b c s2
  | none => bootNone s2

/-- Boot starts once nothing holds the device in reset: the pin, VAON (20 R371), SYSCLK25 (23 R413). -/
def bootIfFree (s : State) : State :=
  if s.boot.inReset && !s.boot.rstPin && s.pwr.vaonOk && s.pwr.sysclk then bootRun s else s

/-- BOOT: SYS_RST_N is released. `untrainable` names the channels that fail the training of this boot (log entry 5). -/
def bootCmd (untrainable : List Nat) (s : State) : State :=
  if !s.boot.inReset then s
  else bootIfFree { modBoot s fun b => { b with rstPin := false } with mem := { s.mem with untrainable := untrainable } }

def execBoot (untrainable : List Channel) (s : State) : Host.Outcome State Fault Refusal :=
  .next (bootCmd (untrainable.map (·.val)) s)

/-- VAON_RECOVER: the device restarts by itself, provided SYS_RST_N is high (20 R371). -/
def vaonRecover (s : State) : State := if s.pwr.vaonOk then s else bootIfFree (modPwr s fun p => { p with vaonOk := true })

def execVaonRecover (s : State) : Host.Outcome State Fault Refusal := .next (vaonRecover s)

/-- SYSCLK25_RETURN: boot from step 1 (23 R413). -/
def sysclkReturn (s : State) : State := if s.pwr.sysclk then s else bootIfFree (modPwr s fun p => { p with sysclk := true })

def execSysclk25Return (s : State) : Host.Outcome State Fault Refusal := .next (sysclkReturn s)

/-! ### Steps 4 to 7: repairs, training, seal (R356, R357, 10 R188, R196) -/

/-- Boot waits in step 4 for the repair list. -/
def awaitsRepairs (s : State) : Bool := s.boot.step == 4 && !s.boot.inReset && !s.pwr.keepalive

/-- An entry of SET_REPAIRS (R356): a lane or a row of a channel. -/
def repairEntry (v : Word64) : Option Repair :=
  let n := v.toNat
  let ch := bits n 10 0
  let kind := bits n 12 11
  if 1280 ≤ ch then none
  else if kind = 0 then
    if 36 ≤ bits n 20 13 then none
    else some { channel := ch, isRow := false, lane := bits n 20 13, bank := 0, row := 0, spare := 0 }
  else if kind = 1 then some { channel := ch, isRow := true, lane := 0, bank := bits n 16 13, row := bits n 32 17, spare := 0 }
  else none

/-- The spare that takes an entry's place: the next free one. -/
def spareFor (s : State) (r : Repair) : Option Nat :=
  if r.isRow then (if rowsUsed s r.channel < 64 then some (rowsUsed s r.channel) else none)
  else [36, 37, 38, 39].find? fun l => !(sparesUsed s r.channel).contains l

/-- BOT.011: an entry is ignored. -/
def repairIgnored (l : BitVec 32) (s : State) : State := raise s bBOT 11 l noSeq 0

/-- One entry is applied; one beyond the spares or beyond 16,384 per boot is ignored with BOT.011 (R356). An entry that names
no repair is ignored in the same way (log entry 79). -/
def repairApply (s : State) (v : Word64) : State :=
  let s1 := modBoot s fun b => { b with repairCount := b.repairCount + 1 }
  if 16384 ≤ s.boot.repairCount then repairIgnored locDevice s1
  else
    match repairEntry v with
    | none => repairIgnored locDevice s1
    | some r =>
      match spareFor s1 r with
      | none => repairIgnored (locChannel r.channel) s1
      | some sp => { s1 with mem := { s1.mem with bootRepairs := s1.mem.bootRepairs ++ [{ r with spare := sp }] } }

/-- A channel that fails training: MEM.023 (10 R196). -/
def trainFail (s : State) (ch : Nat) : State := channelFail s ch

/-- FAILED is about the last training: an attempt clears it before it trains (10 R196). -/
def unfail (m : MemSt) : MemSt := { m with stks := m.stks.map fun k => { k with failed := false } }

/-- The stacks after a training that every channel passed: zeros with valid check symbols (10 R188). -/
def stacksInit (m : MemSt) : MemSt :=
  { memOff (unfail m) with on := true }

/-- Stacks that are powered again refresh at 4x until their first reading (10 R188). -/
def stacksRaw (m : MemSt) : MemSt := { m with stks := m.stks.map fun k => { k with noReading := true } }

/-- Step 6: parameters placed, the storage root port powered. Step 7: the seal, with the trace filter of TRACE_SELECT (R357, 21
R384). -/
def bootSeal (s : State) : State :=
  let v := BitVec.ofNat 64 (param s 0x090)
  let s1 := modHif (modBoot s fun b => { b with paramsIn := true, sealed := true, step := 7 }) fun h => { h with
      stPowered := true, stAt := s.time, stKnown := false }
  modObs s1 fun o => { o with
    kinds := v.extractLsb' 48 16, seqs := v.extractLsb' 16 32, domains := v.extractLsb' 12 4, enable := false }

/-- Step 5, and with it the rest: a channel that fails training stops the boot in keep-alive mode before sealing. -/
def bootTrain (s : State) : State :=
  let bad := s.mem.untrainable
  let s1 := modBoot { s with mem := { s.mem with untrainable := [] } } fun b => { b with step := 5 }
  if bad.isEmpty then bootSeal { s1 with mem := stacksInit s1.mem } else each bad trainFail s1

/-- REPAIR_LIST_TIMEOUT: BOT.010, and training with the entries received. -/
def repairTimeout (s : State) : State := if awaitsRepairs s then bootTrain (raise s bBOT 10 locDevice noSeq 0) else s

def execRepairListTimeout (s : State) : Host.Outcome State Fault Refusal := .next (repairTimeout s)

/-! ### The exit from keep-alive mode (20 R379, R403, 19 R358) -/

/-- The wait of the cause is over. -/
def exitMay (s : State) : Bool :=
  s.pwr.keepalive && !s.pwr.exhausted && !s.boot.inReset &&
    (match s.pwr.cause with
     | .thermal => s.pwr.coolSince.elim false fun t => decide (t + 10 * second ≤ s.time)
     | .rail => s.pwr.railSince.elim false fun t => decide (t + 100000000 ≤ s.time)
     | .other => decide (s.pwr.enteredAt + 10 * second ≤ s.time))

/-- An attempt fails: a new wait begins; after the third, PWR.013 (R379). -/
def exitFail (cause : Cause) (s : State) : State :=
  let s1 := modPwr s fun p => { p with
    attempts := p.attempts + 1, cause := cause, enteredAt := s.time, coolSince := none, railSince := none }
  if 3 ≤ s1.pwr.attempts then
    raise (modPwr s1 fun p => { p with exhausted := true }) bPWR 13 locDevice noSeq 0
  else s1

/-- A PWR or MEM event that fails an attempt becomes the CAUSE (22 R403). -/
def exitCause (mem : Bool) (num : Nat) (s : State) : State := modPwr s fun p => { p with causeNum := num, causeMem := mem }

/-- A rail that is out of tolerance during an attempt: the first that the samples show, else one of them (log entry 16). -/
def badRail (s : State) : Nat :=
  ((List.range 32).find? fun r => s.pwr.railBad.getD r 0 != 0).getD (1 + drawn s 371 % 31)

/-- A slot after the exit (13 R261, 05 R95, 07 R131): its ring is checked again, its histories and run counts are 0. -/
def slotAfterExit (q : SeqSlot) : SeqSlot :=
  { q with
    history := false, passDone := false, historyCount := 0
    lateRun := 0, coarseRun := 0, deferRun := 0, backRun := 0
    said022 := false, recheck := true, badFrames := [] }

/-- The work of a slot is discarded with DONE[2] (13 R261). -/
def exitSlot (s : State) (n : Nat) : State :=
  if (seqAt s n).state == .free then s else discardWork n 2 (modSeq s n slotAfterExit)

/-- Codec commands that no context has taken yet, with their engines. -/
def codecWaiting (s : State) : List (Nat × DmaCmd) :=
  (List.range 64).flatMap fun e => ((engAt s e).thrQ ++ (engAt s e).hostQ).map fun c => (e, c)

/-- An open codec context is closed: its commands, `lost` among them, end ABORTED, with COD.040 (17 R332). -/
def exitCtx (lost : List (Nat × DmaCmd)) (s : State) (i : Nat) : State :=
  let x := ctxAt s i
  if x.desc.isNone then s
  else
    let s1 := each x.queue (fun s p => complete s p.eng p.cmd stABORTED) (modCtx s i fun _ => CtxSt.reset)
    let s2 := each x.closing.toList (fun s p => complete s p.1 p.2 stABORTED) s1
    let s3 := each (lost.filter fun p => cmdCtx p.2 == i) (fun s p => complete s p.1 p.2 stABORTED) s2
    raise s3 bCOD 40 (locCtx i) noSeq 0

/-- The device comes back: power, stacks of zeros, links in training, and everything that the exit forgets. -/
def exitDone (s : State) : State :=
  let s1 := { s with
    mem := stacksRaw (stacksInit s.mem)
    cl := s.cl.map fun k => { k with powered := k.dom.isSome }
    eng := List.replicate 64 EngSt.reset
    wgt := List.replicate 16 ModelSt.reset
    dom := s.dom.map fun x => { x with lastRej := none, consOwn := false }
    self := { s.self with lastRej := none }
    snp := { s.snp with lastRej := none }
    hif := { s.hif with epPowered := true, stPowered := true, stAt := s.time, stKnown := false }
    pwr := { s.pwr with keepalive := false, coolSince := none, railSince := none } }
  let s2 := modBoot (if s1.boot.sealed then s1 else bootSeal s1) fun b => { b with win := 0 }
  let s3 := each [2, 3] (fun s p => modMport s p fun m => { m with powered := true }) (setClocks s2)
  let s4 := raise (trainAll s3) bPWR 12 locDevice noSeq 0
  each (List.range 128) (exitCtx (codecWaiting s)) (each (List.range 32) exitSlot s4)

/-- EXIT_ATTEMPT: the image is verified again, then steps 4 to 6. `untrainable` names the channels that fail this training,
`railsBad` says that a rail leaves its tolerance during the attempt (log entry 5). -/
def exitAttempt (untrainable : List Nat) (railsBad : Bool) (s : State) : State :=
  if !exitMay s then s
  else if (validImage s.boot s.boot.image).isNone then exitFail .other (raise s bBOT 3 locDevice noSeq 0)
  else if railsBad || s.pwr.railBad.any (3 ≤ ·) then
    exitFail .rail (exitCause false 11 (raise (drew s) bPWR 11 (locRail (badRail s)) noSeq 0))
  else if !untrainable.isEmpty then
    exitFail .other (exitCause true 23 (each untrainable trainFail { s with mem := unfail s.mem }))
  else exitDone s

def execExitAttempt (untrainable : List Channel) (railsBad : Bool) (s : State) : Host.Outcome State Fault Refusal :=
  .next (exitAttempt (untrainable.map (·.val)) railsBad s)

end Sys2Proof.Machine
end

