-- ==== Sys2Proof/Machine/Collect.lean ====
section
/-! DEFINITION. What a collective moves (15 R283-R289, R295-R297): its descriptor, the division into blocks, how the unit
reads and writes, the partials of a reduction, and the contribution of one member to another as a stream of bytes. How the
contributions are laid out is this model's own (log entry 75). -/

namespace Sys2Proof.Machine

/-! ### The descriptor (Table 15.1) -/

def colDesc (bs : List Byte) : ColDesc where
  op := fld bs 0 1
  mode := fld bs 1 1
  infmt := fld bs 2 1
  outfmt := fld bs 3 1
  cid := BitVec.ofNat 32 (fld bs 4 4)
  nmem := fld bs 8 2
  anchor := signed 10 (fld bs 0xA 2)
  tileM := 16 * (bits (fld bs 0xC 1) 7 4 + 1)
  tileN := 16 * (bits (fld bs 0xC 1) 3 0 + 1)
  srcT0 := bitOn (fld bs 0xD 1) 0
  dstT0 := bitOn (fld bs 0xD 1) 1
  root := fld bs 0xE 2
  group := fld bs 0x10 8
  src := fld bs 0x18 8
  srcLd := fld bs 0x20 4
  rows := fld bs 0x24 4
  cols := fld bs 0x28 4
  dstLd := fld bs 0x2C 4
  dst := fld bs 0x30 8
  aux0 := fld bs 0x38 8
  aux1 := fld bs 0x40 8
  aux1Ld := fld bs 0x48 4
  timeoutUs := fld bs 0x4C 4
  cpl := fld bs 0x50 8
  emap := fld bs 0x58 8
  cap := fld bs 0x60 4
  topk := fld bs 0x64 1
  cluster := fld bs 0x66 2
  quad := 0

def ColDesc.reduces (d : ColDesc) : Bool := d.op == 1 || d.op == 2
def ColDesc.exact (d : ColDesc) : Bool := d.mode == 1
def ColDesc.experts (d : ColDesc) : Bool := d.op == 6 || d.op == 7

/-- Bytes of a source element. -/
def ColDesc.inBytes (d : ColDesc) : Nat := if d.infmt = 7 then 16 else if d.infmt = 6 then 4 else if d.infmt = 5 then 2 else 1

/-- Bytes of a row of the result: payload, and scales of a block format. -/
def ColDesc.pay (d : ColDesc) : Nat := if d.reduces || d.op == 7 then fmtLen d.outfmt d.cols else d.cols
def ColDesc.scales (d : ColDesc) : Nat := if d.reduces && d.outfmt ≤ 4 then cdiv d.cols 32 else 0

/-- All ones at AUX0: every element carries ANCHOR. -/
def noAux : Nat := 2 ^ 64 - 1

/-- MODE, INFMT and OUTFMT suit the operation. -/
def ColDesc.formsOk (d : ColDesc) : Bool :=
  if d.reduces then
    if d.mode = 1 then d.infmt == 7 && decide (d.outfmt ≤ 7)
    else d.mode == 0 && (d.infmt == 5 || d.infmt == 6) && (d.outfmt == 5 || d.outfmt == 6)
  else if d.op = 7 then d.mode == 0 && (d.infmt == 5 || d.infmt == 6) && (d.outfmt == 5 || d.outfmt == 6)
  else d.mode == 0 && d.infmt == 0 && d.outfmt == 0

/-- Rows of the result. -/
def ColDesc.resultRows (d : ColDesc) : Nat :=
  match d.op with
  | 2 => cdiv d.rows d.nmem
  | 4 => d.nmem * cdiv d.rows d.nmem
  | 6 => 64 * d.cap
  | _ => d.rows

/-- Source and destination lie in the store where they are in T0. -/
def ColDesc.storeOk (d : ColDesc) : Bool :=
  let srcRows := if d.op = 7 then 64 * d.cap else d.rows
  let width := if d.op = 3 then d.nmem * d.cols else d.pay
  (!(d.srcT0 || d.dstT0) || decide (d.cluster < 144))
    && (!d.srcT0 || decide ((region d.src d.srcLd srcRows (d.inBytes * d.cols)).2 ≤ csSize))
    && (!d.dstT0 || decide ((region d.dst d.dstLd d.resultRows width).2 ≤ csSize))

/-- A global address on the own device. -/
def ownGlobal (s : State) (a : Nat) : Bool := gIndex (BitVec.ofNat 64 a) == ownIndex s

/-- A use of AUX0 or AUX1, of n bytes, that has a place: in the store, or at a global address on the own device. -/
def ColDesc.auxPlace (d : ColDesc) (s : State) (t0 : Bool) (a n : Nat) : Bool :=
  if t0 then decide (d.cluster < 144 ∧ a + n ≤ csSize) else ownGlobal s a

/-- AUX0 where it is used: the anchor array of exact mode, the route table. -/
def ColDesc.aux0Ok (d : ColDesc) (s : State) : Bool :=
  if d.experts then d.auxPlace s d.srcT0 d.aux0 (4 * d.topk * d.rows)
  else !(d.reduces && d.exact && d.aux0 != noAux)
    || d.auxPlace s d.srcT0 d.aux0 (2 * (cdiv d.rows d.tileM * cdiv d.cols d.tileN))

/-- AUX1 where it is used: the scales of a block format, A_c beside stored forms, the count and origin table. -/
def ColDesc.aux1Ok (d : ColDesc) (s : State) : Bool :=
  if d.experts then d.auxPlace s d.dstT0 d.aux1 (256 + 512 * d.cap)
  else if d.reduces && decide (d.outfmt ≤ 4) then
    d.auxPlace s d.dstT0 d.aux1 ((d.resultRows - 1) * d.aux1Ld + cdiv d.cols 32)
  else !(d.reduces && d.outfmt == 7) || d.auxPlace s d.dstT0 d.aux1 2

/-- No field is invalid or reserved (R283). -/
def colDescOk (s : State) (d : ColDesc) (bs : List Byte) : Bool :=
  decide (1 ≤ d.op ∧ d.op ≤ 7) && d.formsOk && decide (2 ≤ d.nmem ∧ d.nmem ≤ 4096)
    && decide (fld bs 0xA 2 < 1024) && decide (fld bs 0xD 1 < 4) && (d.op != 5 || decide (d.root < d.nmem))
    && decide (10 ≤ d.timeoutUs ∧ d.timeoutUs ≤ 1000000) && d.cpl % 32 == 0 && ownGlobal s d.cpl && ownGlobal s d.group
    && (d.srcT0 || ownGlobal s d.src) && (d.dstT0 || ownGlobal s d.dst)
    && (d.op != 6 || decide (1 ≤ d.cap ∧ d.cap ≤ 65536))
    && (!d.experts || decide (1 ≤ d.topk ∧ d.topk ≤ 8)) && (!d.experts || ownGlobal s d.emap)
    && zeroIn bs 0x65 0x66 && zeroIn bs 0x68 0x80 && d.storeOk && d.aux0Ok s && d.aux1Ok s

/-- The group list repeats no index, holds the own one, and every index is in the slice. -/
def groupOk (s : State) (l : List Nat) : Bool :=
  allDiffer l && l.contains (ownIndex s) && l.all fun i => decide (i < sliceSize s)

/-! ### Blocks (R285) -/

/-- Rows of block q. -/
def ColDesc.block (d : ColDesc) (q : Nat) : List Nat :=
  let nb := cdiv d.rows d.nmem
  (List.range nb).filterMap fun i => if q * nb + i < d.rows then some (q * nb + i) else none

/-- Source rows that position p sends to position q (operations 1-5). -/
def ColDesc.sentRows (d : ColDesc) (p q : Nat) : List Nat :=
  match d.op with
  | 3 => List.range d.rows
  | 5 => if p = d.root then List.range d.rows else []
  | _ => d.block q

/-- Bytes of a source row as it travels: stored forms, BF16 partials (R288), or bytes. -/
def ColDesc.wireRow (d : ColDesc) : Nat := if d.reduces then (if d.exact then 16 else 2) * d.cols else d.cols

/-- Bytes of the first part of a contribution, and of the reduced block that an owner of an all-reduce sends after it. -/
def ColDesc.part1 (d : ColDesc) (p q : Nat) : Nat := (d.sentRows p q).length * d.wireRow
def ColDesc.part2 (d : ColDesc) (p q : Nat) : Nat :=
  if d.op = 1 ∧ p ≠ q then (d.block p).length * (d.pay + d.scales) else 0

/-- Row r of the result, from the i-th row that position p sends (all-gather, all-to-all, broadcast). -/
def ColDesc.place (d : ColDesc) (p i : Nat) : Nat :=
  match d.op with
  | 3 => i * d.dstLd + p * d.cols
  | 4 => (p * cdiv d.rows d.nmem + i) * d.dstLd
  | _ => i * d.dstLd

/-! ### The unit's reads and writes -/

/-- A byte that the unit reads, and whether its sector is poisoned. -/
abbrev ColByte := Byte × Bool

/-- Bytes of a poisoned source sector are free (log entry 74). -/
def freeBytes (s : State) (n : Nat) : List ColByte := (List.range n).map fun i => (BitVec.ofNat 8 (Config.freeNat s.free (512 + i)), true)

/-- Read bytes from a store or by local virtual address. A translation that gives no place is reported as the device's own
access that failed, and the bytes are poison (log entry 73). -/
def colRead (t0 : Bool) (cl q base n : Nat) (s : State) : List ColByte × State :=
  (chunks base n).foldl (fun acc c =>
    if t0 then
      let s1 := csSettle acc.2 cl c.1
      if csBad s1 cl c.1 then (acc.1 ++ freeBytes s1 c.2, drew s1)
      else (acc.1 ++ (csBytes s1 cl c.1 c.2).map fun b => (b, false), s1)
    else
      let t := translate acc.2 (c.1 % 2 ^ 52) .r false q
      match t.1 with
      | .stack pa =>
        let r := readPA t.2 pa c.2
        if r.1.poison then (acc.1 ++ freeBytes r.2 c.2, drew r.2) else (acc.1 ++ r.1.bytes.map fun b => (b, false), r.2)
      | _ => let s1 := devFail t.2 (c.1 % 2 ^ 52) false; (acc.1 ++ freeBytes s1 c.2, drew s1)) ([], s)

/-- Write bytes; a sector that has no place is not written, and that is reported. -/
def colWrite (t0 : Bool) (cl q base : Nat) (bs : List Byte) (s : State) : State :=
  if t0 then csWrite s cl base bs
  else each (chunks base bs.length) (fun s c =>
    let t := translate s (c.1 % 2 ^ 52) .w false q
    match t.1 with
    | .stack pa => writePA t.2 pa ((bs.drop (c.1 - base)).take c.2)
    | _ => devFail t.2 (c.1 % 2 ^ 52) true) s

/-- Deliver the sector of an address as poison (R292). -/
def colPoison (t0 : Bool) (cl q a : Nat) (s : State) : State :=
  if t0 then csPoisonAt s cl a
  else
    let t := translate s (a % 2 ^ 52) .w false q
    match t.1 with
    | .stack pa => writePoison t.2 (pa / 32)
    | _ => devFail t.2 (a % 2 ^ 52) true

def colBytesOf (l : List ColByte) : List Byte := l.map (·.1)
def colBad (l : List ColByte) : Bool := l.any (·.2)

/-- Source and destination side of a collective; AUX0 lies beside the source, AUX1 beside the destination (log entry 75). -/
def ColDesc.readSrc (d : ColDesc) (a n : Nat) (s : State) : List ColByte × State := colRead d.srcT0 d.cluster d.quad a n s
def ColDesc.readDst (d : ColDesc) (a n : Nat) (s : State) : List ColByte × State := colRead d.dstT0 d.cluster d.quad a n s
def ColDesc.write (d : ColDesc) (a : Nat) (bs : List Byte) (s : State) : State := colWrite d.dstT0 d.cluster d.quad a bs s
def ColDesc.poison (d : ColDesc) (a n : Nat) (s : State) : State :=
  each ((chunks a n).map (·.1)) (fun s x => colPoison d.dstT0 d.cluster d.quad x s) s

/-! ### Partials (R286, R288) -/

/-- What a row's reading found, for the completion record. -/
structure ColFlags where
  rescaled : Bool
  inexact  : Bool
  ovf     : Bool
  poison   : Bool
deriving DecidableEq, Repr

def ColFlags.none : ColFlags := ⟨false, false, false, false⟩
def ColFlags.or (a b : ColFlags) : ColFlags :=
  ⟨a.rescaled || b.rescaled, a.inexact || b.inexact, a.ovf || b.ovf, a.poison || b.poison⟩

/-- Bring an element with anchor a to the collective's anchor: outside the window it is clamped (R286, 03 R43, R44). -/
def laRescale (ac a : Int) (x : LaElem) : LaElem :=
  if a = ac then x
  else if ac < a then
    let e := laE x * ((2 ^ (a - ac).toNat : Nat) : Int)
    if 2 ^ 95 ≤ e ∨ e < -((2 ^ 95 : Nat) : Int) then
      { x with e := BitVec.ofInt 125 (if e < 0 then -((2 ^ 95 - 1 : Nat) : Int) else ((2 ^ 95 - 1 : Nat) : Int)), ovf := true }
    else { x with e := BitVec.ofInt 125 e }
  else
    let n := (laE x).natAbs
    let m := rnePow n (a - ac)
    { x with e := BitVec.ofInt 125 (if laE x < 0 then -(m : Int) else (m : Int)),
             inexact := x.inexact || n % 2 ^ (ac - a).toNat != 0 }

/-- Slice k of a list, of n elements. -/
def piece {α : Type} (n k : Nat) (l : List α) : List α := (l.drop (n * k)).take n

/-- Flags of an element that is sent. -/
def laFlags (rescaled : Bool) (x : LaElem) : ColFlags := ⟨rescaled, x.inexact, laOver x, x.poison⟩

/-- A row of exact partials: stored forms at the collective's anchor. `anchors` are the row's entries of the anchor array,
none where every element carries ANCHOR. -/
def exactRow (d : ColDesc) (anchors : Option (List ColByte)) (cells : List ColByte) : List Byte × ColFlags :=
  (List.range d.cols).foldl (fun acc c =>
    let bs := piece 16 c cells
    let an := anchors.map fun l => piece 2 (c / d.tileN) l
    let a := an.elim d.anchor fun l => signed 16 (ofLE (colBytesOf l))
    let x0 := laOfBytes (colBytesOf bs)
    let x := laRescale d.anchor a { x0 with poison := x0.poison || colBad bs || an.elim false colBad }
    (acc.1 ++ laBytes x, acc.2.or (laFlags (a != d.anchor) x))) ([], ColFlags.none)

/-- A row of rounded partials: BF16. -/
def roundedRow (d : ColDesc) (cells : List ColByte) : List Byte × ColFlags :=
  (List.range d.cols).foldl (fun acc c =>
    let bs := piece d.inBytes c cells
    let n := ofLE (colBytesOf bs)
    let v := if colBad bs then none else if d.infmt = 5 then ofBf16 (BitVec.ofNat 16 n) else ofFp32 (BitVec.ofNat 32 n)
    (acc.1 ++ leBytes 2 (toBf16 v).toNat, acc.2.or ⟨false, false, false, v.isNone⟩)) ([], ColFlags.none)

/-- Source row r as it travels. -/
def wireOf (d : ColDesc) (r : Nat) (s : State) : (List Byte × ColFlags) × State :=
  let x := d.readSrc (d.src + r * d.srcLd) (d.inBytes * d.cols) s
  if !d.reduces then ((colBytesOf x.1, ⟨false, false, false, colBad x.1⟩), x.2)
  else if !d.exact then (roundedRow d x.1, x.2)
  else if d.aux0 = noAux then (exactRow d none x.1, x.2)
  else
    let nt := cdiv d.cols d.tileN
    let a := d.readSrc (d.aux0 + 2 * (r / d.tileM * nt)) (2 * nt) x.2
    (exactRow d (some a.1) x.1, a.2)

/-- The first part of a contribution of operations 1-5: the source rows for a position, one after another. -/
def rowStream (d : ColDesc) (rows : List Nat) (s : State) : (List Byte × ColFlags) × State :=
  rows.foldl (fun acc r =>
    let x := wireOf d r acc.2
    ((acc.1.1 ++ x.1.1, acc.1.2.or x.1.2), x.2)) (([], ColFlags.none), s)

/-! ### Results of a reduction (R287, R288) -/

/-- The sum of an element's partials in group order; none where one is missing. -/
def exactSum (l : List (Option (List Byte))) : LaElem :=
  l.foldl (fun acc b => match b with
    | some bs => laCombine acc (laOfBytes bs)
    | none => { acc with poison := true }) LaElem.zero

/-- FP32 sum in group order, one rounding for each addition. -/
def roundedSum (l : List (Option (List Byte))) : Val :=
  match l.map fun b => b.bind fun bs => ofBf16 (BitVec.ofNat 16 (ofLE bs)) with
  | [] => some Dy.zero
  | v :: vs => vs.foldl fAdd v

/-- Encode a row of values into OUTFMT: payload, scales. -/
def encodeRow (f : Nat) (vs : List Val) : List Byte × List Byte :=
  if f ≤ 4 then
    (List.range (cdiv vs.length 32)).foldl (fun acc b =>
      let xs := piece 32 b vs
      let e := encPlain f (xs ++ List.replicate (32 - xs.length) (some Dy.zero))
      (acc.1 ++ packElems f e.codes, acc.2 ++ [BitVec.ofNat 8 e.bse])) ([], [])
  else if f = 5 then (vs.flatMap fun v => leBytes 2 (toBf16 v).toNat, [])
  else (vs.flatMap fun v => leBytes 4 (toFp32 v).toNat, [])

/-- A reduced row from the partials of its elements: payload then scales. -/
def reducedRow (d : ColDesc) (l : List (List (Option (List Byte)))) : List Byte × ColFlags :=
  if d.exact then
    let xs := l.map exactSum
    let fl := xs.foldl (fun acc x => acc.or (laFlags false x)) ColFlags.none
    if d.outfmt = 7 then (xs.flatMap laBytes, fl)
    else let r := encodeRow d.outfmt (xs.map (laVal d.anchor)); (r.1 ++ r.2, fl)
  else
    let vs := l.map roundedSum
    let r := encodeRow d.outfmt vs
    (r.1 ++ r.2, ⟨false, false, false, vs.any (·.isNone)⟩)

/-- Write bytes [o, o + n) of a reduced row r of the result: its payload at DST, its scales at AUX1. -/
def ColDesc.writeReduced (d : ColDesc) (r o : Nat) (bs : List Byte) (s : State) : State :=
  let s1 := if o < d.pay then d.write (d.dst + r * d.dstLd + o) (bs.take (d.pay - o)) s else s
  let rest := bs.drop (d.pay - o)
  if rest.isEmpty then s1 else d.write (d.aux1 + r * d.aux1Ld + (o - d.pay)) rest s1

/-- Bytes that poison element c of a reduced row, with their places in the row (R51): a block format poisons the block. -/
def ColDesc.poisonElem (d : ColDesc) (c : Nat) : List (Nat × List Byte) :=
  if d.outfmt ≤ 4 then
    [(c / 32 * payBytes d.outfmt, List.replicate (payBytes d.outfmt) 0), (d.pay + c / 32, [0xFF])]
  else if d.outfmt = 5 then [(2 * c, leBytes 2 0x7FC0)]
  else if d.outfmt = 6 then [(4 * c, leBytes 4 0x7FC00000)]
  else [(16 * c, laBytes { LaElem.zero with poison := true })]

/-- Bytes of a reduced row that hold element c. -/
def ColDesc.elemSpan (d : ColDesc) (c : Nat) : List (Nat × Nat) :=
  if d.outfmt ≤ 4 then [(c / 32 * payBytes d.outfmt, payBytes d.outfmt), (d.pay + c / 32, 1)]
  else [(fmtOff d.outfmt c, fmtLen d.outfmt 1)]

/-! ### Expert dispatch (R295-R297) -/

/-- An entry of the expert home map. -/
structure HomeEnt where
  home  : Nat
  slot  : Nat
  valid : Bool
deriving DecidableEq, Repr

def homeEnt (bs : List Byte) (e : Nat) : HomeEnt :=
  let n := fld bs (4 * e) 4
  ⟨bits n 11 0, bits n 17 12, bitOn n 31⟩

/-- The valid entries differ in device index and slot, and their homes are in the group. -/
def emapOk (bs : List Byte) (members : List Nat) : Bool :=
  let l := ((List.range 256).map (homeEnt bs)).filter (·.valid)
  allDiffer (l.map fun x => x.home * 64 + x.slot) && l.all fun x => members.contains x.home

/-- A row that travels: source row, k, local slot, bytes. -/
structure ExpertRow where
  row  : Nat
  k    : Nat
  slot : Nat
  data : List Byte
deriving DecidableEq, Repr

/-- Bytes of an expert contribution before its rows: the home map, the number of rows. -/
def expertHead : Nat := 1032
/-- Bytes of a row that travels. -/
def ColDesc.expertRow (d : ColDesc) : Nat := 16 + d.inBytes * d.cols

def expertRowBytes (x : ExpertRow) : List Byte := record 16 [(0, 4, x.row), (4, 1, x.k), (5, 1, x.slot)] ++ x.data
def expertRowOf (bs : List Byte) : ExpertRow := ⟨fld bs 0 4, fld bs 4 1, fld bs 5 1, bs.drop 16⟩

/-- A route: source row, k, gate, expert. -/
structure Route where
  row  : Nat
  k    : Nat
  gate : BitVec 16
  expert : Nat
deriving DecidableEq, Repr

/-- The routes of every source row, in row and k order. -/
def readRoutes (d : ColDesc) (s : State) : (List Route × Bool) × State :=
  let x := d.readSrc d.aux0 (4 * d.topk * d.rows) s
  (((List.range (d.topk * d.rows)).map fun i =>
      let n := ofLE (colBytesOf (piece 4 i x.1))
      ⟨i / d.topk, i % d.topk, BitVec.ofNat 16 (bits n 15 0), bits n 23 16⟩, colBad x.1), x.2)

/-- Rows that a dispatch sends to one home. -/
def dispatchRows (d : ColDesc) (emap : List Byte) (home : Nat) (routes : List Route) (s : State) :
    (List ExpertRow × Bool) × State :=
  routes.foldl (fun acc r =>
    let h := homeEnt emap r.expert
    if h.valid && h.home == home then
      let x := d.readSrc (d.src + r.row * d.srcLd) d.cols acc.2
      ((acc.1.1 ++ [⟨r.row, r.k, h.slot, colBytesOf x.1⟩], acc.1.2 || colBad x.1), x.2)
    else acc) (([], false), s)

/-- An expert output row as it travels: a poisoned element is the format's NaN. -/
def outputRow (d : ColDesc) (cells : List ColByte) : List Byte :=
  (List.range d.cols).flatMap fun c =>
    let bs := piece d.inBytes c cells
    if colBad bs then (if d.infmt = 5 then leBytes 2 0x7FC0 else leBytes 4 0x7FC00000) else colBytesOf bs

/-- Rows that a combine returns to one origin, from the dispatch's counts and origin table. -/
def combineRows (d : ColDesc) (home : Nat) (s : State) : (List ExpertRow × Bool) × State :=
  (List.range 64).foldl (fun acc x =>
    let n := d.readDst (d.aux1 + 4 * x) 4 acc.2
    (List.range (min d.cap (ofLE (colBytesOf n.1)))).foldl (fun acc i =>
      let o := d.readDst (d.aux1 + 256 + 8 * (x * d.cap + i)) 8 acc.2
      let w := ofLE (colBytesOf o.1)
      if bits w 11 0 = home then
        let r := d.readSrc (d.src + (x * d.cap + i) * d.srcLd) (d.inBytes * d.cols) o.2
        ((acc.1.1 ++ [⟨bits w 47 16, bits w 15 12, x, outputRow d r.1⟩], acc.1.2 || colBad r.1), r.2)
      else (acc.1, o.2)) (acc.1, n.2)) (([], false), s)

/-- The contribution that carries rows. -/
def expertStream (emap : List Byte) (rows : List ExpertRow) : List Byte :=
  emap ++ leBytes 8 rows.length ++ rows.flatMap expertRowBytes

/-- Element c of a row of expert outputs. -/
def outputElem (d : ColDesc) (bs : List Byte) (c : Nat) : Fv :=
  let n := ofLE (piece d.inBytes c bs)
  Fv.of (if d.infmt = 5 then ofBf16 (BitVec.ofNat 16 n) else ofFp32 (BitVec.ofNat 32 n))

/-- gate x y + acc, rounded once into FP32 (R297). -/
def fMac (acc gate y : Fv) : Fv := (gate.fmaX y acc).rnd

/-- A sum in OUTFMT: BF16 or FP32. -/
def combineBytes (d : ColDesc) (x : Fv) : List Byte :=
  if d.outfmt = 5 then leBytes 2 x.bits16.toNat else leBytes 4 x.bits.toNat

end Sys2Proof.Machine
end

