-- ==== Sys2Proof/Machine/Kv.lean ====
section
/-! DEFINITION. The key/value commands KVPUT and KVGET (07 R132-R138). -/

namespace Sys2Proof.Machine

/-- A plane as a command addresses it: its address, format, and the offset of its scale bytes. -/
structure Plane where
  addr : Nat
  fmt  : Nat
  pay  : Nat
deriving DecidableEq, Repr

def planeOf (d : RingDesc) (k : KvDesc) : Plane :=
  let f := planeFmt d k.plane
  ⟨planeAddr d k.layer k.frame k.head k.plane, f, planePay d f⟩

/-- Bytes of 32 elements of a plane: BF16 has 64. -/
def planeBlock (p : Plane) : Nat := if p.fmt = 5 then 64 else payBytes p.fmt

/-- Tokens that a command transfers: those below TOKENS (R133). -/
def kvTokens (d : RingDesc) (k : KvDesc) : Nat := min k.tcount (d.tokens - k.t0)

/-- The linear element index of the token and dimension in a plane (R128): keys token-major, values dimension-major. -/
def linIndex (d : RingDesc) (k : KvDesc) (token dim : Nat) : Nat :=
  if k.plane = 0 then token * d.dim + dim else dim * d.tokcap + token

/-- Element x of row r of the store side of a KVGET: native or transposed (R128, R136). -/
def rowElem (d : RingDesc) (k : KvDesc) (r x : Nat) : Nat :=
  if (k.plane == 0) == (k.layout == 0) then linIndex d k (k.t0 + r) x else linIndex d k (k.t0 + x) r

/-- A block of 32 elements as it was read. -/
structure KvBlock where
  pay : List Byte
  bse : Nat
  bad : Bool
deriving DecidableEq, Repr

/-- Read block b of a plane. -/
def kvBlock (m : SrcMode) (p : Plane) (b : Nat) (x : Xfer) : (KvBlock ⊕ PieceEnd) × Xfer :=
  let r := srcBytes m (p.addr + b * planeBlock p) (planeBlock p) x
  match r.1 with
  | .inr z => (.inr z, r.2)
  | .inl g =>
    if p.fmt = 5 then (.inl ⟨g.bytes, 0, g.poison⟩, r.2)
    else
      let q := srcBytes m (p.addr + p.pay + b) 1 r.2
      match q.1 with
      | .inr z => (.inr z, q.2)
      | .inl h => (.inl ⟨g.bytes, if g.poison || h.poison then 255 else fld h.bytes 0 1, g.poison || h.poison⟩, q.2)

/-- The V8 code of an element of V4, V6 or V8 (Table 7.5). -/
def widenV8 (f code : Nat) : Nat := if f = 4 then code else (elemEnc 4 127 ⟨elemUnits f code, granule f⟩).1

/-- Code of element i of a block; a marker reads as code 0 (R135). -/
def kvCode (p : Plane) (b : KvBlock) (i : Nat) : Nat × Bool :=
  let c := elemCode p.fmt b.pay i
  if c = marker p.fmt then (0, true) else (c, false)

/-- The BF16 value of element i of a block (R135). -/
def kvWide (p : Plane) (b : KvBlock) (i : Nat) : BitVec 16 :=
  if b.bad then 0x7FC0
  else if p.fmt = 5 then BitVec.ofNat 16 (fld b.pay (2 * i) 2)
  else toBf16 (elemVal p.fmt (kvCode p b i).1 b.bse)

/-- Does the command write BF16 into the store? -/
def toBf (p : Plane) (k : KvDesc) : Bool := k.widen == 5 || p.fmt == 5

/-- The bits of payload byte o of a block whose elements pass a test. -/
def elemMask (f : Nat) (keep : Nat → Bool) (o : Nat) : Byte :=
  BitVec.ofNat 8 (((List.range 8).filter fun t => keep ((8 * o + t) / elemBits f)).map (2 ^ ·)).sum

/-- Payload byte o of a block in its stored format: a marker is delivered as code 0. The number counts the markers that begin
in the byte (R135). -/
def storedByte (p : Plane) (b : KvBlock) (o : Nat) : Byte × Nat :=
  if b.bad then (b.pay.getD o 0, 0)
  else (b.pay.getD o 0 &&& elemMask p.fmt (fun i => !(kvCode p b i).2) o,
    ((List.range 32).filter fun i => elemBits p.fmt * i / 8 == o && (kvCode p b i).2).length)

/-- Byte o of the payload of a row whose element x lies in the plane at `lin x`: the block it belongs to, and the byte as
a function of that block. The number counts markers, once per element. -/
def rowByte (p : Plane) (k : KvDesc) (lin : Nat → Nat) (o : Nat) : Nat × (KvBlock → Byte × Nat) :=
  if toBf p k then
    let i := lin (o / 2)
    (i / 32, fun b =>
      (BitVec.ofNat 8 ((kvWide p b (i % 32)).toNat / 256 ^ (o % 2)),
        (p.fmt != 5 && !b.bad && o % 2 == 0 && (kvCode p b (i % 32)).2).toNat))
  else if k.widen = 4 ∧ p.fmt ≠ 4 then
    let i := lin o
    (i / 32, fun b => (BitVec.ofNat 8 (widenV8 p.fmt (kvCode p b (i % 32)).1),
      (!b.bad && (kvCode p b (i % 32)).2).toNat))
  else
    let b0 := lin 0 / 32
    (b0 + o / planeBlock p, fun b => storedByte p b (o % planeBlock p))

/-- The bytes of a row from offset o on: blocks are read as they are needed. -/
def rowBytes (m : SrcMode) (p : Plane) (k : KvDesc) (lin : Nat → Nat) (o n : Nat) (x : Xfer) :
    (List Byte × Nat ⊕ PieceEnd) × Xfer :=
  let z := (List.range n).foldl (fun acc i =>
    match acc.1 with
    | .inr _ => acc
    | .inl (bs, marks, last) =>
      let f := rowByte p k lin (o + i)
      let r : (KvBlock ⊕ PieceEnd) × Xfer :=
        match last with
        | some (b, v) => if b = f.1 then (.inl v, acc.2) else kvBlock m p f.1 acc.2
        | none => kvBlock m p f.1 acc.2
      (match r.1 with
       | .inl v => .inl (bs ++ [(f.2 v).1], marks + (f.2 v).2, some (f.1, v))
       | .inr e => .inr e, r.2)) ((.inl ([], 0, none) : (List Byte × Nat × Option (Nat × KvBlock)) ⊕ PieceEnd), x)
  (match z.1 with
   | .inl (bs, marks, _) => .inl (bs, marks)
   | .inr e => .inr e, z.2)

/-- ATT.020 for the failed sectors that a piece met: the frame's tag goes at the next admit phase (R138). -/
def kvBad (e : Nat) (k : KvDesc) (n : Nat) (s : State) : State :=
  let detail := k.layer + k.head * 2 ^ 16 + k.plane * 2 ^ 24 + k.frame % 2 ^ 39 * 2 ^ 25
  let s1 := each (List.range n) (fun s _ => raise s bATT 20 (locEngine e) k.seq (BitVec.ofNat 64 detail)) s
  if n = 0 then s1 else modSeq s1 k.seq fun q => { q with badFrames := insertNat k.frame q.badFrames }

/-- Sectors that a piece read for the first time and found poisoned. -/
def newBad (before after : Xfer) : Nat :=
  ((after.held.take (after.held.length - before.held.length)).filter (·.poison)).length

/-- One store sector of a KVGET: n payload bytes of row r from offset o, delivered at store offset a. -/
def getPay (e : Nat) (d : RingDesc) (p : Plane) (k : KvDesc) (r o a n : Nat) (x : Xfer) : PieceEnd × Xfer :=
  let z := rowBytes ⟨false, true⟩ p k (rowElem d k r) o n x
  let bad := newBad x z.2
  let s1 := kvBad e k bad z.2.s
  match z.1 with
  | .inr w => (w, { z.2 with s := s1 })
  | .inl (bs, marks) =>
    let s2 := each (List.range marks) (fun s _ => raise s bATT 5 (locEngine e) k.seq 0) s1
    (.done bad false, { z.2 with s := csWrite s2 k.cluster a bs })

/-- One store sector of the scale bytes of a KVGET. -/
def getScale (e : Nat) (d : RingDesc) (p : Plane) (k : KvDesc) (r o a n : Nat) (x : Xfer) : PieceEnd × Xfer :=
  let z := (List.range n).foldl (fun acc i =>
    match acc.1 with
    | .inr _ => acc
    | .inl bs =>
      let b := kvBlock ⟨false, true⟩ p (rowElem d k r 0 / 32 + o + i) acc.2
      (match b.1 with
       | .inl v => .inl (bs ++ [BitVec.ofNat 8 v.bse])
       | .inr w => .inr w, b.2)) ((.inl [] : List Byte ⊕ PieceEnd), x)
  let bad := newBad x z.2
  let s1 := kvBad e k bad z.2.s
  match z.1 with
  | .inr w => (w, { z.2 with s := s1 })
  | .inl bs => (.done bad false, { z.2 with s := csWrite s1 k.cluster a bs })

/-- The store sectors of rows at a stride: row, offset in the row, store offset, bytes. -/
def rowChunks (base ld rows len : Nat) : List (Nat × Nat × Nat × Nat) :=
  (List.range rows).flatMap fun r => (chunks (base + r * ld) len).map fun c => (r, c.1 - (base + r * ld), c.1, c.2)

/-- The pieces of a KVGET in ascending destination offset: payload and scale bytes. -/
def getPieces (e : Nat) (d : RingDesc) (k : KvDesc) : List (Nat × (Xfer → PieceEnd × Xfer)) :=
  let p := planeOf d k
  let sh := kvShape d k
  let pay := (rowChunks k.base k.ld sh.1 sh.2.1).map fun c => (1, getPay e d p k c.1 c.2.1 c.2.2.1 c.2.2.2)
  let sc := (rowChunks k.sbase k.sld sh.1 sh.2.2).map fun c => (1, getScale e d p k c.1 c.2.1 c.2.2.1 c.2.2.2)
  if kvTokens d k = 0 then [] else if k.sbase < k.base then sc ++ pay else pay ++ sc

/-- Run a key/value command over the pieces that its ring gives. -/
def runKv (e : Nat) (c : DmaCmd) (pieces : RingDesc → KvDesc → List (Nat × (Xfer → PieceEnd × Xfer))) (s : State) : State :=
  let k := kvDesc c
  let r := readRing s k.seq
  match r.1 with
  | none => complete r.2 e c stINVALID
  | some d => settle e (runPieces e (pieces d k) 0 ⟨r.2, c, [], e⟩)

def runKvget (e : Nat) (c : DmaCmd) (s : State) : State := runKv e c (getPieces e) s

def execKvget (e : Engine) (s : State) : Host.Outcome State Fault Refusal :=
  .next (startOp e 2 (fun c s => runKvget e c s) s)

/-! ### KVPUT (R133) -/

/-- A run of ring bytes: the store offset of each byte, and the bits of it that come from there; the others are 0. -/
structure PutRun where
  va   : Nat
  len  : Nat
  src  : Nat → Nat
  keep : Nat → Byte

/-- The bits of payload byte i of a value row that hold tokens to transfer: in a block that straddles their end, the positions
beyond it hold code 0 (R128, R133). -/
def putKeep (d : RingDesc) (k : KvDesc) (p : Plane) (i : Nat) : Byte :=
  let pb := planeBlock p
  if p.fmt = 5 then 255 else elemMask p.fmt (fun j => decide (i / pb * 32 + j < kvTokens d k)) (i % pb)

/-- The runs of a KVPUT: rows one after another for keys, one run for each dimension for values. -/
def putRuns (d : RingDesc) (k : KvDesc) (p : Plane) : List PutRun :=
  let sh := kvShape d k
  let rows := sh.1
  let pb := planeBlock p
  if kvTokens d k = 0 then []
  else if k.plane = 0 then
    let first := k.t0 * d.dim / 32
    [⟨p.addr + first * pb, rows * sh.2.1, fun i => k.base + i / sh.2.1 * k.ld + i % sh.2.1, fun _ => 255⟩,
     ⟨p.addr + p.pay + first, rows * sh.2.2, fun i => k.sbase + i / sh.2.2 * k.sld + i % sh.2.2, fun _ => 255⟩]
  else
    (List.range rows).map (fun r =>
      ⟨p.addr + (r * d.tokcap + k.t0) / 32 * pb, sh.2.1, fun i => k.base + r * k.ld + i, putKeep d k p⟩)
    ++ (List.range rows).map (fun r =>
      ⟨p.addr + p.pay + (r * d.tokcap + k.t0) / 32, sh.2.2, fun i => k.sbase + r * k.sld + i, fun _ => 255⟩)

/-- One ring sector of a KVPUT. -/
def putPiece (k : KvDesc) (run : PutRun) (a n : Nat) (x : Xfer) : PieceEnd × Xfer :=
  let src := (List.range n).map fun i => (run.src (a - run.va + i), run.keep (a - run.va + i))
  let used := (src.filter fun o => o.2 != 0).map (·.1)
  let s1 := each used (fun s o => csSettle s k.cluster o) x.s
  let bad := used.any fun o => csBad s1 k.cluster o
  let t := translate s1 (a % 2 ^ 52) .w false x.port
  match t.1 with
  | .stack pa =>
    (.done bad.toNat bad, { x with s := placePut t.2 (.stack pa) (src.map fun o => csByte t.2 k.cluster o.1 &&& o.2) bad })
  | z => (.fault 3 a z, { x with s := t.2 })

/-- MAXB of the data that a KVPUT wrote (R128): the largest BSE but 0xFF, or the largest exponent field less 8. -/
def putMax (s : State) (d : RingDesc) (k : KvDesc) : Nat :=
  let sh := kvShape d k
  let ok (o : Nat) : Bool := !csBad s k.cluster o
  let top (l : List Nat) : Nat := (l.filter (· != 255)).foldl max 0
  if planeFmt d k.plane = 5 then
    top ((List.range sh.1).flatMap fun r => (List.range (sh.2.1 / 2)).filterMap fun i =>
      let o := k.base + r * k.ld + 2 * i
      if ok o && ok (o + 1) then some (bits (ofLE (csBytes s k.cluster o 2)) 14 7) else none) - 8
  else
    top ((List.range sh.1).flatMap fun r => (List.range sh.2.2).filterMap fun i =>
      let o := k.sbase + r * k.sld + i
      if ok o then some (csByte s k.cluster o).toNat else none)

/-- Raise the summary byte of the plane. -/
def putSummary (d : RingDesc) (k : KvDesc) (x : Xfer) : PieceEnd × Xfer :=
  let va := summaryAddr d k.layer k.frame k.head k.plane
  let t := translate x.s (va % 2 ^ 52) .rw false x.port
  match t.1 with
  | .stack pa =>
    let r := readPA t.2 pa 1
    let m := max (fld r.1.bytes 0 1) (putMax r.2 d k)
    (.done 0 false, { x with s := writePA r.2 pa (leBytes 1 m) })
  | z => (.fault 3 va z, { x with s := t.2 })

def putPieces (d : RingDesc) (k : KvDesc) : List (Nat × (Xfer → PieceEnd × Xfer)) :=
  if kvTokens d k = 0 then []
  else
    ((putRuns d k (planeOf d k)).flatMap fun r => (chunks r.va r.len).map fun c => (1, putPiece k r c.1 c.2))
      ++ [(0, putSummary d k)]

def runKvput (e : Nat) (c : DmaCmd) (s : State) : State := runKv e c putPieces s

def execKvput (e : Engine) (s : State) : Host.Outcome State Fault Refusal :=
  .next (startOp e 1 (fun c s => runKvput e c s) s)

end Sys2Proof.Machine
end

