-- ==== Sys2Proof/Machine/Loads.lean ====
section
/-! DEFINITION. Loading yealms from their sources (12 R229, R230, R232, R237): a host container by HOST_IN on a weights-class
engine, which stops at a recoverable fault as any command does (11 R217), and forerunner storage. -/

namespace Sys2Proof.Machine

/-- How a load ends, where it does not wait at a fault. -/
inductive LoadEnd where
  | ok
  | fail
  | wait
deriving DecidableEq, Repr

/-- The HOST_IN that loads a yealm: SEQ 0xFF, which ranks as L2 (11 R213). -/
def loadCmd (num : Nat) (y : Yealm) : DmaCmd :=
  mkCmd num (BitVec.ofNat 512 (ofLE (record 64 [(0, 1, 0x13), (4, 1, 0xFF), (8, 8, y.src), (0x10, 8, y.va),
    (0x28, 4, y.aux % 2 ^ 32), (0x2C, 4, y.aux / 2 ^ 32)]))) .host 0

/-- The units of a yealm decode to exactly BYTES bytes (R229). -/
def unitsFit (ct : Container) (y : Yealm) : Bool :=
  let first := y.aux % 2 ^ 32
  let n := y.aux / 2 ^ 32
  decide (n ≤ y.bytes) && ((List.range n).map fun i => ct.size (first + i)).sum == y.bytes

/-- The k-th of the 16 weights-class engines (11 R208). -/
def weightsEngine (k : Nat) : Nat := 16 * (k % 16 / 4) + k % 4

/-- The place where the load of a yealm goes on, or its begin on an engine that the spec does not name (log entry 108). -/
def loadJob (m gen y : Nat) (ye : Yealm) (s : State) : LoadJob × State :=
  match (wgtAt s m).loads.find? fun j => j.gen == gen && j.y == y with
  | some j => (j, s)
  | none => (⟨gen, y, weightsEngine (drawn s 231), loadCmd s.nextNum ye⟩, { s with free := s.free + 1, nextNum := s.nextNum + 1 })

/-- A load stops at a recoverable fault, or fails at any other end of its HOST_IN. -/
def loadStopped (m : Nat) (j : LoadJob) (z : PieceEnd) (x : Xfer) : LoadEnd × State :=
  let c := x.cmd
  match z with
  | .done _ _ => (.ok, x.s)
  | .fault kind va (.retry level) =>
    let r := faultRetry x.s { cmdFaultRec j.eng c kind level va 1 with req := .load m j.gen j.y }
    match r.1 with
    | some _ => (.wait, modWgt r.2 m fun w => { w with
        loads := (w.loads.filter fun k => !(k.gen == j.gen && k.y == j.y)) ++ [{ j with cmd := c }] })
    | none => (.fail, r.2)
  | .fault kind va (.fatal code level) => (.fail, faultFatal x.s (cmdFaultRec j.eng c kind level va code))
  | .tier _ => (.fail, raise x.s bDMA 2 (locEngine j.eng) noSeq 0)
  | .hostErr => (.fail, raise x.s bDMA 30 (locEngine j.eng) noSeq 0)
  | _ => (.fail, x.s)

/-- Load a KIND 0 yealm with HOST_IN (R229). -/
def loadHost (m gen y : Nat) (ye : Yealm) (s : State) : LoadEnd × State :=
  let b := loadJob m gen y ye s
  let e := b.1.eng
  let d := dmaDesc b.1.cmd
  let h := readContainer b.2 (gLocal d.src) (4 + e)
  let x : Xfer := ⟨h.2.2, b.1.cmd, [], e⟩
  match h.1 with
  | .data _ _ true =>
    if !unitsFit h.2.1 ye then (.fail, h.2.2)
    else
      let r := runPieces e ((List.range d.p1).map fun i => (unitSectors h.2.1 (d.p0 + i), inPiece e d h.2.1 i)) 0 x
      match r.1 with
      | none => (.ok, r.2.s)
      | some z => loadStopped m b.1 z r.2
  | g => loadStopped m b.1 (gotEnd (gLocal d.src) g) x

/-- Load one yealm from its source. -/
def loadYealm (m gen y : Nat) (ye : Yealm) (s : State) : LoadEnd × State :=
  match ye.kind with
  | 0 => loadHost m gen y ye s
  | 1 =>
    let p := putVa s ye.va (fetched s ye.bytes)
    (if p.1 then .ok else .fail, { p.2 with free := p.2.free + ye.bytes })
  | _ => (.ok, s)

/-- Load the yealms of a build from number y on; the build remembers the one that stopped. -/
def loadFrom (m gen : Nat) : List Yealm → Nat → State → LoadEnd × State
  | [], _, s => (.ok, s)
  | ye :: l, y, s =>
    let r := loadYealm m gen y ye s
    match r.1 with
    | .ok => loadFrom m gen l (y + 1) (dropLoad m gen (· == y) r.2)
    | .wait => (.wait, modWgt r.2 m fun w => { w with
        build := w.build.map fun b => if b.copy.gen = gen then { b with next := y } else b })
    | .fail => r

/-- Is a load of a copy stopped at a fault that is not resolved? -/
def loadHeld (s : State) (m gen : Nat) (which : Nat → Bool) : Bool :=
  s.xlt.faults.any fun f =>
    match f.req with
    | .load k g y => k == m && g == gen && which y
    | _ => false

/-- LOAD_COMPLETE (R232) of the oldest build that loads: the sources have been read into T2; `failed` says that a forerunner
source failed. A load that is stopped at a fault goes on once the fault is resolved. -/
def loadComplete (m : Nat) (failed : Bool) (s : State) : State :=
  match loadingBuild (wgtAt s m) with
  | some b =>
    let gen := b.copy.gen
    if failed then buildFail s m gen
    else if loadHeld s m gen (fun _ => true) then s
    else
      let r := loadFrom m gen (b.copy.man.ents.drop b.next) b.next s
      match r.1 with
      | .ok => stage (modWgt r.2 m fun w => { w with
          fetchTries := w.fetchTries.filter fun t => (servedCopies w).any fun c => c.refetch.any (·.1 == t.1)
          build := w.build.map fun b => if b.copy.gen = gen then { b with loading := false } else b }) m gen 2
      | .wait => r.2
      | .fail => buildFail r.2 m gen
  | none => s

def execLoadComplete (m : Model) (failed : Bool) (s : State) : Host.Outcome State Fault Refusal :=
  .next (loadComplete m failed s)

/-- REFETCH_DONE (R237): an attempt ends; `loaded` says that a forerunner source delivered. -/
def refetchDone (m y : Nat) (loaded : Bool) (s : State) : State :=
  match refetching s m y with
  | some (c, _) =>
    match c.man.ents[y]? with
    | none => s
    | some ye =>
      if !loaded then refetchFail s m y
      else if loadHeld s m c.gen (· == y) then s
      else
        let r := loadYealm m c.gen y ye s
        match r.1 with
        | .wait => r.2
        | .fail => refetchFail r.2 m y
        | .ok =>
          let v := crcOk r.2 ye.va ye.bytes ye.crc
          if v.1 then refetchOk v.2 m y else refetchFail v.2 m y
  | none => s

def execRefetchDone (m : Model) (y : Nat) (loaded : Bool) (s : State) : Host.Outcome State Fault Refusal :=
  .next (refetchDone m y loaded s)

/-- The fault at which a load is stopped is aborted: the load fails (11 R218, 12 R230). -/
def loadAborted (m gen y : Nat) (s : State) : State :=
  if (wgtAt s m).build.any (·.copy.gen == gen) then buildFail s m gen
  else if (refetching s m y).any (·.1.gen == gen) then refetchFail s m y
  else s

end Sys2Proof.Machine
end

