-- ==== Sys2Proof/Machine/Xlt.lean ====
section
/-! DEFINITION. Outstanding faults and what resolves them (11 R217-R224), invalidation (R204), and memory requests between
members: those of a peer, their answers and their time limits (R223, 14 R275, R280). -/

namespace Sys2Proof.Machine

/-! ### Resuming a command (R217, R218) -/

/-- Carry out a command by its OP, from sector DONE on. A codec command's picture goes on at its next row (17 R331). -/
def runCmd (e : Nat) (c : DmaCmd) (s : State) : State :=
  match cmdOp c with
  | 0x01 => runKvput e c s
  | 0x02 => runKvget e c s
  | 0x10 => runCopy e c s
  | 0x11 => runPack e c s
  | 0x12 => runUnpack e c s
  | 0x13 => runHostIn e c s
  | 0x14 => runHostOut e c s
  | 0x20 => runOpen e c s
  | 0x21 => runClose e c s
  | 0x24 => runPlay e c s
  | _ => handPicture e (cmdCtx c) c (newPicture c e 1 false none) s

/-- The engine waits for a peer's answer. -/
def engAsks (s : State) (e : Nat) : Bool := s.xlt.t4.any fun r => r.who == .engine e && r.faulted.isNone

/-- A command whose fault was resolved goes on at once, or next among its issuer's commands where the engine waits for a
peer. -/
def resumeCmd (e : Nat) (c : DmaCmd) (s : State) : State :=
  if engAsks s e then
    modEng s e fun g => if c.issuer == .host then { g with hostQ := c :: g.hostQ } else { g with thrQ := c :: g.thrQ }
  else runCmd e c s

/-- The command that is stopped under a tag. -/
def parkedAt (s : State) (e : Nat) (tag : BitVec 32) : Option DmaCmd :=
  ((engAt s e).parked.find? (·.1 == tag)).map (·.2)

/-- A parked command leaves; the stall of its engine may end. -/
def unpark (s : State) (e : Nat) (tag : BitVec 32) : State :=
  stallEnd (modEng s e fun g => { g with parked := g.parked.filter (·.1 != tag) }) e (oldestSeq s e)

/-! ### Resolution (R218-R222) -/

/-- The tag belongs to the record of a request that a peer's fault holds up (R223). -/
def ofPeer (s : State) (tag : BitVec 32) : Bool := s.xlt.t4.any fun r => r.faulted.any fun f => f.2.1 == tag

/-- The fault that a tag names, where this device's run-time resolves it. -/
def faultAt (s : State) (tag : BitVec 32) : Option FaultRec :=
  if ofPeer s tag then none else s.xlt.faults.find? (·.tag == tag)

/-- A restore goes on where its item may run now (R222, 02 R29). -/
def resumeRestore (slot num : Nat) (s : State) : State :=
  let q := seqAt s slot
  let x := domAt s q.domain
  let stopped := (q.cls == 1 && x.stopL1) || (q.cls == 2 && x.stopL2)
  if x.phase == .window && x.running && !stopped then beginItem slot num s else s

/-- A fault resolved for a retry: what waits for it goes on. The entry is free. -/
def faultRetried (f : FaultRec) (s : State) : State :=
  let s1 := dropFault s f.tag
  match f.req with
  | .thread c t item => modAny s1 c t item unwait
  | .engine e =>
    match parkedAt s1 e f.tag with
    | none => s1
    | some c => resumeCmd e { c with faults := c.faults + 1 } (unpark s1 e f.tag)
  | .restore slot num => resumeRestore slot num s1
  | .load _ _ _ => s1
  | .peer src req => inject s1 src 3 (.memResponse (BitVec.ofNat 32 req) .retry [])
  | .none => s1

/-- A thread's access, wherever the thread is, ends its work item: `pc` is its instruction's address, or none where the
thread stands at it. -/
def endThread (pc : Option Word64) (c t item block num place : Nat) (s : State) : State :=
  match thrAny s c t item with
  | none => s
  | some h => terminate s h.seq item (threadCause c h (pc.getD h.pc) block num 0 place)

/-- A stopped command ends with status ABORTED, and a thread-issued one ends its work item. -/
def abortParked (e : Nat) (tag : BitVec 32) (counts : Bool) (code place : Nat) (s : State) : State :=
  match parkedAt s e tag with
  | none => s
  | some c =>
    let c1 := { c with faults := c.faults + counts.toNat }
    endIssuer (codAborted c1 (complete (unpark s e tag) e c1 stABORTED)) c1 bXLT code place

/-- A fault is aborted with an XLT code: by the run-time, which resolves it, or at its limit. -/
def faultAborted (code : Nat) (f : FaultRec) (s : State) : State :=
  let s1 := raise (dropFault s f.tag) bXLT code (faultLoc f) f.seq (f.tag.setWidth 64)
  match f.req with
  | .thread c t item => endThread none c t item bXLT code f.va s1
  | .engine e => abortParked e f.tag (code == 2) code f.va s1
  | .restore slot num => terminate s1 slot num (plainCause bXLT code f.va)
  | .load m gen y => loadAborted m gen y s1
  | .peer src req => inject s1 src 3 (.memResponse (BitVec.ofNat 32 req) .abort [])
  | .none => s1

def resolveRetry (tag : BitVec 32) (s : State) : State := (faultAt s tag).elim s fun f => faultRetried f s

def execXltResolveRetry (tag : BitVec 32) (s : State) : Host.Outcome State Fault Refusal :=
  .next (if hostMay s then resolveRetry tag s else s)

def resolveAbort (tag : BitVec 32) (s : State) : State := (faultAt s tag).elim s fun f => faultAborted 2 f s

def execXltResolveAbort (tag : BitVec 32) (s : State) : Host.Outcome State Fault Refusal :=
  .next (if hostMay s then resolveAbort tag s else s)

/-- Has a limit passed: boundaries for a sequence's fault, milliseconds for SEQ 0xFF? -/
def limitPast (s : State) (seq ticks arose moreTicks moreMs : Nat) : Bool :=
  if seq < 32 then decide (param s 0x030 + moreTicks ≤ ticks)
  else decide (arose + 1000000 * (param s 0x031 + moreMs) ≤ s.time)

/-- A fault that is unresolved at its limit is aborted with XLT.003 (R219). -/
def faultTimeout (tag : BitVec 32) (s : State) : State :=
  match faultAt s tag with
  | none => s
  | some f => if limitPast s f.seq f.ticks f.arose 0 0 then faultAborted 3 f s else s

def execFaultTimeout (tag : BitVec 32) (s : State) : Host.Outcome State Fault Refusal := .next (faultTimeout tag s)

/-! ### Invalidation (R204) -/

/-- The range that a write of XLT_INVAL covers: start and log2 of its bytes; none for every translation. -/
def invalRange (v : Word64) : Option (Nat × Nat) :=
  let span := bits v.toNat 63 58
  let start := bits v.toNat 51 16 * 65536
  if 36 < span || start % 2 ^ (span + 16) != 0 then none else some (start, span + 16)

/-- Does an entry's range meet an invalidated one? -/
def invalHits (r : Option (Nat × Nat)) (t : PtEntry) : Bool :=
  match r with
  | none => true
  | some (start, n) =>
    let lo := t.key * 2 ^ spanBits t.level
    decide (lo < start + 2 ^ n ∧ start < lo + 2 ^ spanBits t.level)

def xltInval (v : Word64) (s : State) : State := { s with xlt := { s.xlt with invals := s.xlt.invals ++ [invalRange v] } }

def execXltInval (v : Word64) (s : State) : Host.Outcome State Fault Refusal :=
  .next (if hostMay s then xltInval v s else s)

/-- The oldest invalidation completes: every covered copy is discarded, INVAL_DONE advances. -/
def invalComplete (s : State) : State :=
  match s.xlt.invals with
  | [] => s
  | r :: rest => { s with xlt := { s.xlt with
      invals := rest, tlb := s.xlt.tlb.filter fun t => !invalHits r t, invalDone := s.xlt.invalDone + 1 } }

def execInvalComplete (s : State) : Host.Outcome State Fault Refusal := .next (invalComplete s)

/-! ### A request of a peer (R223, 14 R275) -/

/-- Places of a peer's access, sector by sector; host memory is out of reach (R202). -/
def peerPlaces (need : Need) (va n : Nat) (s : State) : (List (Nat × Nat) ⊕ (Xl × Nat)) × State :=
  (chunks va n).foldl (fun acc c =>
    match acc.1 with
    | .inr _ => acc
    | .inl l =>
      let t := translate acc.2 (c.1 % 2 ^ 52) need false
      (match t.1 with
       | .stack pa => .inl (l ++ [(pa, c.2)])
       | x => .inr (x, c.1), t.2)) (.inl [], s)

/-- Bytes that a request covers: to the end of its last sector for a read, its data for a write, 8 for an ATOM. -/
def requestBytes (op : MemOp) (va sectors : Nat) (data : List Byte) : Nat :=
  match op with
  | .read => 32 * sectors - va % 32
  | .write => data.length
  | .poison => data.length
  | .atom _ _ _ => 8

def requestNeed : MemOp → Need
  | .read => .r
  | .write => .w
  | .poison => .w
  | .atom _ _ _ => .rw

/-- Carry out a request at its places: poison, the data of the answer. -/
def requestDo (op : MemOp) (data : List Byte) (l : List (Nat × Nat)) (s : State) : Bool × List Byte × State :=
  match op with
  | .read =>
    let r := l.foldl (fun acc c => let r := readPA acc.2 c.1 c.2; (acc.1.join r.1, r.2)) ((⟨[], false, 0⟩ : Read), s)
    (r.1.poison, r.1.bytes, r.2)
  | .write => (false, [], (l.foldl (fun acc c => (acc.1.drop c.2, writePA acc.2 c.1 (acc.1.take c.2))) (data, s)).2)
  | .poison => (false, [], each l (fun s c => writePoison s (c.1 / 32)) s)
  | .atom o x cmp =>
    let r := atomPA s (l.headD (0, 0)).1 fun old => atomOp o.toNat old x cmp
    (r.1.poison, r.1.bytes, r.2)

/-- A memory request arrives from a member: it is carried out and answered, or its fault is recorded with KIND 6 and
answered FAULTED; a fault that ends at once is answered ABORT. -/
def memRequest (src : BitVec 16) (req : BitVec 32) (op : MemOp) (va sectors : Nat) (data : List Byte) (s : State) : State :=
  match s.self.slice.bind fun r => indexOf s.self.dims r src with
  | none => s
  | some i =>
    let answer (st : MemStatus) (bs : List Byte) (s : State) : State := inject s i 3 (.memResponse req st bs)
    let p := peerPlaces (requestNeed op) va (requestBytes op va sectors data) s
    match p.1 with
    | .inl l => let r := requestDo op data l p.2; answer (.data r.1) r.2.1 r.2.2
    | .inr (x, at') =>
      let f : FaultRec := { mkFault 6 (xlLevel x) (at' % 2 ^ 52) 0 noSeq (.peer i req.toNat) with peer := some i }
      match x with
      | .retry level =>
        let r := faultRetry p.2 { f with level := level }
        (match r.1 with
         | some tag => answer (.faulted tag) [] r.2
         | none => answer .abort [] r.2)
      | .fatal code level => answer .abort [] (faultFatal p.2 { f with code := code, level := level })
      | _ => answer .abort [] p.2

def execMemRequest (src : BitVec 16) (req : BitVec 32) (op : MemOp) (va : BitVec 52) (sectors : Nat) (data : List Byte)
    (s : State) : Host.Outcome State Fault Refusal :=
  .next (if s.self.member && !s.pwr.keepalive then memRequest src req op va.toNat sectors data s else s)

/-! ### Answers to an own request (R223, 14 R280) -/

/-- Forget a request. -/
def dropT4 (s : State) (req : BitVec 32) : State :=
  { s with xlt := { s.xlt with t4 := s.xlt.t4.filter (·.req != req) } }

/-- Change a request. -/
def modT4 (s : State) (req : BitVec 32) (f : T4Req → T4Req) : State :=
  { s with xlt := { s.xlt with t4 := s.xlt.t4.map fun r => if r.req = req then f r else r } }

/-- The own record of a request that a peer's fault holds up, by its tag. -/
def ownTag (r : T4Req) : Option (BitVec 32) := r.faulted.map (·.2.1)

/-- The record is freed on either answer (R223). -/
def freeOwn (r : T4Req) (s : State) : State := (ownTag r).elim s (dropFault s)

/-- The thread of a load or an ATOM takes its result and goes on. -/
def takeResult (req : BitVec 32) (v : Word64) (h : Thread) : Thread :=
  match h.wait with
  | .t4 q reg => if q = req then unwait (setReg h reg v) else h
  | _ => h

/-- A request was carried out. A load or ATOM that receives poison ends its work item (10 R186): which memory event the peer
raised, and where, the answer does not tell (log entry 70). -/
def t4Data (r : T4Req) (bad : Bool) (data : List Byte) (s : State) : State :=
  let s1 := dropT4 s r.req
  match r.who with
  | .engine e => copyAnswered e (r.op == .poison) bad data s1
  | .thread c t item =>
    if r.op = .write then t4Settle (modAny s1 c t item (takeResult r.req 0)) c t item
    else if bad then endThread (some r.pc) c t item bMEM (2 + drawn s1 186 % 2) (drawn s1 187 % 2 ^ 64) (drew s1)
    else t4Settle (modAny s1 c t item (takeResult r.req (BitVec.ofNat 64 (ofLE (data.take r.size))))) c t item
  | _ => s1

/-- The thread of a store that met a peer's fault waits until the store is made (R220, R223). -/
def holdStore (req : BitVec 32) (h : Thread) : Thread :=
  if h.wait == .none then { h with state := if h.state == .ready then .waiting else h.state, wait := .t4 req 0 } else h

/-- The peer answered FAULTED: a record of the own ring names the peer; a command is stopped, an access waits. LEVEL is not
told (log entry 71). -/
def t4Faulted (r : T4Req) (tag : BitVec 32) (s : State) : State :=
  let own := s.xlt.nextTag
  let level := drawn s 223 % 4
  let s0 := modT4 (drew s) r.req fun r => { r with faulted := some (tag, own, 0, s.time) }
  match r.who with
  | .engine e =>
    match (engAt s0 e).cur with
    | none => dropT4 s0 r.req
    | some c =>
      let s1 := modEng s0 e fun g => { g with cur := none }
      let s2 := parkAt s1 e c
        { cmdFaultRec e c (if r.op = .read then 2 else 3) level (r.va % 2 ^ 52) 1 with peer := some r.dst }
      if (engAt s2 e).parked.any (·.1 == own) then s2 else dropT4 s2 r.req
  | .thread c t item =>
    let seq := (thrAny s0 c t item).elim noSeq (·.seq)
    let f := faultRetry s0 { mkFault 0 level (r.va % 2 ^ 52) c seq r.who with peer := some r.dst }
    match f.1 with
    | some _ => if r.op = .write then modAny f.2 c t item (holdStore r.req) else f.2
    | none => endThread (some r.pc) c t item bXLT 4 r.va (dropT4 f.2 r.req)
  | _ => s0

/-- The peer's fault was resolved for a retry: the request is sent again. -/
def t4Retry (r : T4Req) (s : State) : State :=
  match r.who with
  | .engine e =>
    let s1 := dropT4 (freeOwn r s) r.req
    (match ownTag r with
     | none => (engAt s1 e).cur.elim s1 fun c => runCmd e c (modEng s1 e fun g => { g with cur := none })
     | some tag => (parkedAt s1 e tag).elim s1 fun c => resumeCmd e { c with faults := c.faults + 1 } (unpark s1 e tag))
  | _ =>
    let s1 := modT4 (freeOwn r s) r.req fun r => { r with faulted := none, sentAt := s.time }
    inject s1 r.dst 2 (.memRequest r.req r.op r.va r.sectors r.data)

/-- A request ends with an XLT code: after the peer's abort, or at its own limit. -/
def t4Abort (code : Nat) (r : T4Req) (s : State) : State :=
  let s1 := dropT4 (freeOwn r s) r.req
  let detail : Word64 := (ownTag r).elim 0 (·.setWidth 64)
  match r.who with
  | .engine e =>
    let cmd := match ownTag r with
      | some tag => parkedAt s1 e tag
      | none => (engAt s1 e).cur
    (match cmd with
     | none => s1
     | some c =>
       let c1 := { c with faults := c.faults + (code == 2).toNat }
       let s2 := stallEnd (modEng s1 e fun g => { g with
         cur := g.cur.filter (·.num != c.num), parked := g.parked.filter (·.2.num != c.num) }) e (oldestSeq s1 e)
       endIssuer (complete (raise s2 bXLT code (locEngine e) (cmdSeq c) detail) e c1 stABORTED) c1 bXLT code r.va)
  | .thread c t item =>
    let seq := (thrAny s1 c t item).elim noSeq (·.seq)
    endThread (some r.pc) c t item bXLT code r.va (raise s1 bXLT code (locCluster c) seq detail)
  | _ => s1

/-- A memory response arrives; one that names no request is ignored. -/
def memResponse (req : BitVec 32) (status : MemStatus) (data : List Byte) (s : State) : State :=
  match s.xlt.t4.find? (·.req == req) with
  | none => s
  | some r =>
    match status with
    | .data bad => if r.faulted.isSome then s else t4Data r bad data s
    | .faulted tag => if r.faulted.isSome then s else t4Faulted r tag s
    | .retry => t4Retry r s
    | .abort => t4Abort 2 r s

def execMemResponse (req : BitVec 32) (status : MemStatus) (data : List Byte) (s : State) :
    Host.Outcome State Fault Refusal := .next (memResponse req status data s)

/-- A request unanswered within MEM_TIMEOUT: LNK.033, a thread's work item ends, a command ends with status ABORTED. -/
def memTimeout (req : BitVec 32) (s : State) : State :=
  match s.xlt.t4.find? (·.req == req) with
  | none => s
  | some r =>
    if r.faulted.isSome || decide (s.time < r.sentAt + 1000 * param s 0x041) then s
    else
      let s1 := dropT4 s req
      match r.who with
      | .engine e =>
        (match (engAt s1 e).cur with
         | none => s1
         | some c =>
           complete (raise (modEng s1 e fun g => { g with cur := none }) bLNK 33 (locEngine e) (cmdSeq c) 0) e c stABORTED)
      | .thread c t item =>
        let seq := (thrAny s1 c t item).elim noSeq (·.seq)
        endThread (some r.pc) c t item bLNK 33 r.va (raise s1 bLNK 33 (locCluster c) seq 0)
      | _ => s1

def execMemTimeout (req : BitVec 32) (s : State) : Host.Outcome State Fault Refusal := .next (memTimeout req s)

/-- A peer's fault whose answer does not come within the limit (R223): the requester aborts with XLT.003. -/
def peerFaultTimeout (tag : BitVec 32) (s : State) : State :=
  match s.xlt.t4.find? fun r => ownTag r == some tag, s.xlt.faults.find? (·.tag == tag) with
  | some r, some f =>
    match r.faulted with
    | some (_, _, n, at') => if limitPast s f.seq n at' 2 10 then t4Abort 3 r s else s
    | none => s
  | _, _ => s

def execPeerFaultTimeout (tag : BitVec 32) (s : State) : Host.Outcome State Fault Refusal := .next (peerFaultTimeout tag s)

end Sys2Proof.Machine
end

