-- ==== Sys2Proof/Machine/Collectives.lean ====
section
/-! DEFINITION. The collective units (15 R283-R297): issue by CQ, shards and their answers, the reduction and the placing of
rows, completion, timeout and pace notices. -/

namespace Sys2Proof.Machine

/-! ### The units -/

def colUnit (s : State) (q : Nat) : ColUnit := unit s.col.units q ⟨[]⟩

/-- Is this the collective of an identifier and a tick? -/
def isColl (cid : BitVec 32) (tick : Nat) (x : Collective) : Bool := x.desc.cid == cid && x.tick == tick

def modColl (s : State) (q : Nat) (x : Collective) (f : Collective → Collective) : State :=
  { s with col := { s.col with units := s.col.units.modify q fun u =>
      ⟨u.inProg.map fun y => if isColl x.desc.cid x.tick y then f y else y⟩ } }

/-- A collective as it stands now. -/
def collNow (s : State) (q : Nat) (x : Collective) : Option Collective :=
  (colUnit s q).inProg.find? (isColl x.desc.cid x.tick)

/-- The collective that a shard belongs to, with its unit (R284). -/
def findColl (s : State) (cid tick : BitVec 32) : Option (Nat × Collective) :=
  (List.range s.col.units.length).findSome? fun q =>
    ((colUnit s q).inProg.find? fun x => x.desc.cid == cid && BitVec.ofNat 32 x.tick == tick).map fun x => (q, x)

/-- Class of a collective's packets. -/
def colClass (x : Collective) : Nat := if x.desc.experts then 1 else 0

def positions (x : Collective) : List Nat := List.range x.members.length

/-! ### What has been received -/

/-- Every byte of [lo, lo + n) of a position's contribution is in. -/
def covered (x : Collective) (p lo n : Nat) : Bool :=
  (List.range n).all fun i => x.got.any fun g => g.1 == p && decide (g.2.1 ≤ lo + i ∧ lo + i < g.2.1 + g.2.2.length)

/-- Bytes of a position's contribution; 0 where one has not come. -/
def gotBytes (x : Collective) (p lo n : Nat) : List Byte :=
  (List.range n).map fun i =>
    ((x.got.find? fun g => g.1 == p && decide (g.2.1 ≤ lo + i ∧ lo + i < g.2.1 + g.2.2.length)).map fun g =>
      g.2.2.getD (lo + i - g.2.1) 0).getD 0

/-- Rows that an expert contribution announces. -/
def rowCount (x : Collective) (p : Nat) : Nat := ofLE (gotBytes x p 1024 8)

/-- Bytes expected from a position; unknown until the head of an expert contribution is in. -/
def expected (x : Collective) (p : Nat) : Option Nat :=
  let d := x.desc
  if d.experts then (if covered x p 0 expertHead then some (expertHead + rowCount x p * d.expertRow) else none)
  else some (d.part1 p x.pos + d.part2 p x.pos)

/-- Everything expected from a position is in. -/
def fullFrom (x : Collective) (p : Nat) : Bool := (expected x p).elim false fun n => covered x p 0 n

/-- Positions whose contribution is not whole. -/
def absent (x : Collective) : List Nat := (positions x).filter fun p => !fullFrom x p

/-- The rows of an expert contribution that are in. -/
def rowsFrom (x : Collective) (p : Nat) : List ExpertRow :=
  let n := x.desc.expertRow
  if !covered x p 0 expertHead then []
  else ((List.range (rowCount x p)).filter fun j => covered x p (expertHead + n * j) n).map fun j =>
    expertRowOf (gotBytes x p (expertHead + n * j) n)

/-! ### Sending (R289, R290) -/

/-- Data bytes of a shard, at most. -/
def shardMax : Nat := 3840

/-- CRC of a shard: over its header with the CRC field 0, and the data. -/
def shardCrc (shseq tick offs : BitVec 32) (data : List Byte) : BitVec 32 :=
  crc32c (leBytes 4 shseq.toNat ++ leBytes 4 tick.toNat ++ leBytes 4 offs.toNat ++ leBytes 4 0 ++ data)

/-- The shards of bytes [offs, ..) of a contribution; SHSEQ counts on from `first`. -/
def shardsOf (s : State) (x : Collective) (dst first offs : Nat) (bs : List Byte) : List Retained :=
  (List.range (cdiv bs.length shardMax)).map fun i =>
    let data := piece shardMax i bs
    let n := BitVec.ofNat 32 (first + i)
    let o := BitVec.ofNat 32 (offs + shardMax * i)
    let t := BitVec.ofNat 32 x.tick
    ⟨dst, { src := ownIndex s, cid := x.desc.cid, shseq := n, tick := t, offs := o, crc := shardCrc n t o data, data := data }, 0⟩

/-- The copies that the retention region holds. -/
def retainedAll (s : State) : List Retained := (s.col.units.flatMap (·.inProg)).flatMap (·.sent)

/-- Bytes of a shard's copy in the region: its header and data, in whole sectors (log entry 101). -/
def Retained.room (r : Retained) : Nat := 32 * cdiv (16 + r.shard.data.length) 32

/-- A free place for a copy of n bytes in the region: its start, or the end of a copy that it holds (log entry 101). -/
def retainPlace (s : State) (n : Nat) : Option Nat :=
  let l := retainedAll s
  (0 :: l.map fun r => r.place + r.room).find? fun o =>
    decide (o + n ≤ param s 0x051) && l.all fun r => decide (o + n ≤ r.place ∨ r.place + r.room ≤ o)

/-- The bytes of a shard: its header and data (R289). -/
def shardBytes (sh : Shard) : List Byte :=
  leBytes 4 sh.shseq.toNat ++ leBytes 4 sh.tick.toNat ++ leBytes 4 sh.offs.toNat ++ leBytes 4 sh.crc.toNat ++ sh.data

/-- A shard that is sent again, from its copy in T2. Bytes of a poisoned sector are free (log entry 74). -/
def keptShard (r : Retained) (s : State) : Shard × State :=
  (chunks (param s 0x050 + r.place + 16) r.shard.data.length).foldl (fun acc c =>
    let x := readPA acc.2 c.1 c.2 false
    if x.1.poison then ({ acc.1 with data := acc.1.data ++ (freeBytes x.2 c.2).map (·.1) }, drew x.2)
    else ({ acc.1 with data := acc.1.data ++ x.1.bytes }, x.2)) ({ r.shard with data := [] }, s)

/-- Send the waiting shards of a collective while the retention region has room; the number of them is fuel enough. -/
def pumpColl (q : Nat) (x : Collective) : Nat → State → State
  | 0, s => s
  | n + 1, s =>
    match (collNow s q x).bind fun y => y.toSend.head? with
    | none => s
    | some r =>
      match retainPlace s r.room with
      | none => s
      | some o =>
        let s1 := modColl s q x fun y => { y with toSend := y.toSend.drop 1, sent := y.sent ++ [{ r with place := o }] }
        let s2 := writePA s1 (param s 0x050 + o) (shardBytes r.shard)
        pumpColl q x n (inject s2 r.dst (colClass x) (.shard r.shard))

/-- Send what may be sent, for every collective. -/
def pump (s : State) : State :=
  each (List.range s.col.units.length) (fun s q =>
    each (colUnit s q).inProg (fun s x => pumpColl q x x.toSend.length s) s) s

/-! ### Writing what has come (R285, R287) -/

/-- Bytes [off, ..) of rows of n bytes, cut at the row ends: row, offset in it, bytes. -/
def slices (n off : Nat) (bs : List Byte) : List (Nat × Nat × List Byte) :=
  if n = 0 ∨ bs.isEmpty then []
  else (List.range ((off + bs.length - 1) / n - off / n + 1)).map fun j =>
    let i := off / n + j
    let lo := max off (i * n)
    (i, lo - i * n, (bs.drop (lo - off)).take (min (off + bs.length) (i * n + n) - lo))

/-- Write what a part of a contribution brings by itself: the bytes of a byte operation, rows of a reduced block. -/
def writeGot (x : Collective) (p off : Nat) (bs : List Byte) (s : State) : State :=
  let d := x.desc
  if d.op = 3 ∨ d.op = 4 ∨ d.op = 5 then
    each (slices d.cols off bs) (fun s z => d.write (d.dst + d.place p z.1 + z.2.1) z.2.2 s) s
  else if d.op = 1 ∧ d.part1 p x.pos ≤ off then
    each (slices (d.pay + d.scales) (off - d.part1 p x.pos) bs) (fun s z =>
      d.writeReduced ((d.block p).getD z.1 0) z.2.1 z.2.2 s) s
  else s

/-! ### Reductions (R287, R288) -/

/-- The partials of element c of the i-th row of the own block, in group order. -/
def partials (x : Collective) (i c : Nat) : List (Option (List Byte)) :=
  let n := if x.desc.exact then 16 else 2
  let o := i * x.desc.wireRow + n * c
  (positions x).map fun p => if covered x p o n then some (gotBytes x p o n) else none

/-- The rows of the own block, reduced. -/
def reduceBlock (x : Collective) : List Byte × ColFlags :=
  (List.range (x.desc.block x.pos).length).foldl (fun acc i =>
    let r := reducedRow x.desc ((List.range x.desc.cols).map fun c => partials x i c)
    (acc.1 ++ r.1, acc.2.or r.2)) ([], ColFlags.none)

/-- Set the flags of a completion record. -/
def noteFlags (q : Nat) (x : Collective) (f : ColFlags) (s : State) : State :=
  modColl s q x fun y => { y with
    rescaled := y.rescaled || f.rescaled, inexact := y.inexact || f.inexact, ovf := y.ovf || f.ovf,
    poisoned := y.poisoned || f.poison }

/-- The owner reduces its block, writes it, and in an all-reduce queues it for every other member. -/
def reduceOwn (q : Nat) (x : Collective) (send : Bool) (s : State) : State :=
  let d := x.desc
  let b := reduceBlock x
  let s1 := each (slices (d.pay + d.scales) 0 b.1) (fun s z =>
    d.writeReduced (if d.op = 1 then (d.block x.pos).getD z.1 0 else z.1) z.2.1 z.2.2 s) s
  let s2 := if d.outfmt = 7 then d.write d.aux1 (leBytes 2 (field 16 d.anchor)) s1 else s1
  let out := if send && d.op == 1 then
      ((positions x).filter (· != x.pos)).flatMap fun p =>
        shardsOf s2 x (x.members.getD p 0) (cdiv (d.part1 x.pos p) shardMax) (d.part1 x.pos p) b.1
    else []
  noteFlags q x b.2 (modColl s2 q x fun y => { y with reduced := true, toSend := y.toSend ++ out })

/-! ### Experts (R296, R297) -/

/-- Does a row of one position go before a row of another? -/
def rowLe (a b : Nat × ExpertRow) : Bool :=
  decide (a.1 < b.1) || (a.1 == b.1 && (decide (a.2.row < b.2.row) || (a.2.row == b.2.row && decide (a.2.k ≤ b.2.k))))

/-- Place the rows of a dispatch at their home: by local slot, in the order of source position, row and k, CAP at most. -/
def dispatchPlace (q : Nat) (x : Collective) (s : State) : State :=
  let d := x.desc
  let all := (positions x).flatMap fun p => (rowsFrom x p).map fun r => (p, r)
  let of (n : Nat) : List (Nat × ExpertRow) := (all.filter fun r => r.2.slot == n).mergeSort rowLe
  let s1 := each (List.range 64) (fun s n =>
    let l := (of n).take d.cap
    let s1 := d.write (d.aux1 + 4 * n) (leBytes 4 l.length) s
    each ((List.range l.length).zip l) (fun s r =>
      let at' := n * d.cap + r.1
      let org := x.members.getD r.2.1 0 + r.2.2.k * 4096 + r.2.2.row * 65536
      d.write (d.aux1 + 256 + 8 * at') (leBytes 8 org) (d.write (d.dst + at' * d.dstLd) r.2.2.data s)) s1) s
  let ovf := (List.range 64).any fun n => decide (d.cap < (of n).length)
  let s2 := if ovf then raise s1 bCOL 22 (locQuad q) x.seq 0 else s1
  modColl s2 q x fun y => { y with reduced := true, dropped := y.dropped || ovf }

/-- The rows of the result of a combine: gates times outputs, summed in ascending k. A row lacks data where an output may
still be missing from a member. -/
def combinePlace (q : Nat) (x : Collective) (s : State) : State :=
  let d := x.desc
  let rt := readRoutes d s
  let find (r : Route) : Option ExpertRow :=
    let h := homeEnt x.emap r.expert
    if h.valid then (rowsFrom x (x.members.idxOf h.home)).find? fun z => z.row == r.row && z.k == r.k else none
  let lacks (r : Route) : Bool :=
    let h := homeEnt x.emap r.expert
    h.valid && (find r).isNone && !fullFrom x (x.members.idxOf h.home)
  let s1 := each (List.range d.rows) (fun s i =>
    let l := rt.1.1.filter (·.row == i)
    let vs := (List.range d.cols).map fun c =>
      if l.any lacks then Fv.poison
      else l.foldl (fun acc r => (find r).elim acc fun z => fMac acc (Fv.of (ofBf16 r.gate)) (outputElem d z.data c)) (Fv.of (some Dy.zero))
    d.write (d.dst + i * d.dstLd) (vs.flatMap (combineBytes d)) s) rt.2
  modColl s1 q x fun y => { y with reduced := true, poisoned := y.poisoned || rt.1.2 }

/-- Do what the contributions that are in allow: reduce the own block, or place the rows. -/
def settleColl (q : Nat) (x0 : Collective) (s : State) : State :=
  match collNow s q x0 with
  | none => s
  | some x =>
    let d := x.desc
    if x.reduced then s
    else if d.reduces then
      (if (positions x).all fun p => covered x p 0 (d.part1 p x.pos) then pump (reduceOwn q x true s) else s)
    else if d.experts then
      (if (absent x).isEmpty then (if d.op = 6 then dispatchPlace q x s else combinePlace q x s) else s)
    else s

/-! ### Acceptance (R283) -/

/-- The contributions of this member to every position, the flags of its source, and the routes to invalid experts. -/
def contributions (x : Collective) (s : State) : (List (Nat × List Byte) × ColFlags × Nat) × State :=
  let d := x.desc
  let pois (b : Bool) : ColFlags := ⟨false, false, false, b⟩
  if d.op = 6 then
    let rt := readRoutes d s
    let wrong := (rt.1.1.filter fun r => !(homeEnt x.emap r.expert).valid).length
    let r := (positions x).foldl (fun acc p =>
      let z := dispatchRows d x.emap (x.members.getD p 0) rt.1.1 acc.2
      ((acc.1.1 ++ [(p, expertStream x.emap z.1.1)], acc.1.2.or (pois z.1.2)), z.2)) ((([], pois rt.1.2)), rt.2)
    ((r.1.1, r.1.2, wrong), r.2)
  else if d.op = 7 then
    let r := (positions x).foldl (fun acc p =>
      let z := combineRows d (x.members.getD p 0) acc.2
      ((acc.1.1 ++ [(p, expertStream x.emap z.1.1)], acc.1.2.or (pois z.1.2)), z.2)) (([], ColFlags.none), s)
    ((r.1.1, r.1.2, 0), r.2)
  else
    let r := (positions x).foldl (fun acc p =>
      let z := rowStream d (d.sentRows x.pos p) acc.2
      ((acc.1.1 ++ [(p, z.1.1)], acc.1.2.or z.1.2), z.2)) (([], ColFlags.none), s)
    ((r.1.1, r.1.2, 0), r.2)

/-- A unit takes a collective in: its source is read, its own part is in, its shards go out. -/
def acceptColl (q : Nat) (x : Collective) (s : State) : State :=
  let s1 := { s with col := { s.col with units := s.col.units.modify q fun u => ⟨u.inProg ++ [x]⟩ } }
  let c := contributions x s1
  let own := c.1.1.filter (·.1 == x.pos)
  let out := (c.1.1.filter (·.1 != x.pos)).flatMap fun p => shardsOf c.2 x (x.members.getD p.1 0) 0 0 p.2
  let s2 := modColl c.2 q x fun y => { y with got := own.map fun p => (p.1, 0, p.2), toSend := out }
  let s3 := noteFlags q x c.1.2.1 s2
  let s4 := if c.1.2.1.rescaled then raise s3 bCOL 11 (locQuad q) x.seq 0 else s3
  let s5 := each (List.range c.1.2.2) (fun s _ => raise s bCOL 21 (locQuad q) x.seq 0) s4
  let s6 := each own (fun s p => writeGot x p.1 0 p.2 s) s5
  settleColl q x (pump s6)

/-- A refused collective faults its thread; the place that WHERE names is free (log entry 29). -/
def colFault (c t : Nat) (pc : Word64) (num : Nat) (s : State) : State :=
  threadFault (drew s) c t pc bCOL num 0 (drawn s 422 % 2 ^ 64)

/-- CQ: the unit of the cluster's quadrant accepts the descriptor's collective, or the thread waits while the unit holds 64. -/
def cq (w : BitVec 56) (c t : Nat) (pc : Word64) (s : State) : State :=
  let h := thrAt s c t
  let a := (reg h (wReg w 51 47)).toNat
  let q := c / 36
  if a % 128 ≠ 0 then threadFault s c t pc bSEQ 41 0 a
  else if csSize < a + 128 then threadFault s c t pc bSEQ 40 0 a
  else if csBadRange s c a 128 then poisonEnd s c t pc 3 a
  else if 64 ≤ (colUnit s q).inProg.length then setPc (wait s c t (.cqFull q)) c t pc
  else
    let bs := csBytes s c a 128
    let d := { colDesc bs with quad := q }
    if !colDescOk s d bs then colFault c t pc 1 s
    else
      let g := devRead s (.gva (BitVec.ofNat 64 d.group)) (2 * d.nmem)
      let m := if d.experts then devRead g.2 (.gva (BitVec.ofNat 64 d.emap)) 1024 else (some [], g.2)
      match g.1, m.1 with
      | some gb, some emap =>
        let members := (List.range d.nmem).map fun i => fld gb (2 * i) 2
        if !groupOk s members then colFault c t pc 1 m.2
        else if d.experts && !emapOk emap members then colFault c t pc 20 m.2
        else
          acceptColl q {
            desc := d, members := members, pos := members.idxOf (ownIndex s), issuer := .thread c t h.item, pc := pc, rank := h.rank,
            pidx := h.pidx,
            item := h.item, seq := h.seq, tick := (itemOf s h.seq h.item).elim 0 (·.target), accepted := s.time, emap := emap,
            got := [], toSend := [], sent := [], retries := 0, bad := [], rescaled := false, inexact := false,
            ovf := false, poisoned := false, dropped := false, reduced := false, paces := [], paceSaid := false } m.2
      | _, _ => colFault c t pc 1 m.2

/-- OP of the descriptor that the thread's CQ names, where there is one to read. -/
def cqOp (s : State) (c : Nat) (w : BitVec 56) : Option Nat :=
  (pickThread s c).bind fun t =>
    let a := (reg (thrAt s c t) (wReg w 51 47)).toNat
    if a % 128 = 0 ∧ a + 128 ≤ csSize then some (csByte s c a).toNat else none

/-- Issue CQ where its descriptor's operation is the one that the row names, or is none of Table 15.1 (log entry 1). -/
def issueCq (op : Nat) (c : Nat) (w : BitVec 56) (s : State) : State :=
  if (cqOp s c w).elim false fun o => decide (1 ≤ o ∧ o ≤ 7) && o != op then s
  else issue s c 8 (fun t pc s => cq w c t pc s)

def execAllReduce (c : Cluster) (w : BitVec 56) (s : State) : Host.Outcome State Fault Refusal := .next (issueCq 1 c w s)
def execReduceScatter (c : Cluster) (w : BitVec 56) (s : State) : Host.Outcome State Fault Refusal := .next (issueCq 2 c w s)
def execAllGather (c : Cluster) (w : BitVec 56) (s : State) : Host.Outcome State Fault Refusal := .next (issueCq 3 c w s)
def execAllToAll (c : Cluster) (w : BitVec 56) (s : State) : Host.Outcome State Fault Refusal := .next (issueCq 4 c w s)
def execBroadcast (c : Cluster) (w : BitVec 56) (s : State) : Host.Outcome State Fault Refusal := .next (issueCq 5 c w s)
def execDispatch (c : Cluster) (w : BitVec 56) (s : State) : Host.Outcome State Fault Refusal := .next (issueCq 6 c w s)
def execCombine (c : Cluster) (w : BitVec 56) (s : State) : Host.Outcome State Fault Refusal := .next (issueCq 7 c w s)

/-! ### Shards that arrive (R290) -/

/-- Failed copies of a shard so far. -/
def badCopies (x : Collective) (src : Nat) (shseq : BitVec 32) : Nat :=
  (x.bad.find? fun b => b.1 == src && b.2.1 == shseq).elim 0 (·.2.2)

/-- A copy failed its CRC: the sender is asked again, but not after the third (R290). -/
def badShard (q : Nat) (x : Collective) (sh : Shard) (s : State) : State :=
  let n := badCopies x sh.src sh.shseq + 1
  let s1 := modColl s q x fun y => { y with
    bad := (sh.src, sh.shseq, n) :: y.bad.filter fun b => !(b.1 == sh.src && b.2.1 == sh.shseq) }
  if 3 ≤ n then s1 else inject s1 sh.src (colClass x) (.shardRetry sh.cid sh.shseq)

/-- A map that differs from the own one refuses the collective, as its first shard shows (R295). -/
def mapDiffers (x : Collective) (sh : Shard) : Bool :=
  x.desc.experts && sh.offs == 0 && sh.data.take 1024 != x.emap

/-- Fault the thread that issued a collective; the place that WHERE names is free (log entry 29). -/
def endColIssuer (x : Collective) (num : Nat) (s : State) : State :=
  match x.issuer with
  | .thread c _ _ =>
    terminate (drew (raise s bCOL num (locCluster c) x.seq 0)) x.seq x.item
      ⟨bCOL, num, c, x.rank, x.pc, x.pidx, 0, drawn s 422 % 2 ^ 64⟩
  | .host => s

/-- A good shard of a collective in progress: it is acknowledged, and written or added once. -/
def goodShard (q : Nat) (x : Collective) (sh : Shard) (s : State) : State :=
  let p := x.members.idxOf sh.src
  let s1 := inject s sh.src (colClass x) (.shardAck sh.cid sh.shseq)
  if x.got.any fun g => g.1 == p && g.2.1 == sh.offs.toNat then s1
  else if mapDiffers x sh then endColIssuer x 20 s1
  else
    let s2 := modColl s1 q x fun y => { y with got := y.got ++ [(p, sh.offs.toNat, sh.data)] }
    settleColl q x (writeGot x p sh.offs.toNat sh.data s2)

/-- The current tick of the slice's domain. -/
def sliceTick (s : State) : Nat := s.self.slice.elim 0 fun r => (domAt s r.domain).tickNo

/-- The shard's TICK lies more than 16 ticks before the current one. -/
def staleShard (s : State) (sh : Shard) : Bool :=
  let n := (BitVec.ofNat 32 (sliceTick s) - sh.tick).toNat
  decide (16 < n ∧ n < 2 ^ 31)

/-- A shard arrives. A stale one is discarded, whatever its collective's state; one of a completed collective is acknowledged
besides. -/
def shardReceive (sh : Shard) (s : State) : State :=
  let good := sh.crc == shardCrc sh.shseq sh.tick sh.offs sh.data
  let completed := s.col.done.any fun d => d.1 == sh.cid && BitVec.ofNat 32 d.2 == sh.tick
  match findColl s sh.cid sh.tick with
  | some (q, x) =>
    if !x.members.contains sh.src then s
    else if !good then badShard q x sh s
    else if staleShard s sh then raise s bCOL 3 (locQuad q) x.seq 0
    else goodShard q x sh s
  | none =>
    if !good then inject s sh.src 0 (.shardRetry sh.cid sh.shseq)
    else
      let s1 := if completed then inject s sh.src 0 (.shardAck sh.cid sh.shseq) else s
      if staleShard s sh then raise s1 bCOL 3 locDevice noSeq 0
      else if completed then s1 else inject s1 sh.src 0 (.notReady sh.cid sh.shseq)

/-- The collective units work: the device is a member of a slice, outside keep-alive mode. -/
def colOn (s : State) : Bool := s.self.member && !s.pwr.keepalive && !s.boot.inReset

def execShardReceive (sh : Shard) (s : State) : Host.Outcome State Fault Refusal :=
  .next (if colOn s then shardReceive sh s else s)

/-- Is this retained shard the one that an answer names? -/
def names (dst : Nat) (shseq : BitVec 32) (r : Retained) : Bool := r.dst == dst && r.shard.shseq == shseq

/-- An acknowledgement releases the retained copy. -/
def shardAck (dst : Nat) (cid shseq : BitVec 32) (s : State) : State :=
  pump { s with col := { s.col with units := s.col.units.map fun u => ⟨u.inProg.map fun x =>
    if x.desc.cid = cid then { x with sent := x.sent.filter fun r => !names dst shseq r } else x⟩ } }

def execShardAck (dst : Nat) (cid shseq : BitVec 32) (s : State) : Host.Outcome State Fault Refusal :=
  .next (if colOn s then shardAck dst cid shseq s else s)

/-- The retained shard that an answer names, with its unit and collective. -/
def retainedAt (s : State) (dst : Nat) (cid shseq : BitVec 32) : Option (Nat × Collective × Retained) :=
  (List.range s.col.units.length).findSome? fun q =>
    (colUnit s q).inProg.findSome? fun x =>
      if x.desc.cid = cid then (x.sent.find? (names dst shseq)).map fun r => (q, x, r) else none

/-- A retry request: the shard is sent again from its retained copy, with COL.002. -/
def shardRetry (dst : Nat) (cid shseq : BitVec 32) (s : State) : State :=
  match retainedAt s dst cid shseq with
  | none => s
  | some (q, x, r) =>
    let s1 := raise (modColl s q x fun y => { y with retries := y.retries + 1 }) bCOL 2 (locQuad q) x.seq 0
    let k := keptShard r s1
    inject k.2 dst (colClass x) (.shard k.1)

def execShardRetry (dst : Nat) (cid shseq : BitVec 32) (s : State) : Host.Outcome State Fault Refusal :=
  .next (if colOn s then shardRetry dst cid shseq s else s)

/-- 2 µs after a NOTREADY the shard is sent again. -/
def notreadyResend (dst : Nat) (cid shseq : BitVec 32) (s : State) : State :=
  match retainedAt s dst cid shseq with
  | none => s
  | some (_, x, r) =>
    let k := keptShard r s
    inject k.2 dst (colClass x) (.shard k.1)

def execNotreadyResend (dst : Nat) (cid shseq : BitVec 32) (s : State) : Host.Outcome State Fault Refusal :=
  .next (if colOn s then notreadyResend dst cid shseq s else s)

/-! ### The end (R291, R292) -/

/-- Every expected shard is in and written, every shard is sent and acknowledged. -/
def collDone (x : Collective) : Bool :=
  (absent x).isEmpty && x.toSend.isEmpty && x.sent.isEmpty && (x.reduced || !(x.desc.reduces || x.desc.experts))

def collByCid (s : State) (q : Nat) (cid : BitVec 32) (p : Collective → Bool) : Option Collective :=
  (colUnit s q).inProg.find? fun x => x.desc.cid == cid && p x

def collectiveComplete (q : Nat) (cid : BitVec 32) (s : State) : State :=
  match collByCid s q cid collDone with
  | none => s
  | some x => pump (colEnd s q x 0 [])

def execCollectiveComplete (q : Quad) (cid : BitVec 32) (s : State) : Host.Outcome State Fault Refusal :=
  .next (if colOn s then collectiveComplete q cid s else s)

/-- The deadline of a collective: TIMEOUT_US and the pace extension after its acceptance. -/
def collDeadline (x : Collective) : Nat :=
  let t := 1000 * x.desc.timeoutUs
  x.accepted + t + min (colPace x) t

/-- Sectors of a byte operation that lack data become poison. -/
def poisonRows (x : Collective) (s : State) : State :=
  let d := x.desc
  each (absent x) (fun s p =>
    each (List.range (d.sentRows p x.pos).length) (fun s i =>
      let base := d.dst + d.place p i
      each (chunks base d.cols) (fun s c =>
        if covered x p (i * d.cols + (c.1 - base)) c.2 then s else d.poison c.1 c.2 s) s) s) s

/-- Elements of other members' reduced blocks that have not come take the poison encoding. -/
def poisonBlocks (x : Collective) (s : State) : State :=
  let d := x.desc
  if d.op ≠ 1 then s
  else each ((absent x).filter (· != x.pos)) (fun s p =>
    each ((List.range (d.block p).length).zip (d.block p)) (fun s r =>
      let row := d.part1 p x.pos + r.1 * (d.pay + d.scales)
      each (List.range d.cols) (fun s c =>
        if (d.elemSpan c).all fun z => covered x p (row + z.1) z.2 then s
        else each (d.poisonElem c) (fun s z => d.writeReduced r.2 z.1 z.2 s) s) s) s) s

/-- The rows of a dispatch cannot be placed while any may be missing: every row of the own experts is poison, and the counts
are 0 (log entry 77). -/
def poisonDispatch (q : Nat) (x : Collective) (s : State) : State :=
  let d := x.desc
  let own := ((List.range 256).map (homeEnt x.emap)).filter fun h => h.valid && h.home == ownIndex s
  let s1 := each own (fun s h => each (List.range d.cap) (fun s i =>
    d.poison (d.dst + (h.slot * d.cap + i) * d.dstLd) d.cols s) s) s
  modColl (d.write d.aux1 (List.replicate 256 0) s1) q x fun y => { y with reduced := true }

/-- The destination of a collective that ends with holes. -/
def fillHoles (q : Nat) (x : Collective) (s : State) : State :=
  let d := x.desc
  if d.reduces then poisonBlocks x (if x.reduced then s else reduceOwn q x false s)
  else if d.op = 6 then (if x.reduced then s else poisonDispatch q x s)
  else if d.op = 7 then (if x.reduced then s else combinePlace q x s)
  else poisonRows x s

/-- The peer-class commands of an item that a peer's fault holds up are aborted (R292, 11 R223). -/
def abortPeers (item : Nat) (s : State) : State :=
  each (s.xlt.t4.filter fun r => r.faulted.isSome && r.item == item && (match r.who with
    | .engine _ => true
    | _ => false)) (fun s r => t4Abort 2 r s) s

/-- The deadline passed: STATUS HOLE, COL.010. -/
def collectiveTimeout (q : Nat) (cid : BitVec 32) (s : State) : State :=
  match collByCid s q cid fun x => !collDone x && decide (collDeadline x ≤ s.time) with
  | none => s
  | some x0 =>
    let gone := absent x0
    let coords := gone.map fun p => (memberCoord s (x0.members.getD p 0)).toNat
    let s1 := fillHoles q x0 s
    let x := (collNow s1 q x0).getD x0
    let l := match coords.head? with
      | some c => locCoord (BitVec.ofNat 16 c)
      | none => locDevice
    let s2 := raise s1 bCOL 10 l x.seq (BitVec.ofNat 64 (cid.toNat + gone.length * 2 ^ 32))
    pump (abortPeers x.item (colEnd (spoil x.item s2) q x 1 coords))

def execCollectiveTimeout (q : Quad) (cid : BitVec 32) (s : State) : Host.Outcome State Fault Refusal :=
  .next (if colOn s then collectiveTimeout q cid s else s)

/-! ### Pace notices (R294) -/

/-- The share of its bandwidth that a stack has, in quarters (10 Table 10.1). -/
def stackQuarters (k : StackSt) : Nat := if k.row = 4 then 1 else if k.row = 3 then 2 else 4

/-- Does a collective send every member the same bytes? -/
def ColDesc.spreads (d : ColDesc) : Bool := d.op == 3 || d.op == 5

/-- Source bytes that a collective still has to read: those of its shards that are not acknowledged, each counted once, since
the members that need the same bytes share one read (log entry 102). A reduced block is not read. -/
def readsLeft (x : Collective) : Nat :=
  let d := x.desc
  if d.srcT0 then 0
  else
    let l := (x.toSend ++ x.sent).filter fun r => !d.reduces || decide (r.shard.offs.toNat < d.part1 x.pos (x.members.idxOf r.dst))
    let first := (l.zipIdx).filter fun r => !(l.take r.2).any fun o =>
      o.shard.offs == r.1.shard.offs && (d.spreads || o.dst == r.1.dst)
    let n := (first.map fun r => r.1.shard.data.length).sum
    if d.reduces then n * (d.inBytes * d.cols) / max 1 d.wireRow else n

/-- Destination bytes that a collective still has to write: of a reduction the own block and those of other members that have
not come; else the contributions that have not come. -/
def writesLeft (x : Collective) : Nat :=
  let d := x.desc
  let here (p lo : Nat) : Nat := ((x.got.filter fun g => g.1 == p && decide (lo ≤ g.2.1)).map (·.2.2.length)).sum
  if d.dstT0 then 0
  else if d.reduces then
    (if x.reduced then 0 else (d.block x.pos).length * (d.pay + d.scales))
      + ((positions x).map fun p => d.part2 p x.pos - here p (d.part1 p x.pos)).sum
  else ((positions x).map fun p => (expected x p).getD 0 - here p 0).sum

/-- B_rem: T2 bytes that the collectives in progress still have to read or write. -/
def bytesLeft (s : State) : Nat := ((s.col.units.flatMap (·.inProg)).map fun x => readsLeft x + writesLeft x).sum

/-- D in ns for a cap of k quarters: B x (4 / k - 1) / 40.96 TB/s, to the nearest. -/
def paceNs (b k : Nat) : Nat := (2 * b * (4 - k) * 100 + k * 4096000) / (2 * k * 4096000)

/-- Members that share a collective in progress with this one. -/
def sharers (s : State) : List Nat :=
  ((s.col.units.flatMap (·.inProg)).flatMap (·.members)).foldl (fun l i => if i = ownIndex s then l else insertNat i l) []

/-- The share of its bandwidth that the most capped stack has, in quarters. -/
def capQuarters (s : State) : Nat := s.mem.stks.foldl (fun m x => min m (stackQuarters x)) 4

/-- The timer, or the beginning or end of a cap: while a stack is capped the notices carry D, at its end 0. -/
def paceTimer (s : State) : State :=
  let k := capQuarters s
  if k = 4 && !s.col.paceOn then s
  else
    let d := if k = 4 then 0 else paceNs (bytesLeft s) k
    let s1 := { s with col := { s.col with noticeNo := s.col.noticeNo + 1, paceOn := k != 4 } }
    each (sharers s) (fun s i => inject s i 6 (.paceNotice s.self.coord s.self.sliceId s1.col.noticeNo d)) s1

/-- STACK_TEMP_SAMPLE: the stacks take their rows; where a cap begins, changes or ends, pace notices go out (10 R190). -/
def stackTempSample (ts : List Int) (s : State) : State :=
  let s1 := stackTemps ts s
  if colOn s1 && capQuarters s1 != capQuarters s then paceTimer s1 else s1

def execStackTempSample (ts : List Int) (s : State) : Host.Outcome State Fault Refusal := .next (stackTempSample ts s)

def execPaceNoticeTimer (s : State) : Host.Outcome State Fault Refusal := .next (if colOn s then paceTimer s else s)

/-- A notice replaces the sender's earlier one for every collective shared with it. COL.012 is raised once where the
extension reaches TIMEOUT_US. -/
def takePace (src : BitVec 16) (number delay : Nat) (x : Collective) : Collective :=
  { x with paces := (src, number, delay) :: x.paces.filter (·.1 != src) }

def paceNotice (src slice : BitVec 16) (number delay : Nat) (s : State) : State :=
  match s.self.slice.bind fun r => indexOf s.self.dims r src with
  | none => s
  | some i =>
    if slice ≠ s.self.sliceId then s
    else
      each (List.range s.col.units.length) (fun s q =>
        each ((colUnit s q).inProg.filter fun x => x.members.contains i) (fun s x =>
          let y := takePace src number delay x
          let full := decide (1000 * x.desc.timeoutUs ≤ colPace y) && !x.paceSaid
          let s1 := modColl s q x fun z => { takePace src number delay z with paceSaid := z.paceSaid || full }
          if full then raise s1 bCOL 12 (locQuad q) x.seq 0 else s1) s) s

def execPaceNotice (src sliceId : BitVec 16) (number delayNs : Nat) (s : State) : Host.Outcome State Fault Refusal :=
  .next (if colOn s then paceNotice src sliceId number delayNs s else s)

end Sys2Proof.Machine
end

