-- ==== Sys2Proof/Machine/Vector.lean ====
section
/-! DEFINITION. The vector unit (06 R98-R104, R113-R119; 08 R158): issue checks, operand rows, and the meanings of VEW,
VCVT, VQNT, VSF, VSTAT, VSOFT and VARGMAX. -/

namespace Sys2Proof.Machine

/-! ### Issue (R98, R99, R102, R166) -/

/-- A vector instruction as issued. -/
structure VecJob where
  opc  : Nat
  func : Nat
  idx  : Nat
  d    : VecDesc
deriving DecidableEq, Repr

/-- The form of VSTAT and VSOFT: MODE without its accumulate bit. -/
def VecJob.form (j : VecJob) : Nat := j.d.mode % 128

def isFloat (f : Nat) : Bool := f == 5 || f == 6

/-- Bytes of an element of a float format. -/
def floatSize (f : Nat) : Nat := if f = 5 then 2 else 4

/-- A base and a stride are multiples of the element's size; scale arrays are byte arrays (log entry 39). -/
def vecAligned (f base ld : Nat) : Bool :=
  f ≤ 4 || (base % floatSize f == 0 && ld % floatSize f == 0)

/-- A combined count in a record of VSTAT MODE 2 is above 2^20. -/
def statCountBad (s : State) (c : Nat) (d : VecDesc) : Bool :=
  (List.range d.rows).any fun r => decide (2 ^ 20 < ofLE (csBytes s c (d.aux + 48 * r + 32) 4))

/-- The checks of one opcode on its fields (R98-R117, 08 R158). -/
def vecOpBad (s : State) (c : Nat) (j : VecJob) : Bool :=
  let d := j.d
  let hasY := d.yBase != noRegion
  match j.opc with
  | 0x50 => 7 < j.func || !isFloat d.xFmt || !isFloat d.zFmt || d.mode != 0 || (hasY && !isFloat d.yFmt)
      || (j.func < 6 && !hasY) || (hasY && !vecAligned d.yFmt d.yBase d.yLd)
  | 0x51 => j.func != 0 || d.mode != 0 || 6 < d.zFmt
  | 0x52 => j.func != 0 || !isFloat d.xFmt || 4 < d.zFmt || 7 < d.mode || d.mode % 4 == 3
      || (d.gutBase != noRegion && (15 < d.gutShift || d.gutStep == 0 || d.gutStep % 32 != 0))
  | 0x53 => 63 < j.func || !isFloat d.xFmt || d.mode != 0
      || (if slotWx s j.func then d.zFmt != 9 else !isFloat d.zFmt)
  | 0x54 => j.func != 0 || 2 < d.mode || d.aux % 4 != 0
      || (if d.mode = 2 then d.zBase % 4 != 0 || statCountBad s c d
          else !isFloat d.xFmt || d.cols == 0 || 2 ^ 20 < d.cols)
  | 0x55 => j.func != 0 || 2 < j.form || 128 < d.mode && d.mode != 129 || d.mode == 128 || !isFloat d.xFmt
      || d.aux % 4 != 0 || (j.form == 0 && !isFloat d.zFmt) || (j.form == 2 && !isFloat d.zFmt && 4 < d.zFmt)
  | 0x56 => j.func != 0 || d.mode != 0 || !(d.xFmt == 4 || isFloat d.xFmt) || d.zFmt != 6
  | _ => true

/-- VEC.002. -/
def vecBad (s : State) (c : Nat) (j : VecJob) (res : Nat) : Bool :=
  let d := j.d
  res != 0 || d.bad || 6 < d.xFmt || (6 < d.zFmt && !(j.opc == 0x53 && d.zFmt == 9))
    || !vecAligned d.xFmt d.xBase d.xLd || !vecAligned (if d.zFmt = 9 then 6 else d.zFmt) d.zBase d.zLd
    || vecOpBad s c j

/-- Cycles of Table 6.1. -/
def vecCycles (j : VecJob) : Nat :=
  let d := j.d
  let lanes := d.rows * cdiv d.cols 256
  let sf := d.rows * cdiv d.cols 64
  match j.opc with
  | 0x50 =>
    if d.xFmt = 5 ∧ d.zFmt = 5 ∧ (d.yBase = noRegion ∨ d.yFmt = 5) then d.rows * cdiv d.cols 512 else lanes
  | 0x52 => 2 * lanes
  | 0x53 => sf
  | 0x54 => lanes + 8 * d.rows
  | 0x55 => sf + 8 * d.rows
  | _ => lanes

/-- Bytes that n elements take in a row, WX32 like FP32. -/
def vecLen (f n : Nat) : Nat := if f = 9 then 4 * n else fmtLen f n

/-- Regions of a matrix operand: payload and scales. -/
def vecRegions (f base ld sbase sld rows cols : Nat) : List (Nat × Nat) :=
  region base ld rows (vecLen f cols) :: (if f ≤ 4 then [region sbase sld rows (cdiv cols 32)] else [])

/-- The precision descriptor that a VQNT names. -/
def vecPrec (s : State) (c : Nat) (h : Thread) (d : VecDesc) : Option PrecDesc :=
  if d.prob = 0xFFFF then none else precOf s c h d.prob

/-- Gutter tiles and K steps of a VQNT. -/
def gutTiles (d : VecDesc) : Nat := cdiv d.rows d.gutX
def gutSteps (d : VecDesc) : Nat := cdiv d.cols d.gutStep

/-- Input regions by opcode. -/
def vecInputs (j : VecJob) : List (Nat × Nat) :=
  let d := j.d
  let x := vecRegions d.xFmt d.xBase d.xLd d.xSbase d.xSld d.rows d.cols
  let y := if d.yBase = noRegion then [] else [region d.yBase d.yLd (if d.yLd = 0 then min 1 d.rows else d.rows) (vecLen d.yFmt d.cols)]
  match j.opc with
  | 0x50 => x ++ y
  | 0x54 => if d.mode = 2 then [region d.aux 48 d.rows 48] else x
  | 0x55 => x ++ (if j.form = 2 then [region d.aux 16 d.rows 16] else [])
  | _ => x

/-- Output regions by opcode. -/
def vecOutputs (j : VecJob) : List (Nat × Nat) :=
  let d := j.d
  let z := vecRegions d.zFmt d.zBase d.zLd d.zSbase d.zSld d.rows d.cols
  match j.opc with
  | 0x52 => z ++ (if d.gutBase = noRegion then [] else [region d.gutBase 0 1 (gutTiles d * gutSteps d * gutSize d.gutX)])
  | 0x54 => if d.mode = 2 then [region d.zBase 16 d.rows 16] else [region d.aux (if d.mode = 1 then 48 else 16) d.rows (if d.mode = 1 then 48 else 16)]
  | 0x55 => (if j.form = 1 then [] else z) ++ (if j.form = 2 then [] else [region d.aux 16 d.rows 16])
  | 0x56 => [region d.zBase d.zLd d.rows 8]
  | _ => z

/-- Z coincides exactly with X or with Y, which VEW and VSF allow. -/
def vecAlias (j : VecJob) (r : Nat × Nat) : Bool :=
  let d := j.d
  (j.opc == 0x50 || j.opc == 0x53)
    && ((d.zBase == d.xBase && d.zLd == d.xLd && d.zFmt == d.xFmt
          && r == region d.xBase d.xLd d.rows (vecLen d.xFmt d.cols))
      || (d.zBase == d.yBase && d.zLd == d.yLd && d.zFmt == d.yFmt
          && r == region d.yBase d.yLd d.rows (vecLen d.yFmt d.cols)))

/-- The checks of R99, with VEC.010 for an empty function slot before the format check that needs the slot. -/
def vecChecks (s : State) (c : Nat) (h : Thread) (opc : Nat) (w : BitVec 56) : Nat ⊕ VecJob :=
  let idx := if vecIndex w = 0xFFFF then h.pidx else vecIndex w
  if h.vdescCount ≤ idx then .inl 1
  else
    let j : VecJob := ⟨opc, vecFunc w, idx, vecDesc (csBytes s c (h.vdescBase + 128 * idx) 128)⟩
    if opc = 0x53 ∧ vecFunc w ≤ 63 ∧ !slotFull s (vecFunc w) then .inl 10
    else if vecBad s c j (vecRes w) then .inl 2
    else if 65536 < vecCycles j then .inl 3
    else if !(vecInputs j ++ vecOutputs j).all regionIn then .inl 4
    else
      let ins := (h.vdescBase, h.vdescBase + 128 * h.vdescCount) :: (vecInputs j).filter fun r => !vecAlias j r
      if (vecOutputs j).any (fun o => ins.any (regionsMeet o)) then .inl 5 else .inr j

/-- Where a vector instruction runs. -/
structure VecAt where
  c    : Nat
  slot : Nat
  item : Nat
  thr  : Thread
deriving DecidableEq, Repr

/-- Issue a vector instruction; `run` is its effect once the checks pass. It completes before its thread goes on. -/
def vecIssue (opc : Nat) (w : BitVec 56) (run : VecAt → VecJob → State → State) (c t : Nat) (pc : Word64) (s : State) :
    State :=
  let h := thrAt s c t
  match vecChecks s c h opc w with
  | .inl code => issueFault s c t pc bVEC code
  | .inr j => run ⟨c, h.seq, h.item, h⟩ j (ctrAdd s (ctrCluster c 5) (vecCycles j))

/-! ### Operand rows (R100-R102) -/

/-- A float element in a store; a poisoned sector poisons it. -/
def floatAt (s : State) (c f a : Nat) : Fv :=
  if csBad s c a then Fv.poison
  else if f = 5 then Fv.ofBits (BitVec.ofNat 32 (ofLE (csBytes s c a 2) * 65536))
  else Fv.ofBits (BitVec.ofNat 32 (ofLE (csBytes s c a 4)))

/-- The in-extent elements of a row, with the marker flag. -/
def vecRow (s : State) (c f base ld sbase sld row cols : Nat) : List (Fv × Bool) :=
  if f ≤ 4 then
    ((rowElems s c f ⟨base, ld, sbase, sld, noRegion⟩ row (row + 1) cols (fun _ => some Dy.zero) (fun _ => none) 0
      (roundUp cols 32)).take cols).map fun e => (Fv.of e.v, e.bare)
  else (List.range cols).map fun i => (floatAt s c f (base + row * ld + floatSize f * i), false)

def rowX (s : State) (c : Nat) (d : VecDesc) (row : Nat) : List (Fv × Bool) :=
  vecRow s c d.xFmt d.xBase d.xLd d.xSbase d.xSld row d.cols
def rowY (s : State) (c : Nat) (d : VecDesc) (row : Nat) : List Fv :=
  (vecRow s c d.yFmt d.yBase d.yLd 0 0 row d.cols).map (·.1)
def rowZ (s : State) (c : Nat) (d : VecDesc) (row : Nat) : List Fv :=
  (vecRow s c d.zFmt d.zBase d.zLd 0 0 row d.cols).map (·.1)

/-- The sectors that an instruction reads are read: errors are corrected or poison their sector (R102). -/
def vecTouch (w : VecAt) (s : State) (ranges : List (Nat × Nat)) : State := touchAll s bVEC w.c w.slot ranges

/-- Ranges of a matrix operand, row by row. -/
def matRanges (f base ld sbase sld rows cols : Nat) : List (Nat × Nat) :=
  (List.range rows).flatMap fun r => rowRanges f ⟨base, ld, sbase, sld, noRegion⟩ r rows cols 0 cols

def rangesX (d : VecDesc) : List (Nat × Nat) := matRanges d.xFmt d.xBase d.xLd d.xSbase d.xSld d.rows d.cols

/-- Raise an event once, when a condition holds. -/
def raiseIf (b : Bool) (s : State) (block num c slot : Nat) : State :=
  if b then raise s block num (locCluster c) slot 0 else s

/-- VEC.030 and MXE.031 of an instruction whose operands hold poison or a bare marker (R36, R41). -/
def vecEvents (w : VecAt) (s : State) (poison bare : Bool) : State :=
  raiseIf bare (raiseIf poison s bVEC 30 w.c w.slot) bMXE 31 w.c w.slot

/-- Bytes of a float result in a format (9 is WX32). -/
def floatBytes (f : Nat) (x : Fv) : List Byte :=
  if f = 5 then leBytes 2 x.bits16.toNat else if f = 9 then leBytes 4 (toWx32 x.v).toNat else leBytes 4 x.bits.toNat

/-- A block of a row of Z as it is quantised: its in-extent values, padded with zeros. -/
def rowBlock (f : Nat) (xs : List Fv) (b : Nat) : Block :=
  let vals := (xs.drop (32 * b)).take 32
  encPlain f (vals.map (·.v) ++ List.replicate (32 - vals.length) (some Dy.zero))

/-- Elements of a row that saturate as it is quantised (03 R39). -/
def rowSats (f : Nat) (xs : List Fv) : Nat :=
  if f ≤ 4 then ((List.range (cdiv xs.length 32)).map fun b => ((rowBlock f xs b).sat.filter id).length).sum else 0

/-- The cluster keeps the counts of the conversion, by gutter region or by row. -/
def noteSats (s : State) (c : Nat) (l : List Nat) : State := modCl s c fun cl => { cl with vecSat := l }

/-- Write the in-extent elements of a row of Z: floats rounded once, or blocks under R37, R38 and R74. -/
def writeRow (c : Nat) (d : VecDesc) (row : Nat) (xs : List Fv) (s : State) : State :=
  if d.zFmt ≤ 4 then
    each (List.range (cdiv xs.length 32)) (fun s b =>
      let vals := (xs.drop (32 * b)).take 32
      let e := rowBlock d.zFmt xs b
      csWrite (csWrite s c (d.zBase + row * d.zLd + b * payBytes d.zFmt)
          (packElems d.zFmt (e.codes.take vals.length ++ List.replicate (32 - vals.length) 0))) c
        (d.zSbase + row * d.zSld + b) [BitVec.ofNat 8 e.bse]) s
  else csWrite s c (d.zBase + row * d.zLd) (xs.flatMap (floatBytes d.zFmt))

/-! ### VEW, VCVT, VSF (Table 6.1, R105) -/

/-- One element of VEW before it is rounded. -/
def vewExact (func : Nat) (x y z : Fv) : Fv :=
  match func with
  | 0 => x.addX y
  | 1 => x.subX y
  | 2 => x.mulX y
  | 3 => x.fmaX y z
  | 4 => x.minX y
  | 5 => x.maxX y
  | 6 => x.absX
  | _ => x.negX

/-- One element of VEW: the FP32 result, rounded once more where Z_FMT is BF16 (R100). -/
def vewElem (func : Nat) (x y z : Fv) : Fv := (vewExact func x y z).rnd

/-- VEW over its rows. All operands are read before a row is written; Z may coincide with X or Y only exactly. -/
def vewRun (w : VecAt) (j : VecJob) (s : State) : State :=
  let d := j.d
  let useY := decide (j.func < 6)
  let useZ := j.func == 3
  let s1 := vecTouch w s (rangesX d ++ (if useY then matRanges d.yFmt d.yBase d.yLd 0 0 d.rows d.cols else [])
    ++ (if useZ then matRanges d.zFmt d.zBase d.zLd 0 0 d.rows d.cols else []))
  let rows := (List.range d.rows).map fun r =>
    let x := (rowX s1 w.c d r).map (·.1)
    let y := if useY then rowY s1 w.c d r else x
    let z := if useZ then rowZ s1 w.c d r else x
    (x ++ y ++ z, (x.zip (y.zip z)).map fun v => vewElem j.func v.1 v.2.1 v.2.2)
  let s2 := vecEvents w s1 (rows.any fun r => r.1.any (·.v.isNone)) false
  each ((List.range d.rows).zip rows) (fun s r => writeRow w.c d r.1 r.2.2 s) s2

/-- VEW (Table 6.1, R100). -/
def execVew (c : Cluster) (w : BitVec 56) (s : State) : Host.Outcome State Fault Refusal :=
  .next (issue s c 8 (vecIssue 0x50 w vewRun c))

/-- VCVT: conversion under Table 3.7. -/
def vcvtRun (w : VecAt) (j : VecJob) (s : State) : State :=
  let d := j.d
  let s1 := vecTouch w s (rangesX d)
  let rows := (List.range d.rows).map (rowX s1 w.c d)
  let s2 := vecEvents w s1 (rows.any fun r => r.any (·.1.v.isNone)) (rows.any fun r => r.any (·.2))
  let s3 := noteSats s2 w.c (rows.map fun r => rowSats d.zFmt (r.map (·.1)))
  each ((List.range d.rows).zip rows) (fun s r => writeRow w.c d r.1 (r.2.map (·.1)) s) s3

/-- VCVT (Table 6.1, 03 R53). -/
def execVcvt (c : Cluster) (w : BitVec 56) (s : State) : Host.Outcome State Fault Refusal :=
  .next (issue s c 8 (vecIssue 0x51 w vcvtRun c))

/-- VSF: a function slot on each element. -/
def vsfRun (w : VecAt) (j : VecJob) (s : State) : State :=
  let d := j.d
  let s1 := vecTouch w s (rangesX d)
  let rows := (List.range d.rows).map fun r => (rowX s1 w.c d r).map (·.1)
  let outs := rows.map fun r => r.map (evalSlot s1 j.func)
  let s2 := vecEvents w s1 (rows.any fun r => r.any (·.v.isNone)) false
  let s3 := raiseIf (outs.any fun r => r.any (·.2)) s2 bVEC 11 w.c w.slot
  each ((List.range d.rows).zip outs) (fun s r => writeRow w.c d r.1 (r.2.map (·.1)) s) s3

/-- VSF (R105, R106, R111). -/
def execVsf (c : Cluster) (w : BitVec 56) (s : State) : Host.Outcome State Fault Refusal :=
  .next (issue s c 8 (vecIssue 0x53 w vsfRun c))

/-! ### VQNT (R103, R104; 05 R80, R93) -/

/-- A channel that a gutter region takes: its column and s_k. -/
def gutPicks (shift : Nat) (sk : List (Nat × Dy)) : List Nat × Bool :=
  let sorted := sk.mergeSort fun a b => Dy.le a.2 b.2
  let ref := (sorted.getD ((sorted.length - 1) / 2) (0, Dy.zero)).2
  let qual := sk.filter fun p => Dy.lt (ref.scale shift) p.2
  let byMag := qual.mergeSort fun a b => Dy.lt b.2 a.2 || (Dy.le b.2 a.2 && a.1 ≤ b.1)
  (((byMag.take 8).map (·.1)).mergeSort (· ≤ ·), decide (8 < qual.length))

/-- Rows and columns of region (t, k) of a VQNT. -/
def gutRows (d : VecDesc) (t : Nat) : List Nat := (List.range (min d.gutX (d.rows - t * d.gutX))).map (· + t * d.gutX)
def gutCols (d : VecDesc) (k : Nat) : List Nat := (List.range (min d.gutStep (d.cols - k * d.gutStep))).map (· + k * d.gutStep)

/-- An element of a matrix of rows. -/
def cellOf (m : List (List Val)) (r k : Nat) : Val := (m.getD r []).getD k (some Dy.zero)

/-- The channels taken in one region, and OVERFLOW. A channel's s_k leaves poisoned positions out. -/
def gutTake (d : VecDesc) (m : List (List Val)) (t k : Nat) : List Nat × Bool :=
  gutPicks d.gutShift ((gutCols d k).map fun col => (col, amaxOf ((gutRows d t).filterMap fun r => cellOf m r col)))

/-- V8 blocks of a taken channel along the rows of its tile. -/
def gutBlocks (d : VecDesc) (m : List (List Val)) (t col : Nat) : List Block :=
  (List.range (cdiv d.gutX 32)).map fun b =>
    encPlain 4 ((List.range 32).map fun i =>
      let x := 32 * b + i
      if x < d.gutX ∧ t * d.gutX + x < d.rows then cellOf m (t * d.gutX + x) col else some Dy.zero)

/-- The bytes of a region (Table 5.1). -/
def gutBytes (d : VecDesc) (m : List (List Val)) (t k : Nat) : List Byte :=
  let p := gutTake d m t k
  let ent := p.1.map (gutBlocks d m t)
  let left := 8 - p.1.length
  leBytes 8 (p.1.length + 256 * p.2.toNat)
    ++ (p.1 ++ List.replicate left 0).flatMap (leBytes 4)
    ++ List.replicate 24 0
    ++ (ent.flatMap fun bs => (bs.flatMap (·.codes)).take d.gutX |>.map (BitVec.ofNat 8))
    ++ List.replicate (left * d.gutX) 0
    ++ (ent.flatMap fun bs => bs.map fun b => BitVec.ofNat 8 b.bse) ++ List.replicate (left * cdiv d.gutX 32) 0

/-- The value that a lifted element decodes to, and whether it saturated. -/
def gutDecode (d : VecDesc) (m : List (List Val)) (t col r : Nat) : Val × Bool :=
  let x := r - t * d.gutX
  let b := (gutBlocks d m t col).getD (x / 32) ⟨255, [], []⟩
  (elemVal 4 (b.codes.getD (x % 32) 0) b.bse, b.sat.getD (x % 32) false)

/-- VQNT: x' is x plus the previous residual where error feedback is in force. -/
def vqntRun (w : VecAt) (j : VecJob) (s : State) : State :=
  let d := j.d
  let s1 := vecTouch w s (rangesX d)
  let res := resInForce (vecPrec s1 w.c w.thr d) d.rows d.cols
  let valid := historyValid s1 w.slot w.item
  let nb := cdiv d.cols 32
  let blocks := (List.range d.rows).flatMap fun r => (List.range nb).map fun b => (r, b)
  let s2 := match res with
    | some p => if valid then touchResiduals s1 bVEC w.c w.slot p blocks else s1
    | none => s1
  let xs := (List.range d.rows).map fun r => (rowX s2 w.c d r).map (·.1.v)
  let m := (List.range d.rows).map fun r =>
    ((List.range d.cols).zip (xs.getD r [])).map fun v =>
      match prevResidual s2 w.c res valid r (v.1 / 32) with
      | none => v.2
      | some l => rnd32 (v.2.map fun x => x.add (l.getD (v.1 % 32) Dy.zero))
  let gut := d.gutBase != noRegion
  let taken := if gut then
      (List.range (gutTiles d)).map fun t => (List.range (gutSteps d)).map fun k => (gutTake d m t k).1
    else []
  let lifted (r col : Nat) : Bool :=
    gut && (((taken.getD (r / d.gutX) []).getD (col / d.gutStep) []).contains col)
  let quant (r b : Nat) : List Val × List Bool × Block :=
    let n := min 32 (d.cols - 32 * b)
    let vals := (List.range 32).map fun i => if i < n then cellOf m r (32 * b + i) else some Dy.zero
    let lift := (List.range 32).map fun i => decide (i < n) && lifted r (32 * b + i)
    (vals, lift, encBlock d.zFmt vals lift)
  let satAt (r col : Nat) : Bool :=
    if lifted r col then (gutDecode d m (r / d.gutX) col r).2 else (quant r (col / 32)).2.2.sat.getD (col % 32) false
  let count (rs cols : List Nat) : Nat := (rs.map fun r => (cols.filter (satAt r)).length).sum
  let sats := if gut then
      (regionOrder d.mode (d.mode / 4 % 2) (gutTiles d) (gutSteps d) d.gutOther).map fun tk =>
        count (gutRows d tk.1) (gutCols d tk.2)
    else (List.range d.rows).map fun r => count [r] (List.range d.cols)
  let s3 := noteSats (vecEvents w s2 (xs.any fun r => r.any (·.isNone)) false) w.c sats
  let s4 := each blocks (fun s rb =>
    let n := min 32 (d.cols - 32 * rb.2)
    let inside := (List.range 32).map fun i => decide (i < n)
    let q := quant rb.1 rb.2
    let vals := q.1
    let lift := q.2.1
    let e := q.2.2
    let codes := (e.codes.zip inside).map fun v => if v.2 then v.1 else 0
    let s1 := csWrite (csWrite s w.c (d.zBase + rb.1 * d.zLd + rb.2 * payBytes d.zFmt) (packElems d.zFmt codes)) w.c
      (d.zSbase + rb.1 * d.zSld + rb.2) [BitVec.ofNat 8 e.bse]
    match res with
    | none => s1
    | some p =>
      let rs := (List.range 32).map fun i =>
        let x := vals.getD i (some Dy.zero)
        if lift.getD i false then
          let g := gutDecode d m (rb.1 / d.gutX) (32 * rb.2 + i) rb.1
          if x.isNone then none else if g.2 then some Dy.zero else Val.map2 Dy.sub x g.1
        else if x.isNone then none
        else if e.sat.getD i false then some Dy.zero
        else Val.map2 Dy.sub x (elemVal d.zFmt (codes.getD i 0) e.bse)
      csWrites s1 w.c (residualWrites p ⟨rb.1, rb.2, inside, vals, e, [], rs⟩)) s3
  if gut then
    each ((List.range (gutTiles d)).flatMap fun t => (List.range (gutSteps d)).map fun k => (t, k)) (fun s tk =>
      let order := regionOrder d.mode (d.mode / 4 % 2) (gutTiles d) (gutSteps d) d.gutOther
      csWrite s w.c (d.gutBase + regionIndex order tk.1 tk.2 * gutSize d.gutX) (gutBytes d m tk.1 tk.2)) s4
  else s4

/-- VQNT (R103, R104). -/
def execVqnt (c : Cluster) (w : BitVec 56) (s : State) : Host.Outcome State Fault Refusal :=
  .next (issue s c 8 (vecIssue 0x52 w vqntRun c))

/-! ### VSTAT (R113-R115) -/

/-- Row sums s1 and s2 in LA96. -/
def statSums (a1 a2 : Int) (xs : List Val) : LaElem × LaElem :=
  xs.foldl (fun acc x => (laAdd a1 acc.1 x (some ⟨1, 0⟩), laAdd a2 acc.2 x x)) (LaElem.zero, LaElem.zero)

/-- e of R113: the least integer with |x| < 2^e for every element, -149 if all are zero. -/
def statExp (xs : List Val) : Int :=
  let a := amaxOf (xs.filterMap id)
  if a.n = 0 then -149 else ilog2 a.n.natAbs 1 + a.e + 1

/-- mean, var and d < 0 from the sums of n elements (R113). -/
def statMoments (a1 a2 : Int) (s1 s2 : LaElem) (n : Nat) : BitVec 32 × BitVec 32 × Bool :=
  let e1 := laE s1
  let mean := fp32Rat (e1 < 0) e1.natAbs n a1
  let d := (Dy.mk ((n : Int) * laE s2) (a2 - 2 * a1)).sub ⟨e1 * e1, 0⟩
  let v := if d.n < 0 then Dy.zero else d
  (mean, fp32Rat false v.n.natAbs (n * n) (v.e + 2 * a1), decide (d.n < 0))

/-- The 16-byte record of R113, and whether slot 6 left its domain. A count of 0 has no stated moments: `free` stands for
their bits. -/
def statRecord (eps : BitVec 32) (a1 a2 : Int) (s1 s2 : LaElem) (n : Nat) (free : Nat → BitVec 32) : List Byte × Bool :=
  let flags := (s1.inexact || s2.inexact).toNat + 2 * (laOver s1 || laOver s2).toNat
  if s1.poison || s2.poison then
    (leBytes 4 0x7FC00000 ++ leBytes 4 0x7FC00000 ++ leBytes 4 0x7FC00000 ++ leBytes 4 (flags + 4), false)
  else
    let m := if n = 0 then (free 0, free 1, false) else statMoments a1 a2 s1 s2 n
    let r := shipped 6 (((Fv.ofBits m.2.1).addX (Fv.ofBits eps)).rnd)
    (leBytes 4 m.1.toNat ++ leBytes 4 m.2.1.toNat ++ leBytes 4 r.1.bits.toNat
      ++ leBytes 4 (flags + 8 * m.2.2.toNat), r.2)

/-- FP32 bits held to finite values (03 R40). -/
def finFp32 (b : Nat) : BitVec 32 := BitVec.ofNat 32 (if bits b 30 23 = 255 then b % 2 ^ 23 else b)

/-- Free FP32 values of row r of an instruction, where no value is stated (log entry 3). -/
def freeBits (s : State) (r i : Nat) : BitVec 32 := finFp32 (Config.freeNat (s.free + r) (113 + i))

/-- The free values of n rows are drawn. -/
def drewRows (s : State) (n : Nat) : State := { s with free := s.free + n }

/-- R115: an element with |x| ≥ 2^EMAX sets LA_OVER in both sums of its partial record. -/
def statOver (emax : Int) (xs : List Val) (q : LaElem × LaElem) : LaElem × LaElem :=
  let o := xs.any fun x => match x with
    | some d => decide (d.n ≠ 0) && decide (emax < statExp [x])
    | none => false
  (if o then { q.1 with ovf := true } else q.1, if o then { q.2 with ovf := true } else q.2)

/-- VSTAT in MODE 0 and 1: row sums with the row's own window, or with that of EMAX. -/
def vstatRun (w : VecAt) (j : VecJob) (s : State) : State :=
  let d := j.d
  let s1 := vecTouch w s (rangesX d)
  let rows := (List.range d.rows).map fun r => (rowX s1 w.c d r).map (·.1.v)
  let s2 := vecEvents w s1 (rows.any fun r => r.any (·.isNone)) false
  let recs := ((List.range d.rows).zip rows).map fun r =>
    let e := if d.mode = 1 then d.emax else statExp r.2
    let c : Int := if d.mode = 1 then 20 else (clog2 d.cols : Nat)
    let a1 := e + c - 95
    let a2 := 2 * e + c - 95
    let q := statSums a1 a2 r.2
    if d.mode = 1 then
      let q := statOver e r.2 q
      (laBytes q.1 ++ laBytes q.2 ++ leBytes 4 d.cols ++ leBytes 12 (field 8 d.emax), false)
    else statRecord d.eps a1 a2 q.1 q.2 d.cols (freeBits s2 r.1)
  let len := if d.mode = 1 then 48 else 16
  let s3 := raiseIf (recs.any (·.2)) s2 bVEC 11 w.c w.slot
  each ((List.range d.rows).zip recs) (fun s r => csWrite s w.c (d.aux + len * r.1) r.2.1) s3

/-- VSTAT in MODE 2: records of partial sums become records of moments. -/
def vstatCombineRun (w : VecAt) (j : VecJob) (s : State) : State :=
  let d := j.d
  let s1 := vecTouch w s ((List.range d.rows).map fun r => (d.aux + 48 * r, 48))
  let recs := (List.range d.rows).map fun r =>
    let bs := csBytes s1 w.c (d.aux + 48 * r) 48
    let bad := csBadRange s1 w.c (d.aux + 48 * r) 48
    let a := laOfBytes (bs.take 16)
    let b := laOfBytes ((bs.drop 16).take 16)
    (bad || a.poison || b.poison,
      statRecord d.eps (d.emax + 20 - 95) (2 * d.emax + 20 - 95) { a with poison := a.poison || bad } b (fld bs 32 4)
        (freeBits s1 r))
  let s2 := raiseIf (recs.any (·.1)) s1 bVEC 30 w.c w.slot
  let s3 := raiseIf (recs.any (·.2.2)) s2 bVEC 11 w.c w.slot
  drewRows (each ((List.range d.rows).zip recs) (fun s r => csWrite s w.c (d.zBase + 16 * r.1) r.2.2.1) s3) d.rows

/-- MODE of the descriptor that a VSTAT or VSOFT of the issuing thread names; the mode selects the command's form. -/
def vecModeOf (s : State) (c : Nat) (w : BitVec 56) : Nat :=
  match pickThread s c with
  | none => 0
  | some t =>
    let h := thrAt s c t
    let idx := if vecIndex w = 0xFFFF then h.pidx else vecIndex w
    if h.vdescCount ≤ idx then 0 else (vecDesc (csBytes s c (h.vdescBase + 128 * idx) 128)).mode

/-- The form of a mode: 1 and 2 name themselves, everything else belongs to the first form, which faults on it. -/
def modeForm (accBit : Bool) (m : Nat) : Nat :=
  if m = 1 ∨ (accBit ∧ m = 129) then 1 else if m = 2 then 2 else 0

/-- VSTAT, MODE 0 (R113). -/
def execVstat (c : Cluster) (w : BitVec 56) (s : State) : Host.Outcome State Fault Refusal :=
  .next (if modeForm false (vecModeOf s c w) = 0 then issue s c 8 (vecIssue 0x54 w vstatRun c) else s)

/-- VSTAT, MODE 1 (R115). -/
def execVstatPartial (c : Cluster) (w : BitVec 56) (s : State) : Host.Outcome State Fault Refusal :=
  .next (if modeForm false (vecModeOf s c w) = 1 then issue s c 8 (vecIssue 0x54 w vstatRun c) else s)

/-- VSTAT, MODE 2 (R115). -/
def execVstatCombine (c : Cluster) (w : BitVec 56) (s : State) : Host.Outcome State Fault Refusal :=
  .next (if modeForm false (vecModeOf s c w) = 2 then issue s c 8 (vecIssue 0x54 w vstatCombineRun c) else s)

/-! ### VSOFT (R116-R118) -/

/-- Addition in WX32. -/
def wxAdd (x y : Val) : Val := ofWx32 (toWx32 (Val.map2 Dy.add x y))

/-- The pairwise tree of R116 over 2^k positions padded with +0. -/
def wxTree : Nat → List Val → Val
  | 0, xs => xs.headD (some Dy.zero)
  | k + 1, xs =>
    wxTree k ((List.range (cdiv xs.length 2)).map fun i =>
      wxAdd (xs.getD (2 * i) (some Dy.zero)) (xs.getD (2 * i + 1) (some Dy.zero)))

/-- A logit after the clamp of R116, and whether it was clamped. -/
def clampLogit (x : Val) : Val × Bool :=
  match x with
  | some d => if Dy.lt ⟨1400, 0⟩ d.abs then (some ⟨if d.n < 0 then -1400 else 1400, 0⟩, true) else (x, false)
  | none => (none, false)

/-- u of a logit. -/
def softU (x : Val) : Val := x.bind fun d => (sfuIn 2 d).v

/-- ln S rounded into FP32; S = 0 has no stated logarithm and is free. -/
def softLse (s : State) (row : Nat) (x : Val) : Val :=
  match x with
  | some d => if d.n = 0 then ofFp32 (freeBits s row 3) else rnd32 (some (ofFix (trueLn d)))
  | none => none

/-- u / S rounded once into a float format; a value below the smallest subnormal becomes +0 (Table 6.6). -/
def softP (f : Nat) (u t : Val) : Fv :=
  match u, t with
  | some a, some b =>
    if b.n = 0 then Fv.poison
    else if a.n = 0 then Fv.of (some Dy.zero)
    else
      let k := if f = 5 then binBf16 else binFp32
      if ilog2 a.n.natAbs b.n.natAbs + (a.e - b.e) < k.qmin then Fv.of (some Dy.zero)
      else
        let q := roundRat k a.n.natAbs b.n.natAbs (a.e - b.e)
        Fv.of (some ⟨q.1, q.2⟩)
  | _, _ => Fv.poison

/-- The 16-byte record of R116. -/
def softRecord (lse : Val) (sum : Val) (count flags : Nat) : List Byte :=
  leBytes 4 (toFp32 lse).toNat ++ leBytes 4 (toWx32 sum).toNat ++ leBytes 4 count ++ leBytes 4 flags

/-- One row of MODE 0 or 1: clamp, exponentials, sum; accumulation into the record with MODE[7]; the record, and the
probabilities in MODE 0. -/
def softRow (w : VecAt) (d : VecDesc) (s : State) (row : Nat) (xs : List Val) : State :=
  let cl := xs.map clampLogit
  let us := cl.map fun x => softU x.1
  let sum0 := wxTree (clog2 xs.length) us
  let acc := decide (128 ≤ d.mode)
  let old := csBytes s w.c (d.aux + 16 * row) 16
  let oldBad := acc && csBadRange s w.c (d.aux + 16 * row) 16
  let sum := if acc then (if oldBad then none else wxAdd sum0 (ofWx32 (BitVec.ofNat 32 (fld old 4 4)))) else sum0
  let count := xs.length + if acc then fld old 8 4 else 0
  let ovf := decide (2 ^ 27 < count)
  let oldFlags := if acc then fld old 12 4 else 0
  let bit (i : Nat) (b : Bool) : Nat := if b || bitOn oldFlags i then 2 ^ i else 0
  let flags := bit 0 (cl.any (·.2)) + bit 1 ovf + bit 2 (xs.any (·.isNone) || oldBad)
  let s1 := raiseIf ovf s bATT 12 w.c w.slot
  let s2 := csWrite s1 w.c (d.aux + 16 * row) (softRecord (softLse s row sum) sum (count % 2 ^ 32) flags)
  if d.mode = 0 then writeRow w.c d row (us.map fun u => softP d.zFmt u sum) s2 else s2

/-- VSOFT in MODE 0 and MODE 1. -/
def vsoftRun (w : VecAt) (j : VecJob) (s : State) : State :=
  let d := j.d
  let s1 := vecTouch w s (rangesX d ++ (if 128 ≤ d.mode then (List.range d.rows).map fun r => (d.aux + 16 * r, 16) else []))
  let rows := (List.range d.rows).map fun r => (rowX s1 w.c d r).map (·.1.v)
  let s2 := vecEvents w s1 (rows.any fun r => r.any (·.isNone)) false
  let s3 := raiseIf (rows.any fun r => r.any fun x => (clampLogit x).2) s2 bATT 11 w.c w.slot
  drewRows (each ((List.range d.rows).zip rows) (fun s r => softRow w d s r.1 r.2) s3) d.rows

/-- VSOFT in MODE 2: probabilities from the saved LSE (R117). -/
def vsoftProbRun (w : VecAt) (j : VecJob) (s : State) : State :=
  let d := j.d
  let s1 := vecTouch w s (rangesX d ++ (List.range d.rows).map fun r => (d.aux + 16 * r, 16))
  let rows := (List.range d.rows).map fun r =>
    let lse := (floatAt s1 w.c 6 (d.aux + 16 * r)).v
    (rowX s1 w.c d r).map fun x => (x.1.v, clampLogit (Val.map2 Dy.sub x.1.v lse))
  let s2 := vecEvents w s1 (rows.any fun r => r.any fun x => x.1.isNone || x.2.1.isNone) false
  let s3 := raiseIf (rows.any fun r => r.any fun x => x.2.2) s2 bATT 11 w.c w.slot
  each ((List.range d.rows).zip rows) (fun s r => writeRow w.c d r.1 (r.2.map fun x => Fv.of (softU x.2.1)) s) s3

/-- VSOFT, MODE 0 (R116). -/
def execVsoft (c : Cluster) (w : BitVec 56) (s : State) : Host.Outcome State Fault Refusal :=
  .next (if modeForm true (vecModeOf s c w) = 0 then issue s c 8 (vecIssue 0x55 w vsoftRun c) else s)

/-- VSOFT, MODE 1, with MODE[7] clear or set (R117). -/
def execVsoftSum (c : Cluster) (w : BitVec 56) (s : State) : Host.Outcome State Fault Refusal :=
  .next (if modeForm true (vecModeOf s c w) = 1 then issue s c 8 (vecIssue 0x55 w vsoftRun c) else s)

/-- VSOFT, MODE 2 (R117). -/
def execVsoftProb (c : Cluster) (w : BitVec 56) (s : State) : Host.Outcome State Fault Refusal :=
  .next (if modeForm true (vecModeOf s c w) = 2 then issue s c 8 (vecIssue 0x55 w vsoftProbRun c) else s)

/-! ### VARGMAX (08 R158) -/

/-- Index and value of the greatest element; a tie goes to the lowest column. None for no columns. -/
def argmax (xs : List Fv) : Option (Nat × Fv) :=
  ((List.range xs.length).zip xs).foldl (fun best x =>
    match best with
    | none => some x
    | some b =>
      match b.2.v, x.2.v with
      | some p, some q => if Dy.lt p q then some x else some b
      | _, _ => some b) none

/-- VARGMAX. A row without columns has no stated index: it is free. -/
def vargmaxRun (w : VecAt) (j : VecJob) (s : State) : State :=
  let d := j.d
  let s1 := vecTouch w s (rangesX d)
  let rows := (List.range d.rows).map (rowX s1 w.c d)
  let s2 := vecEvents w s1 (rows.any fun r => r.any (·.1.v.isNone)) (rows.any fun r => r.any (·.2))
  drewRows (each ((List.range d.rows).zip rows) (fun s r =>
    let xs := r.2.map (·.1)
    let out := if xs.any (·.v.isNone) then (0xFFFFFFFF, (0x7FC00000 : BitVec 32))
      else match argmax xs with
        | some b => (b.1, b.2.bits)
        | none => ((freeBits s r.1 4).toNat, freeBits s r.1 5)
    csWrite s w.c (d.zBase + d.zLd * r.1) (leBytes 4 out.1 ++ leBytes 4 out.2.toNat)) s2) d.rows

/-- VARGMAX (08 R158). -/
def execVargmax (c : Cluster) (w : BitVec 56) (s : State) : Host.Outcome State Fault Refusal :=
  .next (issue s c 8 (vecIssue 0x56 w vargmaxRun c))

end Sys2Proof.Machine
end

