-- ==== Sys2Proof/Machine/Detect.lean ====
section
/-! DEFINITION. Detection post-processing (08 R159-R161): box decoding and suppression of overlapping boxes. -/

namespace Sys2Proof.Machine

/-- The detection descriptor (Table 8.5). -/
structure DetDesc where
  n      : Nat
  dBase  : Nat
  sBase  : Nat
  pBase  : Nat
  bBase  : Nat
  kBase  : Nat
  cnt    : Nat
  oBase  : Nat
  cBase  : Nat
  sy     : Fv
  sx     : Fv
  shw    : Fv
  clip   : Fv
  scoreTh : Fv
  iouTh  : Fv
  picH   : Fv
  picW   : Fv
  fmt    : Nat
  maxout : Nat
  bad    : Bool
deriving DecidableEq, Repr

def fvFld (bs : List Byte) (o : Nat) : Fv := Fv.ofBits (BitVec.ofNat 32 (fld bs o 4))

def detDesc (bs : List Byte) : DetDesc :=
  { n := fld bs 0 4, dBase := fld bs 4 4, sBase := fld bs 8 4, pBase := fld bs 0xC 4, bBase := fld bs 0x10 4,
    kBase := fld bs 0x14 4, cnt := fld bs 0x18 4, oBase := fld bs 0x1C 4, cBase := fld bs 0x20 4, sy := fvFld bs 0x24,
    sx := fvFld bs 0x28, shw := fvFld bs 0x2C, clip := fvFld bs 0x30, scoreTh := fvFld bs 0x34, iouTh := fvFld bs 0x38,
    picH := fvFld bs 0x3C, picW := fvFld bs 0x40, fmt := fld bs 0x44 1, maxout := fld bs 0x46 2,
    bad := !(zeroIn bs 0x45 0x46 && zeroIn bs 0x48 0x80) }

/-- The sixteen detection-capable clusters. -/
def detCluster (c : Nat) : Bool := c % 36 < 4

/-- VEC.002 of a detection instruction: alignment is to element size. -/
def detBad (func res : Nat) (d : DetDesc) : Bool :=
  res != 0 || 1 < func || d.bad || d.n == 0 || 65536 < d.n || !isFloat d.fmt || d.maxout == 0 || 256 < d.maxout
    || d.dBase % floatSize d.fmt != 0 || d.sBase % floatSize d.fmt != 0 || d.pBase % 4 != 0 || d.bBase % 4 != 0
    || d.kBase % 4 != 0 || d.cnt % 4 != 0 || d.oBase % 4 != 0 || (d.cBase != noRegion && d.cBase % 2 != 0)

/-- Cycles: those of DBOX, and those of DNMS for a count (R160, R161). -/
def dboxCycles (d : DetDesc) : Nat := 4 * cdiv d.n 64
def dnmsCycles (d : DetDesc) (nc : Nat) : Nat :=
  let n := min nc 2048
  cdiv nc 64 + 12 * n + n * cdiv d.maxout 64

def detRegion (base n size : Nat) : Nat × Nat := region base size n size

/-- Inputs and outputs of DBOX and DNMS. -/
def detInputs (nms : Bool) (d : DetDesc) : List (Nat × Nat) :=
  if nms then
    [detRegion d.kBase d.n 4, detRegion d.sBase d.n (floatSize d.fmt), detRegion d.bBase d.n 16, detRegion d.cnt 1 4]
      ++ (if d.cBase = noRegion then [] else [detRegion d.cBase d.n 2])
  else [detRegion d.dBase d.n (4 * floatSize d.fmt), detRegion d.sBase d.n (floatSize d.fmt), detRegion d.pBase d.n 16]

def detOutputs (nms : Bool) (d : DetDesc) : List (Nat × Nat) :=
  if nms then [detRegion d.oBase d.maxout 4, detRegion (d.cnt + 4) 1 8]
  else [detRegion d.bBase d.n 16, detRegion d.kBase d.n 4, detRegion d.cnt 1 4]

/-- The checks of R159: CNV.010, then those of R99 with VEC codes. -/
def detChecks (s : State) (c : Nat) (h : Thread) (nms : Bool) (w : BitVec 56) : (Nat × Nat) ⊕ DetDesc :=
  let idx := if vecIndex w = 0xFFFF then h.pidx else vecIndex w
  if !detCluster c then .inl (bCNV, 10)
  else if h.vdescCount ≤ idx then .inl (bVEC, 1)
  else
    let d := detDesc (csBytes s c (h.vdescBase + 128 * idx) 128)
    if detBad (vecFunc w) (vecRes w) d then .inl (bVEC, 2)
    else if 65536 < (if nms then dnmsCycles d d.n else dboxCycles d) then .inl (bVEC, 3)
    else if !(detInputs nms d ++ detOutputs nms d).all regionIn then .inl (bVEC, 4)
    else if (detOutputs nms d).any (fun o =>
        ((h.vdescBase, h.vdescBase + 128 * h.vdescCount) :: detInputs nms d).any (regionsMeet o)) then .inl (bVEC, 5)
    else .inr d

/-- A box: y0, x0, y1, x1. -/
structure BoxF where
  y0 : Fv
  x0 : Fv
  y1 : Fv
  x1 : Fv
deriving DecidableEq, Repr

def BoxF.nan : BoxF := ⟨Fv.poison, Fv.poison, Fv.poison, Fv.poison⟩
def BoxF.bytes (b : BoxF) : List Byte := [b.y0, b.x0, b.y1, b.x1].flatMap (floatBytes 6)

/-- clamp(v, 0, hi). -/
def clampTo (v hi : Fv) : Fv := (v.maxX (Fv.of (some Dy.zero))).minX hi

def half : Fv := Fv.of (some ⟨1, -1⟩)

/-- One axis of a box: its two edges (R160). -/
def boxAxis (delta factor centre size deltaSize shw clip pic : Fv) : Fv × Fv :=
  let c2 := (((delta.mulX factor).rnd).fmaX size centre).rnd
  let e := (shipped 0 (((deltaSize.mulX shw).rnd).minX clip)).1
  let s2 := (size.mulX e).rnd
  let hf := (half.mulX s2).rnd
  (clampTo ((c2.subX hf).rnd) pic, clampTo ((c2.addX hf).rnd) pic)

/-- Anchor i: its deltas, score and prior; its box and whether it is kept, and whether a delta or the score is poison. -/
def dboxAnchor (s : State) (c : Nat) (d : DetDesc) (i : Nat) : BoxF × Bool × Bool :=
  let sz := floatSize d.fmt
  let dv (k : Nat) := floatAt s c d.fmt (d.dBase + (4 * i + k) * sz)
  let pv (k : Nat) := floatAt s c 6 (d.pBase + 16 * i + 4 * k)
  let score := floatAt s c d.fmt (d.sBase + i * sz)
  let bad := score.v.isNone || (List.range 4).any fun k => (dv k).v.isNone
  if bad then (BoxF.nan, false, true)
  else
    let y := boxAxis (dv 0) d.sy (pv 0) (pv 2) (dv 2) d.shw d.clip d.picH
    let x := boxAxis (dv 1) d.sx (pv 1) (pv 3) (dv 3) d.shw d.clip d.picW
    let keep := match score.v, d.scoreTh.v with
      | some a, some b => Dy.le b a
      | _, _ => false
    (⟨y.1, x.1, y.2, x.2⟩, keep, false)

/-- DBOX (R160). -/
def dboxRun (c slot : Nat) (d : DetDesc) (s : State) : State :=
  let s1 := touchAll s bVEC c slot (detInputs false d |>.map fun r => (r.1, r.2 - r.1))
  let bs := (List.range d.n).map (dboxAnchor s1 c d)
  let s2 := raiseIf (bs.any (·.2.2)) s1 bCNV 12 c slot
  let s3 := csWrite s2 c d.bBase (bs.flatMap (·.1.bytes))
  let kept := ((List.range d.n).zip bs).filterMap fun b => if b.2.2.1 then some b.1 else none
  csWrite (csWrite s3 c d.kBase (kept.flatMap (leBytes 4))) c d.cnt (leBytes 4 kept.length)

/-- Extent of a box along an axis, not below 0, and its area. -/
def span (lo hi : Fv) : Dy :=
  match lo.v, hi.v with
  | some a, some b => let w := b.sub a; if w.n < 0 then Dy.zero else w
  | _, _ => Dy.zero

def boxArea (b : BoxF) : Dy := (span b.y0 b.y1).mul (span b.x0 b.x1)

/-- Area of the intersection, exactly. -/
def boxInter (a b : BoxF) : Dy := (span (a.y0.maxX b.y0) (a.y1.minX b.y1)).mul (span (a.x0.maxX b.x0) (a.x1.minX b.x1))

/-- Does an accepted box suppress a candidate by overlap? -/
def boxOver (th : Fv) (a b : BoxF) : Bool :=
  let i := boxInter a b
  let ra := boxArea a
  let rb := boxArea b
  match th.v with
  | some t => ra.n != 0 && rb.n != 0 && Dy.lt (t.mul ((ra.add rb).sub i)) i
  | none => false

/-- A candidate of DNMS: index, score, class, box. -/
structure Cand where
  i     : Nat
  score : Dy
  cls   : Nat
  box   : BoxF
deriving DecidableEq, Repr

/-- Rank order: descending score, the lower index first on a tie. -/
def Cand.before (a b : Cand) : Bool := Dy.lt b.score a.score || ((a.score.sub b.score).n == 0 && a.i ≤ b.i)

/-- Accept candidates in rank order up to MAXOUT. -/
def nmsAccept (byClass : Bool) (d : DetDesc) (l : List Cand) : List Cand :=
  l.foldl (fun acc x =>
    if d.maxout ≤ acc.length then acc
    else if acc.any fun a => (!byClass || a.cls == x.cls) && boxOver d.iouTh a.box x.box then acc
    else acc ++ [x]) []

/-- The candidate that a kept index names. -/
def candAt (s : State) (c : Nat) (d : DetDesc) (i : Nat) : Cand :=
  let bx (k : Nat) := floatAt s c 6 (d.bBase + 16 * i + 4 * k)
  { i := i, score := ((floatAt s c d.fmt (d.sBase + i * floatSize d.fmt)).v).getD Dy.zero,
    cls := if d.cBase = noRegion then 0 else ofLE (csBytes s c (d.cBase + 2 * i) 2), box := ⟨bx 0, bx 1, bx 2, bx 3⟩ }

/-- DNMS (R161). A kept index at or beyond N has no score and no box: it is left out (log entry 42). -/
def dnmsRun (c slot : Nat) (byClass : Bool) (d : DetDesc) (s : State) : State :=
  let s1 := touchAll s bVEC c slot (detInputs true d |>.map fun r => (r.1, r.2 - r.1))
  let nc := min d.n (ofLE (csBytes s1 c d.cnt 4))
  let idx := ((List.range nc).map fun k => ofLE (csBytes s1 c (d.kBase + 4 * k) 4)).filter (· < d.n)
  let ranked := (idx.map (candAt s1 c d)).mergeSort Cand.before
  let trunc := decide (2048 < nc)
  let out := nmsAccept byClass d (ranked.take 2048)
  let s2 := raiseIf trunc s1 bCNV 11 c slot
  csWrite (csWrite s2 c d.oBase (out.flatMap fun x => leBytes 4 x.i)) c (d.cnt + 4)
    (leBytes 4 out.length ++ leBytes 4 trunc.toNat)

/-- Issue a detection instruction. -/
def detIssue (nms : Bool) (w : BitVec 56) (c t : Nat) (pc : Word64) (s : State) : State :=
  let h := thrAt s c t
  match detChecks s c h nms w with
  | .inl e => issueFault s c t pc e.1 e.2
  | .inr d =>
    let nc := min d.n (ofLE (csBytes s c d.cnt 4))
    let s1 := ctrAdd s (ctrCluster c 5) (if nms then dnmsCycles d nc else dboxCycles d)
    if nms then dnmsRun c h.seq (vecFunc w == 1) d s1 else dboxRun c h.seq d s1

/-- DBOX (R160). -/
def execDbox (c : Cluster) (w : BitVec 56) (s : State) : Host.Outcome State Fault Refusal :=
  .next (issue s c 8 (detIssue false w c))

/-- DNMS (R161). -/
def execDnms (c : Cluster) (w : BitVec 56) (s : State) : Host.Outcome State Fault Refusal :=
  .next (issue s c 8 (detIssue true w c))

end Sys2Proof.Machine
end

