-- ==== Sys2Proof/Machine/Mgmt.lean ====
section
/-! DEFINITION. The management interface (19 R365, R366, Table 19.10): the target's addresses, and one meaning for each
request. A target in reset does not answer. -/

namespace Sys2Proof.Machine

/-- Statuses of a response. -/
def msDone : Byte := 0
def msUnchanged : Byte := 1
def msRefused : Byte := 2
def msInvalid : Byte := 3

/-- A response: instance, status, data. -/
def reply (inst status : Byte) (data : List Byte) (s : State) : State := emit s (.reply inst status data)

/-- A request acts where the target answers. -/
def onTarget (f : State → State) (s : State) : State := if s.boot.inReset then s else f s

/-! ### Addresses (R365, 22 R394) -/

/-- DYNAMIC_ADDRESS_ASSIGN: SETDASA names the static address of the image; ENTDAA needs none. -/
def assignAddress (setdasa : Bool) (addr : BitVec 7) (s : State) : State :=
  if setdasa && s.boot.cfg.i3cAddr == 0 then s else modHif s fun h => { h with dynAddr := some addr }

def execDynamicAddressAssign (setdasa : Bool) (addr : BitVec 7) (s : State) : Host.Outcome State Fault Refusal :=
  .next (onTarget (assignAddress setdasa addr) s)

/-- ENDPOINT_ID_ASSIGN enables the management destination of events. -/
def assignEid (eid : Byte) (s : State) : State := modHif s fun h => { h with eid := some eid }

def execEndpointIdAssign (eid : Byte) (s : State) : Host.Outcome State Fault Refusal := .next (onTarget (assignEid eid) s)

/-! ### Status and registers -/

/-- GET_STATUS: BOT_STATUS, LNK_SELF and the keep-alive flag. -/
def getStatus (inst : Byte) (s : State) : State :=
  reply inst msDone (leBytes 8 (regBotStatus s) ++ leBytes 8 (regSelf s.self) ++ leBytes 1 s.pwr.keepalive.toNat) s

def execGetStatus (inst : Byte) (s : State) : Host.Outcome State Fault Refusal := .next (onTarget (getStatus inst) s)

/-- A read of 8 bytes of BAR0 is aligned and lies in the 16 MiB (R359, R360). -/
def regAddrOk (offs : Nat) : Bool := offs % 8 == 0 && decide (offs < 0x1000000)

/-- READ_REG; FILE_LOAD beyond its field shows a free value (log entry 83). -/
def readRegCmd (inst : Byte) (offs : Nat) (s : State) : State :=
  if regAddrOk offs then reply inst msDone (leBytes 8 (readReg s offs)) s else reply inst msInvalid [] s

def execReadReg (inst : Byte) (offs : BitVec 32) (s : State) : Host.Outcome State Fault Refusal :=
  .next (onTarget (readRegCmd inst offs.toNat) s)

/-- READ_COUNTERS: an index above 4,095 returns 0 (21 R382). -/
def readCounters (inst : Byte) (first count : Nat) (s : State) : State :=
  if 1 ≤ count ∧ count ≤ 32 then
    reply inst msDone ((List.range count).flatMap fun i => leBytes 8 (if first + i < 4096 then ctrGet s (first + i) else 0)) s
  else reply inst msInvalid [] s

def execReadCounters (inst : Byte) (first : BitVec 16) (count : Byte) (s : State) : Host.Outcome State Fault Refusal :=
  .next (onTarget (readCounters inst first.toNat count.toNat) s)

/-! ### Coordinates (14 R269) -/

/-- The coordinates are taken: every port trains; a slice record in force makes the device a member or not. -/
def takeCoord (coord dims : BitVec 16) (s : State) : State :=
  let i := s.self.slice.bind fun r => indexOf dims r coord
  trainAll { s with self := { s.self with
    coord := coord
    dims := dims
    coordValid := true
    member := i.isSome
    index := i.getD 0
    sliceId := if i.isSome then s.self.slice.elim 0 (·.sliceId) else 0 } }

/-- SET_COORD: held values change nothing; others are refused with LNK.022 while a slice record is latched. -/
def setCoord (inst : Byte) (coord dims : BitVec 16) (s : State) : State :=
  if s.self.coordValid && s.self.coord == coord && s.self.dims == dims then reply inst msUnchanged [] s
  else if s.self.coordValid && s.self.slice.isSome then reply inst msRefused [] (raise s bLNK 22 locDevice noSeq 0)
  else reply inst msDone [] (takeCoord coord dims s)

def execSetCoord (inst : Byte) (coord dims : BitVec 16) (s : State) : Host.Outcome State Fault Refusal :=
  .next (onTarget (setCoord inst coord dims) s)

/-! ### Repairs (R356, R366) -/

/-- SET_REPAIRS: accepted in step 4 only. A message marked final ends the wait, after its own entries. -/
def setRepairs (inst : Byte) (final : Bool) (entries : List Word64) (s : State) : State :=
  if !awaitsRepairs s then reply inst msRefused [] s
  else if entries.isEmpty || decide (32 < entries.length) then reply inst msInvalid [] s
  else
    let s1 := reply inst msDone [] (each entries repairApply s)
    if final then bootTrain s1 else s1

def execSetRepairs (inst : Byte) (final : Bool) (entries : List Word64) (s : State) : Host.Outcome State Fault Refusal :=
  .next (onTarget (setRepairs inst final entries) s)

/-- A repair as an entry of R356 names it. -/
def repairWord (r : Repair) : Nat :=
  if r.isRow then r.channel + 2 ^ 11 + r.bank * 2 ^ 13 + r.row * 2 ^ 17 else r.channel + r.lane * 2 ^ 13

/-- Repairs made since boot, lanes and rows. -/
def repairsMade (s : State) : List Repair := s.mem.repairs.filter fun r => r.isRow || decide (r.lane < 36)

/-- GET_REPAIRS: up to 32 of them from a number on, after step 5. -/
def getRepairs (inst : Byte) (first : Nat) (s : State) : State :=
  if s.boot.noImage || decide (s.boot.step < 6) then reply inst msRefused [] s
  else reply inst msDone ((((repairsMade s).drop first).take 32).flatMap fun r => leBytes 8 (repairWord r)) s

def execGetRepairs (inst : Byte) (first : BitVec 16) (s : State) : Host.Outcome State Fault Refusal :=
  .next (onTarget (getRepairs inst first.toNat) s)

/-! ### Images and flash (R365, R366) -/

/-- SELECT_IMAGE applies at the next boot only. -/
def selectImage (inst b : Byte) (s : State) : State :=
  if b.toNat ≤ 1 then reply inst msDone [] (modBoot s fun x => { x with prefer := some (b == 1) }) else reply inst msInvalid [] s

def execSelectImage (inst : Byte) (b : Byte) (s : State) : Host.Outcome State Fault Refusal :=
  .next (onTarget (selectImage inst b) s)

/-- A flash range touches the image that was booted. -/
def touchesBooted (s : State) (offs n : Nat) : Bool :=
  imageIn s && decide (offs < imgBase s.boot.image + imgMax ∧ imgBase s.boot.image < offs + n)

/-- A flash range that an erase or a write may not touch (R366), with BOT.040 and status 2. -/
def flashRefused (s : State) (offs n : Nat) : Bool := touchesBooted s offs n || decide (0x10000000 < offs + n)

def flashRefuse (inst : Byte) (offs n : Nat) (s : State) : State :=
  reply inst msRefused [] (raise s bBOT 40 (if touchesBooted s offs n then locImage s.boot.image else locDevice) noSeq 0)

def modFlash (s : State) (f : Mem → Mem) : State := modBoot s fun b => { b with flash := f b.flash }

/-- FLASH_ERASE: a 64 KiB sector. -/
def flashErase (inst : Byte) (offs : Nat) (s : State) : State :=
  if offs % 65536 ≠ 0 then reply inst msInvalid [] s
  else if flashRefused s offs 65536 then flashRefuse inst offs 65536 s
  else reply inst msDone [] (modFlash s fun m => memClear m offs 65536)

def execFlashErase (inst : Byte) (offs : BitVec 32) (s : State) : Host.Outcome State Fault Refusal :=
  .next (onTarget (flashErase inst offs.toNat) s)

/-- Programming a NOR flash clears bits and sets none (log entry 80). -/
def flashProgram (m : Mem) (offs : Nat) (bs : List Byte) : Mem :=
  memWrs erasedByte m offs (((memRdN erasedByte m offs bs.length).zip bs).map fun p => p.1 &&& p.2)

/-- FLASH_WRITE: 1 to 256 bytes. -/
def flashWrite (inst : Byte) (offs : Nat) (bs : List Byte) (s : State) : State :=
  if bs.isEmpty || decide (256 < bs.length) then reply inst msInvalid [] s
  else if flashRefused s offs bs.length then flashRefuse inst offs bs.length s
  else reply inst msDone [] (modFlash s fun m => flashProgram m offs bs)

def execFlashWrite (inst : Byte) (offs : BitVec 32) (bytes : List Byte) (s : State) : Host.Outcome State Fault Refusal :=
  .next (onTarget (flashWrite inst offs.toNat bytes) s)

/-- FLASH_READ: 1 to 256 bytes. -/
def flashRead (inst : Byte) (offs n : Nat) (s : State) : State :=
  if 1 ≤ n ∧ n ≤ 256 then reply inst msDone (memRdN erasedByte s.boot.flash offs n) s else reply inst msInvalid [] s

def execFlashRead (inst : Byte) (offs : BitVec 32) (len : BitVec 16) (s : State) : Host.Outcome State Fault Refusal :=
  .next (onTarget (flashRead inst offs.toNat len.toNat) s)

/-! ### Fuses and reset (R365) -/

/-- SET_SVN_MIN: refused above the booted SVN; a fuse never goes back, so a lower minimum leaves it unchanged. -/
def setSvnMin (inst svn : Byte) (s : State) : State :=
  if s.boot.svn < svn.toNat then reply inst msRefused [] s
  else if svn.toNat ≤ s.boot.svnMin then reply inst msUnchanged [] s
  else reply inst msDone [] (modBoot s fun b => { b with svnMin := svn.toNat })

def execSetSvnMin (inst : Byte) (svn : Byte) (s : State) : Host.Outcome State Fault Refusal :=
  .next (onTarget (setSvnMin inst svn) s)

/-- REVOKE_KEY: refused for the booted slot. -/
def revokeKey (inst slot : Byte) (s : State) : State :=
  if 4 ≤ slot.toNat then reply inst msInvalid [] s
  else if imageIn s && s.boot.keySlot == slot.toNat then reply inst msRefused [] s
  else if s.boot.revoked.contains slot.toNat then reply inst msUnchanged [] s
  else reply inst msDone [] (modBoot s fun b => { b with revoked := insertNat slot.toNat b.revoked })

def execRevokeKey (inst : Byte) (slot : Byte) (s : State) : Host.Outcome State Fault Refusal :=
  .next (onTarget (revokeKey inst slot) s)

/-- RESET: the response goes out first; then the whole device resets and boots from step 1 (Table 19.5). -/
def resetCmd (inst : Byte) (s : State) : State := bootIfFree (deviceReset (reply inst msDone [] s))

def execReset (inst : Byte) (s : State) : Host.Outcome State Fault Refusal := .next (onTarget (resetCmd inst) s)

end Sys2Proof.Machine
end

