-- ==== Sys2Proof/Machine/Ports.lean ====
section
/-! DEFINITION. The PCIe endpoint and its windows (19 R359-R363), the storage root port (R364), a PE_REFCLK that stops
(23 R413), host writes of registers by their BAR0 offset, and the test port (19 R367). -/

namespace Sys2Proof.Machine

/-! ### The endpoint (R358-R362) -/

/-- The endpoint is out of service: its window returns to 0, and the host ring takes what is held unwritten (22 R399). -/
def endpointDown (s : State) : State :=
  let s1 := modHif (modBoot s fun b => { b with win := 0 }) fun h => { h with epUp := false }
  if s.ev.ringOn then evTidy (evSkipHeld s1) else s1

/-- A reset of a powered endpoint, with BOT.020 after sealing. -/
def endpointReset (s : State) : State :=
  if !s.hif.epPowered then s
  else if s.boot.sealed then raise (endpointDown s) bBOT 20 locDevice noSeq 0
  else endpointDown s

/-- PERST_N, a hot reset and a Function Level Reset act alike (Table 19.5). -/
def execEndpointReset (_kind : EndpointReset) (s : State) : Host.Outcome State Fault Refusal := .next (endpointReset s)

/-- ENDPOINT_LINK_UP: what the host ring held while the endpoint was reset is taken unwritten (22 R399). -/
def endpointLinkUp (s : State) : State :=
  if !s.hif.epPowered || s.hif.epUp then s
  else
    let s1 := if s.ev.ringOn then evTidy (evSkipHeld s) else s
    modHif s1 fun h => { h with epUp := true }

def execEndpointLinkUp (s : State) : Host.Outcome State Fault Refusal := .next (endpointLinkUp s)

/-! ### BAR2 (R361) -/

/-- BOT_WIN: windows 20-31 are ignored (Table 19.8). -/
def botWin (v : Word64) (s : State) : State :=
  if hostMay s && decide (bits v.toNat 4 0 < 20) then modBoot s fun b => { b with win := bits v.toNat 4 0 } else s

def execBotWin (v : Word64) (s : State) : Host.Outcome State Fault Refusal := .next (botWin v s)

/-- The stack physical address of a BAR2 offset. -/
def bar2Addr (s : State) (offs : Nat) : Nat := 2 ^ 36 * s.boot.win + offs

/-- An Unsupported Request: before step 5 ends, while the stacks are down, or past the end of the window. -/
def bar2Bad (s : State) (offs len : Nat) : Bool := !s.mem.on || decide (2 ^ 36 < offs + len)

/-- BAR2_ACCESS; a write is posted and has no completion, except as an Unsupported Request. -/
def bar2Access (write : Bool) (offs len : Nat) (data : List Byte) (s : State) : State :=
  if !s.hif.epUp then s
  else if bar2Bad s offs len then emit s (.completion false false [])
  else if write then writePA s (bar2Addr s offs) data
  else
    let r := readPA s (bar2Addr s offs) len
    emit r.2 (.completion true r.1.poison r.1.bytes)

def execBar2Access (write : Bool) (offs : BitVec 36) (len : Nat) (data : List Byte) (s : State) :
    Host.Outcome State Fault Refusal := .next (bar2Access write offs.toNat len data s)

/-! ### The storage root port (R364) -/

/-- The storage link is lost: BOT.030, and a drain in progress ends with SNP.012 (16 R305). -/
def storageLoss (s : State) : State :=
  if !s.hif.stUp then s
  else
    let s1 := raise (modHif s fun h => { h with stUp := false }) bBOT 30 locDevice noSeq 0
    if s.snp.wardDrain.isSome then drainFail s1 else s1

def execStorageLinkLoss (s : State) : Host.Outcome State Fault Refusal := .next (storageLoss s)

/-- The level of the pin SP_PERST_N: low until boot step 6, as long as the root port is off (23 Table 23.5). -/
def spPerstN (s : State) : Bool := s.hif.stPowered

/-- STORAGE_LINK_UP: the sarking store is identified, and with it WARD_SNAP, or SNP.003 is raised (16 R304, R305). -/
def storageUp (conforms : Bool) (nsze : Nat) (s : State) : State :=
  if !spPerstN s || s.hif.stUp then s
  else
    let s1 := modHif s fun h => { h with stUp := true, stKnown := true }
    if conforms then storeSeen (modSnp s1 fun n => { n with storeOk := true, nsze := nsze })
    else raise (modSnp s1 fun n => { n with storeOk := false }) bSNP 3 locDevice noSeq 0

def execStorageLinkUp (conforms : Bool) (nsze : Nat) (s : State) : Host.Outcome State Fault Refusal :=
  .next (storageUp conforms nsze s)

/-- PE_REFCLK_STOP: both PCIe links drop (23 R413). -/
def execPeRefclkStop (s : State) : Host.Outcome State Fault Refusal := .next (storageLoss (endpointReset s))

/-! ### Host writes by offset (R360, R363) -/

/-- Bits written as 1 are cleared. -/
def w1c {n : Nat} (old : BitVec n) (v : Word64) : BitVec n := old &&& ~~~ (v.setWidth n)

/-- A write of XLT_RESOLVE: actions 2 and 3 are ignored (11 Table 11.6). -/
def xltResolve (v : Word64) (s : State) : State :=
  let tag := BitVec.ofNat 32 v.toNat
  let a := bits v.toNat 33 32
  if a = 0 then resolveRetry tag s else if a = 1 then resolveAbort tag s else s

/-- The W1C registers: TCK_DOMn_EVENTS, PWR_EVENTS, EVT_SUMMARY. Any other offset without a row of its own is ignored. -/
def w1cWrite (offs : Nat) (v : Word64) (s : State) : State :=
  if offs = 0x80008 then modPwr s fun p => { p with events := w1c p.events v }
  else if offs = 0x90020 then modEv s fun e => { e with seen := w1c e.seen v }
  else if offs % 0x40 = 8 ∧ 0x10008 ≤ offs ∧ offs ≤ 0x100C8 then
    modDom s ((offs - 0x10008) / 0x40) fun d => { d with events := w1c d.events v }
  else s

/-- An aligned 8-byte write of BAR0: a register with a command of its own acts as that command does. -/
def wideWrite (offs : Nat) (v : Word64) (s : State) : State :=
  if offs = 0x8 then botWin v s
  else if offs = 0x30000 then xltResolve v s
  else if offs = 0x30008 then xltInval v s
  else if offs % 0x40 = 0 ∧ 0x40000 ≤ offs ∧ offs ≤ 0x40FC0 then doorbell ((offs - 0x40000) / 0x40) v s
  else if offs = 0x60000 then codKeyreq v s
  else if offs = 0x90000 then evtRing v s
  else if offs = 0x90008 then evtCons v s
  else if offs = 0x108000 then obsFilter v s
  else if offs = 0x108008 then obsRing v s
  else if offs = 0x108010 then obsCons v s
  else w1cWrite offs v s

/-- A write of BAR0. One that is not 8 bytes long and aligned is an Unsupported Request and reaches no register (R360, 11
R225); a posted write has no completion that could say so (log entry 104). -/
def registerWrite (offs bytes : Nat) (v : Word64) (s : State) : State :=
  if hostMay s && bytes == 8 && offs % 8 == 0 then wideWrite offs v s else s

def execRegisterWrite (a : RegPlace) (v : Word64) (s : State) : Host.Outcome State Fault Refusal :=
  .next (registerWrite a.offs.toNat a.bytes v s)

/-! ### The test port (R367, IEEE 1149.1; log entry 84) -/

/-- The next state of the TAP controller. -/
def tapNext (t : Tap) (tms : Bool) : Tap :=
  match t with
  | .testLogicReset => if tms then .testLogicReset else .runTestIdle
  | .runTestIdle => if tms then .selectDr else .runTestIdle
  | .selectDr => if tms then .selectIr else .captureDr
  | .captureDr => if tms then .exit1Dr else .shiftDr
  | .shiftDr => if tms then .exit1Dr else .shiftDr
  | .exit1Dr => if tms then .updateDr else .pauseDr
  | .pauseDr => if tms then .exit2Dr else .pauseDr
  | .exit2Dr => if tms then .updateDr else .shiftDr
  | .updateDr => if tms then .selectDr else .runTestIdle
  | .selectIr => if tms then .testLogicReset else .captureIr
  | .captureIr => if tms then .exit1Ir else .shiftIr
  | .shiftIr => if tms then .exit1Ir else .shiftIr
  | .exit1Ir => if tms then .updateIr else .pauseIr
  | .pauseIr => if tms then .exit2Ir else .pauseIr
  | .exit2Ir => if tms then .updateIr else .shiftIr
  | .updateIr => if tms then .selectDr else .runTestIdle

/-- What the selected data register captures: the contacts, the identification code, or the bypass bit. -/
def drCapture (ir : BitVec 4) (pins : List Bool) : List Bool :=
  if ir = 0b0001 then pins
  else if ir = 0b0010 then (List.range 32).map fun i => (0x120324DF : BitVec 32).getLsbD i
  else [false]

/-- Test-Logic-Reset selects IDCODE. -/
def tapReset (j : JtagSt) : JtagSt := { j with state := .testLogicReset, ir := 0b0010 }

/-- One edge of JTCK: the work of the state it leaves, then the state it enters. `hi` gives the free bits that the instruction
register captures above the fixed 01. -/
def tapStep (tms tdi : Bool) (pins : List Bool) (hi : BitVec 2) (j : JtagSt) : JtagSt :=
  let j1 :=
    match j.state with
    | .captureDr => { j with drSh := drCapture j.ir pins }
    | .shiftDr => { j with tdo := j.drSh.headD tdi, drSh := if j.drSh.isEmpty then [] else j.drSh.drop 1 ++ [tdi] }
    | .captureIr => { j with irSh := hi ++ 0b01#2 }
    | .shiftIr => { j with tdo := j.irSh.getLsbD 0, irSh := (j.irSh >>> 1) ||| (if tdi then 0b1000#4 else 0) }
    | _ => j
  let j2 := { j1 with state := tapNext j.state tms }
  match j2.state with
  | .testLogicReset => tapReset j2
  | .updateIr => { j2 with ir := j2.irSh }
  | _ => j2

/-- TEST_PORT_CLOCK: an edge, or JTRST_N held low. The port never affects the rest of the device. -/
def testPortClock (tms tdi trstN : Bool) (pins : List Bool) (s : State) : State :=
  if s.boot.inReset then s
  else if !trstN then { s with jtag := tapReset s.jtag }
  else
    let s1 := { (if s.jtag.state == .captureIr then drew s else s) with
      jtag := tapStep tms tdi pins (BitVec.ofNat 2 (drawn s 367)) s.jtag }
    if s.jtag.state == .shiftDr || s.jtag.state == .shiftIr then emit s1 (.tdo s1.jtag.tdo) else s1

def execTestPortClock (tms tdi trstN : Bool) (pins : List Bool) (s : State) : Host.Outcome State Fault Refusal :=
  .next (testPortClock tms tdi trstN pins s)

end Sys2Proof.Machine
end

