-- ==== Sys2Proof/Machine/Payload.lean ====
section
/-! DEFINITION. RTP payloads of coded access units (18 R346, R347): HEVC under IETF RFC 7798 without aggregation and without
DONL, AV1 under its RTP payload format 1.0 with the W field. -/

namespace Sys2Proof.Machine

/-- Payload bytes that fit beside the 12 bytes of an RTP header in 1,460 bytes of UDP payload. -/
def rtpRoom : Nat := 1448

/-- Cut a list of bytes into pieces of at most n bytes. -/
def piecesOf (n : Nat) (l : List Byte) : List (List Byte) :=
  (List.range (cdiv l.length n)).map fun i => (l.drop (n * i)).take n

/-- The byte string of a number, as one byte. -/
def oneByte (n : Nat) : Byte := BitVec.ofNat 8 n

/-! ### HEVC -/

/-- Scan a byte stream for start codes; units newest first, each with its last byte first. -/
def nalStep (acc : List (List Byte)) (b : Byte) : List (List Byte) :=
  match acc with
  | [] => [[b]]
  | u :: us => if b = 1 ∧ u.take 2 = [0, 0] then [] :: u.drop 2 :: us else (b :: u) :: us

/-- The NAL units of a byte stream; zeros that trail a unit belong to none. -/
def nalUnits (l : List Byte) : List (List Byte) :=
  ((l.foldl nalStep [[]]).map fun u => (u.dropWhile (· == 0)).reverse).reverse.filter (!·.isEmpty)

/-- The fragmentation units of a NAL unit that does not fit one packet: type 49, the first one S, the last one E. -/
def fragmentUnits (u : List Byte) : List (List Byte) :=
  let h := fld u 0 1
  let l := piecesOf (rtpRoom - 3) (u.drop 2)
  ((List.range l.length).zip l).map fun k =>
    let fu := (if k.1 = 0 then 0x80 else 0) + (if k.1 + 1 = l.length then 0x40 else 0) + h / 2 % 64
    oneByte (h / 128 * 128 + 49 * 2 + h % 2) :: oneByte (fld u 1 1) :: oneByte fu :: k.2

def hevcPackets (unit : List Byte) : List (List Byte) :=
  (nalUnits unit).flatMap fun u => if u.length ≤ rtpRoom then [u] else fragmentUnits u

def startCode : List Byte := [0, 0, 0, 1]

/-- The NAL units of an aggregation packet: each after its length in two bytes, high byte first. -/
def aggregated : Nat → List Byte → List Byte
  | 0, _ => []
  | n + 1, l =>
    if l.length < 2 then []
    else
      let k := 256 * fld l 0 1 + fld l 1 1
      startCode ++ (l.drop 2).take k ++ aggregated n (l.drop (2 + k))

/-- What a packet adds to the byte stream of its access unit. -/
def hevcPart (p : List Byte) : List Byte :=
  let h := fld p 0 1
  let fu := fld p 2 1
  if h / 2 % 64 = 49 then
    (if bitOn fu 7 then startCode ++ [oneByte (h / 128 * 128 + fu % 64 * 2 + h % 2), oneByte (fld p 1 1)] else [])
      ++ p.drop 3
  else if h / 2 % 64 = 48 then aggregated p.length (p.drop 2)
  else startCode ++ p

/-! ### AV1 -/

/-- A number in the leb128 form, and what follows it. -/
def leb : Nat → List Byte → Nat × List Byte
  | 0, l => (0, l)
  | _ + 1, [] => (0, [])
  | n + 1, b :: l =>
    if b.toNat < 128 then (b.toNat, l)
    else
      let r := leb n l
      (b.toNat % 128 + 128 * r.1, r.2)

/-- The leb128 form of a number below 128^n. -/
def lebOf : Nat → Nat → List Byte
  | 0, _ => []
  | n + 1, x => if x < 128 then [oneByte x] else oneByte (128 + x % 128) :: lebOf n (x / 128)

/-- The OBUs of a temporal unit in the low-overhead format, each without its size field. -/
def obus : Nat → List Byte → List (List Byte)
  | 0, _ => []
  | _ + 1, [] => []
  | n + 1, b :: l =>
    let ext := if b.getLsbD 2 then l.take 1 else []
    let body := l.drop ext.length
    let r := if b.getLsbD 1 then leb 8 body else (body.length, body)
    ((b &&& 0xFD) :: ext ++ r.2.take r.1) :: obus n (r.2.drop r.1)

/-- Type of an OBU: 1 a sequence header, 2 a temporal delimiter. -/
def obuType (o : List Byte) : Nat := fld o 0 1 / 8 % 16

/-- One OBU element in each packet (W = 1), after an aggregation header: Z and Y where the element goes on from the packet
before and into the next, N at the first packet of a coded video sequence. Temporal delimiters are not sent. -/
def av1Packets (unit : List Byte) : List (List Byte) :=
  let l := (obus unit.length unit).filter (obuType · != 2)
  let seq := l.head?.elim false fun o => obuType o == 1
  ((List.range l.length).zip l).flatMap fun o =>
    let cut := piecesOf (rtpRoom - 1) o.2
    ((List.range cut.length).zip cut).map fun k =>
      let head := (if k.1 = 0 then 0 else 128) + (if k.1 + 1 = cut.length then 0 else 64) + 16
        + (if seq && o.1 = 0 && k.1 = 0 then 8 else 0)
      oneByte head :: k.2

/-- The OBU elements of a packet after its aggregation header: `left` counts those still to come where W is not 0, and the last
of them has no length. -/
def elements : Nat → Option Nat → List Byte → List (List Byte)
  | 0, _, _ => []
  | n + 1, left, l =>
    if l.isEmpty then []
    else if left = some 1 then [l]
    else
      let r := leb 8 l
      r.2.take r.1 :: elements n (left.map (· - 1)) (r.2.drop r.1)

/-- The OBUs so far, newest first, after the elements of a packet. -/
def joinElements (acc : List (List Byte)) (p : List Byte) : List (List Byte) :=
  let h := fld p 0 1
  let l := elements p.length (if h / 16 % 4 = 0 then none else some (h / 16 % 4)) (p.drop 1)
  match (if bitOn h 7 then (acc, l) else ([], [])) with
  | (o :: os, e :: es) => es.reverse ++ (o ++ e) :: os
  | _ => l.reverse ++ acc

/-- An OBU with its size field. -/
def sizedObu (o : List Byte) : List Byte :=
  if bitOn (fld o 0 1) 1 then o
  else
    let n := if bitOn (fld o 0 1) 2 then 2 else 1
    oneByte (fld o 0 1 + 2) :: (o.take n).drop 1 ++ lebOf 8 (o.length - n) ++ o.drop n

/-! ### Both -/

/-- The payloads of an access unit's packets (R346). -/
def packetised (av1 : Bool) (unit : List Byte) : List (List Byte) := if av1 then av1Packets unit else hevcPackets unit

/-- The access unit of the payloads of its packets (R347): a byte stream with start codes, or a temporal unit that begins with
its temporal delimiter. -/
def depacketised (av1 : Bool) (l : List (List Byte)) : List Byte :=
  if av1 then [0x12, 0x00] ++ (l.foldl joinElements []).reverse.flatMap sizedObu else l.flatMap hevcPart

end Sys2Proof.Machine
end

