-- ==== Sys2Proof/Machine/Rtp.lean ====
section
/-! DEFINITION. The coded RTP flows of ports 2 and 3 (18 R346, R347). -/

namespace Sys2Proof.Machine

/-- The port of a coded flow, where it is up. -/
def codedPort (s : State) (c : FlowCfg) : Option Nat :=
  let p := if bitOn c.ports 2 then 2 else 3
  if (mportAt s p).linkUp then some p else none

/-- Read n bytes of a ring, in T2 or T3; none where they cannot be read or are poisoned. -/
def ringRead (va n : Nat) (s : State) : Option (List Byte) × State :=
  let r := engRead s (va % 2 ^ 52) n true false
  (match r.1 with
   | .data bs false _ => some bs
   | _ => none, r.2)

/-- The record at a position of a bitstream ring: its length and time, with the position it really has (R319). -/
def ringRecord (ring size at' : Nat) (s : State) : Option (Nat × Nat × Nat) × State :=
  let base := ring % 2 ^ 52 + 0x40
  let look (at' : Nat) (s : State) : Option (Nat × Nat × Nat) × State :=
    let r := ringRead (base + at' % size) 16 s
    (r.1.map fun bs => (at', fld bs 0 4, fld bs 8 8), r.2)
  let a := look at' s
  match a.1 with
  | some (_, 0xFFFFFFFF, _) => look (at' + (size - at' % size)) a.2
  | _ => a

/-- RTP_OUT_ACCESS_UNIT: one access unit of the encode context leaves, and CONS advances (R346). An access unit that cannot be
read stays in the ring (log entry 59). -/
def rtpOut (f : Nat) (s : State) : State :=
  match (flowAt s f).cfg with
  | none => s
  | some c =>
    match (if c.kind = 4 then codedPort s c else none), (ctxAt s (c.format % 64)).desc with
    | some p, some d =>
      let cons := ringRead (d.ringBase % 2 ^ 52 + 8) 8 s
      match cons.1 with
      | none => cons.2
      | some bs =>
        let at' := fld bs 0 8
        if (ctxAt s (c.format % 64)).prodAt ≤ at' then cons.2
        else
          let r := ringRecord d.ringBase d.ringData at' cons.2
          match r.1 with
          | none => r.2
          | some (pos, n, pts) =>
            let data := ringRead (d.ringBase + 0x40 + pos % d.ringData + 16) n r.2
            match data.1 with
            | none => data.2
            | some unit =>
              let out := packetised (d.std == 1) unit
              let s1 := modFlow (emit data.2 (.rtpUnit f (pts % 2 ^ 32) out)) f fun x => { x with
                lastTick := (domAt data.2 x.domain).tickNo, source := 0 }
              let s2 := ctrAdd s1 (ctrMedia p 0) out.length
              (putAll [(d.ringBase % 2 ^ 52 + 8, leBytes 8 (pos + recordBytes n))] s2).2
    | _, _ => s

def execRtpOutAccessUnit (f : Flow) (s : State) : Host.Outcome State Fault Refusal := .next (rtpOut f s)

/-- A complete access unit goes into the ring of its flow, or is discarded with MED.032 where the ring lacks room (R347). -/
def rtpStore (f : Nat) (c : FlowCfg) (pts : Nat) (unit : List Byte) (s : State) : State :=
  let size := (c.ringBytes - 64) / 32 * 32
  let x := flowAt s f
  let cons := ringRead (c.ring % 2 ^ 52 + 8) 8 s
  match cons.1 with
  | none => cons.2
  | some bs =>
    if size < (x.prodAt - fld bs 0 8) + recordNeed size x.prodAt unit.length then raise cons.2 bMED 32 (locFlow f) noSeq 0
    else
      let w := recordWrites c.ring size x.prodAt 0 pts unit
      let r := putAll w.1 cons.2
      match r.1 with
      | some _ => r.2
      | none => ctrAdd (modFlow r.2 f fun x => { x with prodAt := w.2 }) (ctrFlow f 0) 1

/-- One packet of an RTP-in flow in sequence: an access unit ends at its marker; one that lost a packet is discarded with
MED.030. -/
def rtpPacket (f : Nat) (gap : Bool) (p : Packet) (s : State) : State :=
  let x := flowAt s f
  match x.cfg with
  | none => s
  | some c =>
    let r := takeFrame s.time gap p.marker p.payload x.slots
    let s1 := modFlow s f fun y => { y with
      lastTick := (domAt s y.domain).tickNo
      source := 0
      slots := if p.marker then [] else r.1 }
    if r.2 then raise (ctrAdd s1 (ctrFlow f 1) 1) bMED 30 (locFlow f) noSeq 0
    else if p.marker then
      let av1 := (ctxAt s (64 + c.format % 64)).desc.any (·.std == 1)
      rtpStore f c p.ts.toNat (depacketised av1 (r.1.head?.elim [] (·.parts))) s1
    else s1

/-- RTP_IN_PACKET: packets are put in order within 20 ms (R347). -/
def rtpIn (f : Nat) (seq : BitVec 16) (ssrc ts : BitVec 32) (marker : Bool) (payload : List Byte) (s : State) : State :=
  match (flowAt s f).cfg.bind fun c => if c.kind = 5 && (c.ssrc == 0 || c.ssrc == ssrc) then codedPort s c else none with
  | none => s
  | some p => offerPacket f 20000000 (rtpPacket f) ⟨seq, ts, marker, payload, s.time⟩ (ctrAdd s (ctrMedia p 1) 1)

def execRtpInPacket (f : Flow) (seq : BitVec 16) (ssrc ts : BitVec 32) (marker : Bool) (payload : List Byte) (s : State) :
    Host.Outcome State Fault Refusal :=
  .next (rtpIn f seq ssrc ts marker payload s)

end Sys2Proof.Machine
end

