-- ==== Sys2Proof/Machine/Dispatch.lean ====
section
/-! DEFINITION. The meaning of each command. -/

namespace Sys2Proof.Machine

def exec (i : Instr) (s : State) : Host.Outcome State Fault Refusal :=
  match i with
  | .tickBoundary d => Sys2Proof.Machine.execTickBoundary d s
  | .admitSlot d => Sys2Proof.Machine.execAdmitSlot d s
  | .depart d => Sys2Proof.Machine.execDepart d s
  | .chunkBegin d => Sys2Proof.Machine.execChunkBegin d s
  | .chunkEnd d => Sys2Proof.Machine.execChunkEnd d s
  | .work d => Sys2Proof.Machine.execWork d s
  | .computeWindowStart d => Sys2Proof.Machine.execComputeWindowStart d s
  | .checkpoint d second => Sys2Proof.Machine.execCheckpoint d second s
  | .computeWindowEnd d => Sys2Proof.Machine.execComputeWindowEnd d s
  | .guardStart d => Sys2Proof.Machine.execGuardStart d s
  | .ptpTimeAcquired d ptpNs => Sys2Proof.Machine.execPtpTimeAcquired d ptpNs s
  | .ptpSourceLost d => Sys2Proof.Machine.execPtpSourceLost d s
  | .ptpSourceReturn d phaseErrNs => Sys2Proof.Machine.execPtpSourceReturn d phaseErrNs s
  | .ptpMessage p m => Sys2Proof.Machine.execPtpMessage p m s
  | .tmm c w => Sys2Proof.Machine.execTmm c w s
  | .tgrid c w => Sys2Proof.Machine.execTgrid c w s
  | .tileStepRelease c => Sys2Proof.Machine.execTileStepRelease c s
  | .conversionComplete c slot => Sys2Proof.Machine.execConversionComplete c slot s
  | .tconv c w => Sys2Proof.Machine.execTconv c w s
  | .tconvPrep c w => Sys2Proof.Machine.execTconvPrep c w s
  | .vew c w => Sys2Proof.Machine.execVew c w s
  | .vcvt c w => Sys2Proof.Machine.execVcvt c w s
  | .vqnt c w => Sys2Proof.Machine.execVqnt c w s
  | .vsf c w => Sys2Proof.Machine.execVsf c w s
  | .vstat c w => Sys2Proof.Machine.execVstat c w s
  | .vstatPartial c w => Sys2Proof.Machine.execVstatPartial c w s
  | .vstatCombine c w => Sys2Proof.Machine.execVstatCombine c w s
  | .vsoft c w => Sys2Proof.Machine.execVsoft c w s
  | .vsoftSum c w => Sys2Proof.Machine.execVsoftSum c w s
  | .vsoftProb c w => Sys2Proof.Machine.execVsoftProb c w s
  | .vargmax c w => Sys2Proof.Machine.execVargmax c w s
  | .dbox c w => Sys2Proof.Machine.execDbox c w s
  | .dnms c w => Sys2Proof.Machine.execDnms c w s
  | .bar c w => Sys2Proof.Machine.execBar c w s
  | .mfence c w => Sys2Proof.Machine.execMfence c w s
  | .tfence c w => Sys2Proof.Machine.execTfence c w s
  | .atom c w => Sys2Proof.Machine.execAtom c w s
  | .lds c w => Sys2Proof.Machine.execLds c w s
  | .sts c w => Sys2Proof.Machine.execSts c w s
  | .susp c w => Sys2Proof.Machine.execSusp c w s
  | .exit c w => Sys2Proof.Machine.execExit c w s
  | .scalarAccess c a => Sys2Proof.Machine.execScalarAccess c a s
  | .dq c w => Sys2Proof.Machine.execDq c w s
  | .dwait c w => Sys2Proof.Machine.execDwait c w s
  | .kvput e => Sys2Proof.Machine.execKvput e s
  | .kvget e => Sys2Proof.Machine.execKvget e s
  | .copy e hostErrAt => Sys2Proof.Machine.execCopy e hostErrAt s
  | .fmapPack e => Sys2Proof.Machine.execFmapPack e s
  | .fmapUnpack e => Sys2Proof.Machine.execFmapUnpack e s
  | .hostIn e hostErrAt => Sys2Proof.Machine.execHostIn e hostErrAt s
  | .hostOut e hostErrAt => Sys2Proof.Machine.execHostOut e hostErrAt s
  | .dmaEngDb n v => Sys2Proof.Machine.execDmaEngDb n v s
  | .xltResolveRetry tag => Sys2Proof.Machine.execXltResolveRetry tag s
  | .xltResolveAbort tag => Sys2Proof.Machine.execXltResolveAbort tag s
  | .xltInval v => Sys2Proof.Machine.execXltInval v s
  | .invalComplete => Sys2Proof.Machine.execInvalComplete s
  | .faultTimeout tag => Sys2Proof.Machine.execFaultTimeout tag s
  | .peerFaultTimeout tag => Sys2Proof.Machine.execPeerFaultTimeout tag s
  | .eavesTimeout sector => Sys2Proof.Machine.execEavesTimeout sector s
  | .scrub ch found => Sys2Proof.Machine.execScrub ch found s
  | .stackTempSample ts => Sys2Proof.Machine.execStackTempSample ts s
  | .channelRetrain ch drift => Sys2Proof.Machine.execChannelRetrain ch drift s
  | .retrainDone ch trained badLanes => Sys2Proof.Machine.execRetrainDone ch trained badLanes s
  | .loadComplete m failed => Sys2Proof.Machine.execLoadComplete m failed s
  | .verifyComplete m => Sys2Proof.Machine.execVerifyComplete m s
  | .refetchDone m y loaded => Sys2Proof.Machine.execRefetchDone m y loaded s
  | .copyRetire m => Sys2Proof.Machine.execCopyRetire m s
  | .fetchFailure m y what => Sys2Proof.Machine.execFetchFailure m y what s
  | .fallbackNotice m tick => Sys2Proof.Machine.execFallbackNotice m tick s
  | .returnNotice m tick => Sys2Proof.Machine.execReturnNotice m tick s
  | .sequenceNotice n toFallback tick => Sys2Proof.Machine.execSequenceNotice n toFallback tick s
  | .flitReceive l flit => Sys2Proof.Machine.execFlitReceive l flit s
  | .retryRequest l fseq => Sys2Proof.Machine.execRetryRequest l fseq s
  | .packetReceive p hdr payload => Sys2Proof.Machine.execPacketReceive p hdr payload s
  | .memRequest src req op va sectors data => Sys2Proof.Machine.execMemRequest src req op va sectors data s
  | .memResponse req status data => Sys2Proof.Machine.execMemResponse req status data s
  | .memTimeout req => Sys2Proof.Machine.execMemTimeout req s
  | .linkRetrain l cause => Sys2Proof.Machine.execLinkRetrain l cause s
  | .linkTrainingDone l result => Sys2Proof.Machine.execLinkTrainingDone l result s
  | .setCoord inst coord dims => Sys2Proof.Machine.execSetCoord inst coord dims s
  | .coordWaitTimeout => Sys2Proof.Machine.execCoordWaitTimeout s
  | .allReduce c w => Sys2Proof.Machine.execAllReduce c w s
  | .reduceScatter c w => Sys2Proof.Machine.execReduceScatter c w s
  | .allGather c w => Sys2Proof.Machine.execAllGather c w s
  | .allToAll c w => Sys2Proof.Machine.execAllToAll c w s
  | .broadcast c w => Sys2Proof.Machine.execBroadcast c w s
  | .dispatch c w => Sys2Proof.Machine.execDispatch c w s
  | .combine c w => Sys2Proof.Machine.execCombine c w s
  | .cwait c w => Sys2Proof.Machine.execCwait c w s
  | .shardReceive sh => Sys2Proof.Machine.execShardReceive sh s
  | .shardAck dst cid shseq => Sys2Proof.Machine.execShardAck dst cid shseq s
  | .shardRetry dst cid shseq => Sys2Proof.Machine.execShardRetry dst cid shseq s
  | .notreadyResend dst cid shseq => Sys2Proof.Machine.execNotreadyResend dst cid shseq s
  | .collectiveComplete q cid => Sys2Proof.Machine.execCollectiveComplete q cid s
  | .collectiveTimeout q cid => Sys2Proof.Machine.execCollectiveTimeout q cid s
  | .paceNoticeTimer => Sys2Proof.Machine.execPaceNoticeTimer s
  | .paceNotice src sliceId number delayNs => Sys2Proof.Machine.execPaceNotice src sliceId number delayNs s
  | .mirrorReceive slot offs data trailer => Sys2Proof.Machine.execMirrorReceive slot offs data trailer s
  | .captureDone => Sys2Proof.Machine.execCaptureDone s
  | .mirrorTimeout => Sys2Proof.Machine.execMirrorTimeout s
  | .drainStart ward => Sys2Proof.Machine.execDrainStart ward s
  | .drainComplete ward ok => Sys2Proof.Machine.execDrainComplete ward ok s
  | .snapshotNotice step => Sys2Proof.Machine.execSnapshotNotice step s
  | .intervalNotice next f tObs cUs stepUs => Sys2Proof.Machine.execIntervalNotice next f tObs cUs stepUs s
  | .observationSecond => Sys2Proof.Machine.execObservationSecond s
  | .restoreComplete data crcOk buddyHolds => Sys2Proof.Machine.execRestoreComplete data crcOk buddyHolds s
  | .restoreRequest src step => Sys2Proof.Machine.execRestoreRequest src step s
  | .open_ e => Sys2Proof.Machine.execOpen e s
  | .close e => Sys2Proof.Machine.execClose e s
  | .encode e => Sys2Proof.Machine.execEncode e s
  | .decode e au => Sys2Proof.Machine.execDecode e au s
  | .codecRowSchedule x encoder => Sys2Proof.Machine.execCodecRowSchedule x encoder s
  | .codKeyreq v => Sys2Proof.Machine.execCodKeyreq v s
  | .play e => Sys2Proof.Machine.execPlay e s
  | .inputPacketReceive f port1 seq ssrc marker payload => Sys2Proof.Machine.execInputPacketReceive f port1 seq ssrc marker payload s
  | .rtpOutAccessUnit f => Sys2Proof.Machine.execRtpOutAccessUnit f s
  | .rtpInPacket f seq ssrc ts marker payload => Sys2Proof.Machine.execRtpInPacket f seq ssrc ts marker payload s
  | .mediaLinkLoss p => Sys2Proof.Machine.execMediaLinkLoss p s
  | .mediaLinkUp p => Sys2Proof.Machine.execMediaLinkUp p s
  | .boot untrainable => Sys2Proof.Machine.execBoot untrainable s
  | .repairListTimeout => Sys2Proof.Machine.execRepairListTimeout s
  | .sysRstAssert => Sys2Proof.Machine.execSysRstAssert s
  | .endpointReset kind => Sys2Proof.Machine.execEndpointReset kind s
  | .botWin v => Sys2Proof.Machine.execBotWin v s
  | .bar2Access write offs len data => Sys2Proof.Machine.execBar2Access write offs len data s
  | .storageLinkLoss => Sys2Proof.Machine.execStorageLinkLoss s
  | .registerWrite offs v => Sys2Proof.Machine.execRegisterWrite offs v s
  | .dynamicAddressAssign setdasa addr => Sys2Proof.Machine.execDynamicAddressAssign setdasa addr s
  | .endpointIdAssign eid => Sys2Proof.Machine.execEndpointIdAssign eid s
  | .getStatus inst => Sys2Proof.Machine.execGetStatus inst s
  | .setRepairs inst final entries => Sys2Proof.Machine.execSetRepairs inst final entries s
  | .getRepairs inst first => Sys2Proof.Machine.execGetRepairs inst first s
  | .readCounters inst first count => Sys2Proof.Machine.execReadCounters inst first count s
  | .readReg inst offs => Sys2Proof.Machine.execReadReg inst offs s
  | .selectImage inst b => Sys2Proof.Machine.execSelectImage inst b s
  | .flashErase inst offs => Sys2Proof.Machine.execFlashErase inst offs s
  | .flashWrite inst offs bytes => Sys2Proof.Machine.execFlashWrite inst offs bytes s
  | .flashRead inst offs len => Sys2Proof.Machine.execFlashRead inst offs len s
  | .setSvnMin inst svn => Sys2Proof.Machine.execSetSvnMin inst svn s
  | .revokeKey inst slot => Sys2Proof.Machine.execRevokeKey inst slot s
  | .reset inst => Sys2Proof.Machine.execReset inst s
  | .railSample inTolerance => Sys2Proof.Machine.execRailSample inTolerance s
  | .vaonRecover => Sys2Proof.Machine.execVaonRecover s
  | .dieTempSample cd bd iod => Sys2Proof.Machine.execDieTempSample cd bd iod s
  | .powerSample watts => Sys2Proof.Machine.execPowerSample watts s
  | .opticalTempSample links media => Sys2Proof.Machine.execOpticalTempSample links media s
  | .exitAttempt untrainable railsBad => Sys2Proof.Machine.execExitAttempt untrainable railsBad s
  | .sysclk25Stop => Sys2Proof.Machine.execSysclk25Stop s
  | .peRefclkStop => Sys2Proof.Machine.execPeRefclkStop s
  | .refclk156LStop => Sys2Proof.Machine.execRefclk156LStop s
  | .refclk156MStop => Sys2Proof.Machine.execRefclk156MStop s
  | .obsFilter v => Sys2Proof.Machine.execObsFilter v s
  | .obsRing v => Sys2Proof.Machine.execObsRing v s
  | .obsCons v => Sys2Proof.Machine.execObsCons v s
  | .traceDomainPowered => Sys2Proof.Machine.execTraceDomainPowered s
  | .traceRecordWrite => Sys2Proof.Machine.execTraceRecordWrite s
  | .traceWriteError => Sys2Proof.Machine.execTraceWriteError s
  | .eventRecordWrite => Sys2Proof.Machine.execEventRecordWrite s
  | .event => Sys2Proof.Machine.execEvent s
  | .evtRing v => Sys2Proof.Machine.execEvtRing v s
  | .evtCons v => Sys2Proof.Machine.execEvtCons v s
  | .endpointLinkUp => Sys2Proof.Machine.execEndpointLinkUp s
  | .storageLinkUp conforms nsze => Sys2Proof.Machine.execStorageLinkUp conforms nsze s
  | .sysclk25Return => Sys2Proof.Machine.execSysclk25Return s
  | .testPortClock tms tdi trstN pins => Sys2Proof.Machine.execTestPortClock tms tdi trstN pins s

end Sys2Proof.Machine
end

