-- ==== Sys2Proof/Machine/Idle.lean ====
section
/-! DEFINITION. What one cycle of the 25 MHz reference does while no command waits (02 R417, 21 R381, 22 R397; log entry
49). -/

namespace Sys2Proof.Machine

/-- Local time advances by 40 ns, unless SYS_RST_N is held or the reference has stopped (02 R417, 23 R413). -/
def tick40 (s : State) : State :=
  if s.boot.inReset || !s.pwr.sysclk then s else { s with time := (s.time + 40) % 2 ^ 64 }

/-- Vector 65 is signalled once 2 µs have passed since the last signal, where one is due (22 R397). -/
def sigIfDue (s : State) : State := if s.ev.sigDue then evSignal s else s

/-- Threads of a cluster that wait on a translation fault. -/
def faultWaiters (cl : ClusterSt) : Nat :=
  (cl.threads.filter fun h => h.state == .waiting && match h.wait with
    | .fault _ => true
    | _ => false).length

/-- A counter advances by n; an advance of 0 changes nothing. -/
def ctrGrow (s : State) (i n : Nat) : State := if n = 0 then s else ctrAdd s i n

/-- The counters of Table 21.1 that count time, at the end of a microsecond: thread-cycles that wait on translation
faults, stacks at raised refresh or capped, ports with fewer than 4 active links, stalled engines, media ports whose link is
down. -/
def microCounters (s : State) : State :=
  let s1 := each (List.range 144) (fun s c => ctrGrow s (ctrCluster c 6) (faultWaiters (clAt s c) * (100 * clockOf s c))) s
  let s2 := each (List.range 20) (fun s n =>
    let k := unit s.mem.stks n StackSt.reset
    ctrGrow (ctrGrow s (ctrStack n 3) (stacksPowered s && (decide (0 < k.row) || k.noReading)).toNat) (ctrStack n 4)
      (stacksPowered s && decide (3 ≤ k.row)).toNat) s1
  let s3 := each (List.range 8) (fun s p =>
    ctrGrow s (ctrPort p 1) ((linksOn s && (portAt s p).state != .unused && decide ((activeLinks s p).length < 4)).toNat)) s2
  let s4 := each (List.range 64) (fun s e => ctrGrow s (ctrEngine e 3) (engStalled (engAt s e)).toNat) s3
  each (List.range 4) (fun s p => ctrGrow s (ctrMedia p 3) (((mportAt s p).powered && !(mportAt s p).linkUp).toNat)) s4

/-- The counters of time count when local time passes a whole microsecond. -/
def microDue (before : Nat) (s : State) : State := if before / 1000 = s.time / 1000 then s else microCounters s

/-- One idle cycle. A store that was not identified in time counts as absent (16 R304), and shards that waited for room in the retention region leave once there is room (15 R290). -/
def idle (s : State) : State :=
  let s1 := storeDue (sigIfDue (microDue s.time (tick40 s)))
  if colOn s1 then pump s1 else s1

end Sys2Proof.Machine
end

