-- ==== Sys2Proof/Safety.lean ====
section
/-! DEFINITION. What a sound state of the device is, and what it means that a command changes only some parts of it. Claims
about every step are stated with them. -/

namespace Sys2Proof.Machine

/-- The device has the numbers of units the spec gives it (01 Table 1.2): tick domains, sequence slots, clusters, stacks,
engines, catalogue entries, links, ports, codec contexts, flows, media ports, quadrants. -/
def unitsOk (s : State) : Prop :=
  s.dom.length = 4 ∧ s.seq.length = 32 ∧ s.cl.length = 144 ∧ s.mem.stks.length = 20 ∧ s.eng.length = 64 ∧
  s.wgt.length = 16 ∧ s.link.length = 32 ∧ s.port.length = 8 ∧ s.cod.ctxs.length = 128 ∧ s.flow.length = 48 ∧
  s.mport.length = 4 ∧ s.pwr.quads.length = 4

/-- Every memory is a canonical list of cells. -/
def memsOk (s : State) : Prop :=
  memWf zeroByte s.mem.stack = true ∧ memWf zeroByte s.st.cs = true ∧ memWf zeroByte s.st.host = true ∧
  memWf erasedByte s.boot.flash = true ∧ memWf zeroByte s.snp.store = true

/-- The event buffer holds at most 4,096 records (22 R394). -/
def eventsOk (s : State) : Prop := s.ev.buf.length ≤ 4096

/-- The form that every state of the device has. -/
def Sound (s : State) : Prop := unitsOk s ∧ memsOk s ∧ eventsOk s

/-- Nothing that is burned in a fuse goes back (19 R365): the minimum SVN does not fall, the key hashes stay, a revoked
slot stays revoked. -/
def FusesGrow (s t : State) : Prop :=
  s.boot.svnMin ≤ t.boot.svnMin ∧ t.boot.keyHashes = s.boot.keyHashes ∧ ∀ k ∈ s.boot.revoked, k ∈ t.boot.revoked

/-- Where a domain stands: its clock runs, its tick number, its phase, its rate and its source. -/
abbrev DomSt.face (x : DomSt) : Bool × Nat × Phase × Nat × Nat := (x.running, x.tickNo, x.phase, x.rate, x.source)

/-- What a domain's latched record and its clock bring at the next boundary (02 R15-R17, R25), and the device's place in the
domain's admission queue (13 R243). -/
abbrev DomSt.latched (x : DomSt) :
    Option PlanRec × Nat × Bool × Option (Nat × Nat × Nat) × Option (Nat × Int) × Nat × Option (List FlowCfg) ×
      Nat × Nat × Nat × Bool × Bool :=
  (x.plan, x.latchedGen, x.latchedSlot, x.nextRate, x.renumber, x.ptpPort, x.flowsNext, x.cons, x.qStart, x.qEnd,
    x.admitting, x.consOwn)

/-- What is burned in the fuses. -/
abbrev BootSt.fuses (x : BootSt) : Nat × List (BitVec 384) × List Nat := (x.svnMin, x.keyHashes, x.revoked)

/-- The parts of the state beside the queue: its fields; the bytes of the stacks, of the cluster stores and of host
memory by themselves; where the domains stand, and what they have latched; keep-alive mode; the fuses. -/
inductive Part where
  | free
  | nextNum
  | out
  | time
  | dom
  | seq
  | cl
  | mem
  | st
  | xlt
  | eng
  | wgt
  | link
  | port
  | self
  | col
  | snp
  | cod
  | flow
  | mport
  | boot
  | hif
  | jtag
  | pwr
  | obs
  | ev
  | stackBytes
  | storeBytes
  | hostBytes
  | phases
  | keepalive
  | fuses
  | latches
deriving DecidableEq, Repr

/-- A part is the same in two states. -/
def Part.same (s t : State) : Part → Prop
  | .free => t.free = s.free
  | .nextNum => t.nextNum = s.nextNum
  | .out => t.out = s.out
  | .time => t.time = s.time
  | .dom => t.dom = s.dom
  | .seq => t.seq = s.seq
  | .cl => t.cl = s.cl
  | .mem => t.mem = s.mem
  | .st => t.st = s.st
  | .xlt => t.xlt = s.xlt
  | .eng => t.eng = s.eng
  | .wgt => t.wgt = s.wgt
  | .link => t.link = s.link
  | .port => t.port = s.port
  | .self => t.self = s.self
  | .col => t.col = s.col
  | .snp => t.snp = s.snp
  | .cod => t.cod = s.cod
  | .flow => t.flow = s.flow
  | .mport => t.mport = s.mport
  | .boot => t.boot = s.boot
  | .hif => t.hif = s.hif
  | .jtag => t.jtag = s.jtag
  | .pwr => t.pwr = s.pwr
  | .obs => t.obs = s.obs
  | .ev => t.ev = s.ev
  | .stackBytes => t.mem.stack = s.mem.stack
  | .storeBytes => t.st.cs = s.st.cs
  | .hostBytes => t.st.host = s.st.host
  | .phases => t.dom.map DomSt.face = s.dom.map DomSt.face
  | .keepalive => t.pwr.keepalive = s.pwr.keepalive
  | .fuses => t.boot.fuses = s.boot.fuses
  | .latches => t.dom.map DomSt.latched = s.dom.map DomSt.latched

/-- Only the parts of a list may differ. -/
def ChangesOnly (l : List Part) (s t : State) : Prop := ∀ p, p ∉ l → p.same s t

/-! ### Which commands do what -/

/-- Commands that move a domain's tick or phase, or put the device into reset or out of it. -/
def movesTick : Instr → Bool
  | .tickBoundary _ | .computeWindowStart _ | .computeWindowEnd _ | .guardStart _ => true
  | .boot _ | .sysRstAssert | .reset _ | .railSample _ | .vaonRecover | .sysclk25Stop | .sysclk25Return => true
  | _ => false

/-- Commands that can bring the device into keep-alive mode (10 R196, 20 R370, R374-R376, 19 R357), out of it (20 R379), or
into reset. -/
def movesKeepalive : Instr → Bool
  | .dieTempSample _ _ _ | .powerSample _ | .railSample _ | .stackTempSample _ | .channelRetrain _ _
  | .retrainDone _ _ _ | .setRepairs _ _ _ | .repairListTimeout | .exitAttempt _ _ => true
  | .sysRstAssert | .reset _ | .sysclk25Stop => true
  | _ => false

/-- Commands that can change what is burned in the fuses. -/
def burnsFuse : Instr → Bool
  | .setSvnMin _ _ | .revokeKey _ _ => true
  | _ => false

/-! ### What statements about a command start from -/

/-- What raising events can change: the event path with the counters and the trace, the summaries that stand in a domain's
and the power registers, and the free values drawn (22 R394-R396). -/
abbrev eventParts : List Part := [.free, .dom, .pwr, .obs, .ev]

/-- A cluster issues an instruction of `nbytes`: the thread that R165 chooses, the instruction's address and the state that
the instruction's own effect starts from; none where nothing may issue or the fetch faults (09 R165, R167). -/
def issued (s : State) (c nbytes : Nat) : Option (Nat × Word64 × State) :=
  if !mayIssue s c then none
  else
    match pickThread s c with
    | none => none
    | some t =>
      let s1 := modCl s c freeExited
      let pc := (thrAt s1 c t).pc
      if sliceSize s1 ≤ gIndex pc then none
      else
        let f := fetchXl s1 c pc nbytes
        match f.1 with
        | some _ => none
        | none =>
          some (t, pc, modCl f.2 c fun cl => { cl with
            issues := cl.issues + 1
            threads := cl.threads.modify t fun h =>
              { h with pc := pc + BitVec.ofNat 64 nbytes, stamp := cl.issues + 1 } })

/-- Only one thread differs: nothing else of the state, of any cluster, and no other thread. -/
def OnlyThread (c t : Nat) (s u : State) : Prop :=
  ChangesOnly [.cl] s u ∧ (∀ k, { clAt u k with threads := [] } = { clAt s k with threads := [] }) ∧
    ∀ k n, ¬(k = c ∧ n = t) → thrAt u k n = thrAt s k n

/-- An entry of a domain's admission queue is next: the admit phase's part is open, the device reads the entry's bytes, and
its OP is `op` (13 R243, R244). `v` is the state after the read. -/
def EntryNext (s : State) (d op : Nat) (bs : List Byte) (v : State) : Prop :=
  (domAt s d).admitting = true ∧ s.pwr.keepalive = false ∧ s.boot.inReset = false ∧ peekEntry s d = (some bs, v) ∧
    fld bs 0 1 = op

/-- The slot of an entry other than ADMIT is active in the queue's domain, and its ring has been checked. -/
def SlotReady (s : State) (d n : Nat) : Prop :=
  (seqAt s n).state = .active ∧ (seqAt s n).domain = d ∧ (seqAt s n).recheck = false

/-- The ranges of its store that a VEW, VCVT or VSF reads (06 R100, R102). -/
def vecReads (j : VecJob) : List (Nat × Nat) :=
  rangesX j.d
    ++ (if j.opc = 0x50 ∧ j.func < 6 then matRanges j.d.yFmt j.d.yBase j.d.yLd 0 0 j.d.rows j.d.cols else [])
    ++ (if j.opc = 0x50 ∧ j.func = 3 then matRanges j.d.zFmt j.d.zBase j.d.zLd 0 0 j.d.rows j.d.cols else [])

/-- Element (r, k) of the result of a VEW, VCVT or VSF, before its one rounding, from the operands that `s` holds (06 Table
6.1, R105). -/
def vecElem (s : State) (c : Nat) (j : VecJob) (r k : Nat) : Fv :=
  let x := ((rowX s c j.d r).getD k (Fv.poison, false)).1
  match j.opc with
  | 0x50 =>
    vewElem j.func x (if j.func < 6 then (rowY s c j.d r).getD k Fv.poison else x)
      (if j.func = 3 then (rowZ s c j.d r).getD k Fv.poison else x)
  | 0x53 => (evalSlot s j.func x).1
  | _ => x

/-- The values of the in-extent elements of a row of X. -/
abbrev vecVals (s : State) (c : Nat) (d : VecDesc) (r : Nat) : List Val := (rowX s c d r).map (·.1.v)

/-- The rows of Z lie apart, and so do the regions that the instruction writes. -/
def RowsApart (j : VecJob) : Prop :=
  (vecLen j.d.zFmt j.d.cols ≤ j.d.zLd ∨ j.d.rows ≤ 1) ∧ (j.d.zFmt ≤ 4 → cdiv j.d.cols 32 ≤ j.d.zSld ∨ j.d.rows ≤ 1) ∧
    (vecOutputs j).Pairwise fun a b => regionsMeet a b = false

/-- FLAGS of a VSOFT record (06 R116): a clamp, a count above 2^27, poison, each with what the record before it had. -/
def softFlags (xs : List Val) (count old : Nat) : Nat :=
  ((xs.any fun x => (clampLogit x).2) || bitOn old 0).toNat + 2 * (decide (2 ^ 27 < count) || bitOn old 1).toNat
    + 4 * (xs.any (·.isNone) || bitOn old 2).toNat

/-- The state in which a detection instruction has read its inputs (08 R159, 06 R102). -/
def detTouch (c slot : Nat) (nms : Bool) (d : DetDesc) (s : State) : State :=
  touchAll s bVEC c slot ((detInputs nms d).map fun r => (r.1, r.2 - r.1))

/-- The pieces of a transfer command, once its ring descriptor or container header has been read, with the state after that
read; none where it cannot be read (07 R132, 11 R206, R207, R215). -/
def transferPieces (e : Nat) (c : DmaCmd) (s : State) :
    Option (List (Nat × (Xfer → PieceEnd × Xfer))) × State :=
  match cmdOp c with
  | 0x01 => let r := readRing s (kvDesc c).seq; (r.1.map fun d => putPieces d (kvDesc c), r.2)
  | 0x02 => let r := readRing s (kvDesc c).seq; (r.1.map fun d => getPieces e d (kvDesc c), r.2)
  | 0x10 => (some (copyPieces e (dmaDesc c)), s)
  | 0x11 => (some (packPieces (dmaDesc c)), s)
  | 0x12 => (some (unpackPieces e (dmaDesc c)), s)
  | 0x13 =>
    let h := readContainer s (gLocal (dmaDesc c).src) (4 + e)
    (match h.1 with
     | .data _ _ true =>
       some ((List.range (dmaDesc c).p1).map fun i =>
         (unitSectors h.2.1 ((dmaDesc c).p0 + i), inPiece e (dmaDesc c) h.2.1 i))
     | _ => none, h.2.2)
  | 0x14 =>
    let h := readContainer s (gLocal (dmaDesc c).dst) (4 + e)
    (match h.1 with
     | .data _ _ true =>
       some ((List.range (dmaDesc c).p1).map fun i =>
         (0, outPiece (dmaDesc c) h.2.1 i))
     | _ => none, h.2.2)
  | _ => (none, s)

/-- The command that an engine starts next, and the state in which it starts: the engine is free to run, its host queue has
been read, the command has left its queue (11 R211-R213). -/
def starts (s : State) (e : Nat) : Option (DmaCmd × State) :=
  if engFree s e then
    let u := readQueue e (ownedEntries (engAt s e)) s
    (nextCmd u e).map fun c => (c, takeCmd u e c)
  else none

end Sys2Proof.Machine
end

