-- ==== Sys2Proof/Certificates/Slice0/Obligations.lean ====
section
/-! DEFINITION. The statements for the provers. -/

open Sys2Proof Sys2Proof.Machine

/-- For every command c and state s, a step with c at the front of the queue is exec of c on s with the queue's rest. The
queue is the model's own (log entry 49). (95, 02) -/
def Obligations.StepRunsFront : Prop :=
  ∀ (c : Instr) (rest : List Instr) (s : State),
    step { s with pending := c :: rest } = exec c { s with pending := rest }

/-- From every sound state (the numbers of units the spec gives, every memory a canonical list of bytes, at most 4,096
event records), every step that answers a next state answers a sound one, whatever the command at the front, and on an
empty queue. (01, 10, 22) -/
def Obligations.StepKeepsSound : Prop :=
  ∀ s t : State, Sound s → step s = .next t → Sound t

/-- The state after reset has the numbers of units the spec gives, canonical memories and an event buffer within its
bound. (01, 10, 22) -/
def Obligations.ResetIsSound : Prop :=
  Sound State.reset

/-- For every command and state, exec answers a next state whose queue of waiting commands is the one it was given, in
which the fused minimum SVN is not lower, the fused key hashes are the same and every revoked key slot is still
revoked; and every command but SET_SVN_MIN and REVOKE_KEY leaves all three exactly as they were. (The queue is the
model's own, log entry 49; a reset of the device does not take waiting commands back.) (19, 95) -/
def Obligations.FusesAndQueueAreKept : Prop :=
  ∀ (c : Instr) (s : State), ∃ t, exec c s = .next t ∧ t.pending = s.pending ∧ FusesGrow s t ∧
    (burnsFuse c = false → t.boot.fuses = s.boot.fuses)

/-- For every command that is not a tick boundary, a start or end of the compute window, a start of guard, or a command
that resets or boots the device, exec leaves the tick number, the phase, the running flag, the rate and the source of
every domain as they were. For every command outside the list movesKeepalive (temperature, power and rail samples,
channel retraining, the boot's training, an exit attempt, resets), exec leaves keep-alive mode as it was. (02, 20, 10,
19) -/
def Obligations.OnlyTheseMoveTickAndMode : Prop :=
  ∀ (c : Instr) (s t : State), exec c s = .next t →
    (movesTick c = false → ∀ d, (domAt t d).face = (domAt s d).face) ∧
    (movesKeepalive c = false → t.pwr.keepalive = s.pwr.keepalive)

/-- Where a boundary may occur (past boot step 3, at guard or with no tick begun) and no renumbering is due, TICK_BOUNDARY
of domain d answers a next state in which d runs, its tick number is 0 at its first boundary and 1 more at every later
one, and its phase is admit (or no-record); every other domain stands where it stood. (R16, R19) -/
def Obligations.BoundaryAdvancesTick : Prop :=
  ∀ (d : Dom) (s : State), Sound s → boundaryMay s d = true → (domAt s d).renumber = none →
    ∃ t, exec (.tickBoundary d) s = .next t ∧
      (domAt t d).running = true ∧
      ((domAt s d).running = true → (domAt t d).tickNo = (domAt s d).tickNo + 1) ∧
      ((domAt s d).running = false → (domAt t d).tickNo = 0) ∧
      ((domAt t d).phase = .admission ∨ (domAt t d).phase = .noRecord) ∧
      ∀ e, e ≠ d.val → (domAt t e).face = (domAt s e).face

/-- Out of reset, in a running domain. COMPUTE_WINDOW_START ends the admit phase and begins the compute window: the window
starts now, what the last tick stopped and charged is cleared, and with the stacks on the placed items of the work
list begin in its order; no other domain, slot, cluster or memory changes before they do. COMPUTE_WINDOW_END ends the
window and begins drain: outside keep-alive mode every active slot keeps what it has been charged, TCK.021 marks the
slots with L0 work left and shows in the domain, the running items are saved in the order of the work list, and placed
items wait again. GUARD_START ends drain and begins guard: the eaves entries leave and the slots of the domain are
counted and judged, in order. The tick number, rate and source and every other domain stay. In another phase each
command changes nothing (the model's reading of an event that does not occur, log entry 1). (R19, R20, R21, R29, R31) -/
def Obligations.PhasesFollow : Prop :=
  ∀ (d : Dom) (s : State), Sound s → s.boot.inReset = false → (domAt s d).running = true →
    ((domAt s d).phase = .admission →
      (∃ t, exec (.computeWindowStart d) s = .next t ∧
        (domAt t d).phase = .window ∧ (domAt t d).tickNo = (domAt s d).tickNo ∧
        (domAt t d).admitting = false ∧ ∀ e, e ≠ d.val → (domAt t e).face = (domAt s e).face) ∧
      ((domAt s d).admitting = false → s.mem.on = true → s.pwr.keepalive = false →
        ∃ t u, exec (.computeWindowStart d) s = .next t ∧
          t = each (workList u d fun i => i.phase == .placed) (fun x w => beginItem w.1 w.2 x) u ∧
          domAt u d = { domAt s d with phase := .window, windowStart := s.time, stopL1 := false, stopL2 := false, payer := none } ∧
          (∀ e, e ≠ d.val → domAt u e = domAt s e) ∧
          (∀ n ∈ activeSlots s d, seqAt u n =
            { seqAt s n with chargedNs := 0, exemptNs := 0, lateCp2 := false, late21 := false }) ∧
          (∀ n, n ∉ activeSlots s d → seqAt u n = seqAt s n) ∧ u.cl = s.cl ∧ u.mem = s.mem ∧ u.st = s.st)) ∧
    ((domAt s d).phase ≠ .admission → exec (.computeWindowStart d) s = .next s) ∧
    ((domAt s d).phase = .window →
      (∃ t, exec (.computeWindowEnd d) s = .next t ∧
        (domAt t d).phase = .drain ∧ (domAt t d).tickNo = (domAt s d).tickNo ∧
        ∀ e, e ≠ d.val → (domAt t e).face = (domAt s e).face) ∧
      (s.pwr.keepalive = false →
        ∃ t u v, exec (.computeWindowEnd d) s = .next t ∧
          t = each (activeSlots s d) (fun x n => modSeq x n fun q => { q with items := q.items.map unplace }) v ∧
          v = each (workList u d fun i => i.phase == .running) (fun x w => saveItem none w.1 w.2 x) u ∧
          domAt u d = { domAt s d with phase := .drain, events := (domAt u d).events } ∧
          ((∀ n ∈ activeSlots s d, workLate (seqAt s n) = false) → (domAt u d).events = (domAt s d).events) ∧
          ((∃ n ∈ activeSlots s d, workLate (seqAt s n) = true) → (domAt u d).events = (domAt s d).events ||| 16) ∧
          (∀ e, e ≠ d.val → domAt u e = domAt s e) ∧
          (∀ n ∈ activeSlots s d, seqAt u n = { seqAt s n with
            chargedNs := charged s n, late21 := (seqAt s n).late21 || workLate (seqAt s n) }) ∧
          (∀ n, n ∉ activeSlots s d → seqAt u n = seqAt s n) ∧ u.cl = s.cl ∧ u.mem = s.mem ∧ u.st = s.st)) ∧
    ((domAt s d).phase ≠ .window → exec (.computeWindowEnd d) s = .next s) ∧
    ((domAt s d).phase = .drain →
      (∃ t, exec (.guardStart d) s = .next t ∧
        (domAt t d).phase = .guard ∧ (domAt t d).tickNo = (domAt s d).tickNo ∧
        ∀ e, e ≠ d.val → (domAt t e).face = (domAt s e).face) ∧
      (s.pwr.keepalive = false →
        ∃ t u, exec (.guardStart d) s = .next t ∧ t = each (activeSlots s d) (guardSlot d) (eavesFlushAll u) ∧
          domAt u d = { domAt s d with phase := .guard } ∧ (∀ e, e ≠ d.val → domAt u e = domAt s e) ∧
          u.seq = s.seq ∧ u.cl = s.cl ∧ u.mem = s.mem ∧ u.st = s.st)) ∧
    ((domAt s d).phase ≠ .drain → exec (.guardStart d) s = .next s)

/-- In the compute window, outside keep-alive mode and reset, CHECKPOINT answers the same state where no active sequence
of the domain is projected late. Where some are, it stops L2 for the tick, and L1 too at CP2; the lowest late slot
pays; TCK.020 shows in the domain; at CP2 the late slots keep no positive allowance; and then the running items of the
pre-empted classes are saved, in the order of the work list, before any waiting step starts on an array. (R28, R29) -/
def Obligations.CheckpointPreempts : Prop :=
  ∀ (d : Dom) (second : Bool) (s : State), Sound s →
    (domAt s d).phase = .window → s.pwr.keepalive = false → s.boot.inReset = false →
    ∃ t u, exec (.checkpoint d second) s = .next t ∧
      ((activeSlots s d).filter (projectedLate s d) = [] → t = s) ∧
      ∀ p rest, (activeSlots s d).filter (projectedLate s d) = p :: rest →
        t = startAll (each (preemptList u d second) (fun x w => saveItem (some p) w.1 w.2 x) u) ∧
        (domAt u d).stopL2 = true ∧ (domAt u d).stopL1 = ((domAt s d).stopL1 || second) ∧
        (domAt u d).payer = some p ∧ (domAt u d).events = (domAt s d).events ||| 8 ∧
        (domAt u d).face = (domAt s d).face ∧ (∀ e, e ≠ d.val → domAt u e = domAt s e) ∧
        (∀ n, second = true → n ∈ p :: rest → seqAt u n = { forfeit (seqAt s n) with lateCp2 := true }) ∧
        (∀ n, second = false ∨ n ∉ p :: rest → seqAt u n = seqAt s n) ∧
        u.cl = s.cl ∧ u.mem = s.mem

/-- Where the next entry of a domain's admission queue has the OP of the command, each of ADMIT, DEPART, CHUNK_BEGIN,
CHUNK_END and WORK answers the state after that entry: what follows it is the shared rest of the admit phase (bad
entries refused, then steps 5 to 7), and before that rest the domain's position has moved by one entry and the phase,
tick and rate of every domain stand. (R243, R244) -/
def Obligations.EntryMovesConsumer : Prop :=
  ∀ (d : Dom) (bs : List Byte) (s v : State) (c : Instr) (op : Nat), Sound s →
    (c, op) ∈ [(Instr.admitSlot d, 1), (.depart d, 2), (.chunkBegin d, 3), (.chunkEnd d, 4), (.work d, 5)] →
    EntryNext s d op bs v →
    ∃ t w, exec c s = .next t ∧ t = afterEntry d w ∧ (domAt w d).cons = (domAt s d).cons + 1 ∧
      ChangesOnly (eventParts ++ [.latches, .nextNum, .seq, .cl, .mem, .stackBytes, .xlt, .wgt]) s w

/-- An ADMIT entry with valid fields, a free slot, a live model, a ring descriptor that meets Table 7.3 and room for its
reservation is processed with outcome 1: the slot is active in the domain with the entry's class, model, addresses and
save count, the reservation of R246 and the tick of admission, and no other slot changes; then the tags of its ring
are cleared. (R244, R245, R246, R126) -/
def Obligations.AdmitFillsTheSlot : Prop :=
  ∀ (d : Dom) (bs all : List Byte) (s v w : State), Sound s → EntryNext s d 1 bs v →
    fld bs 1 1 < 32 → fld bs 2 1 ≤ 2 → fld bs 3 1 ≤ 15 → fld bs 0x10 8 < 2 ^ 52 → fld bs 0x18 8 < 2 ^ 52 → fld bs 0x28 8 < 2 ^ 52 →
    fld bs 0x28 8 % 65536 = 0 → 1 ≤ fld bs 0x30 2 → fld bs 0x30 2 ≤ 144 →
    (seqAt v (fld bs 1 1)).state = .free → modelLive v (fld bs 3 1) = true → fld bs 0x10 8 % 64 = 0 →
    devRead v (.lva (fld bs 0x10 8)) ringSize = (some all, w) → ringOk (ringDesc all) = true →
    reservedAll w + (ringTotal (ringDesc all) + statsTotal (ringDesc all) + fld bs 0x20 8 + fld bs 0x30 2 * 4259840)
      ≤ param w 0x070 →
    ∃ t u, exec (.admitSlot d) s = .next t ∧
      t = afterEntry d (entryEnd d (fld bs 1 1) (none, ringClear u (fld bs 1 1))) ∧
      (seqAt u (fld bs 1 1)).state = .active ∧ (seqAt u (fld bs 1 1)).domain = d ∧
      (seqAt u (fld bs 1 1)).cls = fld bs 2 1 ∧ (seqAt u (fld bs 1 1)).running = fld bs 3 1 ∧
      (seqAt u (fld bs 1 1)).kvDesc.toNat = fld bs 0x10 8 ∧ (seqAt u (fld bs 1 1)).saveN = fld bs 0x30 2 ∧
      (seqAt u (fld bs 1 1)).admitTick = (domAt s d).tickNo ∧
      (seqAt u (fld bs 1 1)).reserved =
        ringTotal (ringDesc all) + statsTotal (ringDesc all) + fld bs 0x20 8 + fld bs 0x30 2 * 4259840 ∧
      (∀ n, n ≠ fld bs 1 1 → seqAt u n = seqAt s n) ∧
      ChangesOnly (eventParts ++ [.seq, .mem, .stackBytes, .xlt]) s u

/-- A DEPART entry of an active slot of the queue's domain is processed with outcome 1: the slot is departing, with no
pending batch and no move due; it is not free (a later admit phase frees it, R248). (R247, R244) -/
def Obligations.DepartMakesTheSlotDepart : Prop :=
  ∀ (d : Dom) (bs : List Byte) (s v : State), Sound s → EntryNext s d 2 bs v → fld bs 1 1 < 32 → SlotReady v d (fld bs 1 1) →
    ∃ t u, exec (.depart d) s = .next t ∧ t = afterEntry d (entryEnd d (fld bs 1 1) (none, u)) ∧
      (seqAt u (fld bs 1 1)).state = .departing ∧ (seqAt u (fld bs 1 1)).batches = [] ∧ (seqAt u (fld bs 1 1)).moves = [] ∧
      ChangesOnly (eventParts ++ [.seq, .cl, .mem, .stackBytes, .xlt, .wgt]) s u

/-- For an active slot whose descriptor reads, CHUNK_BEGIN of chunk g that the ring allows begins it (its tags, its
summaries, ACTIVE_HI and, in an empty ring, ACTIVE_LO) with outcome 1, and one that the ring does not allow is refused
with ATT.002, after which the slot's WORK entries are refused until a CHUNK_BEGIN succeeds; CHUNK_END of the oldest
chunk ends it, and of any other is refused with ATT.002. (R129, R244) -/
def Obligations.ChunkEntriesMoveTheRing : Prop :=
  ∀ (d : Dom) (bs : List Byte) (k : RingDesc) (s v w : State), fld bs 1 1 < 32 → fld bs 8 8 < 2 ^ 48 →
    SlotReady v d (fld bs 1 1) → readRing v (fld bs 1 1) = (some k, w) →
    (EntryNext s d 3 bs v → beginOk k (fld bs 8 8) = true → ∃ t, exec (.chunkBegin d) s = .next t ∧
      t = afterEntry d (entryEnd d (fld bs 1 1)
        (none, modSeq (beginChunk w (fld bs 1 1) k (fld bs 8 8)) (fld bs 1 1) fun q => { q with beginRefused := false }))) ∧
    (EntryNext s d 3 bs v → beginOk k (fld bs 8 8) = false → ∃ t, exec (.chunkBegin d) s = .next t ∧
      t = afterEntry d (entryEnd d (fld bs 1 1)
        (some (bATT, 2), modSeq w (fld bs 1 1) fun q => { q with beginRefused := true }))) ∧
    (EntryNext s d 4 bs v → k.lo = some (fld bs 8 8) → ∃ t, exec (.chunkEnd d) s = .next t ∧
      t = afterEntry d (entryEnd d (fld bs 1 1) (none, endChunk w (fld bs 1 1) k))) ∧
    (EntryNext s d 4 bs v → k.lo ≠ some (fld bs 8 8) → ∃ t, exec (.chunkEnd d) s = .next t ∧
      t = afterEntry d (entryEnd d (fld bs 1 1) (some (bATT, 2), w)))

/-- A WORK entry of an active slot with a 64-byte aligned list of 1 to 64 valid records, within the bounds of 8 batches
and 64 items, is processed with outcome 1: one batch joins the slot, with the entry's target tick and as many waiting
items as the list has records, numbered from the next number on; nothing else of the slot and no other slot changes.
(R249, R244) -/
def Obligations.WorkAddsABatch : Prop :=
  ∀ (d : Dom) (bs all : List Byte) (s v w : State), Sound s → EntryNext s d 5 bs v → fld bs 1 1 < 32 →
    SlotReady v d (fld bs 1 1) → (seqAt v (fld bs 1 1)).beginRefused = false →
    fld bs 0x10 8 % 64 = 0 → fld bs 0x10 8 < 2 ^ 52 → 1 ≤ fld bs 0x18 8 → fld bs 0x18 8 ≤ 64 →
    (seqAt v (fld bs 1 1)).batches.length < 8 →
    (seqAt v (fld bs 1 1)).items.length + ((seqAt v (fld bs 1 1)).batches.map (·.items.length)).sum + fld bs 0x18 8 ≤ 64 →
    devRead v (.lva (fld bs 0x10 8)) (64 * fld bs 0x18 8) = (some all, w) →
    (∀ k, k < fld bs 0x18 8 → itemWf (seqAt v (fld bs 1 1)) ((all.drop (64 * k)).take 64) = true) →
    ∃ t u b, exec (.work d) s = .next t ∧ t = afterEntry d (entryEnd d (fld bs 1 1) (none, u)) ∧
      seqAt u (fld bs 1 1) = { seqAt v (fld bs 1 1) with batches := (seqAt v (fld bs 1 1)).batches ++ [b] } ∧
      b.target = fld bs 8 8 ∧ b.items.length = fld bs 0x18 8 ∧
      b.items.map (·.num) = (List.range (fld bs 0x18 8)).map (fun k => w.nextNum + k) ∧
      (∀ i ∈ b.items, i.phase = .waiting ∧ i.placed = []) ∧
      (∀ n, n ≠ fld bs 1 1 → seqAt u n = seqAt v n) ∧ u.cl = s.cl

/-- A running PTP-locked domain that has time and loses its source enters holdover and raises TCK.001 with its tick number
unaltered; at its boundaries in holdover the phase error is not slewed (it runs on the 25 MHz reference). When the
source returns, holdover ends, TCK.002 is raised, and at the next boundary at an unchanged rate the phase error that
the source reports is slewed as R17 says. (R18) -/
def Obligations.HoldoverKeepsTheTick : Prop :=
  ∀ (d : Dom) (s : State), Sound s → (domAt s d).running = true → (domAt s d).source = 1 →
    ((domAt s d).hasTime = true → ∃ t u, exec (.ptpSourceLost d) s = .next t ∧ t = raise u bTCK 1 (locDomain d) noSeq 0 ∧
      ChangesOnly [.dom] s u ∧ (domAt t d).holdover = true ∧ (domAt t d).hasTime = false ∧ (domAt t d).tickNo = (domAt s d).tickNo ∧
      (∀ e, e ≠ d.val → domAt t e = domAt s e) ∧
      (∀ now, (domAt s d).nextRate = none → (domAt s d).renumber = none →
        (nextBoundary now (domAt t d)).1.tickNo = (domAt s d).tickNo + 1 ∧
        (nextBoundary now (domAt t d)).1.phaseErr = (domAt s d).phaseErr)) ∧
    ((domAt s d).holdover = true → ∀ err, ∃ t u, exec (.ptpSourceReturn d err) s = .next t ∧
      t = raise u bTCK 2 (locDomain d) noSeq 0 ∧ ChangesOnly [.dom] s u ∧ (domAt t d).holdover = false ∧
      (domAt t d).tickNo = (domAt s d).tickNo ∧ (∀ e, e ≠ d.val → domAt t e = domAt s e) ∧
      (∀ now, (domAt s d).nextRate = none → (domAt s d).renumber = none →
        (nextBoundary now (domAt t d)).1.tickNo = (domAt s d).tickNo + 1 ∧
        (nextBoundary now (domAt t d)).1.phaseErr = slewed (domAt s d).rate err))

/-- Whenever a cluster issues an instruction of n bytes, the thread it takes is Ready, with no access held up by a peer's
fault (11 R223); no other such thread of the cluster goes before it (a higher class, or the same class and an older
last issue); the fetch is at that thread's pc; the thread's pc moves past the instruction and its stamp is the new
issue count; every thread that has exited is free; nothing else of any cluster changes, and beside the clusters only
what a fetch touches (translation caches, stack reads, events). (R165, R167) -/
def Obligations.IssueTakesOneThread : Prop :=
  ∀ (c n t : Nat) (pc : Word64) (s u : State), issued s c n = some (t, pc, u) →
    mayIssue s c = true ∧ (thrAt s c t).state = .ready ∧ pc = (thrAt s c t).pc ∧
    t4Held s c t (thrAt s c t).item = false ∧
    (∀ k, (thrAt s c k).state = .ready → t4Held s c k (thrAt s c k).item = false →
      goesFirst s (thrAt s c k) (thrAt s c t) = false) ∧
    thrAt u c t = { thrAt s c t with pc := pc + BitVec.ofNat 64 n, stamp := (clAt s c).issues + 1 } ∧
    (∀ k, k ≠ t → thrAt u c k = if (thrAt s c k).state = .exited then Thread.reset else thrAt s c k) ∧
    (∀ e, e ≠ c → clAt u e = clAt s e) ∧
    ChangesOnly (eventParts ++ [.cl, .mem, .stackBytes, .xlt]) s u

/-- Issued by a cluster, MFENCE of a thread with no open request to a peer, DWAIT of one with no live DMA, codec or
playout command and CWAIT of one with no collective in progress let the thread go on at the next instruction, with the
state as the issue left it; where one is open, the thread waits for it. TFENCE makes its thread give up the tick. Only
that thread changes. EXIT of a thread with a request open makes it wait; with none open the thread is exited, and
where no thread of its item is left on a cluster or in a save, the item leaves its sequence's list. SUSP raises
SEQ.040 and terminates the thread's work item with code 0xFFFF: its sequence is marked FAULT and departs at the next
admit phase. (R170, R173, R174, R175, R210, R283) -/
def Obligations.FencesWaitsAndEnds : Prop :=
  ∀ (c : Cluster) (w : BitVec 56) (s u : State) (t : Nat) (pc : Word64), issued s c 8 = some (t, pc, u) →
    (t4Busy u c t (thrAt u c t).item = false → exec (.mfence c w) s = .next u) ∧
    (t4Busy u c t (thrAt u c t).item = true → ∃ x, exec (.mfence c w) s = .next x ∧ OnlyThread c t u x ∧
      thrAt x c t = { thrAt u c t with state := .waiting, wait := .mfence }) ∧
    ((liveCmds u).any (byThread c t (thrAt u c t).item) = false → exec (.dwait c w) s = .next u) ∧
    ((liveCmds u).any (byThread c t (thrAt u c t).item) = true → ∃ x, exec (.dwait c w) s = .next x ∧ OnlyThread c t u x ∧
      thrAt x c t = { thrAt u c t with state := .waiting, wait := .dwait }) ∧
    (colBusy u c t (thrAt u c t).item = false → exec (.cwait c w) s = .next u) ∧
    (colBusy u c t (thrAt u c t).item = true → ∃ x, exec (.cwait c w) s = .next x ∧ OnlyThread c t u x ∧
      thrAt x c t = { thrAt u c t with state := .waiting, wait := .cwait }) ∧
    (∃ x, exec (.tfence c w) s = .next x ∧ OnlyThread c t u x ∧
      thrAt x c t = { thrAt u c t with state := .waiting, wait := .tfence }) ∧
    (t4Busy u c t (thrAt u c t).item = true → ∃ x, exec (.exit c w) s = .next x ∧ OnlyThread c t u x ∧
      thrAt x c t = { thrAt u c t with state := .waiting, wait := .exitFence }) ∧
    (t4Busy u c t (thrAt u c t).item = false → ∃ x, exec (.exit c w) s = .next x ∧ (thrAt x c t).state = .exited ∧
      ∀ i, itemOf u (thrAt u c t).seq (thrAt u c t).item = some i →
        liveAll (modThr u c t fun h => { h with state := .exited, wait := .none }) i = 0 →
        itemOf x (thrAt u c t).seq (thrAt u c t).item = none) ∧
    (∃ x, exec (.susp c w) s = .next x ∧
      x = terminate (raise u bSEQ 40 (locCluster c) (thrAt u c t).seq 0) (thrAt u c t).seq (thrAt u c t).item
        (threadCause c (thrAt u c t) pc bSEQ 40 0xFFFF 0) ∧
      ∀ i, (thrAt u c t).seq < u.seq.length → itemOf u (thrAt u c t).seq (thrAt u c t).item = some i → i.terminated = false →
        (seqAt x (thrAt u c t).seq).fault = true ∧ (seqAt x (thrAt u c t).seq).departNext = true)

/-- BAR with scope 0 or 1, issued for a thread of a work item, where the threads that wait at the barrier gave the same
count: once the thread itself waits, a barrier at which the count has arrived releases every thread of its scope, and
one at which fewer have arrived, with no thread of the scope exited, changes only that thread. (R171) -/
def Obligations.BarrierReleasesAtItsCount : Prop :=
  ∀ (c : Cluster) (w : BitVec 56) (s u v : State) (t : Nat) (pc : Word64) (i : Item) (sc : Bool),
    issued s c 8 = some (t, pc, u) → wReg w 55 54 = sc.toNat → itemOf u (thrAt u c t).seq (thrAt u c t).item = some i →
    (∀ h ∈ arrived u i c sc (wReg w 53 48), barCount h = some (wReg w 47 32)) →
    v = wait u c t (.barrier sc (wReg w 53 48) (wReg w 47 32)) →
    ∃ x, exec (.bar c w) s = .next x ∧
      (wReg w 47 32 ≤ (arrived v i c sc (wReg w 53 48)).length →
        ∀ k m, sc = true ∨ k = c.val → atBarrier i.num sc (wReg w 53 48) (thrAt x k m) = false) ∧
      ((arrived v i c sc (wReg w 53 48)).length < wReg w 47 32 →
        (if sc then i.nthr * i.clusters ≤ liveAll v i else i.nthr ≤ liveOn (clAt v c) i.num) → x = v) ∧
      OnlyThread c t u v ∧ ChangesOnly [.cl, .seq] u x

/-- At an aligned offset inside the store: LDS of bytes that are not poisoned puts them, zero-extended, little-endian,
into its register (a write of G0 is ignored), and changes only that thread; STS puts the low bytes of its register at
the offset, every other byte of every cluster store reads as before, and nothing but the stores changes. (R169, R170) -/
def Obligations.StoreLoadsAndStores : Prop :=
  ∀ (c : Cluster) (w : BitVec 56) (s u : State) (t a : Nat) (pc : Word64), Sound s → issued s c 8 = some (t, pc, u) →
    lsPlace (thrAt u c t) w = .inr a →
    (csBadRange u c a (lsSize w) = false →
      ∃ x, exec (.lds c w) s = .next x ∧ OnlyThread c t u x ∧
        thrAt x c t = setReg (thrAt u c t) (wReg w 46 42)
          (BitVec.ofNat 64 (ofLE ((List.range (lsSize w)).map fun k => csByte u c (a + k))))) ∧
    (∃ x, exec (.sts c w) s = .next x ∧ ChangesOnly [.st, .storeBytes] u x ∧
      ∀ e o, o < csSize → csByte x e o =
        if e = c.val ∧ a ≤ o ∧ o < a + lsSize w
          then BitVec.ofNat 8 ((reg (thrAt u c t) (wReg w 46 42)).toNat / 2 ^ (8 * (o - a))) else csByte u e o)

/-- For an aligned address that translates to a place in the own stacks: a load that reads no poison puts the bytes into
its register, a store writes the register's low bytes at the place, and an ATOM puts the old value of the 8-byte word
into its register after the word took the value of its operation (the compare value of compare-and-swap is free, log
entry 48); the thread does not wait, and no other thread changes. For an address on another member with no unanswered
access of the thread to the same bytes, one request goes to that member and is remembered; a load or ATOM makes the
thread wait for its answer, a store does not. (R168, R170, R172) -/
def Obligations.ScalarAccessesMemory : Prop :=
  ∀ (c : Cluster) (a : ScalarAcc) (w : BitVec 56) (s u v : State) (t pa : Nat) (pc : Word64),
    issued s c 8 = some (t, pc, u) →
    (a.store = true → a.addr.toNat % a.size = 0 → accPlace u c a.addr .w = (.here (.stack pa), v) →
      ∃ x, exec (.scalarAccess c a) s = .next x ∧
        x = writePA v pa (leBytes a.size (reg (thrAt u c t) a.reg).toNat) ∧ x.cl = u.cl) ∧
    (a.store = false → a.addr.toNat % a.size = 0 → accPlace u c a.addr .r = (.here (.stack pa), v) →
      (readPA v pa a.size).1.poison = false →
      ∃ x, exec (.scalarAccess c a) s = .next x ∧ OnlyThread c t (readPA v pa a.size).2 x ∧
        thrAt x c t = setReg (thrAt u c t) a.reg (BitVec.ofNat 64 (ofLE (readPA v pa a.size).1.bytes))) ∧
    (∀ dst va, a.store = true → a.addr.toNat % a.size = 0 → accPlace u c a.addr .w = (.peer dst va, v) →
      t4Before u c t (thrAt u c t).item dst va a.size = false →
      ∃ x r, exec (.scalarAccess c a) s = .next x ∧ x.xlt.t4 = u.xlt.t4 ++ [r] ∧ r.dst = dst ∧ r.va = va ∧ r.size = a.size ∧
        r.op = .write ∧ r.data = leBytes a.size (reg (thrAt u c t) a.reg).toNat ∧ r.who = .thread c t (thrAt u c t).item ∧
        thrAt x c t = thrAt u c t) ∧
    (∀ dst va, a.store = false → a.addr.toNat % a.size = 0 → accPlace u c a.addr .r = (.peer dst va, v) →
      t4Before u c t (thrAt u c t).item dst va a.size = false →
      ∃ x r, exec (.scalarAccess c a) s = .next x ∧ x.xlt.t4 = u.xlt.t4 ++ [r] ∧ r.dst = dst ∧ r.va = va ∧ r.size = a.size ∧
        r.op = .read ∧ r.who = .thread c t (thrAt u c t).item ∧
        thrAt x c t = { thrAt u c t with state := .waiting, wait := .t4 u.xlt.nextReq a.reg }) ∧
    ∀ (op : Nat) (p x : Word64) (cmp : Word64) (u1 : State), op = wReg w 55 52 → op ≤ 4 → p = reg (thrAt u c t) (wReg w 51 47) →
      x = reg (thrAt u c t) (wReg w 46 42) → p.toNat % 8 = 0 → cmp = BitVec.ofNat 64 (drawn u 172) →
      u1 = (if op = 4 then drew u else u) →
      (∀ y, accPlace u1 c p .rw = (.here (.stack pa), v) → y = atomPA v pa (fun old => atomOp op old x cmp) →
        y.1.poison = false → ∃ z, exec (.atom c w) s = .next z ∧ OnlyThread c t y.2 z ∧
          thrAt z c t = setReg (thrAt u c t) (wReg w 41 37) (BitVec.ofNat 64 (ofLE y.1.bytes))) ∧
      (∀ dst va, accPlace u1 c p .rw = (.peer dst va, v) → t4Before u1 c t (thrAt u c t).item dst va 8 = false →
        ∃ z r, exec (.atom c w) s = .next z ∧ z.xlt.t4 = u.xlt.t4 ++ [r] ∧ r.dst = dst ∧ r.va = va ∧ r.size = 8 ∧
          r.op = .atom (BitVec.ofNat 4 op) x cmp ∧ r.who = .thread c t (thrAt u c t).item ∧
          (thrAt z c t).state = .waiting)

/-- For a 64-byte aligned offset inside the store whose bytes are not poisoned, where the engine that the rank and class
choose has room and the command passes its checks, DQ appends the command with those 64 bytes (the sequence field set
to the thread's own) and the thread as its issuer to that engine's queue; every other engine stays, and every thread
does. Where the engine is full the thread waits at its DQ. (R209, R210) -/
def Obligations.DqQueuesOneCommand : Prop :=
  ∀ (c : Cluster) (w : BitVec 56) (s u v : State) (t e a : Nat) (k : DmaCmd) (pc : Word64), Sound s →
    issued s c 8 = some (t, pc, u) →
    a = (reg (thrAt u c t) (wReg w 51 47)).toNat → a % 64 = 0 → a + 64 ≤ csSize → csBadRange u c a 64 = false →
    k = { mkCmd u.nextNum (ownSeq (BitVec.ofNat 512 (ofLE (csBytes u c a 64))) (thrAt u c t).seq)
            (.thread c t (thrAt u c t).item) pc with
          rank := (thrAt u c t).rank, pidx := (thrAt u c t).pidx, owner := (thrAt u c t).seq
          target := (itemOf u (thrAt u c t).seq (thrAt u c t).item).elim 0 (·.target) } →
    e = engineFor c (thrAt u c t).rank (cmdClass k) → e < 64 →
    (256 ≤ (engAt u e).thrQ.length → ∃ x, exec (.dq c w) s = .next x ∧ OnlyThread c t u x ∧
      thrAt x c t = { thrAt u c t with state := .waiting, wait := .dqFull e, pc := pc }) ∧
    ((engAt u e).thrQ.length < 256 → cmdCheck u true k = (none, v) →
      ∃ x, exec (.dq c w) s = .next x ∧ engAt x e = { engAt u e with thrQ := (engAt u e).thrQ ++ [k] } ∧
        (∀ f, f ≠ e → engAt x f = engAt u f) ∧ x.nextNum = u.nextNum + 1 ∧
        ChangesOnly (eventParts ++ [.nextNum, .eng, .mem, .stackBytes, .xlt]) u x)

/-- For each of the seven operations: a CQ that names an aligned, unpoisoned descriptor of that operation in the store,
where the unit holds fewer than 64, the descriptor meets Table 15.1 and its group (and home map) can be read and are
well formed, is accepted: the collective taken in has the descriptor, the group in order, this member's position in
it, the thread and its item as issuer, and the item's target tick; up to there only reads, translation and events have
touched the state. (R283, R284) -/
def Obligations.CollectiveIsAccepted : Prop :=
  ∀ (op : Nat) (i : Instr) (c : Cluster) (w : BitVec 56) (s u v1 v : State) (t a : Nat) (pc : Word64) (d : ColDesc) (gb emap : List Byte),
    (i, op) ∈ [(Instr.allReduce c w, 1), (.reduceScatter c w, 2), (.allGather c w, 3), (.allToAll c w, 4),
      (.broadcast c w, 5), (.dispatch c w, 6), (.combine c w, 7)] →
    issued s c 8 = some (t, pc, u) → a = (reg (thrAt u c t) (wReg w 51 47)).toNat → a % 128 = 0 → a + 128 ≤ csSize →
    d = { colDesc (csBytes u c a 128) with quad := c / 36 } →
    (csByte u c a).toNat = op → csBadRange u c a 128 = false → (colUnit u (c / 36)).inProg.length < 64 →
    colDescOk u d (csBytes u c a 128) = true →
    devRead u (.gva (BitVec.ofNat 64 d.group)) (2 * d.nmem) = (some gb, v1) →
    (if d.experts
      then devRead v1 (.gva (BitVec.ofNat 64 d.emap)) 1024 else (some [], v1)) = (some emap, v) →
    groupOk v ((List.range d.nmem).map fun k => fld gb (2 * k) 2) = true →
    (d.experts = true →
      emapOk emap ((List.range d.nmem).map fun k => fld gb (2 * k) 2) = true) →
    ∃ x z, exec i s = .next x ∧ x = acceptColl (c / 36) z v ∧ z.desc = d ∧
      z.members = (List.range d.nmem).map (fun k => fld gb (2 * k) 2) ∧
      z.pos = z.members.idxOf (ownIndex v) ∧ z.issuer = .thread c t (thrAt u c t).item ∧ z.rank = (thrAt u c t).rank ∧
      z.tick = (itemOf v (thrAt u c t).seq (thrAt u c t).item).elim 0 (·.target) ∧ z.reduced = false ∧
      ChangesOnly (eventParts ++ [.mem, .stackBytes, .xlt]) u v

/-- While the device is a member outside keep-alive mode: a good shard of a collective in progress, from a member of it,
is acknowledged, recorded once with its position and offset, written or added, and may let the collective reduce; a
repeated one is acknowledged only; one with a wrong CRC is counted against its sender and asked for again, but not
after its third failure; one more than 16 ticks old is discarded with COL.003. Where no collective has its identifier
and tick: a shard of a completed one is acknowledged, one more than 16 ticks old raises COL.003, any other is answered
NOTREADY, and one with a wrong CRC is asked for again. While the device is a member outside keep-alive mode: SHARD_ACK
takes the shard that it names out of the retained copies of the collectives with its identifier, leaves what every
collective has got and has to send as it was, and then the shards that waited for room go out; SHARD_RETRY of a
retained shard counts a retry, raises COL.002 and sends the retained copy again, as the retention region holds it;
NOTREADY_RESEND sends it again with nothing else changed in the collectives. (R289, R290, R295) -/
def Obligations.ShardsAreAnsweredAndReleased : Prop :=
  (∀ (sh : Shard) (s : State), colOn s = true →
    (∀ q x, findColl s sh.cid sh.tick = some (q, x) → x.members.contains sh.src = true →
      (sh.crc = shardCrc sh.shseq sh.tick sh.offs sh.data →
        (staleShard s sh = true → exec (.shardReceive sh) s = .next (raise s bCOL 3 (locQuad q) x.seq 0)) ∧
        (staleShard s sh = false → (x.got.any fun g => g.1 == x.members.idxOf sh.src && g.2.1 == sh.offs.toNat) = true →
          exec (.shardReceive sh) s = .next (inject s sh.src (colClass x) (.shardAck sh.cid sh.shseq))) ∧
        (staleShard s sh = false → (x.got.any fun g => g.1 == x.members.idxOf sh.src && g.2.1 == sh.offs.toNat) = false →
          mapDiffers x sh = false →
          ∃ t, exec (.shardReceive sh) s = .next t ∧
            t = settleColl q x (writeGot x (x.members.idxOf sh.src) sh.offs.toNat sh.data
              (modColl (inject s sh.src (colClass x) (.shardAck sh.cid sh.shseq)) q x fun y =>
                { y with got := y.got ++ [(x.members.idxOf sh.src, sh.offs.toNat, sh.data)] })))) ∧
      (sh.crc ≠ shardCrc sh.shseq sh.tick sh.offs sh.data → ∃ t u, exec (.shardReceive sh) s = .next t ∧
        u = modColl s q x (fun y => { y with
          bad := (sh.src, sh.shseq, badCopies x sh.src sh.shseq + 1) :: y.bad.filter fun b => !(b.1 == sh.src && b.2.1 == sh.shseq) }) ∧
        (2 ≤ badCopies x sh.src sh.shseq → t = u) ∧
        (badCopies x sh.src sh.shseq < 2 → t = inject u sh.src (colClass x) (.shardRetry sh.cid sh.shseq)))) ∧
    (findColl s sh.cid sh.tick = none → ∀ done, done = s.col.done.any (fun d => d.1 == sh.cid && BitVec.ofNat 32 d.2 == sh.tick) →
      (sh.crc ≠ shardCrc sh.shseq sh.tick sh.offs sh.data →
        exec (.shardReceive sh) s = .next (inject s sh.src 0 (.shardRetry sh.cid sh.shseq))) ∧
      (sh.crc = shardCrc sh.shseq sh.tick sh.offs sh.data →
        (done = true → staleShard s sh = false →
          exec (.shardReceive sh) s = .next (inject s sh.src 0 (.shardAck sh.cid sh.shseq))) ∧
        (done = true → staleShard s sh = true → exec (.shardReceive sh) s =
          .next (raise (inject s sh.src 0 (.shardAck sh.cid sh.shseq)) bCOL 3 locDevice noSeq 0)) ∧
        (done = false → staleShard s sh = true → exec (.shardReceive sh) s = .next (raise s bCOL 3 locDevice noSeq 0)) ∧
        (done = false → staleShard s sh = false →
          exec (.shardReceive sh) s = .next (inject s sh.src 0 (.notReady sh.cid sh.shseq)))))) ∧
  ∀ (dst : Nat) (cid shseq : BitVec 32) (s : State), colOn s = true →
    (∃ t u, exec (.shardAck dst cid shseq) s = .next t ∧ t = pump u ∧ ChangesOnly [.col] s u ∧
      (∀ q, ((colUnit u q).inProg.map fun x => (x.desc, x.tick, x.got, x.toSend)) =
        (colUnit s q).inProg.map fun x => (x.desc, x.tick, x.got, x.toSend)) ∧
      ∀ q x, x ∈ (colUnit u q).inProg → x.desc.cid = cid → ∀ r ∈ x.sent, ¬(r.dst = dst ∧ r.shard.shseq = shseq)) ∧
    ∀ q x r, retainedAt s dst cid shseq = some (q, x, r) → r.dst = dst ∧ r.shard.shseq = shseq ∧
      (∃ t u, exec (.shardRetry dst cid shseq) s = .next t ∧
        t = inject (keptShard r u).2 dst (colClass x) (.shard (keptShard r u).1) ∧
        u = raise (modColl s q x fun y => { y with retries := y.retries + 1 }) bCOL 2 (locQuad q) x.seq 0) ∧
      ∃ t, exec (.notreadyResend dst cid shseq) s = .next t ∧
        t = inject (keptShard r s).2 dst (colClass x) (.shard (keptShard r s).1) ∧ t.col = s.col

/-- While the device is a member outside keep-alive mode: COLLECTIVE_COMPLETE of a collective whose contributions are all
in and whose shards are all acknowledged takes it off its unit and into the list of completed ones, with status OK in
its record; COLLECTIVE_TIMEOUT of an incomplete one whose deadline has passed fills the destination, raises COL.010
with the identifier and the number of absent members, marks its work item, and ends it with status HOLE and the absent
coordinates. (R291, R292) -/
def Obligations.CollectivesEnd : Prop :=
  ∀ (q : Quad) (cid : BitVec 32) (x : Collective) (s : State), colOn s = true →
    (collByCid s q cid collDone = some x → ∃ t u, exec (.collectiveComplete q cid) s = .next t ∧ t = pump u ∧
      u = colEnd s q x 0 [] ∧ u.col.done = (x.desc.cid, x.tick) :: s.col.done ∧
      (colUnit u q).inProg = (colUnit s q).inProg.filter (fun y => !(y.desc.cid == x.desc.cid && y.tick == x.tick)) ∧
      ∀ p, p ≠ q.val → colUnit u p = colUnit s p) ∧
    (collByCid s q cid (fun y => !collDone y && decide (collDeadline y ≤ s.time)) = some x →
      ∃ t u y, exec (.collectiveTimeout q cid) s = .next t ∧ u = fillHoles q x s ∧ y = (collNow u q x).getD x ∧
        t = pump (abortPeers y.item (colEnd (spoil y.item (raise u bCOL 10
            (match ((absent x).map fun p => (memberCoord s (x.members.getD p 0)).toNat).head? with
              | some c => locCoord (BitVec.ofNat 16 c)
              | none => locDevice) y.seq (BitVec.ofNat 64 (cid.toNat + (absent x).length * 2 ^ 32))))
          q y 1 ((absent x).map fun p => (memberCoord s (x.members.getD p 0)).toNat))))

/-- While the device is a member outside keep-alive mode: PACE_NOTICE_TIMER with a stack capped at k quarters sends each
member that shares a collective a notice with the next number and the delay of the bytes left at k quarters, and the
first time after a cap has ended one with delay 0; a pace notice of a member of the own slice replaces that sender's
earlier one in every collective that it shares, and COL.012 is raised once for a collective where the extension
reaches its timeout. (R294) -/
def Obligations.PaceNoticesGoOutAndComeIn : Prop :=
  ∀ (s : State), colOn s = true →
    (∀ k, k = capQuarters s →
      (k < 4 → ∃ t u, exec .paceNoticeTimer s = .next t ∧ ChangesOnly [.col] s u ∧ u.col.noticeNo = s.col.noticeNo + 1 ∧
        u.col.paceOn = true ∧ u.col.units = s.col.units ∧
        t = each (sharers s) (fun x i => inject x i 6 (.paceNotice x.self.coord x.self.sliceId (s.col.noticeNo + 1)
          (paceNs (bytesLeft s) k))) u) ∧
      (k = 4 → s.col.paceOn = true →
        ∃ t u, exec .paceNoticeTimer s = .next t ∧ ChangesOnly [.col] s u ∧ u.col.noticeNo = s.col.noticeNo + 1 ∧
        u.col.paceOn = false ∧ u.col.units = s.col.units ∧
        t = each (sharers s) (fun x i => inject x i 6 (.paceNotice x.self.coord x.self.sliceId (s.col.noticeNo + 1) 0)) u)) ∧
    (∀ src number delay i, (s.self.slice.bind fun r => indexOf s.self.dims r src) = some i →
      ∃ t, exec (.paceNotice src s.self.sliceId number delay) s = .next t ∧
        t = each (List.range s.col.units.length) (fun z q =>
          each ((colUnit z q).inProg.filter fun x => x.members.contains i) (fun z x =>
            let full := decide (1000 * x.desc.timeoutUs ≤ colPace (takePace src number delay x)) && !x.paceSaid
            let z1 := modColl z q x fun y => { takePace src number delay y with paceSaid := y.paceSaid || full }
            if full then raise z1 bCOL 12 (locQuad q) x.seq 0 else z1) z) s)

/-- TMM, TGRID, TCONV and TCONV PREP, issued by a cluster and past their checks: the thread waits as a tile instruction,
with its opcode, word and the 128 bytes of its descriptor as they stand at issue (MXE.042 tells that a precision
descriptor names no eligible source); an instruction with cells or units joins the end of the array's queue, and the
waiting steps then start as far as they can; one with none is done at once and its thread is ready again. (R56, R61,
R62, R147) -/
def Obligations.TileInstructionsJoinTheArrayQueue : Prop :=
  ∀ (c : Cluster) (w : BitVec 248) (s u : State) (t opc : Nat) (pc : Word64) (i : Instr), issued s c 32 = some (t, pc, u) →
    (∀ j acc, (i, opc) ∈ [(Instr.tmm c w, 0x40), (.tgrid c w, 0x41)] →
      acc = (itemOf u (thrAt u c t).seq (thrAt u c t).item).elim 0 (·.acc) →
      tileChecks u c (thrAt u c t) acc (opc == 0x41) (tileWord w) = .inr j → ∀ z,
      z = (if j.noSource then raise u bMXE 42 (locCluster c) (thrAt u c t).seq 0 else u) →
      ∃ x v p, exec i s = .next x ∧ (thrAt v c t).state = .waiting ∧ (thrAt v c t).wait = .tile ∧
        (thrAt v c t).prog = some p ∧ p.opc = opc ∧ p.word = w ∧ p.desc = csBytes u c ((thrAt u c t).tdescBase + 128 * j.prob) 128 ∧
        ChangesOnly [.cl] z v ∧
        ((j.curveFrom 0).isSome = true → x = startNext v c ∧ (clAt v c).waitQ = (clAt u c).waitQ ++ [t]) ∧
        (j.curveFrom 0 = none → x = progDone v c t p)) ∧
    (∀ j acc, (i, convIsPrep w) ∈ [(Instr.tconv c w, false), (.tconvPrep c w, true)] →
      acc = (itemOf u (thrAt u c t).seq (thrAt u c t).item).elim 0 (·.acc) →
      convChecks u c (thrAt u c t) acc (convWord w) = .inr j → (if j.direct then (j.asTile.curveFrom 0).isSome else 0 < j.units) →
      ∃ x v p, exec i s = .next x ∧ (thrAt v c t).state = .waiting ∧ (thrAt v c t).wait = .tile ∧
        (thrAt v c t).prog = some p ∧ p.opc = 0x42 ∧ p.word = w ∧
        p.desc = csBytes u c ((thrAt u c t).tdescBase + 128 * j.prob) 128 ∧ ChangesOnly [.cl] u v ∧
        x = startNext v c ∧ (clAt v c).waitQ = (clAt u c).waitQ ++ [t])

/-- TILE_STEP_RELEASE with a step on the array: the step is counted and traced, a promotion of it is charged, the array is
free, the bytes that the step writes as it ends are in the store, and its thread's instruction goes on to its next
step, its next cell or its end; then the steps that wait may start. A step whose work item has been terminated
meanwhile writes nothing, and frees its thread if that was suspended. CONVERSION_COMPLETE of a slot that converts for
a thread: its result is in the store, the slot no longer converts and keeps its owner and group, the other slots stay,
and the thread is ready where it waits for its tile instruction with no step and no other conversion left; then the
steps that wait may start. (R56, R63, R174) -/
def Obligations.ArrayIsReleasedStepByStep : Prop :=
  ∀ (c : Cluster) (s : State), Sound s →
    (∀ a, (clAt s c).array = some a → ∀ u, u = modCl (promoDone c a (stepDone c a s)) c (fun k => { k with array := none }) →
      (∃ x v, exec (.tileStepRelease c) s = .next x ∧ x = startNext v c ∧ (clAt v c).array = none) ∧
      (∀ p, (thrAt s c a.thr).state = .waiting → (thrAt s c a.thr).wait = .tile → (thrAt s c a.thr).item = a.item →
        (thrAt s c a.thr).prog = some p →
        exec (.tileStepRelease c) s = .next (startNext (stepAfter (csWrites u c a.out) c a.thr p) c)) ∧
      ((thrAt s c a.thr).state = .suspended →
        exec (.tileStepRelease c) s = .next (startNext (modThr u c a.thr fun _ => Thread.reset) c)) ∧
      ((thrAt s c a.thr).state ≠ .suspended → ofItem (thrAt s c a.thr) a.item = false →
        exec (.tileStepRelease c) s = .next (startNext u c))) ∧
    ((clAt s c).array = none → exec (.tileStepRelease c) s = .next s) ∧
    ∀ (i : Fin 4) (t : Nat), i.val < (clAt s c).slots.length →
      (unit (clAt s c).slots i AccSlot.reset).converting = some t →
      ∃ x v, exec (.conversionComplete c i) s = .next x ∧ x = startNext v c ∧ ChangesOnly [.cl, .st, .storeBytes] s v ∧
        v.st = (csWrites s c (unit (clAt s c).slots i AccSlot.reset).result).st ∧
        (clAt v c).slots = (clAt s c).slots.modify i (fun a => { a with converting := none, result := [] }) ∧
        (∀ n, n ≠ t → thrAt v c n = thrAt s c n) ∧
        ((thrAt s c t).state = .waiting → (thrAt s c t).wait = .tile → (thrAt s c t).prog = none →
          (unit (clAt s c).slots i AccSlot.reset).owner.any (fun o => ofItem (thrAt s c t) o.1) = true →
          (∀ k, k ≠ i.val → (unit (clAt s c).slots k AccSlot.reset).converting ≠ some t) → (thrAt v c t).state = .ready)

/-- Each vector instruction, in each of its forms, and each detection instruction, issued by a cluster and past its
checks, answers the state after its effect, with its Table 6.1 cycles counted; it changes only bytes and poison of the
cluster stores, the saturation counts that its cluster keeps, and the event path; no thread, no slot, no stack byte
and no host byte changes, and its thread does not wait. Where the outputs of a detection instruction lie apart, DBOX
leaves at its bases the box of every anchor, the kept indices and their count, and DNMS the accepted indices, their
count and whether the list was cut. (R99, R102, R113, R116, R158, R159) -/
def Obligations.VectorInstructionsComplete : Prop :=
  ∀ (c : Cluster) (w : BitVec 56) (s u : State) (t : Nat) (pc : Word64), Sound s → issued s c 8 = some (t, pc, u) →
    (∀ (i : Instr) (opc : Nat) (form : Nat → Bool) (run : VecAt → VecJob → State → State) (j : VecJob),
      (i, opc, run, form) ∈ [(Instr.vew c w, 0x50, vewRun, fun _ => true), (.vcvt c w, 0x51, vcvtRun, fun _ => true),
        (.vqnt c w, 0x52, vqntRun, fun _ => true), (.vsf c w, 0x53, vsfRun, fun _ => true),
        (.vstat c w, 0x54, vstatRun, fun m => m == 0), (.vstatPartial c w, 0x54, vstatRun, fun m => m == 1),
        (.vstatCombine c w, 0x54, vstatCombineRun, fun m => m == 2),
        (.vsoft c w, 0x55, vsoftRun, fun m => m == 0), (.vsoftSum c w, 0x55, vsoftRun, fun m => m == 1 || m == 129),
        (.vsoftProb c w, 0x55, vsoftProbRun, fun m => m == 2), (.vargmax c w, 0x56, vargmaxRun, fun _ => true)] →
      vecChecks u c (thrAt u c t) opc w = .inr j → form j.d.mode = true →
      ∃ x, exec i s = .next x ∧
        x = run ⟨c, (thrAt u c t).seq, (thrAt u c t).item, thrAt u c t⟩ j (ctrAdd u (ctrCluster c 5) (vecCycles j)) ∧
        ChangesOnly (eventParts ++ [.st, .storeBytes, .cl]) u x ∧
        ∀ k, { clAt x k with vecSat := [] } = { clAt u k with vecSat := [] }) ∧
    ∀ (d : DetDesc),
      (detChecks u c (thrAt u c t) false w = .inr d → ∃ x, exec (.dbox c w) s = .next x ∧
        x = dboxRun c (thrAt u c t).seq d (ctrAdd u (ctrCluster c 5) (dboxCycles d)) ∧
        ChangesOnly (eventParts ++ [.st, .storeBytes]) u x ∧
        ((detOutputs false d).Pairwise (fun a b => regionsMeet a b = false) → ∀ v kept,
          v = detTouch c (thrAt u c t).seq false d (ctrAdd u (ctrCluster c 5) (dboxCycles d)) →
          kept = (List.range d.n).filter (fun i => (dboxAnchor v c d i).2.1) →
          csBytes x c d.bBase (16 * d.n) = (List.range d.n).flatMap (fun i => (dboxAnchor v c d i).1.bytes) ∧
          csBytes x c d.kBase (4 * kept.length) = kept.flatMap (leBytes 4) ∧ csBytes x c d.cnt 4 = leBytes 4 kept.length)) ∧
      (detChecks u c (thrAt u c t) true w = .inr d → ∃ x, exec (.dnms c w) s = .next x ∧
        x = dnmsRun c (thrAt u c t).seq (vecFunc w == 1) d
          (ctrAdd u (ctrCluster c 5) (dnmsCycles d (min d.n (ofLE (csBytes u c d.cnt 4))))) ∧
        ChangesOnly (eventParts ++ [.st, .storeBytes]) u x ∧
        ((detOutputs true d).Pairwise (fun a b => regionsMeet a b = false) → ∀ v nc out,
          v = detTouch c (thrAt u c t).seq true d
            (ctrAdd u (ctrCluster c 5) (dnmsCycles d (min d.n (ofLE (csBytes u c d.cnt 4))))) →
          nc = min d.n (ofLE (csBytes u c d.cnt 4)) →
          out = nmsAccept (vecFunc w == 1) d
            ((((((List.range nc).map fun k => ofLE (csBytes v c (d.kBase + 4 * k) 4)).filter (· < d.n)).map
              (candAt v c d)).mergeSort Cand.before).take 2048) →
          csBytes x c d.oBase (4 * out.length) = out.flatMap (fun a => leBytes 4 a.i) ∧
          csBytes x c (d.cnt + 4) 8 = leBytes 4 out.length ++ leBytes 4 (decide (2048 < nc)).toNat))

/-- For a vector instruction past its checks, of the operands as they stood when it began (after the reads have met their
errors). VEW, VCVT and VSF with a float or WX32 result whose rows lie apart: element (r, k) of Z holds the function of
the operands at (r, k), rounded once into Z's format, and every byte of every cluster store outside the rows of Z
reads as before. VQNT without gutter and feedback: block b of row r holds the codes and the exponent of that block
quantised, with code 0 beyond the row. VSTAT: record r holds the moments of row r, its partial sums, or the moments of
partial sums. VSOFT: record r holds the sum of the exponentials of row r (added to the record before it in MODE 129),
its logarithm, the count and flags; MODE 0 and 2 put the probabilities into float rows of Z. VARGMAX: row r of Z holds
the column and the value of the greatest element, or the codes for a poisoned row. (The free values of an undefined
logarithm or moment are left out: log entry 3.) (R100, R103, R105, R113, R115, R116, R117, R158, Table 6.1) -/
def Obligations.ElementwiseResults : Prop :=
  ∀ (c : Cluster) (w : BitVec 56) (s u : State) (t opc : Nat) (pc : Word64) (j : VecJob) (a : VecAt) (b : State), Sound s →
    issued s c 8 = some (t, pc, u) → vecChecks u c (thrAt u c t) opc w = .inr j →
    a = ⟨c, (thrAt u c t).seq, (thrAt u c t).item, thrAt u c t⟩ → b = ctrAdd u (ctrCluster c 5) (vecCycles j) →
    (∀ (i : Instr) v, (i, opc) ∈ [(Instr.vew c w, 0x50), (.vcvt c w, 0x51), (.vsf c w, 0x53)] →
      5 ≤ j.d.zFmt → vecLen j.d.zFmt j.d.cols ≤ j.d.zLd ∨ j.d.rows ≤ 1 → v = vecTouch a b (vecReads j) →
      ∃ x, exec i s = .next x ∧
        (∀ r k, r < j.d.rows → k < j.d.cols →
          csBytes x c (j.d.zBase + r * j.d.zLd + (if j.d.zFmt = 5 then 2 else 4) * k) (if j.d.zFmt = 5 then 2 else 4) =
            floatBytes j.d.zFmt (vecElem v c j r k)) ∧
        ∀ e o, o < csSize → ¬(e = c.val ∧ ∃ r, r < j.d.rows ∧ j.d.zBase + r * j.d.zLd ≤ o ∧
            o < j.d.zBase + r * j.d.zLd + (if j.d.zFmt = 5 then 2 else 4) * j.d.cols) → csByte x e o = csByte u e o) ∧
    (∀ v, opc = 0x52 → j.d.gutBase = noRegion → j.d.prob = 0xFFFF → RowsApart j → v = vecTouch a b (rangesX j.d) →
      ∃ x, exec (.vqnt c w) s = .next x ∧ ∀ r k e, r < j.d.rows → k < cdiv j.d.cols 32 →
        e = encBlock j.d.zFmt ((List.range 32).map fun i => if 32 * k + i < j.d.cols
          then (vecVals v c j.d r).getD (32 * k + i) (some Dy.zero) else some Dy.zero) (List.replicate 32 false) →
        csBytes x c (j.d.zBase + r * j.d.zLd + k * payBytes j.d.zFmt) (payBytes j.d.zFmt) =
          packElems j.d.zFmt ((List.range 32).map fun i => if 32 * k + i < j.d.cols then e.codes.getD i 0 else 0) ∧
        csBytes x c (j.d.zSbase + r * j.d.zSld + k) 1 = [BitVec.ofNat 8 e.bse]) ∧
    (∀ v, opc = 0x54 → j.d.mode = 0 → v = vecTouch a b (rangesX j.d) →
      ∃ x, exec (.vstat c w) s = .next x ∧ ∀ r e q, r < j.d.rows → e = statExp (vecVals v c j.d r) + (clog2 j.d.cols : Nat) - 95 →
        q = statSums e (statExp (vecVals v c j.d r) + e) (vecVals v c j.d r) →
        csBytes x c (j.d.aux + 16 * r) 16 =
          (statRecord j.d.eps e (statExp (vecVals v c j.d r) + e) q.1 q.2 j.d.cols fun _ => 0).1) ∧
    (∀ v, opc = 0x54 → j.d.mode = 1 → v = vecTouch a b (rangesX j.d) →
      ∃ x, exec (.vstatPartial c w) s = .next x ∧ ∀ r q, r < j.d.rows →
        q = statOver j.d.emax (vecVals v c j.d r)
          (statSums (j.d.emax - 75) (2 * j.d.emax - 75) (vecVals v c j.d r)) →
        csBytes x c (j.d.aux + 48 * r) 48 = laBytes q.1 ++ laBytes q.2 ++ leBytes 4 j.d.cols ++ leBytes 12 (field 8 j.d.emax)) ∧
    (∀ v, opc = 0x54 → j.d.mode = 2 → v = vecTouch a b ((List.range j.d.rows).map fun r => (j.d.aux + 48 * r, 48)) →
      ∃ x, exec (.vstatCombine c w) s = .next x ∧ ∀ r p q, r < j.d.rows →
        p = laOfBytes ((csBytes v c (j.d.aux + 48 * r) 48).take 16) →
        q = laOfBytes (((csBytes v c (j.d.aux + 48 * r) 48).drop 16).take 16) →
        fld (csBytes v c (j.d.aux + 48 * r) 48) 32 4 ≠ 0 →
        csBytes x c (j.d.zBase + 16 * r) 16 = (statRecord j.d.eps (j.d.emax - 75) (2 * j.d.emax - 75)
          { p with poison := p.poison || csBadRange v c (j.d.aux + 48 * r) 48 } q
          (fld (csBytes v c (j.d.aux + 48 * r) 48) 32 4) fun _ => 0).1) ∧
    (∀ v, opc = 0x55 → j.d.mode = 0 → RowsApart j → v = vecTouch a b (rangesX j.d) →
      ∃ x, exec (.vsoft c w) s = .next x ∧ ∀ r us sum, r < j.d.rows →
        us = (vecVals v c j.d r).map (fun y => softU (clampLogit y).1) → sum = wxTree (clog2 us.length) us →
        ((∀ y, sum = some y → y.n ≠ 0) → csBytes x c (j.d.aux + 16 * r) 16 = softRecord (softLse v r sum) sum (us.length % 2 ^ 32)
          (softFlags (vecVals v c j.d r) us.length 0)) ∧
        ∀ k, k < j.d.cols → csBytes x c (j.d.zBase + r * j.d.zLd + floatSize j.d.zFmt * k) (floatSize j.d.zFmt) =
          floatBytes j.d.zFmt (softP j.d.zFmt (us.getD k none) sum)) ∧
    (∀ v, opc = 0x55 → j.d.mode = 1 → v = vecTouch a b (rangesX j.d) →
      ∃ x, exec (.vsoftSum c w) s = .next x ∧ ∀ r us sum, r < j.d.rows →
        us = (vecVals v c j.d r).map (fun y => softU (clampLogit y).1) → sum = wxTree (clog2 us.length) us →
        (∀ y, sum = some y → y.n ≠ 0) → csBytes x c (j.d.aux + 16 * r) 16 = softRecord (softLse v r sum) sum (us.length % 2 ^ 32)
          (softFlags (vecVals v c j.d r) us.length 0)) ∧
    (∀ v, opc = 0x55 → j.d.mode = 129 →
      v = vecTouch a b (rangesX j.d ++ (List.range j.d.rows).map fun r => (j.d.aux + 16 * r, 16)) →
      ∃ x, exec (.vsoftSum c w) s = .next x ∧ ∀ r old us sum, r < j.d.rows → old = csBytes v c (j.d.aux + 16 * r) 16 →
        csBadRange v c (j.d.aux + 16 * r) 16 = false → us = (vecVals v c j.d r).map (fun y => softU (clampLogit y).1) →
        sum = wxAdd (wxTree (clog2 us.length) us) (ofWx32 (BitVec.ofNat 32 (fld old 4 4))) → (∀ y, sum = some y → y.n ≠ 0) →
        csBytes x c (j.d.aux + 16 * r) 16 = softRecord (softLse v r sum) sum ((us.length + fld old 8 4) % 2 ^ 32)
          (softFlags (vecVals v c j.d r) (us.length + fld old 8 4) (fld old 12 4))) ∧
    (∀ v, opc = 0x55 → j.d.mode = 2 → 5 ≤ j.d.zFmt → vecLen j.d.zFmt j.d.cols ≤ j.d.zLd ∨ j.d.rows ≤ 1 →
      v = vecTouch a b (rangesX j.d ++ (List.range j.d.rows).map fun r => (j.d.aux + 16 * r, 16)) →
      ∃ x, exec (.vsoftProb c w) s = .next x ∧ ∀ r k, r < j.d.rows → k < j.d.cols →
        csBytes x c (j.d.zBase + r * j.d.zLd + floatSize j.d.zFmt * k) (floatSize j.d.zFmt) = floatBytes j.d.zFmt (Fv.of (softU
          (clampLogit (Val.map2 Dy.sub ((vecVals v c j.d r).getD k none) (floatAt v c 6 (j.d.aux + 16 * r)).v)).1))) ∧
    ∀ v, opc = 0x56 → 8 ≤ j.d.zLd ∨ j.d.rows ≤ 1 → v = vecTouch a b (rangesX j.d) →
      ∃ x, exec (.vargmax c w) s = .next x ∧ ∀ r xs, r < j.d.rows → xs = (rowX v c j.d r).map (·.1) →
        ((∃ y ∈ xs, y.v = none) → csBytes x c (j.d.zBase + j.d.zLd * r) 8 = leBytes 4 0xFFFFFFFF ++ leBytes 4 0x7FC00000) ∧
        ∀ k y, (∀ z ∈ xs, z.v ≠ none) → argmax xs = some (k, y) →
          csBytes x c (j.d.zBase + j.d.zLd * r) 8 = leBytes 4 k ++ leBytes 4 y.bits.toNat

/-- For every anchor: adding the same contributions in any order gives the same element, flags included; and adding any
part of them on its own, starting from zero, and combining the parts gives the element that adding them all one after
the other gives. (R46) -/
def Obligations.SumsDoNotDependOnOrder : Prop :=
  ∀ (a : Int) (l k m : List (Val × Val)), l.Perm (k ++ m) →
    l.foldl (fun x p => laAdd a x p.1 p.2) LaElem.zero =
      laCombine (k.foldl (fun x p => laAdd a x p.1 p.2) LaElem.zero) (m.foldl (fun x p => laAdd a x p.1 p.2) LaElem.zero) ∧
    l.foldl (fun x p => laAdd a x p.1 p.2) LaElem.zero = (k ++ m).foldl (fun x p => laAdd a x p.1 p.2) LaElem.zero

/-- Where a command starts on an engine, it stood in one of the engine's two queues after the host queue was read, it may
start (none of its issuer is parked, none is chained before it), no command that may start ranks above it, and no
queue of the engine holds it any more; and the row whose OP it has, each of the seven transfers, the four codec
commands and PLAY, answers the state that running the command from there gives. A transfer whose descriptor or
container can be read, and whose pieces are all transferred, in the engine's order from the first that is not done,
ends with status OK and the counts it has come to. (R211, R212, R213, R214, R215, R217) -/
def Obligations.EnginesStartTheBestCommand : Prop :=
  ∀ (e : Engine) (err : Option Nat) (au : AccessUnit) (s u v : State) (c : DmaCmd), starts s e = some (c, v) →
    u = readQueue e (ownedEntries (engAt s e)) s →
    (c ∈ (engAt u e).thrQ ++ (engAt u e).hostQ ∧ mayStart u (engAt u e) c = true ∧
      (∀ k ∈ (engAt u e).thrQ ++ (engAt u e).hostQ, mayStart u (engAt u e) k = true →
        seqClass u (cmdSeq c) ≤ seqClass u (cmdSeq k)) ∧
      (∀ k ∈ (engAt v e).thrQ ++ (engAt v e).hostQ, k.num ≠ c.num)) ∧
    (∀ (i : Instr) (op : Nat) (run : DmaCmd → State → State),
      (i, op, run) ∈ [(Instr.kvput e, 0x01, runKvput e), (.kvget e, 0x02, runKvget e),
        (.copy e err, 0x10, fun k => runCopy e { k with errAt := err }), (.fmapPack e, 0x11, runPack e),
        (.fmapUnpack e, 0x12, runUnpack e), (.hostIn e err, 0x13, fun k => runHostIn e { k with errAt := err }),
        (.hostOut e err, 0x14, fun k => runHostOut e { k with errAt := err }), (.open_ e, 0x20, runOpen e),
        (.close e, 0x21, runClose e), (.encode e, 0x22, runEncode e), (.decode e au, 0x23, runDecode e au),
        (.play e, 0x24, runPlay e)] →
      cmdOp c = op → exec i s = .next (run c v)) ∧
    ∀ (i : Instr) (op : Nat) (k : DmaCmd) (ps : List (Nat × (Xfer → PieceEnd × Xfer))) (w : State) (x : Xfer),
      (i, op, k) ∈ [(Instr.kvput e, 0x01, c), (.kvget e, 0x02, c), (.copy e err, 0x10, { c with errAt := err }),
        (.fmapPack e, 0x11, c), (.fmapUnpack e, 0x12, c), (.hostIn e err, 0x13, { c with errAt := err }),
        (.hostOut e err, 0x14, { c with errAt := err })] →
      cmdOp c = op → transferPieces e k v = (some ps, w) → runPieces e ps 0 ⟨w, k, [], e⟩ = (none, x) →
      exec i s = .next (complete x.s e x.cmd stOK)

/-- With the link up after boot, a write of an engine's doorbell moves its TAIL to the written value where that does not
lie inside the span that the engine owns, and changes no other engine and nothing else of this one; inside the span it
leaves every engine as it was and raises DMA.003. (R212) -/
def Obligations.DoorbellPassesEntries : Prop :=
  ∀ (n : Engine) (v : Word64) (s : State), Sound s → hostMay s = true →
    (((engAt s n).tail - (engAt s n).head).toNat ≤ (v.setWidth 10 - (engAt s n).head).toNat →
      ∃ t, exec (.dmaEngDb n v) s = .next t ∧ ChangesOnly [.eng] s t ∧
        engAt t n = { engAt s n with tail := v.setWidth 10 } ∧ ∀ k, k ≠ n.val → engAt t k = engAt s k) ∧
    ((v.setWidth 10 - (engAt s n).head).toNat < ((engAt s n).tail - (engAt s n).head).toNat →
      ∃ t, exec (.dmaEngDb n v) s = .next t ∧ t = raise s bDMA 3 (locEngine n) noSeq 0 ∧ t.eng = s.eng)

/-- Of a fault that the own run-time resolves: XLT_RESOLVE_RETRY frees its ring entry, and a thread on its cluster that
waited for it is ready at the same instruction, with nothing else changed; a command stopped by it goes on with one
more fault counted; XLT_RESOLVE_ABORT, and FAULT_TIMEOUT once the limit has passed, free the entry and raise XLT.002
or XLT.003 with the tag, and then the requester ends: a thread's work item, or a command with status ABORTED, and with
a thread-issued command its work item. A FAULT_TIMEOUT before the limit changes nothing. (R218, R219, R220) -/
def Obligations.FaultsAreResolved : Prop :=
  ∀ (tag : BitVec 32) (f : FaultRec) (s : State), faultAt s tag = some f → f.tag = tag ∧
    (∀ c k item, hostMay s = true → f.req = .thread c k item → isOn s c k item = true →
      ∃ t, exec (.xltResolveRetry tag) s = .next t ∧ OnlyThread c k (dropFault s tag) t ∧ thrAt t c k = unwait (thrAt s c k)) ∧
    (∀ e cmd, hostMay s = true → f.req = .engine e → parkedAt s e tag = some cmd →
      exec (.xltResolveRetry tag) s =
        .next (resumeCmd e { cmd with faults := cmd.faults + 1 } (unpark (dropFault s tag) e tag))) ∧
    (∀ c k item u, hostMay s = true → f.req = .thread c k item →
      u = raise (dropFault s tag) bXLT 2 (faultLoc f) f.seq (tag.setWidth 64) →
      exec (.xltResolveAbort tag) s = .next (endThread none c k item bXLT 2 f.va u)) ∧
    (∀ e cmd u, hostMay s = true → f.req = .engine e →
      u = raise (dropFault s tag) bXLT 2 (faultLoc f) f.seq (tag.setWidth 64) → parkedAt u e tag = some cmd →
      exec (.xltResolveAbort tag) s = .next (endIssuer (codAborted { cmd with faults := cmd.faults + 1 }
        (complete (unpark u e tag) e { cmd with faults := cmd.faults + 1 } stABORTED))
        { cmd with faults := cmd.faults + 1 } bXLT 2 f.va)) ∧
    (limitPast s f.seq f.ticks f.arose 0 0 = false → exec (.faultTimeout tag) s = .next s) ∧
    (∀ c k item u, limitPast s f.seq f.ticks f.arose 0 0 = true → f.req = .thread c k item →
      u = raise (dropFault s tag) bXLT 3 (faultLoc f) f.seq (tag.setWidth 64) →
      exec (.faultTimeout tag) s = .next (endThread none c k item bXLT 3 f.va u)) ∧
    ∀ e cmd u, limitPast s f.seq f.ticks f.arose 0 0 = true → f.req = .engine e →
      u = raise (dropFault s tag) bXLT 3 (faultLoc f) f.seq (tag.setWidth 64) → parkedAt u e tag = some cmd →
      exec (.faultTimeout tag) s = .next (endIssuer (codAborted cmd (complete (unpark u e tag) e cmd stABORTED)) cmd bXLT 3 f.va)

/-- With the link up after boot, a write of XLT_INVAL queues the range it names behind the ones that wait, and changes
nothing else. INVAL_COMPLETE takes the oldest range: no cached entry that meets it stays, every other one does,
INVAL_DONE advances by one, and nothing else changes. (R203, R204) -/
def Obligations.InvalidationDiscardsWhatItCovers : Prop :=
  ∀ (v : Word64) (s : State),
    (hostMay s = true → ∃ t, exec (.xltInval v) s = .next t ∧ ChangesOnly [.xlt] s t ∧
      t.xlt = { s.xlt with invals := s.xlt.invals ++ [invalRange v] }) ∧
    ∀ r rest, s.xlt.invals = r :: rest → ∃ t, exec .invalComplete s = .next t ∧ ChangesOnly [.xlt] s t ∧
      t.xlt.invals = rest ∧ t.xlt.invalDone = s.xlt.invalDone + 1 ∧ t.xlt.faults = s.xlt.faults ∧
      ∀ p, p ∈ t.xlt.tlb ↔ p ∈ s.xlt.tlb ∧ invalHits r p = false

/-- A member outside keep-alive mode that gets a memory request of another member: where every sector of it has a place
here, the request is carried out there (a read gives the bytes, a write writes them or poison, an ATOM gives the old
value) and answered with the data; where one has a recoverable fault, a record with KIND 6 and the requester's index
goes into the own ring and the answer is FAULTED with its tag, or ABORT where its entry is occupied; a fatal fault is
recorded and answered ABORT. (R223, R224, R275) -/
def Obligations.PeerRequestsAreAnswered : Prop :=
  ∀ (src : BitVec 16) (req : BitVec 32) (op : MemOp) (va : BitVec 52) (n i : Nat) (data : List Byte) (s : State),
    s.self.member = true → s.pwr.keepalive = false → (s.self.slice.bind fun r => indexOf s.self.dims r src) = some i →
    (∀ l v, peerPlaces (requestNeed op) va.toNat (requestBytes op va.toNat n data) s = (.inl l, v) →
      exec (.memRequest src req op va n data) s = .next (inject (requestDo op data l v).2.2 i 3
        (.memResponse req (.data (requestDo op data l v).1) (requestDo op data l v).2.1))) ∧
    (∀ level at' v w f tag, peerPlaces (requestNeed op) va.toNat (requestBytes op va.toNat n data) s =
        (.inr (.retry level, at'), v) →
      f = { mkFault 6 level (at' % 2 ^ 52) 0 noSeq (.peer i req.toNat) with peer := some i } →
      faultRetry v f = (some tag, w) →
      exec (.memRequest src req op va n data) s = .next (inject w i 3 (.memResponse req (.faulted tag) []))) ∧
    (∀ level at' v w f, peerPlaces (requestNeed op) va.toNat (requestBytes op va.toNat n data) s =
        (.inr (.retry level, at'), v) →
      f = { mkFault 6 level (at' % 2 ^ 52) 0 noSeq (.peer i req.toNat) with peer := some i } →
      faultRetry v f = (none, w) →
      exec (.memRequest src req op va n data) s = .next (inject w i 3 (.memResponse req .abort []))) ∧
    ∀ code level at' v, peerPlaces (requestNeed op) va.toNat (requestBytes op va.toNat n data) s =
        (.inr (.fatal code level, at'), v) →
      exec (.memRequest src req op va n data) s =
        .next (inject (faultFatal v { mkFault 6 level (at' % 2 ^ 52) 0 noSeq (.peer i req.toNat) with
          peer := some i, code := code }) i 3 (.memResponse req .abort []))

/-- For an outstanding request of a thread that runs on its cluster and waits for it: good data puts the bytes into the
waiting register and makes the thread ready, and the request is forgotten; a RETRY sends the same request again; an
ABORT, or for a request held up by the peer's fault the end of its limit, raises XLT.002 or XLT.003 and ends the work
item; a request unanswered for MEM_TIMEOUT raises LNK.033 and ends it. (R168, R223, R280) -/
def Obligations.PeersAnswersReachTheThread : Prop :=
  ∀ (req : BitVec 32) (r : T4Req) (c k item : Nat) (reg : Fin 32) (s : State),
    s.xlt.t4.find? (·.req == req) = some r → r.who = .thread c k item → isOn s c k item = true →
    (thrAt s c k).state = .waiting → (thrAt s c k).wait = .t4 req reg →
    (r.op ≠ .write → r.faulted = none → ∀ data, ∃ t, exec (.memResponse req (.data false) data) s = .next t ∧
      OnlyThread c k (dropT4 s req) t ∧
      thrAt t c k = { setReg (thrAt s c k) reg (BitVec.ofNat 64 (ofLE (data.take r.size))) with state := .ready, wait := .none }) ∧
    (∀ data, ∃ t u, exec (.memResponse req .retry data) s = .next t ∧
      t = inject u r.dst 2 (.memRequest req r.op r.va r.sectors r.data) ∧ ChangesOnly [.xlt] s u ∧
      ∀ z ∈ u.xlt.t4, z.req = req → z.faulted = none ∧ z.sentAt = s.time) ∧
    (∀ data, ∃ t u, exec (.memResponse req .abort data) s = .next t ∧ ChangesOnly [.xlt] s u ∧
      (∀ z ∈ u.xlt.t4, z.req ≠ req) ∧
      t = endThread (some r.pc) c k item bXLT 2 r.va (raise u bXLT 2 (locCluster c) (thrAt s c k).seq
        ((ownTag r).elim 0 (·.setWidth 64)))) ∧
    (r.faulted = none → r.sentAt + 1000 * param s 0x041 ≤ s.time → ∃ t, exec (.memTimeout req) s = .next t ∧
      t = endThread (some r.pc) c k item bLNK 33 r.va (raise (dropT4 s req) bLNK 33 (locCluster c) (thrAt s c k).seq 0)) ∧
    ∀ tag peer n at' f, r.faulted = some (peer, tag, n, at') → s.xlt.t4.find? (fun z => ownTag z == some tag) = some r →
      s.xlt.faults.find? (·.tag == tag) = some f → limitPast s f.seq n at' 2 10 = true →
      ∃ t u, exec (.peerFaultTimeout tag) s = .next t ∧ ChangesOnly [.xlt] s u ∧ (∀ z ∈ u.xlt.t4, z.req ≠ req) ∧
        t = endThread (some r.pc) c k item bXLT 3 r.va (raise u bXLT 3 (locCluster c) (thrAt s c k).seq (tag.setWidth 64))

/-- While the stacks are on, EAVES_TIMEOUT of a sector with an entry open for 2 µs takes that entry, and no other, out of
the buffer. Where the sector is not poisoned, each byte that the entry held is in the stack and every other byte of
the stacks is as before; where it is poisoned, the stacks are as before. No thread and no other part of the device
changes. (R181, R182, R185) -/
def Obligations.EavesEntryLeavesWhole : Prop :=
  ∀ (sec : Nat) (e : Eaves) (s : State), s.mem.on = true → s.mem.eaves.find? (·.sector == sec) = some e →
    e.opened + 2000 ≤ s.time →
    ∃ t, exec (.eavesTimeout sec) s = .next t ∧ t.mem.eaves = s.mem.eaves.filter (·.sector != sec) ∧
      (sec ∈ t.mem.poison → t.mem.stack = s.mem.stack) ∧
      (sec ∉ t.mem.poison → memWf zeroByte s.mem.stack = true →
        (∀ b ∈ e.bytes, (∀ b' ∈ e.bytes, b'.1 = b.1 → b' = b) → memRd zeroByte t.mem.stack (32 * sec + b.1) = b.2) ∧
        ∀ a, (∀ b ∈ e.bytes, a ≠ 32 * sec + b.1) → memRd zeroByte t.mem.stack a = memRd zeroByte s.mem.stack a) ∧
      ChangesOnly (eventParts ++ [.mem, .stackBytes]) s t

/-- While the stacks are on, after SCRUB of a channel no sector of the channel holds an error; a sector that was found
uncorrectable, and held no error before, is poisoned; no poisoned sector is healed; the bytes of the stacks, a line
stays in the caches unless its sector is poisoned, and the eaves entries are as before. (R184, R185, R187) -/
def Obligations.ScrubFindsEveryError : Prop :=
  ∀ (ch : Channel) (found : List (Nat × EccKind)) (s : State), s.mem.on = true →
    ∃ t, exec (.scrub ch found) s = .next t ∧ (∀ f ∈ t.mem.eccErr, homeCh f.1 ≠ ch.val) ∧
      (∀ n ∈ s.mem.poison, n ∈ t.mem.poison) ∧
      (∀ n, (n, EccKind.uncorrectable) ∈ found → (n, EccKind.corrected) ∉ found → homeCh n = ch.val → n < nSectors →
        (∀ f ∈ s.mem.eccErr, f.1 ≠ n) → n ∈ t.mem.poison) ∧
      t.mem.eaves = s.mem.eaves ∧ t.mem.stack = s.mem.stack ∧ (∀ n ∈ t.mem.lines, n ∈ s.mem.lines) ∧
      (∀ n ∈ s.mem.lines, n ∉ t.mem.poison → n ∈ t.mem.lines) ∧ ChangesOnly (eventParts ++ [.mem]) s t

/-- Out of reset with an image: after a sample of the 20 stacks with every reading below 115 °C each stack is where its
row, its time of cooling and its reading take it, and keep-alive mode is as it was; where a reading is 115 °C or more
and the stacks are powered, the device is in keep-alive mode, MEM.012 is its cause, and the stacks are off with no
byte listed. (R188, R189, R190, R191) -/
def Obligations.StackTemperaturesSetTheRows : Prop :=
  ∀ (ts : List Int) (s : State), Sound s → s.boot.inReset = false → s.boot.noImage = false → ts.length = 20 →
    ((∀ x ∈ ts, x < 115) → ∃ t, exec (.stackTempSample ts) s = .next t ∧ t.pwr.keepalive = s.pwr.keepalive ∧
      ∀ n x, ts[n]? = some x → unit t.mem.stks n StackSt.reset = (stackStep s.time (unit s.mem.stks n StackSt.reset) x).1) ∧
    ((∃ x ∈ ts, 115 ≤ x) → stacksPowered s = true → ∃ t, exec (.stackTempSample ts) s = .next t ∧
      t.pwr.keepalive = true ∧ t.pwr.causeMem = true ∧ t.pwr.causeNum = 12 ∧ t.mem.on = false ∧ t.mem.stack = [])

/-- While the stacks are on, of a channel that does not retrain now: a retrain that was asked for, or is for drift, where
one may start, with fewer than three in the last 10 s, begins at this time, its request is taken, and nothing else
changes; with three the channel fails, and keep-alive mode begins; where one may not start yet, its trigger stands and
nothing else changes. RETRAIN_DONE of a retraining channel without bad lanes ends the retrain with MEM.020, and the
time that it blocked the channel, at most 1.5 ms, is noted; a bad data or ECC lane with spare lane 36 free takes it,
with MEM.021, and is listed as a repair; a failed training fails the channel. (R193, R194, R195, R196) -/
def Obligations.RetrainingFollowsItsRules : Prop :=
  ∀ (ch : Channel) (drift : Bool) (s : State),
    (s.mem.on = true → (drift = true ∨ ch.val ∈ s.mem.retrainReq) → (∀ r ∈ s.mem.retraining, r.1 ≠ ch.val) →
      (retrainMay s ch = true → retrainsIn10 s ch < 3 →
        ∃ t, exec (.channelRetrain ch drift) s = .next t ∧ ChangesOnly [.mem] s t ∧
          t.mem.retraining = s.mem.retraining ++ [(ch.val, s.time)] ∧ t.mem.lastRetrain = some s.time ∧
          t.mem.retrainReq = s.mem.retrainReq.filter (· != ch.val) ∧
          t.mem.stks = s.mem.stks ∧ t.mem.poison = s.mem.poison ∧ t.mem.repairs = s.mem.repairs) ∧
      (retrainMay s ch = true → 3 ≤ retrainsIn10 s ch →
        exec (.channelRetrain ch drift) s = .next (channelFail s ch) ∧ (channelFail s ch).pwr.keepalive = true) ∧
      (retrainMay s ch = false → ∃ t, exec (.channelRetrain ch drift) s = .next t ∧ ch.val ∈ t.mem.retrainReq ∧
        (∀ k, k ≠ ch.val → (k ∈ t.mem.retrainReq ↔ k ∈ s.mem.retrainReq)) ∧
        t = { s with mem := { s.mem with retrainReq := t.mem.retrainReq } })) ∧
    ∀ t0, s.mem.retraining.find? (·.1 == ch.val) = some (ch.val, t0) →
      (∃ t u, exec (.retrainDone ch true []) s = .next t ∧ t = raise u bMEM 20 (locChannel ch) noSeq 0 ∧
        t.mem = { s.mem with
          retraining := s.mem.retraining.filter (·.1 != ch.val)
          maint := (t0, min s.time (t0 + 1500000)) :: s.mem.maint.filter fun r => decide (s.time < r.2 + second) } ∧
        t.pwr.keepalive = s.pwr.keepalive) ∧
      (∀ lane : Fin 40, lane.val < 36 → 36 ∉ sparesUsed s ch → ∃ t, exec (.retrainDone ch true [lane]) s = .next t ∧
        t.mem = { s.mem with
          retraining := s.mem.retraining.filter (·.1 != ch.val)
          maint := (t0, min s.time (t0 + 1500000)) :: s.mem.maint.filter fun r => decide (s.time < r.2 + second)
          repairs := s.mem.repairs ++
            [{ channel := ch, isRow := false, lane := lane, bank := 0, row := 0, spare := 36 }] }) ∧
      ∃ t, exec (.retrainDone ch false []) s = .next t ∧ t.pwr.keepalive = true

/-- LOAD_COMPLETE of the oldest build that loads, whose sources deliver every yealm that is left, takes the entry to state
2 with the same copy, past loading; where a load stops at a fault, or a source failed, the state is the one in which
it waits, or the build leaves. VERIFY_COMPLETE of the oldest build past loading whose every CRC (and every twin's)
matches, and which is the same as the live copy where it says SAME, makes that copy ready with state 3; else the build
leaves. All of it leaves the live copy and every other entry as they were. (R228, R229, R231, R232) -/
def Obligations.WeightsAreLoadedThenVerified : Prop :=
  ∀ (m : Model) (b : Build) (v : State) (s : State), Sound s →
    (loadingBuild (wgtAt s m) = some b →
      (loadHeld s m b.copy.gen (fun _ => true) = false →
        loadFrom m b.copy.gen (b.copy.man.ents.drop b.next) b.next s = (.ok, v) →
        ∃ t, exec (.loadComplete m false) s = .next t ∧ (wgtAt t m).live = (wgtAt s m).live ∧
          (∀ k, k ≠ m.val → wgtAt t k = wgtAt s k) ∧ (wgtAt t m).state = 2 ∧ (wgtAt t m).ready = (wgtAt s m).ready ∧
          (wgtAt t m).build = (wgtAt s m).build.map fun x =>
            if x.copy.gen = b.copy.gen then { x with loading := false }
            else if b.copy.gen < x.copy.gen then { x with before := 2 } else x) ∧
      (loadHeld s m b.copy.gen (fun _ => true) = false →
        loadFrom m b.copy.gen (b.copy.man.ents.drop b.next) b.next s = (.wait, v) →
        exec (.loadComplete m false) s = .next v ∧ (wgtAt v m).live = (wgtAt s m).live) ∧
      ∃ t, exec (.loadComplete m true) s = .next t ∧ (wgtAt t m).live = (wgtAt s m).live ∧
        (∀ k, k ≠ m.val → wgtAt t k = wgtAt s k) ∧ (wgtAt t m).build = takeBuild b.copy.gen (wgtAt s m).build) ∧
    ((wgtAt s m).build.find? (!·.loading) = some b →
      ((verifyAll b.copy.man.ents s).1 = true → sameOk (wgtAt s m) b.copy = true →
        ∃ t r, exec (.verifyComplete m) s = .next t ∧ (wgtAt t m).live = (wgtAt s m).live ∧
          (∀ k, k ≠ m.val → wgtAt t k = wgtAt s k) ∧ (wgtAt t m).state = 3 ∧
          (wgtAt t m).build = ((wgtAt s m).build.filter (·.copy.gen != b.copy.gen)).map (fun x => { x with before := 3 }) ∧
          (wgtAt t m).ready = (wgtAt s m).ready ++ [r] ∧ r.man = b.copy.man ∧ r.gen = b.copy.gen ∧ r.slot = b.copy.slot ∧
          ∀ y, y ∈ r.twinOk ↔ ∃ e, b.copy.man.ents[y]? = some e ∧ e.twin ≠ 0) ∧
      ((verifyAll b.copy.man.ents s).1 = false ∨ sameOk (wgtAt s m) b.copy = false →
        ∃ t, exec (.verifyComplete m) s = .next t ∧ (wgtAt t m).live = (wgtAt s m).live ∧
          (∀ k, k ≠ m.val → wgtAt t k = wgtAt s k) ∧ (wgtAt t m).build = takeBuild b.copy.gen (wgtAt s m).build))

/-- REFETCH_DONE of a poisoned yealm of a copy that serves, whose source delivers and whose bytes match their CRC, takes
it off the poisoned ones of that copy and ends its refetch; COPY_RETIRE of an old copy that no item and no command
refers to drops it, notes its generation as retired and raises WGT.002, and of one that is still referred to changes
nothing. FETCH_FAILURE while the yealm is fetched: a failed connection moves the fetch to the other network port; a
failed command of the yealm is counted, and at its third failure WGT.030 is raised and the load or the attempt fails.
No copy stops serving. (R230, R235, R237) -/
def Obligations.CopiesAreHealedAndRetired : Prop :=
  ∀ (m : Model) (y k : Nat) (s : State), Sound s →
    (∀ c n ye v w, refetching s m y = some (c, n) → c.man.ents[y]? = some ye → loadHeld s m c.gen (· == y) = false →
      loadYealm m c.gen y ye s = (.ok, v) → crcOk v ye.va ye.bytes ye.crc = (true, w) →
      ∃ t, exec (.refetchDone m y true) s = .next t ∧
        servedCopies (wgtAt t m) = (servedCopies (wgtAt s m)).map fun x =>
          if x.gen = c.gen then { x with
            refetch := x.refetch.filter (·.1 != y)
            bad := x.bad.filter (·.1 != y)
            said022 := x.said022.filter (· != y) } else x) ∧
    (∀ o, (wgtAt s m).old = some o →
      (o.items ≠ [] ∨ copyRead s o = true → exec (.copyRetire m) s = .next s) ∧
      (o.items = [] → copyRead s o = false → ∃ t u, exec (.copyRetire m) s = .next t ∧
        t = raise u bWGT 2 (locModel m) noSeq 0 ∧ (wgtAt t m).old = none ∧ (wgtAt t m).retired = o.copy.gen ∧
        (wgtAt t m).live = (wgtAt s m).live ∧ ∀ j, j ≠ m.val → wgtAt t j = wgtAt s j)) ∧
    ((loadingBuild (wgtAt s m)).isSome = true ∨ (refetching s m y).isSome = true →
      (∃ t, exec (.fetchFailure m y .connection) s = .next t ∧ ChangesOnly [.wgt] s t ∧
        wgtAt t m = { wgtAt s m with fetchPort := 5 - (wgtAt s m).fetchPort }) ∧
      ∀ n, n = ((wgtAt s m).fetchTries.find? fun q => q.1 == y && q.2.1 == k).elim 0 (·.2.2) →
        (n < 2 → ∃ t, exec (.fetchFailure m y (.command k)) s = .next t ∧ ChangesOnly [.wgt] s t ∧
          ((wgtAt t m).fetchTries.find? fun q => q.1 == y && q.2.1 == k).elim 0 (·.2.2) = n + 1 ∧
          servedCopies (wgtAt t m) = servedCopies (wgtAt s m)) ∧
        (2 ≤ n → ∃ t u, exec (.fetchFailure m y (.command k)) s = .next t ∧ ChangesOnly [.wgt] s u ∧
          (∀ b, refetching s m y = none → loadingBuild (wgtAt s m) = some b →
            t = buildFail (raise u bWGT 30 (locModel m) noSeq 0) m b.copy.gen) ∧
          ((refetching s m y).isSome = true → t = refetchFail (raise u bWGT 30 (locModel m) noSeq 0) m y)))

/-- While the device is a member a fallback notice, a return notice or a sequence notice joins the notices of its model,
or the moves of its active slot, under the tick it names; those that wait already stay, and nothing else changes. When
notices that name one tick fall due for a model, it falls where a fallback notice is among them, and returns where all
of them are return notices and no fallback notice for that tick fell due before. (R239, R258) -/
def Obligations.NoticesSetAMove : Prop :=
  ∀ (m : Model) (n : Slot) (tick : Nat) (s : State), Sound s → s.self.member = true →
    (∃ t l, exec (.fallbackNotice m tick) s = .next t ∧ ChangesOnly [.wgt] s t ∧
      (∀ k, k ≠ m.val → wgtAt t k = wgtAt s k) ∧ wgtAt t m = { wgtAt s m with notices := l } ∧
      ∀ x, x ∈ l ↔ x = (tick, true) ∨ x ∈ (wgtAt s m).notices) ∧
    (∃ t l, exec (.returnNotice m tick) s = .next t ∧ ChangesOnly [.wgt] s t ∧
      (∀ k, k ≠ m.val → wgtAt t k = wgtAt s k) ∧ wgtAt t m = { wgtAt s m with notices := l } ∧
      ∀ x, x ∈ l ↔ x = (tick, false) ∨ x ∈ (wgtAt s m).notices) ∧
    ((seqAt s n).state = .active → ∀ fb, ∃ t l, exec (.sequenceNotice n fb tick) s = .next t ∧ ChangesOnly [.seq] s t ∧
      (∀ k, k ≠ n.val → seqAt t k = seqAt s k) ∧ seqAt t n = { seqAt s n with moves := l } ∧
      ∀ x, x ∈ l ↔ x = (tick, fb) ∨ x ∈ (seqAt s n).moves) ∧
    ∀ w : ModelSt, (∀ x ∈ w.notices, x.1 = tick) →
      ((tick, true) ∈ w.notices → (noticesDue tick w).fallen = true) ∧
      ((tick, true) ∉ w.notices → w.notices ≠ [] → tick ∉ w.fbTicks → (noticesDue tick w).fallen = false)

/-- On an active link of a powered device whose replay buffer has room: a flit whose CRC fails is answered by one retry
request, a flit of KIND 2 that acknowledges the last flit accepted, and neither the next FSEQ expected nor what waits
to be sent changes; a good data flit moves the next FSEQ by one where it is the one expected, and leaves it where it
came ahead of its turn; one that was accepted before changes nothing. A retry request for a flit in the replay buffer
raises LNK.001 and sends every flit from that one on again, in order; more than three retries of it within 1 ms
retrain the link. (R264, R265, R278) -/
def Obligations.FlitsComeInOrder : Prop :=
  ∀ (k : Link) (f : BitVec 2048) (q : BitVec 12) (s : State), Sound s → linksOn s = true → (linkAt s k).active = true →
    (flitOk f = false → (linkAt s k).replay.length < 2048 → ∃ t, exec (.flitReceive k f) s = .next t ∧
      ChangesOnly [.link, .out, .obs] s t ∧
      t.out = .flit k (flitBits (linkAt s k).txSeq ((linkAt s k).rxSeq - 1) 7 (creditsDue (linkAt s k)) 2
        false false false false 0) :: s.out ∧
      (linkAt t k).rxSeq = (linkAt s k).rxSeq ∧ (linkAt t k).txSeq = (linkAt s k).txSeq + 1 ∧
      (linkAt t k).inFlight = (linkAt s k).inFlight ∧ (linkAt t k).txQ = (linkAt s k).txQ) ∧
    (flitOk f = true → flitIsData f = true →
      (flitSeq f = (linkAt s k).rxSeq → ∃ t, exec (.flitReceive k f) s = .next t ∧
        (linkAt t k).rxSeq = (linkAt s k).rxSeq + 1 ∧ ChangesOnly [.link, .out, .obs] s t) ∧
      (0 < (flitSeq f - (linkAt s k).rxSeq).toNat → (flitSeq f - (linkAt s k).rxSeq).toNat < 2048 →
        ∃ t, exec (.flitReceive k f) s = .next t ∧ (linkAt t k).rxSeq = (linkAt s k).rxSeq ∧
          ChangesOnly [.link, .out, .obs] s t) ∧
      (2048 ≤ (flitSeq f - (linkAt s k).rxSeq).toNat → exec (.flitReceive k f) s = .next s)) ∧
    (((linkAt s k).replay.any (·.1 == q)) = true → ∃ u,
      u.out = (((linkAt s k).replay.dropWhile (·.1 != q)).map fun r => Out.flit k r.2).reverse ++ s.out ∧
      (linkAt u k).replay = (linkAt s k).replay ∧ ChangesOnly (eventParts ++ [.link, .out]) s u ∧
      (((linkAt s k).retries.filter fun r => decide (s.time < r.2 + 1000000) && r.1 == q).length < 3 →
        exec (.retryRequest k q) s = .next u) ∧
      (3 ≤ ((linkAt s k).retries.filter fun r => decide (s.time < r.2 + 1000000) && r.1 == q).length →
        exec (.retryRequest k q) s = .next (linkRetrain k u)))

/-- On a powered device: LINK_RETRAIN of an active link leaves it inactive, and its port is down with LNK.011 if that was
its last link; a retrain that fails for the third time within 60 s removes the link with LNK.010; a trained link whose
frame is the neighbour's, and as fast as the port's other links, is active and its port is up with that neighbour; one
whose frame is another device's fences the port, with no link of it active. (R266, R267, R268, R270) -/
def Obligations.LinksLeaveAndJoinTheirPort : Prop :=
  ∀ (k : Link) (s : State), Sound s → linksOn s = true →
    (∀ cause, (linkAt s k).active = true → ∃ t, exec (.linkRetrain k cause) s = .next t ∧ (linkAt t k).active = false ∧
      (∀ j, j ≠ k.val → linkAt t j = linkAt s j) ∧
      ((portAt s (linkPort k)).state = .up → activeLinks s (linkPort k) = [k.val] → (portAt t (linkPort k)).state = .down) ∧
      ((portAt s (linkPort k)).state ≠ .up ∨ activeLinks s (linkPort k) ≠ [k.val] →
        (portAt t (linkPort k)).state = (portAt s (linkPort k)).state)) ∧
    ((linkAt s k).training = true →
      ((linkAt s k).again = true → 2 ≤ ((linkAt s k).fails.filter fun t => decide (s.time < t + 60 * second)).length →
        ∃ t, exec (.linkTrainingDone k .failed) s = .next t ∧ (linkAt t k).removed = true ∧ (linkAt t k).active = false) ∧
      (∀ lat code, code.val = oppositePort (linkPort k) →
        (∀ j ∈ activeLinks s (linkPort k), j ≠ k.val → (linkAt s j).latency ≤ lat + 64 ∧ lat ≤ (linkAt s j).latency + 64) →
        (linkAt s k).active = false →
        ∃ t, exec (.linkTrainingDone k (.trained lat (neighbour s (linkPort k)) s.self.dims code)) s = .next t ∧
          (linkAt t k).active = true ∧ (linkAt t k).training = false ∧
          (portAt t (linkPort k)).state = .up ∧ (portAt t (linkPort k)).nbr = neighbour s (linkPort k)) ∧
      (∀ lat coord dims code, coord ≠ neighbour s (linkPort k) →
        ∃ t, exec (.linkTrainingDone k (.trained lat coord dims code)) s = .next t ∧
          (portAt t (linkPort k)).state = .fenced ∧ activeLinks t (linkPort k) = []))

/-- At a port that is up and holds no packet: one whose PSEQ is the next of its class moves that number by one and is
delivered where it is addressed to this device within its slice, dropped with LNK.032 where it is addressed to this
device from another slice, and sent on otherwise; one with a later PSEQ is held; one with an earlier PSEQ changes
nothing. (R267, R276, R280) -/
def Obligations.PacketsComeInOrder : Prop :=
  ∀ (p : NPort) (hdr : BitVec 128) (pay : List Byte) (s : State), Sound s → linksOn s = true → (portAt s p).state = .up →
    (portAt s p).held = [] → hdrClass hdr < (portAt s p).rxPseq.length →
    (hdrPseq hdr = (portAt s p).rxPseq.getD (hdrClass hdr) 0 → ∃ t u, exec (.packetReceive p hdr pay) s = .next t ∧
      ChangesOnly [.port] s u ∧ portAt u p = { portAt s p with
        rxPseq := (portAt s p).rxPseq.set (hdrClass hdr) (hdrPseq hdr + 1) } ∧
      (hdrDst hdr = s.self.coord → s.self.sliceId ≠ 0 → hdrSlice hdr = s.self.sliceId → t = emit u (.delivered hdr pay)) ∧
      (hdrDst hdr = s.self.coord → hdrSlice hdr ≠ s.self.sliceId → t = dropForeign p u) ∧
      (hdrDst hdr ≠ s.self.coord → hdrSlice hdr = s.self.sliceId → s.self.sliceId ≠ 0 → hdrClass hdr ≠ 7 →
        t = sendOn u p (hdrClass hdr) hdr pay) ∧
      (hdrDst hdr ≠ s.self.coord → (hdrSlice hdr ≠ s.self.sliceId ∨ s.self.sliceId = 0 ∨ hdrClass hdr = 7) → t = sendOn u p 4 hdr pay)) ∧
    (hdrPseq hdr ≠ (portAt s p).rxPseq.getD (hdrClass hdr) 0 →
      (hdrPseq hdr - (portAt s p).rxPseq.getD (hdrClass hdr) 0).toNat < 32768 →
      ∃ t, exec (.packetReceive p hdr pay) s = .next t ∧ ChangesOnly [.port] s t ∧
        portAt t p = { portAt s p with held := [(hdr, pay)] }) ∧
    (32768 ≤ (hdrPseq hdr - (portAt s p).rxPseq.getD (hdrClass hdr) 0).toNat → exec (.packetReceive p hdr pay) s = .next s)

/-- With a capture in progress: CAPTURE_DONE writes CAPT, ends the capture, leaves a snapshot that it took staged for its
drain, and updates c by R30's rule from a snapshot's time and t_step from the time since the capture before (averages
in ns, log entry 69); MIRROR_TIMEOUT changes nothing where no tensor is mirrored or MIRROR_TIMEOUT has not passed
since it began, and else raises SNP.011 and ends it in the same way. With a protection record latched: an
INTERVAL_NOTICE at a member that is not the leader replaces NEXT_SNAP and the history; at the leader it changes
nothing; OBSERVATION_SECOND adds the number of members to T_OBS at the leader and changes nothing elsewhere. Beside
the status, only its copy in memory changes. (R302, R303, R306) -/
def Obligations.CapturesEndAndSetTheInterval : Prop :=
  ∀ (p : ProtRec) (s : State), s.snp.prot = some p →
    (∀ c, s.snp.capture = some c →
      (∃ t u, exec .captureDone s = .next t ∧ t = snpSync u ∧ ChangesOnly [.snp] s u ∧ t.snp = u.snp ∧
        u.snp.capt = some c.step ∧ u.snp.capture = none ∧ u.snp.lastCapture = some (c.step, s.time) ∧
        u.snp.prot = some p ∧ u.snp.method = s.snp.method ∧ u.snp.written = s.snp.written ∧ u.snp.lastSnap = s.snp.lastSnap ∧
        (c.snapshot = true → u.snp.staged = some (c.step, c.slot, false) ∧
          u.snp.cNs = average s.snp.cNs (s.time - c.startedAt)) ∧
        (c.snapshot = false → u.snp.staged = s.snp.staged ∧ u.snp.cNs = s.snp.cNs) ∧
        (∀ l, s.snp.lastCapture = some l → u.snp.stepNs = average s.snp.stepNs (s.time - l.2)) ∧
        (s.snp.lastCapture = none → u.snp.stepNs = s.snp.stepNs)) ∧
      (tensorsOf s.snp.method true p.tensors = [] ∨ s.time < c.startedAt + 1000000 * param s 0x083 →
        exec .mirrorTimeout s = .next s) ∧
      (tensorsOf s.snp.method true p.tensors ≠ [] → c.startedAt + 1000000 * param s 0x083 ≤ s.time →
        ∃ t u, exec .mirrorTimeout s = .next t ∧ u = raise s bSNP 11 (locSlot p.seq) p.seq 0 ∧ t = captWrite c u ∧
          t.snp.capt = some c.step ∧ t.snp.capture = none)) ∧
    (isLeader s = true →
      (∀ next f tObs cUs stepUs, exec (.intervalNotice next f tObs cUs stepUs) s = .next s) ∧
      ∃ t u, exec .observationSecond s = .next t ∧ t = snpSync u ∧ ChangesOnly [.snp] s u ∧
        t.snp = { s.snp with tObs := s.snp.tObs + sliceSize s }) ∧
    (isLeader s = false → exec .observationSecond s = .next s ∧
      ∀ next f tObs cUs stepUs, ∃ t u, exec (.intervalNotice next f tObs cUs stepUs) s = .next t ∧ t = snpSync u ∧
        ChangesOnly [.snp] s u ∧
        t.snp = { s.snp with
          nextSnap := next, f := f, tObs := tObs, cNs := if cUs = 0 then none else some (1000 * cUs)
          stepNs := if stepUs = 0 then none else some (1000 * stepUs) })

/-- With a protection record latched: MIRROR_RECEIVE of sectors for a mirror slot that no drain holds clears the slot's
VALID, writes them, the poisoned ones as poison, sets VALID only with the trailer, and acknowledges; DRAIN_START of
the own staging marks it as draining, and of the ward's snapshot, while the store is up, clears the footer of the slot
that does not hold WARD_SNAP and writes the header; DRAIN_COMPLETE of the ward's drain writes the payload and its
footer, moves WARD_SNAP, raises SNP.013 and notifies the ward, or, where it failed, ends it with SNP.012;
SNAPSHOT_NOTICE of the step that drains sets LAST_SNAP and WRITTEN and frees the staging. RESTORE_REQUEST of the ward
for WARD_SNAP is answered from the store where the payload matches its CRC, and refused as no snapshot of the step
where it does not; of any other member, or where the store does not hold the ward's, it is refused as no copy held;
RESTORE_COMPLETE writes the tensors and raises SNP.020, or, where the buddy holds no copy or a CRC fails, writes no
byte and raises SNP.031 or SNP.030. (Layouts of the store and of the pieces: log entries 67, 68.) (R303, R305, R308) -/
def Obligations.BuddiesExchangeSnapshots : Prop :=
  ∀ (p : ProtRec) (s : State), Sound s → s.snp.prot = some p →
    (∀ (slot : Bool) (offs : Nat) (data : Piece) (trailer : Bool) (v : State),
      s.snp.wardHold ≠ some slot → offs + data.bytes.length ≤ p.mirrorBytes →
      putSectors (p.mirrorVa + slot.toNat * p.mirrorBytes + offs) ⟨data.bytes, data.bad⟩
        (setWard slot (wardWord s slot &&& 0x7FFFFFFFFFFFFFFF) s) = (true, v) →
      ∃ t w, exec (.mirrorReceive slot offs data trailer) s = .next t ∧
        t = inject (snpSync w) p.ward 5 (.mirrorAck slot offs) ∧ ChangesOnly [.snp] v w ∧
        (wardWord t slot).getLsbD 63 = trailer ∧ wardWord t (!slot) = wardWord s (!slot) ∧
        (trailer = true → (wardWord t slot).toNat % 2 ^ 48 = fld data.bytes 0 8 % 2 ^ 48)) ∧
    (∀ step slot bs v, s.snp.staged = some (step, slot, false) →
      snapRead p.stageVa (pagedBytes (tensorsOf s.snp.method false p.tensors)) s = (some bs, v) →
      ∃ t, exec (.drainStart none) s = .next t ∧ t.snp = { s.snp with staged := some (step, slot, true) } ∧
        ChangesOnly (eventParts ++ [.out, .link, .port, .mem, .stackBytes, .xlt, .snp]) s t) ∧
    (∀ step, s.hif.stUp = true → s.snp.storeOk = true → s.snp.wardDrain = none →
      ∃ t k, exec (.drainStart (some step)) s = .next t ∧ ChangesOnly [.snp] s t ∧ t.snp.wardDrain = some (step, k) ∧
        (slotWith s s.snp.wardSnap = some (!k) ∨ slotWith s s.snp.wardSnap = none) ∧
        sarkAt t (footerBlock s k) 0 32 = List.replicate 32 0 ∧ sarkAt t 0 0 32 = headerBytes s (memberCoord s p.ward)) ∧
    (∀ step k payload, s.snp.wardDrain = some (step, k) →
      (s.snp.wardHold = none → ∃ t u, exec (.drainComplete (some payload) true) s = .next t ∧
        t = inject (raise u bSNP 13 locDevice noSeq 0) p.ward 6 (.snapshotNotice step) ∧
        t.snp.wardSnap = step ∧ t.snp.wardDrain = none ∧
        sarkAt t (footerBlock s k + 1) 0 (paged payload).length = paged payload ∧
        fld (sarkAt t (footerBlock s k) 0 32) 0 8 = step % 2 ^ 64 ∧
        ChangesOnly (eventParts ++ [.snp, .mem, .stackBytes, .xlt]) s u) ∧
      ∃ t u, exec (.drainComplete (some payload) false) s = .next t ∧ t = raise u bSNP 12 locDevice noSeq 0 ∧
        ChangesOnly [.snp] s u ∧ u.snp = { s.snp with wardDrain := none, wardHold := none }) ∧
    (∀ step slot, s.snp.staged = some (step, slot, true) →
      (∃ t u, exec (.snapshotNotice step) s = .next t ∧ t = snpSync u ∧ ChangesOnly [.snp] s u ∧
        t.snp = { s.snp with lastSnap := some step, written := s.snp.dirtiedSince, staged := none }) ∧
      exec (.drainComplete none true) s = .next s ∧
      ∃ t u, exec (.drainComplete none false) s = .next t ∧ t = raise u bSNP 12 (locSlot p.seq) p.seq 0 ∧
        ChangesOnly [.snp] s u ∧ u.snp = { s.snp with staged := none }) ∧
    (∀ src step, src ≠ p.ward ∨ namesWard s src = false →
      exec (.restoreRequest src step) s = .next (inject s src 5 (.restoreAnswer step .noCopy))) ∧
    (∀ k, namesWard s p.ward = true → slotWith s s.snp.wardSnap = some k →
      (∀ x, payloadOf s k = some x → exec (.restoreRequest p.ward s.snp.wardSnap) s =
        .next (inject (sendParts p.ward s.snp.wardSnap [x] s) p.ward 5 (.restoreAnswer s.snp.wardSnap .served))) ∧
      (payloadOf s k = none → exec (.restoreRequest p.ward s.snp.wardSnap) s =
        .next (inject s p.ward 5 (.restoreAnswer s.snp.wardSnap .noStep)))) ∧
    ∀ step data, s.snp.restoring = some step →
      (∀ v, data.map (·.length) = p.tensors.map (·.bytes) →
        restoreTensors (p.tensors.zip data) (modSnp s fun n => { n with restoring := none }) = (true, v) →
        ∃ t u, exec (.restoreComplete data true true) s = .next t ∧ t = raise (snpSync u) bSNP 20 (locSlot p.seq) p.seq 0 ∧
          ChangesOnly [.snp] v u ∧ u.snp = { s.snp with
            restoring := none, restored := step, capt := some step, lastSnap := some step, forceNext := true }) ∧
      (∃ t u, exec (.restoreComplete data false true) s = .next t ∧ t = raise u bSNP 30 (locSlot p.seq) p.seq 0 ∧
        ChangesOnly [.snp] s u ∧ u.snp = { s.snp with restoring := none } ∧ t.mem = s.mem) ∧
      ∀ ok, ∃ t u, exec (.restoreComplete data ok false) s = .next t ∧ t = raise u bSNP 31 (locSlot p.seq) p.seq 0 ∧
        ChangesOnly [.snp] s u ∧ u.snp = { s.snp with restoring := none } ∧ t.mem = s.mem

/-- Where a codec command starts on its engine: an OPEN whose descriptor reads, keeps within its tables and names its own
closed context, within the live load and the encoder's rates, opens that context with the descriptor and completes
with status OK; ENCODE and DECODE of an open context add one picture with the command and no row done at the end of
its queue; CLOSE of an open context without pictures leaves it closed and completes with status OK, and of one with
pictures waits for them; CLOSE, ENCODE and DECODE of a closed context raise COD.002 and complete with status INVALID.
No other context changes. (R316, R318, R323, R325) -/
def Obligations.CodecCommandsTakeEffect : Prop :=
  ∀ (e : Engine) (au : AccessUnit) (s v : State) (c : DmaCmd), Sound s → starts s e = some (c, v) →
    (cmdOp c = 0x20 → ∀ g r, srcBytes ⟨true, true⟩ (cmdN c 8 8 % 2 ^ 52) 128 ⟨v, c, [], e⟩ = (.inl g, r) → g.poison = false →
      (ctxDesc g.bytes).ok g.bytes = true → 64 * (ctxDesc g.bytes).dir + (ctxDesc g.bytes).ctx = cmdCtx c →
      (ctxAt r.s (cmdCtx c)).desc = none → overLive r.s (cmdCtx c) (ctxDesc g.bytes) = false →
      rateLow (ctxDesc g.bytes) = false →
      ∃ t u, exec (.open_ e) s = .next t ∧ t = complete u e c stOK ∧ ChangesOnly [.cod] r.s u ∧
        ctxAt u (cmdCtx c) = { CtxSt.reset with desc := some (ctxDesc g.bytes), coder := Config.coderStart g.bytes } ∧
        ∀ k, k ≠ cmdCtx c → ctxAt u k = ctxAt r.s k) ∧
    (∀ i op, (i, op) ∈ [(Instr.close e, 0x21), (.encode e, 0x22), (.decode e au, 0x23)] → cmdOp c = op →
      (ctxAt v (cmdCtx c)).desc = none →
      ∃ t, exec i s = .next t ∧ t = complete (raise v bCOD 2 (locCtx (cmdCtx c)) (cmdSeq c) 0) e c stINVALID) ∧
    ∀ d, (ctxAt v (cmdCtx c)).desc = some d →
      (cmdOp c = 0x21 → (ctxAt v (cmdCtx c)).queue = [] → ∃ t u, exec (.close e) s = .next t ∧
        t = complete u e c stOK ∧ ChangesOnly [.cod] v u ∧ ctxAt u (cmdCtx c) = CtxSt.reset ∧
        ∀ k, k ≠ cmdCtx c → ctxAt u k = ctxAt v k) ∧
      (cmdOp c = 0x21 → (ctxAt v (cmdCtx c)).queue ≠ [] → ∃ t, exec (.close e) s = .next t ∧ ChangesOnly [.cod] v t ∧
        ctxAt t (cmdCtx c) = { ctxAt v (cmdCtx c) with closing := some (e.val, c) } ∧
        ∀ k, k ≠ cmdCtx c → ctxAt t k = ctxAt v k) ∧
      ∀ i op a rows, (i, op, a, rows) ∈ [(Instr.encode e, 0x22, none, d.bh),
          (.decode e au, 0x23, some au, max 1 (cdiv au.height 64))] → cmdOp c = op →
        (∀ p ∈ (ctxAt v (cmdCtx c)).queue, p.cmd.num ≠ c.num) →
        (d.cls = 0 → (domAt v d.domain).tickNo % 2 ^ 48 < cmdN c 0x30 8 % 2 ^ 48) →
        ∃ t p, exec i s = .next t ∧ ChangesOnly [.cod] v t ∧
          ctxAt t (cmdCtx c) = { ctxAt v (cmdCtx c) with queue := (ctxAt v (cmdCtx c)).queue ++ [p] } ∧
          p.cmd = c ∧ p.eng = e ∧ p.rowsDone = 0 ∧ p.rows = rows ∧ p.au = a ∧ p.begun = false ∧
          ∀ k, k ≠ cmdCtx c → ctxAt t k = ctxAt v k

/-- Outside keep-alive mode and reset, where the head picture of a live context of the half has the earliest deadline of
the half's live contexts with work (the lower context number on a tie), CODEC_ROW_SCHEDULE does one row of it: of a
picture being encoded whose row reads without errors or poison and is not its last, and of a picture being decoded
whose row is not its last, one more row is done, and no other context changes. With the link up after boot, a write of
COD_KEYREQ sets the bits that it names and changes nothing else. (R324, R326, Table 17.8) -/
def Obligations.RowsGoToTheEarliestDeadline : Prop :=
  ∀ (x : Sys2Proof.Complex) (s : State), Sound s →
    (∀ (enc : Bool) (i : Nat) (d : CtxDesc) (p : Picture), s.pwr.keepalive = false → s.boot.inReset = false →
      i / 32 = x.val + (if enc then 0 else 2) → headPic s i = some (d, p) → d.cls = 0 → p.rowsDone + 1 < p.rows →
      (∀ k e q, k / 32 = i / 32 → headPic s k = some (e, q) → e.cls = 0 →
        p.deadline < q.deadline ∨ (p.deadline = q.deadline ∧ i ≤ k)) →
      (∀ a, enc = false → p.au = some a → ∃ t, exec (.codecRowSchedule x enc) s = .next t ∧ ChangesOnly [.cod] s t ∧
        (ctxAt t i).queue.head? = some { p with begun := true, rowsDone := p.rowsDone + 1 } ∧
        ∀ k, k ≠ i → ctxAt t k = ctxAt s k) ∧
      (∀ bs r, enc = true → p.begun = true →
        readRow d (cmdN p.cmd 8 8 % 2 ^ 52) p.rowsDone ⟨s, p.cmd, [], p.eng⟩ = (.inl ([], bs), r) →
        ∃ t q, exec (.codecRowSchedule x enc) s = .next t ∧ ChangesOnly [.cod] r.s t ∧
          (ctxAt t i).queue.head? = some q ∧ q.cmd = p.cmd ∧ q.rowsDone = p.rowsDone + 1 ∧ q.src = p.src ++ bs ∧ p.spent ≤ q.spent ∧
          (p.stage ≤ 3 → p.stage ≤ q.stage) ∧ ∀ k, k ≠ i → ctxAt t k = ctxAt s k)) ∧
    ∀ v, hostMay s = true → ∃ t, exec (.codKeyreq v) s = .next t ∧ ChangesOnly [.cod] s t ∧
      t.cod = { s.cod with keyReq := s.cod.keyReq ||| v }

/-- A packet that an input flow or an RTP-in flow accepts, with the next sequence number and none held: the number moves
on by one, and the packet is taken at once, a video or RTP packet into the frame that is being received; one behind
the next number is only counted. PLAY of a configured output flow for a tick in its window, of the length of its
essence, whose source is read whole and without poison while the tick is still to come, and to which no spoiled item
contributed: the frame waits as good and the command completes with status OK; for a tick outside its window it
completes with status REFUSED and MED.011. RTP_OUT_ACCESS_UNIT sends the next access unit of the encode context, in
the packets of its coding, and moves CONS past the record; with nothing new in the ring it sends nothing. (Cost and
packetisation: log entries 22, 55.) (R339, R341, R343, R346, R347) -/
def Obligations.FlowsTakeAndSend : Prop :=
  ∀ (f : Flow) (s : State),
    (∀ port seq ssrc marker payload c, accepts s f port.toNat [6, 7] ssrc = some c →
      ((flowAt s f).nextSeq = some seq → (flowAt s f).window = [] →
        ∃ t u, exec (.inputPacketReceive f port seq ssrc marker payload) s = .next t ∧
          t = takePacket f false ⟨seq, 0, marker, payload, s.time⟩ u ∧ ChangesOnly [.flow, .obs] s u ∧
          flowAt u f = { flowAt s f with nextSeq := some (seq + 1) } ∧
          (c.kind = 6 → (flowAt t f).slots = (takeFrame s.time false marker payload (flowAt s f).slots).1) ∧
          ∀ k, k ≠ f.val → flowAt t k = flowAt s k) ∧
      (behind (flowAt s f).nextSeq seq = true →
        ∃ t, exec (.inputPacketReceive f port seq ssrc marker payload) s = .next t ∧ ChangesOnly [.obs] s t)) ∧
    (∀ seq ssrc ts marker payload c p, (flowAt s f).cfg = some c → c.kind = 5 → c.ssrc = 0 ∨ c.ssrc = ssrc →
      codedPort s c = some p →
      ((flowAt s f).nextSeq = some seq → (flowAt s f).window = [] →
        ∃ t u, exec (.rtpInPacket f seq ssrc ts marker payload) s = .next t ∧
          t = rtpPacket f false ⟨seq, ts, marker, payload, s.time⟩ u ∧ ChangesOnly [.flow, .obs] s u ∧
          flowAt u f = { flowAt s f with nextSeq := some (seq + 1) } ∧
          (marker = false → (flowAt t f).slots = (takeFrame s.time false marker payload (flowAt s f).slots).1)) ∧
      (behind (flowAt s f).nextSeq seq = true →
        ∃ t, exec (.rtpInPacket f seq ssrc ts marker payload) s = .next t ∧ ChangesOnly [.obs] s t)) ∧
    (∀ (e : Engine) (c : DmaCmd) (v : State) (k : FlowCfg), starts s e = some (c, v) → cmdOp c = 0x24 →
      c.started = false → cmdN c 3 1 = f → (flowAt v f).cfg = some k → k.kind ≤ 3 →
      (∀ x, (domAt v (flowAt v f).domain).tickNo < cmdN c 0x18 8 →
        cmdN c 0x18 8 ≤ (domAt v (flowAt v f).domain).tickNo + k.depth → (flowAt v f).accepted.contains (cmdN c 0x18 8) = false →
        playLength (domAt v (flowAt v f).domain).rate k (cmdN c 0x18 8) (cmdN c 0x10 4) = true →
        runPieces e (playPieces k f (cmdN c 0x18 8) (cmdN c 8 8) (cmdN c 0x10 4)) 0
          ⟨modFlow v f fun y => { y with accepted := y.accepted ++ [cmdN c 0x18 8] }, { c with started := true }, [], e⟩ = (none, x) →
        x.cmd.poisoned = 0 → frameSpoiled x.s x.cmd (cmdN c 0x18 8) = false → (domAt x.s (flowAt x.s f).domain).tickNo < cmdN c 0x18 8 →
        ∃ t u, exec (.play e) s = .next t ∧ t = complete u e x.cmd stOK ∧ ChangesOnly [.flow] x.s u ∧
          (∀ w ∈ (flowAt u f).waiting, w.tick = cmdN c 0x18 8 → w.good = true) ∧
          (flowAt u f).waiting.map (fun w => (w.tick, w.data)) = (flowAt x.s f).waiting.map fun w => (w.tick, w.data)) ∧
      (cmdN c 0x18 8 ≤ (domAt v (flowAt v f).domain).tickNo ∨
          (domAt v (flowAt v f).domain).tickNo + k.depth < cmdN c 0x18 8 →
        ∃ t, exec (.play e) s = .next t ∧ t = complete (raise v bMED 11 (locFlow f) (cmdSeq c) 0) e c stREFUSED)) ∧
    ∀ c p d bs v, (flowAt s f).cfg = some c → c.kind = 4 → codedPort s c = some p → (ctxAt s (c.format % 64)).desc = some d →
      ringRead (d.ringBase % 2 ^ 52 + 8) 8 s = (some bs, v) →
      ((ctxAt s (c.format % 64)).prodAt ≤ fld bs 0 8 → exec (.rtpOutAccessUnit f) s = .next v) ∧
      (fld bs 0 8 < (ctxAt s (c.format % 64)).prodAt → ∀ pos n pts r unit w,
        ringRecord d.ringBase d.ringData (fld bs 0 8) v = (some (pos, n, pts), r) →
        ringRead (d.ringBase + 0x40 + pos % d.ringData + 16) n r = (some unit, w) →
        ∃ t u, exec (.rtpOutAccessUnit f) s = .next t ∧
          t = (putAll [(d.ringBase % 2 ^ 52 + 8, leBytes 8 (pos + recordBytes n))] u).2 ∧
          ChangesOnly [.free, .out, .flow, .obs] w u ∧ u.out = .rtpUnit f (pts % 2 ^ 32) (packetised (d.std == 1) unit) :: w.out)

/-- Where a running domain whose source is PTP has not yet acquired time, PTP_TIME_ACQUIRED changes that domain only,
keeps its tick number, and makes its next boundary one that raises TCK.002, counts as acquired, and is numbered by the
count of periods since the SMPTE epoch, nearest to the time that the port gives (an unchanged rate). A PTP message
that crosses port 0 or 1 while its link is up changes that port's clock only: a one-step Sync gives the offset from
its master less the known delay; the Delay_Resp of an exchange gives the mean of both ways as the delay, the offset
with it, and the port is locked to its master (log entry 85). Ports 2 and 3 run no clock, and a port whose link is
down takes nothing. (R15, R16, R335) -/
def Obligations.TimeComesFromAPort : Prop :=
  ∀ (s : State), Sound s →
    (∀ (d : Dom) (ns : Nat), (domAt s d).running = true → (domAt s d).source = 1 →
      (domAt s d).hasTime = false → (domAt s d).holdover = false → (domAt s d).acquired = false →
      (domAt s d).nextRate = none →
      ∃ t, exec (.ptpTimeAcquired d ns) s = .next t ∧ ChangesOnly [.dom, .latches] s t ∧
        (domAt t d).hasTime = true ∧ (domAt t d).tickNo = (domAt s d).tickNo ∧ (∀ e, e ≠ d.val → domAt t e = domAt s e) ∧
        ∀ now, (nextBoundary now (domAt t d)).2 = true ∧ (nextBoundary now (domAt t d)).1.acquired = true ∧
          (nextBoundary now (domAt t d)).1.tickNo =
            (nearest (((now : Int) - s.time + ns) * ((ratePeriod (domAt s d).rate).2 : Nat))
              (second * (ratePeriod (domAt s d).rate).1)).toNat) ∧
    ∀ (p : MPort),
      ((mportAt s p).linkUp = false → ∀ m, exec (.ptpMessage p m) s = .next s) ∧
      ((mportAt s p).linkUp = true → ∀ m, ∃ t, exec (.ptpMessage p m) s = .next t ∧ ChangesOnly [.mport, .obs] s t ∧
        (∀ k, k ≠ p.val → mportAt t k = mportAt s k) ∧ (mportAt t p).linkUp = true ∧
        (2 ≤ p.val → t.mport = s.mport) ∧
        (p.val < 2 → ∀ a, m = .sync true a →
          (mportAt t p).offsetNs = (s.time : Int) - a - (mportAt s p).delayNs ∧ (mportAt t p).delayNs = (mportAt s p).delayNs) ∧
        (p.val < 2 → ∀ a b c d, m = .delayResp d → (mportAt s p).t1 = some a → (mportAt s p).t2 = some b →
          (mportAt s p).t3 = some c →
          (mportAt t p).delayNs = (((b : Int) - a) + ((d : Int) - c)) / 2 ∧
          (mportAt t p).offsetNs = (b : Int) - a - (mportAt t p).delayNs ∧ (mportAt t p).ptpLocked = true))

/-- SYS_RST_ASSERT, SYSCLK25_STOP and a rail sample with VAON outside its tolerance put the device into reset: every
domain, slot, cluster, engine, link and context is as after reset and the stacks are off, while host memory, the
flash, the fuses, the sarking store and the image selected for the next boot stay. BOOT, VAON_RECOVER and
SYSCLK25_RETURN of a device in reset that nothing else holds there boot it: with a valid image tried first, it has
that image and its configuration, waits in step 4 with the endpoint powered, and has asked for the repair list; with
no valid image it keeps nothing on, and asks for nothing. Where something else holds it, BOOT changes only the pin
(and what the next training meets). RESET answers first and then boots from step 1. (R352, R353, R356, R370, R371,
R413, Table 19.5) -/
def Obligations.ResetsAndBoots : Prop :=
  ∀ (s : State) (u : List Channel),
    (∀ i tol, i = .sysRstAssert ∨ i = .sysclk25Stop ∨ (i = .railSample tol ∧ tol.getD 0 true = false) →
      ∃ t, exec i s = .next t ∧ t.boot.inReset = true ∧ t.dom = State.reset.dom ∧ t.seq = State.reset.seq ∧
        t.cl = State.reset.cl ∧ t.eng = State.reset.eng ∧ t.link = State.reset.link ∧ t.cod = State.reset.cod ∧
        t.flow = State.reset.flow ∧ t.xlt = State.reset.xlt ∧ t.ev = State.reset.ev ∧ t.mem.on = false ∧ t.mem.stack = [] ∧
        t.st.host = s.st.host ∧ t.snp.store = s.snp.store ∧ t.boot.flash = s.boot.flash ∧ t.boot.fuses = s.boot.fuses ∧
        t.boot.prefer = s.boot.prefer ∧ t.out = s.out ∧
        t.boot.rstPin = (s.boot.rstPin || i == .sysRstAssert) ∧ t.pwr.sysclk = (s.pwr.sysclk && i != .sysclk25Stop) ∧
        t.pwr.vaonOk = (s.pwr.vaonOk && i != .railSample tol)) ∧
    (s.boot.inReset = true → ∀ i,
      (i = .boot u ∧ s.pwr.vaonOk = true ∧ s.pwr.sysclk = true) ∨
        (i = .vaonRecover ∧ s.boot.rstPin = false ∧ s.pwr.vaonOk = false ∧ s.pwr.sysclk = true) ∨
        (i = .sysclk25Return ∧ s.boot.rstPin = false ∧ s.pwr.vaonOk = true ∧ s.pwr.sysclk = false) →
      ∃ t, exec i s = .next t ∧ t.boot.inReset = false ∧ t.boot.flash = s.boot.flash ∧ t.boot.fuses = s.boot.fuses ∧
        (∀ c, validImage s.boot (firstImage s.boot) = some c →
          t.boot.image = firstImage s.boot ∧ t.boot.cfg = c ∧ t.boot.step = 4 ∧ t.boot.noImage = s.boot.noImage ∧
          t.hif.epPowered = true ∧ t.out = .askRepairs :: s.out) ∧
        (validImage s.boot false = none → validImage s.boot true = none →
          t.boot.noImage = true ∧ t.hif.epPowered = false ∧ t.out = s.out)) ∧
    (s.boot.inReset = true → s.pwr.vaonOk = false ∨ s.pwr.sysclk = false → ∃ t, exec (.boot u) s = .next t ∧
      ChangesOnly [.boot, .mem] s t ∧ t.boot = { s.boot with rstPin := false } ∧
      t.mem = { s.mem with untrainable := u.map (·.val) }) ∧
    (s.boot.inReset = false → s.boot.rstPin = false → s.pwr.vaonOk = true → s.pwr.sysclk = true →
      ∀ inst c, validImage s.boot (firstImage s.boot) = some c →
        ∃ t, exec (.reset inst) s = .next t ∧ t.boot.inReset = false ∧ t.boot.step = 4 ∧ t.boot.cfg = c ∧
          t.boot.sealed = false ∧ t.cl = State.reset.cl ∧ t.seq = State.reset.seq ∧ t.st.host = s.st.host ∧
          t.out = .askRepairs :: .reply inst msDone [] :: s.out)

/-- While the device awaits the repair list: SET_REPAIRS of 1 to 32 entries that is not final is answered with status 0,
counts its entries and goes on waiting, and an entry for a lane with a free spare is listed with that spare; a final
one, or REPAIR_LIST_TIMEOUT, ends the wait: with no channel that fails its training the stacks are on with no byte
listed and the device is sealed at step 7; with one that fails, the device is in keep-alive mode. When the wait of the
cause is over, EXIT_ATTEMPT with the booted image valid, the rails within tolerance and every channel trained takes
the device out of keep-alive mode, sealed, with window 0; one in which a channel fails, or a rail, leaves it there
with one more attempt counted; before the wait is over it changes nothing. (R356, R357, R358, R379, R196) -/
def Obligations.TrainingSealsOrFails : Prop :=
  ∀ (s : State), Sound s →
    (awaitsRepairs s = true →
      (∀ inst es, es ≠ [] → es.length ≤ 32 → ∃ t u, exec (.setRepairs inst false es) s = .next t ∧
        t = reply inst msDone [] u ∧ ChangesOnly (eventParts ++ [.boot, .mem]) s u ∧ u.boot.step = 4 ∧
        u.boot.repairCount = s.boot.repairCount + es.length ∧
        ∀ v r sp, es = [v] → s.boot.repairCount < 16384 → repairEntry v = some r → spareFor s r = some sp →
          u.mem.bootRepairs = s.mem.bootRepairs ++ [{ r with spare := sp }]) ∧
      ∀ i inst es, (i = .setRepairs inst true es ∧ es ≠ [] ∧ es.length ≤ 32) ∨ i = .repairListTimeout →
        ∃ t, exec i s = .next t ∧
          (s.mem.untrainable = [] → t.boot.sealed = true ∧ t.boot.step = 7 ∧ t.mem.on = true ∧ t.mem.stack = [] ∧
            t.pwr.keepalive = false) ∧
          (s.mem.untrainable ≠ [] → t.pwr.keepalive = true ∧ t.boot.sealed = s.boot.sealed ∧ t.mem.on = false)) ∧
    (exitMay s = false → ∀ l rails, exec (.exitAttempt l rails) s = .next s) ∧
    (Sound s → exitMay s = true → (validImage s.boot s.boot.image).isSome = true →
      ((∀ r ∈ s.pwr.railBad, r < 3) → ∃ t, exec (.exitAttempt [] false) s = .next t ∧ t.pwr.keepalive = false ∧
        t.boot.sealed = true ∧ t.boot.win = 0 ∧ ∀ k, (ctxAt t k).desc = none) ∧
      (∀ l, ∃ t, exec (.exitAttempt l true) s = .next t ∧ t.pwr.keepalive = true ∧ t.pwr.attempts = s.pwr.attempts + 1 ∧
        t.pwr.causeNum = 11 ∧ t.pwr.causeMem = false ∧ t.mem = s.mem) ∧
      ∀ l, l ≠ [] → (∀ r ∈ s.pwr.railBad, r < 3) → ∃ t, exec (.exitAttempt l false) s = .next t ∧
        t.pwr.keepalive = true ∧ t.pwr.attempts = s.pwr.attempts + 1 ∧ t.pwr.causeNum = 23 ∧ t.pwr.causeMem = true)

/-- Out of reset, GET_STATUS, READ_COUNTERS, READ_REG, GET_REPAIRS and FLASH_READ each send one response and change
nothing else: GET_STATUS the three registers; READ_COUNTERS of 1 to 32 counters their values and 0 above index 4,095;
READ_REG of an aligned offset in BAR0 the register; FLASH_READ of 1 to 256 bytes the bytes; GET_REPAIRS after step 5
up to 32 repairs; and what is out of range status 3, GET_REPAIRS before step 6 status 2. TEST_PORT_CLOCK changes only
the test port (and the outputs): with JTRST_N low the controller is reset, else it follows TMS; the data register
captures the identification code under IDCODE and one 0 under BYPASS, and the bit that shifts out is the lowest.
(R365, R366, R367, R382) -/
def Obligations.ReadsOnlyReport : Prop :=
  ∀ (s : State) (inst : Byte), s.boot.inReset = false →
    exec (.getStatus inst) s = .next (emit s (.reply inst msDone
      (leBytes 8 (regBotStatus s) ++ leBytes 8 (regSelf s.self) ++ leBytes 1 s.pwr.keepalive.toNat))) ∧
    (∀ (first : BitVec 16) (count : Byte),
      (1 ≤ count.toNat → count.toNat ≤ 32 → ∃ data, exec (.readCounters inst first count) s =
          .next (emit s (.reply inst msDone data)) ∧ data.length = 8 * count.toNat ∧
        ∀ k, k < count.toNat → (data.drop (8 * k)).take 8 =
          leBytes 8 (if first.toNat + k < 4096 then ctrGet s (first.toNat + k) else 0)) ∧
      (count.toNat = 0 ∨ 32 < count.toNat →
        exec (.readCounters inst first count) s = .next (emit s (.reply inst msInvalid [])))) ∧
    (∀ (offs : BitVec 32),
      (offs.toNat % 8 = 0 → offs.toNat < 0x1000000 → exec (.readReg inst offs) s =
        .next (emit s (.reply inst msDone (leBytes 8 (readReg s offs.toNat))))) ∧
      (offs.toNat % 8 ≠ 0 ∨ 0x1000000 ≤ offs.toNat →
        exec (.readReg inst offs) s = .next (emit s (.reply inst msInvalid [])))) ∧
    (∀ (first : BitVec 16),
      (s.boot.noImage = true ∨ s.boot.step < 6 →
        exec (.getRepairs inst first) s = .next (emit s (.reply inst msRefused []))) ∧
      (s.boot.noImage = false → 6 ≤ s.boot.step → exec (.getRepairs inst first) s = .next (emit s
        (.reply inst msDone ((((repairsMade s).drop first.toNat).take 32).flatMap fun r => leBytes 8 (repairWord r)))))) ∧
    (∀ (offs : BitVec 32) (n : BitVec 16),
      (1 ≤ n.toNat → n.toNat ≤ 256 → exec (.flashRead inst offs n) s =
        .next (emit s (.reply inst msDone (memRdN erasedByte s.boot.flash offs.toNat n.toNat)))) ∧
      (n.toNat = 0 ∨ 256 < n.toNat →
        exec (.flashRead inst offs n) s = .next (emit s (.reply inst msInvalid [])))) ∧
    ∀ (tms tdi : Bool) (pins : List Bool),
      (∃ t, exec (.testPortClock tms tdi false pins) s = .next t ∧ ChangesOnly [.jtag, .out, .free] s t ∧
        t.jtag.state = .testLogicReset ∧ t.jtag.ir = 0b0010) ∧
      ∃ t, exec (.testPortClock tms tdi true pins) s = .next t ∧ ChangesOnly [.jtag, .out, .free] s t ∧
        t.jtag.state = tapNext s.jtag.state tms ∧
        (s.jtag.state = .captureDr → s.jtag.ir = 0b0010 →
          t.jtag.drSh = (List.range 32).map fun i => (0x120324DF : BitVec 32).getLsbD i) ∧
        (s.jtag.state = .captureDr → s.jtag.ir = 0b1111 → t.jtag.drSh = [false]) ∧
        (s.jtag.state = .shiftDr → ∀ b rest, s.jtag.drSh = b :: rest →
          t.jtag.drSh = rest ++ [tdi] ∧ t.out = .tdo b :: s.out) ∧
        (s.jtag.state = .shiftIr → t.out = .tdo (s.jtag.irSh.getLsbD 0) :: s.out)

/-- Out of reset: the addresses are taken as assigned; SET_COORD of the held values is answered 1 and changes nothing, of
others with a slice record latched is refused with LNK.022, and otherwise takes them and trains every port;
COORD_WAIT_TIMEOUT raises LNK.021 once; SELECT_IMAGE sets the image tried first; FLASH_ERASE of a 64 KiB sector that
may be touched leaves it erased, FLASH_WRITE of 1 to 256 bytes clears bits there (log entry 80), both leave every
other byte, and a range of the booted image or beyond the flash is refused with BOT.040 and leaves all bytes;
SET_SVN_MIN raises the minimum up to the booted SVN and is refused above it; REVOKE_KEY of a slot other than the
booted one leaves it revoked. (R269, R365, R366) -/
def Obligations.ManagementWritesTakeEffect : Prop :=
  ∀ (s : State) (inst : Byte), Sound s → s.boot.inReset = false →
    (∀ a, (∃ t, exec (.dynamicAddressAssign false a) s = .next t ∧ ChangesOnly [.hif] s t ∧
        t.hif = { s.hif with dynAddr := some a }) ∧
      (s.boot.cfg.i3cAddr ≠ 0 → ∃ t, exec (.dynamicAddressAssign true a) s = .next t ∧ ChangesOnly [.hif] s t ∧
        t.hif = { s.hif with dynAddr := some a }) ∧
      (s.boot.cfg.i3cAddr = 0 → exec (.dynamicAddressAssign true a) s = .next s)) ∧
    (∀ eid, ∃ t, exec (.endpointIdAssign eid) s = .next t ∧ ChangesOnly [.hif] s t ∧ t.hif = { s.hif with eid := some eid }) ∧
    (∀ coord dims,
      (s.self.coordValid = true → s.self.coord = coord → s.self.dims = dims →
        exec (.setCoord inst coord dims) s = .next (reply inst msUnchanged [] s)) ∧
      (s.self.coordValid = true → ¬(s.self.coord = coord ∧ s.self.dims = dims) → s.self.slice.isSome = true →
        exec (.setCoord inst coord dims) s = .next (reply inst msRefused [] (raise s bLNK 22 locDevice noSeq 0))) ∧
      (s.self.coordValid = false ∨ (¬(s.self.coord = coord ∧ s.self.dims = dims) ∧ s.self.slice = none) →
        ∃ t u, exec (.setCoord inst coord dims) s = .next t ∧ t = reply inst msDone [] u ∧
          u.self.coord = coord ∧ u.self.dims = dims ∧ u.self.coordValid = true ∧ (∀ k, (linkAt u k).active = false) ∧
          ChangesOnly (eventParts ++ [.self, .link, .port, .out]) s u)) ∧
    ((s.boot.noImage = false → 4 ≤ s.boot.step → s.self.coordValid = false → s.self.waitOver = false →
        param s 0x040 * second ≤ s.time → ∃ t u, exec .coordWaitTimeout s = .next t ∧ t = raise u bLNK 21 locDevice noSeq 0 ∧
          ChangesOnly [.self] s u ∧ u.self = { s.self with waitOver := true }) ∧
      (s.self.coordValid = true ∨ s.self.waitOver = true ∨ s.time < param s 0x040 * second →
        exec .coordWaitTimeout s = .next s)) ∧
    (∀ b : Byte, (b.toNat ≤ 1 → ∃ u, exec (.selectImage inst b) s = .next (reply inst msDone [] u) ∧
        ChangesOnly [.boot] s u ∧ u.boot = { s.boot with prefer := some (b == 1) }) ∧
      (1 < b.toNat → exec (.selectImage inst b) s = .next (reply inst msInvalid [] s))) ∧
    (∀ offs : BitVec 32, offs.toNat % 65536 = 0 →
      (flashRefused s offs.toNat 65536 = false → ∃ t u, exec (.flashErase inst offs) s = .next t ∧ t = reply inst msDone [] u ∧
        ChangesOnly [.boot] s u ∧ u.boot = { s.boot with flash := u.boot.flash } ∧
        (∀ a, offs.toNat ≤ a → a < offs.toNat + 65536 → memRd erasedByte u.boot.flash a = 0xFF) ∧
        ∀ a, a < offs.toNat ∨ offs.toNat + 65536 ≤ a → memRd erasedByte u.boot.flash a = memRd erasedByte s.boot.flash a) ∧
      (flashRefused s offs.toNat 65536 = true → ∃ t, exec (.flashErase inst offs) s = .next t ∧ t.boot = s.boot)) ∧
    (∀ (offs : BitVec 32) (bs : List Byte), bs ≠ [] → bs.length ≤ 256 →
      (flashRefused s offs.toNat bs.length = false → ∃ t u, exec (.flashWrite inst offs bs) s = .next t ∧
        t = reply inst msDone [] u ∧ ChangesOnly [.boot] s u ∧ u.boot = { s.boot with flash := u.boot.flash } ∧
        (∀ k b, bs[k]? = some b → memRd erasedByte u.boot.flash (offs.toNat + k) =
          memRd erasedByte s.boot.flash (offs.toNat + k) &&& b) ∧
        ∀ a, a < offs.toNat ∨ offs.toNat + bs.length ≤ a →
          memRd erasedByte u.boot.flash a = memRd erasedByte s.boot.flash a) ∧
      (flashRefused s offs.toNat bs.length = true → ∃ t, exec (.flashWrite inst offs bs) s = .next t ∧ t.boot = s.boot)) ∧
    (∀ v : Byte, (s.boot.svn < v.toNat → exec (.setSvnMin inst v) s = .next (reply inst msRefused [] s)) ∧
      (v.toNat ≤ s.boot.svn → s.boot.svnMin < v.toNat → ∃ u, exec (.setSvnMin inst v) s = .next (reply inst msDone [] u) ∧
        ChangesOnly [.boot, .fuses] s u ∧ u.boot = { s.boot with svnMin := v.toNat }) ∧
      (v.toNat ≤ s.boot.svn → v.toNat ≤ s.boot.svnMin →
        exec (.setSvnMin inst v) s = .next (reply inst msUnchanged [] s))) ∧
    ∀ k : Byte, k.toNat < 4 → imageIn s = false ∨ s.boot.keySlot ≠ k.toNat →
      ∃ t, exec (.revokeKey inst k) s = .next t ∧ ChangesOnly [.boot, .fuses, .out] s t ∧ k.toNat ∈ t.boot.revoked ∧
        (∀ j, j ∈ t.boot.revoked ↔ j ∈ s.boot.revoked ∨ j = k.toNat) ∧ t.boot.svnMin = s.boot.svnMin

/-- With the link up after boot: BOT_WIN below 20 sets the window and above is ignored; REGISTER_WRITE of a register with
a command of its own acts as that command does; of a write-1-to-clear register it clears exactly the bits written as
1; one that is not 8 bytes long and aligned, or that comes with the link down or before the seal, changes nothing.
BAR2_ACCESS with the endpoint up reads or writes stack address 64 GiB x WIN + offset, and past the window's end or
with the stacks off answers an Unsupported Request. ENDPOINT_RESET of a powered endpoint takes the link down and the
window to 0, with BOT.020 after the seal, and ENDPOINT_LINK_UP brings it back; STORAGE_LINK_LOSS raises BOT.030 and
ends a drain with SNP.012, STORAGE_LINK_UP identifies the store, with WARD_SNAP as the greatest step of its complete
snapshots, or raises SNP.003; PE_REFCLK_STOP does what both losses do. (R358, R359, R360, R361, R363, R364, R399,
R413, Table 19.5) -/
def Obligations.HostAccessTakesEffect : Prop :=
  ∀ (s : State), Sound s →
    (hostMay s = true →
      (∀ v : Word64,
        (bits v.toNat 4 0 < 20 → ∃ t, exec (.botWin v) s = .next t ∧ ChangesOnly [.boot] s t ∧
          t.boot = { s.boot with win := bits v.toNat 4 0 }) ∧
        (20 ≤ bits v.toNat 4 0 → exec (.botWin v) s = .next s)) ∧
      (∀ (v : Word64) (offs : BitVec 24) (i : Instr), (offs, i) ∈ [(0x8#24, Instr.botWin v), (0x30008#24, .xltInval v),
          (0x60000#24, .codKeyreq v), (0x90000#24, .evtRing v), (0x90008#24, .evtCons v), (0x108000#24, .obsFilter v),
          (0x108008#24, .obsRing v), (0x108010#24, .obsCons v)] ∨
          (∃ n : Engine, offs = BitVec.ofNat 24 (0x40000 + 0x40 * n) ∧ i = .dmaEngDb n v) ∨
          (offs = 0x30000#24 ∧ v.toNat / 2 ^ 32 % 4 = 0 ∧ i = .xltResolveRetry (v.setWidth 32)) ∨
          (offs = 0x30000#24 ∧ v.toNat / 2 ^ 32 % 4 = 1 ∧ i = .xltResolveAbort (v.setWidth 32)) →
        exec (.registerWrite ⟨offs, 8⟩ v) s = exec i s) ∧
      ∀ v : Word64,
        (∃ t, exec (.registerWrite ⟨0x80008#24, 8⟩ v) s = .next t ∧ ChangesOnly [.pwr] s t ∧
          t.pwr = { s.pwr with events := s.pwr.events &&& ~~~(v.setWidth 4) }) ∧
        (∃ t, exec (.registerWrite ⟨0x90020#24, 8⟩ v) s = .next t ∧ ChangesOnly [.ev] s t ∧
          t.ev = { s.ev with seen := s.ev.seen &&& ~~~(v.setWidth 4) }) ∧
        ∀ d : Dom, ∃ t, exec (.registerWrite ⟨BitVec.ofNat 24 (0x10008 + 0x40 * d), 8⟩ v) s = .next t ∧
          ChangesOnly [.dom] s t ∧
          domAt t d = { domAt s d with events := (domAt s d).events &&& ~~~(v.setWidth _) } ∧
          ∀ e, e ≠ d.val → domAt t e = domAt s e) ∧
    (∀ (offs : BitVec 24) (n : Nat) (v : Word64), hostMay s = false ∨ n ≠ 8 ∨ offs.toNat % 8 ≠ 0 →
      exec (.registerWrite ⟨offs, n⟩ v) s = .next s) ∧
    (s.hif.epUp = true → ∀ (offs : BitVec 36) (n : Nat) (data : List Byte),
      (∀ w, s.mem.on = false ∨ 2 ^ 36 < offs.toNat + n →
        exec (.bar2Access w offs n data) s = .next (emit s (.completion false false []))) ∧
      (s.mem.on = true → offs.toNat + n ≤ 2 ^ 36 →
        exec (.bar2Access true offs n data) s = .next (writePA s (2 ^ 36 * s.boot.win + offs.toNat) data) ∧
        ∃ t r, exec (.bar2Access false offs n data) s = .next t ∧ r = readPA s (2 ^ 36 * s.boot.win + offs.toNat) n ∧
          t = emit r.2 (.completion true r.1.poison r.1.bytes) ∧
          ChangesOnly (eventParts ++ [.mem, .stackBytes, .out]) s t)) ∧
    (s.hif.epPowered = true →
      (∀ k, ∃ u, ChangesOnly [.boot, .hif, .ev] s u ∧ u.hif = { s.hif with epUp := false } ∧
        u.boot = { s.boot with win := 0 } ∧
        (s.boot.sealed = true → exec (.endpointReset k) s = .next (raise u bBOT 20 locDevice noSeq 0)) ∧
        (s.boot.sealed = false → exec (.endpointReset k) s = .next u)) ∧
      (s.hif.epUp = false → ∃ t, exec .endpointLinkUp s = .next t ∧ ChangesOnly [.hif, .ev] s t ∧
        t.hif = { s.hif with epUp := true } ∧ (s.ev.ringOn = true → ∀ r ∈ t.ev.buf, r.tookHost = true))) ∧
    (s.hif.stUp = true → ∀ u, u = raise (modHif s fun h => { h with stUp := false }) bBOT 30 locDevice noSeq 0 →
      u.hif.stUp = false ∧ (s.snp.wardDrain = none → exec .storageLinkLoss s = .next u) ∧
      (s.snp.wardDrain.isSome = true → exec .storageLinkLoss s = .next (drainFail u) ∧ (drainFail u).snp.wardDrain = none)) ∧
    (s.hif.stPowered = true → s.hif.stUp = false → ∀ nsze,
      (∃ u, exec (.storageLinkUp true nsze) s = .next (snpSync u) ∧ ChangesOnly [.hif, .snp] s u ∧
        u.hif = { s.hif with stUp := true, stKnown := true } ∧
        u.snp = { s.snp with storeOk := true, nsze := nsze, wardSnap := u.snp.wardSnap } ∧
        (fld (sarkAt s 0 0 32) 0 4 ≠ 0x534B5254 → u.snp.wardSnap = 0) ∧
        (fld (sarkAt s 0 0 32) 0 4 = 0x534B5254 → ∀ k, fld (sarkAt u (footerBlock u k) 0 32) 8 2 ≠ 0 →
          fld (sarkAt u (footerBlock u k) 0 32) 0 8 ≤ u.snp.wardSnap)) ∧
      ∃ t u, exec (.storageLinkUp false nsze) s = .next t ∧ t = raise u bSNP 3 locDevice noSeq 0 ∧ u.hif.stUp = true ∧
        u.snp = { s.snp with storeOk := false } ∧ ChangesOnly [.hif, .snp] s u) ∧
    ∃ t u, exec .peRefclkStop s = .next t ∧ exec (.endpointReset .perst) s = .next u ∧ exec .storageLinkLoss u = .next t

/-- Out of reset with an image: RAIL_SAMPLE counts the samples in a row of each rail outside tolerance (but VAON's, which
resets the device), and at the third of one, outside keep-alive mode, PWR.011 brings keep-alive mode; DIE_TEMP_SAMPLE
with every reading below 110 °C takes each quadrant through its rows (one row down at a time, log entry 54) and sets
its clock to the lower of its two caps, and with one at 110 °C or more PWR.010 brings keep-alive mode and no clock
runs; POWER_SAMPLE keeps the last ten samples, lowers the cap by 0.1 GHz where their mean is above 3,000 W, leaves it
between the limits, raises it at every tenth sample in a row below 2,850 W, and with the mean above 3,000 W at the
lowest cap for 1 s PWR.014 brings keep-alive mode. (R371, R374, R375, R376, Table 20.4) -/
def Obligations.PowerAndThermalSamples : Prop :=
  ∀ (s : State), Sound s → awake s = true →
    (∀ tol : List Bool, tol.getD 0 true = true →
      ((∀ n ∈ railCounts s.pwr.railBad tol, n < 3) ∨ s.pwr.keepalive = true → ∃ t, exec (.railSample tol) s = .next t ∧
        ChangesOnly [.pwr] s t ∧ t.pwr.railBad = railCounts s.pwr.railBad tol ∧ t.pwr.keepalive = s.pwr.keepalive) ∧
      ∀ (r : Fin 32) (n : Nat), r.val ≠ 0 → tol.getD r true = false → s.pwr.railBad[r.val]? = some n → 2 ≤ n →
        s.pwr.keepalive = false → ∃ t, exec (.railSample tol) s = .next t ∧ t.pwr.keepalive = true ∧ t.pwr.causeNum = 11 ∧
          t.pwr.causeMem = false) ∧
    (∀ (cd bd : List Int) (iod : Int),
      ((∀ n, n < 4 → max (cd.getD n 0) (bd.getD n 0) < 110) → iod < 110 → ∃ t, exec (.dieTempSample cd bd iod) s = .next t ∧
        t.pwr.keepalive = s.pwr.keepalive ∧ t.pwr.tjIod = iod ∧ ∀ n, n < 4 → ∀ q,
          q = (quadStep s.time (unit s.pwr.quads n QuadSt.reset) (cd.getD n 0) (bd.getD n 0)).1 →
          unit t.pwr.quads n QuadSt.reset = { q with
            clock := if stacksPowered s then min (thermCap q.row) s.pwr.cap else 0 }) ∧
      ((∃ n, n < 4 ∧ 110 ≤ max (cd.getD n 0) (bd.getD n 0)) ∨ 110 ≤ iod → s.pwr.keepalive = false →
        ∃ t, exec (.dieTempSample cd bd iod) s = .next t ∧ t.pwr.keepalive = true ∧ t.pwr.causeNum = 10 ∧
          t.pwr.causeMem = false ∧ ∀ q ∈ t.pwr.quads, q.clock = 0)) ∧
    ∀ (w : Nat) (l : List Nat), l = (w :: s.pwr.samples).take 10 → ∃ t, exec (.powerSample w) s = .next t ∧ t.pwr.samples = l ∧
      (3000 * l.length < l.sum → t.pwr.cap = if 10 < s.pwr.cap then s.pwr.cap - 1 else s.pwr.cap) ∧
      (l.sum ≤ 3000 * l.length → 2850 * l.length ≤ l.sum → s.pwr.episode = false → t.pwr.cap = s.pwr.cap) ∧
      (l.sum < 2850 * l.length → t.pwr.lowRun = s.pwr.lowRun + 1 ∧
        t.pwr.cap = if (s.pwr.lowRun + 1) % 10 = 0 then min 20 (s.pwr.cap + 1) else s.pwr.cap) ∧
      (s.pwr.overSince = none → t.pwr.keepalive = s.pwr.keepalive) ∧
      ∀ t0, s.pwr.overSince = some t0 → t0 + second ≤ s.time → s.pwr.cap = 10 → s.pwr.keepalive = false →
        3000 * l.length < l.sum → t.pwr.keepalive = true ∧ t.pwr.causeNum = 14 ∧ t.pwr.causeMem = false

/-- Out of reset with an image, OPTICAL_TEMP_SAMPLE leaves a link whose engine reads 85 °C or more hot and out of its
port, a link whose engine is not hot and stays below as it was, and a hot one that has been below 80 °C for 1 s no
longer hot; a media port at its limit (95 °C for ports 0 and 1, 85 °C for 2 and 3) is hot and down. REFCLK156_L_STOP
with the links powered leaves none active; REFCLK156_M_STOP leaves every media port down and every domain that has
time from a PTP source in holdover, with its tick number. MEDIA_LINK_LOSS takes a port down, MEDIA_LINK_UP of a
powered port that is not hot brings it up; neither touches another port. (R377, R339, R413, R18) -/
def Obligations.OpticsReferencesAndMediaLinks : Prop :=
  ∀ (s : State), Sound s →
    (awake s = true → ∀ links media : List Int, ∃ t, exec (.opticalTempSample links media) s = .next t ∧
      t.pwr.keepalive = s.pwr.keepalive ∧
      (∀ (k : Link) (x : Int), links[k.val]? = some x →
        ((linkAt s k).hot = false → 85 ≤ x → (linkAt t k).hot = true ∧ (linkAt t k).active = false) ∧
        ((linkAt s k).hot = false → x < 85 → linkAt t k = linkAt s k) ∧
        (∀ t0, (linkAt s k).hot = true → x < 80 → s.pwr.linkCool[k.val]? = some (some t0) → t0 + second ≤ s.time →
          (linkAt t k).hot = false)) ∧
      ∀ (p : MPort) (x : Int), media[p.val]? = some x → (mportAt s p).hot = false →
        (if p.val < 2 then 95 else 85) ≤ x → (mportAt t p).hot = true ∧ (mportAt t p).linkUp = false) ∧
    (linksOn s = true → ∃ t, exec .refclk156LStop s = .next t ∧ (∀ k, (linkAt t k).active = false) ∧
      ChangesOnly (eventParts ++ [.link, .port, .out]) s t) ∧
    (linksOn s = false → exec .refclk156LStop s = .next s) ∧
    (∃ t, exec .refclk156MStop s = .next t ∧ (∀ p, (mportAt t p).linkUp = false) ∧
      ∀ d, (domAt t d).tickNo = (domAt s d).tickNo ∧
        ((domAt s d).running = true → (domAt s d).source = 1 → (domAt s d).hasTime = true → (domAt t d).holdover = true)) ∧
    ∀ p : MPort,
      (∃ t, exec (.mediaLinkLoss p) s = .next t ∧ (mportAt t p).linkUp = false ∧ (∀ k, k ≠ p.val → mportAt t k = mportAt s k) ∧
        ChangesOnly (eventParts ++ [.mport]) s t) ∧
      (((mportAt s p).powered = true ∧ (mportAt s p).hot = false) → ∃ t, exec (.mediaLinkUp p) s = .next t ∧
        ChangesOnly [.mport] s t ∧ mportAt t p = { mportAt s p with linkUp := true } ∧
        ∀ k, k ≠ p.val → mportAt t k = mportAt s k) ∧
      ((mportAt s p).powered = false ∨ (mportAt s p).hot = true → exec (.mediaLinkUp p) s = .next s)

/-- EVENT sends the oldest record that the enabled management destination has not taken, and marks it taken; with none due
or no destination it changes nothing. EVENT_RECORD_WRITE with a ring in force leaves no record due to the host; a
single record due, with room and the endpoint up, is written at its place in the ring and PROD passes it. EVT_RING
enables a ring of SIZE 12 to 24 while none is in force, with its positions at the next ESEQ, ignores any other enable,
and disables at once; EVT_CONS moves the consumer forward up to PROD and ignores any other position. (R394, R397,
R398, R400) -/
def Obligations.EventsLeaveTheBuffer : Prop :=
  ∀ (s : State),
    ((mgmtOn s = false ∨ s.ev.buf.find? (fun r => !r.tookMgmt) = none) → exec .event s = .next s) ∧
    (∀ r, mgmtOn s = true → s.ev.buf.find? (fun r => !r.tookMgmt) = some r → ∃ t, exec .event s = .next t ∧
      ChangesOnly [.ev, .out] s t ∧ t.out = .eventMsg r :: s.out ∧
      ∀ l, l = modFirst (fun r => !r.tookMgmt) (fun r => { r with tookMgmt := true }) s.ev.buf →
        t.ev = { s.ev with buf := evPurge true s.ev.ringOn l }) ∧
    (s.ev.ringOn = false → exec .eventRecordWrite s = .next s) ∧
    (s.ev.ringOn = true → ∃ t, exec .eventRecordWrite s = .next t ∧ ChangesOnly [.ev, .out, .st, .hostBytes] s t ∧
      (∀ r ∈ t.ev.buf, r.tookHost = true) ∧
      ∀ r, s.ev.buf.filter (fun r => !r.tookHost) = [r] → s.hif.epUp = true →
        (r.eseq + 1 - s.ev.cons).toNat ≤ ringEntries s.ev.ringSize →
        t.ev.prod = r.eseq + 1 ∧ t.st.host = memWrs zeroByte s.st.host
          (s.ev.ringBase.toNat + 32 * (r.eseq.toNat % ringEntries s.ev.ringSize)) (evBytes r)) ∧
    (hostMay s = true → ∀ v : Word64,
      (v.getLsbD 0 = false → ∃ t, exec (.evtRing v) s = .next t ∧ ChangesOnly [.ev] s t ∧ t.ev.ringOn = false ∧
        t.ev = { s.ev with ringOn := false, buf := evPurge (mgmtOn s) false s.ev.buf }) ∧
      (v.getLsbD 0 = true → s.ev.ringOn = false → 12 ≤ bits v.toNat 5 1 → bits v.toNat 5 1 ≤ 24 →
        ∃ t, exec (.evtRing v) s = .next t ∧ ChangesOnly [.ev] s t ∧ t.ev.ringOn = true ∧ t.ev.ringSize = bits v.toNat 5 1 ∧
          t.ev.ringBase.toNat = v.toNat / 4096 * 4096 ∧ t.ev.prod = s.ev.eseq ∧ t.ev.cons = s.ev.eseq ∧
          ∀ r ∈ t.ev.buf, r.tookHost = true) ∧
      (v.getLsbD 0 = true → s.ev.ringOn = true ∨ bits v.toNat 5 1 < 12 ∨ 24 < bits v.toNat 5 1 →
        exec (.evtRing v) s = .next s) ∧
      ((v.setWidth 32 - s.ev.cons).toNat ≤ (s.ev.prod - s.ev.cons).toNat → ∃ t, exec (.evtCons v) s = .next t ∧
        ChangesOnly [.ev] s t ∧ t.ev = { s.ev with cons := v.setWidth 32 }) ∧
      ((s.ev.prod - s.ev.cons).toNat < (v.setWidth 32 - s.ev.cons).toNat → exec (.evtCons v) s = .next s))

/-- With the link up after boot: OBS_FILTER takes the whole filter at once; ENABLE with a ring in force enables tracing
and powers the domain where it is off, without one it stays clear with OBS.001; ENABLE 0 disables. OBS_RING of SIZE 16
to 30 is accepted while tracing is disabled and its domain off, and otherwise raises OBS.001; OBS_CONS moves forward
up to PROD, and otherwise raises OBS.001. TRACE_DOMAIN_POWERED of a domain that powers turns it on with RSEQ at 0 (log
entry 81). TRACE_RECORD_WRITE writes the oldest record at its place with room and the endpoint up, and else drops it
and writes nothing; TRACE_WRITE_ERROR clears ENABLE with OBS.020. (R384, R385, R386, R389) -/
def Obligations.TraceRecordsLeaveTheRing : Prop :=
  ∀ (s : State),
    (hostMay s = true → ∀ v : Word64,
      (∃ t, exec (.obsFilter v) s = .next t ∧ ChangesOnly eventParts s t ∧ t.obs.kinds = v.extractLsb' 48 16 ∧
        t.obs.seqs = v.extractLsb' 16 32 ∧ t.obs.domains = v.extractLsb' 12 4 ∧
        t.obs.enable = (v.getLsbD 0 && s.obs.ringSize != 0) ∧
        (v.getLsbD 0 = true → s.obs.ringSize ≠ 0 → ChangesOnly [.obs] s t ∧ (s.obs.domain = .off → t.obs.domain = .powering)) ∧
        (v.getLsbD 0 = true → s.obs.ringSize = 0 → ∃ u, ChangesOnly [.obs] s u ∧ t = raise u bOBS 1 locDevice noSeq 0)) ∧
      (s.obs.enable = false → s.obs.domain = .off → 16 ≤ bits v.toNat 5 0 → bits v.toNat 5 0 ≤ 30 →
        ∃ t, exec (.obsRing v) s = .next t ∧ ChangesOnly [.obs] s t ∧
          t.obs = { s.obs with ringBase := BitVec.ofNat 64 (v.toNat / 4096 * 4096), ringSize := bits v.toNat 5 0 }) ∧
      (s.obs.enable = true ∨ s.obs.domain ≠ .off ∨ bits v.toNat 5 0 < 16 ∨ 30 < bits v.toNat 5 0 →
        exec (.obsRing v) s = .next (raise s bOBS 1 locDevice noSeq 0)) ∧
      ((v.setWidth 32 - s.obs.cons).toNat ≤ (s.obs.prod - s.obs.cons).toNat → ∃ t, exec (.obsCons v) s = .next t ∧
        ChangesOnly [.obs] s t ∧ t.obs = { s.obs with cons := v.setWidth 32, dropSaid := false }) ∧
      ((s.obs.prod - s.obs.cons).toNat < (v.setWidth 32 - s.obs.cons).toNat →
        exec (.obsCons v) s = .next (raise s bOBS 1 locDevice noSeq 0))) ∧
    (s.obs.domain = .powering → ∃ t, exec .traceDomainPowered s = .next t ∧ ChangesOnly [.obs] s t ∧
      t.obs.domain = (if s.obs.enable then .on else .off) ∧ t.obs.rseq = 0 ∧ t.obs.buf = s.obs.buf) ∧
    (s.obs.domain ≠ .powering → exec .traceDomainPowered s = .next s) ∧
    (s.obs.domain = .on ∨ s.obs.domain = .draining →
      (∀ r rest, s.obs.buf = r :: rest →
        (s.hif.epUp = true → (r.rseq + 1 - s.obs.cons).toNat ≤ ringEntries s.obs.ringSize →
          ∃ t, exec .traceRecordWrite s = .next t ∧ ChangesOnly [.obs, .st, .hostBytes] s t ∧ t.obs.buf = rest ∧
            t.obs.prod = r.rseq + 1 ∧ t.st.host = memWrs zeroByte s.st.host
              (s.obs.ringBase.toNat + 32 * (r.rseq.toNat % ringEntries s.obs.ringSize)) (traceBytes r)) ∧
        (s.hif.epUp = false ∨ ringEntries s.obs.ringSize < (r.rseq + 1 - s.obs.cons).toNat →
          ∃ t, exec .traceRecordWrite s = .next t ∧ ChangesOnly eventParts s t ∧ t.st = s.st ∧
            t = traceDrained (traceDrop (modObs s fun o => { o with buf := rest })))) ∧
      ∃ t u, exec .traceWriteError s = .next t ∧ ChangesOnly [.obs] s u ∧ u.obs.enable = false ∧
        t = raise u bOBS 20 locDevice noSeq 0) ∧
    (s.obs.domain = .off ∨ s.obs.domain = .powering ∨ s.obs.buf = [] → exec .traceRecordWrite s = .next s)
end

