-- ==== Sys2Proof/Laws/Memory.lean ====
section
/-! SUPPORT. The laws of the memories: every operation keeps the canonical form, a read after a write gives what was
written, and a write leaves every other byte alone. -/

namespace Sys2Proof.Machine

/-- The canonical form, said over all cells: addresses strictly rising, no cell equal to the unlisted value. -/
theorem memWf_iff (d : Byte) (m : Mem) :
    memWf d m = true ↔ m.Pairwise (fun a b => a.1 < b.1) ∧ ∀ c ∈ m, c.2 ≠ d := by
  match m with
  | [] => simp [memWf]
  | [c] => simp [memWf]
  | c :: c' :: m =>
    have ih := memWf_iff d (c' :: m)
    simp only [memWf, Bool.and_eq_true, bne_iff_ne, decide_eq_true_eq, ih, List.pairwise_cons, List.mem_cons]
    constructor
    · rintro ⟨⟨hd, hlt⟩, ⟨hc, hp⟩, hn⟩
      refine ⟨⟨?_, hc, hp⟩, ?_⟩
      · rintro b (rfl | hb)
        · exact hlt
        · exact Nat.lt_trans hlt (hc b hb)
      · rintro b (rfl | hb)
        · exact hd
        · exact hn b hb
    · rintro ⟨⟨hc, hc', hp⟩, hn⟩
      exact ⟨⟨hn c (.inl rfl), hc c' (.inl rfl)⟩, ⟨hc', hp⟩, fun b hb => hn b (.inr hb)⟩

/-- The cells of a written memory are the written one or old ones. -/
theorem mem_memWr {d : Byte} {m : Mem} {x : Nat} {b : Byte} {c : Nat × Byte} (h : c ∈ memWr d m x b) :
    c ∈ m ∨ (c = (x, b) ∧ b ≠ d) := by
  induction m with
  | nil => grind [memWr]
  | cons a m ih => grind [memWr]

/-- A write of one byte keeps the canonical form. -/
theorem memWr_wf {d : Byte} {m : Mem} (x : Nat) (b : Byte) (h : memWf d m = true) : memWf d (memWr d m x b) = true := by
  rw [memWf_iff] at h ⊢
  obtain ⟨hp, hn⟩ := h
  constructor
  · induction m with
    | nil => simp only [memWr]; split <;> simp
    | cons a m ih =>
      rw [List.pairwise_cons] at hp
      simp only [memWr]
      split
      · split
        · exact List.pairwise_cons.mpr hp
        · refine List.pairwise_cons.mpr ⟨?_, List.pairwise_cons.mpr hp⟩
          intro c hc
          rcases List.mem_cons.mp hc with rfl | hc
          · assumption
          · exact Nat.lt_trans ‹_› (hp.1 c hc)
      · split
        · split
          · exact hp.2
          · refine List.pairwise_cons.mpr ⟨?_, hp.2⟩
            intro c hc
            have := hp.1 c hc
            simp_all
        · refine List.pairwise_cons.mpr ⟨?_, ih hp.2 fun c hc => hn c (List.mem_cons_of_mem _ hc)⟩
          intro c hc
          rcases mem_memWr hc with hc | ⟨rfl, -⟩
          · exact hp.1 c hc
          · show a.1 < x
            omega
  · intro c hc
    rcases mem_memWr hc with hc | ⟨rfl, hb⟩
    · exact hn c hc
    · exact hb

/-- A write of a run of bytes keeps the canonical form. -/
theorem memWrs_wf {d : Byte} (bs : List Byte) {m : Mem} (a : Nat) (h : memWf d m = true) :
    memWf d (memWrs d m a bs) = true := by
  induction bs generalizing m a with
  | nil => exact h
  | cons b bs ih => exact ih (a + 1) (memWr_wf a b h)

/-- Writes of single bytes, one after the other, keep the canonical form. -/
theorem memFold_wf {α : Type} {d : Byte} (f : Mem → α → Mem) (hf : ∀ m x, memWf d m = true → memWf d (f m x) = true)
    (l : List α) {m : Mem} (h : memWf d m = true) : memWf d (l.foldl f m) = true := by
  induction l generalizing m with
  | nil => exact h
  | cons x l ih => exact ih (hf m x h)

/-- Leaving cells out keeps the canonical form. -/
theorem memFilter_wf {d : Byte} {m : Mem} (p : Nat × Byte → Bool) (h : memWf d m = true) :
    memWf d (m.filter p) = true := by
  rw [memWf_iff] at h ⊢
  exact ⟨h.1.filter p, fun c hc => h.2 c (List.mem_filter.mp hc).1⟩

/-- Clearing a range keeps the canonical form. -/
theorem memClear_wf {d : Byte} {m : Mem} (a n : Nat) (h : memWf d m = true) : memWf d (memClear m a n) = true :=
  memFilter_wf _ h

/-- An address below every cell reads as the unlisted value. -/
theorem memRd_below (d : Byte) (m : Mem) (x : Nat) (h : ∀ c ∈ m, x < c.1) : memRd d m x = d := by
  cases m with
  | nil => rfl
  | cons c m =>
    have := h c (by simp)
    simp only [memRd]
    rw [if_neg (by omega), if_pos this]

/-- What a write of one byte leaves at every address. -/
theorem memRd_memWr {d : Byte} {m : Mem} (x : Nat) (b : Byte) (y : Nat) (h : memWf d m = true) :
    memRd d (memWr d m x b) y = if y = x then b else memRd d m y := by
  rw [memWf_iff] at h
  obtain ⟨hp, -⟩ := h
  induction m with
  | nil => grind [memWr, memRd]
  | cons a m ih =>
    rw [List.pairwise_cons] at hp
    have ih' := ih hp.2
    have hb : ∀ z, z ≤ a.1 → memRd d m z = d := fun z hz =>
      memRd_below d m z fun c hc => Nat.lt_of_le_of_lt hz (hp.1 c hc)
    grind [memWr, memRd]

/-- A run of bytes written from an address leaves every address outside the run alone. -/
theorem memRd_memWrs_other {d : Byte} (bs : List Byte) {m : Mem} (a y : Nat) (h : memWf d m = true)
    (hy : y < a ∨ a + bs.length ≤ y) : memRd d (memWrs d m a bs) y = memRd d m y := by
  induction bs generalizing m a with
  | nil => rfl
  | cons b bs ih =>
    simp only [List.length_cons] at hy
    rw [memWrs, ih (a + 1) (memWr_wf a b h) (by omega), memRd_memWr a b y h, if_neg (by omega)]

/-- A run of bytes written from an address reads back. -/
theorem memRd_memWrs_same {d : Byte} (bs : List Byte) {m : Mem} (a i : Nat) (h : memWf d m = true) (hi : i < bs.length) :
    memRd d (memWrs d m a bs) (a + i) = bs[i] := by
  induction bs generalizing m a i with
  | nil => simp at hi
  | cons b bs ih =>
    rw [memWrs]
    cases i with
    | zero =>
      rw [memRd_memWrs_other bs (a + 1) (a + 0) (memWr_wf a b h) (.inl (by omega)), memRd_memWr _ _ _ h]
      simp
    | succ i =>
      have := ih (a + 1) i (memWr_wf a b h) (by simpa using hi)
      rw [show a + (i + 1) = a + 1 + i by omega, this]
      rfl

/-- Reading back a run as a whole. -/
theorem memRdN_memWrs {d : Byte} (bs : List Byte) {m : Mem} (a : Nat) (h : memWf d m = true) :
    memRdN d (memWrs d m a bs) a bs.length = bs := by
  apply List.ext_getElem
  · simp [memRdN]
  · intro i hi hi'
    simp only [memRdN, List.getElem_map, List.getElem_range]
    exact memRd_memWrs_same bs a i h hi'

/-- Clearing a range leaves the bytes outside it alone. -/
theorem memRd_memClear_other {d : Byte} {m : Mem} (a n y : Nat) (h : memWf d m = true) (hy : y < a ∨ a + n ≤ y) :
    memRd d (memClear m a n) y = memRd d m y := by
  rw [memWf_iff] at h
  obtain ⟨hp, -⟩ := h
  induction m with
  | nil => rfl
  | cons c m ih =>
    rw [List.pairwise_cons] at hp
    have ih' := ih hp.2
    simp only [memClear, List.filter_cons] at ih' ⊢
    split
    · simp only [memRd]; rw [ih']
    · next hc =>
      simp only [Bool.or_eq_true, decide_eq_true_eq, not_or, Nat.not_lt, Nat.not_le] at hc
      rw [ih']
      simp only [memRd]
      rw [if_neg (by omega)]
      split
      · exact memRd_below _ _ _ fun x hx => by have := hp.1 x hx; omega
      · rfl

/-- A cleared byte reads as the unlisted value. -/
theorem memRd_memClear_same {d : Byte} {m : Mem} (a n y : Nat) (hy : a ≤ y) (hy' : y < a + n) :
    memRd d (memClear m a n) y = d := by
  induction m with
  | nil => rfl
  | cons c m ih =>
    simp only [memClear, List.filter_cons] at ih ⊢
    split
    · next hc =>
      simp only [Bool.or_eq_true, decide_eq_true_eq] at hc
      simp only [memRd]
      rw [if_neg (by omega)]
      split
      · rfl
      · exact ih
    · exact ih

end Sys2Proof.Machine
end

