-- ==== Sys2Proof/Laws/Within.lean ====
section
/-! SUPPORT. What an operation may do to the state: `Within m s t` says that `t` comes from `s` by changes inside the parts
of the state that the mask `m` names, and that it keeps the sound form of the state. Every operation of the model has one
lemma that says this of it (the other files named after the Machine files). Bit i of a mask is the i-th field of State,
in the order of its declaration; bits 27 to 33 are the bytes of the stacks, of the cluster stores and of host
memory, where the domains stand, keep-alive mode, the fuses, and what the domains have latched. -/

namespace Sys2Proof.Machine

/-- `t` comes from `s` by changes inside the parts that `m` names; the queue is never changed, the fuses only grow, and
the numbers of units, the canonical form of the memories and the bound of the event buffer are kept. -/
structure Within (m : Nat) (s t : State) : Prop where
  pending : t.pending = s.pending
  units : unitsOk s → unitsOk t
  mems : memsOk s → memsOk t
  grow : FusesGrow s t
  events : eventsOk s → eventsOk t
  free : m.testBit 1 = true ∨ t.free = s.free
  nextNum : m.testBit 2 = true ∨ t.nextNum = s.nextNum
  out : m.testBit 3 = true ∨ t.out = s.out
  time : m.testBit 4 = true ∨ t.time = s.time
  dom : m.testBit 5 = true ∨ t.dom = s.dom
  seq : m.testBit 6 = true ∨ t.seq = s.seq
  cl : m.testBit 7 = true ∨ t.cl = s.cl
  mem : m.testBit 8 = true ∨ t.mem = s.mem
  st : m.testBit 9 = true ∨ t.st = s.st
  xlt : m.testBit 10 = true ∨ t.xlt = s.xlt
  eng : m.testBit 11 = true ∨ t.eng = s.eng
  wgt : m.testBit 12 = true ∨ t.wgt = s.wgt
  link : m.testBit 13 = true ∨ t.link = s.link
  port : m.testBit 14 = true ∨ t.port = s.port
  self : m.testBit 15 = true ∨ t.self = s.self
  col : m.testBit 16 = true ∨ t.col = s.col
  snp : m.testBit 17 = true ∨ t.snp = s.snp
  cod : m.testBit 18 = true ∨ t.cod = s.cod
  flow : m.testBit 19 = true ∨ t.flow = s.flow
  mport : m.testBit 20 = true ∨ t.mport = s.mport
  boot : m.testBit 21 = true ∨ t.boot = s.boot
  hif : m.testBit 22 = true ∨ t.hif = s.hif
  jtag : m.testBit 23 = true ∨ t.jtag = s.jtag
  pwr : m.testBit 24 = true ∨ t.pwr = s.pwr
  obs : m.testBit 25 = true ∨ t.obs = s.obs
  ev : m.testBit 26 = true ∨ t.ev = s.ev
  stackBytes : m.testBit 27 = true ∨ t.mem.stack = s.mem.stack
  storeBytes : m.testBit 28 = true ∨ t.st.cs = s.st.cs
  hostBytes : m.testBit 29 = true ∨ t.st.host = s.st.host
  phases : m.testBit 30 = true ∨ t.dom.map DomSt.face = s.dom.map DomSt.face
  keepalive : m.testBit 31 = true ∨ t.pwr.keepalive = s.pwr.keepalive
  fuses : m.testBit 32 = true ∨ t.boot.fuses = s.boot.fuses
  latches : m.testBit 33 = true ∨ t.dom.map DomSt.latched = s.dom.map DomSt.latched

theorem map_modify_same {α β : Type} (l : List α) (g : α → β) (f : α → α) {i : Nat} (h : ∀ x, g (f x) = g x) :
    (l.modify i f).map g = l.map g := by
  induction l generalizing i with
  | nil => simp
  | cons x l ih =>
    cases i with
    | zero => simp [h]
    | succ i => simp [ih]

theorem map_map_same {α β : Type} (l : List α) {g : α → β} (f : α → α) (h : ∀ x, g (f x) = g x) :
    (l.map f).map g = l.map g := by
  rw [List.map_map]; exact List.map_congr_left fun x _ => h x

/-- Two changes, one after the other. -/
theorem either_trans {α : Type} {p : Prop} {a b c : α} (h1 : p ∨ b = a) (h2 : p ∨ c = b) : p ∨ c = a := by
  rcases h1 with h | rfl
  · exact .inl h
  · exact h2

theorem Within.refl (m : Nat) (s : State) : Within m s s where
  pending := rfl
  units := id
  mems := id
  grow := ⟨Nat.le_refl _, rfl, fun _ h => h⟩
  events := id
  free := .inr rfl
  nextNum := .inr rfl
  out := .inr rfl
  time := .inr rfl
  dom := .inr rfl
  seq := .inr rfl
  cl := .inr rfl
  mem := .inr rfl
  st := .inr rfl
  xlt := .inr rfl
  eng := .inr rfl
  wgt := .inr rfl
  link := .inr rfl
  port := .inr rfl
  self := .inr rfl
  col := .inr rfl
  snp := .inr rfl
  cod := .inr rfl
  flow := .inr rfl
  mport := .inr rfl
  boot := .inr rfl
  hif := .inr rfl
  jtag := .inr rfl
  pwr := .inr rfl
  obs := .inr rfl
  ev := .inr rfl
  stackBytes := .inr rfl
  storeBytes := .inr rfl
  hostBytes := .inr rfl
  phases := .inr rfl
  keepalive := .inr rfl
  fuses := .inr rfl
  latches := .inr rfl

theorem Within.trans {m : Nat} {s t u : State} (h : Within m s t) (k : Within m t u) : Within m s u where
  pending := k.pending.trans h.pending
  units x := k.units (h.units x)
  mems x := k.mems (h.mems x)
  grow := ⟨Nat.le_trans h.grow.1 k.grow.1, k.grow.2.1.trans h.grow.2.1, fun x hx => k.grow.2.2 x (h.grow.2.2 x hx)⟩
  events x := k.events (h.events x)
  free := either_trans h.free k.free
  nextNum := either_trans h.nextNum k.nextNum
  out := either_trans h.out k.out
  time := either_trans h.time k.time
  dom := either_trans h.dom k.dom
  seq := either_trans h.seq k.seq
  cl := either_trans h.cl k.cl
  mem := either_trans h.mem k.mem
  st := either_trans h.st k.st
  xlt := either_trans h.xlt k.xlt
  eng := either_trans h.eng k.eng
  wgt := either_trans h.wgt k.wgt
  link := either_trans h.link k.link
  port := either_trans h.port k.port
  self := either_trans h.self k.self
  col := either_trans h.col k.col
  snp := either_trans h.snp k.snp
  cod := either_trans h.cod k.cod
  flow := either_trans h.flow k.flow
  mport := either_trans h.mport k.mport
  boot := either_trans h.boot k.boot
  hif := either_trans h.hif k.hif
  jtag := either_trans h.jtag k.jtag
  pwr := either_trans h.pwr k.pwr
  obs := either_trans h.obs k.obs
  ev := either_trans h.ev k.ev
  stackBytes := either_trans h.stackBytes k.stackBytes
  storeBytes := either_trans h.storeBytes k.storeBytes
  hostBytes := either_trans h.hostBytes k.hostBytes
  phases := either_trans h.phases k.phases
  keepalive := either_trans h.keepalive k.keepalive
  fuses := either_trans h.fuses k.fuses
  latches := either_trans h.latches k.latches

/-- A smaller mask says more. -/
theorem Within.mono {a b : Nat} {s t : State} (hm : a ||| b = b) (h : Within a s t) : Within b s t := by
  have bit : ∀ i p, (a.testBit i = true ∨ p) → (b.testBit i = true ∨ p) := by
    intro i p hp
    rcases hp with hp | hp
    · left; rw [← hm, Nat.testBit_or, hp]; rfl
    · exact .inr hp
  exact {
    pending := h.pending
    units := h.units
    mems := h.mems
    grow := h.grow
    events := h.events
    free := bit _ _ h.free
    nextNum := bit _ _ h.nextNum
    out := bit _ _ h.out
    time := bit _ _ h.time
    dom := bit _ _ h.dom
    seq := bit _ _ h.seq
    cl := bit _ _ h.cl
    mem := bit _ _ h.mem
    st := bit _ _ h.st
    xlt := bit _ _ h.xlt
    eng := bit _ _ h.eng
    wgt := bit _ _ h.wgt
    link := bit _ _ h.link
    port := bit _ _ h.port
    self := bit _ _ h.self
    col := bit _ _ h.col
    snp := bit _ _ h.snp
    cod := bit _ _ h.cod
    flow := bit _ _ h.flow
    mport := bit _ _ h.mport
    boot := bit _ _ h.boot
    hif := bit _ _ h.hif
    jtag := bit _ _ h.jtag
    pwr := bit _ _ h.pwr
    obs := bit _ _ h.obs
    ev := bit _ _ h.ev
    stackBytes := bit _ _ h.stackBytes
    storeBytes := bit _ _ h.storeBytes
    hostBytes := bit _ _ h.hostBytes
    phases := bit _ _ h.phases
    keepalive := bit _ _ h.keepalive
    fuses := bit _ _ h.fuses
    latches := bit _ _ h.latches }

/-- A mask inside a mask. -/
theorem maskSub {a b c : Nat} (h : a ||| b = b) (k : b ||| c = c) : a ||| c = c := by
  rw [← k, ← Nat.or_assoc, h]

/-- A bit of a mask inside a mask. -/
theorem maskBit {b c i : Nat} (h : b.testBit i = true) (k : b ||| c = c) : c.testBit i = true := by
  rw [← k, Nat.testBit_or, h]; rfl

/-- An operation that stays within `a`, run after others that stayed within `b`. -/
theorem Within.after {a b : Nat} {s t u : State} (hm : a ||| b = b) (h : Within b s t) (k : Within a t u) : Within b s u :=
  h.trans (k.mono hm)

/-- The second part of a pair that an operation answered. -/
theorem Within.ofSnd {α : Type} {m : Nat} {s u : State} {p : α × State} {a : α} (e : p = (a, u)) (h : Within m s p.2) :
    Within m s u := by subst e; exact h

/-- The first part of a pair that an operation answered. -/
theorem Within.ofFst {α : Type} {m : Nat} {s u : State} {p : State × α} {a : α} (e : p = (u, a)) (h : Within m s p.1) :
    Within m s u := by subst e; exact h

/-- A choice of two ways. -/
theorem Within.ite {m : Nat} {s t u : State} {c : Prop} [Decidable c] (h : Within m s t) (k : Within m s u) :
    Within m s (if c then t else u) := by split <;> assumption

theorem Within.iteSnd {α : Type} {m : Nat} {s : State} {t u : α × State} {c : Prop} [Decidable c] (h : Within m s t.2)
    (k : Within m s u.2) : Within m s (if c then t else u).2 := by split <;> assumption

theorem Within.iteFst {α : Type} {m : Nat} {s : State} {t u : State × α} {c : Prop} [Decidable c] (h : Within m s t.1)
    (k : Within m s u.1) : Within m s (if c then t else u).1 := by split <;> assumption

theorem Within.optElim {α : Type} {m : Nat} {s t : State} {o : Option α} {f : α → State} (h : Within m s t)
    (k : ∀ x, Within m s (f x)) : Within m s (o.elim t f) := by
  cases o
  · exact h
  · exact k _

/-- Operations run for each number of a list, whatever carries the state. -/
theorem Within.foldlBy {α β : Type} {m : Nat} (g : β → State) (f : β → α → β) (hf : ∀ p x, Within m (g p) (g (f p x)))
    (l : List α) {s : State} {p : β} (h : Within m s (g p)) : Within m s (g (l.foldl f p)) := by
  induction l generalizing p with
  | nil => exact h
  | cons x l ih => exact ih (h.trans (hf p x))

/-- Operations run for each number of a list. -/
theorem Within.foldl {α : Type} {m : Nat} (f : State → α → State) (hf : ∀ s x, Within m s (f s x)) (l : List α) {s t : State}
    (h : Within m s t) : Within m s (l.foldl f t) := by
  induction l generalizing t with
  | nil => exact h
  | cons x l ih => exact ih (h.trans (hf t x))

/-- The same where the fold carries a value before the state. -/
theorem Within.foldlSnd {α β : Type} {m : Nat} (f : β × State → α → β × State) (hf : ∀ p x, Within m p.2 (f p x).2)
    (l : List α) {s : State} {p : β × State} (h : Within m s p.2) : Within m s (l.foldl f p).2 := by
  induction l generalizing p with
  | nil => exact h
  | cons x l ih => exact ih (h.trans (hf p x))

/-- The same where the fold carries a value after the state. -/
theorem Within.foldlFst {α β : Type} {m : Nat} (f : State × β → α → State × β) (hf : ∀ p x, Within m p.1 (f p x).1)
    (l : List α) {s : State} {p : State × β} (h : Within m s p.1) : Within m s (l.foldl f p).1 := by
  induction l generalizing p with
  | nil => exact h
  | cons x l ih => exact ih (h.trans (hf p x))

/-- A number that stays, or becomes what it must be. -/
theorem len_keep {a b n : Nat} (h : b = a ∨ b = n) (k : a = n) : b = n := h.elim (fun e => e.trans k) id

/-- Written state: each field is the old one, or one that the mask names. -/
theorem Within.mk' {m : Nat} {s t : State}
    {pending : List Instr} {free : Nat} {nextNum : Nat} {out : List Out} {time : Nat} {dom : List DomSt} {seq : List SeqSlot} {cl : List ClusterSt} {mem : MemSt} {st : StoreSt} {xlt : XltSt} {eng : List EngSt} {wgt : List ModelSt} {link : List LinkSt} {port : List PortSt} {self : SelfSt} {col : ColSt} {snp : SnpSt} {cod : CodSt} {flow : List FlowSt} {mport : List MPortSt} {boot : BootSt} {hif : HostIf} {jtag : JtagSt} {pwr : PwrSt} {obs : ObsSt} {ev : EvSt}
    (hp : pending = t.pending) (h : Within m s t)
    (u_dom : dom.length = t.dom.length ∨ dom.length = 4)
    (u_seq : seq.length = t.seq.length ∨ seq.length = 32)
    (u_cl : cl.length = t.cl.length ∨ cl.length = 144)
    (u_eng : eng.length = t.eng.length ∨ eng.length = 64)
    (u_wgt : wgt.length = t.wgt.length ∨ wgt.length = 16)
    (u_link : link.length = t.link.length ∨ link.length = 32)
    (u_port : port.length = t.port.length ∨ port.length = 8)
    (u_flow : flow.length = t.flow.length ∨ flow.length = 48)
    (u_mport : mport.length = t.mport.length ∨ mport.length = 4)
    (u_stks : mem.stks.length = t.mem.stks.length ∨ mem.stks.length = 20)
    (u_ctxs : cod.ctxs.length = t.cod.ctxs.length ∨ cod.ctxs.length = 128)
    (u_quads : pwr.quads.length = t.pwr.quads.length ∨ pwr.quads.length = 4)
    (m_stack : memWf zeroByte t.mem.stack = true → memWf zeroByte mem.stack = true)
    (m_cs : memWf zeroByte t.st.cs = true → memWf zeroByte st.cs = true)
    (m_host : memWf zeroByte t.st.host = true → memWf zeroByte st.host = true)
    (m_flash : memWf erasedByte t.boot.flash = true → memWf erasedByte boot.flash = true)
    (m_store : memWf zeroByte t.snp.store = true → memWf zeroByte snp.store = true)
    (hf : t.boot.svnMin ≤ boot.svnMin ∧ boot.keyHashes = t.boot.keyHashes ∧ ∀ k ∈ t.boot.revoked, k ∈ boot.revoked)
    (he : t.ev.buf.length ≤ 4096 → ev.buf.length ≤ 4096)
    (h_free : m.testBit 1 = true ∨ free = t.free)
    (h_nextNum : m.testBit 2 = true ∨ nextNum = t.nextNum)
    (h_out : m.testBit 3 = true ∨ out = t.out)
    (h_time : m.testBit 4 = true ∨ time = t.time)
    (h_dom : m.testBit 5 = true ∨ dom = t.dom)
    (h_seq : m.testBit 6 = true ∨ seq = t.seq)
    (h_cl : m.testBit 7 = true ∨ cl = t.cl)
    (h_mem : m.testBit 8 = true ∨ mem = t.mem)
    (h_st : m.testBit 9 = true ∨ st = t.st)
    (h_xlt : m.testBit 10 = true ∨ xlt = t.xlt)
    (h_eng : m.testBit 11 = true ∨ eng = t.eng)
    (h_wgt : m.testBit 12 = true ∨ wgt = t.wgt)
    (h_link : m.testBit 13 = true ∨ link = t.link)
    (h_port : m.testBit 14 = true ∨ port = t.port)
    (h_self : m.testBit 15 = true ∨ self = t.self)
    (h_col : m.testBit 16 = true ∨ col = t.col)
    (h_snp : m.testBit 17 = true ∨ snp = t.snp)
    (h_cod : m.testBit 18 = true ∨ cod = t.cod)
    (h_flow : m.testBit 19 = true ∨ flow = t.flow)
    (h_mport : m.testBit 20 = true ∨ mport = t.mport)
    (h_boot : m.testBit 21 = true ∨ boot = t.boot)
    (h_hif : m.testBit 22 = true ∨ hif = t.hif)
    (h_jtag : m.testBit 23 = true ∨ jtag = t.jtag)
    (h_pwr : m.testBit 24 = true ∨ pwr = t.pwr)
    (h_obs : m.testBit 25 = true ∨ obs = t.obs)
    (h_ev : m.testBit 26 = true ∨ ev = t.ev)
    (h_stackBytes : m.testBit 27 = true ∨ mem.stack = t.mem.stack)
    (h_storeBytes : m.testBit 28 = true ∨ st.cs = t.st.cs)
    (h_hostBytes : m.testBit 29 = true ∨ st.host = t.st.host)
    (h_phases : m.testBit 30 = true ∨ dom.map DomSt.face = t.dom.map DomSt.face)
    (h_keepalive : m.testBit 31 = true ∨ pwr.keepalive = t.pwr.keepalive)
    (h_fuses : m.testBit 32 = true ∨ boot.fuses = t.boot.fuses)
    (h_latches : m.testBit 33 = true ∨ dom.map DomSt.latched = t.dom.map DomSt.latched) :
    Within m s { pending := pending, free := free, nextNum := nextNum, out := out, time := time, dom := dom, seq := seq, cl := cl, mem := mem, st := st, xlt := xlt, eng := eng, wgt := wgt, link := link, port := port, self := self, col := col, snp := snp, cod := cod, flow := flow, mport := mport, boot := boot, hif := hif, jtag := jtag, pwr := pwr, obs := obs, ev := ev } :=
  h.trans {
    pending := hp
    units := fun ⟨h1, h2, h3, h4, h5, h6, h7, h8, h9, h10, h11, h12⟩ =>
      ⟨len_keep u_dom h1, len_keep u_seq h2, len_keep u_cl h3, len_keep u_stks h4, len_keep u_eng h5, len_keep u_wgt h6,
        len_keep u_link h7, len_keep u_port h8, len_keep u_ctxs h9, len_keep u_flow h10, len_keep u_mport h11,
        len_keep u_quads h12⟩
    mems := fun ⟨h1, h2, h3, h4, h5⟩ => ⟨m_stack h1, m_cs h2, m_host h3, m_flash h4, m_store h5⟩
    grow := hf
    events := he
    free := h_free
    nextNum := h_nextNum
    out := h_out
    time := h_time
    dom := h_dom
    seq := h_seq
    cl := h_cl
    mem := h_mem
    st := h_st
    xlt := h_xlt
    eng := h_eng
    wgt := h_wgt
    link := h_link
    port := h_port
    self := h_self
    col := h_col
    snp := h_snp
    cod := h_cod
    flow := h_flow
    mport := h_mport
    boot := h_boot
    hif := h_hif
    jtag := h_jtag
    pwr := h_pwr
    obs := h_obs
    ev := h_ev
    stackBytes := h_stackBytes
    storeBytes := h_storeBytes
    hostBytes := h_hostBytes
    phases := h_phases
    keepalive := h_keepalive
    fuses := h_fuses
    latches := h_latches }


/-- The bit of a part in a mask. -/
def Part.bit : Part → Nat
  | .free => 1
  | .nextNum => 2
  | .out => 3
  | .time => 4
  | .dom => 5
  | .seq => 6
  | .cl => 7
  | .mem => 8
  | .st => 9
  | .xlt => 10
  | .eng => 11
  | .wgt => 12
  | .link => 13
  | .port => 14
  | .self => 15
  | .col => 16
  | .snp => 17
  | .cod => 18
  | .flow => 19
  | .mport => 20
  | .boot => 21
  | .hif => 22
  | .jtag => 23
  | .pwr => 24
  | .obs => 25
  | .ev => 26
  | .stackBytes => 27
  | .storeBytes => 28
  | .hostBytes => 29
  | .phases => 30
  | .keepalive => 31
  | .fuses => 32
  | .latches => 33

/-- What a mask says of the parts. -/
theorem Within.changesOnly {m : Nat} {s t : State} (h : Within m s t) (l : List Part)
    (hl : ∀ p : Part, m.testBit p.bit = true → p ∈ l) : ChangesOnly l s t := by
  intro p hp
  have hb : ¬ (m.testBit p.bit = true) := fun hb => hp (hl p hb)
  cases p
  · exact h.free.resolve_left hb
  · exact h.nextNum.resolve_left hb
  · exact h.out.resolve_left hb
  · exact h.time.resolve_left hb
  · exact h.dom.resolve_left hb
  · exact h.seq.resolve_left hb
  · exact h.cl.resolve_left hb
  · exact h.mem.resolve_left hb
  · exact h.st.resolve_left hb
  · exact h.xlt.resolve_left hb
  · exact h.eng.resolve_left hb
  · exact h.wgt.resolve_left hb
  · exact h.link.resolve_left hb
  · exact h.port.resolve_left hb
  · exact h.self.resolve_left hb
  · exact h.col.resolve_left hb
  · exact h.snp.resolve_left hb
  · exact h.cod.resolve_left hb
  · exact h.flow.resolve_left hb
  · exact h.mport.resolve_left hb
  · exact h.boot.resolve_left hb
  · exact h.hif.resolve_left hb
  · exact h.jtag.resolve_left hb
  · exact h.pwr.resolve_left hb
  · exact h.obs.resolve_left hb
  · exact h.ev.resolve_left hb
  · exact h.stackBytes.resolve_left hb
  · exact h.storeBytes.resolve_left hb
  · exact h.hostBytes.resolve_left hb
  · exact h.phases.resolve_left hb
  · exact h.keepalive.resolve_left hb
  · exact h.fuses.resolve_left hb
  · exact h.latches.resolve_left hb

theorem unit_face {α β : Type} (f : α → β) (l : List α) (d : Nat) (z : α) : f (unit l d z) = unit (l.map f) d (f z) := by
  unfold unit
  simp only [List.getD_eq_getElem?_getD, List.getElem?_map]
  cases l[d]? <;> rfl

/-- Where a domain stands is not touched. -/
theorem Within.face {m : Nat} {s t : State} (h : Within m s t) (d : Nat) (hb : m.testBit 30 = false) :
    (domAt t d).face = (domAt s d).face := by
  have e := h.phases.resolve_left (by simp [hb])
  unfold domAt
  rw [unit_face DomSt.face, unit_face DomSt.face, e]

/-- What a domain has latched is not touched. -/
theorem Within.latched {m : Nat} {s t : State} (h : Within m s t) (d : Nat) (hb : m.testBit 33 = false) :
    (domAt t d).latched = (domAt s d).latched := by
  have e := h.latches.resolve_left (by simp [hb])
  unfold domAt
  rw [unit_face DomSt.latched, unit_face DomSt.latched, e]

/-- The sound form is kept. -/
theorem Within.sound {m : Nat} {s t : State} (h : Within m s t) (k : Sound s) : Sound t :=
  ⟨h.units k.1, h.mems k.2.1, h.events k.2.2⟩

/-! One field written. -/

theorem Within.at_free {m : Nat} {s t : State} {v : Nat} (b : m.testBit 1 = true)
    (h : Within m s t) : Within m s { t with free := v } := by
  apply Within.mk' rfl h <;> first
    | with_reducible assumption
    | exact .inl b
    | exact .inr rfl
    | exact .inl rfl
    | exact id
    | exact ⟨Nat.le_refl _, rfl, fun _ h => h⟩

theorem Within.at_nextNum {m : Nat} {s t : State} {v : Nat} (b : m.testBit 2 = true)
    (h : Within m s t) : Within m s { t with nextNum := v } := by
  apply Within.mk' rfl h <;> first
    | with_reducible assumption
    | exact .inl b
    | exact .inr rfl
    | exact .inl rfl
    | exact id
    | exact ⟨Nat.le_refl _, rfl, fun _ h => h⟩

theorem Within.at_out {m : Nat} {s t : State} {v : List Out} (b : m.testBit 3 = true)
    (h : Within m s t) : Within m s { t with out := v } := by
  apply Within.mk' rfl h <;> first
    | with_reducible assumption
    | exact .inl b
    | exact .inr rfl
    | exact .inl rfl
    | exact id
    | exact ⟨Nat.le_refl _, rfl, fun _ h => h⟩

theorem Within.at_time {m : Nat} {s t : State} {v : Nat} (b : m.testBit 4 = true)
    (h : Within m s t) : Within m s { t with time := v } := by
  apply Within.mk' rfl h <;> first
    | with_reducible assumption
    | exact .inl b
    | exact .inr rfl
    | exact .inl rfl
    | exact id
    | exact ⟨Nat.le_refl _, rfl, fun _ h => h⟩

theorem Within.at_dom {m : Nat} {s t : State} {v : List DomSt} (b : m.testBit 5 = true) (k1 : v.length = t.dom.length ∨ v.length = 4) (k2 : m.testBit 30 = true ∨ v.map DomSt.face = t.dom.map DomSt.face) (k3 : m.testBit 33 = true ∨ v.map DomSt.latched = t.dom.map DomSt.latched)
    (h : Within m s t) : Within m s { t with dom := v } := by
  apply Within.mk' rfl h <;> first
    | with_reducible assumption
    | exact .inl b
    | exact .inr rfl
    | exact .inl rfl
    | exact id
    | exact ⟨Nat.le_refl _, rfl, fun _ h => h⟩

theorem Within.at_seq {m : Nat} {s t : State} {v : List SeqSlot} (b : m.testBit 6 = true) (k1 : v.length = t.seq.length ∨ v.length = 32)
    (h : Within m s t) : Within m s { t with seq := v } := by
  apply Within.mk' rfl h <;> first
    | with_reducible assumption
    | exact .inl b
    | exact .inr rfl
    | exact .inl rfl
    | exact id
    | exact ⟨Nat.le_refl _, rfl, fun _ h => h⟩

theorem Within.at_cl {m : Nat} {s t : State} {v : List ClusterSt} (b : m.testBit 7 = true) (k1 : v.length = t.cl.length ∨ v.length = 144)
    (h : Within m s t) : Within m s { t with cl := v } := by
  apply Within.mk' rfl h <;> first
    | with_reducible assumption
    | exact .inl b
    | exact .inr rfl
    | exact .inl rfl
    | exact id
    | exact ⟨Nat.le_refl _, rfl, fun _ h => h⟩

theorem Within.at_mem {m : Nat} {s t : State} {v : MemSt} (b : m.testBit 8 = true) (k1 : v.stks.length = t.mem.stks.length ∨ v.stks.length = 20) (k2 : memWf zeroByte t.mem.stack = true → memWf zeroByte v.stack = true) (k3 : m.testBit 27 = true ∨ v.stack = t.mem.stack)
    (h : Within m s t) : Within m s { t with mem := v } := by
  apply Within.mk' rfl h <;> first
    | with_reducible assumption
    | exact .inl b
    | exact .inr rfl
    | exact .inl rfl
    | exact id
    | exact ⟨Nat.le_refl _, rfl, fun _ h => h⟩

theorem Within.at_st {m : Nat} {s t : State} {v : StoreSt} (b : m.testBit 9 = true) (k1 : memWf zeroByte t.st.cs = true → memWf zeroByte v.cs = true) (k2 : memWf zeroByte t.st.host = true → memWf zeroByte v.host = true) (k3 : m.testBit 28 = true ∨ v.cs = t.st.cs) (k4 : m.testBit 29 = true ∨ v.host = t.st.host)
    (h : Within m s t) : Within m s { t with st := v } := by
  apply Within.mk' rfl h <;> first
    | with_reducible assumption
    | exact .inl b
    | exact .inr rfl
    | exact .inl rfl
    | exact id
    | exact ⟨Nat.le_refl _, rfl, fun _ h => h⟩

theorem Within.at_xlt {m : Nat} {s t : State} {v : XltSt} (b : m.testBit 10 = true)
    (h : Within m s t) : Within m s { t with xlt := v } := by
  apply Within.mk' rfl h <;> first
    | with_reducible assumption
    | exact .inl b
    | exact .inr rfl
    | exact .inl rfl
    | exact id
    | exact ⟨Nat.le_refl _, rfl, fun _ h => h⟩

theorem Within.at_eng {m : Nat} {s t : State} {v : List EngSt} (b : m.testBit 11 = true) (k1 : v.length = t.eng.length ∨ v.length = 64)
    (h : Within m s t) : Within m s { t with eng := v } := by
  apply Within.mk' rfl h <;> first
    | with_reducible assumption
    | exact .inl b
    | exact .inr rfl
    | exact .inl rfl
    | exact id
    | exact ⟨Nat.le_refl _, rfl, fun _ h => h⟩

theorem Within.at_wgt {m : Nat} {s t : State} {v : List ModelSt} (b : m.testBit 12 = true) (k1 : v.length = t.wgt.length ∨ v.length = 16)
    (h : Within m s t) : Within m s { t with wgt := v } := by
  apply Within.mk' rfl h <;> first
    | with_reducible assumption
    | exact .inl b
    | exact .inr rfl
    | exact .inl rfl
    | exact id
    | exact ⟨Nat.le_refl _, rfl, fun _ h => h⟩

theorem Within.at_link {m : Nat} {s t : State} {v : List LinkSt} (b : m.testBit 13 = true) (k1 : v.length = t.link.length ∨ v.length = 32)
    (h : Within m s t) : Within m s { t with link := v } := by
  apply Within.mk' rfl h <;> first
    | with_reducible assumption
    | exact .inl b
    | exact .inr rfl
    | exact .inl rfl
    | exact id
    | exact ⟨Nat.le_refl _, rfl, fun _ h => h⟩

theorem Within.at_port {m : Nat} {s t : State} {v : List PortSt} (b : m.testBit 14 = true) (k1 : v.length = t.port.length ∨ v.length = 8)
    (h : Within m s t) : Within m s { t with port := v } := by
  apply Within.mk' rfl h <;> first
    | with_reducible assumption
    | exact .inl b
    | exact .inr rfl
    | exact .inl rfl
    | exact id
    | exact ⟨Nat.le_refl _, rfl, fun _ h => h⟩

theorem Within.at_self {m : Nat} {s t : State} {v : SelfSt} (b : m.testBit 15 = true)
    (h : Within m s t) : Within m s { t with self := v } := by
  apply Within.mk' rfl h <;> first
    | with_reducible assumption
    | exact .inl b
    | exact .inr rfl
    | exact .inl rfl
    | exact id
    | exact ⟨Nat.le_refl _, rfl, fun _ h => h⟩

theorem Within.at_col {m : Nat} {s t : State} {v : ColSt} (b : m.testBit 16 = true)
    (h : Within m s t) : Within m s { t with col := v } := by
  apply Within.mk' rfl h <;> first
    | with_reducible assumption
    | exact .inl b
    | exact .inr rfl
    | exact .inl rfl
    | exact id
    | exact ⟨Nat.le_refl _, rfl, fun _ h => h⟩

theorem Within.at_snp {m : Nat} {s t : State} {v : SnpSt} (b : m.testBit 17 = true) (k1 : memWf zeroByte t.snp.store = true → memWf zeroByte v.store = true)
    (h : Within m s t) : Within m s { t with snp := v } := by
  apply Within.mk' rfl h <;> first
    | with_reducible assumption
    | exact .inl b
    | exact .inr rfl
    | exact .inl rfl
    | exact id
    | exact ⟨Nat.le_refl _, rfl, fun _ h => h⟩

theorem Within.at_cod {m : Nat} {s t : State} {v : CodSt} (b : m.testBit 18 = true) (k1 : v.ctxs.length = t.cod.ctxs.length ∨ v.ctxs.length = 128)
    (h : Within m s t) : Within m s { t with cod := v } := by
  apply Within.mk' rfl h <;> first
    | with_reducible assumption
    | exact .inl b
    | exact .inr rfl
    | exact .inl rfl
    | exact id
    | exact ⟨Nat.le_refl _, rfl, fun _ h => h⟩

theorem Within.at_flow {m : Nat} {s t : State} {v : List FlowSt} (b : m.testBit 19 = true) (k1 : v.length = t.flow.length ∨ v.length = 48)
    (h : Within m s t) : Within m s { t with flow := v } := by
  apply Within.mk' rfl h <;> first
    | with_reducible assumption
    | exact .inl b
    | exact .inr rfl
    | exact .inl rfl
    | exact id
    | exact ⟨Nat.le_refl _, rfl, fun _ h => h⟩

theorem Within.at_mport {m : Nat} {s t : State} {v : List MPortSt} (b : m.testBit 20 = true) (k1 : v.length = t.mport.length ∨ v.length = 4)
    (h : Within m s t) : Within m s { t with mport := v } := by
  apply Within.mk' rfl h <;> first
    | with_reducible assumption
    | exact .inl b
    | exact .inr rfl
    | exact .inl rfl
    | exact id
    | exact ⟨Nat.le_refl _, rfl, fun _ h => h⟩

theorem Within.at_boot {m : Nat} {s t : State} {v : BootSt} (b : m.testBit 21 = true) (k1 : memWf erasedByte t.boot.flash = true → memWf erasedByte v.flash = true) (k2 : t.boot.svnMin ≤ v.svnMin ∧ v.keyHashes = t.boot.keyHashes ∧ ∀ k ∈ t.boot.revoked, k ∈ v.revoked) (k3 : m.testBit 32 = true ∨ v.fuses = t.boot.fuses)
    (h : Within m s t) : Within m s { t with boot := v } := by
  apply Within.mk' rfl h <;> first
    | with_reducible assumption
    | exact .inl b
    | exact .inr rfl
    | exact .inl rfl
    | exact id
    | exact ⟨Nat.le_refl _, rfl, fun _ h => h⟩

theorem Within.at_hif {m : Nat} {s t : State} {v : HostIf} (b : m.testBit 22 = true)
    (h : Within m s t) : Within m s { t with hif := v } := by
  apply Within.mk' rfl h <;> first
    | with_reducible assumption
    | exact .inl b
    | exact .inr rfl
    | exact .inl rfl
    | exact id
    | exact ⟨Nat.le_refl _, rfl, fun _ h => h⟩

theorem Within.at_jtag {m : Nat} {s t : State} {v : JtagSt} (b : m.testBit 23 = true)
    (h : Within m s t) : Within m s { t with jtag := v } := by
  apply Within.mk' rfl h <;> first
    | with_reducible assumption
    | exact .inl b
    | exact .inr rfl
    | exact .inl rfl
    | exact id
    | exact ⟨Nat.le_refl _, rfl, fun _ h => h⟩

theorem Within.at_pwr {m : Nat} {s t : State} {v : PwrSt} (b : m.testBit 24 = true) (k1 : v.quads.length = t.pwr.quads.length ∨ v.quads.length = 4) (k2 : m.testBit 31 = true ∨ v.keepalive = t.pwr.keepalive)
    (h : Within m s t) : Within m s { t with pwr := v } := by
  apply Within.mk' rfl h <;> first
    | with_reducible assumption
    | exact .inl b
    | exact .inr rfl
    | exact .inl rfl
    | exact id
    | exact ⟨Nat.le_refl _, rfl, fun _ h => h⟩

theorem Within.at_obs {m : Nat} {s t : State} {v : ObsSt} (b : m.testBit 25 = true)
    (h : Within m s t) : Within m s { t with obs := v } := by
  apply Within.mk' rfl h <;> first
    | with_reducible assumption
    | exact .inl b
    | exact .inr rfl
    | exact .inl rfl
    | exact id
    | exact ⟨Nat.le_refl _, rfl, fun _ h => h⟩

theorem Within.at_ev {m : Nat} {s t : State} {v : EvSt} (b : m.testBit 26 = true) (k1 : t.ev.buf.length ≤ 4096 → v.buf.length ≤ 4096)
    (h : Within m s t) : Within m s { t with ev := v } := by
  apply Within.mk' rfl h <;> first
    | with_reducible assumption
    | exact .inl b
    | exact .inr rfl
    | exact .inl rfl
    | exact id
    | exact ⟨Nat.le_refl _, rfl, fun _ h => h⟩

/-! Several fields written at once. -/

theorem Within.at_free_nextNum {m : Nat} {s t : State} {v_free v_nextNum : Nat} (b_free : m.testBit 1 = true) (b_nextNum : m.testBit 2 = true)
    (h : Within m s t) : Within m s { t with free := v_free, nextNum := v_nextNum } :=
  Within.at_nextNum (t := { t with free := v_free }) b_nextNum (Within.at_free b_free (h))

theorem Within.at_snp_hif {m : Nat} {s t : State} {v_snp : SnpSt} {v_hif : HostIf} (b_snp : m.testBit 17 = true) (b_hif : m.testBit 22 = true)
    (k1 : memWf zeroByte t.snp.store = true → memWf zeroByte v_snp.store = true)
    (h : Within m s t) : Within m s { t with snp := v_snp, hif := v_hif } :=
  Within.at_hif (t := { t with snp := v_snp }) b_hif (Within.at_snp b_snp k1 (h))

theorem Within.at_free_obs {m : Nat} {s t : State} {v_free : Nat} {v_obs : ObsSt} (b_free : m.testBit 1 = true) (b_obs : m.testBit 25 = true)
    (h : Within m s t) : Within m s { t with free := v_free, obs := v_obs } :=
  Within.at_obs (t := { t with free := v_free }) b_obs (Within.at_free b_free (h))

theorem Within.at_free_mem {m : Nat} {s t : State} {v_free : Nat} {v_mem : MemSt} (b_free : m.testBit 1 = true) (b_mem : m.testBit 8 = true) (k1 : v_mem.stks.length = t.mem.stks.length ∨ v_mem.stks.length = 20) (k2 : memWf zeroByte t.mem.stack = true → memWf zeroByte v_mem.stack = true) (k3 : m.testBit 27 = true ∨ v_mem.stack = t.mem.stack)
    (h : Within m s t) : Within m s { t with free := v_free, mem := v_mem } :=
  Within.at_mem (t := { t with free := v_free }) b_mem k1 k2 k3 (Within.at_free b_free (h))

theorem Within.at_link_port {m : Nat} {s t : State} {v_link : List LinkSt} {v_port : List PortSt} (b_link : m.testBit 13 = true) (b_port : m.testBit 14 = true) (k_link : v_link.length = t.link.length ∨ v_link.length = 32) (k_port : v_port.length = t.port.length ∨ v_port.length = 8)
    (h : Within m s t) : Within m s { t with link := v_link, port := v_port } :=
  Within.at_port (t := { t with link := v_link }) b_port k_port (Within.at_link b_link k_link (h))

theorem Within.at_seq_wgt {m : Nat} {s t : State} {v_seq : List SeqSlot} {v_wgt : List ModelSt} (b_seq : m.testBit 6 = true) (b_wgt : m.testBit 12 = true) (k_seq : v_seq.length = t.seq.length ∨ v_seq.length = 32) (k_wgt : v_wgt.length = t.wgt.length ∨ v_wgt.length = 16)
    (h : Within m s t) : Within m s { t with seq := v_seq, wgt := v_wgt } :=
  Within.at_wgt (t := { t with seq := v_seq }) b_wgt k_wgt (Within.at_seq b_seq k_seq (h))

theorem Within.at_xlt_eng_col_cod {m : Nat} {s t : State} {v_xlt : XltSt} {v_eng : List EngSt} {v_col : ColSt} {v_cod : CodSt} (b_xlt : m.testBit 10 = true) (b_eng : m.testBit 11 = true) (b_col : m.testBit 16 = true) (b_cod : m.testBit 18 = true) (k_eng : v_eng.length = t.eng.length ∨ v_eng.length = 64) (k1 : v_cod.ctxs.length = t.cod.ctxs.length ∨ v_cod.ctxs.length = 128)
    (h : Within m s t) : Within m s { t with xlt := v_xlt, eng := v_eng, col := v_col, cod := v_cod } :=
  Within.at_cod (t := { t with xlt := v_xlt, eng := v_eng, col := v_col }) b_cod k1 (Within.at_col (t := { t with xlt := v_xlt, eng := v_eng }) b_col (Within.at_eng (t := { t with xlt := v_xlt }) b_eng k_eng (Within.at_xlt b_xlt (h))))

end Sys2Proof.Machine
end

