-- ==== Sys2Proof/Laws/Events.lean ====
section
/-! SUPPORT. What each operation of Machine/Events.lean may change: see Laws/Within.lean. -/

namespace Sys2Proof.Machine

theorem modDom_within {M : Nat} {s0 : State} (s : State) (d : Nat) (f : DomSt → DomSt) (hm : 32 ||| M = M)
    (hf : M.testBit 30 = true ∨ ∀ x : DomSt, (f x).face = x.face)
    (hl : M.testBit 33 = true ∨ ∀ x : DomSt, (f x).latched = x.latched) (h : Within M s0 s) :
    Within M s0 (modDom s d f) :=
  h.trans (Within.at_dom (maskBit (b := 32) (by decide) hm) (.inl (by simp))
    (hf.imp id fun e => map_modify_same _ _ _ e) (hl.imp id fun e => map_modify_same _ _ _ e) (Within.refl _ _))

theorem modSeq_within {M : Nat} {s0 : State} (s : State) (n : Nat) (f : SeqSlot → SeqSlot) (hm : 64 ||| M = M)
    (h : Within M s0 s) : Within M s0 (modSeq s n f) := by
  refine h.after hm ?_
  clear h hm
  unfold modSeq
  try dsimp only
  repeat' first
    | with_reducible exact Within.refl _ _
    | with_reducible refine Within.at_seq (by decide) (by (left; simp; done)) ?_

theorem modCl_within {M : Nat} {s0 : State} (s : State) (c : Nat) (f : ClusterSt → ClusterSt) (hm : 128 ||| M = M)
    (h : Within M s0 s) : Within M s0 (modCl s c f) := by
  refine h.after hm ?_
  clear h hm
  unfold modCl
  try dsimp only
  repeat' first
    | with_reducible exact Within.refl _ _
    | with_reducible refine Within.at_cl (by decide) (by (left; simp; done)) ?_

theorem modEng_within {M : Nat} {s0 : State} (s : State) (e : Nat) (f : EngSt → EngSt) (hm : 2048 ||| M = M)
    (h : Within M s0 s) : Within M s0 (modEng s e f) := by
  refine h.after hm ?_
  clear h hm
  unfold modEng
  try dsimp only
  repeat' first
    | with_reducible exact Within.refl _ _
    | with_reducible refine Within.at_eng (by decide) (by (left; simp; done)) ?_

theorem modFlow_within {M : Nat} {s0 : State} (s : State) (n : Nat) (f : FlowSt → FlowSt) (hm : 524288 ||| M = M)
    (h : Within M s0 s) : Within M s0 (modFlow s n f) := by
  refine h.after hm ?_
  clear h hm
  unfold modFlow
  try dsimp only
  repeat' first
    | with_reducible exact Within.refl _ _
    | with_reducible refine Within.at_flow (by decide) (by (left; simp; done)) ?_

theorem modMport_within {M : Nat} {s0 : State} (s : State) (p : Nat) (f : MPortSt → MPortSt) (hm : 1048576 ||| M = M)
    (h : Within M s0 s) : Within M s0 (modMport s p f) := by
  refine h.after hm ?_
  clear h hm
  unfold modMport
  try dsimp only
  repeat' first
    | with_reducible exact Within.refl _ _
    | with_reducible refine Within.at_mport (by decide) (by (left; simp; done)) ?_

theorem modLink_within {M : Nat} {s0 : State} (s : State) (k : Nat) (f : LinkSt → LinkSt) (hm : 8192 ||| M = M)
    (h : Within M s0 s) : Within M s0 (modLink s k f) := by
  refine h.after hm ?_
  clear h hm
  unfold modLink
  try dsimp only
  repeat' first
    | with_reducible exact Within.refl _ _
    | with_reducible refine Within.at_link (by decide) (by (left; simp; done)) ?_

theorem modPort_within {M : Nat} {s0 : State} (s : State) (p : Nat) (f : PortSt → PortSt) (hm : 16384 ||| M = M)
    (h : Within M s0 s) : Within M s0 (modPort s p f) := by
  refine h.after hm ?_
  clear h hm
  unfold modPort
  try dsimp only
  repeat' first
    | with_reducible exact Within.refl _ _
    | with_reducible refine Within.at_port (by decide) (by (left; simp; done)) ?_

theorem modWgt_within {M : Nat} {s0 : State} (s : State) (m : Nat) (f : ModelSt → ModelSt) (hm : 4096 ||| M = M)
    (h : Within M s0 s) : Within M s0 (modWgt s m f) := by
  refine h.after hm ?_
  clear h hm
  unfold modWgt
  try dsimp only
  repeat' first
    | with_reducible exact Within.refl _ _
    | with_reducible refine Within.at_wgt (by decide) (by (left; simp; done)) ?_

theorem modCtx_within {M : Nat} {s0 : State} (s : State) (c : Nat) (f : CtxSt → CtxSt) (hm : 262144 ||| M = M)
    (h : Within M s0 s) : Within M s0 (modCtx s c f) := by
  refine h.after hm ?_
  clear h hm
  unfold modCtx
  try dsimp only
  repeat' first
    | with_reducible exact Within.refl _ _
    | with_reducible refine Within.at_cod (by decide) (by (left; simp; done)) ?_

theorem each_within {α : Type} {M : Nat} {s0 : State} (l : List α) (f : State → α → State) (s : State) (_hm : 0 ||| M = M)
    (hf : ∀ s x, Within M s (f s x)) (h : Within M s0 s) : Within M s0 (each l f s) :=
  Within.foldl f hf l h

theorem drew_within {M : Nat} {s0 : State} (s : State) (hm : 2 ||| M = M)
    (h : Within M s0 s) : Within M s0 (drew s) := by
  refine h.after hm ?_
  clear h hm
  unfold drew
  try dsimp only
  repeat' first
    | with_reducible exact Within.refl _ _
    | with_reducible refine Within.at_free (by decide)  ?_

theorem emit_within {M : Nat} {s0 : State} (s : State) (o : Out) (hm : 8 ||| M = M)
    (h : Within M s0 s) : Within M s0 (emit s o) := by
  refine h.after hm ?_
  clear h hm
  unfold emit
  try dsimp only
  repeat' first
    | with_reducible exact Within.refl _ _
    | with_reducible refine Within.at_out (by decide)  ?_

theorem msix_within {M : Nat} {s0 : State} (s : State) (v : Nat) (hm : 8 ||| M = M)
    (h : Within M s0 s) : Within M s0 (msix s v) := by
  refine h.after hm ?_
  clear h hm
  unfold msix
  try dsimp only
  repeat' first
    | with_reducible exact Within.refl _ _
    | with_reducible refine emit_within _ _ (by decide) ?_
    | with_reducible refine Within.ite ?_ ?_

theorem hostWrite_within {M : Nat} {s0 : State} (s : State) (a : Nat) (bs : List Byte) (hm : 536871424 ||| M = M)
    (h : Within M s0 s) : Within M s0 (hostWrite s a bs) := by
  refine h.after hm ?_
  clear h hm
  unfold hostWrite
  try dsimp only
  repeat' first
    | with_reducible exact Within.refl _ _
    | with_reducible refine Within.ite ?_ ?_
    | with_reducible refine Within.at_st (by decide) id (by (intro hw; exact memWrs_wf _ _ hw)) (.inr rfl) (.inl (by decide)) ?_

theorem ctrSet_within {M : Nat} {s0 : State} (s : State) (i : Nat) (v : Nat) (hm : 33554432 ||| M = M)
    (h : Within M s0 s) : Within M s0 (ctrSet s i v) := by
  refine h.after hm ?_
  clear h hm
  unfold ctrSet
  try dsimp only
  repeat' first
    | with_reducible exact Within.refl _ _
    | with_reducible refine Within.at_obs (by decide)  ?_

theorem ctrAdd_within {M : Nat} {s0 : State} (s : State) (i : Nat) (n : Nat) (hm : 33554432 ||| M = M)
    (h : Within M s0 s) : Within M s0 (ctrAdd s i n) := by
  refine h.after hm ?_
  clear h hm
  unfold ctrAdd
  try dsimp only
  repeat' first
    | with_reducible exact Within.refl _ _
    | with_reducible refine ctrSet_within _ _ _ (by decide) ?_

theorem ctrGauge_within {M : Nat} {s0 : State} (s : State) (i : Nat) (v : Int) (hm : 33554432 ||| M = M)
    (h : Within M s0 s) : Within M s0 (ctrGauge s i v) := by
  refine h.after hm ?_
  clear h hm
  unfold ctrGauge
  try dsimp only
  repeat' first
    | with_reducible exact Within.refl _ _
    | with_reducible refine ctrSet_within _ _ _ (by decide) ?_

theorem traceBare_within {M : Nat} {s0 : State} (s : State) (kind : Nat) (seq : Nat) (u : Option Nat) (data : List Byte) (hm : 33554434 ||| M = M)
    (h : Within M s0 s) : Within M s0 (traceBare s kind seq u data).1 := by
  refine h.after hm ?_
  clear h hm
  unfold traceBare
  try dsimp only
  repeat' first
    | with_reducible exact Within.refl _ _
    | with_reducible refine ctrAdd_within _ _ _ (by decide) ?_
    | with_reducible refine Within.iteFst ?_ ?_
    | split
    | with_reducible refine Within.at_free_obs (by decide) (by decide)  ?_

theorem evSummary_within {M : Nat} {s0 : State} (s : State) (block : Nat) (num : Nat) (l : BitVec 32) (hm : 16777248 ||| M = M)
    (h : Within M s0 s) : Within M s0 (evSummary s block num l) := by
  refine h.after hm ?_
  clear h hm
  unfold evSummary
  try dsimp only
  repeat' first
    | with_reducible exact Within.refl _ _
    | with_reducible refine modDom_within _ _ _ (by decide) (by exact .inr (fun _ => rfl)) (by exact .inr (fun _ => rfl)) ?_
    | with_reducible refine Within.ite ?_ ?_
    | split
    | with_reducible refine Within.at_pwr (by decide) (by (left; simp; done)) (.inr rfl) ?_

theorem evTrace_within {M : Nat} {s0 : State} (s : State) (block : Nat) (num : Nat) (l : BitVec 32) (seq : Nat) (hm : 33554434 ||| M = M)
    (h : Within M s0 s) : Within M s0 (evTrace s block num l seq).1 := by
  refine h.after hm ?_
  clear h hm
  unfold evTrace
  try dsimp only
  repeat' first
    | with_reducible exact Within.refl _ _
    | with_reducible refine traceBare_within _ _ _ _ _ (by decide) ?_

theorem evPurge_length (a b : Bool) (l : List EvRec) : (evPurge a b l).length ≤ l.length := List.length_filter_le _ _

theorem modFirst_length {α : Type} (p : α → Bool) (f : α → α) (l : List α) : (modFirst p f l).length = l.length := by
  induction l with
  | nil => rfl
  | cons x l ih => simp only [modFirst]; split <;> simp [ih]

/-- The event buffer never holds more than 4,096 records (22 R394). -/
theorem evTake_length (s : State) (block num : Nat) (l : BitVec 32) (seq : Nat) (detail : Word64)
    (h : s.ev.buf.length ≤ 4096) : (evTake s block num l seq detail).buf.length ≤ 4096 := by
  have put : ∀ (e : EvSt) (b : List EvRec) (r : EvRec), b.length < 4096 →
      (evPurge (mgmtOn s) e.ringOn (b ++ [r])).length ≤ 4096 := fun e b r hb =>
    Nat.le_trans (evPurge_length _ _ _) (by simp; omega)
  unfold evTake
  dsimp only
  generalize hr : (if severity block num ≤ 1 then decide (s.ev.buf.length < 3840)
    else if severity block num = 2 then decide (s.ev.buf.length < 4080) else decide (s.ev.buf.length < 4096)) = room
  have hroom : room = true → s.ev.buf.length < 4096 := by
    subst hr; split
    · simp; omega
    · split <;> simp <;> omega
  split
  · simpa [modFirst_length] using h
  · split
    · next hr => exact put s.ev _ _ (hroom hr)
    · split
      · split
        · next i hi =>
          refine put _ _ _ ?_
          obtain ⟨hi, -⟩ := List.findIdx?_eq_some_iff_getElem.mp hi
          rw [List.length_eraseIdx_of_lt hi]; omega
        · split
          · simpa [modLast, modFirst_length] using h
          · simpa [evDropped] using h
      · simpa [evDropped] using h

theorem raiseBare_within {M : Nat} {s0 : State} (s : State) (block : Nat) (num : Nat) (l : BitVec 32) (seq : Nat) (detail : Word64) (hm : 117440546 ||| M = M)
    (h : Within M s0 s) : Within M s0 (raiseBare s block num l seq detail).1 := by
  refine h.after hm ?_
  clear h hm
  unfold raiseBare
  try dsimp only
  repeat' first
    | with_reducible exact Within.refl _ _
    | with_reducible refine ctrAdd_within _ _ _ (by decide) ?_
    | with_reducible refine evTrace_within _ _ _ _ _ (by decide) ?_
    | with_reducible refine evSummary_within _ _ _ _ (by decide) ?_
    | with_reducible refine Within.at_ev (by decide) (by exact fun he => evTake_length _ _ _ _ _ _ he) ?_

theorem raise_within {M : Nat} {s0 : State} (s : State) (block : Nat) (num : Nat) (l : BitVec 32) (seq : Nat) (detail : Word64) (hm : 117440546 ||| M = M)
    (h : Within M s0 s) : Within M s0 (raise s block num l seq detail) := by
  refine h.after hm ?_
  clear h hm
  unfold raise
  try dsimp only
  repeat' first
    | with_reducible exact Within.refl _ _
    | with_reducible refine raiseBare_within _ _ _ _ _ _ (by decide) ?_
    | with_reducible refine Within.ite ?_ ?_

theorem trace_within {M : Nat} {s0 : State} (s : State) (kind : Nat) (seq : Nat) (wher : Nat) (data : List Byte) (hm : 117440546 ||| M = M)
    (h : Within M s0 s) : Within M s0 (trace s kind seq wher data) := by
  refine h.after hm ?_
  clear h hm
  unfold trace
  try dsimp only
  repeat' first
    | with_reducible exact Within.refl _ _
    | with_reducible refine traceBare_within _ _ _ _ _ (by decide) ?_
    | with_reducible refine raise_within _ _ _ _ _ _ (by decide) ?_
    | with_reducible refine Within.ite ?_ ?_

theorem evSignal_within {M : Nat} {s0 : State} (s : State) (hm : 67108872 ||| M = M)
    (h : Within M s0 s) : Within M s0 (evSignal s) := by
  refine h.after hm ?_
  clear h hm
  unfold evSignal
  try dsimp only
  repeat' first
    | with_reducible exact Within.refl _ _
    | with_reducible refine msix_within _ _ (by decide) ?_
    | with_reducible refine Within.ite ?_ ?_
    | with_reducible refine Within.at_ev (by decide) id ?_

end Sys2Proof.Machine
end

