-- ==== Sys2Proof/Laws/Stacks.lean ====
section
/-! SUPPORT. What each operation of Machine/Stacks.lean may change: see Laws/Within.lean. -/

namespace Sys2Proof.Machine

theorem noteMaint_within {M : Nat} {s0 : State} (s : State) (lo : Nat) (hi : Nat) (hm : 256 ||| M = M)
    (h : Within M s0 s) : Within M s0 (noteMaint s lo hi) := by
  refine h.after hm ?_
  clear h hm
  unfold noteMaint
  try dsimp only
  repeat' first
    | with_reducible exact Within.refl _ _
    | with_reducible refine Within.at_mem (by decide) (by (left; simp; done)) id (.inr rfl) ?_

theorem copyRow_within {M : Nat} {s0 : State} (s : State) (sec : Nat) (hm : 117440802 ||| M = M)
    (h : Within M s0 s) : Within M s0 (copyRow s sec) := by
  refine h.after hm ?_
  clear h hm
  unfold copyRow
  try dsimp only
  repeat' first
    | with_reducible exact Within.refl _ _
    | with_reducible refine each_within _ _ _ (by decide) ?_ ?_
    | with_reducible refine raise_within _ _ _ _ _ _ (by decide) ?_
    | with_reducible refine ctrAdd_within _ _ _ (by decide) ?_
    | split
    | with_reducible refine Within.at_mem (by decide) (by (left; simp; done)) id (.inr rfl) ?_
    | with_reducible intro _

theorem rowRepair_within {M : Nat} {s0 : State} (s : State) (sec : Nat) (hm : 117440802 ||| M = M)
    (h : Within M s0 s) : Within M s0 (rowRepair s sec) := by
  refine h.after hm ?_
  clear h hm
  unfold rowRepair
  try dsimp only
  repeat' first
    | with_reducible exact Within.refl _ _
    | with_reducible refine noteMaint_within _ _ _ (by decide) ?_
    | with_reducible refine drew_within _ (by decide) ?_
    | with_reducible refine raise_within _ _ _ _ _ _ (by decide) ?_
    | with_reducible refine ctrAdd_within _ _ _ (by decide) ?_
    | with_reducible refine copyRow_within _ _ (by decide) ?_
    | with_reducible refine Within.ite ?_ ?_
    | with_reducible refine Within.at_mem (by decide) (by (left; simp; done)) id (.inr rfl) ?_

theorem askRetrain_within {M : Nat} {s0 : State} (s : State) (ch : Nat) (hm : 256 ||| M = M)
    (h : Within M s0 s) : Within M s0 (askRetrain s ch) := by
  refine h.after hm ?_
  clear h hm
  unfold askRetrain
  try dsimp only
  repeat' first
    | with_reducible exact Within.refl _ _
    | with_reducible refine Within.ite ?_ ?_
    | with_reducible refine Within.at_mem (by decide) (by (left; simp; done)) id (.inr rfl) ?_

theorem corrected_within {M : Nat} {s0 : State} (s : State) (sec : Nat) (hm : 117440802 ||| M = M)
    (h : Within M s0 s) : Within M s0 (corrected s sec) := by
  refine h.after hm ?_
  clear h hm
  unfold corrected
  try dsimp only
  repeat' first
    | with_reducible exact Within.refl _ _
    | with_reducible refine raise_within _ _ _ _ _ _ (by decide) ?_
    | with_reducible refine ctrAdd_within _ _ _ (by decide) ?_
    | with_reducible refine askRetrain_within _ _ (by decide) ?_
    | with_reducible refine rowRepair_within _ _ (by decide) ?_
    | with_reducible refine Within.ite ?_ ?_
    | with_reducible refine Within.at_mem (by decide) (by (left; simp; done)) id (.inr rfl) ?_

theorem uncorrectable_within {M : Nat} {s0 : State} (s : State) (sec : Nat) (hm : 117440802 ||| M = M)
    (h : Within M s0 s) : Within M s0 (uncorrectable s sec) := by
  refine h.after hm ?_
  clear h hm
  unfold uncorrectable
  try dsimp only
  repeat' first
    | with_reducible exact Within.refl _ _
    | with_reducible refine raise_within _ _ _ _ _ _ (by decide) ?_
    | with_reducible refine rowRepair_within _ _ (by decide) ?_
    | with_reducible refine askRetrain_within _ _ (by decide) ?_
    | with_reducible refine Within.ite ?_ ?_
    | with_reducible refine Within.at_mem (by decide) (by (left; simp; done)) id (.inr rfl) ?_

theorem eccRead_within {M : Nat} {s0 : State} (s : State) (sec : Nat) (hm : 117440802 ||| M = M)
    (h : Within M s0 s) : Within M s0 (eccRead s sec) := by
  refine h.after hm ?_
  clear h hm
  unfold eccRead
  try dsimp only
  repeat' first
    | with_reducible exact Within.refl _ _
    | with_reducible refine ctrAdd_within _ _ _ (by decide) ?_
    | with_reducible refine corrected_within _ _ (by decide) ?_
    | with_reducible refine uncorrectable_within _ _ (by decide) ?_
    | split

theorem chanRead_within {M : Nat} {s0 : State} (s : State) (sec : Nat) (hm : 117440802 ||| M = M)
    (h : Within M s0 s) : Within M s0 (chanRead s sec) := by
  refine h.after hm ?_
  clear h hm
  unfold chanRead
  try dsimp only
  repeat' first
    | with_reducible exact Within.refl _ _
    | with_reducible refine raise_within _ _ _ _ _ _ (by decide) ?_
    | with_reducible refine eccRead_within _ _ (by decide) ?_
    | with_reducible refine Within.ite ?_ ?_

theorem eavesRmw_within {M : Nat} {s0 : State} (s : State) (e : Eaves) (hm : 251658530 ||| M = M)
    (h : Within M s0 s) : Within M s0 (eavesRmw s e) := by
  refine h.after hm ?_
  clear h hm
  unfold eavesRmw
  try dsimp only
  repeat' first
    | with_reducible exact Within.refl _ _
    | with_reducible refine chanRead_within _ _ (by decide) ?_
    | with_reducible refine ctrAdd_within _ _ _ (by decide) ?_
    | with_reducible refine Within.ite ?_ ?_
    | with_reducible refine Within.at_mem (by decide) (by (left; simp; done)) (by (intro hw; exact memFold_wf _ (fun _ _ hm => memWr_wf _ _ hm) _ hw)) (.inl (by decide)) ?_

theorem eavesFlush_within {M : Nat} {s0 : State} (s : State) (sec : Nat) (hm : 251658530 ||| M = M)
    (h : Within M s0 s) : Within M s0 (eavesFlush s sec) := by
  refine h.after hm ?_
  clear h hm
  unfold eavesFlush
  try dsimp only
  repeat' first
    | with_reducible exact Within.refl _ _
    | with_reducible refine eavesRmw_within _ _ (by decide) ?_
    | split
    | with_reducible refine Within.at_mem (by decide) (by (left; simp; done)) id (.inr rfl) ?_

theorem eavesFlushAll_within {M : Nat} {s0 : State} (s : State) (hm : 251658530 ||| M = M)
    (h : Within M s0 s) : Within M s0 (eavesFlushAll s) := by
  refine h.after hm ?_
  clear h hm
  unfold eavesFlushAll
  try dsimp only
  repeat' first
    | with_reducible exact Within.refl _ _
    | with_reducible refine each_within _ _ _ (by decide) ?_ ?_
    | with_reducible refine eavesFlush_within _ _ (by decide) ?_
    | with_reducible intro _

theorem writeWhole_within {M : Nat} {s0 : State} (s : State) (sec : Nat) (bs : List Byte) (hm : 167772416 ||| M = M)
    (h : Within M s0 s) : Within M s0 (writeWhole s sec bs) := by
  refine h.after hm ?_
  clear h hm
  unfold writeWhole
  try dsimp only
  repeat' first
    | with_reducible exact Within.refl _ _
    | with_reducible refine ctrAdd_within _ _ _ (by decide) ?_
    | with_reducible refine Within.ite ?_ ?_
    | with_reducible refine Within.at_mem (by decide) (by (left; simp; done)) (by (intro hw; exact memWrs_wf _ _ hw)) (.inl (by decide)) ?_

theorem writePoison_within {M : Nat} {s0 : State} (s : State) (sec : Nat) (hm : 33554688 ||| M = M)
    (h : Within M s0 s) : Within M s0 (writePoison s sec) := by
  refine h.after hm ?_
  clear h hm
  unfold writePoison
  try dsimp only
  repeat' first
    | with_reducible exact Within.refl _ _
    | with_reducible refine ctrAdd_within _ _ _ (by decide) ?_
    | with_reducible refine Within.ite ?_ ?_
    | with_reducible refine Within.at_mem (by decide) (by (left; simp; done)) id (.inr rfl) ?_

theorem eavesRoom_within {M : Nat} {s0 : State} (s : State) (ch : Nat) (hm : 251658530 ||| M = M)
    (h : Within M s0 s) : Within M s0 (eavesRoom s ch) := by
  refine h.after hm ?_
  clear h hm
  unfold eavesRoom
  try dsimp only
  repeat' first
    | with_reducible exact Within.refl _ _
    | with_reducible refine eavesFlush_within _ _ (by decide) ?_
    | with_reducible refine Within.ite ?_ ?_
    | split

theorem eavesWrite_within {M : Nat} {s0 : State} (s : State) (sec : Nat) (offs : Nat) (bs : List Byte) (hm : 251658530 ||| M = M)
    (h : Within M s0 s) : Within M s0 (eavesWrite s sec offs bs) := by
  refine h.after hm ?_
  clear h hm
  unfold eavesWrite
  try dsimp only
  repeat' first
    | with_reducible exact Within.refl _ _
    | with_reducible refine writeWhole_within _ _ _ (by decide) ?_
    | with_reducible refine eavesRoom_within _ _ (by decide) ?_
    | with_reducible refine Within.ite ?_ ?_
    | split
    | with_reducible refine Within.at_mem (by decide) (by (left; simp; done)) id (.inr rfl) ?_

theorem writePart_within {M : Nat} {s0 : State} (s : State) (sec : Nat) (offs : Nat) (bs : List Byte) (hm : 251658530 ||| M = M)
    (h : Within M s0 s) : Within M s0 (writePart s sec offs bs) := by
  refine h.after hm ?_
  clear h hm
  unfold writePart
  try dsimp only
  repeat' first
    | with_reducible exact Within.refl _ _
    | with_reducible refine ctrAdd_within _ _ _ (by decide) ?_
    | with_reducible refine eavesWrite_within _ _ _ _ (by decide) ?_
    | with_reducible refine Within.ite ?_ ?_
    | with_reducible refine Within.at_free_mem (by decide) (by decide) (by (left; simp; done)) (by first | with_reducible exact id | (intro hw; exact memWrs_wf _ _ hw)) (by first | with_reducible exact .inr rfl | exact .inl (by decide)) ?_

theorem readSector_within {M : Nat} {s0 : State} (s : State) (sec : Nat) (alloc : Bool) (hm : 251658530 ||| M = M)
    (h : Within M s0 s) : Within M s0 (readSector s sec alloc).2 := by
  refine h.after hm ?_
  clear h hm
  unfold readSector
  try dsimp only
  repeat' first
    | with_reducible exact Within.refl _ _
    | with_reducible refine drew_within _ (by decide) ?_
    | with_reducible refine eavesFlush_within _ _ (by decide) ?_
    | with_reducible refine chanRead_within _ _ (by decide) ?_
    | with_reducible refine Within.iteSnd ?_ ?_
    | with_reducible refine Within.ite ?_ ?_
    | with_reducible refine Within.at_mem (by decide) (by (left; simp; done)) id (.inr rfl) ?_

theorem readPA_within {M : Nat} {s0 : State} (s : State) (pa : Nat) (n : Nat) (alloc : optParam Bool true) (hm : 251658530 ||| M = M)
    (h : Within M s0 s) : Within M s0 (readPA s pa n alloc).2 := by
  refine h.after hm ?_
  clear h hm
  unfold readPA
  try dsimp only
  repeat' first
    | with_reducible exact Within.refl _ _
    | with_reducible refine readSector_within _ _ _ (by decide) ?_
    | with_reducible refine Within.foldlSnd _ ?_ _ ?_
    | with_reducible intro _

theorem writePA_within {M : Nat} {s0 : State} (s : State) (pa : Nat) (bs : List Byte) (hm : 251658530 ||| M = M)
    (h : Within M s0 s) : Within M s0 (writePA s pa bs) := by
  refine h.after hm ?_
  clear h hm
  unfold writePA
  try dsimp only
  repeat' first
    | with_reducible exact Within.refl _ _
    | with_reducible refine each_within _ _ _ (by decide) ?_ ?_
    | with_reducible refine writeWhole_within _ _ _ (by decide) ?_
    | with_reducible refine writePart_within _ _ _ _ (by decide) ?_
    | with_reducible refine Within.ite ?_ ?_
    | with_reducible intro _

theorem atomPA_within {M : Nat} {s0 : State} (s : State) (pa : Nat) (f : Word64 → Word64) (hm : 251658530 ||| M = M)
    (h : Within M s0 s) : Within M s0 (atomPA s pa f).2 := by
  refine h.after hm ?_
  clear h hm
  unfold atomPA
  try dsimp only
  repeat' first
    | with_reducible exact Within.refl _ _
    | with_reducible refine chanRead_within _ _ (by decide) ?_
    | with_reducible refine eavesWrite_within _ _ _ _ (by decide) ?_
    | with_reducible refine Within.iteSnd ?_ ?_
    | with_reducible refine Within.at_mem (by decide) (by (left; simp; done)) id (.inr rfl) ?_

theorem csTouch_within {M : Nat} {s0 : State} (s : State) (blk : Nat) (c : Nat) (seq : Nat) (offs : Nat) (hm : 117441058 ||| M = M)
    (h : Within M s0 s) : Within M s0 (csTouch s blk c seq offs) := by
  refine h.after hm ?_
  clear h hm
  unfold csTouch
  try dsimp only
  repeat' first
    | with_reducible exact Within.refl _ _
    | with_reducible refine raise_within _ _ _ _ _ _ (by decide) ?_
    | with_reducible refine Within.ite ?_ ?_
    | split
    | with_reducible refine Within.at_st (by decide) id id (.inr rfl) (.inr rfl) ?_

theorem csTouchRange_within {M : Nat} {s0 : State} (s : State) (blk : Nat) (c : Nat) (seq : Nat) (offs : Nat) (n : Nat) (hm : 117441058 ||| M = M)
    (h : Within M s0 s) : Within M s0 (csTouchRange s blk c seq offs n) := by
  refine h.after hm ?_
  clear h hm
  unfold csTouchRange
  try dsimp only
  repeat' first
    | with_reducible exact Within.refl _ _
    | with_reducible refine each_within _ _ _ (by decide) ?_ ?_
    | with_reducible refine csTouch_within _ _ _ _ _ (by decide) ?_
    | with_reducible intro _

theorem csWrite_within {M : Nat} {s0 : State} (s : State) (c : Nat) (offs : Nat) (bs : List Byte) (hm : 268435968 ||| M = M)
    (h : Within M s0 s) : Within M s0 (csWrite s c offs bs) := by
  refine h.after hm ?_
  clear h hm
  unfold csWrite
  try dsimp only
  repeat' first
    | with_reducible exact Within.refl _ _
    | with_reducible refine Within.at_st (by decide) (by (intro hw; exact memWrs_wf _ _ hw)) id (.inl (by decide)) (.inr rfl) ?_

theorem csPoisonAt_within {M : Nat} {s0 : State} (s : State) (c : Nat) (offs : Nat) (hm : 512 ||| M = M)
    (h : Within M s0 s) : Within M s0 (csPoisonAt s c offs) := by
  refine h.after hm ?_
  clear h hm
  unfold csPoisonAt
  try dsimp only
  repeat' first
    | with_reducible exact Within.refl _ _
    | with_reducible refine Within.at_st (by decide) id id (.inr rfl) (.inr rfl) ?_

end Sys2Proof.Machine
end

