-- ==== Sys2Proof/Laws/Translate.lean ====
section
/-! SUPPORT. What each operation of Machine/Translate.lean may change: see Laws/Within.lean. -/

namespace Sys2Proof.Machine

theorem pick_within {M : Nat} {s0 : State} (s : State) (l : List Word64) (hm : 2 ||| M = M)
    (h : Within M s0 s) : Within M s0 (pick s l).2 := by
  refine h.after hm ?_
  clear h hm
  unfold pick
  try dsimp only
  repeat' first
    | with_reducible exact Within.refl _ _
    | with_reducible refine drew_within _ (by decide) ?_
    | with_reducible refine Within.iteSnd ?_ ?_

theorem cacheIn_within {M : Nat} {s0 : State} (s : State) (t : PtEntry) (hm : 1026 ||| M = M)
    (h : Within M s0 s) : Within M s0 (cacheIn s t) := by
  refine h.after hm ?_
  clear h hm
  unfold cacheIn
  try dsimp only
  repeat' first
    | with_reducible exact Within.refl _ _
    | with_reducible refine drew_within _ (by decide) ?_
    | with_reducible refine Within.ite ?_ ?_
    | with_reducible refine Within.at_xlt (by decide)  ?_

theorem cache_within {M : Nat} {s0 : State} (s : State) (port : Nat) (level : Nat) (va : Nat) (e : Word64) (hm : 1026 ||| M = M)
    (h : Within M s0 s) : Within M s0 (cache s port level va e) := by
  refine h.after hm ?_
  clear h hm
  unfold cache
  try dsimp only
  repeat' first
    | with_reducible exact Within.refl _ _
    | with_reducible refine each_within _ _ _ (by decide) ?_ ?_
    | with_reducible refine cacheIn_within _ _ (by decide) ?_
    | with_reducible intro _

theorem walk.entry_within {M : Nat} {s0 : State} (port : Nat) (va : Nat) (need : Need) (hostOk : Bool) (level : Nat) (base : Nat) (s : State) (down : Nat → State → Xl × State) (hm : 251659554 ||| M = M) (h_down : ∀ v0 v1, Within M v1 (down v0 v1).2)
    (h : Within M s0 s) : Within M s0 (walk.entry port va need hostOk level base s down).2 := by
  unfold walk.entry
  try dsimp only
  repeat' first
    | with_reducible assumption
    | with_reducible refine pick_within _ _ (maskSub (by decide) hm) ?_
    | with_reducible refine readPA_within _ _ _ _ (maskSub (by decide) hm) ?_
    | with_reducible refine cache_within _ _ _ _ _ (maskSub (by decide) hm) ?_
    | with_reducible refine Within.trans ?_ (h_down _ _)
    | with_reducible refine Within.iteSnd ?_ ?_
    | split

theorem walk_within {M : Nat} {s0 : State} (port : Nat) (va : Nat) (need : Need) (hostOk : Bool) (a1 : Nat) (a2 : Nat) (a3 : State) (hm : 251659554 ||| M = M)
    (h : Within M s0 a3) : Within M s0 (walk port va need hostOk a1 a2 a3).2 := by
  refine h.after hm ?_
  clear h hm
  induction a1 generalizing port va need hostOk a2 a3 with
  | zero =>
    unfold walk
    try dsimp only
    repeat' first
      | with_reducible exact Within.refl _ _
      | with_reducible refine walk.entry_within _ _ _ _ _ _ _ _ (by decide) ?_ ?_
      | with_reducible intro _
  | succ n ih =>
    unfold walk
    try dsimp only
    repeat' first
      | with_reducible exact Within.refl _ _
      | with_reducible refine Within.trans ?_ (ih _ _ _ _ _ _)
      | with_reducible refine walk.entry_within _ _ _ _ _ _ _ _ (by decide) ?_ ?_
      | with_reducible intro _

theorem translate_within {M : Nat} {s0 : State} (s : State) (va : Nat) (need : Need) (hostOk : Bool) (port : optParam Nat 0) (hm : 251659554 ||| M = M)
    (h : Within M s0 s) : Within M s0 (translate s va need hostOk port).2 := by
  refine h.after hm ?_
  clear h hm
  unfold translate
  try dsimp only
  repeat' first
    | with_reducible exact Within.refl _ _
    | with_reducible refine walk_within _ _ _ _ _ _ _ (by decide) ?_
    | with_reducible refine drew_within _ (by decide) ?_
    | with_reducible refine Within.iteSnd ?_ ?_
    | split

theorem devFail_within {M : Nat} {s0 : State} (s : State) (a : Nat) (write : Bool) (hm : 117440546 ||| M = M)
    (h : Within M s0 s) : Within M s0 (devFail s a write) := by
  refine h.after hm ?_
  clear h hm
  unfold devFail
  try dsimp only
  repeat' first
    | with_reducible exact Within.refl _ _
    | with_reducible refine raise_within _ _ _ _ _ _ (by decide) ?_

theorem devPlace_within {M : Nat} {s0 : State} (s : State) (ad : Ad) (write : Bool) (hm : 251659554 ||| M = M)
    (h : Within M s0 s) : Within M s0 (devPlace s ad write).2 := by
  refine h.after hm ?_
  clear h hm
  unfold devPlace
  try dsimp only
  repeat' first
    | with_reducible exact Within.refl _ _
    | with_reducible refine translate_within _ _ _ _ _ (by decide) ?_
    | with_reducible refine devFail_within _ _ _ (by decide) ?_
    | with_reducible refine Within.iteSnd ?_ ?_
    | split

theorem devPlaces_within {M : Nat} {s0 : State} (s : State) (ad : Ad) (write : Bool) (a1 : List (Nat × Nat)) (hm : 251659554 ||| M = M)
    (h : Within M s0 s) : Within M s0 (devPlaces s ad write a1).2 := by
  refine h.after hm ?_
  clear h hm
  induction a1 generalizing s ad write with
  | nil =>
    unfold devPlaces
    try dsimp only
    repeat' first
      | with_reducible exact Within.refl _ _
  | cons x l ih =>
    unfold devPlaces
    try dsimp only
    repeat' first
      | with_reducible exact Within.refl _ _
      | with_reducible refine Within.trans ?_ (ih _ _ _)
      | with_reducible refine devPlace_within _ _ _ (by decide) ?_
      | split

theorem devRead_within {M : Nat} {s0 : State} (s : State) (ad : Ad) (n : Nat) (hm : 251659554 ||| M = M)
    (h : Within M s0 s) : Within M s0 (devRead s ad n).2 := by
  refine h.after hm ?_
  clear h hm
  unfold devRead
  try dsimp only
  repeat' first
    | with_reducible exact Within.refl _ _
    | with_reducible refine devPlaces_within _ _ _ _ (by decide) ?_
    | with_reducible refine readPA_within _ _ _ _ (by decide) ?_
    | with_reducible refine Within.foldlSnd _ ?_ _ ?_
    | with_reducible refine Within.iteSnd ?_ ?_
    | split
    | with_reducible intro _

theorem devWrite_within {M : Nat} {s0 : State} (s : State) (ad : Ad) (bs : List Byte) (hm : 251659554 ||| M = M)
    (h : Within M s0 s) : Within M s0 (devWrite s ad bs).2 := by
  refine h.after hm ?_
  clear h hm
  unfold devWrite
  try dsimp only
  repeat' first
    | with_reducible exact Within.refl _ _
    | with_reducible refine devPlaces_within _ _ _ _ (by decide) ?_
    | with_reducible refine writePA_within _ _ _ (by decide) ?_
    | with_reducible refine Within.foldlSnd _ ?_ _ ?_
    | with_reducible refine Within.iteSnd ?_ ?_
    | split
    | with_reducible intro _

theorem devPut_within {M : Nat} {s0 : State} (s : State) (ad : Ad) (bs : List Byte) (hm : 251659554 ||| M = M)
    (h : Within M s0 s) : Within M s0 (devPut s ad bs) := by
  refine h.after hm ?_
  clear h hm
  unfold devPut
  try dsimp only
  repeat' first
    | with_reducible exact Within.refl _ _
    | with_reducible refine devWrite_within _ _ _ (by decide) ?_

theorem faultWrite_within {M : Nat} {s0 : State} (s : State) (f : FaultRec) (hm : 251659562 ||| M = M)
    (h : Within M s0 s) : Within M s0 (faultWrite s f) := by
  refine h.after hm ?_
  clear h hm
  unfold faultWrite
  try dsimp only
  repeat' first
    | with_reducible exact Within.refl _ _
    | with_reducible refine writePA_within _ _ _ (by decide) ?_
    | with_reducible refine msix_within _ _ (by decide) ?_
    | with_reducible refine traceBare_within _ _ _ _ _ (by decide) ?_
    | with_reducible refine raise_within _ _ _ _ _ _ (by decide) ?_
    | with_reducible refine Within.ite ?_ ?_
    | with_reducible refine Within.at_xlt (by decide)  ?_

theorem nextTag_within {M : Nat} {s0 : State} (s : State) (hm : 1024 ||| M = M)
    (h : Within M s0 s) : Within M s0 (nextTag s) := by
  refine h.after hm ?_
  clear h hm
  unfold nextTag
  try dsimp only
  repeat' first
    | with_reducible exact Within.refl _ _
    | with_reducible refine Within.at_xlt (by decide)  ?_

theorem faultRetry_within {M : Nat} {s0 : State} (s : State) (f : FaultRec) (hm : 251659562 ||| M = M)
    (h : Within M s0 s) : Within M s0 (faultRetry s f).2 := by
  refine h.after hm ?_
  clear h hm
  unfold faultRetry
  try dsimp only
  repeat' first
    | with_reducible exact Within.refl _ _
    | with_reducible refine nextTag_within _ (by decide) ?_
    | with_reducible refine raise_within _ _ _ _ _ _ (by decide) ?_
    | with_reducible refine faultWrite_within _ _ (by decide) ?_
    | with_reducible refine Within.iteSnd ?_ ?_
    | with_reducible refine Within.at_xlt (by decide)  ?_

theorem faultFatal_within {M : Nat} {s0 : State} (s : State) (f : FaultRec) (hm : 251659562 ||| M = M)
    (h : Within M s0 s) : Within M s0 (faultFatal s f) := by
  refine h.after hm ?_
  clear h hm
  unfold faultFatal
  try dsimp only
  repeat' first
    | with_reducible exact Within.refl _ _
    | with_reducible refine raise_within _ _ _ _ _ _ (by decide) ?_
    | with_reducible refine nextTag_within _ (by decide) ?_
    | with_reducible refine faultWrite_within _ _ (by decide) ?_
    | with_reducible refine Within.ite ?_ ?_

end Sys2Proof.Machine
end

