-- ==== Sys2Proof/Laws/Access.lean ====
section
/-! SUPPORT. What each operation of Machine/Access.lean may change: see Laws/Within.lean. -/

namespace Sys2Proof.Machine

theorem engPiece_within {M : Nat} {s0 : State} (s : State) (va : Nat) (n : Nat) (hostOk : Bool) (alloc : Bool) (port : optParam Nat 0) (hm : 251659554 ||| M = M)
    (h : Within M s0 s) : Within M s0 (engPiece s va n hostOk alloc port).2 := by
  refine h.after hm ?_
  clear h hm
  unfold engPiece
  try dsimp only
  repeat' first
    | with_reducible exact Within.refl _ _
    | with_reducible refine translate_within _ _ _ _ _ (by decide) ?_
    | with_reducible refine readPA_within _ _ _ _ (by decide) ?_
    | with_reducible refine Within.iteSnd ?_ ?_
    | split

theorem engRead_within {M : Nat} {s0 : State} (s : State) (va : Nat) (n : Nat) (hostOk : Bool) (alloc : Bool) (port : optParam Nat 0) (hm : 251659554 ||| M = M)
    (h : Within M s0 s) : Within M s0 (engRead s va n hostOk alloc port).2 := by
  refine h.after hm ?_
  clear h hm
  unfold engRead
  try dsimp only
  repeat' first
    | with_reducible exact Within.refl _ _
    | with_reducible refine engPiece_within _ _ _ _ _ _ (by decide) ?_
    | with_reducible refine Within.foldlSnd _ ?_ _ ?_
    | split
    | with_reducible intro _

theorem putPlace_within {M : Nat} {s0 : State} (s : State) (x : Xl) (bs : List Byte) (hm : 788529954 ||| M = M)
    (h : Within M s0 s) : Within M s0 (putPlace s x bs) := by
  refine h.after hm ?_
  clear h hm
  unfold putPlace
  try dsimp only
  repeat' first
    | with_reducible exact Within.refl _ _
    | with_reducible refine writePA_within _ _ _ (by decide) ?_
    | with_reducible refine hostWrite_within _ _ _ (by decide) ?_
    | split

theorem putPoison_within {M : Nat} {s0 : State} (s : State) (x : Xl) (n : Nat) (hm : 570426112 ||| M = M)
    (h : Within M s0 s) : Within M s0 (putPoison s x n) := by
  refine h.after hm ?_
  clear h hm
  unfold putPoison
  try dsimp only
  repeat' first
    | with_reducible exact Within.refl _ _
    | with_reducible refine each_within _ _ _ (by decide) ?_ ?_
    | with_reducible refine writePoison_within _ _ (by decide) ?_
    | with_reducible refine hostWrite_within _ _ _ (by decide) ?_
    | split
    | with_reducible intro _

theorem readContainer_within {M : Nat} {s0 : State} (s : State) (base : Nat) (port : optParam Nat 0) (hm : 251659554 ||| M = M)
    (h : Within M s0 s) : Within M s0 (readContainer s base port).2.2 := by
  refine h.after hm ?_
  clear h hm
  unfold readContainer
  try dsimp only
  repeat' first
    | with_reducible exact Within.refl _ _
    | with_reducible refine engRead_within _ _ _ _ _ _ (by decide) ?_
    | split

theorem readUnit_within {M : Nat} {s0 : State} (s : State) (base : Nat) (c : Container) (k : Nat) (port : optParam Nat 0) (hm : 251659554 ||| M = M)
    (h : Within M s0 s) : Within M s0 (readUnit s base c k port).2 := by
  refine h.after hm ?_
  clear h hm
  unfold readUnit
  try dsimp only
  repeat' first
    | with_reducible exact Within.refl _ _
    | with_reducible refine engRead_within _ _ _ _ _ _ (by decide) ?_
    | with_reducible refine Within.iteSnd ?_ ?_
    | split

end Sys2Proof.Machine
end

