-- ==== Sys2Proof/Laws/KeepAlive.lean ====
section
/-! SUPPORT. What each operation of Machine/KeepAlive.lean may change: see Laws/Within.lean. -/

namespace Sys2Proof.Machine

theorem blocksOff_within {M : Nat} {s0 : State} (s : State) (hm : 408907648 ||| M = M)
    (h : Within M s0 s) : Within M s0 (blocksOff s) := by
  refine h.after hm ?_
  clear h hm
  apply Within.mk' (t := s) rfl (Within.refl _ _)
    <;> first | exact .inl (by decide) | with_reducible exact .inr rfl | with_reducible exact .inl rfl | (left; simp [memOff]; done) | exact fun _ => rfl | with_reducible exact id | exact ⟨Nat.le_refl _, rfl, fun _ h => h⟩

theorem traceOff_within {M : Nat} {s0 : State} (s : State) (hm : 117440546 ||| M = M)
    (h : Within M s0 s) : Within M s0 (traceOff s) := by
  refine h.after hm ?_
  clear h hm
  unfold traceOff
  try dsimp only
  repeat' first
    | with_reducible exact Within.refl _ _
    | with_reducible assumption
    | with_reducible refine raise_within _ _ _ _ _ _ (by decide) ?_
    | with_reducible refine ctrAdd_within _ _ _ (by decide) ?_
    | with_reducible refine Within.ite ?_ ?_
    | with_reducible refine Within.at_obs (by decide)  ?_
    | split
    | with_reducible intro _
    | with_reducible dsimp only

theorem eventRingOff_within {M : Nat} {s0 : State} (s : State) (hm : 67108864 ||| M = M)
    (h : Within M s0 s) : Within M s0 (eventRingOff s) := by
  refine h.after hm ?_
  clear h hm
  unfold eventRingOff
  try dsimp only
  repeat' first
    | with_reducible exact Within.refl _ _
    | with_reducible assumption
    | with_reducible refine Within.at_ev (by decide) (by first | exact fun he => Nat.le_trans (evPurge_length _ _ _) (by simpa using he)) ?_
    | with_reducible intro _
    | with_reducible dsimp only

theorem enterKeepalive_within {M : Nat} {s0 : State} (s : State) (block : Nat) (num : Nat) (cause : Cause) (hm : 2673831842 ||| M = M)
    (h : Within M s0 s) : Within M s0 (enterKeepalive s block num cause) := by
  refine h.after hm ?_
  clear h hm
  unfold enterKeepalive
  try dsimp only
  repeat' first
    | with_reducible exact Within.refl _ _
    | with_reducible assumption
    | with_reducible refine traceOff_within _ (by decide) ?_
    | with_reducible refine ctrAdd_within _ _ _ (by decide) ?_
    | with_reducible refine eventRingOff_within _ (by decide) ?_
    | with_reducible refine blocksOff_within _ (by decide) ?_
    | with_reducible refine each_within _ _ _ (by decide) ?_ ?_
    | with_reducible refine raise_within _ _ _ _ _ _ (by decide) ?_
    | with_reducible refine Within.ite ?_ ?_
    | with_reducible refine Within.at_pwr (by decide) (by first | (left; simp; done) | (right; simp; done) | exact .inl rfl) (by first | with_reducible exact .inr rfl | exact .inl (by decide) | exact .inr rfl) ?_
    | split
    | with_reducible intro _
    | with_reducible dsimp only

theorem noteCool_within {M : Nat} {s0 : State} (s : State) (hm : 16777216 ||| M = M)
    (h : Within M s0 s) : Within M s0 (noteCool s) := by
  refine h.after hm ?_
  clear h hm
  unfold noteCool
  try dsimp only
  repeat' first
    | with_reducible exact Within.refl _ _
    | with_reducible assumption
    | with_reducible refine Within.ite ?_ ?_
    | with_reducible refine Within.at_pwr (by decide) (by first | (left; simp; done) | (right; simp; done) | exact .inl rfl) (by first | with_reducible exact .inr rfl | exact .inl (by decide) | exact .inr rfl) ?_
    | split
    | with_reducible intro _
    | with_reducible dsimp only

theorem raiseFatal_within {M : Nat} {s0 : State} (s : State) (block : Nat) (num : Nat) (l : BitVec 32) (detail : Word64) (cause : Cause) (hm : 2673831842 ||| M = M)
    (h : Within M s0 s) : Within M s0 (raiseFatal s block num l detail cause) := by
  refine h.after hm ?_
  clear h hm
  unfold raiseFatal
  try dsimp only
  repeat' first
    | with_reducible exact Within.refl _ _
    | with_reducible assumption
    | with_reducible refine enterKeepalive_within _ _ _ _ (by decide) ?_
    | with_reducible refine raise_within _ _ _ _ _ _ (by decide) ?_
    | with_reducible intro _
    | with_reducible dsimp only

end Sys2Proof.Machine
end

