-- ==== Sys2Proof/Laws/Channels.lean ====
section
/-! SUPPORT. What each operation of Machine/Channels.lean may change: see Laws/Within.lean. -/

namespace Sys2Proof.Machine

theorem eavesTimeout_within {M : Nat} {s0 : State} (sector : Nat) (s : State) (hm : 251658530 ||| M = M)
    (h : Within M s0 s) : Within M s0 (eavesTimeout sector s) := by
  refine h.after hm ?_
  clear h hm
  unfold eavesTimeout
  try dsimp only
  repeat' first
    | with_reducible exact Within.refl _ _
    | with_reducible refine eavesFlush_within _ _ (by decide) ?_
    | with_reducible refine Within.ite ?_ ?_
    | split

theorem errorsArise_within {M : Nat} {s0 : State} (found : List (Nat × EccKind)) (s : State) (hm : 256 ||| M = M)
    (h : Within M s0 s) : Within M s0 (errorsArise found s) := by
  refine h.after hm ?_
  clear h hm
  unfold errorsArise
  try dsimp only
  repeat' first
    | with_reducible exact Within.refl _ _
    | with_reducible refine Within.at_mem (by decide) (by (left; simp; done)) id (.inr rfl) ?_

theorem scrub_within {M : Nat} {s0 : State} (ch : Nat) (found : List (Nat × EccKind)) (s : State) (hm : 117440802 ||| M = M)
    (h : Within M s0 s) : Within M s0 (scrub ch found s) := by
  refine h.after hm ?_
  clear h hm
  unfold scrub
  try dsimp only
  repeat' first
    | with_reducible exact Within.refl _ _
    | with_reducible refine errorsArise_within _ _ (by decide) ?_
    | with_reducible refine each_within _ _ _ (by decide) ?_ ?_
    | with_reducible refine chanRead_within _ _ (by decide) ?_
    | with_reducible refine Within.ite ?_ ?_
    | with_reducible intro _

theorem stackSample_within {M : Nat} {s0 : State} (s : State) (n : Nat) (t : Int) (hm : 117440802 ||| M = M)
    (h : Within M s0 s) : Within M s0 (stackSample s n t) := by
  refine h.after hm ?_
  clear h hm
  unfold stackSample
  try dsimp only
  repeat' first
    | with_reducible exact Within.refl _ _
    | with_reducible refine ctrGauge_within _ _ _ (by decide) ?_
    | with_reducible refine raise_within _ _ _ _ _ _ (by decide) ?_
    | split
    | with_reducible refine Within.at_mem (by decide) (by (left; simp; done)) id (.inr rfl) ?_

theorem stackTemps_within {M : Nat} {s0 : State} (ts : List Int) (s : State) (hm : 2673831842 ||| M = M)
    (h : Within M s0 s) : Within M s0 (stackTemps ts s) := by
  refine h.after hm ?_
  clear h hm
  unfold stackTemps
  try dsimp only
  repeat' first
    | with_reducible exact Within.refl _ _
    | with_reducible refine noteCool_within _ (by decide) ?_
    | with_reducible refine each_within _ _ _ (by decide) ?_ ?_
    | with_reducible refine stackSample_within _ _ _ (by decide) ?_
    | with_reducible refine raiseFatal_within _ _ _ _ _ _ (by decide) ?_
    | with_reducible refine Within.ite ?_ ?_
    | split
    | with_reducible intro _

theorem channelFail_within {M : Nat} {s0 : State} (s : State) (ch : Nat) (hm : 2673831842 ||| M = M)
    (h : Within M s0 s) : Within M s0 (channelFail s ch) := by
  refine h.after hm ?_
  clear h hm
  unfold channelFail
  try dsimp only
  repeat' first
    | with_reducible exact Within.refl _ _
    | with_reducible refine raiseFatal_within _ _ _ _ _ _ (by decide) ?_
    | with_reducible refine Within.at_mem (by decide) (by (left; simp; done)) id (.inr rfl) ?_

theorem channelRetrain_within {M : Nat} {s0 : State} (ch : Nat) (drift : Bool) (s : State) (hm : 2673831842 ||| M = M)
    (h : Within M s0 s) : Within M s0 (channelRetrain ch drift s) := by
  refine h.after hm ?_
  clear h hm
  unfold channelRetrain
  try dsimp only
  repeat' first
    | with_reducible exact Within.refl _ _
    | with_reducible refine askRetrain_within _ _ (by decide) ?_
    | with_reducible refine channelFail_within _ _ (by decide) ?_
    | with_reducible refine Within.ite ?_ ?_
    | with_reducible refine Within.at_mem (by decide) (by (left; simp; done)) id (.inr rfl) ?_

theorem laneRepair_within {M : Nat} {s0 : State} (ch : Nat) (acc : State × Bool) (lane : Nat) (hm : 117440802 ||| M = M)
    (h : Within M s0 acc.1) : Within M s0 (laneRepair ch acc lane).1 := by
  refine h.after hm ?_
  clear h hm
  unfold laneRepair
  try dsimp only
  repeat' first
    | with_reducible exact Within.refl _ _
    | with_reducible refine raise_within _ _ _ _ _ _ (by decide) ?_
    | with_reducible refine Within.iteFst ?_ ?_
    | with_reducible refine Within.ite ?_ ?_
    | split
    | with_reducible refine Within.at_mem (by decide) (by (left; simp; done)) id (.inr rfl) ?_

theorem retrainDone_within {M : Nat} {s0 : State} (ch : Nat) (trained : Bool) (bad : List Nat) (s : State) (hm : 2673831842 ||| M = M)
    (h : Within M s0 s) : Within M s0 (retrainDone ch trained bad s) := by
  refine h.after hm ?_
  clear h hm
  unfold retrainDone
  try dsimp only
  repeat' first
    | with_reducible exact Within.refl _ _
    | with_reducible refine noteMaint_within _ _ _ (by decide) ?_
    | with_reducible refine laneRepair_within _ _ _ (by decide) ?_
    | with_reducible refine channelFail_within _ _ (by decide) ?_
    | with_reducible refine raise_within _ _ _ _ _ _ (by decide) ?_
    | with_reducible refine ctrAdd_within _ _ _ (by decide) ?_
    | with_reducible refine Within.foldlFst _ ?_ _ ?_
    | with_reducible refine Within.ite ?_ ?_
    | split
    | with_reducible refine Within.at_mem (by decide) (by (left; simp; done)) id (.inr rfl) ?_
    | with_reducible intro _

end Sys2Proof.Machine
end

