-- ==== Sys2Proof/Laws/Wire.lean ====
section
/-! SUPPORT. What each operation of Machine/Wire.lean may change: see Laws/Within.lean. -/

namespace Sys2Proof.Machine

theorem putFlit_within {M : Nat} {s0 : State} (s : State) (k : Nat) (slot : Nat) (cls : Nat) (kind : Nat) (sop : Bool) (eop : Bool) (lane : Bool) (order : Bool) (pay : BitVec 1936) (hm : 33562632 ||| M = M)
    (h : Within M s0 s) : Within M s0 (putFlit s k slot cls kind sop eop lane order pay) := by
  refine h.after hm ?_
  clear h hm
  unfold putFlit
  try dsimp only
  repeat' first
    | with_reducible exact Within.refl _ _
    | with_reducible refine modLink_within _ _ _ (by decide) ?_
    | with_reducible refine emit_within _ _ (by decide) ?_
    | with_reducible refine ctrAdd_within _ _ _ (by decide) ?_

theorem sendFlit_within {M : Nat} {s0 : State} (s : State) (k : Nat) (t : Turn) (hm : 33562632 ||| M = M)
    (h : Within M s0 s) : Within M s0 (sendFlit s k t) := by
  refine h.after hm ?_
  clear h hm
  unfold sendFlit
  try dsimp only
  repeat' first
    | with_reducible exact Within.refl _ _
    | with_reducible refine modLink_within _ _ _ (by decide) ?_
    | with_reducible refine putFlit_within _ _ _ _ _ _ _ _ _ _ (by decide) ?_
    | with_reducible refine ctrAdd_within _ _ _ (by decide) ?_
    | with_reducible refine Within.ite ?_ ?_

theorem sendBare_within {M : Nat} {s0 : State} (s : State) (k : Nat) (kind : Nat) (hm : 33562632 ||| M = M)
    (h : Within M s0 s) : Within M s0 (sendBare s k kind) := by
  refine h.after hm ?_
  clear h hm
  unfold sendBare
  try dsimp only
  repeat' first
    | with_reducible exact Within.refl _ _
    | with_reducible refine putFlit_within _ _ _ _ _ _ _ _ _ _ (by decide) ?_
    | with_reducible refine Within.ite ?_ ?_

theorem drainLink_within {M : Nat} {s0 : State} (k : Nat) (a1 : Nat) (a2 : State) (hm : 33562632 ||| M = M)
    (h : Within M s0 a2) : Within M s0 (drainLink k a1 a2) := by
  refine h.after hm ?_
  clear h hm
  induction a1 generalizing k a2 with
  | zero =>
    unfold drainLink
    try dsimp only
    repeat' first
      | with_reducible exact Within.refl _ _
  | succ n ih =>
    unfold drainLink
    try dsimp only
    repeat' first
      | with_reducible exact Within.refl _ _
      | with_reducible refine Within.trans ?_ (ih _ _)
      | with_reducible refine sendFlit_within _ _ _ (by decide) ?_
      | with_reducible refine ctrAdd_within _ _ _ (by decide) ?_
      | with_reducible refine Within.ite ?_ ?_
      | split

theorem drain_within {M : Nat} {s0 : State} (s : State) (k : Nat) (hm : 33562632 ||| M = M)
    (h : Within M s0 s) : Within M s0 (drain s k) := by
  refine h.after hm ?_
  clear h hm
  unfold drain
  try dsimp only
  repeat' first
    | with_reducible exact Within.refl _ _
    | with_reducible refine drainLink_within _ _ _ (by decide) ?_

theorem dropAt_within {M : Nat} {s0 : State} (s : State) (p : Nat) (hm : 117456930 ||| M = M)
    (h : Within M s0 s) : Within M s0 (dropAt s p) := by
  refine h.after hm ?_
  clear h hm
  unfold dropAt
  try dsimp only
  repeat' first
    | with_reducible exact Within.refl _ _
    | with_reducible refine ctrAdd_within _ _ _ (by decide) ?_
    | with_reducible refine raise_within _ _ _ _ _ _ (by decide) ?_
    | with_reducible refine modPort_within _ _ _ (by decide) ?_
    | with_reducible refine Within.ite ?_ ?_

theorem sendOut_within {M : Nat} {s0 : State} (s : State) (from' : Nat) (p : Nat) (cls : Nat) (hdr : BitVec 128) (lane : Bool) (payload : List Byte) (hm : 117465130 ||| M = M)
    (h : Within M s0 s) : Within M s0 (sendOut s from' p cls hdr lane payload) := by
  refine h.after hm ?_
  clear h hm
  unfold sendOut
  try dsimp only
  repeat' first
    | with_reducible exact Within.refl _ _
    | with_reducible refine modPort_within _ _ _ (by decide) ?_
    | with_reducible refine modLink_within _ _ _ (by decide) ?_
    | with_reducible refine drain_within _ _ (by decide) ?_
    | with_reducible refine dropAt_within _ _ (by decide) ?_
    | split

theorem sendOn_within {M : Nat} {s0 : State} (s : State) (from' : Nat) (cls : Nat) (hdr : BitVec 128) (payload : List Byte) (hm : 117465130 ||| M = M)
    (h : Within M s0 s) : Within M s0 (sendOn s from' cls hdr payload) := by
  refine h.after hm ?_
  clear h hm
  unfold sendOn
  try dsimp only
  repeat' first
    | with_reducible exact Within.refl _ _
    | with_reducible refine sendOut_within _ _ _ _ _ _ _ (by decide) ?_
    | split

theorem inject_within {M : Nat} {s0 : State} (s : State) (dstIdx : Nat) (pclass : Nat) (b : Body) (hm : 117465130 ||| M = M)
    (h : Within M s0 s) : Within M s0 (inject s dstIdx pclass b) := by
  refine h.after hm ?_
  clear h hm
  unfold inject
  try dsimp only
  repeat' first
    | with_reducible exact Within.refl _ _
    | with_reducible refine sendOn_within _ _ _ _ _ (by decide) ?_
    | with_reducible refine emit_within _ _ (by decide) ?_
    | with_reducible refine drew_within _ (by decide) ?_
    | with_reducible refine Within.ite ?_ ?_
    | split

end Sys2Proof.Machine
end

