-- ==== Sys2Proof/Laws/Links.lean ====
section
/-! SUPPORT. What each operation of Machine/Links.lean may change: see Laws/Within.lean. -/

namespace Sys2Proof.Machine

theorem trainLink_within {M : Nat} {s0 : State} (k : Nat) (s : State) (hm : 8200 ||| M = M)
    (h : Within M s0 s) : Within M s0 (trainLink k s) := by
  refine h.after hm ?_
  clear h hm
  unfold trainLink
  try dsimp only
  repeat' first
    | with_reducible exact Within.refl _ _
    | with_reducible assumption
    | with_reducible refine emit_within _ _ (by decide) ?_
    | with_reducible refine modLink_within _ _ _ (by decide) ?_
    | with_reducible refine Within.ite ?_ ?_
    | split
    | with_reducible intro _
    | with_reducible dsimp only

theorem portCheck_within {M : Nat} {s0 : State} (p : Nat) (s : State) (hm : 117456930 ||| M = M)
    (h : Within M s0 s) : Within M s0 (portCheck p s) := by
  refine h.after hm ?_
  clear h hm
  unfold portCheck
  try dsimp only
  repeat' first
    | with_reducible exact Within.refl _ _
    | with_reducible assumption
    | with_reducible refine raise_within _ _ _ _ _ _ (by decide) ?_
    | with_reducible refine modPort_within _ _ _ (by decide) ?_
    | with_reducible refine Within.ite ?_ ?_
    | split
    | with_reducible intro _
    | with_reducible dsimp only

theorem linkOut_within {M : Nat} {s0 : State} (k : Nat) (s : State) (hm : 117465122 ||| M = M)
    (h : Within M s0 s) : Within M s0 (linkOut k s) := by
  refine h.after hm ?_
  clear h hm
  unfold linkOut
  try dsimp only
  repeat' first
    | with_reducible exact Within.refl _ _
    | with_reducible assumption
    | with_reducible refine portCheck_within _ _ (by decide) ?_
    | with_reducible refine modLink_within _ _ _ (by decide) ?_
    | with_reducible intro _
    | with_reducible dsimp only

theorem trainAll_within {M : Nat} {s0 : State} (s : State) (hm : 117465130 ||| M = M)
    (h : Within M s0 s) : Within M s0 (trainAll s) := by
  refine h.after hm ?_
  clear h hm
  unfold trainAll
  try dsimp only
  repeat' first
    | with_reducible exact Within.refl _ _
    | with_reducible assumption
    | with_reducible refine each_within _ _ _ (by decide) ?_ ?_
    | with_reducible refine linkOut_within _ _ (by decide) ?_
    | with_reducible refine trainLink_within _ _ (by decide) ?_
    | with_reducible refine Within.ite ?_ ?_
    | with_reducible refine Within.at_link_port (by decide) (by decide) (by first | (left; simp; done) | (right; simp; done) | exact .inl rfl) (by first | (left; simp; done) | (right; simp; done) | exact .inl rfl) ?_
    | split
    | with_reducible intro _
    | with_reducible dsimp only

theorem linkRetrain_within {M : Nat} {s0 : State} (k : Nat) (s : State) (hm : 117465130 ||| M = M)
    (h : Within M s0 s) : Within M s0 (linkRetrain k s) := by
  refine h.after hm ?_
  clear h hm
  unfold linkRetrain
  try dsimp only
  repeat' first
    | with_reducible exact Within.refl _ _
    | with_reducible assumption
    | with_reducible refine modLink_within _ _ _ (by decide) ?_
    | with_reducible refine ctrAdd_within _ _ _ (by decide) ?_
    | with_reducible refine trainLink_within _ _ (by decide) ?_
    | with_reducible refine portCheck_within _ _ (by decide) ?_
    | with_reducible refine Within.ite ?_ ?_
    | split
    | with_reducible intro _
    | with_reducible dsimp only

theorem badCodewords_within {M : Nat} {s0 : State} (k : Nat) (cause : LinkCause) (s : State) (hm : 33554434 ||| M = M)
    (h : Within M s0 s) : Within M s0 (badCodewords k cause s) := by
  refine h.after hm ?_
  clear h hm
  unfold badCodewords
  try dsimp only
  repeat' first
    | with_reducible exact Within.refl _ _
    | with_reducible assumption
    | with_reducible refine drew_within _ (by decide) ?_
    | with_reducible refine ctrAdd_within _ _ _ (by decide) ?_
    | with_reducible refine Within.ite ?_ ?_
    | with_reducible refine Within.ofSnd (by assumption) ?_
    | split
    | with_reducible intro _
    | with_reducible dsimp only

theorem trainingFailed_within {M : Nat} {s0 : State} (k : Nat) (s : State) (hm : 117465130 ||| M = M)
    (h : Within M s0 s) : Within M s0 (trainingFailed k s) := by
  refine h.after hm ?_
  clear h hm
  unfold trainingFailed
  try dsimp only
  repeat' first
    | with_reducible exact Within.refl _ _
    | with_reducible assumption
    | with_reducible refine trainLink_within _ _ (by decide) ?_
    | with_reducible refine modLink_within _ _ _ (by decide) ?_
    | with_reducible refine raise_within _ _ _ _ _ _ (by decide) ?_
    | with_reducible refine portCheck_within _ _ (by decide) ?_
    | with_reducible refine Within.ite ?_ ?_
    | split
    | with_reducible intro _
    | with_reducible dsimp only

theorem fencePort_within {M : Nat} {s0 : State} (p : Nat) (coord : BitVec 16) (s : State) (hm : 117465122 ||| M = M)
    (h : Within M s0 s) : Within M s0 (fencePort p coord s) := by
  refine h.after hm ?_
  clear h hm
  unfold fencePort
  try dsimp only
  repeat' first
    | with_reducible exact Within.refl _ _
    | with_reducible assumption
    | with_reducible refine each_within _ _ _ (by decide) ?_ ?_
    | with_reducible refine modLink_within _ _ _ (by decide) ?_
    | with_reducible refine raise_within _ _ _ _ _ _ (by decide) ?_
    | with_reducible refine modPort_within _ _ _ (by decide) ?_
    | with_reducible intro _
    | with_reducible dsimp only

theorem skewOut_within {M : Nat} {s0 : State} (k : Nat) (s : State) (hm : 117465122 ||| M = M)
    (h : Within M s0 s) : Within M s0 (skewOut k s) := by
  refine h.after hm ?_
  clear h hm
  unfold skewOut
  try dsimp only
  repeat' first
    | with_reducible exact Within.refl _ _
    | with_reducible assumption
    | with_reducible refine raise_within _ _ _ _ _ _ (by decide) ?_
    | with_reducible refine linkOut_within _ _ (by decide) ?_
    | with_reducible intro _
    | with_reducible dsimp only

theorem linkJoins_within {M : Nat} {s0 : State} (k : Nat) (latency : Nat) (coord : BitVec 16) (s : State) (hm : 117465130 ||| M = M)
    (h : Within M s0 s) : Within M s0 (linkJoins k latency coord s) := by
  refine h.after hm ?_
  clear h hm
  unfold linkJoins
  try dsimp only
  repeat' first
    | with_reducible exact Within.refl _ _
    | with_reducible assumption
    | with_reducible refine modLink_within _ _ _ (by decide) ?_
    | with_reducible refine skewOut_within _ _ (by decide) ?_
    | with_reducible refine modPort_within _ _ _ (by decide) ?_
    | with_reducible refine raise_within _ _ _ _ _ _ (by decide) ?_
    | with_reducible refine drain_within _ _ (by decide) ?_
    | with_reducible refine each_within _ _ _ (by decide) ?_ ?_
    | with_reducible refine Within.ite ?_ ?_
    | split
    | with_reducible intro _
    | with_reducible dsimp only

theorem trainingDone_within {M : Nat} {s0 : State} (k : Nat) (r : LinkTraining) (s : State) (hm : 117465130 ||| M = M)
    (h : Within M s0 s) : Within M s0 (trainingDone k r s) := by
  refine h.after hm ?_
  clear h hm
  unfold trainingDone
  try dsimp only
  repeat' first
    | with_reducible exact Within.refl _ _
    | with_reducible assumption
    | with_reducible refine trainingFailed_within _ _ (by decide) ?_
    | with_reducible refine linkJoins_within _ _ _ _ (by decide) ?_
    | with_reducible refine fencePort_within _ _ _ (by decide) ?_
    | with_reducible refine Within.ite ?_ ?_
    | with_reducible refine Within.ofSnd (by assumption) ?_
    | split
    | with_reducible intro _
    | with_reducible dsimp only

theorem coordWait_within {M : Nat} {s0 : State} (s : State) (hm : 117473314 ||| M = M)
    (h : Within M s0 s) : Within M s0 (coordWait s) := by
  refine h.after hm ?_
  clear h hm
  unfold coordWait
  try dsimp only
  repeat' first
    | with_reducible exact Within.refl _ _
    | with_reducible assumption
    | with_reducible refine raise_within _ _ _ _ _ _ (by decide) ?_
    | with_reducible refine Within.ite ?_ ?_
    | with_reducible refine Within.at_self (by decide)  ?_
    | split
    | with_reducible intro _
    | with_reducible dsimp only

theorem retryRequest_within {M : Nat} {s0 : State} (k : Nat) (fseq : BitVec 12) (s : State) (hm : 117465130 ||| M = M)
    (h : Within M s0 s) : Within M s0 (retryRequest k fseq s) := by
  refine h.after hm ?_
  clear h hm
  unfold retryRequest
  try dsimp only
  repeat' first
    | with_reducible exact Within.refl _ _
    | with_reducible assumption
    | with_reducible refine modLink_within _ _ _ (by decide) ?_
    | with_reducible refine ctrAdd_within _ _ _ (by decide) ?_
    | with_reducible refine raise_within _ _ _ _ _ _ (by decide) ?_
    | with_reducible refine each_within _ _ _ (by decide) ?_ ?_
    | with_reducible refine emit_within _ _ (by decide) ?_
    | with_reducible refine linkRetrain_within _ _ (by decide) ?_
    | with_reducible refine Within.ite ?_ ?_
    | split
    | with_reducible intro _
    | with_reducible dsimp only

theorem askReplay_within {M : Nat} {s0 : State} (k : Nat) (s : State) (hm : 33562632 ||| M = M)
    (h : Within M s0 s) : Within M s0 (askReplay k s) := by
  refine h.after hm ?_
  clear h hm
  unfold askReplay
  try dsimp only
  repeat' first
    | with_reducible exact Within.refl _ _
    | with_reducible assumption
    | with_reducible refine sendBare_within _ _ _ (by decide) ?_
    | with_reducible intro _
    | with_reducible dsimp only

theorem takeFlit_within {M : Nat} {s0 : State} (k : Nat) (f : BitVec 2048) (s : State) (hm : 117465130 ||| M = M)
    (h : Within M s0 s) : Within M s0 (takeFlit k f s) := by
  refine h.after hm ?_
  clear h hm
  unfold takeFlit
  try dsimp only
  repeat' first
    | with_reducible exact Within.refl _ _
    | with_reducible assumption
    | with_reducible refine modLink_within _ _ _ (by decide) ?_
    | with_reducible refine drain_within _ _ (by decide) ?_
    | with_reducible refine ctrAdd_within _ _ _ (by decide) ?_
    | with_reducible refine retryRequest_within _ _ _ (by decide) ?_
    | with_reducible refine sendBare_within _ _ _ (by decide) ?_
    | with_reducible refine Within.ite ?_ ?_
    | split
    | with_reducible intro _
    | with_reducible dsimp only

theorem flitReceive_within {M : Nat} {s0 : State} (k : Nat) (f : BitVec 2048) (s : State) (hm : 117465130 ||| M = M)
    (h : Within M s0 s) : Within M s0 (flitReceive k f s) := by
  refine h.after hm ?_
  clear h hm
  unfold flitReceive
  try dsimp only
  repeat' first
    | with_reducible exact Within.refl _ _
    | with_reducible assumption
    | with_reducible refine askReplay_within _ _ (by decide) ?_
    | with_reducible refine takeFlit_within _ _ _ (by decide) ?_
    | with_reducible refine Within.ite ?_ ?_
    | split
    | with_reducible intro _
    | with_reducible dsimp only

theorem dropForeign_within {M : Nat} {s0 : State} (p : Nat) (s : State) (hm : 117440546 ||| M = M)
    (h : Within M s0 s) : Within M s0 (dropForeign p s) := by
  refine h.after hm ?_
  clear h hm
  unfold dropForeign
  try dsimp only
  repeat' first
    | with_reducible exact Within.refl _ _
    | with_reducible assumption
    | with_reducible refine raise_within _ _ _ _ _ _ (by decide) ?_
    | with_reducible refine ctrAdd_within _ _ _ (by decide) ?_
    | with_reducible intro _
    | with_reducible dsimp only

theorem routePacket_within {M : Nat} {s0 : State} (p : Nat) (hdr : BitVec 128) (payload : List Byte) (s : State) (hm : 117465130 ||| M = M)
    (h : Within M s0 s) : Within M s0 (routePacket p hdr payload s) := by
  refine h.after hm ?_
  clear h hm
  unfold routePacket
  try dsimp only
  repeat' first
    | with_reducible exact Within.refl _ _
    | with_reducible assumption
    | with_reducible refine emit_within _ _ (by decide) ?_
    | with_reducible refine dropForeign_within _ _ (by decide) ?_
    | with_reducible refine sendOn_within _ _ _ _ _ (by decide) ?_
    | with_reducible refine Within.ite ?_ ?_
    | split
    | with_reducible intro _
    | with_reducible dsimp only

theorem deliverHeld_within {M : Nat} {s0 : State} (p : Nat) (cls : Nat) (a1 : Nat) (a2 : State) (hm : 117465130 ||| M = M)
    (h : Within M s0 a2) : Within M s0 (deliverHeld p cls a1 a2) := by
  refine h.after hm ?_
  clear h hm
  induction a1 generalizing p cls a2 with
  | zero =>
    unfold deliverHeld
    try dsimp only
    repeat' first
      | with_reducible exact Within.refl _ _
      | with_reducible assumption
      | with_reducible refine modPort_within _ _ _ (by decide) ?_
      | with_reducible refine routePacket_within _ _ _ _ (by decide) ?_
      | with_reducible refine Within.ofSnd (by assumption) ?_
      | split
      | with_reducible intro _
      | with_reducible dsimp only
  | succ n ih =>
    unfold deliverHeld
    try dsimp only
    repeat' first
      | with_reducible exact Within.refl _ _
      | with_reducible assumption
      | with_reducible refine Within.trans ?_ (ih _ _ _)
      | with_reducible refine modPort_within _ _ _ (by decide) ?_
      | with_reducible refine routePacket_within _ _ _ _ (by decide) ?_
      | with_reducible refine Within.ofSnd (by assumption) ?_
      | split
      | with_reducible intro _
      | with_reducible dsimp only

theorem packetReceive_within {M : Nat} {s0 : State} (p : Nat) (hdr : BitVec 128) (payload : List Byte) (s : State) (hm : 117465130 ||| M = M)
    (h : Within M s0 s) : Within M s0 (packetReceive p hdr payload s) := by
  refine h.after hm ?_
  clear h hm
  unfold packetReceive
  try dsimp only
  repeat' first
    | with_reducible exact Within.refl _ _
    | with_reducible assumption
    | with_reducible refine modPort_within _ _ _ (by decide) ?_
    | with_reducible refine deliverHeld_within _ _ _ _ (by decide) ?_
    | with_reducible refine Within.ite ?_ ?_
    | split
    | with_reducible intro _
    | with_reducible dsimp only

end Sys2Proof.Machine
end

