-- ==== Sys2Proof/Laws/Yealms.lean ====
section
/-! SUPPORT. What each operation of Machine/Yealms.lean may change: see Laws/Within.lean. -/

namespace Sys2Proof.Machine

theorem catPut_within {M : Nat} {s0 : State} (s : State) (m : Nat) (offs : Nat) (bs : List Byte) (hm : 251663650 ||| M = M)
    (h : Within M s0 s) : Within M s0 (catPut s m offs bs) := by
  refine h.after hm ?_
  clear h hm
  unfold catPut
  try dsimp only
  repeat' first
    | with_reducible exact Within.refl _ _
    | with_reducible refine devWrite_within _ _ _ (by decide) ?_
    | with_reducible refine modWgt_within _ _ _ (by decide) ?_
    | with_reducible refine Within.ite ?_ ?_

theorem putStatus_within {M : Nat} {s0 : State} (s : State) (m : Nat) (va : Nat) (st : Nat) (hm : 251663650 ||| M = M)
    (h : Within M s0 s) : Within M s0 (putStatus s m va st) := by
  refine h.after hm ?_
  clear h hm
  unfold putStatus
  try dsimp only
  repeat' first
    | with_reducible exact Within.refl _ _
    | with_reducible refine devWrite_within _ _ _ (by decide) ?_
    | with_reducible refine modWgt_within _ _ _ (by decide) ?_

theorem yealmStatus_within {M : Nat} {s0 : State} (s : State) (m : Nat) (man : Manifest) (y : Nat) (st : Nat) (hm : 251663650 ||| M = M)
    (h : Within M s0 s) : Within M s0 (yealmStatus s m man y st) := by
  refine h.after hm ?_
  clear h hm
  unfold yealmStatus
  try dsimp only
  repeat' first
    | with_reducible exact Within.refl _ _
    | with_reducible refine putStatus_within _ _ _ _ (by decide) ?_

theorem catSync_within {M : Nat} {s0 : State} (s : State) (m : Nat) (hm : 251663650 ||| M = M)
    (h : Within M s0 s) : Within M s0 (catSync s m) := by
  refine h.after hm ?_
  clear h hm
  unfold catSync
  try dsimp only
  repeat' first
    | with_reducible exact Within.refl _ _
    | with_reducible refine modWgt_within _ _ _ (by decide) ?_
    | with_reducible refine each_within _ _ _ (by decide) ?_ ?_
    | with_reducible refine putStatus_within _ _ _ _ (by decide) ?_
    | with_reducible refine catPut_within _ _ _ _ (by decide) ?_
    | with_reducible intro _

theorem setState_within {M : Nat} {s0 : State} (s : State) (m : Nat) (st : Nat) (hm : 251663650 ||| M = M)
    (h : Within M s0 s) : Within M s0 (setState s m st) := by
  refine h.after hm ?_
  clear h hm
  unfold setState
  try dsimp only
  repeat' first
    | with_reducible exact Within.refl _ _
    | with_reducible refine modWgt_within _ _ _ (by decide) ?_
    | with_reducible refine catPut_within _ _ _ _ (by decide) ?_

theorem modCopy_within {M : Nat} {s0 : State} (s : State) (m : Nat) (gen : Nat) (f : WCopy → WCopy) (hm : 4096 ||| M = M)
    (h : Within M s0 s) : Within M s0 (modCopy s m gen f) := by
  refine h.after hm ?_
  clear h hm
  unfold modCopy
  try dsimp only
  repeat' first
    | with_reducible exact Within.refl _ _
    | with_reducible refine modWgt_within _ _ _ (by decide) ?_

theorem putPoisoned_within {M : Nat} {s0 : State} (s : State) (m : Nat) (hm : 251663650 ||| M = M)
    (h : Within M s0 s) : Within M s0 (putPoisoned s m) := by
  refine h.after hm ?_
  clear h hm
  unfold putPoisoned
  try dsimp only
  repeat' first
    | with_reducible exact Within.refl _ _
    | with_reducible refine catPut_within _ _ _ _ (by decide) ?_

theorem setHealth_within {M : Nat} {s0 : State} (s : State) (m : Nat) (st : Nat) (hm : 251663650 ||| M = M)
    (h : Within M s0 s) : Within M s0 (setHealth s m st) := by
  refine h.after hm ?_
  clear h hm
  unfold setHealth
  try dsimp only
  repeat' first
    | with_reducible exact Within.refl _ _
    | with_reducible refine setState_within _ _ _ (by decide) ?_
    | with_reducible refine modWgt_within _ _ _ (by decide) ?_
    | with_reducible refine Within.ite ?_ ?_

theorem yealmPoisoned_within {M : Nat} {s0 : State} (s : State) (m : Nat) (y : Nat) (hm : 251663650 ||| M = M)
    (h : Within M s0 s) : Within M s0 (yealmPoisoned s m y) := by
  refine h.after hm ?_
  clear h hm
  unfold yealmPoisoned
  try dsimp only
  repeat' first
    | with_reducible exact Within.refl _ _
    | with_reducible refine modCopy_within _ _ _ _ (by decide) ?_
    | with_reducible refine raise_within _ _ _ _ _ _ (by decide) ?_
    | with_reducible refine yealmStatus_within _ _ _ _ _ (by decide) ?_
    | with_reducible refine putPoisoned_within _ _ (by decide) ?_
    | with_reducible refine setHealth_within _ _ _ (by decide) ?_
    | with_reducible refine Within.ite ?_ ?_
    | split

theorem copyPoisoned_within {M : Nat} {s0 : State} (s : State) (va : Nat) (n : Nat) (hm : 251663650 ||| M = M)
    (h : Within M s0 s) : Within M s0 (copyPoisoned s va n) := by
  refine h.after hm ?_
  clear h hm
  unfold copyPoisoned
  try dsimp only
  repeat' first
    | with_reducible exact Within.refl _ _
    | with_reducible refine each_within _ _ _ (by decide) ?_ ?_
    | with_reducible refine yealmPoisoned_within _ _ _ (by decide) ?_
    | split
    | with_reducible intro _

end Sys2Proof.Machine
end

