-- ==== Sys2Proof/Laws/Ops.lean ====
section
/-! SUPPORT. What each operation of Machine/Ops.lean may change: see Laws/Within.lean. -/

namespace Sys2Proof.Machine

theorem modItem_within {M : Nat} {s0 : State} (s : State) (slot : Nat) (num : Nat) (f : Item → Item) (hm : 64 ||| M = M)
    (h : Within M s0 s) : Within M s0 (modItem s slot num f) := by
  refine h.after hm ?_
  clear h hm
  unfold modItem
  try dsimp only
  repeat' first
    | with_reducible exact Within.refl _ _
    | with_reducible refine modSeq_within _ _ _ (by decide) ?_

theorem writeDone_within {M : Nat} {s0 : State} (s : State) (i : Item) (k : Nat) (hm : 251659554 ||| M = M)
    (h : Within M s0 s) : Within M s0 (writeDone s i k) := by
  refine h.after hm ?_
  clear h hm
  unfold writeDone
  try dsimp only
  repeat' first
    | with_reducible exact Within.refl _ _
    | with_reducible refine devPut_within _ _ _ (by decide) ?_
    | with_reducible refine Within.ite ?_ ?_

theorem modThr_within {M : Nat} {s0 : State} (s : State) (c : Nat) (t : Nat) (f : Thread → Thread) (hm : 128 ||| M = M)
    (h : Within M s0 s) : Within M s0 (modThr s c t f) := by
  refine h.after hm ?_
  clear h hm
  unfold modThr
  try dsimp only
  repeat' first
    | with_reducible exact Within.refl _ _
    | with_reducible refine modCl_within _ _ _ (by decide) ?_

theorem wait_within {M : Nat} {s0 : State} (s : State) (c : Nat) (t : Nat) (w : Wait) (hm : 128 ||| M = M)
    (h : Within M s0 s) : Within M s0 (wait s c t w) := by
  refine h.after hm ?_
  clear h hm
  unfold wait
  try dsimp only
  repeat' first
    | with_reducible exact Within.refl _ _
    | with_reducible refine modThr_within _ _ _ _ (by decide) ?_

theorem ready_within {M : Nat} {s0 : State} (s : State) (c : Nat) (t : Nat) (hm : 128 ||| M = M)
    (h : Within M s0 s) : Within M s0 (ready s c t) := by
  refine h.after hm ?_
  clear h hm
  unfold ready
  try dsimp only
  repeat' first
    | with_reducible exact Within.refl _ _
    | with_reducible refine modThr_within _ _ _ _ (by decide) ?_

theorem dropThreads_within {M : Nat} {s0 : State} (s : State) (num : Nat) (hm : 128 ||| M = M)
    (h : Within M s0 s) : Within M s0 (dropThreads s num) := by
  refine h.after hm ?_
  clear h hm
  unfold dropThreads
  try dsimp only
  repeat' first
    | with_reducible exact Within.refl _ _
    | with_reducible refine Within.at_cl (by decide) (by (left; simp; done)) ?_

theorem suspendThreads_within {M : Nat} {s0 : State} (s : State) (num : Nat) (hm : 128 ||| M = M)
    (h : Within M s0 s) : Within M s0 (suspendThreads s num) := by
  refine h.after hm ?_
  clear h hm
  unfold suspendThreads
  try dsimp only
  repeat' first
    | with_reducible exact Within.refl _ _
    | with_reducible refine Within.at_cl (by decide) (by (left; simp; done)) ?_

theorem freeSuspended_within {M : Nat} {s0 : State} (s : State) (num : Nat) (hm : 128 ||| M = M)
    (h : Within M s0 s) : Within M s0 (freeSuspended s num) := by
  refine h.after hm ?_
  clear h hm
  unfold freeSuspended
  try dsimp only
  repeat' first
    | with_reducible exact Within.refl _ _
    | with_reducible refine Within.at_cl (by decide) (by (left; simp; done)) ?_

theorem removeItem_within {M : Nat} {s0 : State} (s : State) (slot : Nat) (num : Nat) (hm : 4288 ||| M = M)
    (h : Within M s0 s) : Within M s0 (removeItem s slot num) := by
  refine h.after hm ?_
  clear h hm
  unfold removeItem
  try dsimp only
  repeat' first
    | with_reducible exact Within.refl _ _
    | with_reducible refine dropThreads_within _ _ (by decide) ?_
    | with_reducible refine Within.at_seq_wgt (by decide) (by decide) (by (left; simp; done)) (by (left; simp; done)) ?_

theorem spoil_within {M : Nat} {s0 : State} (item : Nat) (s : State) (hm : 64 ||| M = M)
    (h : Within M s0 s) : Within M s0 (spoil item s) := by
  refine h.after hm ?_
  clear h hm
  unfold spoil
  try dsimp only
  repeat' first
    | with_reducible exact Within.refl _ _
    | with_reducible refine Within.at_seq (by decide) (by (left; simp; done)) ?_

theorem modAny_within {M : Nat} {s0 : State} (s : State) (c : Nat) (t : Nat) (item : Nat) (f : Thread → Thread) (hm : 192 ||| M = M)
    (h : Within M s0 s) : Within M s0 (modAny s c t item f) := by
  refine h.after hm ?_
  clear h hm
  unfold modAny
  try dsimp only
  repeat' first
    | with_reducible exact Within.refl _ _
    | with_reducible refine modThr_within _ _ _ _ (by decide) ?_
    | with_reducible refine Within.ite ?_ ?_
    | with_reducible refine Within.at_seq (by decide) (by (left; simp; done)) ?_

theorem wake_within {M : Nat} {s0 : State} (s : State) (c : Nat) (t : Nat) (item : Nat) (hm : 128 ||| M = M)
    (h : Within M s0 s) : Within M s0 (wake s c t item) := by
  refine h.after hm ?_
  clear h hm
  unfold wake
  try dsimp only
  repeat' first
    | with_reducible exact Within.refl _ _
    | with_reducible refine ready_within _ _ _ (by decide) ?_
    | with_reducible refine Within.ite ?_ ?_

theorem wakeIssuer_within {M : Nat} {s0 : State} (s : State) (a1 : Issuer) (hm : 128 ||| M = M)
    (h : Within M s0 s) : Within M s0 (wakeIssuer s a1) := by
  refine h.after hm ?_
  clear h hm
  unfold wakeIssuer
  try dsimp only
  repeat' first
    | with_reducible exact Within.refl _ _
    | with_reducible refine wake_within _ _ _ _ (by decide) ?_
    | split

theorem finishCmd_within {M : Nat} {s0 : State} (s : State) (e : Nat) (c : DmaCmd) (status : Nat) (rec16 : List Byte) (hm : 251659690 ||| M = M)
    (h : Within M s0 s) : Within M s0 (finishCmd s e c status rec16) := by
  refine h.after hm ?_
  clear h hm
  unfold finishCmd
  try dsimp only
  repeat' first
    | with_reducible exact Within.refl _ _
    | with_reducible refine devPut_within _ _ _ (by decide) ?_
    | with_reducible refine msix_within _ _ (by decide) ?_
    | with_reducible refine ctrAdd_within _ _ _ (by decide) ?_
    | with_reducible refine trace_within _ _ _ _ _ (by decide) ?_
    | with_reducible refine wakeIssuer_within _ _ (by decide) ?_
    | with_reducible refine Within.ite ?_ ?_

theorem poisonReport_within {M : Nat} {s0 : State} (c : DmaCmd) (s : State) (hm : 251663714 ||| M = M)
    (h : Within M s0 s) : Within M s0 (poisonReport c s) := by
  refine h.after hm ?_
  clear h hm
  unfold poisonReport
  try dsimp only
  repeat' first
    | with_reducible exact Within.refl _ _
    | with_reducible refine copyPoisoned_within _ _ _ (by decide) ?_
    | with_reducible refine spoil_within _ _ (by decide) ?_
    | with_reducible refine Within.ite ?_ ?_
    | split

theorem complete_within {M : Nat} {s0 : State} (s : State) (e : Nat) (c : DmaCmd) (status : Nat) (hm : 251663850 ||| M = M)
    (h : Within M s0 s) : Within M s0 (complete s e c status) := by
  refine h.after hm ?_
  clear h hm
  unfold complete
  try dsimp only
  repeat' first
    | with_reducible exact Within.refl _ _
    | with_reducible refine finishCmd_within _ _ _ _ _ (by decide) ?_
    | with_reducible refine poisonReport_within _ _ (by decide) ?_

theorem dropFault_within {M : Nat} {s0 : State} (s : State) (tag : BitVec 32) (hm : 1024 ||| M = M)
    (h : Within M s0 s) : Within M s0 (dropFault s tag) := by
  refine h.after hm ?_
  clear h hm
  unfold dropFault
  try dsimp only
  repeat' first
    | with_reducible exact Within.refl _ _
    | with_reducible refine Within.at_xlt (by decide)  ?_

theorem chargeSince_within {M : Nat} {s0 : State} (s : State) (slot : Nat) (since : Nat) (hm : 64 ||| M = M)
    (h : Within M s0 s) : Within M s0 (chargeSince s slot since) := by
  refine h.after hm ?_
  clear h hm
  unfold chargeSince
  try dsimp only
  repeat' first
    | with_reducible exact Within.refl _ _
    | with_reducible refine modSeq_within _ _ _ (by decide) ?_
    | with_reducible refine Within.ite ?_ ?_

theorem stallEnd_within {M : Nat} {s0 : State} (s : State) (e : Nat) (oldest : Nat) (hm : 2112 ||| M = M)
    (h : Within M s0 s) : Within M s0 (stallEnd s e oldest) := by
  refine h.after hm ?_
  clear h hm
  unfold stallEnd
  try dsimp only
  repeat' first
    | with_reducible exact Within.refl _ _
    | with_reducible refine modEng_within _ _ _ (by decide) ?_
    | with_reducible refine chargeSince_within _ _ _ (by decide) ?_
    | with_reducible refine Within.ite ?_ ?_
    | split

theorem abortOnEngine_within {M : Nat} {s0 : State} (num : Nat) (s : State) (e : Nat) (hm : 251665898 ||| M = M)
    (h : Within M s0 s) : Within M s0 (abortOnEngine num s e) := by
  refine h.after hm ?_
  clear h hm
  unfold abortOnEngine
  try dsimp only
  repeat' first
    | with_reducible exact Within.refl _ _
    | with_reducible refine modEng_within _ _ _ (by decide) ?_
    | with_reducible refine stallEnd_within _ _ _ (by decide) ?_
    | with_reducible refine each_within _ _ _ (by decide) ?_ ?_
    | with_reducible refine dropFault_within _ _ (by decide) ?_
    | with_reducible refine complete_within _ _ _ _ (by decide) ?_
    | with_reducible intro _

theorem abortOnCtx_within {M : Nat} {s0 : State} (num : Nat) (s : State) (x : Nat) (hm : 251925994 ||| M = M)
    (h : Within M s0 s) : Within M s0 (abortOnCtx num s x) := by
  refine h.after hm ?_
  clear h hm
  unfold abortOnCtx
  try dsimp only
  repeat' first
    | with_reducible exact Within.refl _ _
    | with_reducible refine modCtx_within _ _ _ (by decide) ?_
    | with_reducible refine each_within _ _ _ (by decide) ?_ ?_
    | with_reducible refine complete_within _ _ _ _ (by decide) ?_
    | with_reducible intro _

theorem colEnd_within {M : Nat} {s0 : State} (s : State) (q : Nat) (x : Collective) (status : Nat) (holes : List Nat) (hm : 251725218 ||| M = M)
    (h : Within M s0 s) : Within M s0 (colEnd s q x status holes) := by
  refine h.after hm ?_
  clear h hm
  unfold colEnd
  try dsimp only
  repeat' first
    | with_reducible exact Within.refl _ _
    | with_reducible refine devPut_within _ _ _ (by decide) ?_
    | with_reducible refine trace_within _ _ _ _ _ (by decide) ?_
    | with_reducible refine wakeIssuer_within _ _ (by decide) ?_
    | split
    | with_reducible refine Within.at_cl (by decide) (by (left; simp; done)) ?_
    | with_reducible refine Within.at_col (by decide)  ?_

theorem abortOnUnit_within {M : Nat} {s0 : State} (num : Nat) (s : State) (q : Nat) (hm : 251725218 ||| M = M)
    (h : Within M s0 s) : Within M s0 (abortOnUnit num s q) := by
  refine h.after hm ?_
  clear h hm
  unfold abortOnUnit
  try dsimp only
  repeat' first
    | with_reducible exact Within.refl _ _
    | with_reducible refine each_within _ _ _ (by decide) ?_ ?_
    | with_reducible refine colEnd_within _ _ _ _ _ (by decide) ?_
    | with_reducible intro _

theorem withdraw_within {M : Nat} {s0 : State} (s : State) (num : Nat) (hm : 1024 ||| M = M)
    (h : Within M s0 s) : Within M s0 (withdraw s num) := by
  refine h.after hm ?_
  clear h hm
  unfold withdraw
  try dsimp only
  repeat' first
    | with_reducible exact Within.refl _ _
    | with_reducible refine Within.at_xlt (by decide)  ?_

theorem noteCharge_within {M : Nat} {s0 : State} (s : State) (slot : Nat) (hm : 64 ||| M = M)
    (h : Within M s0 s) : Within M s0 (noteCharge s slot) := by
  refine h.after hm ?_
  clear h hm
  unfold noteCharge
  try dsimp only
  repeat' first
    | with_reducible exact Within.refl _ _
    | with_reducible refine modSeq_within _ _ _ (by decide) ?_

theorem terminate_within {M : Nat} {s0 : State} (s : State) (slot : Nat) (num : Nat) (x : FaultCause) (named : optParam Bool true) (hm : 251993578 ||| M = M)
    (h : Within M s0 s) : Within M s0 (terminate s slot num x named) := by
  refine h.after hm ?_
  clear h hm
  unfold terminate
  try dsimp only
  repeat' first
    | with_reducible exact Within.refl _ _
    | with_reducible refine dropThreads_within _ _ (by decide) ?_
    | with_reducible refine suspendThreads_within _ _ (by decide) ?_
    | with_reducible refine withdraw_within _ _ (by decide) ?_
    | with_reducible refine noteCharge_within _ _ (by decide) ?_
    | with_reducible refine each_within _ _ _ (by decide) ?_ ?_
    | with_reducible refine abortOnEngine_within _ _ _ (by decide) ?_
    | with_reducible refine abortOnCtx_within _ _ _ (by decide) ?_
    | with_reducible refine abortOnUnit_within _ _ _ (by decide) ?_
    | with_reducible refine devPut_within _ _ _ (by decide) ?_
    | with_reducible refine modItem_within _ _ _ _ (by decide) ?_
    | with_reducible refine modSeq_within _ _ _ (by decide) ?_
    | with_reducible refine raise_within _ _ _ _ _ _ (by decide) ?_
    | with_reducible refine freeSuspended_within _ _ (by decide) ?_
    | with_reducible refine Within.ite ?_ ?_
    | split
    | with_reducible intro _

theorem threadFault_within {M : Nat} {s0 : State} (s : State) (c : Nat) (t : Nat) (pc : Word64) (block : Nat) (num : Nat) (code : optParam Nat 0) (place : optParam Nat 0) (hm : 251993578 ||| M = M)
    (h : Within M s0 s) : Within M s0 (threadFault s c t pc block num code place) := by
  refine h.after hm ?_
  clear h hm
  unfold threadFault
  try dsimp only
  repeat' first
    | with_reducible exact Within.refl _ _
    | with_reducible refine raise_within _ _ _ _ _ _ (by decide) ?_
    | with_reducible refine terminate_within _ _ _ _ _ (by decide) ?_

theorem threadEnd_within {M : Nat} {s0 : State} (s : State) (c : Nat) (t : Nat) (pc : Word64) (block : Nat) (num : Nat) (place : optParam Nat 0) (hm : 251993578 ||| M = M)
    (h : Within M s0 s) : Within M s0 (threadEnd s c t pc block num place) := by
  refine h.after hm ?_
  clear h hm
  unfold threadEnd
  try dsimp only
  repeat' first
    | with_reducible exact Within.refl _ _
    | with_reducible refine terminate_within _ _ _ _ _ (by decide) ?_

theorem fetchXl_within {M : Nat} {s0 : State} (s : State) (c : Nat) (pc : Word64) (nbytes : Nat) (hm : 251659554 ||| M = M)
    (h : Within M s0 s) : Within M s0 (fetchXl s c pc nbytes).2 := by
  refine h.after hm ?_
  clear h hm
  unfold fetchXl
  try dsimp only
  repeat' first
    | with_reducible exact Within.refl _ _
    | with_reducible refine translate_within _ _ _ _ _ (by decide) ?_
    | with_reducible refine Within.iteSnd ?_ ?_
    | split

theorem threadXl_within {M : Nat} {s0 : State} (s : State) (c : Nat) (t : Nat) (pc : Word64) (kind : Nat) (va : Nat) (x : Xl) (hm : 251993578 ||| M = M)
    (h : Within M s0 s) : Within M s0 (threadXl s c t pc kind va x) := by
  refine h.after hm ?_
  clear h hm
  unfold threadXl
  try dsimp only
  repeat' first
    | with_reducible exact Within.refl _ _
    | with_reducible refine faultRetry_within _ _ (by decide) ?_
    | with_reducible refine modThr_within _ _ _ _ (by decide) ?_
    | with_reducible refine wait_within _ _ _ _ (by decide) ?_
    | with_reducible refine threadEnd_within _ _ _ _ _ _ _ (by decide) ?_
    | with_reducible refine faultFatal_within _ _ (by decide) ?_
    | split

theorem issue_within {M : Nat} {s0 : State} (s : State) (c : Nat) (nbytes : Nat) (body : Nat → Word64 → State → State) (hm : 251993578 ||| M = M) (h_body : ∀ v0 v1 v2, Within M v2 (body v0 v1 v2))
    (h : Within M s0 s) : Within M s0 (issue s c nbytes body) := by
  unfold issue
  try dsimp only
  repeat' first
    | with_reducible assumption
    | with_reducible refine modCl_within _ _ _ (maskSub (by decide) hm) ?_
    | with_reducible refine threadFault_within _ _ _ _ _ _ _ _ (maskSub (by decide) hm) ?_
    | with_reducible refine fetchXl_within _ _ _ _ (maskSub (by decide) hm) ?_
    | with_reducible refine threadXl_within _ _ _ _ _ _ _ (maskSub (by decide) hm) ?_
    | with_reducible refine Within.trans ?_ (h_body _ _ _)
    | with_reducible refine Within.ite ?_ ?_
    | split

theorem issueFault_within {M : Nat} {s0 : State} (s : State) (c : Nat) (t : Nat) (pc : Word64) (block : Nat) (num : Nat) (hm : 251993578 ||| M = M)
    (h : Within M s0 s) : Within M s0 (issueFault s c t pc block num) := by
  refine h.after hm ?_
  clear h hm
  unfold issueFault
  try dsimp only
  repeat' first
    | with_reducible exact Within.refl _ _
    | with_reducible refine threadFault_within _ _ _ _ _ _ _ _ (by decide) ?_
    | with_reducible refine drew_within _ (by decide) ?_

theorem setPc_within {M : Nat} {s0 : State} (s : State) (c : Nat) (t : Nat) (pc : Word64) (hm : 128 ||| M = M)
    (h : Within M s0 s) : Within M s0 (setPc s c t pc) := by
  refine h.after hm ?_
  clear h hm
  unfold setPc
  try dsimp only
  repeat' first
    | with_reducible exact Within.refl _ _
    | with_reducible refine modThr_within _ _ _ _ (by decide) ?_

end Sys2Proof.Machine
end

