-- ==== Sys2Proof/Laws/Ring.lean ====
section
/-! SUPPORT. What each operation of Machine/Ring.lean may change: see Laws/Within.lean. -/

namespace Sys2Proof.Machine

theorem readRing_within {M : Nat} {s0 : State} (s : State) (slot : Nat) (hm : 251659554 ||| M = M)
    (h : Within M s0 s) : Within M s0 (readRing s slot).2 := by
  refine h.after hm ?_
  clear h hm
  unfold readRing
  try dsimp only
  repeat' first
    | with_reducible exact Within.refl _ _
    | with_reducible refine devRead_within _ _ _ (by decide) ?_

theorem ringPut_within {M : Nat} {s0 : State} (s : State) (slot : Nat) (offs : Nat) (bs : List Byte) (hm : 251659618 ||| M = M)
    (h : Within M s0 s) : Within M s0 (ringPut s slot offs bs) := by
  refine h.after hm ?_
  clear h hm
  unfold ringPut
  try dsimp only
  repeat' first
    | with_reducible exact Within.refl _ _
    | with_reducible refine devWrite_within _ _ _ (by decide) ?_
    | with_reducible refine modSeq_within _ _ _ (by decide) ?_
    | with_reducible refine raise_within _ _ _ _ _ _ (by decide) ?_
    | with_reducible refine Within.ite ?_ ?_

theorem ringClear_within {M : Nat} {s0 : State} (s : State) (slot : Nat) (hm : 251659618 ||| M = M)
    (h : Within M s0 s) : Within M s0 (ringClear s slot) := by
  refine h.after hm ?_
  clear h hm
  unfold ringClear
  try dsimp only
  repeat' first
    | with_reducible exact Within.refl _ _
    | with_reducible refine ringPut_within _ _ _ _ (by decide) ?_

theorem zeroSummaries_within {M : Nat} {s0 : State} (s : State) (d : RingDesc) (f : Nat) (hm : 251659554 ||| M = M)
    (h : Within M s0 s) : Within M s0 (zeroSummaries s d f) := by
  refine h.after hm ?_
  clear h hm
  unfold zeroSummaries
  try dsimp only
  repeat' first
    | with_reducible exact Within.refl _ _
    | with_reducible refine each_within _ _ _ (by decide) ?_ ?_
    | with_reducible refine devPut_within _ _ _ (by decide) ?_
    | with_reducible intro _

theorem beginChunk_within {M : Nat} {s0 : State} (s : State) (slot : Nat) (d : RingDesc) (g : Nat) (hm : 251659618 ||| M = M)
    (h : Within M s0 s) : Within M s0 (beginChunk s slot d g) := by
  refine h.after hm ?_
  clear h hm
  unfold beginChunk
  try dsimp only
  repeat' first
    | with_reducible exact Within.refl _ _
    | with_reducible refine each_within _ _ _ (by decide) ?_ ?_
    | with_reducible refine zeroSummaries_within _ _ _ (by decide) ?_
    | with_reducible refine ringPut_within _ _ _ _ (by decide) ?_
    | with_reducible refine Within.ite ?_ ?_
    | with_reducible intro _

theorem endChunk_within {M : Nat} {s0 : State} (s : State) (slot : Nat) (d : RingDesc) (hm : 251659618 ||| M = M)
    (h : Within M s0 s) : Within M s0 (endChunk s slot d) := by
  refine h.after hm ?_
  clear h hm
  unfold endChunk
  try dsimp only
  repeat' first
    | with_reducible exact Within.refl _ _
    | with_reducible refine ringPut_within _ _ _ _ (by decide) ?_
    | split

theorem dropBadFrames_within {M : Nat} {s0 : State} (s : State) (slot : Nat) (hm : 251659618 ||| M = M)
    (h : Within M s0 s) : Within M s0 (dropBadFrames s slot) := by
  refine h.after hm ?_
  clear h hm
  unfold dropBadFrames
  try dsimp only
  repeat' first
    | with_reducible exact Within.refl _ _
    | with_reducible refine readRing_within _ _ (by decide) ?_
    | with_reducible refine each_within _ _ _ (by decide) ?_ ?_
    | with_reducible refine ringPut_within _ _ _ _ (by decide) ?_
    | with_reducible refine modSeq_within _ _ _ (by decide) ?_
    | with_reducible refine Within.ite ?_ ?_
    | split
    | with_reducible intro _

end Sys2Proof.Machine
end

