-- ==== Sys2Proof/Laws/Commands.lean ====
section
/-! SUPPORT. What each operation of Machine/Commands.lean may change: see Laws/Within.lean. -/

namespace Sys2Proof.Machine

theorem kvCheck_within {M : Nat} {s0 : State} (s : State) (c : DmaCmd) (hm : 251659554 ||| M = M)
    (h : Within M s0 s) : Within M s0 (kvCheck s c).2 := by
  refine h.after hm ?_
  clear h hm
  unfold kvCheck
  try dsimp only
  repeat' first
    | with_reducible exact Within.refl _ _
    | with_reducible refine readRing_within _ _ (by decide) ?_
    | with_reducible refine Within.iteSnd ?_ ?_
    | split

theorem cmdCheck_within {M : Nat} {s0 : State} (s : State) (thread : Bool) (c : DmaCmd) (hm : 251659554 ||| M = M)
    (h : Within M s0 s) : Within M s0 (cmdCheck s thread c).2 := by
  refine h.after hm ?_
  clear h hm
  unfold cmdCheck
  try dsimp only
  repeat' first
    | with_reducible exact Within.refl _ _
    | with_reducible refine kvCheck_within _ _ (by decide) ?_
    | with_reducible refine Within.iteSnd ?_ ?_

end Sys2Proof.Machine
end

