-- ==== Sys2Proof/Laws/Work.lean ====
section
/-! SUPPORT. What each operation of Machine/Work.lean may change: see Laws/Within.lean. -/

namespace Sys2Proof.Machine

theorem itemEnd_within {M : Nat} {s0 : State} (s : State) (slot : Nat) (num : Nat) (k : Nat) (hm : 251663842 ||| M = M)
    (h : Within M s0 s) : Within M s0 (itemEnd s slot num k) := by
  refine h.after hm ?_
  clear h hm
  unfold itemEnd
  try dsimp only
  repeat' first
    | with_reducible exact Within.refl _ _
    | with_reducible refine removeItem_within _ _ _ (by decide) ?_
    | with_reducible refine writeDone_within _ _ _ (by decide) ?_
    | split

theorem itemDone_within {M : Nat} {s0 : State} (s : State) (slot : Nat) (num : Nat) (hm : 251663842 ||| M = M)
    (h : Within M s0 s) : Within M s0 (itemDone s slot num) := by
  refine h.after hm ?_
  clear h hm
  unfold itemDone
  try dsimp only
  repeat' first
    | with_reducible exact Within.refl _ _
    | with_reducible refine itemEnd_within _ _ _ _ (by decide) ?_
    | with_reducible refine noteCharge_within _ _ (by decide) ?_
    | with_reducible refine modSeq_within _ _ _ (by decide) ?_
    | split

theorem release_within {M : Nat} {s0 : State} (s : State) (slot : Nat) (i : Item) (c : Nat) (scope : Bool) (id : Nat) (hm : 192 ||| M = M)
    (h : Within M s0 s) : Within M s0 (release s slot i c scope id) := by
  refine h.after hm ?_
  clear h hm
  unfold release
  try dsimp only
  repeat' first
    | with_reducible exact Within.refl _ _
    | with_reducible refine modItem_within _ _ _ _ (by decide) ?_
    | with_reducible refine modCl_within _ _ _ (by decide) ?_
    | with_reducible refine Within.ite ?_ ?_
    | with_reducible refine Within.at_cl (by decide) (by (left; simp; done)) ?_

theorem settleBarrier_within {M : Nat} {s0 : State} (s : State) (slot : Nat) (num : Nat) (c : Nat) (scope : Bool) (id : Nat) (hm : 192 ||| M = M)
    (h : Within M s0 s) : Within M s0 (settleBarrier s slot num c scope id) := by
  refine h.after hm ?_
  clear h hm
  unfold settleBarrier
  try dsimp only
  repeat' first
    | with_reducible exact Within.refl _ _
    | with_reducible refine release_within _ _ _ _ _ _ (by decide) ?_
    | with_reducible refine Within.ite ?_ ?_
    | split

theorem threadExit_within {M : Nat} {s0 : State} (s : State) (c : Nat) (t : Nat) (hm : 251663842 ||| M = M)
    (h : Within M s0 s) : Within M s0 (threadExit s c t) := by
  refine h.after hm ?_
  clear h hm
  unfold threadExit
  try dsimp only
  repeat' first
    | with_reducible exact Within.refl _ _
    | with_reducible refine modThr_within _ _ _ _ (by decide) ?_
    | with_reducible refine each_within _ _ _ (by decide) ?_ ?_
    | with_reducible refine settleBarrier_within _ _ _ _ _ _ (by decide) ?_
    | with_reducible refine itemDone_within _ _ _ (by decide) ?_
    | with_reducible refine Within.ite ?_ ?_
    | split
    | with_reducible intro _

theorem t4Settle_within {M : Nat} {s0 : State} (s : State) (c : Nat) (t : Nat) (item : Nat) (hm : 251663842 ||| M = M)
    (h : Within M s0 s) : Within M s0 (t4Settle s c t item) := by
  refine h.after hm ?_
  clear h hm
  unfold t4Settle
  try dsimp only
  repeat' first
    | with_reducible exact Within.refl _ _
    | with_reducible refine threadExit_within _ _ _ (by decide) ?_
    | with_reducible refine wake_within _ _ _ _ (by decide) ?_
    | with_reducible refine Within.ite ?_ ?_

end Sys2Proof.Machine
end

