-- ==== Sys2Proof/Laws/Threads.lean ====
section
/-! SUPPORT. What each operation of Machine/Threads.lean may change: see Laws/Within.lean. -/

namespace Sys2Proof.Machine

theorem bar_within {M : Nat} {s0 : State} (w : BitVec 56) (c : Nat) (t : Nat) (pc : Word64) (s : State) (hm : 251993578 ||| M = M)
    (h : Within M s0 s) : Within M s0 (bar w c t pc s) := by
  refine h.after hm ?_
  clear h hm
  unfold bar
  try dsimp only
  repeat' first
    | with_reducible exact Within.refl _ _
    | with_reducible refine threadFault_within _ _ _ _ _ _ _ _ (by decide) ?_
    | with_reducible refine settleBarrier_within _ _ _ _ _ _ (by decide) ?_
    | with_reducible refine wait_within _ _ _ _ (by decide) ?_
    | with_reducible refine Within.ite ?_ ?_
    | split

theorem mfence_within {M : Nat} {s0 : State} (c : Nat) (t : Nat) (s : State) (hm : 128 ||| M = M)
    (h : Within M s0 s) : Within M s0 (mfence c t s) := by
  refine h.after hm ?_
  clear h hm
  unfold mfence
  try dsimp only
  repeat' first
    | with_reducible exact Within.refl _ _
    | with_reducible refine wait_within _ _ _ _ (by decide) ?_
    | with_reducible refine Within.ite ?_ ?_

theorem dwait_within {M : Nat} {s0 : State} (c : Nat) (t : Nat) (s : State) (hm : 128 ||| M = M)
    (h : Within M s0 s) : Within M s0 (dwait c t s) := by
  refine h.after hm ?_
  clear h hm
  unfold dwait
  try dsimp only
  repeat' first
    | with_reducible exact Within.refl _ _
    | with_reducible refine wait_within _ _ _ _ (by decide) ?_
    | with_reducible refine Within.ite ?_ ?_

theorem cwait_within {M : Nat} {s0 : State} (c : Nat) (t : Nat) (s : State) (hm : 128 ||| M = M)
    (h : Within M s0 s) : Within M s0 (cwait c t s) := by
  refine h.after hm ?_
  clear h hm
  unfold cwait
  try dsimp only
  repeat' first
    | with_reducible exact Within.refl _ _
    | with_reducible refine wait_within _ _ _ _ (by decide) ?_
    | with_reducible refine Within.ite ?_ ?_

theorem exitThread_within {M : Nat} {s0 : State} (c : Nat) (t : Nat) (s : State) (hm : 251663842 ||| M = M)
    (h : Within M s0 s) : Within M s0 (exitThread c t s) := by
  refine h.after hm ?_
  clear h hm
  unfold exitThread
  try dsimp only
  repeat' first
    | with_reducible exact Within.refl _ _
    | with_reducible refine wait_within _ _ _ _ (by decide) ?_
    | with_reducible refine threadExit_within _ _ _ (by decide) ?_
    | with_reducible refine Within.ite ?_ ?_

theorem poisonEnd_within {M : Nat} {s0 : State} (s : State) (c : Nat) (t : Nat) (pc : Word64) (num : Nat) (place : Nat) (hm : 251993578 ||| M = M)
    (h : Within M s0 s) : Within M s0 (poisonEnd s c t pc num place) := by
  refine h.after hm ?_
  clear h hm
  unfold poisonEnd
  try dsimp only
  repeat' first
    | with_reducible exact Within.refl _ _
    | with_reducible refine threadEnd_within _ _ _ _ _ _ _ (by decide) ?_

theorem lds_within {M : Nat} {s0 : State} (w : BitVec 56) (c : Nat) (t : Nat) (pc : Word64) (s : State) (hm : 251993578 ||| M = M)
    (h : Within M s0 s) : Within M s0 (lds w c t pc s) := by
  refine h.after hm ?_
  clear h hm
  unfold lds
  try dsimp only
  repeat' first
    | with_reducible exact Within.refl _ _
    | with_reducible refine threadFault_within _ _ _ _ _ _ _ _ (by decide) ?_
    | with_reducible refine poisonEnd_within _ _ _ _ _ _ (by decide) ?_
    | with_reducible refine modThr_within _ _ _ _ (by decide) ?_
    | with_reducible refine Within.ite ?_ ?_
    | split

theorem sts_within {M : Nat} {s0 : State} (w : BitVec 56) (c : Nat) (t : Nat) (pc : Word64) (s : State) (hm : 520429546 ||| M = M)
    (h : Within M s0 s) : Within M s0 (sts w c t pc s) := by
  refine h.after hm ?_
  clear h hm
  unfold sts
  try dsimp only
  repeat' first
    | with_reducible exact Within.refl _ _
    | with_reducible refine threadFault_within _ _ _ _ _ _ _ _ (by decide) ?_
    | with_reducible refine csWrite_within _ _ _ _ (by decide) ?_
    | split

theorem t4Send_within {M : Nat} {s0 : State} (s : State) (who : Requester) (item : Nat) (dst : Nat) (op : MemOp) (va : Nat) (size : Nat) (data : List Byte) (pc : Word64) (hm : 117466154 ||| M = M)
    (h : Within M s0 s) : Within M s0 (t4Send s who item dst op va size data pc) := by
  refine h.after hm ?_
  clear h hm
  unfold t4Send
  try dsimp only
  repeat' first
    | with_reducible exact Within.refl _ _
    | with_reducible refine inject_within _ _ _ _ (by decide) ?_
    | with_reducible refine Within.at_xlt (by decide)  ?_

theorem accPlace_within {M : Nat} {s0 : State} (s : State) (c : Nat) (a : Word64) (need : Need) (hm : 251659554 ||| M = M)
    (h : Within M s0 s) : Within M s0 (accPlace s c a need).2 := by
  refine h.after hm ?_
  clear h hm
  unfold accPlace
  try dsimp only
  repeat' first
    | with_reducible exact Within.refl _ _
    | with_reducible refine translate_within _ _ _ _ _ (by decide) ?_
    | with_reducible refine Within.iteSnd ?_ ?_

theorem t4Again_within {M : Nat} {s0 : State} (s : State) (c : Nat) (t : Nat) (pc : Word64) (hm : 128 ||| M = M)
    (h : Within M s0 s) : Within M s0 (t4Again s c t pc) := by
  refine h.after hm ?_
  clear h hm
  unfold t4Again
  try dsimp only
  repeat' first
    | with_reducible exact Within.refl _ _
    | with_reducible refine modThr_within _ _ _ _ (by decide) ?_
    | with_reducible refine wait_within _ _ _ _ (by decide) ?_

theorem scalar_within {M : Nat} {s0 : State} (a : ScalarAcc) (c : Nat) (t : Nat) (pc : Word64) (s : State) (hm : 252018154 ||| M = M)
    (h : Within M s0 s) : Within M s0 (scalar a c t pc s) := by
  refine h.after hm ?_
  clear h hm
  unfold scalar
  try dsimp only
  repeat' first
    | with_reducible exact Within.refl _ _
    | with_reducible refine threadFault_within _ _ _ _ _ _ _ _ (by decide) ?_
    | with_reducible refine accPlace_within _ _ _ _ (by decide) ?_
    | with_reducible refine t4Again_within _ _ _ _ (by decide) ?_
    | with_reducible refine t4Send_within _ _ _ _ _ _ _ _ _ (by decide) ?_
    | with_reducible refine wait_within _ _ _ _ (by decide) ?_
    | with_reducible refine writePA_within _ _ _ (by decide) ?_
    | with_reducible refine readPA_within _ _ _ _ (by decide) ?_
    | with_reducible refine poisonEnd_within _ _ _ _ _ _ (by decide) ?_
    | with_reducible refine modThr_within _ _ _ _ (by decide) ?_
    | with_reducible refine threadXl_within _ _ _ _ _ _ _ (by decide) ?_
    | with_reducible refine Within.ite ?_ ?_
    | split

theorem atom_within {M : Nat} {s0 : State} (w : BitVec 56) (c : Nat) (t : Nat) (pc : Word64) (s0x : State) (hm : 252018154 ||| M = M)
    (h : Within M s0 s0x) : Within M s0 (atom w c t pc s0x) := by
  refine h.after hm ?_
  clear h hm
  unfold atom
  try dsimp only
  repeat' first
    | with_reducible exact Within.refl _ _
    | with_reducible refine threadFault_within _ _ _ _ _ _ _ _ (by decide) ?_
    | with_reducible refine drew_within _ (by decide) ?_
    | with_reducible refine accPlace_within _ _ _ _ (by decide) ?_
    | with_reducible refine t4Again_within _ _ _ _ (by decide) ?_
    | with_reducible refine wait_within _ _ _ _ (by decide) ?_
    | with_reducible refine t4Send_within _ _ _ _ _ _ _ _ _ (by decide) ?_
    | with_reducible refine atomPA_within _ _ _ (by decide) ?_
    | with_reducible refine poisonEnd_within _ _ _ _ _ _ (by decide) ?_
    | with_reducible refine modThr_within _ _ _ _ (by decide) ?_
    | with_reducible refine threadXl_within _ _ _ _ _ _ _ (by decide) ?_
    | with_reducible refine Within.ite ?_ ?_
    | split

theorem cmdFault_within {M : Nat} {s0 : State} (s : State) (c : Nat) (t : Nat) (pc : Word64) (a1 : CmdBad) (hm : 251993578 ||| M = M)
    (h : Within M s0 s) : Within M s0 (cmdFault s c t pc a1) := by
  refine h.after hm ?_
  clear h hm
  unfold cmdFault
  try dsimp only
  repeat' first
    | with_reducible exact Within.refl _ _
    | with_reducible refine threadFault_within _ _ _ _ _ _ _ _ (by decide) ?_
    | with_reducible refine drew_within _ (by decide) ?_
    | split

theorem enqueue_within {M : Nat} {s0 : State} (s : State) (e : Nat) (c : DmaCmd) (hm : 2052 ||| M = M)
    (h : Within M s0 s) : Within M s0 (enqueue s e c) := by
  refine h.after hm ?_
  clear h hm
  unfold enqueue
  try dsimp only
  repeat' first
    | with_reducible exact Within.refl _ _
    | with_reducible refine modEng_within _ _ _ (by decide) ?_
    | with_reducible refine Within.at_nextNum (by decide)  ?_

theorem dq_within {M : Nat} {s0 : State} (w : BitVec 56) (c : Nat) (t : Nat) (pc : Word64) (s : State) (hm : 251993582 ||| M = M)
    (h : Within M s0 s) : Within M s0 (dq w c t pc s) := by
  refine h.after hm ?_
  clear h hm
  unfold dq
  try dsimp only
  repeat' first
    | with_reducible exact Within.refl _ _
    | with_reducible refine threadFault_within _ _ _ _ _ _ _ _ (by decide) ?_
    | with_reducible refine poisonEnd_within _ _ _ _ _ _ (by decide) ?_
    | with_reducible refine setPc_within _ _ _ _ (by decide) ?_
    | with_reducible refine wait_within _ _ _ _ (by decide) ?_
    | with_reducible refine cmdCheck_within _ _ _ (by decide) ?_
    | with_reducible refine cmdFault_within _ _ _ _ _ (by decide) ?_
    | with_reducible refine enqueue_within _ _ _ (by decide) ?_
    | with_reducible refine Within.ite ?_ ?_
    | split

theorem wakeFull_within {M : Nat} {s0 : State} (s : State) (e : Nat) (hm : 128 ||| M = M)
    (h : Within M s0 s) : Within M s0 (wakeFull s e) := by
  refine h.after hm ?_
  clear h hm
  unfold wakeFull
  try dsimp only
  repeat' first
    | with_reducible exact Within.refl _ _
    | with_reducible refine Within.at_cl (by decide) (by (left; simp; done)) ?_

end Sys2Proof.Machine
end

