-- ==== Sys2Proof/Laws/Engine.lean ====
section
/-! SUPPORT. What each operation of Machine/Engine.lean may change: see Laws/Within.lean. -/

namespace Sys2Proof.Machine

theorem srcSector_within {M : Nat} {s0 : State} (m : SrcMode) (va : Nat) (x : Xfer) (hm : 251659554 ||| M = M)
    (h : Within M s0 x.s) : Within M s0 (srcSector m va x).2.s := by
  refine h.after hm ?_
  clear h hm
  unfold srcSector
  try dsimp only
  repeat' first
    | with_reducible exact Within.refl _ _
    | with_reducible refine engPiece_within _ _ _ _ _ _ (by decide) ?_
    | split

theorem srcBytes_within {M : Nat} {s0 : State} (m : SrcMode) (va : Nat) (n : Nat) (x : Xfer) (hm : 251659554 ||| M = M)
    (h : Within M s0 x.s) : Within M s0 (srcBytes m va n x).2.s := by
  refine h.after hm ?_
  clear h hm
  unfold srcBytes
  try dsimp only
  repeat' first
    | with_reducible exact Within.refl _ _
    | with_reducible refine srcSector_within _ _ _ (by decide) ?_
    | with_reducible refine Within.foldlBy (fun p : _ × Xfer => p.2.s) _ ?_ _ ?_
    | split
    | with_reducible intro _

theorem csSettle_within {M : Nat} {s0 : State} (s : State) (c : Nat) (offs : Nat) (hm : 512 ||| M = M)
    (h : Within M s0 s) : Within M s0 (csSettle s c offs) := by
  refine h.after hm ?_
  clear h hm
  unfold csSettle
  try dsimp only
  repeat' first
    | with_reducible exact Within.refl _ _
    | split
    | with_reducible refine Within.at_st (by decide) id id (.inr rfl) (.inr rfl) ?_

theorem storeBytes_within {M : Nat} {s0 : State} (c : Nat) (offs : Nat) (n : Nat) (x : Xfer) (hm : 512 ||| M = M)
    (h : Within M s0 x.s) : Within M s0 (storeBytes c offs n x).2.s := by
  refine h.after hm ?_
  clear h hm
  unfold storeBytes
  try dsimp only
  repeat' first
    | with_reducible exact Within.refl _ _
    | with_reducible refine each_within _ _ _ (by decide) ?_ ?_
    | with_reducible refine csSettle_within _ _ _ (by decide) ?_
    | with_reducible intro _

theorem storePut_within {M : Nat} {s0 : State} (s : State) (c : Nat) (offs : Nat) (bs : List Byte) (poison : Bool) (hm : 268435968 ||| M = M)
    (h : Within M s0 s) : Within M s0 (storePut s c offs bs poison) := by
  refine h.after hm ?_
  clear h hm
  unfold storePut
  try dsimp only
  repeat' first
    | with_reducible exact Within.refl _ _
    | with_reducible refine csWrite_within _ _ _ _ (by decide) ?_
    | with_reducible refine each_within _ _ _ (by decide) ?_ ?_
    | with_reducible refine csPoisonAt_within _ _ _ (by decide) ?_
    | with_reducible refine Within.ite ?_ ?_
    | with_reducible intro _

theorem placePut_within {M : Nat} {s0 : State} (s : State) (t : Xl) (bs : List Byte) (poison : Bool) (hm : 788529954 ||| M = M)
    (h : Within M s0 s) : Within M s0 (placePut s t bs poison) := by
  refine h.after hm ?_
  clear h hm
  unfold placePut
  try dsimp only
  repeat' first
    | with_reducible exact Within.refl _ _
    | with_reducible refine putPoison_within _ _ _ (by decide) ?_
    | with_reducible refine putPlace_within _ _ _ (by decide) ?_
    | with_reducible refine Within.ite ?_ ?_

theorem endIssuer_within {M : Nat} {s0 : State} (s : State) (c : DmaCmd) (block : Nat) (num : Nat) (place : Nat) (hm : 251993578 ||| M = M)
    (h : Within M s0 s) : Within M s0 (endIssuer s c block num place) := by
  refine h.after hm ?_
  clear h hm
  unfold endIssuer
  try dsimp only
  repeat' first
    | with_reducible exact Within.refl _ _
    | with_reducible refine terminate_within _ _ _ _ _ (by decide) ?_
    | with_reducible refine Within.ite ?_ ?_
    | split

theorem parkAt_within {M : Nat} {s0 : State} (s : State) (e : Nat) (c : DmaCmd) (f : FaultRec) (hm : 251993578 ||| M = M)
    (h : Within M s0 s) : Within M s0 (parkAt s e c f) := by
  refine h.after hm ?_
  clear h hm
  unfold parkAt
  try dsimp only
  repeat' first
    | with_reducible exact Within.refl _ _
    | with_reducible refine faultRetry_within _ _ (by decide) ?_
    | with_reducible refine ctrAdd_within _ _ _ (by decide) ?_
    | with_reducible refine modEng_within _ _ _ (by decide) ?_
    | with_reducible refine endIssuer_within _ _ _ _ _ (by decide) ?_
    | with_reducible refine complete_within _ _ _ _ (by decide) ?_
    | split

theorem park_within {M : Nat} {s0 : State} (s : State) (e : Nat) (c : DmaCmd) (kind : Nat) (va : Nat) (level : Nat) (hm : 251993578 ||| M = M)
    (h : Within M s0 s) : Within M s0 (park s e c kind va level) := by
  refine h.after hm ?_
  clear h hm
  unfold park
  try dsimp only
  repeat' first
    | with_reducible exact Within.refl _ _
    | with_reducible refine parkAt_within _ _ _ _ (by decide) ?_

theorem settle_within {M : Nat} {s0 : State} (e : Nat) (r : Option PieceEnd × Xfer) (hm : 251993578 ||| M = M)
    (h : Within M s0 r.2.s) : Within M s0 (settle e r) := by
  refine h.after hm ?_
  clear h hm
  unfold settle
  try dsimp only
  repeat' first
    | with_reducible exact Within.refl _ _
    | with_reducible refine complete_within _ _ _ _ (by decide) ?_
    | with_reducible refine park_within _ _ _ _ _ _ (by decide) ?_
    | with_reducible refine endIssuer_within _ _ _ _ _ (by decide) ?_
    | with_reducible refine faultFatal_within _ _ (by decide) ?_
    | with_reducible refine raise_within _ _ _ _ _ _ (by decide) ?_
    | with_reducible refine modEng_within _ _ _ (by decide) ?_
    | split

theorem advance_within {M : Nat} {s0 : State} (e : Nat) (sectors : Nat) (poisoned : Nat) (said : Bool) (x : Xfer) (hm : 117440546 ||| M = M)
    (h : Within M s0 x.s) : Within M s0 (advance e sectors poisoned said x).s := by
  refine h.after hm ?_
  clear h hm
  unfold advance
  try dsimp only
  repeat' first
    | with_reducible exact Within.refl _ _
    | with_reducible refine ctrAdd_within _ _ _ (by decide) ?_
    | with_reducible refine raise_within _ _ _ _ _ _ (by decide) ?_
    | with_reducible refine Within.ite ?_ ?_

/-- The pieces that a list of places gives. -/
theorem piecesMap {α : Type} {M : Nat} (l : List α) (n : α → Nat) (g : α → Xfer → PieceEnd × Xfer)
    (h : ∀ c x, Within M x.s (g c x).2.s) : ∀ p ∈ l.map (fun c => (n c, g c)), ∀ x, Within M x.s (p.2 x).2.s := by
  intro p hp x
  obtain ⟨c, -, rfl⟩ := List.mem_map.mp hp
  exact h c x

theorem piecesFlat {α : Type} {M : Nat} (l : List α) (g : α → List (Nat × (Xfer → PieceEnd × Xfer)))
    (h : ∀ c, ∀ p ∈ g c, ∀ x, Within M x.s (p.2 x).2.s) : ∀ p ∈ l.flatMap g, ∀ x, Within M x.s (p.2 x).2.s := by
  intro p hp x
  obtain ⟨c, -, hc⟩ := List.mem_flatMap.mp hp
  exact h c p hc x

theorem runPieces_within {M : Nat} {s0 : State} (e : Nat) (a1 : List (Nat × (Xfer → PieceEnd × Xfer))) (a2 : Nat) (a3 : Xfer)
    (hm : 117440546 ||| M = M) (hp : ∀ p ∈ a1, ∀ x, Within M x.s (p.2 x).2.s) (h : Within M s0 a3.s) :
    Within M s0 (runPieces e a1 a2 a3).2.s := by
  refine h.trans ?_
  clear h
  induction a1 generalizing a2 a3 with
  | nil => exact Within.refl _ _
  | cons p ps ih =>
    have ih' := fun at' x => ih at' x fun q hq => hp q (List.mem_cons_of_mem _ hq)
    have hp' := hp p (List.mem_cons_self ..)
    simp only [runPieces]
    split
    · exact ih' _ _
    · split
      · exact (hp' a3).trans ((advance_within _ _ _ _ _ (maskSub (by decide) hm) (Within.refl _ _)).trans (ih' _ _))
      · exact hp' a3

theorem takeCmd_within {M : Nat} {s0 : State} (s : State) (e : Nat) (c : DmaCmd) (hm : 2176 ||| M = M)
    (h : Within M s0 s) : Within M s0 (takeCmd s e c) := by
  refine h.after hm ?_
  clear h hm
  unfold takeCmd
  try dsimp only
  repeat' first
    | with_reducible exact Within.refl _ _
    | with_reducible refine modEng_within _ _ _ (by decide) ?_
    | with_reducible refine wakeFull_within _ _ (by decide) ?_
    | with_reducible refine Within.ite ?_ ?_

theorem readHost_within {M : Nat} {s0 : State} (e : Nat) (s : State) (hm : 251665902 ||| M = M)
    (h : Within M s0 s) : Within M s0 (readHost e s) := by
  refine h.after hm ?_
  clear h hm
  unfold readHost
  try dsimp only
  repeat' first
    | with_reducible exact Within.refl _ _
    | with_reducible refine readPA_within _ _ _ _ (by decide) ?_
    | with_reducible refine modEng_within _ _ _ (by decide) ?_
    | with_reducible refine raise_within _ _ _ _ _ _ (by decide) ?_
    | with_reducible refine complete_within _ _ _ _ (by decide) ?_
    | with_reducible refine cmdCheck_within _ _ _ (by decide) ?_
    | with_reducible refine Within.ite ?_ ?_
    | split
    | with_reducible refine Within.at_nextNum (by decide)  ?_

theorem readQueue_within {M : Nat} {s0 : State} (e : Nat) (a1 : Nat) (a2 : State) (hm : 251665902 ||| M = M)
    (h : Within M s0 a2) : Within M s0 (readQueue e a1 a2) := by
  refine h.after hm ?_
  clear h hm
  induction a1 generalizing e a2 with
  | zero =>
    unfold readQueue
    try dsimp only
    repeat' first
      | with_reducible exact Within.refl _ _
  | succ n ih =>
    unfold readQueue
    try dsimp only
    repeat' first
      | with_reducible exact Within.refl _ _
      | with_reducible refine Within.trans ?_ (ih _ _)
      | with_reducible refine readHost_within _ _ (by decide) ?_

theorem startOp_within {M : Nat} {s0 : State} (e : Nat) (op : Nat) (run : DmaCmd → State → State) (s : State) (hm : 251665902 ||| M = M) (h_run : ∀ v0 v1, Within M v1 (run v0 v1))
    (h : Within M s0 s) : Within M s0 (startOp e op run s) := by
  unfold startOp
  try dsimp only
  repeat' first
    | with_reducible assumption
    | with_reducible refine readQueue_within _ _ _ (maskSub (by decide) hm) ?_
    | with_reducible refine takeCmd_within _ _ _ (maskSub (by decide) hm) ?_
    | with_reducible refine Within.trans ?_ (h_run _ _)
    | with_reducible refine Within.ite ?_ ?_
    | split

end Sys2Proof.Machine
end

