-- ==== Sys2Proof/Laws/Playout.lean ====
section
/-! SUPPORT. What each operation of Machine/Playout.lean may change: see Laws/Within.lean. -/

namespace Sys2Proof.Machine

theorem readBlock_within {M : Nat} {s0 : State} (s : State) (d : Nat) (rate : Nat) (va : Nat) (hm : 251659554 ||| M = M)
    (h : Within M s0 s) : Within M s0 (readBlock s d rate va).2 := by
  refine h.after hm ?_
  clear h hm
  unfold readBlock
  try dsimp only
  repeat' first
    | with_reducible exact Within.refl _ _
    | with_reducible assumption
    | with_reducible refine devRead_within _ _ _ (by decide) ?_
    | with_reducible refine Within.iteSnd ?_ ?_
    | with_reducible refine Within.ite ?_ ?_
    | with_reducible refine Within.ofSnd (by assumption) ?_
    | split
    | with_reducible intro _
    | with_reducible dsimp only

theorem refusePlays_within {M : Nat} {s0 : State} (f : Nat) (s : State) (hm : 251665898 ||| M = M)
    (h : Within M s0 s) : Within M s0 (refusePlays f s) := by
  refine h.after hm ?_
  clear h hm
  unfold refusePlays
  try dsimp only
  repeat' first
    | with_reducible exact Within.refl _ _
    | with_reducible assumption
    | with_reducible refine each_within _ _ _ (by decide) ?_ ?_
    | with_reducible refine modEng_within _ _ _ (by decide) ?_
    | with_reducible refine complete_within _ _ _ _ (by decide) ?_
    | with_reducible refine dropFault_within _ _ (by decide) ?_
    | with_reducible intro _
    | with_reducible dsimp only

theorem applyFlow_within {M : Nat} {s0 : State} (d : Nat) (f : Nat) (new : Option FlowCfg) (s : State) (hm : 252190186 ||| M = M)
    (h : Within M s0 s) : Within M s0 (applyFlow d f new s) := by
  refine h.after hm ?_
  clear h hm
  unfold applyFlow
  try dsimp only
  repeat' first
    | with_reducible exact Within.refl _ _
    | with_reducible assumption
    | with_reducible refine refusePlays_within _ _ (by decide) ?_
    | with_reducible refine modFlow_within _ _ _ (by decide) ?_
    | with_reducible refine Within.ite ?_ ?_
    | with_reducible refine Within.ofSnd (by assumption) ?_
    | split
    | with_reducible intro _
    | with_reducible dsimp only

theorem applyFlows_within {M : Nat} {s0 : State} (d : Nat) (s : State) (hm : 8842124778 ||| M = M)
    (h : Within M s0 s) : Within M s0 (applyFlows d s) := by
  refine h.after hm ?_
  clear h hm
  unfold applyFlows
  try dsimp only
  repeat' first
    | with_reducible exact Within.refl _ _
    | with_reducible assumption
    | with_reducible refine each_within _ _ _ (by decide) ?_ ?_
    | with_reducible refine applyFlow_within _ _ _ _ (by decide) ?_
    | with_reducible refine modDom_within _ _ _ (by decide) (by first | exact .inr (fun _ => rfl) | exact .inl (by decide) | (right; intro x; dsimp only; split <;> rfl)) (by first | exact .inr (fun _ => rfl) | exact .inl (by decide) | (right; intro x; dsimp only; split <;> rfl)) ?_
    | with_reducible refine Within.ofSnd (by assumption) ?_
    | split
    | with_reducible intro _
    | with_reducible dsimp only

theorem countPackets_within {M : Nat} {s0 : State} (up : Nat) (f : Nat) (s : State) (hm : 33554434 ||| M = M)
    (h : Within M s0 s) : Within M s0 (countPackets up f s) := by
  refine h.after hm ?_
  clear h hm
  unfold countPackets
  try dsimp only
  repeat' first
    | with_reducible exact Within.refl _ _
    | with_reducible assumption
    | with_reducible refine each_within _ _ _ (by decide) ?_ ?_
    | with_reducible refine ctrAdd_within _ _ _ (by decide) ?_
    | with_reducible refine drew_within _ (by decide) ?_
    | with_reducible refine Within.ite ?_ ?_
    | with_reducible refine Within.optElim ?_ ?_
    | with_reducible refine Within.ofSnd (by assumption) ?_
    | split
    | with_reducible intro _
    | with_reducible dsimp only

theorem sendFlow_within {M : Nat} {s0 : State} (d : Nat) (n : Nat) (s : State) (f : Nat) (hm : 117964842 ||| M = M)
    (h : Within M s0 s) : Within M s0 (sendFlow d n s f) := by
  refine h.after hm ?_
  clear h hm
  unfold sendFlow
  try dsimp only
  repeat' first
    | with_reducible exact Within.refl _ _
    | with_reducible assumption
    | with_reducible refine modFlow_within _ _ _ (by decide) ?_
    | with_reducible refine ctrAdd_within _ _ _ (by decide) ?_
    | with_reducible refine raise_within _ _ _ _ _ _ (by decide) ?_
    | with_reducible refine trace_within _ _ _ _ _ (by decide) ?_
    | with_reducible refine countPackets_within _ _ _ (by decide) ?_
    | with_reducible refine emit_within _ _ (by decide) ?_
    | with_reducible refine Within.ite ?_ ?_
    | with_reducible refine Within.ofSnd (by assumption) ?_
    | split
    | with_reducible intro _
    | with_reducible dsimp only

theorem lateWrites_within {M : Nat} {s0 : State} (d : Nat) (n : Nat) (s : State) (hm : 117440546 ||| M = M)
    (h : Within M s0 s) : Within M s0 (lateWrites d n s) := by
  refine h.after hm ?_
  clear h hm
  unfold lateWrites
  try dsimp only
  repeat' first
    | with_reducible exact Within.refl _ _
    | with_reducible assumption
    | with_reducible refine each_within _ _ _ (by decide) ?_ ?_
    | with_reducible refine raise_within _ _ _ _ _ _ (by decide) ?_
    | with_reducible refine Within.ite ?_ ?_
    | split
    | with_reducible intro _
    | with_reducible dsimp only

theorem sendFlows_within {M : Nat} {s0 : State} (d : Nat) (n : Nat) (s : State) (hm : 117964842 ||| M = M)
    (h : Within M s0 s) : Within M s0 (sendFlows d n s) := by
  refine h.after hm ?_
  clear h hm
  unfold sendFlows
  try dsimp only
  repeat' first
    | with_reducible exact Within.refl _ _
    | with_reducible assumption
    | with_reducible refine each_within _ _ _ (by decide) ?_ ?_
    | with_reducible refine sendFlow_within _ _ _ _ (by decide) ?_
    | with_reducible intro _
    | with_reducible dsimp only

theorem framePut_within {M : Nat} {s0 : State} (f : Nat) (tick : Nat) (offs : Nat) (n : Nat) (bs : List Byte) (s : State) (hm : 524288 ||| M = M)
    (h : Within M s0 s) : Within M s0 (framePut f tick offs n bs s) := by
  refine h.after hm ?_
  clear h hm
  unfold framePut
  try dsimp only
  repeat' first
    | with_reducible exact Within.refl _ _
    | with_reducible assumption
    | with_reducible refine modFlow_within _ _ _ (by decide) ?_
    | with_reducible refine Within.ite ?_ ?_
    | split
    | with_reducible intro _
    | with_reducible dsimp only

theorem playPiece_within {M : Nat} {s0 : State} (f : Nat) (tick : Nat) (n : Nat) (va : Nat) (len : Nat) (offs : Nat) (x : Xfer) (hm : 252183842 ||| M = M)
    (h : Within M s0 x.s) : Within M s0 (playPiece f tick n va len offs x).2.s := by
  refine h.after hm ?_
  clear h hm
  unfold playPiece
  try dsimp only
  repeat' first
    | with_reducible exact Within.refl _ _
    | with_reducible assumption
    | with_reducible refine srcBytes_within _ _ _ _ (by decide) ?_
    | with_reducible refine raise_within _ _ _ _ _ _ (by decide) ?_
    | with_reducible refine framePut_within _ _ _ _ _ _ (by decide) ?_
    | with_reducible refine Within.ite ?_ ?_
    | with_reducible refine Within.ite ?_ ?_
    | with_reducible refine Within.ofSnd (by assumption) ?_
    | split
    | with_reducible intro _
    | with_reducible dsimp only

theorem playEnd_within {M : Nat} {s0 : State} (e : Nat) (f : Nat) (tick : Nat) (r : Option PieceEnd × Xfer) (hm : 252517866 ||| M = M)
    (h : Within M s0 r.2.s) : Within M s0 (playEnd e f tick r) := by
  refine h.after hm ?_
  clear h hm
  unfold playEnd
  try dsimp only
  repeat' first
    | with_reducible exact Within.refl _ _
    | with_reducible assumption
    | with_reducible refine modFlow_within _ _ _ (by decide) ?_
    | with_reducible refine complete_within _ _ _ _ (by decide) ?_
    | with_reducible refine raise_within _ _ _ _ _ _ (by decide) ?_
    | with_reducible refine settle_within _ _ (by decide) ?_
    | with_reducible refine Within.ite ?_ ?_
    | with_reducible refine Within.ofSnd (by assumption) ?_
    | split
    | with_reducible intro _
    | with_reducible dsimp only

theorem runPlay_within {M : Nat} {s0 : State} (e : Nat) (c : DmaCmd) (s : State) (hm : 252517866 ||| M = M)
    (h : Within M s0 s) : Within M s0 (runPlay e c s) := by
  refine h.after hm ?_
  clear h hm
  unfold runPlay
  try dsimp only
  repeat' first
    | with_reducible exact Within.refl _ _
    | with_reducible assumption
    | with_reducible refine complete_within _ _ _ _ (by decide) ?_
    | with_reducible refine raise_within _ _ _ _ _ _ (by decide) ?_
    | with_reducible refine playEnd_within _ _ _ _ (by decide) ?_
    | with_reducible refine runPieces_within _ _ _ _ (by decide) ?_ ?_
    | with_reducible refine modFlow_within _ _ _ (by decide) ?_
    | with_reducible unfold playPieces
    | with_reducible refine piecesMap _ _ _ ?_
    | with_reducible refine piecesFlat _ _ ?_
    | with_reducible refine playPiece_within _ _ _ _ _ _ _ (by decide) ?_
    | with_reducible refine Within.ite ?_ ?_
    | with_reducible refine Within.ofSnd (by assumption) ?_
    | split
    | with_reducible intro _
    | with_reducible dsimp only

theorem takePacket_within {M : Nat} {s0 : State} (f : Nat) (gap : Bool) (p : Packet) (s : State) (hm : 117964834 ||| M = M)
    (h : Within M s0 s) : Within M s0 (takePacket f gap p s) := by
  refine h.after hm ?_
  clear h hm
  unfold takePacket
  try dsimp only
  repeat' first
    | with_reducible exact Within.refl _ _
    | with_reducible assumption
    | with_reducible refine modFlow_within _ _ _ (by decide) ?_
    | with_reducible refine raise_within _ _ _ _ _ _ (by decide) ?_
    | with_reducible refine ctrAdd_within _ _ _ (by decide) ?_
    | with_reducible refine Within.ite ?_ ?_
    | with_reducible refine Within.optElim ?_ ?_
    | with_reducible refine Within.ofSnd (by assumption) ?_
    | split
    | with_reducible intro _
    | with_reducible dsimp only

theorem flushWindow_within {M : Nat} {s0 : State} (f : Nat) (hold : Nat) (deliver : Bool → Packet → State → State) (a1 : Nat) (a2 : State) (hm : 524288 ||| M = M) (h_deliver : ∀ v0 v1 v2, Within M v2 (deliver v0 v1 v2))
    (h : Within M s0 a2) : Within M s0 (flushWindow f hold deliver a1 a2) := by
  refine h.trans ?_
  clear h
  induction a1 generalizing f hold a2 with
  | zero =>
    unfold flushWindow
    try dsimp only
    repeat' first
      | with_reducible exact Within.refl _ _
      | with_reducible assumption
      | with_reducible refine modFlow_within _ _ _ (maskSub (by decide) hm) ?_
      | with_reducible refine Within.trans ?_ (h_deliver _ _ _)
      | with_reducible refine Within.ite ?_ ?_
      | with_reducible refine Within.optElim ?_ ?_
      | with_reducible refine Within.ofSnd (by assumption) ?_
      | split
      | with_reducible intro _
      | with_reducible dsimp only
  | succ n ih =>
    unfold flushWindow
    try dsimp only
    repeat' first
      | with_reducible exact Within.refl _ _
      | with_reducible assumption
      | with_reducible refine Within.trans ?_ (ih _ _ _)
      | with_reducible refine modFlow_within _ _ _ (maskSub (by decide) hm) ?_
      | with_reducible refine Within.trans ?_ (h_deliver _ _ _)
      | with_reducible refine Within.ite ?_ ?_
      | with_reducible refine Within.optElim ?_ ?_
      | with_reducible refine Within.ofSnd (by assumption) ?_
      | split
      | with_reducible intro _
      | with_reducible dsimp only

theorem offerPacket_within {M : Nat} {s0 : State} (f : Nat) (hold : Nat) (deliver : Bool → Packet → State → State) (p : Packet) (s : State) (hm : 524288 ||| M = M) (h_deliver : ∀ v0 v1 v2, Within M v2 (deliver v0 v1 v2))
    (h : Within M s0 s) : Within M s0 (offerPacket f hold deliver p s) := by
  unfold offerPacket
  try dsimp only
  repeat' first
    | with_reducible exact Within.refl _ _
    | with_reducible assumption
    | with_reducible refine modFlow_within _ _ _ (maskSub (by decide) hm) ?_
    | with_reducible refine flushWindow_within _ _ _ _ _ (maskSub (by decide) hm) ?_ ?_
    | with_reducible refine Within.trans ?_ (h_deliver _ _ _)
    | with_reducible refine Within.ite ?_ ?_
    | split
    | with_reducible intro _
    | with_reducible dsimp only

theorem inputPacket_within {M : Nat} {s0 : State} (f : Nat) (port : Nat) (seq : BitVec 16) (ssrc : BitVec 32) (marker : Bool) (payload : List Byte) (s : State) (hm : 117964834 ||| M = M)
    (h : Within M s0 s) : Within M s0 (inputPacket f port seq ssrc marker payload s) := by
  refine h.after hm ?_
  clear h hm
  unfold inputPacket
  try dsimp only
  repeat' first
    | with_reducible exact Within.refl _ _
    | with_reducible assumption
    | with_reducible refine offerPacket_within _ _ _ _ _ (by decide) ?_ ?_
    | with_reducible refine takePacket_within _ _ _ _ (by decide) ?_
    | with_reducible refine ctrAdd_within _ _ _ (by decide) ?_
    | with_reducible refine Within.ite ?_ ?_
    | with_reducible refine Within.ofSnd (by assumption) ?_
    | split
    | with_reducible intro _
    | with_reducible dsimp only

theorem mportDown_within {M : Nat} {s0 : State} (p : Nat) (s : State) (hm : 118489122 ||| M = M)
    (h : Within M s0 s) : Within M s0 (mportDown p s) := by
  refine h.after hm ?_
  clear h hm
  unfold mportDown
  try dsimp only
  repeat' first
    | with_reducible exact Within.refl _ _
    | with_reducible assumption
    | with_reducible refine modMport_within _ _ _ (by decide) ?_
    | with_reducible refine raise_within _ _ _ _ _ _ (by decide) ?_
    | with_reducible refine Within.ite ?_ ?_
    | split
    | with_reducible intro _
    | with_reducible dsimp only

theorem mportUp_within {M : Nat} {s0 : State} (p : Nat) (s : State) (hm : 1048576 ||| M = M)
    (h : Within M s0 s) : Within M s0 (mportUp p s) := by
  refine h.after hm ?_
  clear h hm
  unfold mportUp
  try dsimp only
  repeat' first
    | with_reducible exact Within.refl _ _
    | with_reducible assumption
    | with_reducible refine modMport_within _ _ _ (by decide) ?_
    | with_reducible refine Within.ite ?_ ?_
    | split
    | with_reducible intro _
    | with_reducible dsimp only

theorem ptpMessage_within {M : Nat} {s0 : State} (p : Nat) (msg : PtpMsg) (s : State) (hm : 34603008 ||| M = M)
    (h : Within M s0 s) : Within M s0 (ptpMessage p msg s) := by
  refine h.after hm ?_
  clear h hm
  unfold ptpMessage
  try dsimp only
  repeat' first
    | with_reducible exact Within.refl _ _
    | with_reducible assumption
    | with_reducible refine ctrAdd_within _ _ _ (by decide) ?_
    | with_reducible refine modMport_within _ _ _ (by decide) ?_
    | with_reducible refine Within.ite ?_ ?_
    | with_reducible refine Within.ofSnd (by assumption) ?_
    | split
    | with_reducible intro _
    | with_reducible dsimp only

end Sys2Proof.Machine
end

