-- ==== Sys2Proof/Laws/Report.lean ====
section
/-! SUPPORT. What each operation of Machine/Report.lean may change: see Laws/Within.lean. -/

namespace Sys2Proof.Machine

theorem modEv_within {M : Nat} {s0 : State} (s : State) (f : EvSt → EvSt) (hm : 67108864 ||| M = M)
    (hf : ∀ e, e.buf.length ≤ 4096 → (f e).buf.length ≤ 4096) (h : Within M s0 s) : Within M s0 (modEv s f) :=
  h.after hm (Within.at_ev (by decide) (hf _) (Within.refl _ _))

theorem modObs_within {M : Nat} {s0 : State} (s : State) (f : ObsSt → ObsSt) (hm : 33554432 ||| M = M)
    (h : Within M s0 s) : Within M s0 (modObs s f) := by
  refine h.after hm ?_
  clear h hm
  unfold modObs
  try dsimp only
  repeat' first
    | with_reducible exact Within.refl _ _
    | with_reducible refine Within.at_obs (by decide)  ?_

theorem evTidy_within {M : Nat} {s0 : State} (s : State) (hm : 67108864 ||| M = M)
    (h : Within M s0 s) : Within M s0 (evTidy s) := by
  refine h.after hm ?_
  clear h hm
  unfold evTidy
  try dsimp only
  repeat' first
    | with_reducible exact Within.refl _ _
    | with_reducible refine modEv_within _ _ (by decide) (fun _ => by exact fun he => Nat.le_trans (evPurge_length _ _ _) (by simpa using he)) ?_

theorem eventSend_within {M : Nat} {s0 : State} (s : State) (hm : 67108872 ||| M = M)
    (h : Within M s0 s) : Within M s0 (eventSend s) := by
  refine h.after hm ?_
  clear h hm
  unfold eventSend
  try dsimp only
  repeat' first
    | with_reducible exact Within.refl _ _
    | with_reducible refine evTidy_within _ (by decide) ?_
    | with_reducible refine emit_within _ _ (by decide) ?_
    | with_reducible refine modEv_within _ _ (by decide) (fun _ => by simp [modFirst_length]) ?_
    | with_reducible refine Within.ite ?_ ?_
    | split

theorem eventSendAll_within {M : Nat} {s0 : State} (s : State) (hm : 67108872 ||| M = M)
    (h : Within M s0 s) : Within M s0 (eventSendAll s) := by
  refine h.after hm ?_
  clear h hm
  unfold eventSendAll
  try dsimp only
  repeat' first
    | with_reducible exact Within.refl _ _
    | with_reducible refine each_within _ _ _ (by decide) ?_ ?_
    | with_reducible refine eventSend_within _ (by decide) ?_
    | with_reducible intro _

theorem evWriteOne_within {M : Nat} {s0 : State} (acc : State × Bool) (r : EvRec) (hm : 603980288 ||| M = M)
    (h : Within M s0 acc.1) : Within M s0 (evWriteOne acc r).1 := by
  refine h.after hm ?_
  clear h hm
  unfold evWriteOne
  try dsimp only
  repeat' first
    | with_reducible exact Within.refl _ _
    | with_reducible refine modEv_within _ _ (by decide) (fun _ => by exact id) ?_
    | with_reducible refine hostWrite_within _ _ _ (by decide) ?_
    | with_reducible refine Within.iteFst ?_ ?_

theorem eventWrite_within {M : Nat} {s0 : State} (s : State) (hm : 603980296 ||| M = M)
    (h : Within M s0 s) : Within M s0 (eventWrite s) := by
  refine h.after hm ?_
  clear h hm
  unfold eventWrite
  try dsimp only
  repeat' first
    | with_reducible exact Within.refl _ _
    | with_reducible refine evWriteOne_within _ _ (by decide) ?_
    | with_reducible refine evTidy_within _ (by decide) ?_
    | with_reducible refine modEv_within _ _ (by decide) (fun _ => by simp [modFirst_length]) ?_
    | with_reducible refine evSignal_within _ (by decide) ?_
    | with_reducible refine Within.foldlFst _ ?_ _ ?_
    | with_reducible refine Within.ite ?_ ?_
    | split
    | with_reducible intro _

theorem evSkipHeld_within {M : Nat} {s0 : State} (s : State) (hm : 67108864 ||| M = M)
    (h : Within M s0 s) : Within M s0 (evSkipHeld s) := by
  refine h.after hm ?_
  clear h hm
  unfold evSkipHeld
  try dsimp only
  repeat' first
    | with_reducible exact Within.refl _ _
    | with_reducible refine modEv_within _ _ (by decide) (fun _ => by simp [modFirst_length]) ?_

theorem evtRing_within {M : Nat} {s0 : State} (v : Word64) (s : State) (hm : 67108864 ||| M = M)
    (h : Within M s0 s) : Within M s0 (evtRing v s) := by
  refine h.after hm ?_
  clear h hm
  unfold evtRing
  try dsimp only
  repeat' first
    | with_reducible exact Within.refl _ _
    | with_reducible refine evTidy_within _ (by decide) ?_
    | with_reducible refine modEv_within _ _ (by decide) (fun _ => by exact id) ?_
    | with_reducible refine evSkipHeld_within _ (by decide) ?_
    | with_reducible refine Within.ite ?_ ?_

theorem evtCons_within {M : Nat} {s0 : State} (v : Word64) (s : State) (hm : 67108864 ||| M = M)
    (h : Within M s0 s) : Within M s0 (evtCons v s) := by
  refine h.after hm ?_
  clear h hm
  unfold evtCons
  try dsimp only
  repeat' first
    | with_reducible exact Within.refl _ _
    | with_reducible refine modEv_within _ _ (by decide) (fun _ => by exact id) ?_
    | with_reducible refine Within.ite ?_ ?_

theorem obsBad_within {M : Nat} {s0 : State} (s : State) (hm : 117440546 ||| M = M)
    (h : Within M s0 s) : Within M s0 (obsBad s) := by
  refine h.after hm ?_
  clear h hm
  unfold obsBad
  try dsimp only
  repeat' first
    | with_reducible exact Within.refl _ _
    | with_reducible refine raise_within _ _ _ _ _ _ (by decide) ?_

theorem obsFilter_within {M : Nat} {s0 : State} (v : Word64) (s : State) (hm : 117440546 ||| M = M)
    (h : Within M s0 s) : Within M s0 (obsFilter v s) := by
  refine h.after hm ?_
  clear h hm
  unfold obsFilter
  try dsimp only
  repeat' first
    | with_reducible exact Within.refl _ _
    | with_reducible refine modObs_within _ _ (by decide) ?_
    | with_reducible refine obsBad_within _ (by decide) ?_
    | with_reducible refine Within.ite ?_ ?_

theorem obsRing_within {M : Nat} {s0 : State} (v : Word64) (s : State) (hm : 117440546 ||| M = M)
    (h : Within M s0 s) : Within M s0 (obsRing v s) := by
  refine h.after hm ?_
  clear h hm
  unfold obsRing
  try dsimp only
  repeat' first
    | with_reducible exact Within.refl _ _
    | with_reducible refine obsBad_within _ (by decide) ?_
    | with_reducible refine modObs_within _ _ (by decide) ?_
    | with_reducible refine Within.ite ?_ ?_

theorem obsCons_within {M : Nat} {s0 : State} (v : Word64) (s : State) (hm : 117440546 ||| M = M)
    (h : Within M s0 s) : Within M s0 (obsCons v s) := by
  refine h.after hm ?_
  clear h hm
  unfold obsCons
  try dsimp only
  repeat' first
    | with_reducible exact Within.refl _ _
    | with_reducible refine modObs_within _ _ (by decide) ?_
    | with_reducible refine obsBad_within _ (by decide) ?_
    | with_reducible refine Within.ite ?_ ?_

theorem traceDomainPowered_within {M : Nat} {s0 : State} (s : State) (hm : 33554432 ||| M = M)
    (h : Within M s0 s) : Within M s0 (traceDomainPowered s) := by
  refine h.after hm ?_
  clear h hm
  unfold traceDomainPowered
  try dsimp only
  repeat' first
    | with_reducible exact Within.refl _ _
    | with_reducible refine modObs_within _ _ (by decide) ?_
    | with_reducible refine Within.ite ?_ ?_

theorem traceDrop_within {M : Nat} {s0 : State} (s : State) (hm : 117440546 ||| M = M)
    (h : Within M s0 s) : Within M s0 (traceDrop s) := by
  refine h.after hm ?_
  clear h hm
  unfold traceDrop
  try dsimp only
  repeat' first
    | with_reducible exact Within.refl _ _
    | with_reducible refine ctrAdd_within _ _ _ (by decide) ?_
    | with_reducible refine modObs_within _ _ (by decide) ?_
    | with_reducible refine raise_within _ _ _ _ _ _ (by decide) ?_
    | with_reducible refine Within.ite ?_ ?_

theorem traceDrained_within {M : Nat} {s0 : State} (s : State) (hm : 33554432 ||| M = M)
    (h : Within M s0 s) : Within M s0 (traceDrained s) := by
  refine h.after hm ?_
  clear h hm
  unfold traceDrained
  try dsimp only
  repeat' first
    | with_reducible exact Within.refl _ _
    | with_reducible refine modObs_within _ _ (by decide) ?_
    | with_reducible refine Within.ite ?_ ?_

theorem traceWrite_within {M : Nat} {s0 : State} (s : State) (hm : 654311970 ||| M = M)
    (h : Within M s0 s) : Within M s0 (traceWrite s) := by
  refine h.after hm ?_
  clear h hm
  unfold traceWrite
  try dsimp only
  repeat' first
    | with_reducible exact Within.refl _ _
    | with_reducible refine modObs_within _ _ (by decide) ?_
    | with_reducible refine traceDrained_within _ (by decide) ?_
    | with_reducible refine traceDrop_within _ (by decide) ?_
    | with_reducible refine ctrAdd_within _ _ _ (by decide) ?_
    | with_reducible refine hostWrite_within _ _ _ (by decide) ?_
    | with_reducible refine Within.ite ?_ ?_
    | split

theorem traceError_within {M : Nat} {s0 : State} (s : State) (hm : 117440546 ||| M = M)
    (h : Within M s0 s) : Within M s0 (traceError s) := by
  refine h.after hm ?_
  clear h hm
  unfold traceError
  try dsimp only
  repeat' first
    | with_reducible exact Within.refl _ _
    | with_reducible refine raise_within _ _ _ _ _ _ (by decide) ?_
    | with_reducible refine modObs_within _ _ (by decide) ?_
    | with_reducible refine Within.ite ?_ ?_

end Sys2Proof.Machine
end

