-- ==== Sys2Proof/Laws/Weights.lean ====
section
/-! SUPPORT. What each operation of Machine/Weights.lean may change: see Laws/Within.lean. -/

namespace Sys2Proof.Machine

theorem readYealms_within {M : Nat} {s0 : State} (s : State) (va : Nat) (nlayer : Nat) (a1 : Nat) (hm : 251659554 ||| M = M)
    (h : Within M s0 s) : Within M s0 (readYealms s va nlayer a1).2 := by
  refine h.after hm ?_
  clear h hm
  induction a1 generalizing s va nlayer with
  | zero =>
    unfold readYealms
    try dsimp only
    repeat' first
      | with_reducible exact Within.refl _ _
  | succ n ih =>
    unfold readYealms
    try dsimp only
    repeat' first
      | with_reducible exact Within.refl _ _
      | with_reducible refine Within.trans ?_ (ih _ _ _)
      | with_reducible refine devRead_within _ _ _ (by decide) ?_
      | split

theorem readManifest_within {M : Nat} {s0 : State} (s : State) (m : Nat) (va : Nat) (gen : Nat) (hm : 251659554 ||| M = M)
    (h : Within M s0 s) : Within M s0 (readManifest s m va gen).2 := by
  refine h.after hm ?_
  clear h hm
  unfold readManifest
  try dsimp only
  repeat' first
    | with_reducible exact Within.refl _ _
    | with_reducible refine devRead_within _ _ _ (by decide) ?_
    | with_reducible refine readYealms_within _ _ _ _ (by decide) ?_
    | with_reducible refine Within.iteSnd ?_ ?_
    | split

theorem sparReject_within {M : Nat} {s0 : State} (s : State) (m : Nat) (word : Nat) (hm : 117444642 ||| M = M)
    (h : Within M s0 s) : Within M s0 (sparReject s m word) := by
  refine h.after hm ?_
  clear h hm
  unfold sparReject
  try dsimp only
  repeat' first
    | with_reducible exact Within.refl _ _
    | with_reducible refine raise_within _ _ _ _ _ _ (by decide) ?_
    | with_reducible refine modWgt_within _ _ _ (by decide) ?_

theorem sparAccept_within {M : Nat} {s0 : State} (s : State) (m : Nat) (load : Bool) (slot : Bool) (man : Manifest) (hm : 251663650 ||| M = M)
    (h : Within M s0 s) : Within M s0 (sparAccept s m load slot man) := by
  refine h.after hm ?_
  clear h hm
  unfold sparAccept
  try dsimp only
  repeat' first
    | with_reducible exact Within.refl _ _
    | with_reducible refine modWgt_within _ _ _ (by decide) ?_
    | with_reducible refine each_within _ _ _ (by decide) ?_ ?_
    | with_reducible refine yealmStatus_within _ _ _ _ _ (by decide) ?_
    | with_reducible refine setState_within _ _ _ (by decide) ?_
    | with_reducible refine Within.ite ?_ ?_
    | with_reducible intro _

theorem sparJudge_within {M : Nat} {s0 : State} (s : State) (m : Nat) (entry : List Byte) (hm : 251663650 ||| M = M)
    (h : Within M s0 s) : Within M s0 (sparJudge s m entry) := by
  refine h.after hm ?_
  clear h hm
  unfold sparJudge
  try dsimp only
  repeat' first
    | with_reducible exact Within.refl _ _
    | with_reducible refine sparReject_within _ _ _ (by decide) ?_
    | with_reducible refine readManifest_within _ _ _ _ (by decide) ?_
    | with_reducible refine sparAccept_within _ _ _ _ _ (by decide) ?_
    | with_reducible refine Within.ite ?_ ?_
    | split

theorem dropLoad_within {M : Nat} {s0 : State} (m : Nat) (gen : Nat) (which : Nat → Bool) (s : State) (hm : 5120 ||| M = M)
    (h : Within M s0 s) : Within M s0 (dropLoad m gen which s) := by
  refine h.after hm ?_
  clear h hm
  unfold dropLoad
  try dsimp only
  repeat' first
    | with_reducible exact Within.refl _ _
    | with_reducible refine modWgt_within _ _ _ (by decide) ?_
    | with_reducible refine Within.at_xlt (by decide)  ?_

theorem buildFail_within {M : Nat} {s0 : State} (s : State) (m : Nat) (gen : Nat) (hm : 251663650 ||| M = M)
    (h : Within M s0 s) : Within M s0 (buildFail s m gen) := by
  refine h.after hm ?_
  clear h hm
  unfold buildFail
  try dsimp only
  repeat' first
    | with_reducible exact Within.refl _ _
    | with_reducible refine dropLoad_within _ _ _ _ (by decide) ?_
    | with_reducible refine modWgt_within _ _ _ (by decide) ?_
    | with_reducible refine raise_within _ _ _ _ _ _ (by decide) ?_
    | with_reducible refine setState_within _ _ _ (by decide) ?_
    | with_reducible refine Within.ite ?_ ?_
    | split

theorem stage_within {M : Nat} {s0 : State} (s : State) (m : Nat) (gen : Nat) (st : Nat) (hm : 251663650 ||| M = M)
    (h : Within M s0 s) : Within M s0 (stage s m gen st) := by
  refine h.after hm ?_
  clear h hm
  unfold stage
  try dsimp only
  repeat' first
    | with_reducible exact Within.refl _ _
    | with_reducible refine setState_within _ _ _ (by decide) ?_
    | with_reducible refine modWgt_within _ _ _ (by decide) ?_

theorem putVa_within {M : Nat} {s0 : State} (s : State) (va : Nat) (bs : List Byte) (hm : 251659554 ||| M = M)
    (h : Within M s0 s) : Within M s0 (putVa s va bs).2 := by
  refine h.after hm ?_
  clear h hm
  unfold putVa
  try dsimp only
  repeat' first
    | with_reducible exact Within.refl _ _
    | with_reducible refine translate_within _ _ _ _ _ (by decide) ?_
    | with_reducible refine writePA_within _ _ _ (by decide) ?_
    | with_reducible refine Within.foldlSnd _ ?_ _ ?_
    | split
    | with_reducible intro _

theorem crcOk_within {M : Nat} {s0 : State} (s : State) (va : Nat) (n : Nat) (crc : BitVec 32) (hm : 251659554 ||| M = M)
    (h : Within M s0 s) : Within M s0 (crcOk s va n crc).2 := by
  refine h.after hm ?_
  clear h hm
  unfold crcOk
  try dsimp only
  repeat' first
    | with_reducible exact Within.refl _ _
    | with_reducible refine devRead_within _ _ _ (by decide) ?_

theorem verifyYealm_within {M : Nat} {s0 : State} (s : State) (y : Yealm) (hm : 251659554 ||| M = M)
    (h : Within M s0 s) : Within M s0 (verifyYealm s y).2 := by
  refine h.after hm ?_
  clear h hm
  unfold verifyYealm
  try dsimp only
  repeat' first
    | with_reducible exact Within.refl _ _
    | with_reducible refine crcOk_within _ _ _ _ (by decide) ?_
    | with_reducible refine Within.iteSnd ?_ ?_

theorem verifyAll_within {M : Nat} {s0 : State} (l : List Yealm) (s : State) (hm : 251659554 ||| M = M)
    (h : Within M s0 s) : Within M s0 (verifyAll l s).2 := by
  refine h.after hm ?_
  clear h hm
  unfold verifyAll
  try dsimp only
  repeat' first
    | with_reducible exact Within.refl _ _
    | with_reducible refine verifyYealm_within _ _ (by decide) ?_
    | with_reducible refine Within.foldlSnd _ ?_ _ ?_
    | split
    | with_reducible intro _

theorem verifyComplete_within {M : Nat} {s0 : State} (m : Nat) (s : State) (hm : 251663650 ||| M = M)
    (h : Within M s0 s) : Within M s0 (verifyComplete m s) := by
  refine h.after hm ?_
  clear h hm
  unfold verifyComplete
  try dsimp only
  repeat' first
    | with_reducible exact Within.refl _ _
    | with_reducible refine verifyAll_within _ _ (by decide) ?_
    | with_reducible refine buildFail_within _ _ _ (by decide) ?_
    | with_reducible refine each_within _ _ _ (by decide) ?_ ?_
    | with_reducible refine yealmStatus_within _ _ _ _ _ (by decide) ?_
    | with_reducible refine setState_within _ _ _ (by decide) ?_
    | with_reducible refine modWgt_within _ _ _ (by decide) ?_
    | with_reducible refine Within.ite ?_ ?_
    | split
    | with_reducible intro _

theorem refetchFail_within {M : Nat} {s0 : State} (s : State) (m : Nat) (y : Nat) (hm : 251663650 ||| M = M)
    (h : Within M s0 s) : Within M s0 (refetchFail s m y) := by
  refine h.after hm ?_
  clear h hm
  unfold refetchFail
  try dsimp only
  repeat' first
    | with_reducible exact Within.refl _ _
    | with_reducible refine modWgt_within _ _ _ (by decide) ?_
    | with_reducible refine dropLoad_within _ _ _ _ (by decide) ?_
    | with_reducible refine modCopy_within _ _ _ _ (by decide) ?_
    | with_reducible refine yealmStatus_within _ _ _ _ _ (by decide) ?_
    | with_reducible refine raise_within _ _ _ _ _ _ (by decide) ?_
    | with_reducible refine setHealth_within _ _ _ (by decide) ?_
    | with_reducible refine Within.ite ?_ ?_
    | split

theorem refetchOk_within {M : Nat} {s0 : State} (s : State) (m : Nat) (y : Nat) (hm : 251663650 ||| M = M)
    (h : Within M s0 s) : Within M s0 (refetchOk s m y) := by
  refine h.after hm ?_
  clear h hm
  unfold refetchOk
  try dsimp only
  repeat' first
    | with_reducible exact Within.refl _ _
    | with_reducible refine modWgt_within _ _ _ (by decide) ?_
    | with_reducible refine dropLoad_within _ _ _ _ (by decide) ?_
    | with_reducible refine modCopy_within _ _ _ _ (by decide) ?_
    | with_reducible refine putPoisoned_within _ _ (by decide) ?_
    | with_reducible refine yealmStatus_within _ _ _ _ _ (by decide) ?_
    | with_reducible refine setHealth_within _ _ _ (by decide) ?_
    | with_reducible refine raise_within _ _ _ _ _ _ (by decide) ?_
    | with_reducible refine Within.ite ?_ ?_
    | split

theorem weightSrc_within {M : Nat} {s0 : State} (s : State) (va : Nat) (hm : 117444642 ||| M = M)
    (h : Within M s0 s) : Within M s0 (weightSrc s va).2 := by
  refine h.after hm ?_
  clear h hm
  unfold weightSrc
  try dsimp only
  repeat' first
    | with_reducible exact Within.refl _ _
    | with_reducible refine raise_within _ _ _ _ _ _ (by decide) ?_
    | with_reducible refine modCopy_within _ _ _ _ (by decide) ?_
    | with_reducible refine Within.iteSnd ?_ ?_
    | with_reducible refine Within.ite ?_ ?_
    | split

theorem costEntry_within {M : Nat} {s0 : State} (s : State) (d : Nat) (m : Nat) (hm : 251659554 ||| M = M)
    (h : Within M s0 s) : Within M s0 (costEntry s d m).2 := by
  refine h.after hm ?_
  clear h hm
  unfold costEntry
  try dsimp only
  repeat' first
    | with_reducible exact Within.refl _ _
    | with_reducible refine devRead_within _ _ _ (by decide) ?_
    | with_reducible refine Within.iteSnd ?_ ?_
    | split

theorem streamCheck_within {M : Nat} {s0 : State} (s : State) (d : Nat) (m : Nat) (hm : 251659554 ||| M = M)
    (h : Within M s0 s) : Within M s0 (streamCheck s d m) := by
  refine h.after hm ?_
  clear h hm
  unfold streamCheck
  try dsimp only
  repeat' first
    | with_reducible exact Within.refl _ _
    | with_reducible refine costEntry_within _ _ _ (by decide) ?_
    | with_reducible refine each_within _ _ _ (by decide) ?_ ?_
    | with_reducible refine raise_within _ _ _ _ _ _ (by decide) ?_
    | with_reducible refine Within.ite ?_ ?_
    | split
    | with_reducible intro _

theorem modelChanged_within {M : Nat} {s0 : State} (s : State) (m : Nat) (hm : 64 ||| M = M)
    (h : Within M s0 s) : Within M s0 (modelChanged s m) := by
  refine h.after hm ?_
  clear h hm
  unfold modelChanged
  try dsimp only
  repeat' first
    | with_reducible exact Within.refl _ _
    | with_reducible refine Within.at_seq (by decide) (by (left; simp; done)) ?_

theorem copyFallback_within {M : Nat} {s0 : State} (s : State) (m : Nat) (fb : Nat) (hm : 64 ||| M = M)
    (h : Within M s0 s) : Within M s0 (copyFallback s m fb) := by
  refine h.after hm ?_
  clear h hm
  unfold copyFallback
  try dsimp only
  repeat' first
    | with_reducible exact Within.refl _ _
    | with_reducible refine Within.at_seq (by decide) (by (left; simp; done)) ?_

theorem sparSwitch_within {M : Nat} {s0 : State} (s : State) (d : Nat) (m : Nat) (word : Nat) (c : WCopy) (hm : 251663714 ||| M = M)
    (h : Within M s0 s) : Within M s0 (sparSwitch s d m word c) := by
  refine h.after hm ?_
  clear h hm
  unfold sparSwitch
  try dsimp only
  repeat' first
    | with_reducible exact Within.refl _ _
    | with_reducible refine modWgt_within _ _ _ (by decide) ?_
    | with_reducible refine setState_within _ _ _ (by decide) ?_
    | with_reducible refine catPut_within _ _ _ _ (by decide) ?_
    | with_reducible refine putPoisoned_within _ _ (by decide) ?_
    | with_reducible refine raise_within _ _ _ _ _ _ (by decide) ?_
    | with_reducible refine copyFallback_within _ _ _ (by decide) ?_
    | with_reducible refine streamCheck_within _ _ _ (by decide) ?_
    | with_reducible refine modelChanged_within _ _ (by decide) ?_
    | with_reducible refine Within.ite ?_ ?_

theorem switchLapse_within {M : Nat} {s0 : State} (s : State) (m : Nat) (word : Nat) (hm : 117444642 ||| M = M)
    (h : Within M s0 s) : Within M s0 (switchLapse s m word) := by
  refine h.after hm ?_
  clear h hm
  unfold switchLapse
  try dsimp only
  repeat' first
    | with_reducible exact Within.refl _ _
    | with_reducible refine raise_within _ _ _ _ _ _ (by decide) ?_
    | with_reducible refine modWgt_within _ _ _ (by decide) ?_

theorem switchJudge_within {M : Nat} {s0 : State} (s : State) (d : Nat) (m : Nat) (entry : List Byte) (hm : 251663714 ||| M = M)
    (h : Within M s0 s) : Within M s0 (switchJudge s d m entry) := by
  refine h.after hm ?_
  clear h hm
  unfold switchJudge
  try dsimp only
  repeat' first
    | with_reducible exact Within.refl _ _
    | with_reducible refine sparSwitch_within _ _ _ _ _ (by decide) ?_
    | with_reducible refine switchLapse_within _ _ _ (by decide) ?_
    | with_reducible refine Within.ite ?_ ?_
    | split

theorem readWords_within {M : Nat} {s0 : State} (s : State) (d : Nat) (hm : 251663714 ||| M = M)
    (h : Within M s0 s) : Within M s0 (readWords s d) := by
  refine h.after hm ?_
  clear h hm
  unfold readWords
  try dsimp only
  repeat' first
    | with_reducible exact Within.refl _ _
    | with_reducible refine each_within _ _ _ (by decide) ?_ ?_
    | with_reducible refine devRead_within _ _ _ (by decide) ?_
    | with_reducible refine modWgt_within _ _ _ (by decide) ?_
    | with_reducible refine catSync_within _ _ (by decide) ?_
    | with_reducible refine switchJudge_within _ _ _ _ (by decide) ?_
    | with_reducible refine sparJudge_within _ _ _ (by decide) ?_
    | with_reducible refine Within.ite ?_ ?_
    | split
    | with_reducible intro _

theorem copyRetire_within {M : Nat} {s0 : State} (m : Nat) (s : State) (hm : 251663650 ||| M = M)
    (h : Within M s0 s) : Within M s0 (copyRetire m s) := by
  refine h.after hm ?_
  clear h hm
  unfold copyRetire
  try dsimp only
  repeat' first
    | with_reducible exact Within.refl _ _
    | with_reducible refine modWgt_within _ _ _ (by decide) ?_
    | with_reducible refine dropLoad_within _ _ _ _ (by decide) ?_
    | with_reducible refine raise_within _ _ _ _ _ _ (by decide) ?_
    | with_reducible refine catPut_within _ _ _ _ (by decide) ?_
    | with_reducible refine Within.ite ?_ ?_
    | split

theorem releaseRefs_within {M : Nat} {s0 : State} (slot : Nat) (s : State) (hm : 4096 ||| M = M)
    (h : Within M s0 s) : Within M s0 (releaseRefs slot s) := by
  refine h.after hm ?_
  clear h hm
  unfold releaseRefs
  try dsimp only
  repeat' first
    | with_reducible exact Within.refl _ _
    | with_reducible refine Within.at_wgt (by decide) (by (left; simp; done)) ?_

theorem fetchFailure_within {M : Nat} {s0 : State} (m : Nat) (y : Nat) (what : FetchFail) (s : State) (hm : 251663650 ||| M = M)
    (h : Within M s0 s) : Within M s0 (fetchFailure m y what s) := by
  refine h.after hm ?_
  clear h hm
  unfold fetchFailure
  try dsimp only
  repeat' first
    | with_reducible exact Within.refl _ _
    | with_reducible refine modWgt_within _ _ _ (by decide) ?_
    | with_reducible refine raise_within _ _ _ _ _ _ (by decide) ?_
    | with_reducible refine refetchFail_within _ _ _ (by decide) ?_
    | with_reducible refine buildFail_within _ _ _ (by decide) ?_
    | with_reducible refine Within.ite ?_ ?_
    | with_reducible refine Within.optElim ?_ ?_
    | split
    | with_reducible intro _

theorem modelNotice_within {M : Nat} {s0 : State} (m : Nat) (tick : Nat) (toFb : Bool) (s : State) (hm : 4096 ||| M = M)
    (h : Within M s0 s) : Within M s0 (modelNotice m tick toFb s) := by
  refine h.after hm ?_
  clear h hm
  unfold modelNotice
  try dsimp only
  repeat' first
    | with_reducible exact Within.refl _ _
    | with_reducible refine modWgt_within _ _ _ (by decide) ?_

theorem fallbackNotice_within {M : Nat} {s0 : State} (m : Nat) (tick : Nat) (s : State) (hm : 4096 ||| M = M)
    (h : Within M s0 s) : Within M s0 (fallbackNotice m tick s) := by
  refine h.after hm ?_
  clear h hm
  unfold fallbackNotice
  try dsimp only
  repeat' first
    | with_reducible exact Within.refl _ _
    | with_reducible refine modelNotice_within _ _ _ _ (by decide) ?_

theorem returnNotice_within {M : Nat} {s0 : State} (m : Nat) (tick : Nat) (s : State) (hm : 4096 ||| M = M)
    (h : Within M s0 s) : Within M s0 (returnNotice m tick s) := by
  refine h.after hm ?_
  clear h hm
  unfold returnNotice
  try dsimp only
  repeat' first
    | with_reducible exact Within.refl _ _
    | with_reducible refine modelNotice_within _ _ _ _ (by decide) ?_

theorem sequenceNotice_within {M : Nat} {s0 : State} (slot : Nat) (toFallback : Bool) (tick : Nat) (s : State) (hm : 64 ||| M = M)
    (h : Within M s0 s) : Within M s0 (sequenceNotice slot toFallback tick s) := by
  refine h.after hm ?_
  clear h hm
  unfold sequenceNotice
  try dsimp only
  repeat' first
    | with_reducible exact Within.refl _ _
    | with_reducible refine modSeq_within _ _ _ (by decide) ?_
    | with_reducible refine Within.ite ?_ ?_

end Sys2Proof.Machine
end

