-- ==== Sys2Proof/Laws/Dma.lean ====
section
/-! SUPPORT. What each operation of Machine/Dma.lean may change: see Laws/Within.lean. -/

namespace Sys2Proof.Machine

theorem weightBytes_within {M : Nat} {s0 : State} (m : SrcMode) (va : Nat) (n : Nat) (x : Xfer) (hm : 251663650 ||| M = M)
    (h : Within M s0 x.s) : Within M s0 (weightBytes m va n x).2.s := by
  refine h.after hm ?_
  clear h hm
  unfold weightBytes
  try dsimp only
  repeat' first
    | with_reducible exact Within.refl _ _
    | with_reducible refine weightSrc_within _ _ (by decide) ?_
    | with_reducible refine srcBytes_within _ _ _ _ (by decide) ?_
    | with_reducible refine Within.foldlBy (fun p : _ × Xfer => p.2.s) _ ?_ _ ?_
    | split
    | with_reducible intro _

theorem copySource_within {M : Nat} {s0 : State} (d : DmaDesc) (a : Nat) (n : Nat) (x : Xfer) (hm : 251664162 ||| M = M)
    (h : Within M s0 x.s) : Within M s0 (copySource d a n x).2.s := by
  refine h.after hm ?_
  clear h hm
  unfold copySource
  try dsimp only
  repeat' first
    | with_reducible exact Within.refl _ _
    | with_reducible refine storeBytes_within _ _ _ _ (by decide) ?_
    | with_reducible refine weightBytes_within _ _ _ _ (by decide) ?_
    | with_reducible refine srcBytes_within _ _ _ _ (by decide) ?_
    | split

theorem copyDest_within {M : Nat} {s0 : State} (d : DmaDesc) (a : Nat) (x : Xfer) (hm : 251659554 ||| M = M)
    (h : Within M s0 x.s) : Within M s0 (copyDest d a x).2 := by
  refine h.after hm ?_
  clear h hm
  unfold copyDest
  try dsimp only
  repeat' first
    | with_reducible exact Within.refl _ _
    | with_reducible refine translate_within _ _ _ _ _ (by decide) ?_
    | with_reducible refine Within.iteSnd ?_ ?_

theorem copyPut_within {M : Nat} {s0 : State} (d : DmaDesc) (sa : Nat) (a : Nat) (src : Option Bool) (g : Held) (x : Xfer) (hm : 1056966434 ||| M = M)
    (h : Within M s0 x.s) : Within M s0 (copyPut d sa a src g x).2.s := by
  refine h.after hm ?_
  clear h hm
  unfold copyPut
  try dsimp only
  repeat' first
    | with_reducible exact Within.refl _ _
    | with_reducible refine copyDest_within _ _ _ (by decide) ?_
    | with_reducible refine placePut_within _ _ _ _ (by decide) ?_
    | with_reducible refine storePut_within _ _ _ _ _ (by decide) ?_
    | split

theorem copyAsk_within {M : Nat} {s0 : State} (e : Nat) (dst : Nat) (va : Nat) (n : Nat) (op : MemOp) (data : List Byte) (x : Xfer) (hm : 117466154 ||| M = M)
    (h : Within M s0 x.s) : Within M s0 (copyAsk e dst va n op data x).2.s := by
  refine h.after hm ?_
  clear h hm
  unfold copyAsk
  try dsimp only
  repeat' first
    | with_reducible exact Within.refl _ _
    | with_reducible refine t4Send_within _ _ _ _ _ _ _ _ _ (by decide) ?_

theorem copyPiece_within {M : Nat} {s0 : State} (e : Nat) (d : DmaDesc) (a : Nat) (n : Nat) (x : Xfer) (hm : 1056995114 ||| M = M)
    (h : Within M s0 x.s) : Within M s0 (copyPiece e d a n x).2.s := by
  refine h.after hm ?_
  clear h hm
  unfold copyPiece
  try dsimp only
  repeat' first
    | with_reducible exact Within.refl _ _
    | with_reducible refine copyDest_within _ _ _ (by decide) ?_
    | with_reducible refine copyAsk_within _ _ _ _ _ _ _ (by decide) ?_
    | with_reducible refine copySource_within _ _ _ _ (by decide) ?_
    | with_reducible refine copyPut_within _ _ _ _ _ _ (by decide) ?_
    | split

theorem runCopy_within {M : Nat} {s0 : State} (e : Nat) (c : DmaCmd) (s : State) (hm : 1057325034 ||| M = M)
    (h : Within M s0 s) : Within M s0 (runCopy e c s) := by
  refine h.after hm ?_
  clear h hm
  unfold runCopy
  try dsimp only
  repeat' first
    | with_reducible exact Within.refl _ _
    | with_reducible refine settle_within _ _ (by decide) ?_
    | with_reducible refine runPieces_within _ _ _ _ (by decide) ?_ ?_
    | with_reducible unfold copyPieces
    | with_reducible refine piecesMap _ _ _ ?_
    | with_reducible refine copyPiece_within _ _ _ _ _ (by decide) ?_
    | with_reducible intro _

theorem copyAnswered_within {M : Nat} {s0 : State} (e : Nat) (sent : Bool) (bad : Bool) (data : List Byte) (s : State) (hm : 1057325034 ||| M = M)
    (h : Within M s0 s) : Within M s0 (copyAnswered e sent bad data s) := by
  refine h.after hm ?_
  clear h hm
  unfold copyAnswered
  try dsimp only
  repeat' first
    | with_reducible exact Within.refl _ _
    | with_reducible refine modEng_within _ _ _ (by decide) ?_
    | with_reducible refine settle_within _ _ (by decide) ?_
    | with_reducible refine runPieces_within _ _ _ _ (by decide) ?_ ?_
    | with_reducible refine complete_within _ _ _ _ (by decide) ?_
    | with_reducible refine copyPut_within _ _ _ _ _ _ (by decide) ?_
    | with_reducible refine advance_within _ _ _ _ _ (by decide) ?_
    | with_reducible unfold copyPieces
    | with_reducible refine piecesMap _ _ _ ?_
    | with_reducible refine copyPiece_within _ _ _ _ _ (by decide) ?_
    | with_reducible refine Within.ite ?_ ?_
    | split
    | with_reducible intro _

theorem vaPlaces_within {M : Nat} {s0 : State} (hostOk : Bool) (va : Nat) (n : Nat) (s : State) (port : optParam Nat 0) (hm : 251659554 ||| M = M)
    (h : Within M s0 s) : Within M s0 (vaPlaces hostOk va n s port).2 := by
  refine h.after hm ?_
  clear h hm
  unfold vaPlaces
  try dsimp only
  repeat' first
    | with_reducible exact Within.refl _ _
    | with_reducible refine translate_within _ _ _ _ _ (by decide) ?_
    | with_reducible refine Within.foldlSnd _ ?_ _ ?_
    | split
    | with_reducible intro _

theorem putPlaces_within {M : Nat} {s0 : State} (l : List (Xl × Nat)) (bs : List Byte) (poison : Bool) (s : State) (hm : 788529954 ||| M = M)
    (h : Within M s0 s) : Within M s0 (putPlaces l bs poison s) := by
  refine h.after hm ?_
  clear h hm
  unfold putPlaces
  try dsimp only
  repeat' first
    | with_reducible exact Within.refl _ _
    | with_reducible refine placePut_within _ _ _ _ (by decide) ?_
    | with_reducible refine Within.foldlSnd _ ?_ _ ?_
    | with_reducible intro _

theorem packPiece_within {M : Nat} {s0 : State} (d : DmaDesc) (i : Nat) (u : Nat) (bh : Nat) (bw : Nat) (x : Xfer) (hm : 788530978 ||| M = M)
    (h : Within M s0 x.s) : Within M s0 (packPiece d i u bh bw x).2.s := by
  refine h.after hm ?_
  clear h hm
  unfold packPiece
  try dsimp only
  repeat' first
    | with_reducible exact Within.refl _ _
    | with_reducible refine each_within _ _ _ (by decide) ?_ ?_
    | with_reducible refine csSettle_within _ _ _ (by decide) ?_
    | with_reducible refine vaPlaces_within _ _ _ _ _ (by decide) ?_
    | with_reducible refine putPlaces_within _ _ _ _ (by decide) ?_
    | split
    | with_reducible intro _

theorem runPack_within {M : Nat} {s0 : State} (e : Nat) (c : DmaCmd) (s : State) (hm : 788865002 ||| M = M)
    (h : Within M s0 s) : Within M s0 (runPack e c s) := by
  refine h.after hm ?_
  clear h hm
  unfold runPack
  try dsimp only
  repeat' first
    | with_reducible exact Within.refl _ _
    | with_reducible refine settle_within _ _ (by decide) ?_
    | with_reducible refine runPieces_within _ _ _ _ (by decide) ?_ ?_
    | with_reducible unfold packPieces
    | with_reducible refine piecesMap _ _ _ ?_
    | with_reducible refine packPiece_within _ _ _ _ _ _ (by decide) ?_
    | with_reducible intro _

theorem unpackBlock_within {M : Nat} {s0 : State} (e : Nat) (seq : Nat) (d : DmaDesc) (base : Nat) (ch : Nat) (bh : Nat) (bw : Nat) (bs : List Byte) (s : State) (hm : 385876514 ||| M = M)
    (h : Within M s0 s) : Within M s0 (unpackBlock e seq d base ch bh bw bs s) := by
  refine h.after hm ?_
  clear h hm
  unfold unpackBlock
  try dsimp only
  repeat' first
    | with_reducible exact Within.refl _ _
    | with_reducible refine each_within _ _ _ (by decide) ?_ ?_
    | with_reducible refine raise_within _ _ _ _ _ _ (by decide) ?_
    | with_reducible refine csWrite_within _ _ _ _ (by decide) ?_
    | with_reducible refine Within.ite ?_ ?_
    | with_reducible intro _

theorem unpackPiece_within {M : Nat} {s0 : State} (e : Nat) (d : DmaDesc) (i : Nat) (u : Nat) (bh : Nat) (bw : Nat) (x : Xfer) (hm : 520095522 ||| M = M)
    (h : Within M s0 x.s) : Within M s0 (unpackPiece e d i u bh bw x).2.s := by
  refine h.after hm ?_
  clear h hm
  unfold unpackPiece
  try dsimp only
  repeat' first
    | with_reducible exact Within.refl _ _
    | with_reducible refine srcBytes_within _ _ _ _ (by decide) ?_
    | with_reducible refine each_within _ _ _ (by decide) ?_ ?_
    | with_reducible refine csPoisonAt_within _ _ _ (by decide) ?_
    | with_reducible refine unpackBlock_within _ _ _ _ _ _ _ _ _ (by decide) ?_
    | with_reducible refine Within.ite ?_ ?_
    | split
    | with_reducible intro _

theorem runUnpack_within {M : Nat} {s0 : State} (e : Nat) (c : DmaCmd) (s : State) (hm : 520429546 ||| M = M)
    (h : Within M s0 s) : Within M s0 (runUnpack e c s) := by
  refine h.after hm ?_
  clear h hm
  unfold runUnpack
  try dsimp only
  repeat' first
    | with_reducible exact Within.refl _ _
    | with_reducible refine settle_within _ _ (by decide) ?_
    | with_reducible refine runPieces_within _ _ _ _ (by decide) ?_ ?_
    | with_reducible unfold unpackPieces
    | with_reducible refine piecesMap _ _ _ ?_
    | with_reducible refine unpackPiece_within _ _ _ _ _ _ _ (by decide) ?_
    | with_reducible intro _

theorem inPiece_within {M : Nat} {s0 : State} (e : Nat) (d : DmaDesc) (ct : Container) (i : Nat) (x : Xfer) (hm : 1056966434 ||| M = M)
    (h : Within M s0 x.s) : Within M s0 (inPiece e d ct i x).2.s := by
  refine h.after hm ?_
  clear h hm
  unfold inPiece
  try dsimp only
  repeat' first
    | with_reducible exact Within.refl _ _
    | with_reducible refine readUnit_within _ _ _ _ _ (by decide) ?_
    | with_reducible refine raise_within _ _ _ _ _ _ (by decide) ?_
    | with_reducible refine storePut_within _ _ _ _ _ (by decide) ?_
    | with_reducible refine vaPlaces_within _ _ _ _ _ (by decide) ?_
    | with_reducible refine putPlaces_within _ _ _ _ (by decide) ?_
    | with_reducible refine Within.ite ?_ ?_
    | split

theorem runHostIn_within {M : Nat} {s0 : State} (e : Nat) (c : DmaCmd) (s : State) (hm : 1057300458 ||| M = M)
    (h : Within M s0 s) : Within M s0 (runHostIn e c s) := by
  refine h.after hm ?_
  clear h hm
  unfold runHostIn
  try dsimp only
  repeat' first
    | with_reducible exact Within.refl _ _
    | with_reducible refine readContainer_within _ _ _ (by decide) ?_
    | with_reducible refine settle_within _ _ (by decide) ?_
    | with_reducible refine runPieces_within _ _ _ _ (by decide) ?_ ?_
    | with_reducible refine inPiece_within _ _ _ _ _ (by decide) ?_
    | with_reducible refine piecesMap _ _ _ ?_
    | split
    | with_reducible intro _

theorem outSource_within {M : Nat} {s0 : State} (d : DmaDesc) (i : Nat) (n : Nat) (x : Xfer) (hm : 251660066 ||| M = M)
    (h : Within M s0 x.s) : Within M s0 (outSource d i n x).2.s := by
  refine h.after hm ?_
  clear h hm
  unfold outSource
  try dsimp only
  repeat' first
    | with_reducible exact Within.refl _ _
    | with_reducible refine storeBytes_within _ _ _ _ (by decide) ?_
    | with_reducible refine srcBytes_within _ _ _ _ (by decide) ?_
    | split

theorem frameOffset_within {M : Nat} {s0 : State} (s : State) (d : DmaDesc) (k : Nat) (port : Nat) (hm : 251659554 ||| M = M)
    (h : Within M s0 s) : Within M s0 (frameOffset s d k port).2.2 := by
  refine h.after hm ?_
  clear h hm
  unfold frameOffset
  try dsimp only
  repeat' first
    | with_reducible exact Within.refl _ _
    | with_reducible refine engRead_within _ _ _ _ _ _ (by decide) ?_
    | split

theorem putFrame_within {M : Nat} {s0 : State} (base : Nat) (fr : List Byte) (a1 : List ((Nat × Nat) × Nat)) (a2 : Xfer) (hm : 788530978 ||| M = M)
    (h : Within M s0 a2.s) : Within M s0 (putFrame base fr a1 a2).2.s := by
  refine h.after hm ?_
  clear h hm
  induction a1 generalizing base fr a2 with
  | nil =>
    unfold putFrame
    try dsimp only
    repeat' first
      | with_reducible exact Within.refl _ _
  | cons x l ih =>
    unfold putFrame
    try dsimp only
    repeat' first
      | with_reducible exact Within.refl _ _
      | with_reducible refine Within.trans ?_ (ih _ _ _)
      | with_reducible refine translate_within _ _ _ _ _ (by decide) ?_
      | with_reducible refine ctrAdd_within _ _ _ (by decide) ?_
      | with_reducible refine hostWrite_within _ _ _ (by decide) ?_
      | split

theorem putIndex_within {M : Nat} {s0 : State} (va : Nat) (n : Nat) (x : Xfer) (hm : 788530978 ||| M = M)
    (h : Within M s0 x.s) : Within M s0 (putIndex va n x).2.s := by
  refine h.after hm ?_
  clear h hm
  unfold putIndex
  try dsimp only
  repeat' first
    | with_reducible exact Within.refl _ _
    | with_reducible refine vaPlaces_within _ _ _ _ _ (by decide) ?_
    | with_reducible refine putPlaces_within _ _ _ _ (by decide) ?_
    | split

theorem outPiece_within {M : Nat} {s0 : State} (d : DmaDesc) (ct : Container) (i : Nat) (x : Xfer) (hm : 788530978 ||| M = M)
    (h : Within M s0 x.s) : Within M s0 (outPiece d ct i x).2.s := by
  refine h.after hm ?_
  clear h hm
  unfold outPiece
  try dsimp only
  repeat' first
    | with_reducible exact Within.refl _ _
    | with_reducible refine outSource_within _ _ _ _ (by decide) ?_
    | with_reducible refine frameOffset_within _ _ _ _ (by decide) ?_
    | with_reducible refine putFrame_within _ _ _ _ (by decide) ?_
    | with_reducible refine putIndex_within _ _ _ (by decide) ?_
    | split

theorem runHostOut_within {M : Nat} {s0 : State} (e : Nat) (c : DmaCmd) (s : State) (hm : 788865002 ||| M = M)
    (h : Within M s0 s) : Within M s0 (runHostOut e c s) := by
  refine h.after hm ?_
  clear h hm
  unfold runHostOut
  try dsimp only
  repeat' first
    | with_reducible exact Within.refl _ _
    | with_reducible refine readContainer_within _ _ _ (by decide) ?_
    | with_reducible refine settle_within _ _ (by decide) ?_
    | with_reducible refine runPieces_within _ _ _ _ (by decide) ?_ ?_
    | with_reducible refine outPiece_within _ _ _ _ (by decide) ?_
    | with_reducible refine piecesMap _ _ _ ?_
    | split
    | with_reducible intro _

theorem doorbell_within {M : Nat} {s0 : State} (n : Nat) (v : Word64) (s : State) (hm : 117442594 ||| M = M)
    (h : Within M s0 s) : Within M s0 (doorbell n v s) := by
  refine h.after hm ?_
  clear h hm
  unfold doorbell
  try dsimp only
  repeat' first
    | with_reducible exact Within.refl _ _
    | with_reducible refine modEng_within _ _ _ (by decide) ?_
    | with_reducible refine raise_within _ _ _ _ _ _ (by decide) ?_
    | with_reducible refine Within.ite ?_ ?_

end Sys2Proof.Machine
end

