-- ==== Sys2Proof/Laws/Codec.lean ====
section
/-! SUPPORT. What each operation of Machine/Codec.lean may change: see Laws/Within.lean. -/

namespace Sys2Proof.Machine

theorem powerHalves_within {M : Nat} {s0 : State} (s : State) (hm : 262144 ||| M = M)
    (h : Within M s0 s) : Within M s0 (powerHalves s) := by
  refine h.after hm ?_
  clear h hm
  unfold powerHalves
  try dsimp only
  repeat' first
    | with_reducible exact Within.refl _ _
    | with_reducible assumption
    | with_reducible refine Within.at_cod (by decide) (by first | (left; simp; done) | (right; simp; done) | exact .inl rfl) ?_
    | with_reducible intro _
    | with_reducible dsimp only

theorem openRefuse_within {M : Nat} {s0 : State} (s : State) (e : Nat) (i : Nat) (c : DmaCmd) (status : Nat) (hm : 251663850 ||| M = M)
    (h : Within M s0 s) : Within M s0 (openRefuse s e i c status) := by
  refine h.after hm ?_
  clear h hm
  unfold openRefuse
  try dsimp only
  repeat' first
    | with_reducible exact Within.refl _ _
    | with_reducible assumption
    | with_reducible refine complete_within _ _ _ _ (by decide) ?_
    | with_reducible refine raise_within _ _ _ _ _ _ (by decide) ?_
    | with_reducible intro _
    | with_reducible dsimp only

theorem runOpen_within {M : Nat} {s0 : State} (e : Nat) (c : DmaCmd) (s : State) (hm : 251993578 ||| M = M)
    (h : Within M s0 s) : Within M s0 (runOpen e c s) := by
  refine h.after hm ?_
  clear h hm
  unfold runOpen
  try dsimp only
  repeat' first
    | with_reducible exact Within.refl _ _
    | with_reducible assumption
    | with_reducible refine srcBytes_within _ _ _ _ (by decide) ?_
    | with_reducible refine settle_within _ _ (by decide) ?_
    | with_reducible refine openRefuse_within _ _ _ _ _ (by decide) ?_
    | with_reducible refine complete_within _ _ _ _ (by decide) ?_
    | with_reducible refine powerHalves_within _ (by decide) ?_
    | with_reducible refine modCtx_within _ _ _ (by decide) ?_
    | with_reducible refine Within.ite ?_ ?_
    | with_reducible refine Within.ofSnd (by assumption) ?_
    | split
    | with_reducible intro _
    | with_reducible dsimp only

theorem closedCtx_within {M : Nat} {s0 : State} (s : State) (e : Nat) (c : DmaCmd) (hm : 251663850 ||| M = M)
    (h : Within M s0 s) : Within M s0 (closedCtx s e c) := by
  refine h.after hm ?_
  clear h hm
  unfold closedCtx
  try dsimp only
  repeat' first
    | with_reducible exact Within.refl _ _
    | with_reducible assumption
    | with_reducible refine complete_within _ _ _ _ (by decide) ?_
    | with_reducible refine raise_within _ _ _ _ _ _ (by decide) ?_
    | with_reducible intro _
    | with_reducible dsimp only

theorem shutCtx_within {M : Nat} {s0 : State} (s : State) (i : Nat) (e : Nat) (c : DmaCmd) (hm : 251925994 ||| M = M)
    (h : Within M s0 s) : Within M s0 (shutCtx s i e c) := by
  refine h.after hm ?_
  clear h hm
  unfold shutCtx
  try dsimp only
  repeat' first
    | with_reducible exact Within.refl _ _
    | with_reducible assumption
    | with_reducible refine complete_within _ _ _ _ (by decide) ?_
    | with_reducible refine powerHalves_within _ (by decide) ?_
    | with_reducible refine modCtx_within _ _ _ (by decide) ?_
    | with_reducible intro _
    | with_reducible dsimp only

theorem closeIfDone_within {M : Nat} {s0 : State} (i : Nat) (s : State) (hm : 251925994 ||| M = M)
    (h : Within M s0 s) : Within M s0 (closeIfDone i s) := by
  refine h.after hm ?_
  clear h hm
  unfold closeIfDone
  try dsimp only
  repeat' first
    | with_reducible exact Within.refl _ _
    | with_reducible assumption
    | with_reducible refine shutCtx_within _ _ _ _ (by decide) ?_
    | with_reducible refine Within.ite ?_ ?_
    | with_reducible refine Within.ofSnd (by assumption) ?_
    | split
    | with_reducible intro _
    | with_reducible dsimp only

theorem runClose_within {M : Nat} {s0 : State} (e : Nat) (c : DmaCmd) (s : State) (hm : 251925994 ||| M = M)
    (h : Within M s0 s) : Within M s0 (runClose e c s) := by
  refine h.after hm ?_
  clear h hm
  unfold runClose
  try dsimp only
  repeat' first
    | with_reducible exact Within.refl _ _
    | with_reducible assumption
    | with_reducible refine closedCtx_within _ _ _ (by decide) ?_
    | with_reducible refine closeIfDone_within _ _ (by decide) ?_
    | with_reducible refine modCtx_within _ _ _ (by decide) ?_
    | with_reducible refine Within.ite ?_ ?_
    | split
    | with_reducible intro _
    | with_reducible dsimp only

theorem modPic_within {M : Nat} {s0 : State} (s : State) (i : Nat) (num : Nat) (f : Picture → Picture) (hm : 262144 ||| M = M)
    (h : Within M s0 s) : Within M s0 (modPic s i num f) := by
  refine h.after hm ?_
  clear h hm
  unfold modPic
  try dsimp only
  repeat' first
    | with_reducible exact Within.refl _ _
    | with_reducible assumption
    | with_reducible refine modCtx_within _ _ _ (by decide) ?_
    | with_reducible refine Within.ite ?_ ?_
    | split
    | with_reducible intro _
    | with_reducible dsimp only

theorem dropPic_within {M : Nat} {s0 : State} (s : State) (i : Nat) (num : Nat) (hm : 262144 ||| M = M)
    (h : Within M s0 s) : Within M s0 (dropPic s i num) := by
  refine h.after hm ?_
  clear h hm
  unfold dropPic
  try dsimp only
  repeat' first
    | with_reducible exact Within.refl _ _
    | with_reducible assumption
    | with_reducible refine modCtx_within _ _ _ (by decide) ?_
    | with_reducible intro _
    | with_reducible dsimp only

theorem markLate_within {M : Nat} {s0 : State} (i : Nat) (s : State) (p : Picture) (hm : 117702690 ||| M = M)
    (h : Within M s0 s) : Within M s0 (markLate i s p) := by
  refine h.after hm ?_
  clear h hm
  unfold markLate
  try dsimp only
  repeat' first
    | with_reducible exact Within.refl _ _
    | with_reducible assumption
    | with_reducible refine modPic_within _ _ _ _ (by decide) ?_
    | with_reducible refine raise_within _ _ _ _ _ _ (by decide) ?_
    | with_reducible refine ctrAdd_within _ _ _ (by decide) ?_
    | with_reducible intro _
    | with_reducible dsimp only

theorem codLate_within {M : Nat} {s0 : State} (d : Nat) (n : Nat) (s : State) (hm : 117702690 ||| M = M)
    (h : Within M s0 s) : Within M s0 (codLate d n s) := by
  refine h.after hm ?_
  clear h hm
  unfold codLate
  try dsimp only
  repeat' first
    | with_reducible exact Within.refl _ _
    | with_reducible assumption
    | with_reducible refine each_within _ _ _ (by decide) ?_ ?_
    | with_reducible refine markLate_within _ _ _ (by decide) ?_
    | with_reducible refine Within.ite ?_ ?_
    | with_reducible refine Within.ofSnd (by assumption) ?_
    | split
    | with_reducible intro _
    | with_reducible dsimp only

theorem handPicture_within {M : Nat} {s0 : State} (e : Nat) (i : Nat) (c : DmaCmd) (p : Picture) (s : State) (hm : 251925994 ||| M = M)
    (h : Within M s0 s) : Within M s0 (handPicture e i c p s) := by
  refine h.after hm ?_
  clear h hm
  unfold handPicture
  try dsimp only
  repeat' first
    | with_reducible exact Within.refl _ _
    | with_reducible assumption
    | with_reducible refine closedCtx_within _ _ _ (by decide) ?_
    | with_reducible refine modPic_within _ _ _ _ (by decide) ?_
    | with_reducible refine modCtx_within _ _ _ (by decide) ?_
    | with_reducible refine markLate_within _ _ _ (by decide) ?_
    | with_reducible refine Within.ite ?_ ?_
    | with_reducible refine Within.ofSnd (by assumption) ?_
    | split
    | with_reducible intro _
    | with_reducible dsimp only

theorem runEncode_within {M : Nat} {s0 : State} (e : Nat) (c : DmaCmd) (s : State) (hm : 251925994 ||| M = M)
    (h : Within M s0 s) : Within M s0 (runEncode e c s) := by
  refine h.after hm ?_
  clear h hm
  unfold runEncode
  try dsimp only
  repeat' first
    | with_reducible exact Within.refl _ _
    | with_reducible assumption
    | with_reducible refine handPicture_within _ _ _ _ _ (by decide) ?_
    | with_reducible refine Within.optElim ?_ ?_
    | with_reducible refine Within.ofSnd (by assumption) ?_
    | split
    | with_reducible intro _
    | with_reducible dsimp only

theorem runDecode_within {M : Nat} {s0 : State} (e : Nat) (au : AccessUnit) (c : DmaCmd) (s : State) (hm : 251925994 ||| M = M)
    (h : Within M s0 s) : Within M s0 (runDecode e au c s) := by
  refine h.after hm ?_
  clear h hm
  unfold runDecode
  try dsimp only
  repeat' first
    | with_reducible exact Within.refl _ _
    | with_reducible assumption
    | with_reducible refine handPicture_within _ _ _ _ _ (by decide) ?_
    | with_reducible intro _
    | with_reducible dsimp only

theorem readCons_within {M : Nat} {s0 : State} (ring : Nat) (x : Xfer) (hm : 251659554 ||| M = M)
    (h : Within M s0 x.s) : Within M s0 (readCons ring x).2.s := by
  refine h.after hm ?_
  clear h hm
  unfold readCons
  try dsimp only
  repeat' first
    | with_reducible exact Within.refl _ _
    | with_reducible assumption
    | with_reducible refine srcBytes_within _ _ _ _ (by decide) ?_
    | with_reducible refine Within.ofSnd (by assumption) ?_
    | split
    | with_reducible intro _
    | with_reducible dsimp only

theorem putAll_within {M : Nat} {s0 : State} (ws : List (Nat × List Byte)) (s : State) (hm : 788530978 ||| M = M)
    (h : Within M s0 s) : Within M s0 (putAll ws s).2 := by
  refine h.after hm ?_
  clear h hm
  unfold putAll
  try dsimp only
  repeat' first
    | with_reducible exact Within.refl _ _
    | with_reducible assumption
    | with_reducible refine vaPlaces_within _ _ _ _ _ (by decide) ?_
    | with_reducible refine each_within _ _ _ (by decide) ?_ ?_
    | with_reducible refine putPlaces_within _ _ _ _ (by decide) ?_
    | with_reducible refine Within.foldl _ ?_ _ ?_
    | with_reducible refine Within.foldlSnd _ ?_ _ ?_
    | with_reducible refine Within.foldlFst _ ?_ _ ?_
    | with_reducible refine Within.iteSnd ?_ ?_
    | with_reducible refine Within.ite ?_ ?_
    | with_reducible refine Within.ofSnd (by assumption) ?_
    | split
    | with_reducible intro _
    | with_reducible dsimp only

theorem rowFail_within {M : Nat} {s0 : State} (i : Nat) (p : Picture) (z : PieceEnd) (s : State) (hm : 251993578 ||| M = M)
    (h : Within M s0 s) : Within M s0 (rowFail i p z s) := by
  refine h.after hm ?_
  clear h hm
  unfold rowFail
  try dsimp only
  repeat' first
    | with_reducible exact Within.refl _ _
    | with_reducible assumption
    | with_reducible refine settle_within _ _ (by decide) ?_
    | with_reducible refine modPic_within _ _ _ _ (by decide) ?_
    | with_reducible refine closeIfDone_within _ _ (by decide) ?_
    | with_reducible refine dropPic_within _ _ _ (by decide) ?_
    | with_reducible refine Within.ite ?_ ?_
    | with_reducible refine Within.ofSnd (by assumption) ?_
    | split
    | with_reducible intro _
    | with_reducible dsimp only

theorem picDone_within {M : Nat} {s0 : State} (i : Nat) (p : Picture) (nbits : Nat) (budget : Nat) (order : Nat) (s : State) (hm : 251925994 ||| M = M)
    (h : Within M s0 s) : Within M s0 (picDone i p nbits budget order s) := by
  refine h.after hm ?_
  clear h hm
  unfold picDone
  try dsimp only
  repeat' first
    | with_reducible exact Within.refl _ _
    | with_reducible assumption
    | with_reducible refine finishCmd_within _ _ _ _ _ (by decide) ?_
    | with_reducible refine dropPic_within _ _ _ (by decide) ?_
    | with_reducible refine trace_within _ _ _ _ _ (by decide) ?_
    | with_reducible refine closeIfDone_within _ _ (by decide) ?_
    | with_reducible intro _
    | with_reducible dsimp only

theorem beginPic_within {M : Nat} {s0 : State} (s : State) (i : Nat) (d : CtxDesc) (x : CtxSt) (p : Picture) (hm : 262144 ||| M = M)
    (h : Within M s0 s) : Within M s0 (beginPic s i d x p).2 := by
  refine h.after hm ?_
  clear h hm
  unfold beginPic
  try dsimp only
  repeat' first
    | with_reducible exact Within.refl _ _
    | with_reducible assumption
    | with_reducible refine Within.iteSnd ?_ ?_
    | with_reducible refine Within.ite ?_ ?_
    | with_reducible refine Within.at_cod (by decide) (by first | (left; simp; done) | (right; simp; done) | exact .inl rfl) ?_
    | split
    | with_reducible intro _
    | with_reducible dsimp only

theorem readRow_within {M : Nat} {s0 : State} (d : CtxDesc) (src : Nat) (row : Nat) (x : Xfer) (hm : 251659554 ||| M = M)
    (h : Within M s0 x.s) : Within M s0 (readRow d src row x).2.s := by
  refine h.after hm ?_
  clear h hm
  unfold readRow
  try dsimp only
  repeat' first
    | with_reducible exact Within.refl _ _
    | with_reducible assumption
    | with_reducible refine srcBytes_within _ _ _ _ (by decide) ?_
    | with_reducible refine Within.foldl _ ?_ _ ?_
    | with_reducible refine Within.foldlSnd _ ?_ _ ?_
    | with_reducible refine Within.foldlFst _ ?_ _ ?_
    | with_reducible refine Within.foldlBy (fun p : _ × Xfer => p.2.s) _ ?_ _ ?_
    | with_reducible refine Within.ite ?_ ?_
    | with_reducible refine Within.ite ?_ ?_
    | with_reducible refine Within.ofSnd (by assumption) ?_
    | split
    | with_reducible intro _
    | with_reducible dsimp only

theorem stageEvents_within {M : Nat} {s0 : State} (s : State) (i : Nat) (x : CtxSt) (p : Picture) (hm : 117440546 ||| M = M)
    (h : Within M s0 s) : Within M s0 (stageEvents s i x p) := by
  refine h.after hm ?_
  clear h hm
  unfold stageEvents
  try dsimp only
  repeat' first
    | with_reducible exact Within.refl _ _
    | with_reducible assumption
    | with_reducible refine raise_within _ _ _ _ _ _ (by decide) ?_
    | with_reducible refine ctrAdd_within _ _ _ (by decide) ?_
    | with_reducible refine Within.ite ?_ ?_
    | split
    | with_reducible intro _
    | with_reducible dsimp only

theorem encEnd_within {M : Nat} {s0 : State} (i : Nat) (d : CtxDesc) (old : Picture) (p0 : Picture) (s : State) (hm : 788865002 ||| M = M)
    (h : Within M s0 s) : Within M s0 (encEnd i d old p0 s) := by
  refine h.after hm ?_
  clear h hm
  unfold encEnd
  try dsimp only
  repeat' first
    | with_reducible exact Within.refl _ _
    | with_reducible assumption
    | with_reducible refine putAll_within _ _ (by decide) ?_
    | with_reducible refine rowFail_within _ _ _ _ (by decide) ?_
    | with_reducible refine modPic_within _ _ _ _ (by decide) ?_
    | with_reducible refine modCtx_within _ _ _ (by decide) ?_
    | with_reducible refine picDone_within _ _ _ _ _ _ (by decide) ?_
    | with_reducible refine ctrAdd_within _ _ _ (by decide) ?_
    | with_reducible refine stageEvents_within _ _ _ _ (by decide) ?_
    | with_reducible refine Within.ite ?_ ?_
    | with_reducible refine Within.optElim ?_ ?_
    | with_reducible refine Within.ofSnd (by assumption) ?_
    | split
    | with_reducible intro _
    | with_reducible dsimp only

theorem encRow_within {M : Nat} {s0 : State} (i : Nat) (d : CtxDesc) (p : Picture) (s : State) (hm : 788865002 ||| M = M)
    (h : Within M s0 s) : Within M s0 (encRow i d p s) := by
  refine h.after hm ?_
  clear h hm
  unfold encRow
  try dsimp only
  repeat' first
    | with_reducible exact Within.refl _ _
    | with_reducible assumption
    | with_reducible refine readRow_within _ _ _ _ (by decide) ?_
    | with_reducible refine rowFail_within _ _ _ _ (by decide) ?_
    | with_reducible refine raise_within _ _ _ _ _ _ (by decide) ?_
    | with_reducible refine modPic_within _ _ _ _ (by decide) ?_
    | with_reducible refine encEnd_within _ _ _ _ _ (by decide) ?_
    | with_reducible refine Within.foldl _ ?_ _ ?_
    | with_reducible refine Within.foldlSnd _ ?_ _ ?_
    | with_reducible refine Within.foldlFst _ ?_ _ ?_
    | with_reducible refine Within.ite ?_ ?_
    | with_reducible refine Within.ofSnd (by assumption) ?_
    | split
    | with_reducible intro _
    | with_reducible dsimp only

theorem encTry_within {M : Nat} {s0 : State} (i : Nat) (d : CtxDesc) (p : Picture) (s : State) (hm : 788865002 ||| M = M)
    (h : Within M s0 s) : Within M s0 (encTry i d p s).2 := by
  refine h.after hm ?_
  clear h hm
  unfold encTry
  try dsimp only
  repeat' first
    | with_reducible exact Within.refl _ _
    | with_reducible assumption
    | with_reducible refine encRow_within _ _ _ _ (by decide) ?_
    | with_reducible refine readCons_within _ _ (by decide) ?_
    | with_reducible refine rowFail_within _ _ _ _ (by decide) ?_
    | with_reducible refine beginPic_within _ _ _ _ _ (by decide) ?_
    | with_reducible refine modPic_within _ _ _ _ (by decide) ?_
    | with_reducible refine Within.iteSnd ?_ ?_
    | with_reducible refine Within.ite ?_ ?_
    | with_reducible refine Within.ofSnd (by assumption) ?_
    | split
    | with_reducible intro _
    | with_reducible dsimp only

theorem readAu_within {M : Nat} {s0 : State} (p : Picture) (s : State) (hm : 251659554 ||| M = M)
    (h : Within M s0 s) : Within M s0 (readAu p s).2 := by
  refine h.after hm ?_
  clear h hm
  unfold readAu
  try dsimp only
  repeat' first
    | with_reducible exact Within.refl _ _
    | with_reducible assumption
    | with_reducible refine srcBytes_within _ _ _ _ (by decide) ?_
    | with_reducible refine Within.ofSnd (by assumption) ?_
    | split
    | with_reducible intro _
    | with_reducible dsimp only

theorem decFail_within {M : Nat} {s0 : State} (i : Nat) (p : Picture) (z : PieceEnd) (s : State) (hm : 251993578 ||| M = M)
    (h : Within M s0 s) : Within M s0 (decFail i p z s) := by
  refine h.after hm ?_
  clear h hm
  unfold decFail
  try dsimp only
  repeat' first
    | with_reducible exact Within.refl _ _
    | with_reducible assumption
    | with_reducible refine rowFail_within _ _ _ _ (by decide) ?_
    | with_reducible refine modPic_within _ _ _ _ (by decide) ?_
    | with_reducible intro _
    | with_reducible dsimp only

theorem decEnd_within {M : Nat} {s0 : State} (i : Nat) (d : CtxDesc) (p : Picture) (a : AccessUnit) (s : State) (hm : 788865002 ||| M = M)
    (h : Within M s0 s) : Within M s0 (decEnd i d p a s).2 := by
  refine h.after hm ?_
  clear h hm
  unfold decEnd
  try dsimp only
  repeat' first
    | with_reducible exact Within.refl _ _
    | with_reducible assumption
    | with_reducible refine readAu_within _ _ (by decide) ?_
    | with_reducible refine decFail_within _ _ _ _ (by decide) ?_
    | with_reducible refine modCtx_within _ _ _ (by decide) ?_
    | with_reducible refine each_within _ _ _ (by decide) ?_ ?_
    | with_reducible refine raise_within _ _ _ _ _ _ (by decide) ?_
    | with_reducible refine ctrAdd_within _ _ _ (by decide) ?_
    | with_reducible refine picDone_within _ _ _ _ _ _ (by decide) ?_
    | with_reducible refine readCons_within _ _ (by decide) ?_
    | with_reducible refine putAll_within _ _ (by decide) ?_
    | with_reducible refine Within.iteSnd ?_ ?_
    | with_reducible refine Within.ite ?_ ?_
    | with_reducible refine Within.ofSnd (by assumption) ?_
    | split
    | with_reducible intro _
    | with_reducible dsimp only

theorem decTry_within {M : Nat} {s0 : State} (i : Nat) (d : CtxDesc) (p : Picture) (s : State) (hm : 788865002 ||| M = M)
    (h : Within M s0 s) : Within M s0 (decTry i d p s).2 := by
  refine h.after hm ?_
  clear h hm
  unfold decTry
  try dsimp only
  repeat' first
    | with_reducible exact Within.refl _ _
    | with_reducible assumption
    | with_reducible refine modPic_within _ _ _ _ (by decide) ?_
    | with_reducible refine decEnd_within _ _ _ _ _ (by decide) ?_
    | with_reducible refine Within.iteSnd ?_ ?_
    | with_reducible refine Within.ite ?_ ?_
    | with_reducible refine Within.ofSnd (by assumption) ?_
    | split
    | with_reducible intro _
    | with_reducible dsimp only

theorem tryRows_within {M : Nat} {s0 : State} (l : List Nat) (s : State) (hm : 788865002 ||| M = M)
    (h : Within M s0 s) : Within M s0 (tryRows l s).2 := by
  refine h.after hm ?_
  clear h hm
  unfold tryRows
  try dsimp only
  repeat' first
    | with_reducible exact Within.refl _ _
    | with_reducible assumption
    | with_reducible refine encTry_within _ _ _ _ (by decide) ?_
    | with_reducible refine decTry_within _ _ _ _ (by decide) ?_
    | with_reducible refine Within.foldl _ ?_ _ ?_
    | with_reducible refine Within.foldlSnd _ ?_ _ ?_
    | with_reducible refine Within.foldlFst _ ?_ _ ?_
    | with_reducible refine Within.iteSnd ?_ ?_
    | with_reducible refine Within.ite ?_ ?_
    | with_reducible refine Within.ofSnd (by assumption) ?_
    | split
    | with_reducible intro _
    | with_reducible dsimp only

theorem rowSchedule_within {M : Nat} {s0 : State} (x : Nat) (encoder : Bool) (s : State) (hm : 788865002 ||| M = M)
    (h : Within M s0 s) : Within M s0 (rowSchedule x encoder s) := by
  refine h.after hm ?_
  clear h hm
  unfold rowSchedule
  try dsimp only
  repeat' first
    | with_reducible exact Within.refl _ _
    | with_reducible assumption
    | with_reducible refine tryRows_within _ _ (by decide) ?_
    | with_reducible refine Within.ite ?_ ?_
    | with_reducible refine Within.ofSnd (by assumption) ?_
    | split
    | with_reducible refine Within.at_cod (by decide) (by first | (left; simp; done) | (right; simp; done) | exact .inl rfl) ?_
    | with_reducible intro _
    | with_reducible dsimp only

theorem codKeyreq_within {M : Nat} {s0 : State} (v : Word64) (s : State) (hm : 262144 ||| M = M)
    (h : Within M s0 s) : Within M s0 (codKeyreq v s) := by
  refine h.after hm ?_
  clear h hm
  unfold codKeyreq
  try dsimp only
  repeat' first
    | with_reducible exact Within.refl _ _
    | with_reducible assumption
    | with_reducible refine Within.at_cod (by decide) (by first | (left; simp; done) | (right; simp; done) | exact .inl rfl) ?_
    | with_reducible intro _
    | with_reducible dsimp only

theorem codAborted_within {M : Nat} {s0 : State} (c : DmaCmd) (s : State) (hm : 251925994 ||| M = M)
    (h : Within M s0 s) : Within M s0 (codAborted c s) := by
  refine h.after hm ?_
  clear h hm
  unfold codAborted
  try dsimp only
  repeat' first
    | with_reducible exact Within.refl _ _
    | with_reducible assumption
    | with_reducible refine closeIfDone_within _ _ (by decide) ?_
    | with_reducible refine dropPic_within _ _ _ (by decide) ?_
    | with_reducible refine Within.ite ?_ ?_
    | split
    | with_reducible intro _
    | with_reducible dsimp only

end Sys2Proof.Machine
end

