-- ==== Sys2Proof/Laws/Latch.lean ====
section
/-! SUPPORT. What each operation of Machine/Latch.lean may change: see Laws/Within.lean. -/

namespace Sys2Proof.Machine

theorem readGen_within {M : Nat} {s0 : State} (base : Nat) (held : Option Bool) (gen : Nat) (lastRej : Option Nat) (s : State) (hm : 251659554 ||| M = M)
    (h : Within M s0 s) : Within M s0 (readGen base held gen lastRej s).2 := by
  refine h.after hm ?_
  clear h hm
  unfold readGen
  try dsimp only
  repeat' first
    | with_reducible exact Within.refl _ _
    | with_reducible refine devRead_within _ _ _ (by decide) ?_
    | with_reducible refine Within.iteSnd ?_ ?_
    | split

theorem sliceReject_within {M : Nat} {s0 : State} (word : Nat) (s : State) (hm : 117473314 ||| M = M)
    (h : Within M s0 s) : Within M s0 (sliceReject word s) := by
  refine h.after hm ?_
  clear h hm
  unfold sliceReject
  try dsimp only
  repeat' first
    | with_reducible exact Within.refl _ _
    | with_reducible refine raise_within _ _ _ _ _ _ (by decide) ?_
    | with_reducible refine Within.at_self (by decide)  ?_

theorem sliceTake_within {M : Nat} {s0 : State} (slot : Bool) (r : SliceRec) (dirs : List Byte) (s : State) (hm : 117473314 ||| M = M)
    (h : Within M s0 s) : Within M s0 (sliceTake slot r dirs s) := by
  refine h.after hm ?_
  clear h hm
  unfold sliceTake
  try dsimp only
  repeat' first
    | with_reducible exact Within.refl _ _
    | with_reducible refine raise_within _ _ _ _ _ _ (by decide) ?_
    | with_reducible refine Within.at_self (by decide)  ?_

theorem sliceLatch_within {M : Nat} {s0 : State} (d : Nat) (s : State) (hm : 251692322 ||| M = M)
    (h : Within M s0 s) : Within M s0 (sliceLatch d s) := by
  refine h.after hm ?_
  clear h hm
  unfold sliceLatch
  try dsimp only
  repeat' first
    | with_reducible exact Within.refl _ _
    | with_reducible refine readGen_within _ _ _ _ _ (by decide) ?_
    | with_reducible refine sliceReject_within _ _ (by decide) ?_
    | with_reducible refine sliceTake_within _ _ _ _ (by decide) ?_
    | with_reducible refine devRead_within _ _ _ (by decide) ?_
    | with_reducible refine Within.ite ?_ ?_
    | split

end Sys2Proof.Machine
end

