-- ==== Sys2Proof/Laws/Matrix.lean ====
section
/-! SUPPORT. What each operation of Machine/Matrix.lean may change: see Laws/Within.lean. -/

namespace Sys2Proof.Machine

theorem modSlot_within {M : Nat} {s0 : State} (s : State) (c : Nat) (i : Nat) (f : AccSlot → AccSlot) (hm : 128 ||| M = M)
    (h : Within M s0 s) : Within M s0 (modSlot s c i f) := by
  refine h.after hm ?_
  clear h hm
  unfold modSlot
  try dsimp only
  repeat' first
    | with_reducible exact Within.refl _ _
    | with_reducible refine modCl_within _ _ _ (by decide) ?_

theorem reserveSlots_within {M : Nat} {s0 : State} (s : State) (c : Nat) (item : Nat) (rank : Nat) (l : List Nat) (hm : 128 ||| M = M)
    (h : Within M s0 s) : Within M s0 (reserveSlots s c item rank l) := by
  refine h.after hm ?_
  clear h hm
  unfold reserveSlots
  try dsimp only
  repeat' first
    | with_reducible exact Within.refl _ _
    | with_reducible refine each_within _ _ _ (by decide) ?_ ?_
    | with_reducible refine modSlot_within _ _ _ _ (by decide) ?_
    | with_reducible intro _

theorem unreserve_within {M : Nat} {s0 : State} (s : State) (c : Nat) (l : List Nat) (hm : 128 ||| M = M)
    (h : Within M s0 s) : Within M s0 (unreserve s c l) := by
  refine h.after hm ?_
  clear h hm
  unfold unreserve
  try dsimp only
  repeat' first
    | with_reducible exact Within.refl _ _
    | with_reducible refine each_within _ _ _ (by decide) ?_ ?_
    | with_reducible refine modSlot_within _ _ _ _ (by decide) ?_
    | with_reducible intro _

end Sys2Proof.Machine
end

