-- ==== Sys2Proof/Laws/Panels.lean ====
section
/-! SUPPORT. What each operation of Machine/Panels.lean may change: see Laws/Within.lean. -/

namespace Sys2Proof.Machine

theorem touchAll_within {M : Nat} {s0 : State} (s : State) (blk : Nat) (c : Nat) (seq : Nat) (ranges : List (Nat × Nat)) (hm : 117441058 ||| M = M)
    (h : Within M s0 s) : Within M s0 (touchAll s blk c seq ranges) := by
  refine h.after hm ?_
  clear h hm
  unfold touchAll
  try dsimp only
  repeat' first
    | with_reducible exact Within.refl _ _
    | with_reducible refine each_within _ _ _ (by decide) ?_ ?_
    | with_reducible refine csTouch_within _ _ _ _ _ (by decide) ?_
    | with_reducible intro _

end Sys2Proof.Machine
end

