-- ==== Sys2Proof/Laws/Precision.lean ====
section
/-! SUPPORT. What each operation of Machine/Precision.lean may change: see Laws/Within.lean. -/

namespace Sys2Proof.Machine

theorem rethatchCharge_within {M : Nat} {s0 : State} (s : State) (c : Nat) (slot : Nat) (cycles : Nat) (hm : 64 ||| M = M)
    (h : Within M s0 s) : Within M s0 (rethatchCharge s c slot cycles) := by
  refine h.after hm ?_
  clear h hm
  unfold rethatchCharge
  try dsimp only
  repeat' first
    | with_reducible exact Within.refl _ _
    | with_reducible refine modSeq_within _ _ _ (by decide) ?_

theorem rethatchTrace_within {M : Nat} {s0 : State} (s : State) (c : Nat) (slot : Nat) (action : Nat) (rung : Nat) (cycles : Nat) (hm : 117440546 ||| M = M)
    (h : Within M s0 s) : Within M s0 (rethatchTrace s c slot action rung cycles) := by
  refine h.after hm ?_
  clear h hm
  unfold rethatchTrace
  try dsimp only
  repeat' first
    | with_reducible exact Within.refl _ _
    | with_reducible refine trace_within _ _ _ _ _ (by decide) ?_

theorem rethatchDenied_within {M : Nat} {s0 : State} (s : State) (c : Nat) (slot : Nat) (rung : Nat) (hm : 117440610 ||| M = M)
    (h : Within M s0 s) : Within M s0 (rethatchDenied s c slot rung) := by
  refine h.after hm ?_
  clear h hm
  unfold rethatchDenied
  try dsimp only
  repeat' first
    | with_reducible exact Within.refl _ _
    | with_reducible refine rethatchTrace_within _ _ _ _ _ _ (by decide) ?_
    | with_reducible refine ctrAdd_within _ _ _ (by decide) ?_
    | with_reducible refine raise_within _ _ _ _ _ _ (by decide) ?_
    | with_reducible refine modSeq_within _ _ _ (by decide) ?_
    | with_reducible refine Within.ite ?_ ?_

theorem touchResiduals_within {M : Nat} {s0 : State} (s : State) (blk : Nat) (c : Nat) (slot : Nat) (p : PrecDesc) (blocks : List (Nat × Nat)) (hm : 117441058 ||| M = M)
    (h : Within M s0 s) : Within M s0 (touchResiduals s blk c slot p blocks) := by
  refine h.after hm ?_
  clear h hm
  unfold touchResiduals
  try dsimp only
  repeat' first
    | with_reducible exact Within.refl _ _
    | with_reducible refine touchAll_within _ _ _ _ _ (by decide) ?_
    | with_reducible refine each_within _ _ _ (by decide) ?_ ?_
    | with_reducible refine raise_within _ _ _ _ _ _ (by decide) ?_
    | with_reducible intro _

theorem csWrites_within {M : Nat} {s0 : State} (s : State) (c : Nat) (l : List (Nat × List Byte)) (hm : 268435968 ||| M = M)
    (h : Within M s0 s) : Within M s0 (csWrites s c l) := by
  refine h.after hm ?_
  clear h hm
  unfold csWrites
  try dsimp only
  repeat' first
    | with_reducible exact Within.refl _ _
    | with_reducible refine each_within _ _ _ (by decide) ?_ ?_
    | with_reducible refine csWrite_within _ _ _ _ (by decide) ?_
    | with_reducible intro _

end Sys2Proof.Machine
end

