-- ==== Sys2Proof/Laws/TileRun.lean ====
section
/-! SUPPORT. What each operation of Machine/TileRun.lean may change: see Laws/Within.lean. -/

namespace Sys2Proof.Machine

theorem prepStep_within {M : Nat} {s0 : State} (w : RunAt) (j : TileJob) (cell : Cell) (ra : Rung) (rb : Rung) (oa : List (Nat × Nat)) (ob : List (Nat × Nat)) (step : Nat) (k0 : Nat) (r : RunSt) (hm : 117441122 ||| M = M)
    (h : Within M s0 r.s) : Within M s0 (prepStep w j cell ra rb oa ob step k0 r).2.s := by
  refine h.after hm ?_
  clear h hm
  unfold prepStep
  try dsimp only
  repeat' first
    | with_reducible exact Within.refl _ _
    | with_reducible refine touchAll_within _ _ _ _ _ (by decide) ?_
    | with_reducible refine rethatchDenied_within _ _ _ _ (by decide) ?_
    | with_reducible refine raise_within _ _ _ _ _ _ (by decide) ?_
    | with_reducible refine Within.ite ?_ ?_
    | split

theorem takePanels_within {M : Nat} {s0 : State} (w : RunAt) (a : PanelSrc) (b : PanelSrc) (s : State) (hm : 117441186 ||| M = M)
    (h : Within M s0 s) : Within M s0 (takePanels w a b s).2 := by
  refine h.after hm ?_
  clear h hm
  unfold takePanels
  try dsimp only
  repeat' first
    | with_reducible exact Within.refl _ _
    | with_reducible refine touchAll_within _ _ _ _ _ (by decide) ?_
    | with_reducible refine modCl_within _ _ _ (by decide) ?_

theorem tileEvents_within {M : Nat} {s0 : State} (w : RunAt) (ps : List (Panel × Panel)) (r : RunSt) (hm : 117440546 ||| M = M)
    (h : Within M s0 r.s) : Within M s0 (tileEvents w ps r).s := by
  refine h.after hm ?_
  clear h hm
  unfold tileEvents
  try dsimp only
  repeat' first
    | with_reducible exact Within.refl _ _
    | with_reducible refine raise_within _ _ _ _ _ _ (by decide) ?_
    | with_reducible refine Within.ite ?_ ?_

theorem TileProg.run_within {M : Nat} {s0 : State} (p : TileProg) (s : State) (hm : 0 ||| M = M)
    (h : Within M s0 s) : Within M s0 (TileProg.run p s).s := by
  refine h.after hm ?_
  clear h hm
  unfold TileProg.run
  try dsimp only
  repeat' first
    | with_reducible exact Within.refl _ _

theorem tileStep_within {M : Nat} {s0 : State} (w : RunAt) (j : TileJob) (cell : Cell) (rank : Nat) (held : Option Group) (p : TileProg) (k : Nat × Nat) (s : State) (hm : 117441250 ||| M = M)
    (h : Within M s0 s) : Within M s0 (tileStep w j cell rank held p k s).s := by
  refine h.after hm ?_
  clear h hm
  unfold tileStep
  try dsimp only
  repeat' first
    | with_reducible exact Within.refl _ _
    | with_reducible refine prepStep_within _ _ _ _ _ _ _ _ _ _ (by decide) ?_
    | with_reducible refine TileProg.run_within _ _ (by decide) ?_
    | with_reducible refine takePanels_within _ _ _ _ (by decide) ?_
    | with_reducible refine tileEvents_within _ _ _ (by decide) ?_
    | with_reducible refine drew_within _ (by decide) ?_

theorem chargeRerun_within {M : Nat} {s0 : State} (w : RunAt) (p : TileProg) (s : State) (hm : 64 ||| M = M)
    (h : Within M s0 s) : Within M s0 (chargeRerun w p s) := by
  refine h.after hm ?_
  clear h hm
  unfold chargeRerun
  try dsimp only
  repeat' first
    | with_reducible exact Within.refl _ _
    | with_reducible refine rethatchCharge_within _ _ _ _ (by decide) ?_
    | with_reducible refine Within.ite ?_ ?_

theorem traceRerun_within {M : Nat} {s0 : State} (w : RunAt) (p : TileProg) (s : State) (hm : 117440546 ||| M = M)
    (h : Within M s0 s) : Within M s0 (traceRerun w p s) := by
  refine h.after hm ?_
  clear h hm
  unfold traceRerun
  try dsimp only
  repeat' first
    | with_reducible exact Within.refl _ _
    | with_reducible refine rethatchTrace_within _ _ _ _ _ _ (by decide) ?_
    | with_reducible refine Within.ite ?_ ?_

theorem tileClose_within {M : Nat} {s0 : State} (w : RunAt) (j : TileJob) (cell : Cell) (g : Group) (p : TileProg) (s : State) (hm : 117441122 ||| M = M)
    (h : Within M s0 s) : Within M s0 (tileClose w j cell g p s).1 := by
  refine h.after hm ?_
  clear h hm
  unfold tileClose
  try dsimp only
  repeat' first
    | with_reducible exact Within.refl _ _
    | with_reducible refine traceRerun_within _ _ _ (by decide) ?_
    | with_reducible refine chargeRerun_within _ _ _ (by decide) ?_
    | with_reducible refine touchResiduals_within _ _ _ _ _ _ (by decide) ?_
    | with_reducible refine raise_within _ _ _ _ _ _ (by decide) ?_
    | with_reducible refine rethatchDenied_within _ _ _ _ (by decide) ?_
    | with_reducible refine ctrAdd_within _ _ _ (by decide) ?_
    | with_reducible refine Within.iteFst ?_ ?_
    | with_reducible refine Within.ite ?_ ?_
    | split

end Sys2Proof.Machine
end

