-- ==== Sys2Proof/Laws/Conv.lean ====
section
/-! SUPPORT. What each operation of Machine/Conv.lean may change: see Laws/Within.lean. -/

namespace Sys2Proof.Machine

theorem ConvJob.gridStep_within {M : Nat} {s0 : State} (j : ConvJob) (w : RunAt) (cell : Cell) (rank : Nat) (held : Option Group) (p : TileProg) (k : Nat × Nat) (s : State) (hm : 117441186 ||| M = M)
    (h : Within M s0 s) : Within M s0 (ConvJob.gridStep j w cell rank held p k s).s := by
  refine h.after hm ?_
  clear h hm
  unfold ConvJob.gridStep
  try dsimp only
  repeat' first
    | with_reducible exact Within.refl _ _
    | with_reducible refine takePanels_within _ _ _ _ (by decide) ?_
    | with_reducible refine tileEvents_within _ _ _ (by decide) ?_
    | with_reducible refine TileProg.run_within _ _ (by decide) ?_
    | with_reducible refine drew_within _ (by decide) ?_

theorem ConvJob.tileRun_within {M : Nat} {s0 : State} (j : ConvJob) (w : RunAt) (r : RunSt) (i : Nat) (hm : 117441058 ||| M = M)
    (h : Within M s0 r.s) : Within M s0 (ConvJob.tileRun j w r i).r.s := by
  refine h.after hm ?_
  clear h hm
  unfold ConvJob.tileRun
  try dsimp only
  repeat' first
    | with_reducible exact Within.refl _ _
    | with_reducible refine touchAll_within _ _ _ _ _ (by decide) ?_
    | with_reducible refine raise_within _ _ _ _ _ _ (by decide) ?_
    | with_reducible refine Within.ite ?_ ?_

theorem notePrep_within {M : Nat} {s0 : State} (s : State) (p : Prep) (hm : 512 ||| M = M)
    (h : Within M s0 s) : Within M s0 (notePrep s p) := by
  refine h.after hm ?_
  clear h hm
  unfold notePrep
  try dsimp only
  repeat' first
    | with_reducible exact Within.refl _ _
    | with_reducible refine Within.ite ?_ ?_
    | with_reducible refine Within.at_st (by decide) id id (.inr rfl) (.inr rfl) ?_

theorem ConvJob.prepRun_within {M : Nat} {s0 : State} (j : ConvJob) (w : RunAt) (r : RunSt) (o : Nat) (hm : 117441058 ||| M = M)
    (h : Within M s0 r.s) : Within M s0 (ConvJob.prepRun j w r o).r.s := by
  refine h.after hm ?_
  clear h hm
  unfold ConvJob.prepRun
  try dsimp only
  repeat' first
    | with_reducible exact Within.refl _ _
    | with_reducible refine touchAll_within _ _ _ _ _ (by decide) ?_
    | with_reducible refine raise_within _ _ _ _ _ _ (by decide) ?_
    | with_reducible refine notePrep_within _ _ (by decide) ?_
    | with_reducible refine Within.ite ?_ ?_

theorem ConvJob.unitRun_within {M : Nat} {s0 : State} (j : ConvJob) (w : RunAt) (i : Nat) (r : RunSt) (hm : 117441058 ||| M = M)
    (h : Within M s0 r.s) : Within M s0 (ConvJob.unitRun j w i r).r.s := by
  refine h.after hm ?_
  clear h hm
  unfold ConvJob.unitRun
  try dsimp only
  repeat' first
    | with_reducible exact Within.refl _ _
    | with_reducible refine ConvJob.prepRun_within _ _ _ _ (by decide) ?_
    | with_reducible refine ConvJob.tileRun_within _ _ _ _ (by decide) ?_
    | split

end Sys2Proof.Machine
end

