-- ==== Sys2Proof/Laws/Steps.lean ====
section
/-! SUPPORT. What each operation of Machine/Steps.lean may change: see Laws/Within.lean. -/

namespace Sys2Proof.Machine

theorem setProg_within {M : Nat} {s0 : State} (s : State) (c : Nat) (t : Nat) (p : Option TileProg) (hm : 128 ||| M = M)
    (h : Within M s0 s) : Within M s0 (setProg s c t p) := by
  refine h.after hm ?_
  clear h hm
  unfold setProg
  try dsimp only
  repeat' first
    | with_reducible exact Within.refl _ _
    | with_reducible refine modThr_within _ _ _ _ (by decide) ?_

theorem queueNext_within {M : Nat} {s0 : State} (s : State) (c : Nat) (t : Nat) (hm : 128 ||| M = M)
    (h : Within M s0 s) : Within M s0 (queueNext s c t) := by
  refine h.after hm ?_
  clear h hm
  unfold queueNext
  try dsimp only
  repeat' first
    | with_reducible exact Within.refl _ _
    | with_reducible refine modCl_within _ _ _ (by decide) ?_

theorem progDone_within {M : Nat} {s0 : State} (s : State) (c : Nat) (t : Nat) (p : TileProg) (hm : 128 ||| M = M)
    (h : Within M s0 s) : Within M s0 (progDone s c t p) := by
  refine h.after hm ?_
  clear h hm
  unfold progDone
  try dsimp only
  repeat' first
    | with_reducible exact Within.refl _ _
    | with_reducible refine setProg_within _ _ _ _ (by decide) ?_
    | with_reducible refine unreserve_within _ _ _ (by decide) ?_
    | with_reducible refine ready_within _ _ _ (by decide) ?_
    | with_reducible refine Within.ite ?_ ?_

theorem progClose_within {M : Nat} {s0 : State} (w : RunAt) (p : TileProg) (cell : Cell) (g : Group) (s : State) (hm : 117441122 ||| M = M)
    (h : Within M s0 s) : Within M s0 (progClose w p cell g s).1 := by
  refine h.after hm ?_
  clear h hm
  unfold progClose
  try dsimp only
  repeat' first
    | with_reducible exact Within.refl _ _
    | with_reducible refine tileClose_within _ _ _ _ _ _ (by decide) ?_
    | with_reducible refine Within.iteFst ?_ ?_

theorem progStep_within {M : Nat} {s0 : State} (w : RunAt) (p : TileProg) (cell : Cell) (rank : Nat) (held : Option Group) (k : Nat × Nat) (s : State) (hm : 117441250 ||| M = M)
    (h : Within M s0 s) : Within M s0 (progStep w p cell rank held k s).s := by
  refine h.after hm ?_
  clear h hm
  unfold progStep
  try dsimp only
  repeat' first
    | with_reducible exact Within.refl _ _
    | with_reducible refine tileStep_within _ _ _ _ _ _ _ _ (by decide) ?_
    | with_reducible refine ConvJob.gridStep_within _ _ _ _ _ _ _ _ (by decide) ?_
    | split

theorem attemptEnd_within {M : Nat} {s0 : State} (s : State) (c : Nat) (t : Nat) (p : TileProg) (hm : 117441250 ||| M = M)
    (h : Within M s0 s) : Within M s0 (attemptEnd s c t p) := by
  refine h.after hm ?_
  clear h hm
  unfold attemptEnd
  try dsimp only
  repeat' first
    | with_reducible exact Within.refl _ _
    | with_reducible refine progDone_within _ _ _ _ (by decide) ?_
    | with_reducible refine modSlot_within _ _ _ _ (by decide) ?_
    | with_reducible refine progClose_within _ _ _ _ _ (by decide) ?_
    | with_reducible refine queueNext_within _ _ _ (by decide) ?_
    | with_reducible refine setProg_within _ _ _ _ (by decide) ?_
    | with_reducible refine Within.ite ?_ ?_
    | split

theorem takeArray_within {M : Nat} {s0 : State} (s : State) (c : Nat) (t : Nat) (p : TileProg) (x : StepRec) (promo : Option (Nat × Nat)) (out : List (Nat × List Byte)) (hm : 128 ||| M = M)
    (h : Within M s0 s) : Within M s0 (takeArray s c t p x promo out) := by
  refine h.after hm ?_
  clear h hm
  unfold takeArray
  try dsimp only
  repeat' first
    | with_reducible exact Within.refl _ _
    | with_reducible refine modCl_within _ _ _ (by decide) ?_
    | with_reducible refine setProg_within _ _ _ _ (by decide) ?_

theorem beginStep_within {M : Nat} {s0 : State} (s : State) (c : Nat) (t : Nat) (hm : 117441250 ||| M = M)
    (h : Within M s0 s) : Within M s0 (beginStep s c t) := by
  refine h.after hm ?_
  clear h hm
  unfold beginStep
  try dsimp only
  repeat' first
    | with_reducible exact Within.refl _ _
    | with_reducible refine ConvJob.unitRun_within _ _ _ _ (by decide) ?_
    | with_reducible refine TileProg.run_within _ _ (by decide) ?_
    | with_reducible refine takeArray_within _ _ _ _ _ _ _ (by decide) ?_
    | with_reducible refine progStep_within _ _ _ _ _ _ _ (by decide) ?_
    | with_reducible refine modSlot_within _ _ _ _ (by decide) ?_
    | with_reducible refine attemptEnd_within _ _ _ _ (by decide) ?_
    | with_reducible refine Within.ite ?_ ?_
    | split

theorem startWaiting_within {M : Nat} {s0 : State} (c : Nat) (a1 : Nat) (a2 : State) (hm : 117441250 ||| M = M)
    (h : Within M s0 a2) : Within M s0 (startWaiting c a1 a2) := by
  refine h.after hm ?_
  clear h hm
  induction a1 generalizing c a2 with
  | zero =>
    unfold startWaiting
    try dsimp only
    repeat' first
      | with_reducible exact Within.refl _ _
  | succ n ih =>
    unfold startWaiting
    try dsimp only
    repeat' first
      | with_reducible exact Within.refl _ _
      | with_reducible refine Within.trans ?_ (ih _ _)
      | with_reducible refine beginStep_within _ _ _ (by decide) ?_
      | with_reducible refine modCl_within _ _ _ (by decide) ?_
      | with_reducible refine Within.ite ?_ ?_
      | split

theorem startNext_within {M : Nat} {s0 : State} (s : State) (c : Nat) (hm : 117441250 ||| M = M)
    (h : Within M s0 s) : Within M s0 (startNext s c) := by
  refine h.after hm ?_
  clear h hm
  unfold startNext
  try dsimp only
  repeat' first
    | with_reducible exact Within.refl _ _
    | with_reducible refine startWaiting_within _ _ _ (by decide) ?_

theorem stepDone_within {M : Nat} {s0 : State} (c : Nat) (a : ArrayStep) (s : State) (hm : 117440546 ||| M = M)
    (h : Within M s0 s) : Within M s0 (stepDone c a s) := by
  refine h.after hm ?_
  clear h hm
  unfold stepDone
  try dsimp only
  repeat' first
    | with_reducible exact Within.refl _ _
    | with_reducible refine trace_within _ _ _ _ _ (by decide) ?_
    | with_reducible refine ctrAdd_within _ _ _ (by decide) ?_

theorem promoDone_within {M : Nat} {s0 : State} (c : Nat) (a : ArrayStep) (s : State) (hm : 117440610 ||| M = M)
    (h : Within M s0 s) : Within M s0 (promoDone c a s) := by
  refine h.after hm ?_
  clear h hm
  unfold promoDone
  try dsimp only
  repeat' first
    | with_reducible exact Within.refl _ _
    | with_reducible refine rethatchTrace_within _ _ _ _ _ _ (by decide) ?_
    | with_reducible refine rethatchCharge_within _ _ _ _ (by decide) ?_
    | with_reducible refine ctrAdd_within _ _ _ (by decide) ?_
    | split

theorem stepAfter_within {M : Nat} {s0 : State} (s : State) (c : Nat) (t : Nat) (p : TileProg) (hm : 117441250 ||| M = M)
    (h : Within M s0 s) : Within M s0 (stepAfter s c t p) := by
  refine h.after hm ?_
  clear h hm
  unfold stepAfter
  try dsimp only
  repeat' first
    | with_reducible exact Within.refl _ _
    | with_reducible refine queueNext_within _ _ _ (by decide) ?_
    | with_reducible refine progDone_within _ _ _ _ (by decide) ?_
    | with_reducible refine attemptEnd_within _ _ _ _ (by decide) ?_
    | with_reducible refine Within.ite ?_ ?_

theorem stepEnd_within {M : Nat} {s0 : State} (s : State) (c : Nat) (hm : 385876706 ||| M = M)
    (h : Within M s0 s) : Within M s0 (stepEnd s c) := by
  refine h.after hm ?_
  clear h hm
  unfold stepEnd
  try dsimp only
  repeat' first
    | with_reducible exact Within.refl _ _
    | with_reducible refine modCl_within _ _ _ (by decide) ?_
    | with_reducible refine promoDone_within _ _ _ (by decide) ?_
    | with_reducible refine stepDone_within _ _ _ (by decide) ?_
    | with_reducible refine modThr_within _ _ _ _ (by decide) ?_
    | with_reducible refine csWrites_within _ _ _ (by decide) ?_
    | with_reducible refine stepAfter_within _ _ _ _ (by decide) ?_
    | with_reducible refine Within.ite ?_ ?_
    | with_reducible refine Within.optElim ?_ ?_
    | split
    | with_reducible intro _

theorem tileRelease_within {M : Nat} {s0 : State} (s : State) (c : Nat) (hm : 385876706 ||| M = M)
    (h : Within M s0 s) : Within M s0 (tileRelease s c) := by
  refine h.after hm ?_
  clear h hm
  unfold tileRelease
  try dsimp only
  repeat' first
    | with_reducible exact Within.refl _ _
    | with_reducible refine startNext_within _ _ (by decide) ?_
    | with_reducible refine stepEnd_within _ _ (by decide) ?_
    | with_reducible refine Within.ite ?_ ?_

theorem conversionEnd_within {M : Nat} {s0 : State} (s : State) (c : Nat) (i : Nat) (hm : 385876706 ||| M = M)
    (h : Within M s0 s) : Within M s0 (conversionEnd s c i) := by
  refine h.after hm ?_
  clear h hm
  unfold conversionEnd
  try dsimp only
  repeat' first
    | with_reducible exact Within.refl _ _
    | with_reducible refine modSlot_within _ _ _ _ (by decide) ?_
    | with_reducible refine csWrites_within _ _ _ (by decide) ?_
    | with_reducible refine startNext_within _ _ (by decide) ?_
    | with_reducible refine ready_within _ _ _ (by decide) ?_
    | with_reducible refine Within.ite ?_ ?_
    | split

theorem enterArray_within {M : Nat} {s0 : State} (s : State) (c : Nat) (t : Nat) (p : TileProg) (runs : Bool) (hm : 117441250 ||| M = M)
    (h : Within M s0 s) : Within M s0 (enterArray s c t p runs) := by
  refine h.after hm ?_
  clear h hm
  unfold enterArray
  try dsimp only
  repeat' first
    | with_reducible exact Within.refl _ _
    | with_reducible refine setProg_within _ _ _ _ (by decide) ?_
    | with_reducible refine wait_within _ _ _ _ (by decide) ?_
    | with_reducible refine progDone_within _ _ _ _ (by decide) ?_
    | with_reducible refine reserveSlots_within _ _ _ _ _ (by decide) ?_
    | with_reducible refine startNext_within _ _ (by decide) ?_
    | with_reducible refine modCl_within _ _ _ (by decide) ?_
    | with_reducible refine Within.ite ?_ ?_

theorem tileIssue_within {M : Nat} {s0 : State} (opc : Nat) (word : BitVec 248) (c : Nat) (t : Nat) (pc : Word64) (s : State) (hm : 251994090 ||| M = M)
    (h : Within M s0 s) : Within M s0 (tileIssue opc word c t pc s) := by
  refine h.after hm ?_
  clear h hm
  unfold tileIssue
  try dsimp only
  repeat' first
    | with_reducible exact Within.refl _ _
    | with_reducible refine issueFault_within _ _ _ _ _ _ (by decide) ?_
    | with_reducible refine enterArray_within _ _ _ _ _ (by decide) ?_
    | with_reducible refine raise_within _ _ _ _ _ _ (by decide) ?_
    | with_reducible refine Within.ite ?_ ?_
    | split

theorem convIssue_within {M : Nat} {s0 : State} (word : BitVec 248) (c : Nat) (t : Nat) (pc : Word64) (s : State) (hm : 251994090 ||| M = M)
    (h : Within M s0 s) : Within M s0 (convIssue word c t pc s) := by
  refine h.after hm ?_
  clear h hm
  unfold convIssue
  try dsimp only
  repeat' first
    | with_reducible exact Within.refl _ _
    | with_reducible refine issueFault_within _ _ _ _ _ _ (by decide) ?_
    | with_reducible refine enterArray_within _ _ _ _ _ (by decide) ?_
    | split

end Sys2Proof.Machine
end

