-- ==== Sys2Proof/Laws/Save.lean ====
section
/-! SUPPORT. What each operation of Machine/Save.lean may change: see Laws/Within.lean. -/

namespace Sys2Proof.Machine

theorem haltCharge_within {M : Nat} {s0 : State} (num : Nat) (c : Nat) (s : State) (t : Nat) (hm : 64 ||| M = M)
    (h : Within M s0 s) : Within M s0 (haltCharge num c s t) := by
  refine h.after hm ?_
  clear h hm
  unfold haltCharge
  try dsimp only
  repeat' first
    | with_reducible exact Within.refl _ _
    | with_reducible refine chargeRerun_within _ _ _ (by decide) ?_
    | with_reducible refine Within.ite ?_ ?_
    | split

theorem haltOn_within {M : Nat} {s0 : State} (num : Nat) (s : State) (c : Nat) (hm : 385876706 ||| M = M)
    (h : Within M s0 s) : Within M s0 (haltOn num s c) := by
  refine h.after hm ?_
  clear h hm
  unfold haltOn
  try dsimp only
  repeat' first
    | with_reducible exact Within.refl _ _
    | with_reducible refine each_within _ _ _ (by decide) ?_ ?_
    | with_reducible refine haltCharge_within _ _ _ _ (by decide) ?_
    | with_reducible refine stepEnd_within _ _ (by decide) ?_
    | with_reducible refine modCl_within _ _ _ (by decide) ?_
    | with_reducible refine csWrites_within _ _ _ (by decide) ?_
    | with_reducible refine Within.ite ?_ ?_
    | with_reducible intro _

theorem putSave_within {M : Nat} {s0 : State} (port : Nat) (a1 : List (Nat × List Byte)) (a2 : State) (hm : 788530978 ||| M = M)
    (h : Within M s0 a2) : Within M s0 (putSave port a1 a2).2 := by
  refine h.after hm ?_
  clear h hm
  induction a1 generalizing port a2 with
  | nil =>
    unfold putSave
    try dsimp only
    repeat' first
      | with_reducible exact Within.refl _ _
  | cons x l ih =>
    unfold putSave
    try dsimp only
    repeat' first
      | with_reducible exact Within.refl _ _
      | with_reducible refine Within.trans ?_ (ih _ _)
      | with_reducible refine vaPlaces_within _ _ _ _ _ (by decide) ?_
      | with_reducible refine putPlaces_within _ _ _ _ (by decide) ?_
      | split

theorem saveOne_within {M : Nat} {s0 : State} (slot : Nat) (i : Item) (tick : Nat) (m : Nat × SaveImg) (s : State) (hm : 788530978 ||| M = M)
    (h : Within M s0 s) : Within M s0 (saveOne slot i tick m s).2 := by
  refine h.after hm ?_
  clear h hm
  unfold saveOne
  try dsimp only
  repeat' first
    | with_reducible exact Within.refl _ _
    | with_reducible refine putSave_within _ _ _ (by decide) ?_
    | with_reducible refine ctrAdd_within _ _ _ (by decide) ?_
    | with_reducible refine Within.ite ?_ ?_

theorem saveRecords_within {M : Nat} {s0 : State} (slot : Nat) (i : Item) (tick : Nat) (l : List (Nat × SaveImg)) (s : State) (hm : 788530978 ||| M = M)
    (h : Within M s0 s) : Within M s0 (saveRecords slot i tick l s).2 := by
  refine h.after hm ?_
  clear h hm
  unfold saveRecords
  try dsimp only
  repeat' first
    | with_reducible exact Within.refl _ _
    | with_reducible refine saveOne_within _ _ _ _ _ (by decide) ?_
    | with_reducible refine Within.foldlSnd _ ?_ _ ?_
    | split
    | with_reducible intro _

theorem saveTrace_within {M : Nat} {s0 : State} (s : State) (slot : Nat) (i : Item) (c : Nat) (restore : Bool) (hm : 117440546 ||| M = M)
    (h : Within M s0 s) : Within M s0 (saveTrace s slot i c restore) := by
  refine h.after hm ?_
  clear h hm
  unfold saveTrace
  try dsimp only
  repeat' first
    | with_reducible exact Within.refl _ _
    | with_reducible refine trace_within _ _ _ _ _ (by decide) ?_
    | with_reducible refine drew_within _ (by decide) ?_

theorem chargeRestore_within {M : Nat} {s0 : State} (slot : Nat) (i : Item) (ns : Nat) (s : State) (hm : 64 ||| M = M)
    (h : Within M s0 s) : Within M s0 (chargeRestore slot i ns s) := by
  refine h.after hm ?_
  clear h hm
  unfold chargeRestore
  try dsimp only
  repeat' first
    | with_reducible exact Within.refl _ _
    | with_reducible refine modSeq_within _ _ _ (by decide) ?_
    | with_reducible refine Within.ite ?_ ?_
    | split

theorem saveItem_within {M : Nat} {s0 : State} (payer : Option Nat) (slot : Nat) (num : Nat) (s : State) (hm : 1057300458 ||| M = M)
    (h : Within M s0 s) : Within M s0 (saveItem payer slot num s) := by
  refine h.after hm ?_
  clear h hm
  unfold saveItem
  try dsimp only
  repeat' first
    | with_reducible exact Within.refl _ _
    | with_reducible refine haltOn_within _ _ _ (by decide) ?_
    | with_reducible refine noteCharge_within _ _ (by decide) ?_
    | with_reducible refine saveRecords_within _ _ _ _ _ (by decide) ?_
    | with_reducible refine faultFatal_within _ _ (by decide) ?_
    | with_reducible refine terminate_within _ _ _ _ _ (by decide) ?_
    | with_reducible refine saveTrace_within _ _ _ _ _ (by decide) ?_
    | with_reducible refine modItem_within _ _ _ _ (by decide) ?_
    | with_reducible refine Within.foldl _ ?_ _ ?_
    | split
    | with_reducible refine Within.at_cl (by decide) (by (left; simp; done)) ?_
    | with_reducible intro _

theorem launchFail_within {M : Nat} {s0 : State} (slot : Nat) (i : Item) (l : Option Launch) (place : Nat) (s : State) (hm : 251993578 ||| M = M)
    (h : Within M s0 s) : Within M s0 (launchFail slot i l place s) := by
  refine h.after hm ?_
  clear h hm
  unfold launchFail
  try dsimp only
  repeat' first
    | with_reducible exact Within.refl _ _
    | with_reducible refine modItem_within _ _ _ _ (by decide) ?_
    | with_reducible refine terminate_within _ _ _ _ _ (by decide) ?_
    | with_reducible refine raise_within _ _ _ _ _ _ (by decide) ?_

theorem launchItem_within {M : Nat} {s0 : State} (slot : Nat) (num : Nat) (s : State) (hm : 251993578 ||| M = M)
    (h : Within M s0 s) : Within M s0 (launchItem slot num s) := by
  refine h.after hm ?_
  clear h hm
  unfold launchItem
  try dsimp only
  repeat' first
    | with_reducible exact Within.refl _ _
    | with_reducible refine devRead_within _ _ _ (by decide) ?_
    | with_reducible refine launchFail_within _ _ _ _ _ (by decide) ?_
    | with_reducible refine modCl_within _ _ _ (by decide) ?_
    | with_reducible refine modItem_within _ _ _ _ (by decide) ?_
    | with_reducible refine Within.foldl _ ?_ _ ?_
    | with_reducible refine Within.ite ?_ ?_
    | split
    | with_reducible intro _

theorem restRead_within {M : Nat} {s0 : State} (slot : Nat) (num : Nat) (c : Nat) (va : Nat) (n : Nat) (s : State) (hm : 251659618 ||| M = M)
    (h : Within M s0 s) : Within M s0 (restRead slot num c va n s).2 := by
  refine h.after hm ?_
  clear h hm
  unfold restRead
  try dsimp only
  repeat' first
    | with_reducible exact Within.refl _ _
    | with_reducible refine translate_within _ _ _ _ _ (by decide) ?_
    | with_reducible refine readPA_within _ _ _ _ (by decide) ?_
    | with_reducible refine modItem_within _ _ _ _ (by decide) ?_
    | with_reducible refine Within.foldlSnd _ ?_ _ ?_
    | with_reducible refine Within.iteSnd ?_ ?_
    | split
    | with_reducible intro _

theorem restImage_within {M : Nat} {s0 : State} (slot : Nat) (num : Nat) (base : Nat) (c : Nat) (m : SaveImg) (s : State) (hm : 251659618 ||| M = M)
    (h : Within M s0 s) : Within M s0 (restImage slot num base c m s).2 := by
  refine h.after hm ?_
  clear h hm
  unfold restImage
  try dsimp only
  repeat' first
    | with_reducible exact Within.refl _ _
    | with_reducible refine restRead_within _ _ _ _ _ _ (by decide) ?_
    | with_reducible refine Within.foldlSnd _ ?_ _ ?_
    | split
    | with_reducible intro _

theorem restImages_within {M : Nat} {s0 : State} (slot : Nat) (num : Nat) (a1 : List (Nat × Nat × SaveImg)) (a2 : State) (hm : 251659618 ||| M = M)
    (h : Within M s0 a2) : Within M s0 (restImages slot num a1 a2).2 := by
  refine h.after hm ?_
  clear h hm
  induction a1 generalizing slot num a2 with
  | nil =>
    unfold restImages
    try dsimp only
    repeat' first
      | with_reducible exact Within.refl _ _
  | cons x l ih =>
    unfold restImages
    try dsimp only
    repeat' first
      | with_reducible exact Within.refl _ _
      | with_reducible refine Within.trans ?_ (ih _ _ _)
      | with_reducible refine restImage_within _ _ _ _ _ _ (by decide) ?_
      | split

theorem moveAll_within {M : Nat} {s0 : State} (num : Nat) (m : Moves) (s : State) (hm : 330752 ||| M = M)
    (h : Within M s0 s) : Within M s0 (moveAll num m s) := by
  refine h.after hm ?_
  clear h hm
  unfold moveAll
  try dsimp only
  repeat' first
    | with_reducible exact Within.refl _ _
    | with_reducible refine Within.at_xlt_eng_col_cod (by decide) (by decide) (by decide) (by decide) (by (left; simp; done)) (by (left; simp; done)) ?_

theorem backTiles_within {M : Nat} {s0 : State} (i : Item) (c : Nat) (places : List (Nat × Nat × Thread)) (s : State) (hm : 128 ||| M = M)
    (h : Within M s0 s) : Within M s0 (backTiles i c places s) := by
  refine h.after hm ?_
  clear h hm
  unfold backTiles
  try dsimp only
  repeat' first
    | with_reducible exact Within.refl _ _
    | with_reducible refine each_within _ _ _ (by decide) ?_ ?_
    | with_reducible refine modCl_within _ _ _ (by decide) ?_
    | with_reducible refine reserveSlots_within _ _ _ _ _ (by decide) ?_
    | split
    | with_reducible intro _

theorem attachOn_within {M : Nat} {s0 : State} (i : Item) (dom : Nat) (c : Nat) (m : SaveImg) (acc : State × Moves) (hm : 128 ||| M = M)
    (h : Within M s0 acc.1) : Within M s0 (attachOn i dom c m acc).1 := by
  refine h.after hm ?_
  clear h hm
  unfold attachOn
  try dsimp only
  repeat' first
    | with_reducible exact Within.refl _ _
    | with_reducible refine backTiles_within _ _ _ _ (by decide) ?_
    | with_reducible refine modCl_within _ _ _ (by decide) ?_

theorem wakeItem_within {M : Nat} {s0 : State} (num : Nat) (l : List Nat) (s : State) (hm : 251664354 ||| M = M)
    (h : Within M s0 s) : Within M s0 (wakeItem num l s) := by
  refine h.after hm ?_
  clear h hm
  unfold wakeItem
  try dsimp only
  repeat' first
    | with_reducible exact Within.refl _ _
    | with_reducible refine each_within _ _ _ (by decide) ?_ ?_
    | with_reducible refine t4Settle_within _ _ _ _ (by decide) ?_
    | with_reducible refine startNext_within _ _ (by decide) ?_
    | with_reducible refine Within.ite ?_ ?_
    | with_reducible intro _

theorem attach_within {M : Nat} {s0 : State} (slot : Nat) (i : Item) (imgs : List SaveImg) (s : State) (hm : 251994082 ||| M = M)
    (h : Within M s0 s) : Within M s0 (attach slot i imgs s) := by
  refine h.after hm ?_
  clear h hm
  unfold attach
  try dsimp only
  repeat' first
    | with_reducible exact Within.refl _ _
    | with_reducible refine attachOn_within _ _ _ _ _ (by decide) ?_
    | with_reducible refine modItem_within _ _ _ _ (by decide) ?_
    | with_reducible refine moveAll_within _ _ _ (by decide) ?_
    | with_reducible refine chargeRestore_within _ _ _ _ (by decide) ?_
    | with_reducible refine saveTrace_within _ _ _ _ _ (by decide) ?_
    | with_reducible refine wakeItem_within _ _ _ (by decide) ?_
    | with_reducible refine Within.foldlFst _ ?_ _ ?_
    | with_reducible intro _

theorem restoreItem_within {M : Nat} {s0 : State} (slot : Nat) (num : Nat) (s : State) (hm : 251994090 ||| M = M)
    (h : Within M s0 s) : Within M s0 (restoreItem slot num s) := by
  refine h.after hm ?_
  clear h hm
  unfold restoreItem
  try dsimp only
  repeat' first
    | with_reducible exact Within.refl _ _
    | with_reducible refine modCl_within _ _ _ (by decide) ?_
    | with_reducible refine modItem_within _ _ _ _ (by decide) ?_
    | with_reducible refine restImages_within _ _ _ _ (by decide) ?_
    | with_reducible refine attach_within _ _ _ _ (by decide) ?_
    | with_reducible refine faultRetry_within _ _ (by decide) ?_
    | with_reducible refine terminate_within _ _ _ _ _ (by decide) ?_
    | with_reducible refine faultFatal_within _ _ (by decide) ?_
    | with_reducible refine Within.foldl _ ?_ _ ?_
    | with_reducible refine Within.ite ?_ ?_
    | split
    | with_reducible intro _

theorem beginItem_within {M : Nat} {s0 : State} (slot : Nat) (num : Nat) (s : State) (hm : 251994090 ||| M = M)
    (h : Within M s0 s) : Within M s0 (beginItem slot num s) := by
  refine h.after hm ?_
  clear h hm
  unfold beginItem
  try dsimp only
  repeat' first
    | with_reducible exact Within.refl _ _
    | with_reducible refine launchItem_within _ _ _ (by decide) ?_
    | with_reducible refine restoreItem_within _ _ _ (by decide) ?_
    | with_reducible refine Within.ite ?_ ?_
    | split

end Sys2Proof.Machine
end

