-- ==== Sys2Proof/Laws/Sched.lean ====
section
/-! SUPPORT. What each operation of Machine/Sched.lean may change: see Laws/Within.lean. -/

namespace Sys2Proof.Machine

theorem discardWork_within {M : Nat} {s0 : State} (slot : Nat) (k : Nat) (s : State) (hm : 251663842 ||| M = M)
    (h : Within M s0 s) : Within M s0 (discardWork slot k s) := by
  refine h.after hm ?_
  clear h hm
  unfold discardWork
  try dsimp only
  repeat' first
    | with_reducible exact Within.refl _ _
    | with_reducible refine each_within _ _ _ (by decide) ?_ ?_
    | with_reducible refine itemEnd_within _ _ _ _ (by decide) ?_
    | with_reducible refine writeDone_within _ _ _ (by decide) ?_
    | with_reducible refine modSeq_within _ _ _ (by decide) ?_
    | with_reducible intro _

theorem departSlot_within {M : Nat} {s0 : State} (slot : Nat) (s : State) (hm : 251663842 ||| M = M)
    (h : Within M s0 s) : Within M s0 (departSlot slot s) := by
  refine h.after hm ?_
  clear h hm
  unfold departSlot
  try dsimp only
  repeat' first
    | with_reducible exact Within.refl _ _
    | with_reducible refine releaseRefs_within _ _ (by decide) ?_
    | with_reducible refine discardWork_within _ _ _ (by decide) ?_
    | with_reducible refine modSeq_within _ _ _ (by decide) ?_

theorem makeMove_within {M : Nat} {s0 : State} (slot : Nat) (toFb : Bool) (s : State) (hm : 251663842 ||| M = M)
    (h : Within M s0 s) : Within M s0 (makeMove slot toFb s) := by
  refine h.after hm ?_
  clear h hm
  unfold makeMove
  try dsimp only
  repeat' first
    | with_reducible exact Within.refl _ _
    | with_reducible refine modSeq_within _ _ _ (by decide) ?_
    | with_reducible refine raise_within _ _ _ _ _ _ (by decide) ?_
    | with_reducible refine ctrAdd_within _ _ _ (by decide) ?_
    | with_reducible refine ringClear_within _ _ (by decide) ?_
    | with_reducible refine discardWork_within _ _ _ (by decide) ?_

theorem seqMove_within {M : Nat} {s0 : State} (slot : Nat) (toFb : Bool) (s : State) (hm : 251663842 ||| M = M)
    (h : Within M s0 s) : Within M s0 (seqMove slot toFb s) := by
  refine h.after hm ?_
  clear h hm
  unfold seqMove
  try dsimp only
  repeat' first
    | with_reducible exact Within.refl _ _
    | with_reducible refine makeMove_within _ _ _ (by decide) ?_
    | with_reducible refine raise_within _ _ _ _ _ _ (by decide) ?_
    | with_reducible refine modSeq_within _ _ _ (by decide) ?_
    | with_reducible refine Within.ite ?_ ?_

theorem seqMoves_within {M : Nat} {s0 : State} (d : Nat) (n : Nat) (s : State) (hm : 251663842 ||| M = M)
    (h : Within M s0 s) : Within M s0 (seqMoves d n s) := by
  refine h.after hm ?_
  clear h hm
  unfold seqMoves
  try dsimp only
  repeat' first
    | with_reducible exact Within.refl _ _
    | with_reducible refine each_within _ _ _ (by decide) ?_ ?_
    | with_reducible refine seqMove_within _ _ _ (by decide) ?_
    | with_reducible refine modSeq_within _ _ _ (by decide) ?_
    | with_reducible intro _

theorem modelDue_within {M : Nat} {s0 : State} (d : Nat) (n : Nat) (m : Nat) (s : State) (hm : 4096 ||| M = M)
    (h : Within M s0 s) : Within M s0 (modelDue d n m s) := by
  refine h.after hm ?_
  clear h hm
  unfold modelDue
  try dsimp only
  repeat' first
    | with_reducible exact Within.refl _ _
    | with_reducible refine modWgt_within _ _ _ (by decide) ?_
    | with_reducible refine Within.ite ?_ ?_

theorem followModel_within {M : Nat} {s0 : State} (slot : Nat) (s : State) (hm : 251663842 ||| M = M)
    (h : Within M s0 s) : Within M s0 (followModel slot s) := by
  refine h.after hm ?_
  clear h hm
  unfold followModel
  try dsimp only
  repeat' first
    | with_reducible exact Within.refl _ _
    | with_reducible refine modSeq_within _ _ _ (by decide) ?_
    | with_reducible refine makeMove_within _ _ _ (by decide) ?_
    | with_reducible refine Within.ite ?_ ?_

theorem modelMoves_within {M : Nat} {s0 : State} (d : Nat) (n : Nat) (s : State) (hm : 251663842 ||| M = M)
    (h : Within M s0 s) : Within M s0 (modelMoves d n s) := by
  refine h.after hm ?_
  clear h hm
  unfold modelMoves
  try dsimp only
  repeat' first
    | with_reducible exact Within.refl _ _
    | with_reducible refine seqMoves_within _ _ _ (by decide) ?_
    | with_reducible refine each_within _ _ _ (by decide) ?_ ?_
    | with_reducible refine modelDue_within _ _ _ _ (by decide) ?_
    | with_reducible refine followModel_within _ _ (by decide) ?_
    | with_reducible intro _

theorem sendNotices_within {M : Nat} {s0 : State} (d : Nat) (n : Nat) (s : State) (hm : 117469226 ||| M = M)
    (h : Within M s0 s) : Within M s0 (sendNotices d n s) := by
  refine h.after hm ?_
  clear h hm
  unfold sendNotices
  try dsimp only
  repeat' first
    | with_reducible exact Within.refl _ _
    | with_reducible refine each_within _ _ _ (by decide) ?_ ?_
    | with_reducible refine modWgt_within _ _ _ (by decide) ?_
    | with_reducible refine fallbackNotice_within _ _ _ (by decide) ?_
    | with_reducible refine inject_within _ _ _ _ (by decide) ?_
    | with_reducible refine returnNotice_within _ _ _ (by decide) ?_
    | with_reducible refine Within.ite ?_ ?_
    | with_reducible intro _

theorem entryEvent_within {M : Nat} {s0 : State} (d : Nat) (slot : Nat) (r : Nat × Nat) (s : State) (hm : 117440546 ||| M = M)
    (h : Within M s0 s) : Within M s0 (entryEvent d slot r s) := by
  refine h.after hm ?_
  clear h hm
  unfold entryEvent
  try dsimp only
  repeat' first
    | with_reducible exact Within.refl _ _
    | with_reducible refine raise_within _ _ _ _ _ _ (by decide) ?_
    | with_reducible refine Within.ite ?_ ?_

theorem entryEnd_within {M : Nat} {s0 : State} (d : Nat) (slot : Nat) (r : Refuse × State) (hm : 8841594146 ||| M = M)
    (h : Within M s0 r.2) : Within M s0 (entryEnd d slot r) := by
  refine h.after hm ?_
  clear h hm
  unfold entryEnd
  try dsimp only
  repeat' first
    | with_reducible exact Within.refl _ _
    | with_reducible refine entryEvent_within _ _ _ _ (by decide) ?_
    | with_reducible refine devPut_within _ _ _ (by decide) ?_
    | with_reducible refine modDom_within _ _ _ (by decide) (by exact .inr (fun _ => rfl)) (.inl (by decide)) ?_
    | split

theorem admitEntry_within {M : Nat} {s0 : State} (d : Nat) (bs : List Byte) (s : State) (hm : 251659618 ||| M = M)
    (h : Within M s0 s) : Within M s0 (admitEntry d bs s).2 := by
  refine h.after hm ?_
  clear h hm
  unfold admitEntry
  try dsimp only
  repeat' first
    | with_reducible exact Within.refl _ _
    | with_reducible refine devRead_within _ _ _ (by decide) ?_
    | with_reducible refine ringClear_within _ _ (by decide) ?_
    | with_reducible refine modSeq_within _ _ _ (by decide) ?_
    | with_reducible refine Within.iteSnd ?_ ?_
    | split

theorem recheckRing_within {M : Nat} {s0 : State} (n : Nat) (s : State) (hm : 251663842 ||| M = M)
    (h : Within M s0 s) : Within M s0 (recheckRing n s).2 := by
  refine h.after hm ?_
  clear h hm
  unfold recheckRing
  try dsimp only
  repeat' first
    | with_reducible exact Within.refl _ _
    | with_reducible refine modSeq_within _ _ _ (by decide) ?_
    | with_reducible refine readRing_within _ _ (by decide) ?_
    | with_reducible refine ringClear_within _ _ (by decide) ?_
    | with_reducible refine departSlot_within _ _ (by decide) ?_
    | with_reducible refine Within.iteSnd ?_ ?_
    | split

theorem chunkBeginEntry_within {M : Nat} {s0 : State} (n : Nat) (g : Nat) (s : State) (hm : 251659618 ||| M = M)
    (h : Within M s0 s) : Within M s0 (chunkBeginEntry n g s).2 := by
  refine h.after hm ?_
  clear h hm
  unfold chunkBeginEntry
  try dsimp only
  repeat' first
    | with_reducible exact Within.refl _ _
    | with_reducible refine readRing_within _ _ (by decide) ?_
    | with_reducible refine modSeq_within _ _ _ (by decide) ?_
    | with_reducible refine beginChunk_within _ _ _ _ (by decide) ?_
    | with_reducible refine Within.iteSnd ?_ ?_
    | split

theorem chunkEndEntry_within {M : Nat} {s0 : State} (n : Nat) (g : Nat) (s : State) (hm : 251659618 ||| M = M)
    (h : Within M s0 s) : Within M s0 (chunkEndEntry n g s).2 := by
  refine h.after hm ?_
  clear h hm
  unfold chunkEndEntry
  try dsimp only
  repeat' first
    | with_reducible exact Within.refl _ _
    | with_reducible refine readRing_within _ _ (by decide) ?_
    | with_reducible refine modSeq_within _ _ _ (by decide) ?_
    | with_reducible refine endChunk_within _ _ _ (by decide) ?_
    | with_reducible refine Within.iteSnd ?_ ?_
    | split

theorem workEntry_within {M : Nat} {s0 : State} (n : Nat) (bs : List Byte) (s : State) (hm : 251659622 ||| M = M)
    (h : Within M s0 s) : Within M s0 (workEntry n bs s).2 := by
  refine h.after hm ?_
  clear h hm
  unfold workEntry
  try dsimp only
  repeat' first
    | with_reducible exact Within.refl _ _
    | with_reducible refine devRead_within _ _ _ (by decide) ?_
    | with_reducible refine modSeq_within _ _ _ (by decide) ?_
    | with_reducible refine Within.iteSnd ?_ ?_
    | split
    | with_reducible refine Within.at_nextNum (by decide)  ?_

theorem otherEntry_within {M : Nat} {s0 : State} (d : Nat) (bs : List Byte) (s : State) (hm : 251663846 ||| M = M)
    (h : Within M s0 s) : Within M s0 (otherEntry d bs s).2 := by
  refine h.after hm ?_
  clear h hm
  unfold otherEntry
  try dsimp only
  repeat' first
    | with_reducible exact Within.refl _ _
    | with_reducible refine recheckRing_within _ _ (by decide) ?_
    | with_reducible refine departSlot_within _ _ (by decide) ?_
    | with_reducible refine chunkBeginEntry_within _ _ _ (by decide) ?_
    | with_reducible refine chunkEndEntry_within _ _ _ (by decide) ?_
    | with_reducible refine workEntry_within _ _ _ (by decide) ?_
    | with_reducible refine Within.iteSnd ?_ ?_
    | split

theorem doEntry_within {M : Nat} {s0 : State} (d : Nat) (bs : List Byte) (s : State) (hm : 8841598438 ||| M = M)
    (h : Within M s0 s) : Within M s0 (doEntry d bs s) := by
  refine h.after hm ?_
  clear h hm
  unfold doEntry
  try dsimp only
  repeat' first
    | with_reducible exact Within.refl _ _
    | with_reducible refine entryEnd_within _ _ _ (by decide) ?_
    | with_reducible refine admitEntry_within _ _ _ (by decide) ?_
    | with_reducible refine otherEntry_within _ _ _ (by decide) ?_
    | split

theorem peekEntry_within {M : Nat} {s0 : State} (s : State) (d : Nat) (hm : 251659554 ||| M = M)
    (h : Within M s0 s) : Within M s0 (peekEntry s d).2 := by
  refine h.after hm ?_
  clear h hm
  unfold peekEntry
  try dsimp only
  repeat' first
    | with_reducible exact Within.refl _ _
    | with_reducible refine devRead_within _ _ _ (by decide) ?_
    | split

theorem skipBad_within {M : Nat} {s0 : State} (d : Nat) (a1 : Nat) (a2 : State) (hm : 8841594146 ||| M = M)
    (h : Within M s0 a2) : Within M s0 (skipBad d a1 a2) := by
  refine h.after hm ?_
  clear h hm
  induction a1 generalizing d a2 with
  | zero =>
    unfold skipBad
    try dsimp only
    repeat' first
      | with_reducible exact Within.refl _ _
  | succ n ih =>
    unfold skipBad
    try dsimp only
    repeat' first
      | with_reducible exact Within.refl _ _
      | with_reducible refine Within.trans ?_ (ih _ _)
      | with_reducible refine peekEntry_within _ _ (by decide) ?_
      | with_reducible refine entryEnd_within _ _ _ (by decide) ?_
      | with_reducible refine Within.ite ?_ ?_
      | split

theorem releaseSlots_within {M : Nat} {s0 : State} (d : Nat) (s : State) (hm : 64 ||| M = M)
    (h : Within M s0 s) : Within M s0 (releaseSlots d s) := by
  refine h.after hm ?_
  clear h hm
  unfold releaseSlots
  try dsimp only
  repeat' first
    | with_reducible exact Within.refl _ _
    | with_reducible refine each_within _ _ _ (by decide) ?_ ?_
    | with_reducible refine modSeq_within _ _ _ (by decide) ?_
    | with_reducible refine Within.ite ?_ ?_
    | with_reducible intro _

theorem itemTrace_within {M : Nat} {s0 : State} (s : State) (slot : Nat) (i : Item) (case : Nat) (hm : 117440546 ||| M = M)
    (h : Within M s0 s) : Within M s0 (itemTrace s slot i case) := by
  refine h.after hm ?_
  clear h hm
  unfold itemTrace
  try dsimp only
  repeat' first
    | with_reducible exact Within.refl _ _
    | with_reducible refine trace_within _ _ _ _ _ (by decide) ?_

theorem shedItems_within {M : Nat} {s0 : State} (d : Nat) (n : Nat) (s : State) (hm : 251663842 ||| M = M)
    (h : Within M s0 s) : Within M s0 (shedItems d n s) := by
  refine h.after hm ?_
  clear h hm
  unfold shedItems
  try dsimp only
  repeat' first
    | with_reducible exact Within.refl _ _
    | with_reducible refine each_within _ _ _ (by decide) ?_ ?_
    | with_reducible refine ctrAdd_within _ _ _ (by decide) ?_
    | with_reducible refine itemTrace_within _ _ _ _ (by decide) ?_
    | with_reducible refine itemEnd_within _ _ _ _ (by decide) ?_
    | with_reducible refine raise_within _ _ _ _ _ _ (by decide) ?_
    | with_reducible refine Within.ite ?_ ?_
    | split
    | with_reducible intro _

theorem joinBatches_within {M : Nat} {s0 : State} (d : Nat) (n : Nat) (s : State) (hm : 64 ||| M = M)
    (h : Within M s0 s) : Within M s0 (joinBatches d n s) := by
  refine h.after hm ?_
  clear h hm
  unfold joinBatches
  try dsimp only
  repeat' first
    | with_reducible exact Within.refl _ _
    | with_reducible refine each_within _ _ _ (by decide) ?_ ?_
    | with_reducible refine modSeq_within _ _ _ (by decide) ?_
    | with_reducible intro _

theorem deferItem_within {M : Nat} {s0 : State} (slot : Nat) (i : Item) (s : State) (hm : 117440610 ||| M = M)
    (h : Within M s0 s) : Within M s0 (deferItem slot i s) := by
  refine h.after hm ?_
  clear h hm
  unfold deferItem
  try dsimp only
  repeat' first
    | with_reducible exact Within.refl _ _
    | with_reducible refine modSeq_within _ _ _ (by decide) ?_
    | with_reducible refine modItem_within _ _ _ _ (by decide) ?_
    | with_reducible refine itemTrace_within _ _ _ _ (by decide) ?_
    | with_reducible refine ctrAdd_within _ _ _ (by decide) ?_
    | with_reducible refine raise_within _ _ _ _ _ _ (by decide) ?_
    | with_reducible refine Within.ite ?_ ?_

theorem placeItem_within {M : Nat} {s0 : State} (n : Nat) (acc : List Room × State) (w : Nat × Nat) (hm : 117440610 ||| M = M)
    (h : Within M s0 acc.2) : Within M s0 (placeItem n acc w).2 := by
  refine h.after hm ?_
  clear h hm
  unfold placeItem
  try dsimp only
  repeat' first
    | with_reducible exact Within.refl _ _
    | with_reducible refine deferItem_within _ _ _ (by decide) ?_
    | with_reducible refine modItem_within _ _ _ _ (by decide) ?_
    | with_reducible refine modSeq_within _ _ _ (by decide) ?_
    | with_reducible refine itemTrace_within _ _ _ _ (by decide) ?_
    | with_reducible refine Within.iteSnd ?_ ?_
    | split

theorem placeWork_within {M : Nat} {s0 : State} (d : Nat) (n : Nat) (s : State) (hm : 117440610 ||| M = M)
    (h : Within M s0 s) : Within M s0 (placeWork d n s) := by
  refine h.after hm ?_
  clear h hm
  unfold placeWork
  try dsimp only
  repeat' first
    | with_reducible exact Within.refl _ _
    | with_reducible refine joinBatches_within _ _ _ (by decide) ?_
    | with_reducible refine each_within _ _ _ (by decide) ?_ ?_
    | with_reducible refine modSeq_within _ _ _ (by decide) ?_
    | with_reducible refine placeItem_within _ _ _ (by decide) ?_
    | with_reducible refine Within.foldlSnd _ ?_ _ ?_
    | with_reducible intro _

theorem finishAdmit_within {M : Nat} {s0 : State} (d : Nat) (s : State) (hm : 8841598434 ||| M = M)
    (h : Within M s0 s) : Within M s0 (finishAdmit d s) := by
  refine h.after hm ?_
  clear h hm
  unfold finishAdmit
  try dsimp only
  repeat' first
    | with_reducible exact Within.refl _ _
    | with_reducible refine devWrite_within _ _ _ (by decide) ?_
    | with_reducible refine modDom_within _ _ _ (by decide) (by exact .inr (fun _ => rfl)) (.inl (by decide)) ?_
    | with_reducible refine placeWork_within _ _ _ (by decide) ?_
    | with_reducible refine shedItems_within _ _ _ (by decide) ?_
    | with_reducible refine releaseSlots_within _ _ (by decide) ?_
    | with_reducible refine Within.ite ?_ ?_
    | split

theorem afterEntry_within {M : Nat} {s0 : State} (d : Nat) (s : State) (hm : 8841598434 ||| M = M)
    (h : Within M s0 s) : Within M s0 (afterEntry d s) := by
  refine h.after hm ?_
  clear h hm
  unfold afterEntry
  try dsimp only
  repeat' first
    | with_reducible exact Within.refl _ _
    | with_reducible refine skipBad_within _ _ _ (by decide) ?_
    | with_reducible refine finishAdmit_within _ _ (by decide) ?_
    | with_reducible refine Within.ite ?_ ?_

theorem openQueue_within {M : Nat} {s0 : State} (d : Nat) (s : State) (hm : 8841598434 ||| M = M)
    (h : Within M s0 s) : Within M s0 (openQueue d s) := by
  refine h.after hm ?_
  clear h hm
  unfold openQueue
  try dsimp only
  repeat' first
    | with_reducible exact Within.refl _ _
    | with_reducible refine finishAdmit_within _ _ (by decide) ?_
    | with_reducible refine devRead_within _ _ _ (by decide) ?_
    | with_reducible refine modDom_within _ _ _ (by decide) (by exact .inr (fun _ => rfl)) (.inl (by decide)) ?_
    | with_reducible refine raise_within _ _ _ _ _ _ (by decide) ?_
    | with_reducible refine afterEntry_within _ _ (by decide) ?_
    | with_reducible refine Within.ite ?_ ?_
    | split

theorem entryStep_within {M : Nat} {s0 : State} (d : Nat) (op : Nat) (s : State) (hm : 8841598438 ||| M = M)
    (h : Within M s0 s) : Within M s0 (entryStep d op s) := by
  refine h.after hm ?_
  clear h hm
  unfold entryStep
  try dsimp only
  repeat' first
    | with_reducible exact Within.refl _ _
    | with_reducible refine peekEntry_within _ _ (by decide) ?_
    | with_reducible refine afterEntry_within _ _ (by decide) ?_
    | with_reducible refine doEntry_within _ _ _ (by decide) ?_
    | with_reducible refine Within.ite ?_ ?_
    | split

theorem drainQueue_within {M : Nat} {s0 : State} (d : Nat) (a1 : Nat) (a2 : State) (hm : 8841598438 ||| M = M)
    (h : Within M s0 a2) : Within M s0 (drainQueue d a1 a2) := by
  refine h.after hm ?_
  clear h hm
  induction a1 generalizing d a2 with
  | zero =>
    unfold drainQueue
    try dsimp only
    repeat' first
      | with_reducible exact Within.refl _ _
  | succ n ih =>
    unfold drainQueue
    try dsimp only
    repeat' first
      | with_reducible exact Within.refl _ _
      | with_reducible refine Within.trans ?_ (ih _ _)
      | with_reducible refine peekEntry_within _ _ (by decide) ?_
      | with_reducible refine afterEntry_within _ _ (by decide) ?_
      | with_reducible refine entryEnd_within _ _ _ (by decide) ?_
      | with_reducible refine doEntry_within _ _ _ (by decide) ?_
      | with_reducible refine Within.ite ?_ ?_
      | split

end Sys2Proof.Machine
end

