-- ==== Sys2Proof/Laws/Snap.lean ====
section
/-! SUPPORT. What each operation of Machine/Snap.lean may change: see Laws/Within.lean. -/

namespace Sys2Proof.Machine

theorem modSnp_within {M : Nat} {s0 : State} (s : State) (f : SnpSt → SnpSt) (hm : 131072 ||| M = M)
    (hf : ∀ e, memWf zeroByte e.store = true → memWf zeroByte (f e).store = true) (h : Within M s0 s) :
    Within M s0 (modSnp s f) :=
  h.after hm (Within.at_snp (by decide) (hf _) (Within.refl _ _))

theorem snpSync_within {M : Nat} {s0 : State} (s : State) (hm : 251659554 ||| M = M)
    (h : Within M s0 s) : Within M s0 (snpSync s) := by
  refine h.after hm ?_
  clear h hm
  unfold snpSync
  try dsimp only
  repeat' first
    | with_reducible exact Within.refl _ _
    | with_reducible refine devPut_within _ _ _ (by decide) ?_

theorem sarkPut_within {M : Nat} {s0 : State} (block : Nat) (bs : List Byte) (s : State) (hm : 131072 ||| M = M)
    (h : Within M s0 s) : Within M s0 (sarkPut block bs s) := by
  refine h.after hm ?_
  clear h hm
  unfold sarkPut
  try dsimp only
  repeat' first
    | with_reducible exact Within.refl _ _
    | with_reducible refine modSnp_within _ _ (by decide) (fun _ => by (intro hw; exact memWrs_wf _ _ hw)) ?_

theorem storeSeen_within {M : Nat} {s0 : State} (s : State) (hm : 251790626 ||| M = M)
    (h : Within M s0 s) : Within M s0 (storeSeen s) := by
  refine h.after hm ?_
  clear h hm
  unfold storeSeen
  try dsimp only
  repeat' first
    | with_reducible exact Within.refl _ _
    | with_reducible refine snpSync_within _ (by decide) ?_
    | with_reducible refine modSnp_within _ _ (by decide) (fun _ => by exact id) ?_

theorem storeDue_within {M : Nat} {s0 : State} (s : State) (hm : 121765922 ||| M = M)
    (h : Within M s0 s) : Within M s0 (storeDue s) := by
  refine h.after hm ?_
  clear h hm
  unfold storeDue
  try dsimp only
  repeat' first
    | with_reducible exact Within.refl _ _
    | with_reducible refine raise_within _ _ _ _ _ _ (by decide) ?_
    | with_reducible refine Within.ite ?_ ?_
    | with_reducible refine Within.at_snp_hif (by decide) (by decide) id ?_

theorem loadHistory_within {M : Nat} {s0 : State} (s : State) (hm : 131072 ||| M = M)
    (h : Within M s0 s) : Within M s0 (loadHistory s) := by
  refine h.after hm ?_
  clear h hm
  unfold loadHistory
  try dsimp only
  repeat' first
    | with_reducible exact Within.refl _ _
    | with_reducible refine modSnp_within _ _ (by decide) (fun _ => by exact id) ?_
    | with_reducible refine Within.ite ?_ ?_

theorem protTake_within {M : Nat} {s0 : State} (slot : Bool) (p : ProtRec) (s : State) (hm : 251815210 ||| M = M)
    (h : Within M s0 s) : Within M s0 (protTake slot p s) := by
  refine h.after hm ?_
  clear h hm
  unfold protTake
  try dsimp only
  repeat' first
    | with_reducible exact Within.refl _ _
    | with_reducible refine loadHistory_within _ (by decide) ?_
    | with_reducible refine modSnp_within _ _ (by decide) (fun _ => by exact id) ?_
    | with_reducible refine raise_within _ _ _ _ _ _ (by decide) ?_
    | with_reducible refine snpSync_within _ (by decide) ?_
    | with_reducible refine inject_within _ _ _ _ (by decide) ?_
    | with_reducible refine Within.ite ?_ ?_

theorem protReject_within {M : Nat} {s0 : State} (word : Nat) (s : State) (hm : 117571618 ||| M = M)
    (h : Within M s0 s) : Within M s0 (protReject word s) := by
  refine h.after hm ?_
  clear h hm
  unfold protReject
  try dsimp only
  repeat' first
    | with_reducible exact Within.refl _ _
    | with_reducible refine raise_within _ _ _ _ _ _ (by decide) ?_
    | with_reducible refine modSnp_within _ _ (by decide) (fun _ => by exact id) ?_

theorem protLatch_within {M : Nat} {s0 : State} (d : Nat) (s0x : State) (hm : 256009514 ||| M = M)
    (h : Within M s0 s0x) : Within M s0 (protLatch d s0x) := by
  refine h.after hm ?_
  clear h hm
  unfold protLatch
  try dsimp only
  repeat' first
    | with_reducible exact Within.refl _ _
    | with_reducible refine storeDue_within _ (by decide) ?_
    | with_reducible refine readGen_within _ _ _ _ _ (by decide) ?_
    | with_reducible refine protReject_within _ _ (by decide) ?_
    | with_reducible refine protTake_within _ _ _ (by decide) ?_
    | with_reducible refine Within.ite ?_ ?_
    | split

theorem intervalCompute_within {M : Nat} {s0 : State} (p : ProtRec) (step : Nat) (s : State) (hm : 117596202 ||| M = M)
    (h : Within M s0 s) : Within M s0 (intervalCompute p step s) := by
  refine h.after hm ?_
  clear h hm
  unfold intervalCompute
  try dsimp only
  repeat' first
    | with_reducible exact Within.refl _ _
    | with_reducible refine modSnp_within _ _ (by decide) (fun _ => by exact id) ?_
    | with_reducible refine each_within _ _ _ (by decide) ?_ ?_
    | with_reducible refine inject_within _ _ _ _ (by decide) ?_
    | with_reducible refine Within.ite ?_ ?_
    | with_reducible intro _

theorem snapRead_within {M : Nat} {s0 : State} (va : Nat) (n : Nat) (s : State) (hm : 251659554 ||| M = M)
    (h : Within M s0 s) : Within M s0 (snapRead va n s).2 := by
  refine h.after hm ?_
  clear h hm
  unfold snapRead
  try dsimp only
  repeat' first
    | with_reducible exact Within.refl _ _
    | with_reducible refine engPiece_within _ _ _ _ _ _ (by decide) ?_
    | with_reducible refine Within.foldlBy (fun p : Option Sectors × Nat × State => p.2.2) _ ?_ _ ?_
    | split
    | with_reducible intro _

theorem readTensors_within {M : Nat} {s0 : State} (a1 : List Tensor) (a2 : State) (hm : 251659554 ||| M = M)
    (h : Within M s0 a2) : Within M s0 (readTensors a1 a2).2 := by
  refine h.after hm ?_
  clear h hm
  induction a1 generalizing a2 with
  | nil =>
    unfold readTensors
    try dsimp only
    repeat' first
      | with_reducible exact Within.refl _ _
  | cons x l ih =>
    unfold readTensors
    try dsimp only
    repeat' first
      | with_reducible exact Within.refl _ _
      | with_reducible refine Within.trans ?_ (ih _)
      | with_reducible refine snapRead_within _ _ _ (by decide) ?_
      | split

theorem putSectors_within {M : Nat} {s0 : State} (va : Nat) (x : Sectors) (s : State) (hm : 251659554 ||| M = M)
    (h : Within M s0 s) : Within M s0 (putSectors va x s).2 := by
  refine h.after hm ?_
  clear h hm
  unfold putSectors
  try dsimp only
  repeat' first
    | with_reducible exact Within.refl _ _
    | with_reducible refine putVa_within _ _ _ (by decide) ?_
    | with_reducible refine each_within _ _ _ (by decide) ?_ ?_
    | with_reducible refine translate_within _ _ _ _ _ (by decide) ?_
    | with_reducible refine writePoison_within _ _ (by decide) ?_
    | split
    | with_reducible intro _

theorem sendMirror_within {M : Nat} {s0 : State} (buddy : Nat) (slot : Bool) (step : Nat) (ts : List Sectors) (s : State) (hm : 117465130 ||| M = M)
    (h : Within M s0 s) : Within M s0 (sendMirror buddy slot step ts s) := by
  refine h.after hm ?_
  clear h hm
  unfold sendMirror
  try dsimp only
  repeat' first
    | with_reducible exact Within.refl _ _
    | with_reducible refine each_within _ _ _ (by decide) ?_ ?_
    | with_reducible refine inject_within _ _ _ _ (by decide) ?_
    | with_reducible intro _

theorem stageAll_within {M : Nat} {s0 : State} (va : Nat) (a1 : List Sectors) (a2 : State) (hm : 251659554 ||| M = M)
    (h : Within M s0 a2) : Within M s0 (stageAll va a1 a2).2 := by
  refine h.after hm ?_
  clear h hm
  induction a1 generalizing va a2 with
  | nil =>
    unfold stageAll
    try dsimp only
    repeat' first
      | with_reducible exact Within.refl _ _
  | cons x l ih =>
    unfold stageAll
    try dsimp only
    repeat' first
      | with_reducible exact Within.refl _ _
      | with_reducible refine Within.trans ?_ (ih _ _)
      | with_reducible refine putSectors_within _ _ _ (by decide) ?_
      | with_reducible refine Within.iteSnd ?_ ?_

theorem takeDirty_within {M : Nat} {s0 : State} (p : ProtRec) (dirty : List Byte) (s : State) (hm : 251790626 ||| M = M)
    (h : Within M s0 s) : Within M s0 (takeDirty p dirty s) := by
  refine h.after hm ?_
  clear h hm
  unfold takeDirty
  try dsimp only
  repeat' first
    | with_reducible exact Within.refl _ _
    | with_reducible refine devPut_within _ _ _ (by decide) ?_
    | with_reducible refine modSnp_within _ _ (by decide) (fun _ => by exact id) ?_

theorem captureStart_within {M : Nat} {s0 : State} (p : ProtRec) (step : Nat) (dirty : List Byte) (s : State) (hm : 251815210 ||| M = M)
    (h : Within M s0 s) : Within M s0 (captureStart p step dirty s) := by
  refine h.after hm ?_
  clear h hm
  unfold captureStart
  try dsimp only
  repeat' first
    | with_reducible exact Within.refl _ _
    | with_reducible refine takeDirty_within _ _ _ (by decide) ?_
    | with_reducible refine readTensors_within _ _ (by decide) ?_
    | with_reducible refine sendMirror_within _ _ _ _ _ (by decide) ?_
    | with_reducible refine modSnp_within _ _ (by decide) (fun _ => by exact id) ?_
    | with_reducible refine snpSync_within _ (by decide) ?_
    | with_reducible refine raise_within _ _ _ _ _ _ (by decide) ?_
    | with_reducible refine stageAll_within _ _ _ (by decide) ?_
    | with_reducible refine intervalCompute_within _ _ _ (by decide) ?_
    | with_reducible refine Within.ite ?_ ?_
    | split

theorem captureCheck_within {M : Nat} {s0 : State} (d : Nat) (s : State) (hm : 251815210 ||| M = M)
    (h : Within M s0 s) : Within M s0 (captureCheck d s) := by
  refine h.after hm ?_
  clear h hm
  unfold captureCheck
  try dsimp only
  repeat' first
    | with_reducible exact Within.refl _ _
    | with_reducible refine devRead_within _ _ _ (by decide) ?_
    | with_reducible refine captureStart_within _ _ _ _ (by decide) ?_
    | with_reducible refine Within.ite ?_ ?_
    | split

theorem captWrite_within {M : Nat} {s0 : State} (c : Capture) (s : State) (hm : 251790626 ||| M = M)
    (h : Within M s0 s) : Within M s0 (captWrite c s) := by
  refine h.after hm ?_
  clear h hm
  unfold captWrite
  try dsimp only
  repeat' first
    | with_reducible exact Within.refl _ _
    | with_reducible refine snpSync_within _ (by decide) ?_
    | with_reducible refine modSnp_within _ _ (by decide) (fun _ => by exact id) ?_

theorem captureDone_within {M : Nat} {s0 : State} (s : State) (hm : 251790626 ||| M = M)
    (h : Within M s0 s) : Within M s0 (captureDone s) := by
  refine h.after hm ?_
  clear h hm
  unfold captureDone
  try dsimp only
  repeat' first
    | with_reducible exact Within.refl _ _
    | with_reducible refine captWrite_within _ _ (by decide) ?_
    | split

theorem mirrorTimeout_within {M : Nat} {s0 : State} (s : State) (hm : 251790626 ||| M = M)
    (h : Within M s0 s) : Within M s0 (mirrorTimeout s) := by
  refine h.after hm ?_
  clear h hm
  unfold mirrorTimeout
  try dsimp only
  repeat' first
    | with_reducible exact Within.refl _ _
    | with_reducible refine captWrite_within _ _ (by decide) ?_
    | with_reducible refine raise_within _ _ _ _ _ _ (by decide) ?_
    | with_reducible refine Within.ite ?_ ?_
    | split

theorem setWard_within {M : Nat} {s0 : State} (slot : Bool) (w : Word64) (s : State) (hm : 131072 ||| M = M)
    (h : Within M s0 s) : Within M s0 (setWard slot w s) := by
  refine h.after hm ?_
  clear h hm
  unfold setWard
  try dsimp only
  repeat' first
    | with_reducible exact Within.refl _ _
    | with_reducible refine modSnp_within _ _ (by decide) (fun _ => by exact id) ?_
    | split

theorem mirrorReceive_within {M : Nat} {s0 : State} (slot : Bool) (offs : Nat) (data : Piece) (trailer : Bool) (s : State) (hm : 251815210 ||| M = M)
    (h : Within M s0 s) : Within M s0 (mirrorReceive slot offs data trailer s) := by
  refine h.after hm ?_
  clear h hm
  unfold mirrorReceive
  try dsimp only
  repeat' first
    | with_reducible exact Within.refl _ _
    | with_reducible refine setWard_within _ _ _ (by decide) ?_
    | with_reducible refine putSectors_within _ _ _ (by decide) ?_
    | with_reducible refine snpSync_within _ (by decide) ?_
    | with_reducible refine modSnp_within _ _ (by decide) (fun _ => by exact id) ?_
    | with_reducible refine inject_within _ _ _ _ (by decide) ?_
    | with_reducible refine Within.ite ?_ ?_
    | split

theorem drainOwn_within {M : Nat} {s0 : State} (s : State) (hm : 251815210 ||| M = M)
    (h : Within M s0 s) : Within M s0 (drainOwn s) := by
  refine h.after hm ?_
  clear h hm
  unfold drainOwn
  try dsimp only
  repeat' first
    | with_reducible exact Within.refl _ _
    | with_reducible refine snapRead_within _ _ _ (by decide) ?_
    | with_reducible refine raise_within _ _ _ _ _ _ (by decide) ?_
    | with_reducible refine modSnp_within _ _ (by decide) (fun _ => by exact id) ?_
    | with_reducible refine each_within _ _ _ (by decide) ?_ ?_
    | with_reducible refine inject_within _ _ _ _ (by decide) ?_
    | split
    | with_reducible intro _

theorem drainWard_within {M : Nat} {s0 : State} (step : Nat) (s : State) (hm : 131072 ||| M = M)
    (h : Within M s0 s) : Within M s0 (drainWard step s) := by
  refine h.after hm ?_
  clear h hm
  unfold drainWard
  try dsimp only
  repeat' first
    | with_reducible exact Within.refl _ _
    | with_reducible refine sarkPut_within _ _ _ (by decide) ?_
    | with_reducible refine modSnp_within _ _ (by decide) (fun _ => by exact id) ?_
    | with_reducible refine Within.ite ?_ ?_
    | split

theorem drainStart_within {M : Nat} {s0 : State} (ward : Option Nat) (s : State) (hm : 251815210 ||| M = M)
    (h : Within M s0 s) : Within M s0 (drainStart ward s) := by
  refine h.after hm ?_
  clear h hm
  unfold drainStart
  try dsimp only
  repeat' first
    | with_reducible exact Within.refl _ _
    | with_reducible refine drainOwn_within _ (by decide) ?_
    | with_reducible refine drainWard_within _ _ (by decide) ?_
    | split

theorem drainFail_within {M : Nat} {s0 : State} (s : State) (hm : 117571618 ||| M = M)
    (h : Within M s0 s) : Within M s0 (drainFail s) := by
  refine h.after hm ?_
  clear h hm
  unfold drainFail
  try dsimp only
  repeat' first
    | with_reducible exact Within.refl _ _
    | with_reducible refine raise_within _ _ _ _ _ _ (by decide) ?_
    | with_reducible refine modSnp_within _ _ (by decide) (fun _ => by exact id) ?_

theorem drainWardEnd_within {M : Nat} {s0 : State} (payload : List Byte) (ok : Bool) (s : State) (hm : 251815210 ||| M = M)
    (h : Within M s0 s) : Within M s0 (drainWardEnd payload ok s) := by
  refine h.after hm ?_
  clear h hm
  unfold drainWardEnd
  try dsimp only
  repeat' first
    | with_reducible exact Within.refl _ _
    | with_reducible refine drainFail_within _ (by decide) ?_
    | with_reducible refine snapRead_within _ _ _ (by decide) ?_
    | with_reducible refine sarkPut_within _ _ _ (by decide) ?_
    | with_reducible refine snpSync_within _ (by decide) ?_
    | with_reducible refine modSnp_within _ _ (by decide) (fun _ => by exact id) ?_
    | with_reducible refine inject_within _ _ _ _ (by decide) ?_
    | with_reducible refine raise_within _ _ _ _ _ _ (by decide) ?_
    | with_reducible refine Within.ite ?_ ?_
    | split

theorem drainOwnEnd_within {M : Nat} {s0 : State} (ok : Bool) (s : State) (hm : 117571618 ||| M = M)
    (h : Within M s0 s) : Within M s0 (drainOwnEnd ok s) := by
  refine h.after hm ?_
  clear h hm
  unfold drainOwnEnd
  try dsimp only
  repeat' first
    | with_reducible exact Within.refl _ _
    | with_reducible refine raise_within _ _ _ _ _ _ (by decide) ?_
    | with_reducible refine modSnp_within _ _ (by decide) (fun _ => by exact id) ?_
    | with_reducible refine Within.ite ?_ ?_
    | split

theorem drainComplete_within {M : Nat} {s0 : State} (ward : Option (List Byte)) (ok : Bool) (s : State) (hm : 251815210 ||| M = M)
    (h : Within M s0 s) : Within M s0 (drainComplete ward ok s) := by
  refine h.after hm ?_
  clear h hm
  unfold drainComplete
  try dsimp only
  repeat' first
    | with_reducible exact Within.refl _ _
    | with_reducible refine drainWardEnd_within _ _ _ (by decide) ?_
    | with_reducible refine drainOwnEnd_within _ _ (by decide) ?_
    | split

theorem snapshotNotice_within {M : Nat} {s0 : State} (step : Nat) (s : State) (hm : 251790626 ||| M = M)
    (h : Within M s0 s) : Within M s0 (snapshotNotice step s) := by
  refine h.after hm ?_
  clear h hm
  unfold snapshotNotice
  try dsimp only
  repeat' first
    | with_reducible exact Within.refl _ _
    | with_reducible refine snpSync_within _ (by decide) ?_
    | with_reducible refine modSnp_within _ _ (by decide) (fun _ => by exact id) ?_
    | with_reducible refine Within.ite ?_ ?_
    | split

theorem intervalNotice_within {M : Nat} {s0 : State} (next : Nat) (f : Nat) (tObs : Nat) (cUs : Nat) (stepUs : Nat) (s : State) (hm : 251790626 ||| M = M)
    (h : Within M s0 s) : Within M s0 (intervalNotice next f tObs cUs stepUs s) := by
  refine h.after hm ?_
  clear h hm
  unfold intervalNotice
  try dsimp only
  repeat' first
    | with_reducible exact Within.refl _ _
    | with_reducible refine snpSync_within _ (by decide) ?_
    | with_reducible refine modSnp_within _ _ (by decide) (fun _ => by exact id) ?_
    | with_reducible refine Within.ite ?_ ?_

theorem observationSecond_within {M : Nat} {s0 : State} (s : State) (hm : 251790626 ||| M = M)
    (h : Within M s0 s) : Within M s0 (observationSecond s) := by
  refine h.after hm ?_
  clear h hm
  unfold observationSecond
  try dsimp only
  repeat' first
    | with_reducible exact Within.refl _ _
    | with_reducible refine snpSync_within _ (by decide) ?_
    | with_reducible refine modSnp_within _ _ (by decide) (fun _ => by exact id) ?_
    | with_reducible refine Within.ite ?_ ?_

theorem restoreTensors_within {M : Nat} {s0 : State} (a1 : List (Tensor × List Byte)) (a2 : State) (hm : 251659554 ||| M = M)
    (h : Within M s0 a2) : Within M s0 (restoreTensors a1 a2).2 := by
  refine h.after hm ?_
  clear h hm
  induction a1 generalizing a2 with
  | nil =>
    unfold restoreTensors
    try dsimp only
    repeat' first
      | with_reducible exact Within.refl _ _
  | cons x l ih =>
    unfold restoreTensors
    try dsimp only
    repeat' first
      | with_reducible exact Within.refl _ _
      | with_reducible refine Within.trans ?_ (ih _)
      | with_reducible refine putVa_within _ _ _ (by decide) ?_
      | with_reducible refine Within.iteSnd ?_ ?_

theorem restoreComplete_within {M : Nat} {s0 : State} (data : List (List Byte)) (crcOk : Bool) (buddyHolds : Bool) (s : State) (hm : 251790626 ||| M = M)
    (h : Within M s0 s) : Within M s0 (restoreComplete data crcOk buddyHolds s) := by
  refine h.after hm ?_
  clear h hm
  unfold restoreComplete
  try dsimp only
  repeat' first
    | with_reducible exact Within.refl _ _
    | with_reducible refine modSnp_within _ _ (by decide) (fun _ => by exact id) ?_
    | with_reducible refine raise_within _ _ _ _ _ _ (by decide) ?_
    | with_reducible refine restoreTensors_within _ _ (by decide) ?_
    | with_reducible refine snpSync_within _ (by decide) ?_
    | with_reducible refine Within.ite ?_ ?_
    | split

theorem cleanMirror_within {M : Nat} {s0 : State} (p : ProtRec) (step : Nat) (s : State) (hm : 251659554 ||| M = M)
    (h : Within M s0 s) : Within M s0 (cleanMirror p step s).2 := by
  refine h.after hm ?_
  clear h hm
  unfold cleanMirror
  try dsimp only
  repeat' first
    | with_reducible exact Within.refl _ _
    | with_reducible refine snapRead_within _ _ _ (by decide) ?_
    | split

theorem restoreCopy_within {M : Nat} {s0 : State} (p : ProtRec) (step : Nat) (s : State) (hm : 251659554 ||| M = M)
    (h : Within M s0 s) : Within M s0 (restoreCopy p step s).2 := by
  refine h.after hm ?_
  clear h hm
  unfold restoreCopy
  try dsimp only
  repeat' first
    | with_reducible exact Within.refl _ _
    | with_reducible refine cleanMirror_within _ _ _ (by decide) ?_
    | with_reducible refine Within.iteSnd ?_ ?_

theorem sendParts_within {M : Nat} {s0 : State} (dst : Nat) (step : Nat) (parts : List (List Byte)) (s : State) (hm : 117465130 ||| M = M)
    (h : Within M s0 s) : Within M s0 (sendParts dst step parts s) := by
  refine h.after hm ?_
  clear h hm
  unfold sendParts
  try dsimp only
  repeat' first
    | with_reducible exact Within.refl _ _
    | with_reducible refine each_within _ _ _ (by decide) ?_ ?_
    | with_reducible refine inject_within _ _ _ _ (by decide) ?_
    | with_reducible intro _

theorem restoreRequest_within {M : Nat} {s0 : State} (src : Nat) (step : Nat) (s : State) (hm : 251684138 ||| M = M)
    (h : Within M s0 s) : Within M s0 (restoreRequest src step s) := by
  refine h.after hm ?_
  clear h hm
  unfold restoreRequest
  try dsimp only
  repeat' first
    | with_reducible exact Within.refl _ _
    | with_reducible refine inject_within _ _ _ _ (by decide) ?_
    | with_reducible refine restoreCopy_within _ _ _ (by decide) ?_
    | with_reducible refine sendParts_within _ _ _ _ (by decide) ?_
    | split

end Sys2Proof.Machine
end

