-- ==== Sys2Proof/Laws/Tick.lean ====
section
/-! SUPPORT. What each operation of Machine/Tick.lean may change: see Laws/Within.lean. -/

namespace Sys2Proof.Machine

theorem planReject_within {M : Nat} {s0 : State} (d : Nat) (word : Nat) (s : State) (hm : 117440546 ||| M = M)
    (h : Within M s0 s) : Within M s0 (planReject d word s) := by
  refine h.after hm ?_
  clear h hm
  unfold planReject
  try dsimp only
  repeat' first
    | with_reducible exact Within.refl _ _
    | with_reducible assumption
    | with_reducible refine raise_within _ _ _ _ _ _ (by decide) ?_
    | with_reducible refine ctrAdd_within _ _ _ (by decide) ?_
    | with_reducible refine modDom_within _ _ _ (by decide) (by first | exact .inr (fun _ => rfl) | exact .inl (by decide) | (right; intro x; dsimp only; split <;> rfl)) (by first | exact .inr (fun _ => rfl) | exact .inl (by decide) | (right; intro x; dsimp only; split <;> rfl)) ?_
    | with_reducible intro _
    | with_reducible dsimp only

theorem planTake_within {M : Nat} {s0 : State} (d : Nat) (slot : Bool) (p : PlanRec) (flows : List FlowCfg) (s : State) (hm : 8589934624 ||| M = M)
    (h : Within M s0 s) : Within M s0 (planTake d slot p flows s) := by
  refine h.after hm ?_
  clear h hm
  unfold planTake
  try dsimp only
  repeat' first
    | with_reducible exact Within.refl _ _
    | with_reducible assumption
    | with_reducible refine modDom_within _ _ _ (by decide) (by first | exact .inr (fun _ => rfl) | exact .inl (by decide) | (right; intro x; dsimp only; split <;> rfl)) (by first | exact .inr (fun _ => rfl) | exact .inl (by decide) | (right; intro x; dsimp only; split <;> rfl)) ?_
    | with_reducible refine Within.ite ?_ ?_
    | split
    | with_reducible intro _
    | with_reducible dsimp only

theorem planLatch_within {M : Nat} {s0 : State} (d : Nat) (s : State) (hm : 8841594146 ||| M = M)
    (h : Within M s0 s) : Within M s0 (planLatch d s) := by
  refine h.after hm ?_
  clear h hm
  unfold planLatch
  try dsimp only
  repeat' first
    | with_reducible exact Within.refl _ _
    | with_reducible assumption
    | with_reducible refine readGen_within _ _ _ _ _ (by decide) ?_
    | with_reducible refine planReject_within _ _ _ (by decide) ?_
    | with_reducible refine readBlock_within _ _ _ _ (by decide) ?_
    | with_reducible refine raise_within _ _ _ _ _ _ (by decide) ?_
    | with_reducible refine planTake_within _ _ _ _ _ (by decide) ?_
    | with_reducible refine Within.ite ?_ ?_
    | with_reducible refine Within.ofSnd (by assumption) ?_
    | split
    | with_reducible intro _
    | with_reducible dsimp only

theorem releaseClusters_within {M : Nat} {s0 : State} (d : Nat) (s : State) (hm : 128 ||| M = M)
    (h : Within M s0 s) : Within M s0 (releaseClusters d s) := by
  refine h.after hm ?_
  clear h hm
  unfold releaseClusters
  try dsimp only
  repeat' first
    | with_reducible exact Within.refl _ _
    | with_reducible assumption
    | with_reducible refine Within.ite ?_ ?_
    | with_reducible refine Within.ofSnd (by assumption) ?_
    | split
    | with_reducible refine Within.at_cl (by decide) (by first | (left; simp; done) | (right; simp; done) | exact .inl rfl) ?_
    | with_reducible intro _
    | with_reducible dsimp only

theorem claimCluster_within {M : Nat} {s0 : State} (d : Nat) (p : PlanRec) (acc : State × Bool) (c : Nat) (hm : 128 ||| M = M)
    (h : Within M s0 acc.1) : Within M s0 (claimCluster d p acc c).1 := by
  refine h.after hm ?_
  clear h hm
  unfold claimCluster
  try dsimp only
  repeat' first
    | with_reducible exact Within.refl _ _
    | with_reducible assumption
    | with_reducible refine modCl_within _ _ _ (by decide) ?_
    | with_reducible refine Within.iteFst ?_ ?_
    | with_reducible refine Within.ite ?_ ?_
    | with_reducible refine Within.ofSnd (by assumption) ?_
    | split
    | with_reducible intro _
    | with_reducible dsimp only

theorem claimClusters_within {M : Nat} {s0 : State} (d : Nat) (s : State) (hm : 117440674 ||| M = M)
    (h : Within M s0 s) : Within M s0 (claimClusters d s) := by
  refine h.after hm ?_
  clear h hm
  unfold claimClusters
  try dsimp only
  repeat' first
    | with_reducible exact Within.refl _ _
    | with_reducible assumption
    | with_reducible refine claimCluster_within _ _ _ _ (by decide) ?_
    | with_reducible refine raise_within _ _ _ _ _ _ (by decide) ?_
    | with_reducible refine Within.foldl _ ?_ _ ?_
    | with_reducible refine Within.foldlSnd _ ?_ _ ?_
    | with_reducible refine Within.foldlFst _ ?_ _ ?_
    | with_reducible refine Within.ite ?_ ?_
    | with_reducible refine Within.ofSnd (by assumption) ?_
    | split
    | with_reducible intro _
    | with_reducible dsimp only

theorem setPhase_within {M : Nat} {s0 : State} (d : Nat) (p : Phase) (s : State) (hm : 1191182370 ||| M = M)
    (h : Within M s0 s) : Within M s0 (setPhase d p s) := by
  refine h.after hm ?_
  clear h hm
  unfold setPhase
  try dsimp only
  repeat' first
    | with_reducible exact Within.refl _ _
    | with_reducible assumption
    | with_reducible refine modDom_within _ _ _ (by decide) (by first | exact .inr (fun _ => rfl) | exact .inl (by decide) | (right; intro x; dsimp only; split <;> rfl)) (by first | exact .inr (fun _ => rfl) | exact .inl (by decide) | (right; intro x; dsimp only; split <;> rfl)) ?_
    | with_reducible refine trace_within _ _ _ _ _ (by decide) ?_
    | with_reducible intro _
    | with_reducible dsimp only

theorem countFaults_within {M : Nat} {s0 : State} (d : Nat) (s : State) (hm : 1024 ||| M = M)
    (h : Within M s0 s) : Within M s0 (countFaults d s) := by
  refine h.after hm ?_
  clear h hm
  unfold countFaults
  try dsimp only
  repeat' first
    | with_reducible exact Within.refl _ _
    | with_reducible assumption
    | with_reducible refine Within.ite ?_ ?_
    | with_reducible refine Within.ofSnd (by assumption) ?_
    | split
    | with_reducible refine Within.at_xlt (by decide)  ?_
    | with_reducible intro _
    | with_reducible dsimp only

theorem boundary_within {M : Nat} {s0 : State} (d : Nat) (s : State) (hm : 9915866602 ||| M = M)
    (h : Within M s0 s) : Within M s0 (boundary d s) := by
  refine h.after hm ?_
  clear h hm
  unfold boundary
  try dsimp only
  repeat' first
    | with_reducible exact Within.refl _ _
    | with_reducible assumption
    | with_reducible refine releaseClusters_within _ _ (by decide) ?_
    | with_reducible refine lateWrites_within _ _ _ (by decide) ?_
    | with_reducible refine modDom_within _ _ _ (by decide) (by first | exact .inr (fun _ => rfl) | exact .inl (by decide) | (right; intro x; dsimp only; split <;> rfl)) (by first | exact .inr (fun _ => rfl) | exact .inl (by decide) | (right; intro x; dsimp only; split <;> rfl)) ?_
    | with_reducible refine raise_within _ _ _ _ _ _ (by decide) ?_
    | with_reducible refine countFaults_within _ _ (by decide) ?_
    | with_reducible refine ctrAdd_within _ _ _ (by decide) ?_
    | with_reducible refine sendFlows_within _ _ _ (by decide) ?_
    | with_reducible refine applyFlows_within _ _ (by decide) ?_
    | with_reducible refine Within.ite ?_ ?_
    | split
    | with_reducible intro _
    | with_reducible dsimp only

theorem freshSlots_within {M : Nat} {s0 : State} (d : Nat) (s : State) (hm : 64 ||| M = M)
    (h : Within M s0 s) : Within M s0 (freshSlots d s) := by
  refine h.after hm ?_
  clear h hm
  unfold freshSlots
  try dsimp only
  repeat' first
    | with_reducible exact Within.refl _ _
    | with_reducible assumption
    | with_reducible refine each_within _ _ _ (by decide) ?_ ?_
    | with_reducible refine modSeq_within _ _ _ (by decide) ?_
    | with_reducible intro _
    | with_reducible dsimp only

theorem admitSteps_within {M : Nat} {s0 : State} (d : Nat) (s : State) (hm : 8845981162 ||| M = M)
    (h : Within M s0 s) : Within M s0 (admitSteps d s) := by
  refine h.after hm ?_
  clear h hm
  unfold admitSteps
  try dsimp only
  repeat' first
    | with_reducible exact Within.refl _ _
    | with_reducible assumption
    | with_reducible refine captureCheck_within _ _ (by decide) ?_
    | with_reducible refine protLatch_within _ _ (by decide) ?_
    | with_reducible refine sliceLatch_within _ _ (by decide) ?_
    | with_reducible refine each_within _ _ _ (by decide) ?_ ?_
    | with_reducible refine departSlot_within _ _ (by decide) ?_
    | with_reducible refine dropBadFrames_within _ _ (by decide) ?_
    | with_reducible refine openQueue_within _ _ (by decide) ?_
    | with_reducible refine sendNotices_within _ _ _ (by decide) ?_
    | with_reducible refine readWords_within _ _ (by decide) ?_
    | with_reducible refine modelMoves_within _ _ _ (by decide) ?_
    | with_reducible refine Within.ite ?_ ?_
    | split
    | with_reducible intro _
    | with_reducible dsimp only

theorem admitPhase_within {M : Nat} {s0 : State} (d : Nat) (s : State) (hm : 9919985130 ||| M = M)
    (h : Within M s0 s) : Within M s0 (admitPhase d s) := by
  refine h.after hm ?_
  clear h hm
  unfold admitPhase
  try dsimp only
  repeat' first
    | with_reducible exact Within.refl _ _
    | with_reducible assumption
    | with_reducible refine claimClusters_within _ _ (by decide) ?_
    | with_reducible refine planLatch_within _ _ (by decide) ?_
    | with_reducible refine setPhase_within _ _ _ (by decide) ?_
    | with_reducible refine codLate_within _ _ _ (by decide) ?_
    | with_reducible refine freshSlots_within _ _ (by decide) ?_
    | with_reducible refine admitSteps_within _ _ (by decide) ?_
    | with_reducible refine Within.ite ?_ ?_
    | split
    | with_reducible intro _
    | with_reducible dsimp only

theorem tickBoundary_within {M : Nat} {s0 : State} (d : Nat) (s : State) (hm : 9920511466 ||| M = M)
    (h : Within M s0 s) : Within M s0 (tickBoundary d s) := by
  refine h.after hm ?_
  clear h hm
  unfold tickBoundary
  try dsimp only
  repeat' first
    | with_reducible exact Within.refl _ _
    | with_reducible assumption
    | with_reducible refine admitPhase_within _ _ (by decide) ?_
    | with_reducible refine boundary_within _ _ (by decide) ?_
    | with_reducible refine Within.ite ?_ ?_
    | split
    | with_reducible intro _
    | with_reducible dsimp only

theorem windowStart_within {M : Nat} {s0 : State} (d : Nat) (s : State) (hm : 9915670510 ||| M = M)
    (h : Within M s0 s) : Within M s0 (windowStart d s) := by
  refine h.after hm ?_
  clear h hm
  unfold windowStart
  try dsimp only
  repeat' first
    | with_reducible exact Within.refl _ _
    | with_reducible assumption
    | with_reducible refine drainQueue_within _ _ _ (by decide) ?_
    | with_reducible refine modDom_within _ _ _ (by decide) (by first | exact .inr (fun _ => rfl) | exact .inl (by decide) | (right; intro x; dsimp only; split <;> rfl)) (by first | exact .inr (fun _ => rfl) | exact .inl (by decide) | (right; intro x; dsimp only; split <;> rfl)) ?_
    | with_reducible refine each_within _ _ _ (by decide) ?_ ?_
    | with_reducible refine modSeq_within _ _ _ (by decide) ?_
    | with_reducible refine setPhase_within _ _ _ (by decide) ?_
    | with_reducible refine msix_within _ _ (by decide) ?_
    | with_reducible refine beginItem_within _ _ _ (by decide) ?_
    | with_reducible refine Within.ite ?_ ?_
    | split
    | with_reducible intro _
    | with_reducible dsimp only

theorem startAll_within {M : Nat} {s0 : State} (s : State) (hm : 117441250 ||| M = M)
    (h : Within M s0 s) : Within M s0 (startAll s) := by
  refine h.after hm ?_
  clear h hm
  unfold startAll
  try dsimp only
  repeat' first
    | with_reducible exact Within.refl _ _
    | with_reducible assumption
    | with_reducible refine each_within _ _ _ (by decide) ?_ ?_
    | with_reducible refine startNext_within _ _ (by decide) ?_
    | with_reducible intro _
    | with_reducible dsimp only

theorem checkpoint_within {M : Nat} {s0 : State} (d : Nat) (second : Bool) (s : State) (hm : 1057300458 ||| M = M)
    (h : Within M s0 s) : Within M s0 (checkpoint d second s) := by
  refine h.after hm ?_
  clear h hm
  unfold checkpoint
  try dsimp only
  repeat' first
    | with_reducible exact Within.refl _ _
    | with_reducible assumption
    | with_reducible refine each_within _ _ _ (by decide) ?_ ?_
    | with_reducible refine raise_within _ _ _ _ _ _ (by decide) ?_
    | with_reducible refine modDom_within _ _ _ (by decide) (by first | exact .inr (fun _ => rfl) | exact .inl (by decide) | (right; intro x; dsimp only; split <;> rfl)) (by first | exact .inr (fun _ => rfl) | exact .inl (by decide) | (right; intro x; dsimp only; split <;> rfl)) ?_
    | with_reducible refine modSeq_within _ _ _ (by decide) ?_
    | with_reducible refine startAll_within _ (by decide) ?_
    | with_reducible refine saveItem_within _ _ _ _ (by decide) ?_
    | with_reducible refine Within.ite ?_ ?_
    | with_reducible refine Within.ofSnd (by assumption) ?_
    | split
    | with_reducible intro _
    | with_reducible dsimp only

theorem windowEnd_within {M : Nat} {s0 : State} (d : Nat) (s : State) (hm : 2131042282 ||| M = M)
    (h : Within M s0 s) : Within M s0 (windowEnd d s) := by
  refine h.after hm ?_
  clear h hm
  unfold windowEnd
  try dsimp only
  repeat' first
    | with_reducible exact Within.refl _ _
    | with_reducible assumption
    | with_reducible refine setPhase_within _ _ _ (by decide) ?_
    | with_reducible refine each_within _ _ _ (by decide) ?_ ?_
    | with_reducible refine noteCharge_within _ _ (by decide) ?_
    | with_reducible refine raise_within _ _ _ _ _ _ (by decide) ?_
    | with_reducible refine modSeq_within _ _ _ (by decide) ?_
    | with_reducible refine modDom_within _ _ _ (by decide) (by first | exact .inr (fun _ => rfl) | exact .inl (by decide) | (right; intro x; dsimp only; split <;> rfl)) (by first | exact .inr (fun _ => rfl) | exact .inl (by decide) | (right; intro x; dsimp only; split <;> rfl)) ?_
    | with_reducible refine saveItem_within _ _ _ _ (by decide) ?_
    | with_reducible refine Within.ite ?_ ?_
    | split
    | with_reducible intro _
    | with_reducible dsimp only

theorem decideMove_within {M : Nat} {s0 : State} (slot : Nat) (toFb : Bool) (s : State) (hm : 117465194 ||| M = M)
    (h : Within M s0 s) : Within M s0 (decideMove slot toFb s) := by
  refine h.after hm ?_
  clear h hm
  unfold decideMove
  try dsimp only
  repeat' first
    | with_reducible exact Within.refl _ _
    | with_reducible assumption
    | with_reducible refine sequenceNotice_within _ _ _ _ (by decide) ?_
    | with_reducible refine each_within _ _ _ (by decide) ?_ ?_
    | with_reducible refine inject_within _ _ _ _ (by decide) ?_
    | with_reducible intro _
    | with_reducible dsimp only

theorem cleanTick_within {M : Nat} {s0 : State} (d : Nat) (slot : Nat) (s : State) (hm : 251659554 ||| M = M)
    (h : Within M s0 s) : Within M s0 (cleanTick d slot s).2 := by
  refine h.after hm ?_
  clear h hm
  unfold cleanTick
  try dsimp only
  repeat' first
    | with_reducible exact Within.refl _ _
    | with_reducible assumption
    | with_reducible refine costEntry_within _ _ _ (by decide) ?_
    | with_reducible refine Within.iteSnd ?_ ?_
    | with_reducible refine Within.ite ?_ ?_
    | with_reducible refine Within.optElim ?_ ?_
    | with_reducible refine Within.ofSnd (by assumption) ?_
    | split
    | with_reducible intro _
    | with_reducible dsimp only

theorem guardPrimary_within {M : Nat} {s0 : State} (slot : Nat) (s : State) (hm : 117465194 ||| M = M)
    (h : Within M s0 s) : Within M s0 (guardPrimary slot s) := by
  refine h.after hm ?_
  clear h hm
  unfold guardPrimary
  try dsimp only
  repeat' first
    | with_reducible exact Within.refl _ _
    | with_reducible assumption
    | with_reducible refine modSeq_within _ _ _ (by decide) ?_
    | with_reducible refine decideMove_within _ _ _ (by decide) ?_
    | with_reducible refine raise_within _ _ _ _ _ _ (by decide) ?_
    | with_reducible refine Within.ite ?_ ?_
    | split
    | with_reducible intro _
    | with_reducible dsimp only

theorem guardFallback_within {M : Nat} {s0 : State} (d : Nat) (slot : Nat) (s : State) (hm : 251684202 ||| M = M)
    (h : Within M s0 s) : Within M s0 (guardFallback d slot s) := by
  refine h.after hm ?_
  clear h hm
  unfold guardFallback
  try dsimp only
  repeat' first
    | with_reducible exact Within.refl _ _
    | with_reducible assumption
    | with_reducible refine cleanTick_within _ _ _ (by decide) ?_
    | with_reducible refine modSeq_within _ _ _ (by decide) ?_
    | with_reducible refine decideMove_within _ _ _ (by decide) ?_
    | with_reducible refine Within.ite ?_ ?_
    | split
    | with_reducible intro _
    | with_reducible dsimp only

theorem guardSlot_within {M : Nat} {s0 : State} (d : Nat) (s : State) (slot : Nat) (hm : 251684202 ||| M = M)
    (h : Within M s0 s) : Within M s0 (guardSlot d s slot) := by
  refine h.after hm ?_
  clear h hm
  unfold guardSlot
  try dsimp only
  repeat' first
    | with_reducible exact Within.refl _ _
    | with_reducible assumption
    | with_reducible refine ctrAdd_within _ _ _ (by decide) ?_
    | with_reducible refine modSeq_within _ _ _ (by decide) ?_
    | with_reducible refine guardFallback_within _ _ _ (by decide) ?_
    | with_reducible refine guardPrimary_within _ _ (by decide) ?_
    | with_reducible refine Within.ite ?_ ?_
    | split
    | with_reducible intro _
    | with_reducible dsimp only

theorem guardStart_within {M : Nat} {s0 : State} (d : Nat) (s : State) (hm : 1325426026 ||| M = M)
    (h : Within M s0 s) : Within M s0 (guardStart d s) := by
  refine h.after hm ?_
  clear h hm
  unfold guardStart
  try dsimp only
  repeat' first
    | with_reducible exact Within.refl _ _
    | with_reducible assumption
    | with_reducible refine setPhase_within _ _ _ (by decide) ?_
    | with_reducible refine each_within _ _ _ (by decide) ?_ ?_
    | with_reducible refine guardSlot_within _ _ _ (by decide) ?_
    | with_reducible refine eavesFlushAll_within _ (by decide) ?_
    | with_reducible refine Within.ite ?_ ?_
    | split
    | with_reducible intro _
    | with_reducible dsimp only

theorem acquire_face (e : Int) (x : DomSt) : (acquire e x).face = x.face := by
  unfold acquire
  split
  · rfl
  · split <;> rfl

theorem ptpAcquired_within {M : Nat} {s0 : State} (d : Nat) (ptpNs : Nat) (s : State) (hm : 8589934624 ||| M = M)
    (h : Within M s0 s) : Within M s0 (ptpAcquired d ptpNs s) := by
  refine h.after hm ?_
  unfold ptpAcquired
  dsimp only
  split
  · exact Within.refl _ _
  · exact modDom_within _ _ _ (by decide) (.inr (acquire_face _)) (.inl (by decide)) (Within.refl _ _)

theorem ptpLost_within {M : Nat} {s0 : State} (d : Nat) (s : State) (hm : 117440546 ||| M = M)
    (h : Within M s0 s) : Within M s0 (ptpLost d s) := by
  refine h.after hm ?_
  clear h hm
  unfold ptpLost
  try dsimp only
  repeat' first
    | with_reducible exact Within.refl _ _
    | with_reducible assumption
    | with_reducible refine raise_within _ _ _ _ _ _ (by decide) ?_
    | with_reducible refine modDom_within _ _ _ (by decide) (by first | exact .inr (fun _ => rfl) | exact .inl (by decide) | (right; intro x; dsimp only; split <;> rfl)) (by first | exact .inr (fun _ => rfl) | exact .inl (by decide) | (right; intro x; dsimp only; split <;> rfl)) ?_
    | with_reducible refine Within.ite ?_ ?_
    | split
    | with_reducible intro _
    | with_reducible dsimp only

theorem ptpReturn_within {M : Nat} {s0 : State} (d : Nat) (err : Int) (s : State) (hm : 117440546 ||| M = M)
    (h : Within M s0 s) : Within M s0 (ptpReturn d err s) := by
  refine h.after hm ?_
  clear h hm
  unfold ptpReturn
  try dsimp only
  repeat' first
    | with_reducible exact Within.refl _ _
    | with_reducible assumption
    | with_reducible refine raise_within _ _ _ _ _ _ (by decide) ?_
    | with_reducible refine modDom_within _ _ _ (by decide) (by first | exact .inr (fun _ => rfl) | exact .inl (by decide) | (right; intro x; dsimp only; split <;> rfl)) (by first | exact .inr (fun _ => rfl) | exact .inl (by decide) | (right; intro x; dsimp only; split <;> rfl)) ?_
    | with_reducible refine Within.ite ?_ ?_
    | split
    | with_reducible intro _
    | with_reducible dsimp only

end Sys2Proof.Machine
end

