-- ==== Sys2Proof/Laws/Power.lean ====
section
/-! SUPPORT. What each operation of Machine/Power.lean may change: see Laws/Within.lean. -/

namespace Sys2Proof.Machine

theorem modPwr_within {M : Nat} {s0 : State} (s : State) (f : PwrSt → PwrSt) (hm : 16777216 ||| M = M)
    (hf : (f s.pwr).quads.length = s.pwr.quads.length)
    (hk : M.testBit 31 = true ∨ (f s.pwr).keepalive = s.pwr.keepalive) (h : Within M s0 s) : Within M s0 (modPwr s f) :=
  h.trans (Within.at_pwr (maskBit (b := 16777216) (by decide) hm) (.inl hf) hk (Within.refl _ _))

theorem modBoot_within {M : Nat} {s0 : State} (s : State) (f : BootSt → BootSt) (hm : 2097152 ||| M = M)
    (hf : (memWf erasedByte s.boot.flash = true → memWf erasedByte (f s.boot).flash = true) ∧
      s.boot.svnMin ≤ (f s.boot).svnMin ∧ (f s.boot).keyHashes = s.boot.keyHashes ∧
      ∀ k ∈ s.boot.revoked, k ∈ (f s.boot).revoked)
    (hk : M.testBit 32 = true ∨ (f s.boot).fuses = s.boot.fuses) (h : Within M s0 s) :
    Within M s0 (modBoot s f) :=
  h.trans (Within.at_boot (maskBit (b := 2097152) (by decide) hm) hf.1 hf.2 hk (Within.refl _ _))

theorem modHif_within {M : Nat} {s0 : State} (s : State) (f : HostIf → HostIf) (hm : 4194304 ||| M = M)
    (h : Within M s0 s) : Within M s0 (modHif s f) := by
  refine h.after hm ?_
  clear h hm
  unfold modHif
  try dsimp only
  repeat' first
    | with_reducible exact Within.refl _ _
    | with_reducible assumption
    | with_reducible refine Within.at_hif (by decide)  ?_
    | with_reducible intro _
    | with_reducible dsimp only

theorem deviceReset_within {M : Nat} {s0 : State} (s : State) (hm : 12884901887 ||| M = M)
    (h : Within M s0 s) : Within M s0 (deviceReset s) := by
  refine h.after hm ?_
  clear h hm
  apply Within.mk' (t := s) rfl (Within.refl _ _)
    <;> first | exact .inl (by decide) | exact .inr rfl | exact fun _ => rfl | exact id | exact ⟨Nat.le_refl _, rfl, fun _ h => h⟩ | exact fun _ => Nat.zero_le _

theorem sysRst_within {M : Nat} {s0 : State} (s : State) (hm : 12884901887 ||| M = M)
    (h : Within M s0 s) : Within M s0 (sysRst s) := by
  refine h.after hm ?_
  clear h hm
  unfold sysRst
  try dsimp only
  repeat' first
    | with_reducible exact Within.refl _ _
    | with_reducible assumption
    | with_reducible refine modBoot_within _ _ (by decide) (by first | exact ⟨id, Nat.le_refl _, rfl, fun _ h => h⟩) (by first | exact .inr rfl | (right; rfl)) ?_
    | with_reducible refine deviceReset_within _ (by decide) ?_
    | with_reducible intro _
    | with_reducible dsimp only

theorem sysclkStop_within {M : Nat} {s0 : State} (s : State) (hm : 12884901887 ||| M = M)
    (h : Within M s0 s) : Within M s0 (sysclkStop s) := by
  refine h.after hm ?_
  clear h hm
  unfold sysclkStop
  try dsimp only
  repeat' first
    | with_reducible exact Within.refl _ _
    | with_reducible assumption
    | with_reducible refine modPwr_within _ _ (by decide) (by first | with_reducible rfl | simp [capStep, ctrSet, modPwr]) (by first | exact .inr rfl | (right; dsimp only; done) | (right; rfl) | exact .inl (by decide)) ?_
    | with_reducible refine deviceReset_within _ (by decide) ?_
    | with_reducible intro _
    | with_reducible dsimp only

theorem railSample_within {M : Nat} {s0 : State} (inTol : List Bool) (s : State) (hm : 12884901887 ||| M = M)
    (h : Within M s0 s) : Within M s0 (railSample inTol s) := by
  refine h.after hm ?_
  clear h hm
  unfold railSample
  try dsimp only
  repeat' first
    | with_reducible exact Within.refl _ _
    | with_reducible assumption
    | with_reducible refine modPwr_within _ _ (by decide) (by first | with_reducible rfl | simp [capStep, ctrSet, modPwr]) (by first | exact .inr rfl | (right; dsimp only; done) | (right; rfl) | exact .inl (by decide)) ?_
    | with_reducible refine deviceReset_within _ (by decide) ?_
    | with_reducible refine each_within _ _ _ (by decide) ?_ ?_
    | with_reducible refine raiseFatal_within _ _ _ _ _ _ (by decide) ?_
    | with_reducible refine Within.ite ?_ ?_
    | split
    | with_reducible intro _
    | with_reducible dsimp only

theorem setClocks_within {M : Nat} {s0 : State} (s : State) (hm : 16777216 ||| M = M)
    (h : Within M s0 s) : Within M s0 (setClocks s) := by
  refine h.after hm ?_
  clear h hm
  unfold setClocks
  try dsimp only
  repeat' first
    | with_reducible exact Within.refl _ _
    | with_reducible assumption
    | with_reducible refine modPwr_within _ _ (by decide) (by first | with_reducible rfl | simp [capStep, ctrSet, modPwr]) (by first | exact .inr rfl | (right; dsimp only; done) | (right; rfl) | exact .inl (by decide)) ?_
    | with_reducible refine Within.ite ?_ ?_
    | split
    | with_reducible intro _
    | with_reducible dsimp only

theorem quadSample_within {M : Nat} {s0 : State} (s : State) (n : Nat) (cd : Int) (bd : Int) (hm : 2673831842 ||| M = M)
    (h : Within M s0 s) : Within M s0 (quadSample s n cd bd) := by
  refine h.after hm ?_
  clear h hm
  unfold quadSample
  try dsimp only
  repeat' first
    | with_reducible exact Within.refl _ _
    | with_reducible assumption
    | with_reducible refine modPwr_within _ _ (by decide) (by first | with_reducible rfl | simp [capStep, ctrSet, modPwr]) (by first | exact .inr rfl | (right; dsimp only; done) | (right; rfl) | exact .inl (by decide)) ?_
    | with_reducible refine raiseFatal_within _ _ _ _ _ _ (by decide) ?_
    | with_reducible refine raise_within _ _ _ _ _ _ (by decide) ?_
    | with_reducible refine Within.ite ?_ ?_
    | split
    | with_reducible intro _
    | with_reducible dsimp only

theorem iodSample_within {M : Nat} {s0 : State} (t : Int) (s : State) (hm : 2673831850 ||| M = M)
    (h : Within M s0 s) : Within M s0 (iodSample t s) := by
  refine h.after hm ?_
  clear h hm
  unfold iodSample
  try dsimp only
  repeat' first
    | with_reducible exact Within.refl _ _
    | with_reducible assumption
    | with_reducible refine modPwr_within _ _ (by decide) (by first | with_reducible rfl | simp [capStep, ctrSet, modPwr]) (by first | exact .inr rfl | (right; dsimp only; done) | (right; rfl) | exact .inl (by decide)) ?_
    | with_reducible refine raiseFatal_within _ _ _ _ _ _ (by decide) ?_
    | with_reducible refine emit_within _ _ (by decide) ?_
    | with_reducible refine eventSendAll_within _ (by decide) ?_
    | with_reducible refine raise_within _ _ _ _ _ _ (by decide) ?_
    | with_reducible refine Within.ite ?_ ?_
    | split
    | with_reducible intro _
    | with_reducible dsimp only

theorem dieTempSample_within {M : Nat} {s0 : State} (cd : List Int) (bd : List Int) (iod : Int) (s : State) (hm : 2673831850 ||| M = M)
    (h : Within M s0 s) : Within M s0 (dieTempSample cd bd iod s) := by
  refine h.after hm ?_
  clear h hm
  unfold dieTempSample
  try dsimp only
  repeat' first
    | with_reducible exact Within.refl _ _
    | with_reducible assumption
    | with_reducible refine setClocks_within _ (by decide) ?_
    | with_reducible refine noteCool_within _ (by decide) ?_
    | with_reducible refine each_within _ _ _ (by decide) ?_ ?_
    | with_reducible refine quadSample_within _ _ _ _ (by decide) ?_
    | with_reducible refine iodSample_within _ _ (by decide) ?_
    | with_reducible refine Within.ite ?_ ?_
    | split
    | with_reducible intro _
    | with_reducible dsimp only

theorem powerSample_within {M : Nat} {s0 : State} (watts : Nat) (s : State) (hm : 2673831842 ||| M = M)
    (h : Within M s0 s) : Within M s0 (powerSample watts s) := by
  refine h.after hm ?_
  clear h hm
  unfold powerSample
  try dsimp only
  repeat' first
    | with_reducible exact Within.refl _ _
    | with_reducible assumption
    | with_reducible refine modPwr_within _ _ (by decide) (by first | with_reducible rfl | simp [capStep, ctrSet, modPwr]) (by first | exact .inr rfl | (right; dsimp only; done) | (right; rfl) | exact .inl (by decide)) ?_
    | with_reducible refine ctrSet_within _ _ _ (by decide) ?_
    | with_reducible refine raise_within _ _ _ _ _ _ (by decide) ?_
    | with_reducible refine setClocks_within _ (by decide) ?_
    | with_reducible refine raiseFatal_within _ _ _ _ _ _ (by decide) ?_
    | with_reducible refine Within.ite ?_ ?_
    | with_reducible refine Within.ofSnd (by assumption) ?_
    | split
    | with_reducible intro _
    | with_reducible dsimp only

theorem linkOptic_within {M : Nat} {s0 : State} (s : State) (k : Nat) (t : Int) (hm : 117465130 ||| M = M)
    (h : Within M s0 s) : Within M s0 (linkOptic s k t) := by
  refine h.after hm ?_
  clear h hm
  unfold linkOptic
  try dsimp only
  repeat' first
    | with_reducible exact Within.refl _ _
    | with_reducible assumption
    | with_reducible refine ctrGauge_within _ _ _ (by decide) ?_
    | with_reducible refine modPwr_within _ _ (by decide) (by first | with_reducible rfl | simp [capStep, ctrSet, modPwr]) (by first | exact .inr rfl | (right; dsimp only; done) | (right; rfl) | exact .inl (by decide)) ?_
    | with_reducible refine raise_within _ _ _ _ _ _ (by decide) ?_
    | with_reducible refine linkOut_within _ _ (by decide) ?_
    | with_reducible refine modLink_within _ _ _ (by decide) ?_
    | with_reducible refine trainLink_within _ _ (by decide) ?_
    | with_reducible refine Within.ite ?_ ?_
    | split
    | with_reducible intro _
    | with_reducible dsimp only

theorem mediaOptic_within {M : Nat} {s0 : State} (s : State) (p : Nat) (t : Int) (hm : 118489122 ||| M = M)
    (h : Within M s0 s) : Within M s0 (mediaOptic s p t) := by
  refine h.after hm ?_
  clear h hm
  unfold mediaOptic
  try dsimp only
  repeat' first
    | with_reducible exact Within.refl _ _
    | with_reducible assumption
    | with_reducible refine ctrGauge_within _ _ _ (by decide) ?_
    | with_reducible refine modMport_within _ _ _ (by decide) ?_
    | with_reducible refine modPwr_within _ _ (by decide) (by first | with_reducible rfl | simp [capStep, ctrSet, modPwr]) (by first | exact .inr rfl | (right; dsimp only; done) | (right; rfl) | exact .inl (by decide)) ?_
    | with_reducible refine mportDown_within _ _ (by decide) ?_
    | with_reducible refine raise_within _ _ _ _ _ _ (by decide) ?_
    | with_reducible refine Within.ite ?_ ?_
    | split
    | with_reducible intro _
    | with_reducible dsimp only

theorem opticalTempSample_within {M : Nat} {s0 : State} (links : List Int) (media : List Int) (s : State) (hm : 118513706 ||| M = M)
    (h : Within M s0 s) : Within M s0 (opticalTempSample links media s) := by
  refine h.after hm ?_
  clear h hm
  unfold opticalTempSample
  try dsimp only
  repeat' first
    | with_reducible exact Within.refl _ _
    | with_reducible assumption
    | with_reducible refine each_within _ _ _ (by decide) ?_ ?_
    | with_reducible refine mediaOptic_within _ _ _ (by decide) ?_
    | with_reducible refine linkOptic_within _ _ _ (by decide) ?_
    | with_reducible refine Within.ite ?_ ?_
    | split
    | with_reducible intro _
    | with_reducible dsimp only

theorem refclkLStop_within {M : Nat} {s0 : State} (s : State) (hm : 117465130 ||| M = M)
    (h : Within M s0 s) : Within M s0 (refclkLStop s) := by
  refine h.after hm ?_
  clear h hm
  unfold refclkLStop
  try dsimp only
  repeat' first
    | with_reducible exact Within.refl _ _
    | with_reducible assumption
    | with_reducible refine each_within _ _ _ (by decide) ?_ ?_
    | with_reducible refine linkRetrain_within _ _ (by decide) ?_
    | with_reducible intro _
    | with_reducible dsimp only

theorem refclkMStop_within {M : Nat} {s0 : State} (s : State) (hm : 118489122 ||| M = M)
    (h : Within M s0 s) : Within M s0 (refclkMStop s) := by
  refine h.after hm ?_
  clear h hm
  unfold refclkMStop
  try dsimp only
  repeat' first
    | with_reducible exact Within.refl _ _
    | with_reducible assumption
    | with_reducible refine each_within _ _ _ (by decide) ?_ ?_
    | with_reducible refine ptpLost_within _ _ (by decide) ?_
    | with_reducible refine mportDown_within _ _ (by decide) ?_
    | with_reducible intro _
    | with_reducible dsimp only

end Sys2Proof.Machine
end

