-- ==== Sys2Proof/Laws/Boot.lean ====
section
/-! SUPPORT. What each operation of Machine/Boot.lean may change: see Laws/Within.lean. -/

namespace Sys2Proof.Machine

theorem imageBad_within {M : Nat} {s0 : State} (b : Bool) (s : State) (hm : 117440546 ||| M = M)
    (h : Within M s0 s) : Within M s0 (imageBad b s) := by
  refine h.after hm ?_
  clear h hm
  unfold imageBad
  try dsimp only
  repeat' first
    | with_reducible exact Within.refl _ _
    | with_reducible assumption
    | with_reducible refine raise_within _ _ _ _ _ _ (by decide) ?_
    | with_reducible refine Within.ite ?_ ?_
    | split
    | with_reducible intro _
    | with_reducible dsimp only

theorem pickImage_within {M : Nat} {s0 : State} (s : State) (hm : 117440546 ||| M = M)
    (h : Within M s0 s) : Within M s0 (pickImage s).2 := by
  refine h.after hm ?_
  clear h hm
  unfold pickImage
  try dsimp only
  repeat' first
    | with_reducible exact Within.refl _ _
    | with_reducible assumption
    | with_reducible refine imageBad_within _ _ (by decide) ?_
    | with_reducible refine Within.ofSnd (by assumption) ?_
    | split
    | with_reducible intro _
    | with_reducible dsimp only

theorem bootNone_within {M : Nat} {s0 : State} (s : State) (hm : 123732002 ||| M = M)
    (h : Within M s0 s) : Within M s0 (bootNone s) := by
  refine h.after hm ?_
  clear h hm
  unfold bootNone
  try dsimp only
  repeat' first
    | with_reducible exact Within.refl _ _
    | with_reducible assumption
    | with_reducible refine modHif_within _ _ (by decide) ?_
    | with_reducible refine modBoot_within _ _ (by decide) (by first | exact ⟨id, Nat.le_refl _, rfl, fun _ h => h⟩) (by first | exact .inr rfl | (right; rfl)) ?_
    | with_reducible refine raise_within _ _ _ _ _ _ (by decide) ?_
    | with_reducible intro _
    | with_reducible dsimp only

theorem domBoot_within {M : Nat} {s0 : State} (s : State) (d : Nat) (hm : 9663676448 ||| M = M)
    (h : Within M s0 s) : Within M s0 (domBoot s d) := by
  refine h.after hm ?_
  clear h hm
  unfold domBoot
  try dsimp only
  repeat' first
    | with_reducible exact Within.refl _ _
    | with_reducible assumption
    | with_reducible refine modDom_within _ _ _ (by decide) (by first | exact .inr (fun _ => rfl) | exact .inl (by decide) | (right; intro x; dsimp only; split <;> rfl)) (by first | exact .inr (fun _ => rfl) | exact .inl (by decide) | (right; intro x; dsimp only; split <;> rfl)) ?_
    | with_reducible intro _
    | with_reducible dsimp only

theorem bootImage_within {M : Nat} {s0 : State} (b : Bool) (c : ImageCfg) (s : State) (hm : 9683599400 ||| M = M)
    (h : Within M s0 s) : Within M s0 (bootImage b c s) := by
  refine h.after hm ?_
  clear h hm
  unfold bootImage
  try dsimp only
  repeat' first
    | with_reducible exact Within.refl _ _
    | with_reducible assumption
    | with_reducible refine modBoot_within _ _ (by decide) (by first | exact ⟨id, Nat.le_refl _, rfl, fun _ h => h⟩) (by first | exact .inr rfl | (right; rfl)) ?_
    | with_reducible refine each_within _ _ _ (by decide) ?_ ?_
    | with_reducible refine domBoot_within _ _ (by decide) ?_
    | with_reducible refine emit_within _ _ (by decide) ?_
    | with_reducible refine setClocks_within _ (by decide) ?_
    | with_reducible refine modMport_within _ _ _ (by decide) ?_
    | with_reducible intro _
    | with_reducible dsimp only

theorem bootRun_within {M : Nat} {s0 : State} (s : State) (hm : 9788457002 ||| M = M)
    (h : Within M s0 s) : Within M s0 (bootRun s) := by
  refine h.after hm ?_
  clear h hm
  unfold bootRun
  try dsimp only
  repeat' first
    | with_reducible exact Within.refl _ _
    | with_reducible assumption
    | with_reducible refine modHif_within _ _ (by decide) ?_
    | with_reducible refine modBoot_within _ _ (by decide) (by first | exact ⟨id, Nat.le_refl _, rfl, fun _ h => h⟩) (by first | exact .inr rfl | (right; rfl)) ?_
    | with_reducible refine pickImage_within _ (by decide) ?_
    | with_reducible refine bootImage_within _ _ _ (by decide) ?_
    | with_reducible refine bootNone_within _ (by decide) ?_
    | with_reducible refine Within.ofSnd (by assumption) ?_
    | split
    | with_reducible intro _
    | with_reducible dsimp only

theorem bootIfFree_within {M : Nat} {s0 : State} (s : State) (hm : 9788457002 ||| M = M)
    (h : Within M s0 s) : Within M s0 (bootIfFree s) := by
  refine h.after hm ?_
  clear h hm
  unfold bootIfFree
  try dsimp only
  repeat' first
    | with_reducible exact Within.refl _ _
    | with_reducible assumption
    | with_reducible refine bootRun_within _ (by decide) ?_
    | with_reducible refine Within.ite ?_ ?_
    | split
    | with_reducible intro _
    | with_reducible dsimp only

theorem bootCmd_within {M : Nat} {s0 : State} (untrainable : List Nat) (s : State) (hm : 9788457258 ||| M = M)
    (h : Within M s0 s) : Within M s0 (bootCmd untrainable s) := by
  refine h.after hm ?_
  clear h hm
  unfold bootCmd
  try dsimp only
  repeat' first
    | with_reducible exact Within.refl _ _
    | with_reducible assumption
    | with_reducible refine bootIfFree_within _ (by decide) ?_
    | with_reducible refine modBoot_within _ _ (by decide) (by first | exact ⟨id, Nat.le_refl _, rfl, fun _ h => h⟩) (by first | exact .inr rfl | (right; rfl)) ?_
    | with_reducible refine Within.ite ?_ ?_
    | refine Within.at_mem (by decide) (by first | (left; simp; done) | (right; simp; done) | exact .inl rfl | (left; simp [stacksInit, modBoot, memOff, unfail]; done)) (by first | with_reducible exact id | (intro hw; first | exact memWrs_wf _ _ hw | exact memWr_wf _ _ hw | exact memFilter_wf _ hw | exact memClear_wf _ _ hw | exact memFold_wf _ (fun _ _ hm => memWr_wf _ _ hm) _ hw | exact memFold_wf _ (fun _ _ hm => memWrs_wf _ _ hm) _ hw) | exact id | exact fun _ => rfl) (by first | with_reducible exact .inr rfl | exact .inl (by decide) | exact .inr rfl) ?_
    | split
    | with_reducible intro _
    | with_reducible dsimp only

theorem vaonRecover_within {M : Nat} {s0 : State} (s : State) (hm : 9788457002 ||| M = M)
    (h : Within M s0 s) : Within M s0 (vaonRecover s) := by
  refine h.after hm ?_
  clear h hm
  unfold vaonRecover
  try dsimp only
  repeat' first
    | with_reducible exact Within.refl _ _
    | with_reducible assumption
    | with_reducible refine bootIfFree_within _ (by decide) ?_
    | with_reducible refine modPwr_within _ _ (by decide) (by first | with_reducible rfl | simp [capStep, ctrSet, modPwr]) (by first | exact .inr rfl | (right; dsimp only; done) | (right; rfl) | exact .inl (by decide)) ?_
    | with_reducible refine Within.ite ?_ ?_
    | split
    | with_reducible intro _
    | with_reducible dsimp only

theorem sysclkReturn_within {M : Nat} {s0 : State} (s : State) (hm : 9788457002 ||| M = M)
    (h : Within M s0 s) : Within M s0 (sysclkReturn s) := by
  refine h.after hm ?_
  clear h hm
  unfold sysclkReturn
  try dsimp only
  repeat' first
    | with_reducible exact Within.refl _ _
    | with_reducible assumption
    | with_reducible refine bootIfFree_within _ (by decide) ?_
    | with_reducible refine modPwr_within _ _ (by decide) (by first | with_reducible rfl | simp [capStep, ctrSet, modPwr]) (by first | exact .inr rfl | (right; dsimp only; done) | (right; rfl) | exact .inl (by decide)) ?_
    | with_reducible refine Within.ite ?_ ?_
    | split
    | with_reducible intro _
    | with_reducible dsimp only

theorem repairIgnored_within {M : Nat} {s0 : State} (l : BitVec 32) (s : State) (hm : 117440546 ||| M = M)
    (h : Within M s0 s) : Within M s0 (repairIgnored l s) := by
  refine h.after hm ?_
  clear h hm
  unfold repairIgnored
  try dsimp only
  repeat' first
    | with_reducible exact Within.refl _ _
    | with_reducible assumption
    | with_reducible refine raise_within _ _ _ _ _ _ (by decide) ?_
    | with_reducible intro _
    | with_reducible dsimp only

theorem repairApply_within {M : Nat} {s0 : State} (s : State) (v : Word64) (hm : 119537954 ||| M = M)
    (h : Within M s0 s) : Within M s0 (repairApply s v) := by
  refine h.after hm ?_
  clear h hm
  unfold repairApply
  try dsimp only
  repeat' first
    | with_reducible exact Within.refl _ _
    | with_reducible assumption
    | with_reducible refine modBoot_within _ _ (by decide) (by first | exact ⟨id, Nat.le_refl _, rfl, fun _ h => h⟩) (by first | exact .inr rfl | (right; rfl)) ?_
    | with_reducible refine repairIgnored_within _ _ (by decide) ?_
    | with_reducible refine Within.ite ?_ ?_
    | with_reducible refine Within.ofSnd (by assumption) ?_
    | split
    | with_reducible refine Within.at_mem (by decide) (by first | (left; simp; done) | (right; simp; done) | exact .inl rfl) (by first | with_reducible exact id | (intro hw; first | exact memWrs_wf _ _ hw | exact memWr_wf _ _ hw | exact memFilter_wf _ hw | exact memClear_wf _ _ hw | exact memFold_wf _ (fun _ _ hm => memWr_wf _ _ hm) _ hw | exact memFold_wf _ (fun _ _ hm => memWrs_wf _ _ hm) _ hw) | exact id) (by first | with_reducible exact .inr rfl | exact .inl (by decide) | exact .inr rfl) ?_
    | with_reducible intro _
    | with_reducible dsimp only

theorem trainFail_within {M : Nat} {s0 : State} (s : State) (ch : Nat) (hm : 2673831842 ||| M = M)
    (h : Within M s0 s) : Within M s0 (trainFail s ch) := by
  refine h.after hm ?_
  clear h hm
  unfold trainFail
  try dsimp only
  repeat' first
    | with_reducible exact Within.refl _ _
    | with_reducible assumption
    | with_reducible refine channelFail_within _ _ (by decide) ?_
    | with_reducible intro _
    | with_reducible dsimp only

theorem bootSeal_within {M : Nat} {s0 : State} (s : State) (hm : 39845888 ||| M = M)
    (h : Within M s0 s) : Within M s0 (bootSeal s) := by
  refine h.after hm ?_
  clear h hm
  unfold bootSeal
  try dsimp only
  repeat' first
    | with_reducible exact Within.refl _ _
    | with_reducible assumption
    | with_reducible refine modHif_within _ _ (by decide) ?_
    | with_reducible refine modBoot_within _ _ (by decide) (by first | exact ⟨id, Nat.le_refl _, rfl, fun _ h => h⟩) (by first | exact .inr rfl | (right; rfl)) ?_
    | with_reducible refine modObs_within _ _ (by decide) ?_
    | with_reducible intro _
    | with_reducible dsimp only

theorem unfail_length (m : MemSt) : (unfail m).stks.length = m.stks.length := List.length_map _

theorem bootTrain_within {M : Nat} {s0 : State} (s : State) (hm : 2675928994 ||| M = M)
    (h : Within M s0 s) : Within M s0 (bootTrain s) := by
  refine h.after hm ?_
  clear h hm
  unfold bootTrain
  try dsimp only
  repeat' first
    | with_reducible exact Within.refl _ _
    | with_reducible assumption
    | with_reducible refine modBoot_within _ _ (by decide) (by first | exact ⟨id, Nat.le_refl _, rfl, fun _ h => h⟩) (by first | exact .inr rfl | (right; rfl)) ?_
    | with_reducible refine bootSeal_within _ (by decide) ?_
    | with_reducible refine each_within _ _ _ (by decide) ?_ ?_
    | with_reducible refine trainFail_within _ _ (by decide) ?_
    | with_reducible refine Within.ite ?_ ?_
    | refine Within.at_mem (by decide) (by first | (left; simp; done) | (right; simp; done) | exact .inl rfl | (left; simp [stacksInit, modBoot, memOff, unfail]; done)) (by first | with_reducible exact id | (intro hw; first | exact memWrs_wf _ _ hw | exact memWr_wf _ _ hw | exact memFilter_wf _ hw | exact memClear_wf _ _ hw | exact memFold_wf _ (fun _ _ hm => memWr_wf _ _ hm) _ hw | exact memFold_wf _ (fun _ _ hm => memWrs_wf _ _ hm) _ hw) | exact id | exact fun _ => rfl) (by first | with_reducible exact .inr rfl | exact .inl (by decide) | exact .inr rfl) ?_
    | split
    | with_reducible intro _
    | with_reducible dsimp only

theorem repairTimeout_within {M : Nat} {s0 : State} (s : State) (hm : 2675928994 ||| M = M)
    (h : Within M s0 s) : Within M s0 (repairTimeout s) := by
  refine h.after hm ?_
  clear h hm
  unfold repairTimeout
  try dsimp only
  repeat' first
    | with_reducible exact Within.refl _ _
    | with_reducible assumption
    | with_reducible refine bootTrain_within _ (by decide) ?_
    | with_reducible refine raise_within _ _ _ _ _ _ (by decide) ?_
    | with_reducible refine Within.ite ?_ ?_
    | split
    | with_reducible intro _
    | with_reducible dsimp only

theorem exitFail_within {M : Nat} {s0 : State} (cause : Cause) (s : State) (hm : 117440546 ||| M = M)
    (h : Within M s0 s) : Within M s0 (exitFail cause s) := by
  refine h.after hm ?_
  clear h hm
  unfold exitFail
  try dsimp only
  repeat' first
    | with_reducible exact Within.refl _ _
    | with_reducible assumption
    | with_reducible refine modPwr_within _ _ (by decide) (by first | with_reducible rfl | simp [capStep, ctrSet, modPwr]) (by first | exact .inr rfl | (right; dsimp only; done) | (right; rfl) | exact .inl (by decide)) ?_
    | with_reducible refine raise_within _ _ _ _ _ _ (by decide) ?_
    | with_reducible refine Within.ite ?_ ?_
    | split
    | with_reducible intro _
    | with_reducible dsimp only

theorem exitCause_within {M : Nat} {s0 : State} (mem : Bool) (num : Nat) (s : State) (hm : 16777216 ||| M = M)
    (h : Within M s0 s) : Within M s0 (exitCause mem num s) := by
  refine h.after hm ?_
  clear h hm
  unfold exitCause
  try dsimp only
  repeat' first
    | with_reducible exact Within.refl _ _
    | with_reducible assumption
    | with_reducible refine modPwr_within _ _ (by decide) (by first | with_reducible rfl | simp [capStep, ctrSet, modPwr]) (by first | exact .inr rfl | (right; dsimp only; done) | (right; rfl) | exact .inl (by decide)) ?_
    | with_reducible intro _
    | with_reducible dsimp only

theorem exitSlot_within {M : Nat} {s0 : State} (s : State) (n : Nat) (hm : 251663842 ||| M = M)
    (h : Within M s0 s) : Within M s0 (exitSlot s n) := by
  refine h.after hm ?_
  clear h hm
  unfold exitSlot
  try dsimp only
  repeat' first
    | with_reducible exact Within.refl _ _
    | with_reducible assumption
    | with_reducible refine discardWork_within _ _ _ (by decide) ?_
    | with_reducible refine modSeq_within _ _ _ (by decide) ?_
    | with_reducible refine Within.ite ?_ ?_
    | split
    | with_reducible intro _
    | with_reducible dsimp only

theorem exitCtx_within {M : Nat} {s0 : State} (lost : List (Nat × DmaCmd)) (s : State) (i : Nat) (hm : 251925994 ||| M = M)
    (h : Within M s0 s) : Within M s0 (exitCtx lost s i) := by
  refine h.after hm ?_
  clear h hm
  unfold exitCtx
  try dsimp only
  repeat' first
    | with_reducible exact Within.refl _ _
    | with_reducible assumption
    | with_reducible refine each_within _ _ _ (by decide) ?_ ?_
    | with_reducible refine complete_within _ _ _ _ (by decide) ?_
    | with_reducible refine modCtx_within _ _ _ (by decide) ?_
    | with_reducible refine raise_within _ _ _ _ _ _ (by decide) ?_
    | with_reducible refine Within.ite ?_ ?_
    | split
    | with_reducible intro _
    | with_reducible dsimp only

theorem exitDone_within {M : Nat} {s0 : State} (s : State) (hm : 10996874730 ||| M = M)
    (h : Within M s0 s) : Within M s0 (exitDone s) := by
  refine h.after hm ?_
  clear h hm
  have e : Within 10996874730 s { s with
      mem := stacksRaw (stacksInit s.mem)
      cl := s.cl.map fun k => { k with powered := k.dom.isSome }
      eng := List.replicate 64 EngSt.reset
      wgt := List.replicate 16 ModelSt.reset
      dom := s.dom.map fun x => { x with lastRej := none, consOwn := false }
      self := { s.self with lastRej := none }
      snp := { s.snp with lastRej := none }
      hif := { s.hif with epPowered := true, stPowered := true, stAt := s.time, stKnown := false }
      pwr := { s.pwr with keepalive := false, coolSince := none, railSince := none } } := by
    apply Within.mk' (t := s) rfl (Within.refl _ _)
      <;> first | exact .inl (by decide) | exact .inr rfl | exact id | exact fun _ => rfl | exact ⟨Nat.le_refl _, rfl, fun _ h => h⟩ | (left; simp [stacksInit, stacksRaw, memOff, unfail]; done) | (left; simp; done) | (right; simp; done)
  unfold exitDone
  try dsimp only
  repeat' first
    | with_reducible exact Within.refl _ _
    | with_reducible assumption
    | with_reducible refine modBoot_within _ _ (by decide) (by first | exact ⟨id, Nat.le_refl _, rfl, fun _ h => h⟩) (by first | exact .inr rfl | (right; rfl)) ?_
    | with_reducible refine bootSeal_within _ (by decide) ?_
    | with_reducible refine each_within _ _ _ (by decide) ?_ ?_
    | with_reducible refine modMport_within _ _ _ (by decide) ?_
    | with_reducible refine setClocks_within _ (by decide) ?_
    | with_reducible refine raise_within _ _ _ _ _ _ (by decide) ?_
    | with_reducible refine trainAll_within _ (by decide) ?_
    | with_reducible refine exitCtx_within _ _ _ (by decide) ?_
    | with_reducible refine exitSlot_within _ _ (by decide) ?_
    | with_reducible refine Within.ite ?_ ?_
    | split
    | with_reducible intro _
    | with_reducible dsimp only

theorem exitAttempt_within {M : Nat} {s0 : State} (untrainable : List Nat) (railsBad : Bool) (s : State) (hm : 11265900522 ||| M = M)
    (h : Within M s0 s) : Within M s0 (exitAttempt untrainable railsBad s) := by
  refine h.after hm ?_
  clear h hm
  unfold exitAttempt
  try dsimp only
  repeat' first
    | with_reducible exact Within.refl _ _
    | with_reducible assumption
    | with_reducible refine exitFail_within _ _ (by decide) ?_
    | with_reducible refine raise_within _ _ _ _ _ _ (by decide) ?_
    | with_reducible refine exitCause_within _ _ _ (by decide) ?_
    | with_reducible refine drew_within _ (by decide) ?_
    | with_reducible refine each_within _ _ _ (by decide) ?_ ?_
    | with_reducible refine trainFail_within _ _ (by decide) ?_
    | with_reducible refine exitDone_within _ (by decide) ?_
    | with_reducible refine Within.ite ?_ ?_
    | refine Within.at_mem (by decide) (by first | (left; simp; done) | (right; simp; done) | exact .inl rfl | (left; simp [stacksInit, modBoot, memOff, unfail]; done)) (by first | with_reducible exact id | (intro hw; first | exact memWrs_wf _ _ hw | exact memWr_wf _ _ hw | exact memFilter_wf _ hw | exact memClear_wf _ _ hw | exact memFold_wf _ (fun _ _ hm => memWr_wf _ _ hm) _ hw | exact memFold_wf _ (fun _ _ hm => memWrs_wf _ _ hm) _ hw) | exact id | exact fun _ => rfl) (by first | with_reducible exact .inr rfl | exact .inl (by decide) | exact .inr rfl) ?_
    | split
    | with_reducible intro _
    | with_reducible dsimp only

end Sys2Proof.Machine
end

