-- ==== Sys2Proof/Laws/Collect.lean ====
section
/-! SUPPORT. What each operation of Machine/Collect.lean may change: see Laws/Within.lean. -/

namespace Sys2Proof.Machine

theorem colRead_within {M : Nat} {s0 : State} (t0 : Bool) (cl : Nat) (q : Nat) (base : Nat) (n : Nat) (s : State) (hm : 251660066 ||| M = M)
    (h : Within M s0 s) : Within M s0 (colRead t0 cl q base n s).2 := by
  refine h.after hm ?_
  clear h hm
  unfold colRead
  try dsimp only
  repeat' first
    | with_reducible exact Within.refl _ _
    | with_reducible refine csSettle_within _ _ _ (by decide) ?_
    | with_reducible refine drew_within _ (by decide) ?_
    | with_reducible refine translate_within _ _ _ _ _ (by decide) ?_
    | with_reducible refine readPA_within _ _ _ _ (by decide) ?_
    | with_reducible refine devFail_within _ _ _ (by decide) ?_
    | with_reducible refine Within.foldlSnd _ ?_ _ ?_
    | with_reducible refine Within.iteSnd ?_ ?_
    | split
    | with_reducible intro _

theorem colWrite_within {M : Nat} {s0 : State} (t0 : Bool) (cl : Nat) (q : Nat) (base : Nat) (bs : List Byte) (s : State) (hm : 520095522 ||| M = M)
    (h : Within M s0 s) : Within M s0 (colWrite t0 cl q base bs s) := by
  refine h.after hm ?_
  clear h hm
  unfold colWrite
  try dsimp only
  repeat' first
    | with_reducible exact Within.refl _ _
    | with_reducible refine csWrite_within _ _ _ _ (by decide) ?_
    | with_reducible refine each_within _ _ _ (by decide) ?_ ?_
    | with_reducible refine translate_within _ _ _ _ _ (by decide) ?_
    | with_reducible refine writePA_within _ _ _ (by decide) ?_
    | with_reducible refine devFail_within _ _ _ (by decide) ?_
    | with_reducible refine Within.ite ?_ ?_
    | split
    | with_reducible intro _

theorem colPoison_within {M : Nat} {s0 : State} (t0 : Bool) (cl : Nat) (q : Nat) (a : Nat) (s : State) (hm : 251660066 ||| M = M)
    (h : Within M s0 s) : Within M s0 (colPoison t0 cl q a s) := by
  refine h.after hm ?_
  clear h hm
  unfold colPoison
  try dsimp only
  repeat' first
    | with_reducible exact Within.refl _ _
    | with_reducible refine csPoisonAt_within _ _ _ (by decide) ?_
    | with_reducible refine translate_within _ _ _ _ _ (by decide) ?_
    | with_reducible refine writePoison_within _ _ (by decide) ?_
    | with_reducible refine devFail_within _ _ _ (by decide) ?_
    | with_reducible refine Within.ite ?_ ?_
    | split

theorem ColDesc.readSrc_within {M : Nat} {s0 : State} (d : ColDesc) (a : Nat) (n : Nat) (s : State) (hm : 251660066 ||| M = M)
    (h : Within M s0 s) : Within M s0 (ColDesc.readSrc d a n s).2 := by
  refine h.after hm ?_
  clear h hm
  unfold ColDesc.readSrc
  try dsimp only
  repeat' first
    | with_reducible exact Within.refl _ _
    | with_reducible refine colRead_within _ _ _ _ _ _ (by decide) ?_

theorem ColDesc.readDst_within {M : Nat} {s0 : State} (d : ColDesc) (a : Nat) (n : Nat) (s : State) (hm : 251660066 ||| M = M)
    (h : Within M s0 s) : Within M s0 (ColDesc.readDst d a n s).2 := by
  refine h.after hm ?_
  clear h hm
  unfold ColDesc.readDst
  try dsimp only
  repeat' first
    | with_reducible exact Within.refl _ _
    | with_reducible refine colRead_within _ _ _ _ _ _ (by decide) ?_

theorem ColDesc.write_within {M : Nat} {s0 : State} (d : ColDesc) (a : Nat) (bs : List Byte) (s : State) (hm : 520095522 ||| M = M)
    (h : Within M s0 s) : Within M s0 (ColDesc.write d a bs s) := by
  refine h.after hm ?_
  clear h hm
  unfold ColDesc.write
  try dsimp only
  repeat' first
    | with_reducible exact Within.refl _ _
    | with_reducible refine colWrite_within _ _ _ _ _ _ (by decide) ?_

theorem ColDesc.poison_within {M : Nat} {s0 : State} (d : ColDesc) (a : Nat) (n : Nat) (s : State) (hm : 251660066 ||| M = M)
    (h : Within M s0 s) : Within M s0 (ColDesc.poison d a n s) := by
  refine h.after hm ?_
  clear h hm
  unfold ColDesc.poison
  try dsimp only
  repeat' first
    | with_reducible exact Within.refl _ _
    | with_reducible refine each_within _ _ _ (by decide) ?_ ?_
    | with_reducible refine colPoison_within _ _ _ _ _ (by decide) ?_
    | with_reducible intro _

theorem wireOf_within {M : Nat} {s0 : State} (d : ColDesc) (r : Nat) (s : State) (hm : 251660066 ||| M = M)
    (h : Within M s0 s) : Within M s0 (wireOf d r s).2 := by
  refine h.after hm ?_
  clear h hm
  unfold wireOf
  try dsimp only
  repeat' first
    | with_reducible exact Within.refl _ _
    | with_reducible refine ColDesc.readSrc_within _ _ _ _ (by decide) ?_
    | with_reducible refine Within.iteSnd ?_ ?_

theorem rowStream_within {M : Nat} {s0 : State} (d : ColDesc) (rows : List Nat) (s : State) (hm : 251660066 ||| M = M)
    (h : Within M s0 s) : Within M s0 (rowStream d rows s).2 := by
  refine h.after hm ?_
  clear h hm
  unfold rowStream
  try dsimp only
  repeat' first
    | with_reducible exact Within.refl _ _
    | with_reducible refine wireOf_within _ _ _ (by decide) ?_
    | with_reducible refine Within.foldlSnd _ ?_ _ ?_
    | with_reducible intro _

theorem ColDesc.writeReduced_within {M : Nat} {s0 : State} (d : ColDesc) (r : Nat) (o : Nat) (bs : List Byte) (s : State) (hm : 520095522 ||| M = M)
    (h : Within M s0 s) : Within M s0 (ColDesc.writeReduced d r o bs s) := by
  refine h.after hm ?_
  clear h hm
  unfold ColDesc.writeReduced
  try dsimp only
  repeat' first
    | with_reducible exact Within.refl _ _
    | with_reducible refine ColDesc.write_within _ _ _ _ (by decide) ?_
    | with_reducible refine Within.ite ?_ ?_

theorem readRoutes_within {M : Nat} {s0 : State} (d : ColDesc) (s : State) (hm : 251660066 ||| M = M)
    (h : Within M s0 s) : Within M s0 (readRoutes d s).2 := by
  refine h.after hm ?_
  clear h hm
  unfold readRoutes
  try dsimp only
  repeat' first
    | with_reducible exact Within.refl _ _
    | with_reducible refine ColDesc.readSrc_within _ _ _ _ (by decide) ?_

theorem dispatchRows_within {M : Nat} {s0 : State} (d : ColDesc) (emap : List Byte) (home : Nat) (routes : List Route) (s : State) (hm : 251660066 ||| M = M)
    (h : Within M s0 s) : Within M s0 (dispatchRows d emap home routes s).2 := by
  refine h.after hm ?_
  clear h hm
  unfold dispatchRows
  try dsimp only
  repeat' first
    | with_reducible exact Within.refl _ _
    | with_reducible refine ColDesc.readSrc_within _ _ _ _ (by decide) ?_
    | with_reducible refine Within.foldlSnd _ ?_ _ ?_
    | with_reducible refine Within.iteSnd ?_ ?_
    | with_reducible intro _

theorem combineRows_within {M : Nat} {s0 : State} (d : ColDesc) (home : Nat) (s : State) (hm : 251660066 ||| M = M)
    (h : Within M s0 s) : Within M s0 (combineRows d home s).2 := by
  refine h.after hm ?_
  clear h hm
  unfold combineRows
  try dsimp only
  repeat' first
    | with_reducible exact Within.refl _ _
    | with_reducible refine ColDesc.readDst_within _ _ _ _ (by decide) ?_
    | with_reducible refine ColDesc.readSrc_within _ _ _ _ (by decide) ?_
    | with_reducible refine Within.foldlSnd _ ?_ _ ?_
    | with_reducible refine Within.iteSnd ?_ ?_
    | with_reducible intro _

end Sys2Proof.Machine
end

