-- ==== Sys2Proof/Laws/Kv.lean ====
section
/-! SUPPORT. What each operation of Machine/Kv.lean may change: see Laws/Within.lean. -/

namespace Sys2Proof.Machine

theorem kvBlock_within {M : Nat} {s0 : State} (m : SrcMode) (p : Plane) (b : Nat) (x : Xfer) (hm : 251659554 ||| M = M)
    (h : Within M s0 x.s) : Within M s0 (kvBlock m p b x).2.s := by
  refine h.after hm ?_
  clear h hm
  unfold kvBlock
  try dsimp only
  repeat' first
    | with_reducible exact Within.refl _ _
    | with_reducible refine srcBytes_within _ _ _ _ (by decide) ?_
    | split

theorem rowBytes_within {M : Nat} {s0 : State} (m : SrcMode) (p : Plane) (k : KvDesc) (lin : Nat → Nat) (o : Nat) (n : Nat) (x : Xfer) (hm : 251659554 ||| M = M)
    (h : Within M s0 x.s) : Within M s0 (rowBytes m p k lin o n x).2.s := by
  refine h.after hm ?_
  clear h hm
  unfold rowBytes
  try dsimp only
  repeat' first
    | with_reducible exact Within.refl _ _
    | with_reducible refine kvBlock_within _ _ _ _ (by decide) ?_
    | with_reducible refine Within.foldlBy (fun p : _ × Xfer => p.2.s) _ ?_ _ ?_
    | split
    | with_reducible intro _

theorem kvBad_within {M : Nat} {s0 : State} (e : Nat) (k : KvDesc) (n : Nat) (s : State) (hm : 117440610 ||| M = M)
    (h : Within M s0 s) : Within M s0 (kvBad e k n s) := by
  refine h.after hm ?_
  clear h hm
  unfold kvBad
  try dsimp only
  repeat' first
    | with_reducible exact Within.refl _ _
    | with_reducible refine each_within _ _ _ (by decide) ?_ ?_
    | with_reducible refine raise_within _ _ _ _ _ _ (by decide) ?_
    | with_reducible refine modSeq_within _ _ _ (by decide) ?_
    | with_reducible refine Within.ite ?_ ?_
    | with_reducible intro _

theorem getPay_within {M : Nat} {s0 : State} (e : Nat) (d : RingDesc) (p : Plane) (k : KvDesc) (r : Nat) (o : Nat) (a : Nat) (n : Nat) (x : Xfer) (hm : 520095586 ||| M = M)
    (h : Within M s0 x.s) : Within M s0 (getPay e d p k r o a n x).2.s := by
  refine h.after hm ?_
  clear h hm
  unfold getPay
  try dsimp only
  repeat' first
    | with_reducible exact Within.refl _ _
    | with_reducible refine rowBytes_within _ _ _ _ _ _ _ (by decide) ?_
    | with_reducible refine kvBad_within _ _ _ _ (by decide) ?_
    | with_reducible refine each_within _ _ _ (by decide) ?_ ?_
    | with_reducible refine raise_within _ _ _ _ _ _ (by decide) ?_
    | with_reducible refine csWrite_within _ _ _ _ (by decide) ?_
    | split
    | with_reducible intro _

theorem getScale_within {M : Nat} {s0 : State} (e : Nat) (d : RingDesc) (p : Plane) (k : KvDesc) (r : Nat) (o : Nat) (a : Nat) (n : Nat) (x : Xfer) (hm : 520095586 ||| M = M)
    (h : Within M s0 x.s) : Within M s0 (getScale e d p k r o a n x).2.s := by
  refine h.after hm ?_
  clear h hm
  unfold getScale
  try dsimp only
  repeat' first
    | with_reducible exact Within.refl _ _
    | with_reducible refine kvBlock_within _ _ _ _ (by decide) ?_
    | with_reducible refine kvBad_within _ _ _ _ (by decide) ?_
    | with_reducible refine csWrite_within _ _ _ _ (by decide) ?_
    | with_reducible refine Within.foldlBy (fun p : _ × Xfer => p.2.s) _ ?_ _ ?_
    | split
    | with_reducible intro _

theorem runKv_within {M : Nat} {s0 : State} (e : Nat) (c : DmaCmd)
    (pieces : RingDesc → KvDesc → List (Nat × (Xfer → PieceEnd × Xfer))) (s : State) (hm : 251993578 ||| M = M)
    (hp : ∀ d k, ∀ p ∈ pieces d k, ∀ x, Within M x.s (p.2 x).2.s) (h : Within M s0 s) :
    Within M s0 (runKv e c pieces s) := by
  unfold runKv
  dsimp only
  have hr := readRing_within s (kvDesc c).seq (maskSub (b := 251993578) (by decide) hm) h
  split
  · exact complete_within _ _ _ _ (maskSub (b := 251993578) (by decide) hm) hr
  · exact settle_within _ _ (maskSub (b := 251993578) (by decide) hm)
      (runPieces_within _ _ _ _ (maskSub (b := 251993578) (by decide) hm) (hp _ _) hr)

theorem piecesOr {M : Nat} {l k : List (Nat × (Xfer → PieceEnd × Xfer))} (h : ∀ p ∈ l, ∀ x, Within M x.s (p.2 x).2.s)
    (h' : ∀ p ∈ k, ∀ x, Within M x.s (p.2 x).2.s) : ∀ p ∈ l ++ k, ∀ x, Within M x.s (p.2 x).2.s := by
  intro p hp
  rcases List.mem_append.mp hp with hp | hp
  · exact h p hp
  · exact h' p hp

theorem runKvget_within {M : Nat} {s0 : State} (e : Nat) (c : DmaCmd) (s : State) (hm : 520429546 ||| M = M)
    (h : Within M s0 s) : Within M s0 (runKvget e c s) := by
  refine h.after hm (runKv_within _ _ _ _ (by decide) (fun d k => ?_) (Within.refl _ _))
  have hpay := piecesMap (M := 520429546) (rowChunks k.base k.ld (kvShape d k).1 (kvShape d k).2.1) (fun _ => 1)
    (fun c => getPay e d (planeOf d k) k c.1 c.2.1 c.2.2.1 c.2.2.2)
    (fun c x => getPay_within _ _ _ _ _ _ _ _ _ (by decide) (Within.refl _ _))
  have hsc := piecesMap (M := 520429546) (rowChunks k.sbase k.sld (kvShape d k).1 (kvShape d k).2.2) (fun _ => 1)
    (fun c => getScale e d (planeOf d k) k c.1 c.2.1 c.2.2.1 c.2.2.2)
    (fun c x => getScale_within _ _ _ _ _ _ _ _ _ (by decide) (Within.refl _ _))
  unfold getPieces
  dsimp only
  split
  · intro p hp; cases hp
  · split
    · exact piecesOr hsc hpay
    · exact piecesOr hpay hsc

theorem putPiece_within {M : Nat} {s0 : State} (k : KvDesc) (run : PutRun) (a : Nat) (n : Nat) (x : Xfer) (hm : 788530978 ||| M = M)
    (h : Within M s0 x.s) : Within M s0 (putPiece k run a n x).2.s := by
  refine h.after hm ?_
  clear h hm
  unfold putPiece
  try dsimp only
  repeat' first
    | with_reducible exact Within.refl _ _
    | with_reducible refine each_within _ _ _ (by decide) ?_ ?_
    | with_reducible refine csSettle_within _ _ _ (by decide) ?_
    | with_reducible refine translate_within _ _ _ _ _ (by decide) ?_
    | with_reducible refine placePut_within _ _ _ _ (by decide) ?_
    | split
    | with_reducible intro _

theorem putSummary_within {M : Nat} {s0 : State} (d : RingDesc) (k : KvDesc) (x : Xfer) (hm : 251659554 ||| M = M)
    (h : Within M s0 x.s) : Within M s0 (putSummary d k x).2.s := by
  refine h.after hm ?_
  clear h hm
  unfold putSummary
  try dsimp only
  repeat' first
    | with_reducible exact Within.refl _ _
    | with_reducible refine translate_within _ _ _ _ _ (by decide) ?_
    | with_reducible refine readPA_within _ _ _ _ (by decide) ?_
    | with_reducible refine writePA_within _ _ _ (by decide) ?_
    | split

theorem runKvput_within {M : Nat} {s0 : State} (e : Nat) (c : DmaCmd) (s : State) (hm : 788865002 ||| M = M)
    (h : Within M s0 s) : Within M s0 (runKvput e c s) := by
  refine h.after hm (runKv_within _ _ _ _ (by decide) (fun d k => ?_) (Within.refl _ _))
  unfold putPieces
  split
  · intro p hp; cases hp
  · refine piecesOr (piecesFlat _ _ fun r => piecesMap _ (fun _ => 1) _ fun c x =>
      putPiece_within _ _ _ _ _ (by decide) (Within.refl _ _)) ?_
    intro p hp x
    rw [List.mem_singleton] at hp
    subst hp
    exact putSummary_within _ _ _ (by decide) (Within.refl _ _)

end Sys2Proof.Machine
end

