-- ==== Sys2Proof/Laws/Loads.lean ====
section
/-! SUPPORT. What each operation of Machine/Loads.lean may change: see Laws/Within.lean. -/

namespace Sys2Proof.Machine

theorem loadJob_within {M : Nat} {s0 : State} (m : Nat) (gen : Nat) (y : Nat) (ye : Yealm) (s : State) (hm : 6 ||| M = M)
    (h : Within M s0 s) : Within M s0 (loadJob m gen y ye s).2 := by
  refine h.after hm ?_
  clear h hm
  unfold loadJob
  try dsimp only
  repeat' first
    | with_reducible exact Within.refl _ _
    | split
    | with_reducible refine Within.at_free_nextNum (by decide) (by decide)  ?_

theorem loadStopped_within {M : Nat} {s0 : State} (m : Nat) (j : LoadJob) (z : PieceEnd) (x : Xfer) (hm : 251663658 ||| M = M)
    (h : Within M s0 x.s) : Within M s0 (loadStopped m j z x).2 := by
  refine h.after hm ?_
  clear h hm
  unfold loadStopped
  try dsimp only
  repeat' first
    | with_reducible exact Within.refl _ _
    | with_reducible refine faultRetry_within _ _ (by decide) ?_
    | with_reducible refine modWgt_within _ _ _ (by decide) ?_
    | with_reducible refine faultFatal_within _ _ (by decide) ?_
    | with_reducible refine raise_within _ _ _ _ _ _ (by decide) ?_
    | split

theorem loadHost_within {M : Nat} {s0 : State} (m : Nat) (gen : Nat) (y : Nat) (ye : Yealm) (s : State) (hm : 1056970542 ||| M = M)
    (h : Within M s0 s) : Within M s0 (loadHost m gen y ye s).2 := by
  refine h.after hm ?_
  clear h hm
  unfold loadHost
  try dsimp only
  repeat' first
    | with_reducible exact Within.refl _ _
    | with_reducible refine loadJob_within _ _ _ _ _ (by decide) ?_
    | with_reducible refine readContainer_within _ _ _ (by decide) ?_
    | with_reducible refine runPieces_within _ _ _ _ (by decide) ?_ ?_
    | with_reducible refine inPiece_within _ _ _ _ _ (by decide) ?_
    | with_reducible refine loadStopped_within _ _ _ _ (by decide) ?_
    | with_reducible refine piecesMap _ _ _ ?_
    | with_reducible refine Within.iteSnd ?_ ?_
    | split
    | with_reducible intro _

theorem loadYealm_within {M : Nat} {s0 : State} (m : Nat) (gen : Nat) (y : Nat) (ye : Yealm) (s : State) (hm : 1056970542 ||| M = M)
    (h : Within M s0 s) : Within M s0 (loadYealm m gen y ye s).2 := by
  refine h.after hm ?_
  clear h hm
  unfold loadYealm
  try dsimp only
  repeat' first
    | with_reducible exact Within.refl _ _
    | with_reducible refine loadHost_within _ _ _ _ _ (by decide) ?_
    | with_reducible refine putVa_within _ _ _ (by decide) ?_
    | split
    | with_reducible refine Within.at_free (by decide)  ?_

theorem loadFrom_within {M : Nat} {s0 : State} (m : Nat) (gen : Nat) (a1 : List Yealm) (a2 : Nat) (a3 : State) (hm : 1056970542 ||| M = M)
    (h : Within M s0 a3) : Within M s0 (loadFrom m gen a1 a2 a3).2 := by
  refine h.after hm ?_
  clear h hm
  induction a1 generalizing m gen a2 a3 with
  | nil =>
    unfold loadFrom
    try dsimp only
    repeat' first
      | with_reducible exact Within.refl _ _
  | cons x l ih =>
    unfold loadFrom
    try dsimp only
    repeat' first
      | with_reducible exact Within.refl _ _
      | with_reducible refine Within.trans ?_ (ih _ _ _ _)
      | with_reducible refine loadYealm_within _ _ _ _ _ (by decide) ?_
      | with_reducible refine dropLoad_within _ _ _ _ (by decide) ?_
      | with_reducible refine modWgt_within _ _ _ (by decide) ?_
      | split

theorem loadComplete_within {M : Nat} {s0 : State} (m : Nat) (failed : Bool) (s : State) (hm : 1056970542 ||| M = M)
    (h : Within M s0 s) : Within M s0 (loadComplete m failed s) := by
  refine h.after hm ?_
  clear h hm
  unfold loadComplete
  try dsimp only
  repeat' first
    | with_reducible exact Within.refl _ _
    | with_reducible refine buildFail_within _ _ _ (by decide) ?_
    | with_reducible refine loadFrom_within _ _ _ _ _ (by decide) ?_
    | with_reducible refine stage_within _ _ _ _ (by decide) ?_
    | with_reducible refine modWgt_within _ _ _ (by decide) ?_
    | with_reducible refine Within.ite ?_ ?_
    | split

theorem refetchDone_within {M : Nat} {s0 : State} (m : Nat) (y : Nat) (loaded : Bool) (s : State) (hm : 1056970542 ||| M = M)
    (h : Within M s0 s) : Within M s0 (refetchDone m y loaded s) := by
  refine h.after hm ?_
  clear h hm
  unfold refetchDone
  try dsimp only
  repeat' first
    | with_reducible exact Within.refl _ _
    | with_reducible refine refetchFail_within _ _ _ (by decide) ?_
    | with_reducible refine loadYealm_within _ _ _ _ _ (by decide) ?_
    | with_reducible refine crcOk_within _ _ _ _ (by decide) ?_
    | with_reducible refine refetchOk_within _ _ _ (by decide) ?_
    | with_reducible refine Within.ite ?_ ?_
    | split

theorem loadAborted_within {M : Nat} {s0 : State} (m : Nat) (gen : Nat) (y : Nat) (s : State) (hm : 251663650 ||| M = M)
    (h : Within M s0 s) : Within M s0 (loadAborted m gen y s) := by
  refine h.after hm ?_
  clear h hm
  unfold loadAborted
  try dsimp only
  repeat' first
    | with_reducible exact Within.refl _ _
    | with_reducible refine buildFail_within _ _ _ (by decide) ?_
    | with_reducible refine refetchFail_within _ _ _ (by decide) ?_
    | with_reducible refine Within.ite ?_ ?_

end Sys2Proof.Machine
end

