-- ==== Sys2Proof/Laws/Xlt.lean ====
section
/-! SUPPORT. What each operation of Machine/Xlt.lean may change: see Laws/Within.lean. -/

namespace Sys2Proof.Machine

theorem runCmd_within {M : Nat} {s0 : State} (e : Nat) (c : DmaCmd) (s : State) (hm : 1057849322 ||| M = M)
    (h : Within M s0 s) : Within M s0 (runCmd e c s) := by
  refine h.after hm ?_
  clear h hm
  unfold runCmd
  try dsimp only
  repeat' first
    | with_reducible exact Within.refl _ _
    | with_reducible refine runKvput_within _ _ _ (by decide) ?_
    | with_reducible refine runKvget_within _ _ _ (by decide) ?_
    | with_reducible refine runCopy_within _ _ _ (by decide) ?_
    | with_reducible refine runPack_within _ _ _ (by decide) ?_
    | with_reducible refine runUnpack_within _ _ _ (by decide) ?_
    | with_reducible refine runHostIn_within _ _ _ (by decide) ?_
    | with_reducible refine runHostOut_within _ _ _ (by decide) ?_
    | with_reducible refine runOpen_within _ _ _ (by decide) ?_
    | with_reducible refine runClose_within _ _ _ (by decide) ?_
    | with_reducible refine runPlay_within _ _ _ (by decide) ?_
    | with_reducible refine handPicture_within _ _ _ _ _ (by decide) ?_
    | split

theorem resumeCmd_within {M : Nat} {s0 : State} (e : Nat) (c : DmaCmd) (s : State) (hm : 1057849322 ||| M = M)
    (h : Within M s0 s) : Within M s0 (resumeCmd e c s) := by
  refine h.after hm ?_
  clear h hm
  unfold resumeCmd
  try dsimp only
  repeat' first
    | with_reducible exact Within.refl _ _
    | with_reducible refine modEng_within _ _ _ (by decide) ?_
    | with_reducible refine runCmd_within _ _ _ (by decide) ?_
    | with_reducible refine Within.ite ?_ ?_

theorem unpark_within {M : Nat} {s0 : State} (s : State) (e : Nat) (tag : BitVec 32) (hm : 2112 ||| M = M)
    (h : Within M s0 s) : Within M s0 (unpark s e tag) := by
  refine h.after hm ?_
  clear h hm
  unfold unpark
  try dsimp only
  repeat' first
    | with_reducible exact Within.refl _ _
    | with_reducible refine stallEnd_within _ _ _ (by decide) ?_
    | with_reducible refine modEng_within _ _ _ (by decide) ?_

theorem resumeRestore_within {M : Nat} {s0 : State} (slot : Nat) (num : Nat) (s : State) (hm : 251994090 ||| M = M)
    (h : Within M s0 s) : Within M s0 (resumeRestore slot num s) := by
  refine h.after hm ?_
  clear h hm
  unfold resumeRestore
  try dsimp only
  repeat' first
    | with_reducible exact Within.refl _ _
    | with_reducible refine beginItem_within _ _ _ (by decide) ?_
    | with_reducible refine Within.ite ?_ ?_

theorem faultRetried_within {M : Nat} {s0 : State} (f : FaultRec) (s : State) (hm : 1057849322 ||| M = M)
    (h : Within M s0 s) : Within M s0 (faultRetried f s) := by
  refine h.after hm ?_
  clear h hm
  unfold faultRetried
  try dsimp only
  repeat' first
    | with_reducible exact Within.refl _ _
    | with_reducible refine dropFault_within _ _ (by decide) ?_
    | with_reducible refine modAny_within _ _ _ _ _ (by decide) ?_
    | with_reducible refine resumeCmd_within _ _ _ (by decide) ?_
    | with_reducible refine unpark_within _ _ _ (by decide) ?_
    | with_reducible refine resumeRestore_within _ _ _ (by decide) ?_
    | with_reducible refine inject_within _ _ _ _ (by decide) ?_
    | split

theorem endThread_within {M : Nat} {s0 : State} (pc : Option Word64) (c : Nat) (t : Nat) (item : Nat) (block : Nat) (num : Nat) (place : Nat) (s : State) (hm : 251993578 ||| M = M)
    (h : Within M s0 s) : Within M s0 (endThread pc c t item block num place s) := by
  refine h.after hm ?_
  clear h hm
  unfold endThread
  try dsimp only
  repeat' first
    | with_reducible exact Within.refl _ _
    | with_reducible refine terminate_within _ _ _ _ _ (by decide) ?_
    | split

theorem abortParked_within {M : Nat} {s0 : State} (e : Nat) (tag : BitVec 32) (counts : Bool) (code : Nat) (place : Nat) (s : State) (hm : 251993578 ||| M = M)
    (h : Within M s0 s) : Within M s0 (abortParked e tag counts code place s) := by
  refine h.after hm ?_
  clear h hm
  unfold abortParked
  try dsimp only
  repeat' first
    | with_reducible exact Within.refl _ _
    | with_reducible refine endIssuer_within _ _ _ _ _ (by decide) ?_
    | with_reducible refine codAborted_within _ _ (by decide) ?_
    | with_reducible refine complete_within _ _ _ _ (by decide) ?_
    | with_reducible refine unpark_within _ _ _ (by decide) ?_
    | split

theorem faultAborted_within {M : Nat} {s0 : State} (code : Nat) (f : FaultRec) (s : State) (hm : 252018154 ||| M = M)
    (h : Within M s0 s) : Within M s0 (faultAborted code f s) := by
  refine h.after hm ?_
  clear h hm
  unfold faultAborted
  try dsimp only
  repeat' first
    | with_reducible exact Within.refl _ _
    | with_reducible refine raise_within _ _ _ _ _ _ (by decide) ?_
    | with_reducible refine dropFault_within _ _ (by decide) ?_
    | with_reducible refine endThread_within _ _ _ _ _ _ _ _ (by decide) ?_
    | with_reducible refine abortParked_within _ _ _ _ _ _ (by decide) ?_
    | with_reducible refine terminate_within _ _ _ _ _ (by decide) ?_
    | with_reducible refine loadAborted_within _ _ _ _ (by decide) ?_
    | with_reducible refine inject_within _ _ _ _ (by decide) ?_
    | split

theorem resolveRetry_within {M : Nat} {s0 : State} (tag : BitVec 32) (s : State) (hm : 1057849322 ||| M = M)
    (h : Within M s0 s) : Within M s0 (resolveRetry tag s) := by
  refine h.after hm ?_
  clear h hm
  unfold resolveRetry
  try dsimp only
  repeat' first
    | with_reducible exact Within.refl _ _
    | with_reducible refine faultRetried_within _ _ (by decide) ?_
    | with_reducible refine Within.optElim ?_ ?_
    | with_reducible intro _

theorem resolveAbort_within {M : Nat} {s0 : State} (tag : BitVec 32) (s : State) (hm : 252018154 ||| M = M)
    (h : Within M s0 s) : Within M s0 (resolveAbort tag s) := by
  refine h.after hm ?_
  clear h hm
  unfold resolveAbort
  try dsimp only
  repeat' first
    | with_reducible exact Within.refl _ _
    | with_reducible refine faultAborted_within _ _ _ (by decide) ?_
    | with_reducible refine Within.optElim ?_ ?_
    | with_reducible intro _

theorem faultTimeout_within {M : Nat} {s0 : State} (tag : BitVec 32) (s : State) (hm : 252018154 ||| M = M)
    (h : Within M s0 s) : Within M s0 (faultTimeout tag s) := by
  refine h.after hm ?_
  clear h hm
  unfold faultTimeout
  try dsimp only
  repeat' first
    | with_reducible exact Within.refl _ _
    | with_reducible refine faultAborted_within _ _ _ (by decide) ?_
    | with_reducible refine Within.ite ?_ ?_
    | split

theorem xltInval_within {M : Nat} {s0 : State} (v : Word64) (s : State) (hm : 1024 ||| M = M)
    (h : Within M s0 s) : Within M s0 (xltInval v s) := by
  refine h.after hm ?_
  clear h hm
  unfold xltInval
  try dsimp only
  repeat' first
    | with_reducible exact Within.refl _ _
    | with_reducible refine Within.at_xlt (by decide)  ?_

theorem invalComplete_within {M : Nat} {s0 : State} (s : State) (hm : 1024 ||| M = M)
    (h : Within M s0 s) : Within M s0 (invalComplete s) := by
  refine h.after hm ?_
  clear h hm
  unfold invalComplete
  try dsimp only
  repeat' first
    | with_reducible exact Within.refl _ _
    | split
    | with_reducible refine Within.at_xlt (by decide)  ?_

theorem peerPlaces_within {M : Nat} {s0 : State} (need : Need) (va : Nat) (n : Nat) (s : State) (hm : 251659554 ||| M = M)
    (h : Within M s0 s) : Within M s0 (peerPlaces need va n s).2 := by
  refine h.after hm ?_
  clear h hm
  unfold peerPlaces
  try dsimp only
  repeat' first
    | with_reducible exact Within.refl _ _
    | with_reducible refine translate_within _ _ _ _ _ (by decide) ?_
    | with_reducible refine Within.foldlSnd _ ?_ _ ?_
    | split
    | with_reducible intro _

theorem requestDo_within {M : Nat} {s0 : State} (op : MemOp) (data : List Byte) (l : List (Nat × Nat)) (s : State) (hm : 251658530 ||| M = M)
    (h : Within M s0 s) : Within M s0 (requestDo op data l s).2.2 := by
  refine h.after hm ?_
  clear h hm
  unfold requestDo
  try dsimp only
  repeat' first
    | with_reducible exact Within.refl _ _
    | with_reducible refine readPA_within _ _ _ _ (by decide) ?_
    | with_reducible refine writePA_within _ _ _ (by decide) ?_
    | with_reducible refine each_within _ _ _ (by decide) ?_ ?_
    | with_reducible refine writePoison_within _ _ (by decide) ?_
    | with_reducible refine atomPA_within _ _ _ (by decide) ?_
    | with_reducible refine Within.foldlSnd _ ?_ _ ?_
    | split
    | with_reducible intro _

theorem memRequest_within {M : Nat} {s0 : State} (src : BitVec 16) (req : BitVec 32) (op : MemOp) (va : Nat) (sectors : Nat) (data : List Byte) (s : State) (hm : 251684138 ||| M = M)
    (h : Within M s0 s) : Within M s0 (memRequest src req op va sectors data s) := by
  refine h.after hm ?_
  clear h hm
  unfold memRequest
  try dsimp only
  repeat' first
    | with_reducible exact Within.refl _ _
    | with_reducible refine inject_within _ _ _ _ (by decide) ?_
    | with_reducible refine peerPlaces_within _ _ _ _ (by decide) ?_
    | with_reducible refine requestDo_within _ _ _ _ (by decide) ?_
    | with_reducible refine faultRetry_within _ _ (by decide) ?_
    | with_reducible refine faultFatal_within _ _ (by decide) ?_
    | split

theorem dropT4_within {M : Nat} {s0 : State} (s : State) (req : BitVec 32) (hm : 1024 ||| M = M)
    (h : Within M s0 s) : Within M s0 (dropT4 s req) := by
  refine h.after hm ?_
  clear h hm
  unfold dropT4
  try dsimp only
  repeat' first
    | with_reducible exact Within.refl _ _
    | with_reducible refine Within.at_xlt (by decide)  ?_

theorem modT4_within {M : Nat} {s0 : State} (s : State) (req : BitVec 32) (f : T4Req → T4Req) (hm : 1024 ||| M = M)
    (h : Within M s0 s) : Within M s0 (modT4 s req f) := by
  refine h.after hm ?_
  clear h hm
  unfold modT4
  try dsimp only
  repeat' first
    | with_reducible exact Within.refl _ _
    | with_reducible refine Within.at_xlt (by decide)  ?_

theorem freeOwn_within {M : Nat} {s0 : State} (r : T4Req) (s : State) (hm : 1024 ||| M = M)
    (h : Within M s0 s) : Within M s0 (freeOwn r s) := by
  refine h.after hm ?_
  clear h hm
  unfold freeOwn
  try dsimp only
  repeat' first
    | with_reducible exact Within.refl _ _
    | with_reducible refine dropFault_within _ _ (by decide) ?_
    | with_reducible refine Within.optElim ?_ ?_
    | with_reducible intro _

theorem t4Data_within {M : Nat} {s0 : State} (r : T4Req) (bad : Bool) (data : List Byte) (s : State) (hm : 1057325034 ||| M = M)
    (h : Within M s0 s) : Within M s0 (t4Data r bad data s) := by
  refine h.after hm ?_
  clear h hm
  unfold t4Data
  try dsimp only
  repeat' first
    | with_reducible exact Within.refl _ _
    | with_reducible refine dropT4_within _ _ (by decide) ?_
    | with_reducible refine copyAnswered_within _ _ _ _ _ (by decide) ?_
    | with_reducible refine t4Settle_within _ _ _ _ (by decide) ?_
    | with_reducible refine modAny_within _ _ _ _ _ (by decide) ?_
    | with_reducible refine endThread_within _ _ _ _ _ _ _ _ (by decide) ?_
    | with_reducible refine drew_within _ (by decide) ?_
    | with_reducible refine Within.ite ?_ ?_
    | split

theorem t4Faulted_within {M : Nat} {s0 : State} (r : T4Req) (tag : BitVec 32) (s : State) (hm : 251993578 ||| M = M)
    (h : Within M s0 s) : Within M s0 (t4Faulted r tag s) := by
  refine h.after hm ?_
  clear h hm
  unfold t4Faulted
  try dsimp only
  repeat' first
    | with_reducible exact Within.refl _ _
    | with_reducible refine modT4_within _ _ _ (by decide) ?_
    | with_reducible refine drew_within _ (by decide) ?_
    | with_reducible refine dropT4_within _ _ (by decide) ?_
    | with_reducible refine modEng_within _ _ _ (by decide) ?_
    | with_reducible refine parkAt_within _ _ _ _ (by decide) ?_
    | with_reducible refine faultRetry_within _ _ (by decide) ?_
    | with_reducible refine modAny_within _ _ _ _ _ (by decide) ?_
    | with_reducible refine endThread_within _ _ _ _ _ _ _ _ (by decide) ?_
    | with_reducible refine Within.ite ?_ ?_
    | split

theorem t4Retry_within {M : Nat} {s0 : State} (r : T4Req) (s : State) (hm : 1057849322 ||| M = M)
    (h : Within M s0 s) : Within M s0 (t4Retry r s) := by
  refine h.after hm ?_
  clear h hm
  unfold t4Retry
  try dsimp only
  repeat' first
    | with_reducible exact Within.refl _ _
    | with_reducible refine dropT4_within _ _ (by decide) ?_
    | with_reducible refine freeOwn_within _ _ (by decide) ?_
    | with_reducible refine runCmd_within _ _ _ (by decide) ?_
    | with_reducible refine modEng_within _ _ _ (by decide) ?_
    | with_reducible refine resumeCmd_within _ _ _ (by decide) ?_
    | with_reducible refine unpark_within _ _ _ (by decide) ?_
    | with_reducible refine modT4_within _ _ _ (by decide) ?_
    | with_reducible refine inject_within _ _ _ _ (by decide) ?_
    | with_reducible refine Within.optElim ?_ ?_
    | split
    | with_reducible intro _

theorem t4Abort_within {M : Nat} {s0 : State} (code : Nat) (r : T4Req) (s : State) (hm : 251993578 ||| M = M)
    (h : Within M s0 s) : Within M s0 (t4Abort code r s) := by
  refine h.after hm ?_
  clear h hm
  unfold t4Abort
  try dsimp only
  repeat' first
    | with_reducible exact Within.refl _ _
    | with_reducible refine dropT4_within _ _ (by decide) ?_
    | with_reducible refine freeOwn_within _ _ (by decide) ?_
    | with_reducible refine stallEnd_within _ _ _ (by decide) ?_
    | with_reducible refine modEng_within _ _ _ (by decide) ?_
    | with_reducible refine endIssuer_within _ _ _ _ _ (by decide) ?_
    | with_reducible refine complete_within _ _ _ _ (by decide) ?_
    | with_reducible refine raise_within _ _ _ _ _ _ (by decide) ?_
    | with_reducible refine endThread_within _ _ _ _ _ _ _ _ (by decide) ?_
    | split

theorem memResponse_within {M : Nat} {s0 : State} (req : BitVec 32) (status : MemStatus) (data : List Byte) (s : State) (hm : 1057849322 ||| M = M)
    (h : Within M s0 s) : Within M s0 (memResponse req status data s) := by
  refine h.after hm ?_
  clear h hm
  unfold memResponse
  try dsimp only
  repeat' first
    | with_reducible exact Within.refl _ _
    | with_reducible refine t4Data_within _ _ _ _ (by decide) ?_
    | with_reducible refine t4Faulted_within _ _ _ (by decide) ?_
    | with_reducible refine t4Retry_within _ _ (by decide) ?_
    | with_reducible refine t4Abort_within _ _ _ (by decide) ?_
    | with_reducible refine Within.ite ?_ ?_
    | split

theorem memTimeout_within {M : Nat} {s0 : State} (req : BitVec 32) (s : State) (hm : 251993578 ||| M = M)
    (h : Within M s0 s) : Within M s0 (memTimeout req s) := by
  refine h.after hm ?_
  clear h hm
  unfold memTimeout
  try dsimp only
  repeat' first
    | with_reducible exact Within.refl _ _
    | with_reducible refine dropT4_within _ _ (by decide) ?_
    | with_reducible refine complete_within _ _ _ _ (by decide) ?_
    | with_reducible refine raise_within _ _ _ _ _ _ (by decide) ?_
    | with_reducible refine modEng_within _ _ _ (by decide) ?_
    | with_reducible refine endThread_within _ _ _ _ _ _ _ _ (by decide) ?_
    | with_reducible refine Within.ite ?_ ?_
    | split

theorem peerFaultTimeout_within {M : Nat} {s0 : State} (tag : BitVec 32) (s : State) (hm : 251993578 ||| M = M)
    (h : Within M s0 s) : Within M s0 (peerFaultTimeout tag s) := by
  refine h.after hm ?_
  clear h hm
  unfold peerFaultTimeout
  try dsimp only
  repeat' first
    | with_reducible exact Within.refl _ _
    | with_reducible refine t4Abort_within _ _ _ (by decide) ?_
    | with_reducible refine Within.ite ?_ ?_
    | split

end Sys2Proof.Machine
end

