-- ==== Sys2Proof/Laws/Collectives.lean ====
section
/-! SUPPORT. What each operation of Machine/Collectives.lean may change: see Laws/Within.lean. -/

namespace Sys2Proof.Machine

theorem modColl_within {M : Nat} {s0 : State} (s : State) (q : Nat) (x : Collective) (f : Collective → Collective) (hm : 65536 ||| M = M)
    (h : Within M s0 s) : Within M s0 (modColl s q x f) := by
  refine h.after hm ?_
  clear h hm
  unfold modColl
  try dsimp only
  repeat' first
    | with_reducible exact Within.refl _ _
    | with_reducible refine Within.at_col (by decide)  ?_

theorem keptShard_within {M : Nat} {s0 : State} (r : Retained) (s : State) (hm : 251658530 ||| M = M)
    (h : Within M s0 s) : Within M s0 (keptShard r s).2 := by
  refine h.after hm ?_
  clear h hm
  unfold keptShard
  try dsimp only
  repeat' first
    | with_reducible exact Within.refl _ _
    | with_reducible refine readPA_within _ _ _ _ (by decide) ?_
    | with_reducible refine drew_within _ (by decide) ?_
    | with_reducible refine Within.foldlSnd _ ?_ _ ?_
    | with_reducible refine Within.iteSnd ?_ ?_
    | with_reducible intro _

theorem pumpColl_within {M : Nat} {s0 : State} (q : Nat) (x : Collective) (a1 : Nat) (a2 : State) (hm : 251748650 ||| M = M)
    (h : Within M s0 a2) : Within M s0 (pumpColl q x a1 a2) := by
  refine h.after hm ?_
  clear h hm
  induction a1 generalizing q x a2 with
  | zero =>
    unfold pumpColl
    try dsimp only
    repeat' first
      | with_reducible exact Within.refl _ _
  | succ n ih =>
    unfold pumpColl
    try dsimp only
    repeat' first
      | with_reducible exact Within.refl _ _
      | with_reducible refine Within.trans ?_ (ih _ _ _)
      | with_reducible refine modColl_within _ _ _ _ (by decide) ?_
      | with_reducible refine writePA_within _ _ _ (by decide) ?_
      | with_reducible refine inject_within _ _ _ _ (by decide) ?_
      | split

theorem pump_within {M : Nat} {s0 : State} (s : State) (hm : 251748650 ||| M = M)
    (h : Within M s0 s) : Within M s0 (pump s) := by
  refine h.after hm ?_
  clear h hm
  unfold pump
  try dsimp only
  repeat' first
    | with_reducible exact Within.refl _ _
    | with_reducible refine each_within _ _ _ (by decide) ?_ ?_
    | with_reducible refine pumpColl_within _ _ _ _ (by decide) ?_
    | with_reducible intro _

theorem writeGot_within {M : Nat} {s0 : State} (x : Collective) (p : Nat) (off : Nat) (bs : List Byte) (s : State) (hm : 520095522 ||| M = M)
    (h : Within M s0 s) : Within M s0 (writeGot x p off bs s) := by
  refine h.after hm ?_
  clear h hm
  unfold writeGot
  try dsimp only
  repeat' first
    | with_reducible exact Within.refl _ _
    | with_reducible refine each_within _ _ _ (by decide) ?_ ?_
    | with_reducible refine ColDesc.write_within _ _ _ _ (by decide) ?_
    | with_reducible refine ColDesc.writeReduced_within _ _ _ _ _ (by decide) ?_
    | with_reducible refine Within.ite ?_ ?_
    | with_reducible intro _

theorem noteFlags_within {M : Nat} {s0 : State} (q : Nat) (x : Collective) (f : ColFlags) (s : State) (hm : 65536 ||| M = M)
    (h : Within M s0 s) : Within M s0 (noteFlags q x f s) := by
  refine h.after hm ?_
  clear h hm
  unfold noteFlags
  try dsimp only
  repeat' first
    | with_reducible exact Within.refl _ _
    | with_reducible refine modColl_within _ _ _ _ (by decide) ?_

theorem reduceOwn_within {M : Nat} {s0 : State} (q : Nat) (x : Collective) (send : Bool) (s : State) (hm : 520161058 ||| M = M)
    (h : Within M s0 s) : Within M s0 (reduceOwn q x send s) := by
  refine h.after hm ?_
  clear h hm
  unfold reduceOwn
  try dsimp only
  repeat' first
    | with_reducible exact Within.refl _ _
    | with_reducible refine each_within _ _ _ (by decide) ?_ ?_
    | with_reducible refine ColDesc.writeReduced_within _ _ _ _ _ (by decide) ?_
    | with_reducible refine ColDesc.write_within _ _ _ _ (by decide) ?_
    | with_reducible refine noteFlags_within _ _ _ _ (by decide) ?_
    | with_reducible refine modColl_within _ _ _ _ (by decide) ?_
    | with_reducible refine Within.ite ?_ ?_
    | split
    | with_reducible intro _

theorem dispatchPlace_within {M : Nat} {s0 : State} (q : Nat) (x : Collective) (s : State) (hm : 520161058 ||| M = M)
    (h : Within M s0 s) : Within M s0 (dispatchPlace q x s) := by
  refine h.after hm ?_
  clear h hm
  unfold dispatchPlace
  try dsimp only
  repeat' first
    | with_reducible exact Within.refl _ _
    | with_reducible refine each_within _ _ _ (by decide) ?_ ?_
    | with_reducible refine ColDesc.write_within _ _ _ _ (by decide) ?_
    | with_reducible refine raise_within _ _ _ _ _ _ (by decide) ?_
    | with_reducible refine modColl_within _ _ _ _ (by decide) ?_
    | with_reducible refine Within.ite ?_ ?_
    | with_reducible intro _

theorem combinePlace_within {M : Nat} {s0 : State} (q : Nat) (x : Collective) (s : State) (hm : 520161058 ||| M = M)
    (h : Within M s0 s) : Within M s0 (combinePlace q x s) := by
  refine h.after hm ?_
  clear h hm
  unfold combinePlace
  try dsimp only
  repeat' first
    | with_reducible exact Within.refl _ _
    | with_reducible refine readRoutes_within _ _ (by decide) ?_
    | with_reducible refine each_within _ _ _ (by decide) ?_ ?_
    | with_reducible refine ColDesc.write_within _ _ _ _ (by decide) ?_
    | with_reducible refine modColl_within _ _ _ _ (by decide) ?_
    | with_reducible intro _

theorem settleColl_within {M : Nat} {s0 : State} (q : Nat) (x0 : Collective) (s : State) (hm : 520185642 ||| M = M)
    (h : Within M s0 s) : Within M s0 (settleColl q x0 s) := by
  refine h.after hm ?_
  clear h hm
  unfold settleColl
  try dsimp only
  repeat' first
    | with_reducible exact Within.refl _ _
    | with_reducible refine pump_within _ (by decide) ?_
    | with_reducible refine reduceOwn_within _ _ _ _ (by decide) ?_
    | with_reducible refine dispatchPlace_within _ _ _ (by decide) ?_
    | with_reducible refine combinePlace_within _ _ _ (by decide) ?_
    | with_reducible refine Within.ite ?_ ?_
    | split

theorem contributions_within {M : Nat} {s0 : State} (x : Collective) (s : State) (hm : 251660066 ||| M = M)
    (h : Within M s0 s) : Within M s0 (contributions x s).2 := by
  refine h.after hm ?_
  clear h hm
  unfold contributions
  try dsimp only
  repeat' first
    | with_reducible exact Within.refl _ _
    | with_reducible refine readRoutes_within _ _ (by decide) ?_
    | with_reducible refine dispatchRows_within _ _ _ _ _ (by decide) ?_
    | with_reducible refine combineRows_within _ _ _ (by decide) ?_
    | with_reducible refine rowStream_within _ _ _ (by decide) ?_
    | with_reducible refine Within.foldlSnd _ ?_ _ ?_
    | with_reducible refine Within.iteSnd ?_ ?_
    | with_reducible intro _

theorem acceptColl_within {M : Nat} {s0 : State} (q : Nat) (x : Collective) (s : State) (hm : 520185642 ||| M = M)
    (h : Within M s0 s) : Within M s0 (acceptColl q x s) := by
  refine h.after hm ?_
  clear h hm
  unfold acceptColl
  try dsimp only
  repeat' first
    | with_reducible exact Within.refl _ _
    | with_reducible refine contributions_within _ _ (by decide) ?_
    | with_reducible refine modColl_within _ _ _ _ (by decide) ?_
    | with_reducible refine noteFlags_within _ _ _ _ (by decide) ?_
    | with_reducible refine raise_within _ _ _ _ _ _ (by decide) ?_
    | with_reducible refine each_within _ _ _ (by decide) ?_ ?_
    | with_reducible refine writeGot_within _ _ _ _ _ (by decide) ?_
    | with_reducible refine settleColl_within _ _ _ (by decide) ?_
    | with_reducible refine pump_within _ (by decide) ?_
    | with_reducible refine Within.ite ?_ ?_
    | with_reducible refine Within.at_col (by decide)  ?_
    | with_reducible intro _

theorem colFault_within {M : Nat} {s0 : State} (c : Nat) (t : Nat) (pc : Word64) (num : Nat) (s : State) (hm : 251993578 ||| M = M)
    (h : Within M s0 s) : Within M s0 (colFault c t pc num s) := by
  refine h.after hm ?_
  clear h hm
  unfold colFault
  try dsimp only
  repeat' first
    | with_reducible exact Within.refl _ _
    | with_reducible refine threadFault_within _ _ _ _ _ _ _ _ (by decide) ?_
    | with_reducible refine drew_within _ (by decide) ?_

theorem cq_within {M : Nat} {s0 : State} (w : BitVec 56) (c : Nat) (t : Nat) (pc : Word64) (s : State) (hm : 520454122 ||| M = M)
    (h : Within M s0 s) : Within M s0 (cq w c t pc s) := by
  refine h.after hm ?_
  clear h hm
  unfold cq
  try dsimp only
  repeat' first
    | with_reducible exact Within.refl _ _
    | with_reducible refine threadFault_within _ _ _ _ _ _ _ _ (by decide) ?_
    | with_reducible refine poisonEnd_within _ _ _ _ _ _ (by decide) ?_
    | with_reducible refine setPc_within _ _ _ _ (by decide) ?_
    | with_reducible refine wait_within _ _ _ _ (by decide) ?_
    | with_reducible refine colFault_within _ _ _ _ _ (by decide) ?_
    | with_reducible refine devRead_within _ _ _ (by decide) ?_
    | with_reducible refine acceptColl_within _ _ _ (by decide) ?_
    | with_reducible refine Within.ite ?_ ?_
    | split

theorem issueCq_within {M : Nat} {s0 : State} (op : Nat) (c : Nat) (w : BitVec 56) (s : State) (hm : 520454122 ||| M = M)
    (h : Within M s0 s) : Within M s0 (issueCq op c w s) := by
  refine h.after hm ?_
  clear h hm
  unfold issueCq
  try dsimp only
  repeat' first
    | with_reducible exact Within.refl _ _
    | with_reducible refine issue_within _ _ _ _ (by decide) ?_ ?_
    | with_reducible refine cq_within _ _ _ _ _ (by decide) ?_
    | with_reducible refine Within.ite ?_ ?_
    | with_reducible intro _

theorem badShard_within {M : Nat} {s0 : State} (q : Nat) (x : Collective) (sh : Shard) (s : State) (hm : 117530666 ||| M = M)
    (h : Within M s0 s) : Within M s0 (badShard q x sh s) := by
  refine h.after hm ?_
  clear h hm
  unfold badShard
  try dsimp only
  repeat' first
    | with_reducible exact Within.refl _ _
    | with_reducible refine modColl_within _ _ _ _ (by decide) ?_
    | with_reducible refine inject_within _ _ _ _ (by decide) ?_
    | with_reducible refine Within.ite ?_ ?_

theorem endColIssuer_within {M : Nat} {s0 : State} (x : Collective) (num : Nat) (s : State) (hm : 251993578 ||| M = M)
    (h : Within M s0 s) : Within M s0 (endColIssuer x num s) := by
  refine h.after hm ?_
  clear h hm
  unfold endColIssuer
  try dsimp only
  repeat' first
    | with_reducible exact Within.refl _ _
    | with_reducible refine terminate_within _ _ _ _ _ (by decide) ?_
    | with_reducible refine drew_within _ (by decide) ?_
    | with_reducible refine raise_within _ _ _ _ _ _ (by decide) ?_
    | split

theorem goodShard_within {M : Nat} {s0 : State} (q : Nat) (x : Collective) (sh : Shard) (s : State) (hm : 520454122 ||| M = M)
    (h : Within M s0 s) : Within M s0 (goodShard q x sh s) := by
  refine h.after hm ?_
  clear h hm
  unfold goodShard
  try dsimp only
  repeat' first
    | with_reducible exact Within.refl _ _
    | with_reducible refine inject_within _ _ _ _ (by decide) ?_
    | with_reducible refine endColIssuer_within _ _ _ (by decide) ?_
    | with_reducible refine modColl_within _ _ _ _ (by decide) ?_
    | with_reducible refine settleColl_within _ _ _ (by decide) ?_
    | with_reducible refine writeGot_within _ _ _ _ _ (by decide) ?_
    | with_reducible refine Within.ite ?_ ?_

theorem shardReceive_within {M : Nat} {s0 : State} (sh : Shard) (s : State) (hm : 520454122 ||| M = M)
    (h : Within M s0 s) : Within M s0 (shardReceive sh s) := by
  refine h.after hm ?_
  clear h hm
  unfold shardReceive
  try dsimp only
  repeat' first
    | with_reducible exact Within.refl _ _
    | with_reducible refine badShard_within _ _ _ _ (by decide) ?_
    | with_reducible refine raise_within _ _ _ _ _ _ (by decide) ?_
    | with_reducible refine goodShard_within _ _ _ _ (by decide) ?_
    | with_reducible refine inject_within _ _ _ _ (by decide) ?_
    | with_reducible refine Within.ite ?_ ?_
    | split

theorem shardAck_within {M : Nat} {s0 : State} (dst : Nat) (cid : BitVec 32) (shseq : BitVec 32) (s : State) (hm : 251748650 ||| M = M)
    (h : Within M s0 s) : Within M s0 (shardAck dst cid shseq s) := by
  refine h.after hm ?_
  clear h hm
  unfold shardAck
  try dsimp only
  repeat' first
    | with_reducible exact Within.refl _ _
    | with_reducible refine pump_within _ (by decide) ?_
    | with_reducible refine Within.at_col (by decide)  ?_

theorem shardRetry_within {M : Nat} {s0 : State} (dst : Nat) (cid : BitVec 32) (shseq : BitVec 32) (s : State) (hm : 251748650 ||| M = M)
    (h : Within M s0 s) : Within M s0 (shardRetry dst cid shseq s) := by
  refine h.after hm ?_
  clear h hm
  unfold shardRetry
  try dsimp only
  repeat' first
    | with_reducible exact Within.refl _ _
    | with_reducible refine raise_within _ _ _ _ _ _ (by decide) ?_
    | with_reducible refine modColl_within _ _ _ _ (by decide) ?_
    | with_reducible refine keptShard_within _ _ (by decide) ?_
    | with_reducible refine inject_within _ _ _ _ (by decide) ?_
    | split

theorem notreadyResend_within {M : Nat} {s0 : State} (dst : Nat) (cid : BitVec 32) (shseq : BitVec 32) (s : State) (hm : 251683114 ||| M = M)
    (h : Within M s0 s) : Within M s0 (notreadyResend dst cid shseq s) := by
  refine h.after hm ?_
  clear h hm
  unfold notreadyResend
  try dsimp only
  repeat' first
    | with_reducible exact Within.refl _ _
    | with_reducible refine keptShard_within _ _ (by decide) ?_
    | with_reducible refine inject_within _ _ _ _ (by decide) ?_
    | split

theorem collectiveComplete_within {M : Nat} {s0 : State} (q : Nat) (cid : BitVec 32) (s : State) (hm : 251749802 ||| M = M)
    (h : Within M s0 s) : Within M s0 (collectiveComplete q cid s) := by
  refine h.after hm ?_
  clear h hm
  unfold collectiveComplete
  try dsimp only
  repeat' first
    | with_reducible exact Within.refl _ _
    | with_reducible refine pump_within _ (by decide) ?_
    | with_reducible refine colEnd_within _ _ _ _ _ (by decide) ?_
    | split

theorem poisonRows_within {M : Nat} {s0 : State} (x : Collective) (s : State) (hm : 251660066 ||| M = M)
    (h : Within M s0 s) : Within M s0 (poisonRows x s) := by
  refine h.after hm ?_
  clear h hm
  unfold poisonRows
  try dsimp only
  repeat' first
    | with_reducible exact Within.refl _ _
    | with_reducible refine each_within _ _ _ (by decide) ?_ ?_
    | with_reducible refine ColDesc.poison_within _ _ _ _ (by decide) ?_
    | with_reducible refine Within.ite ?_ ?_
    | with_reducible intro _

theorem poisonBlocks_within {M : Nat} {s0 : State} (x : Collective) (s : State) (hm : 520095522 ||| M = M)
    (h : Within M s0 s) : Within M s0 (poisonBlocks x s) := by
  refine h.after hm ?_
  clear h hm
  unfold poisonBlocks
  try dsimp only
  repeat' first
    | with_reducible exact Within.refl _ _
    | with_reducible refine each_within _ _ _ (by decide) ?_ ?_
    | with_reducible refine ColDesc.writeReduced_within _ _ _ _ _ (by decide) ?_
    | with_reducible refine Within.ite ?_ ?_
    | with_reducible intro _

theorem poisonDispatch_within {M : Nat} {s0 : State} (q : Nat) (x : Collective) (s : State) (hm : 520161058 ||| M = M)
    (h : Within M s0 s) : Within M s0 (poisonDispatch q x s) := by
  refine h.after hm ?_
  clear h hm
  unfold poisonDispatch
  try dsimp only
  repeat' first
    | with_reducible exact Within.refl _ _
    | with_reducible refine each_within _ _ _ (by decide) ?_ ?_
    | with_reducible refine ColDesc.poison_within _ _ _ _ (by decide) ?_
    | with_reducible refine modColl_within _ _ _ _ (by decide) ?_
    | with_reducible refine ColDesc.write_within _ _ _ _ (by decide) ?_
    | with_reducible intro _

theorem fillHoles_within {M : Nat} {s0 : State} (q : Nat) (x : Collective) (s : State) (hm : 520161058 ||| M = M)
    (h : Within M s0 s) : Within M s0 (fillHoles q x s) := by
  refine h.after hm ?_
  clear h hm
  unfold fillHoles
  try dsimp only
  repeat' first
    | with_reducible exact Within.refl _ _
    | with_reducible refine poisonBlocks_within _ _ (by decide) ?_
    | with_reducible refine reduceOwn_within _ _ _ _ (by decide) ?_
    | with_reducible refine poisonDispatch_within _ _ _ (by decide) ?_
    | with_reducible refine combinePlace_within _ _ _ (by decide) ?_
    | with_reducible refine poisonRows_within _ _ (by decide) ?_
    | with_reducible refine Within.ite ?_ ?_

theorem abortPeers_within {M : Nat} {s0 : State} (item : Nat) (s : State) (hm : 251993578 ||| M = M)
    (h : Within M s0 s) : Within M s0 (abortPeers item s) := by
  refine h.after hm ?_
  clear h hm
  unfold abortPeers
  try dsimp only
  repeat' first
    | with_reducible exact Within.refl _ _
    | with_reducible refine each_within _ _ _ (by decide) ?_ ?_
    | with_reducible refine t4Abort_within _ _ _ (by decide) ?_
    | with_reducible intro _

theorem collectiveTimeout_within {M : Nat} {s0 : State} (q : Nat) (cid : BitVec 32) (s : State) (hm : 520454122 ||| M = M)
    (h : Within M s0 s) : Within M s0 (collectiveTimeout q cid s) := by
  refine h.after hm ?_
  clear h hm
  unfold collectiveTimeout
  try dsimp only
  repeat' first
    | with_reducible exact Within.refl _ _
    | with_reducible refine fillHoles_within _ _ _ (by decide) ?_
    | with_reducible refine raise_within _ _ _ _ _ _ (by decide) ?_
    | with_reducible refine pump_within _ (by decide) ?_
    | with_reducible refine abortPeers_within _ _ (by decide) ?_
    | with_reducible refine colEnd_within _ _ _ _ _ (by decide) ?_
    | with_reducible refine spoil_within _ _ (by decide) ?_
    | split

theorem paceTimer_within {M : Nat} {s0 : State} (s : State) (hm : 117530666 ||| M = M)
    (h : Within M s0 s) : Within M s0 (paceTimer s) := by
  refine h.after hm ?_
  clear h hm
  unfold paceTimer
  try dsimp only
  repeat' first
    | with_reducible exact Within.refl _ _
    | with_reducible refine each_within _ _ _ (by decide) ?_ ?_
    | with_reducible refine inject_within _ _ _ _ (by decide) ?_
    | with_reducible refine Within.ite ?_ ?_
    | with_reducible refine Within.at_col (by decide)  ?_
    | split
    | with_reducible intro _

theorem stackTempSample_within {M : Nat} {s0 : State} (ts : List Int) (s : State) (hm : 2673831850 ||| M = M)
    (h : Within M s0 s) : Within M s0 (stackTempSample ts s) := by
  refine h.after hm ?_
  clear h hm
  unfold stackTempSample
  try dsimp only
  repeat' first
    | with_reducible exact Within.refl _ _
    | with_reducible refine stackTemps_within _ _ (by decide) ?_
    | with_reducible refine paceTimer_within _ (by decide) ?_
    | with_reducible refine Within.ite ?_ ?_

theorem paceNotice_within {M : Nat} {s0 : State} (src : BitVec 16) (slice : BitVec 16) (number : Nat) (delay : Nat) (s : State) (hm : 117506082 ||| M = M)
    (h : Within M s0 s) : Within M s0 (paceNotice src slice number delay s) := by
  refine h.after hm ?_
  clear h hm
  unfold paceNotice
  try dsimp only
  repeat' first
    | with_reducible exact Within.refl _ _
    | with_reducible refine each_within _ _ _ (by decide) ?_ ?_
    | with_reducible refine modColl_within _ _ _ _ (by decide) ?_
    | with_reducible refine raise_within _ _ _ _ _ _ (by decide) ?_
    | with_reducible refine Within.ite ?_ ?_
    | split
    | with_reducible intro _

end Sys2Proof.Machine
end

