-- ==== Sys2Proof/Laws/Vector.lean ====
section
/-! SUPPORT. What each operation of Machine/Vector.lean may change: see Laws/Within.lean. -/

namespace Sys2Proof.Machine

theorem vecIssue_within {M : Nat} {s0 : State} (opc : Nat) (w : BitVec 56) (run : VecAt → VecJob → State → State) (c : Nat) (t : Nat) (pc : Word64) (s : State) (hm : 251993578 ||| M = M) (h_run : ∀ v0 v1 v2, Within M v2 (run v0 v1 v2))
    (h : Within M s0 s) : Within M s0 (vecIssue opc w run c t pc s) := by
  unfold vecIssue
  try dsimp only
  repeat' first
    | with_reducible assumption
    | with_reducible refine issueFault_within _ _ _ _ _ _ (maskSub (by decide) hm) ?_
    | with_reducible refine ctrAdd_within _ _ _ (maskSub (by decide) hm) ?_
    | with_reducible refine Within.trans ?_ (h_run _ _ _)
    | split

theorem vecTouch_within {M : Nat} {s0 : State} (w : VecAt) (s : State) (ranges : List (Nat × Nat)) (hm : 117441058 ||| M = M)
    (h : Within M s0 s) : Within M s0 (vecTouch w s ranges) := by
  refine h.after hm ?_
  clear h hm
  unfold vecTouch
  try dsimp only
  repeat' first
    | with_reducible exact Within.refl _ _
    | with_reducible refine touchAll_within _ _ _ _ _ (by decide) ?_

theorem raiseIf_within {M : Nat} {s0 : State} (b : Bool) (s : State) (block : Nat) (num : Nat) (c : Nat) (slot : Nat) (hm : 117440546 ||| M = M)
    (h : Within M s0 s) : Within M s0 (raiseIf b s block num c slot) := by
  refine h.after hm ?_
  clear h hm
  unfold raiseIf
  try dsimp only
  repeat' first
    | with_reducible exact Within.refl _ _
    | with_reducible refine raise_within _ _ _ _ _ _ (by decide) ?_
    | with_reducible refine Within.ite ?_ ?_

theorem vecEvents_within {M : Nat} {s0 : State} (w : VecAt) (s : State) (poison : Bool) (bare : Bool) (hm : 117440546 ||| M = M)
    (h : Within M s0 s) : Within M s0 (vecEvents w s poison bare) := by
  refine h.after hm ?_
  clear h hm
  unfold vecEvents
  try dsimp only
  repeat' first
    | with_reducible exact Within.refl _ _
    | with_reducible refine raiseIf_within _ _ _ _ _ _ (by decide) ?_

theorem noteSats_within {M : Nat} {s0 : State} (s : State) (c : Nat) (l : List Nat) (hm : 128 ||| M = M)
    (h : Within M s0 s) : Within M s0 (noteSats s c l) := by
  refine h.after hm ?_
  clear h hm
  unfold noteSats
  try dsimp only
  repeat' first
    | with_reducible exact Within.refl _ _
    | with_reducible refine modCl_within _ _ _ (by decide) ?_

theorem writeRow_within {M : Nat} {s0 : State} (c : Nat) (d : VecDesc) (row : Nat) (xs : List Fv) (s : State) (hm : 268435968 ||| M = M)
    (h : Within M s0 s) : Within M s0 (writeRow c d row xs s) := by
  refine h.after hm ?_
  clear h hm
  unfold writeRow
  try dsimp only
  repeat' first
    | with_reducible exact Within.refl _ _
    | with_reducible refine each_within _ _ _ (by decide) ?_ ?_
    | with_reducible refine csWrite_within _ _ _ _ (by decide) ?_
    | with_reducible refine Within.ite ?_ ?_
    | with_reducible intro _

theorem vewRun_within {M : Nat} {s0 : State} (w : VecAt) (j : VecJob) (s : State) (hm : 385876514 ||| M = M)
    (h : Within M s0 s) : Within M s0 (vewRun w j s) := by
  refine h.after hm ?_
  clear h hm
  unfold vewRun
  try dsimp only
  repeat' first
    | with_reducible exact Within.refl _ _
    | with_reducible refine vecTouch_within _ _ _ (by decide) ?_
    | with_reducible refine vecEvents_within _ _ _ _ (by decide) ?_
    | with_reducible refine each_within _ _ _ (by decide) ?_ ?_
    | with_reducible refine writeRow_within _ _ _ _ _ (by decide) ?_
    | with_reducible intro _

theorem vcvtRun_within {M : Nat} {s0 : State} (w : VecAt) (j : VecJob) (s : State) (hm : 385876642 ||| M = M)
    (h : Within M s0 s) : Within M s0 (vcvtRun w j s) := by
  refine h.after hm ?_
  clear h hm
  unfold vcvtRun
  try dsimp only
  repeat' first
    | with_reducible exact Within.refl _ _
    | with_reducible refine vecTouch_within _ _ _ (by decide) ?_
    | with_reducible refine vecEvents_within _ _ _ _ (by decide) ?_
    | with_reducible refine noteSats_within _ _ _ (by decide) ?_
    | with_reducible refine each_within _ _ _ (by decide) ?_ ?_
    | with_reducible refine writeRow_within _ _ _ _ _ (by decide) ?_
    | with_reducible intro _

theorem vsfRun_within {M : Nat} {s0 : State} (w : VecAt) (j : VecJob) (s : State) (hm : 385876514 ||| M = M)
    (h : Within M s0 s) : Within M s0 (vsfRun w j s) := by
  refine h.after hm ?_
  clear h hm
  unfold vsfRun
  try dsimp only
  repeat' first
    | with_reducible exact Within.refl _ _
    | with_reducible refine vecTouch_within _ _ _ (by decide) ?_
    | with_reducible refine vecEvents_within _ _ _ _ (by decide) ?_
    | with_reducible refine raiseIf_within _ _ _ _ _ _ (by decide) ?_
    | with_reducible refine each_within _ _ _ (by decide) ?_ ?_
    | with_reducible refine writeRow_within _ _ _ _ _ (by decide) ?_
    | with_reducible intro _

theorem vqntRun_within {M : Nat} {s0 : State} (w : VecAt) (j : VecJob) (s : State) (hm : 385876642 ||| M = M)
    (h : Within M s0 s) : Within M s0 (vqntRun w j s) := by
  refine h.after hm ?_
  clear h hm
  unfold vqntRun
  extract_lets d s1 res valid nb blocks s2 xs m gut taken lifted quant satAt count sats s3 s4
  have e1 : Within 385876642 s s1 := vecTouch_within _ _ _ (by decide) (Within.refl _ _)
  clear_value s1 res valid blocks
  have e2 : Within 385876642 s s2 := by
    unfold s2
    split
    · split
      · exact touchResiduals_within _ _ _ _ _ _ (by decide) e1
      · exact e1
    · exact e1
  clear_value s2 xs m gut taken lifted quant satAt count sats
  have e3 : Within 385876642 s s3 := noteSats_within _ _ _ (by decide) (vecEvents_within _ _ _ _ (by decide) e2)
  clear_value s3
  have e4 : Within 385876642 s s4 := by
    refine each_within _ _ _ (by decide) (fun t rb => ?_) e3
    extract_lets n inside q vals lift e codes s1
    have f1 : Within 385876642 t s1 := csWrite_within _ _ _ _ (by decide) (csWrite_within _ _ _ _ (by decide) (Within.refl _ _))
    clear_value s1
    split
    · exact f1
    · exact csWrites_within _ _ _ (by decide) f1
  split
  · exact each_within _ _ _ (by decide) (fun t tk => csWrite_within _ _ _ _ (by decide) (Within.refl _ _)) e4
  · exact e4

theorem drewRows_within {M : Nat} {s0 : State} (s : State) (n : Nat) (hm : 2 ||| M = M)
    (h : Within M s0 s) : Within M s0 (drewRows s n) := by
  refine h.after hm ?_
  clear h hm
  unfold drewRows
  try dsimp only
  repeat' first
    | with_reducible exact Within.refl _ _
    | with_reducible refine Within.at_free (by decide)  ?_

theorem vstatRun_within {M : Nat} {s0 : State} (w : VecAt) (j : VecJob) (s : State) (hm : 385876514 ||| M = M)
    (h : Within M s0 s) : Within M s0 (vstatRun w j s) := by
  refine h.after hm ?_
  clear h hm
  unfold vstatRun
  try dsimp only
  repeat' first
    | with_reducible exact Within.refl _ _
    | with_reducible refine vecTouch_within _ _ _ (by decide) ?_
    | with_reducible refine vecEvents_within _ _ _ _ (by decide) ?_
    | with_reducible refine raiseIf_within _ _ _ _ _ _ (by decide) ?_
    | with_reducible refine each_within _ _ _ (by decide) ?_ ?_
    | with_reducible refine csWrite_within _ _ _ _ (by decide) ?_
    | split
    | with_reducible intro _

theorem vstatCombineRun_within {M : Nat} {s0 : State} (w : VecAt) (j : VecJob) (s : State) (hm : 385876514 ||| M = M)
    (h : Within M s0 s) : Within M s0 (vstatCombineRun w j s) := by
  refine h.after hm ?_
  clear h hm
  unfold vstatCombineRun
  try dsimp only
  repeat' first
    | with_reducible exact Within.refl _ _
    | with_reducible refine vecTouch_within _ _ _ (by decide) ?_
    | with_reducible refine raiseIf_within _ _ _ _ _ _ (by decide) ?_
    | with_reducible refine drewRows_within _ _ (by decide) ?_
    | with_reducible refine each_within _ _ _ (by decide) ?_ ?_
    | with_reducible refine csWrite_within _ _ _ _ (by decide) ?_
    | with_reducible intro _

theorem softRow_within {M : Nat} {s0 : State} (w : VecAt) (d : VecDesc) (s : State) (row : Nat) (xs : List Val) (hm : 385876514 ||| M = M)
    (h : Within M s0 s) : Within M s0 (softRow w d s row xs) := by
  refine h.after hm ?_
  clear h hm
  unfold softRow
  try dsimp only
  repeat' first
    | with_reducible exact Within.refl _ _
    | with_reducible refine raiseIf_within _ _ _ _ _ _ (by decide) ?_
    | with_reducible refine csWrite_within _ _ _ _ (by decide) ?_
    | with_reducible refine writeRow_within _ _ _ _ _ (by decide) ?_
    | with_reducible refine Within.ite ?_ ?_

theorem vsoftRun_within {M : Nat} {s0 : State} (w : VecAt) (j : VecJob) (s : State) (hm : 385876514 ||| M = M)
    (h : Within M s0 s) : Within M s0 (vsoftRun w j s) := by
  refine h.after hm ?_
  clear h hm
  unfold vsoftRun
  try dsimp only
  repeat' first
    | with_reducible exact Within.refl _ _
    | with_reducible refine vecTouch_within _ _ _ (by decide) ?_
    | with_reducible refine vecEvents_within _ _ _ _ (by decide) ?_
    | with_reducible refine raiseIf_within _ _ _ _ _ _ (by decide) ?_
    | with_reducible refine drewRows_within _ _ (by decide) ?_
    | with_reducible refine each_within _ _ _ (by decide) ?_ ?_
    | with_reducible refine softRow_within _ _ _ _ _ (by decide) ?_
    | with_reducible intro _

theorem vsoftProbRun_within {M : Nat} {s0 : State} (w : VecAt) (j : VecJob) (s : State) (hm : 385876514 ||| M = M)
    (h : Within M s0 s) : Within M s0 (vsoftProbRun w j s) := by
  refine h.after hm ?_
  clear h hm
  unfold vsoftProbRun
  try dsimp only
  repeat' first
    | with_reducible exact Within.refl _ _
    | with_reducible refine vecTouch_within _ _ _ (by decide) ?_
    | with_reducible refine vecEvents_within _ _ _ _ (by decide) ?_
    | with_reducible refine raiseIf_within _ _ _ _ _ _ (by decide) ?_
    | with_reducible refine each_within _ _ _ (by decide) ?_ ?_
    | with_reducible refine writeRow_within _ _ _ _ _ (by decide) ?_
    | with_reducible intro _

theorem vargmaxRun_within {M : Nat} {s0 : State} (w : VecAt) (j : VecJob) (s : State) (hm : 385876514 ||| M = M)
    (h : Within M s0 s) : Within M s0 (vargmaxRun w j s) := by
  refine h.after hm ?_
  clear h hm
  unfold vargmaxRun
  try dsimp only
  repeat' first
    | with_reducible exact Within.refl _ _
    | with_reducible refine vecTouch_within _ _ _ (by decide) ?_
    | with_reducible refine vecEvents_within _ _ _ _ (by decide) ?_
    | with_reducible refine drewRows_within _ _ (by decide) ?_
    | with_reducible refine each_within _ _ _ (by decide) ?_ ?_
    | with_reducible refine csWrite_within _ _ _ _ (by decide) ?_
    | with_reducible intro _

end Sys2Proof.Machine
end

