-- ==== Sys2Proof/Laws/Detect.lean ====
section
/-! SUPPORT. What each operation of Machine/Detect.lean may change: see Laws/Within.lean. -/

namespace Sys2Proof.Machine

theorem dboxRun_within {M : Nat} {s0 : State} (c : Nat) (slot : Nat) (d : DetDesc) (s : State) (hm : 385876514 ||| M = M)
    (h : Within M s0 s) : Within M s0 (dboxRun c slot d s) := by
  refine h.after hm ?_
  clear h hm
  unfold dboxRun
  try dsimp only
  repeat' first
    | with_reducible exact Within.refl _ _
    | with_reducible refine touchAll_within _ _ _ _ _ (by decide) ?_
    | with_reducible refine raiseIf_within _ _ _ _ _ _ (by decide) ?_
    | with_reducible refine csWrite_within _ _ _ _ (by decide) ?_

theorem dnmsRun_within {M : Nat} {s0 : State} (c : Nat) (slot : Nat) (byClass : Bool) (d : DetDesc) (s : State) (hm : 385876514 ||| M = M)
    (h : Within M s0 s) : Within M s0 (dnmsRun c slot byClass d s) := by
  refine h.after hm ?_
  clear h hm
  unfold dnmsRun
  try dsimp only
  repeat' first
    | with_reducible exact Within.refl _ _
    | with_reducible refine touchAll_within _ _ _ _ _ (by decide) ?_
    | with_reducible refine raiseIf_within _ _ _ _ _ _ (by decide) ?_
    | with_reducible refine csWrite_within _ _ _ _ (by decide) ?_

theorem detIssue_within {M : Nat} {s0 : State} (nms : Bool) (w : BitVec 56) (c : Nat) (t : Nat) (pc : Word64) (s : State) (hm : 520429546 ||| M = M)
    (h : Within M s0 s) : Within M s0 (detIssue nms w c t pc s) := by
  refine h.after hm ?_
  clear h hm
  unfold detIssue
  try dsimp only
  repeat' first
    | with_reducible exact Within.refl _ _
    | with_reducible refine issueFault_within _ _ _ _ _ _ (by decide) ?_
    | with_reducible refine ctrAdd_within _ _ _ (by decide) ?_
    | with_reducible refine dnmsRun_within _ _ _ _ _ (by decide) ?_
    | with_reducible refine dboxRun_within _ _ _ _ (by decide) ?_
    | with_reducible refine Within.ite ?_ ?_
    | split

end Sys2Proof.Machine
end

