-- ==== Sys2Proof/Laws/Mgmt.lean ====
section
/-! SUPPORT. What each operation of Machine/Mgmt.lean may change: see Laws/Within.lean. -/

namespace Sys2Proof.Machine

theorem reply_within {M : Nat} {s0 : State} (inst : Byte) (status : Byte) (data : List Byte) (s : State) (hm : 8 ||| M = M)
    (h : Within M s0 s) : Within M s0 (reply inst status data s) := by
  refine h.after hm ?_
  clear h hm
  unfold reply
  try dsimp only
  repeat' first
    | with_reducible exact Within.refl _ _
    | with_reducible refine emit_within _ _ (by decide) ?_

theorem onTarget_within {M : Nat} {s0 : State} (f : State → State) (s : State) (hm : 0 ||| M = M) (h_f : ∀ v0, Within M v0 (f v0))
    (h : Within M s0 s) : Within M s0 (onTarget f s) := by
  unfold onTarget
  try dsimp only
  repeat' first
    | with_reducible assumption
    | with_reducible refine Within.trans ?_ (h_f _)
    | with_reducible refine Within.ite ?_ ?_

theorem assignAddress_within {M : Nat} {s0 : State} (setdasa : Bool) (addr : BitVec 7) (s : State) (hm : 4194304 ||| M = M)
    (h : Within M s0 s) : Within M s0 (assignAddress setdasa addr s) := by
  refine h.after hm ?_
  clear h hm
  unfold assignAddress
  try dsimp only
  repeat' first
    | with_reducible exact Within.refl _ _
    | with_reducible refine modHif_within _ _ (by decide) ?_
    | with_reducible refine Within.ite ?_ ?_

theorem assignEid_within {M : Nat} {s0 : State} (eid : Byte) (s : State) (hm : 4194304 ||| M = M)
    (h : Within M s0 s) : Within M s0 (assignEid eid s) := by
  refine h.after hm ?_
  clear h hm
  unfold assignEid
  try dsimp only
  repeat' first
    | with_reducible exact Within.refl _ _
    | with_reducible refine modHif_within _ _ (by decide) ?_

theorem getStatus_within {M : Nat} {s0 : State} (inst : Byte) (s : State) (hm : 8 ||| M = M)
    (h : Within M s0 s) : Within M s0 (getStatus inst s) := by
  refine h.after hm ?_
  clear h hm
  unfold getStatus
  try dsimp only
  repeat' first
    | with_reducible exact Within.refl _ _
    | with_reducible refine reply_within _ _ _ _ (by decide) ?_

theorem readRegCmd_within {M : Nat} {s0 : State} (inst : Byte) (offs : Nat) (s : State) (hm : 8 ||| M = M)
    (h : Within M s0 s) : Within M s0 (readRegCmd inst offs s) := by
  refine h.after hm ?_
  clear h hm
  unfold readRegCmd
  try dsimp only
  repeat' first
    | with_reducible exact Within.refl _ _
    | with_reducible refine reply_within _ _ _ _ (by decide) ?_
    | with_reducible refine Within.ite ?_ ?_

theorem readCounters_within {M : Nat} {s0 : State} (inst : Byte) (first : Nat) (count : Nat) (s : State) (hm : 8 ||| M = M)
    (h : Within M s0 s) : Within M s0 (readCounters inst first count s) := by
  refine h.after hm ?_
  clear h hm
  unfold readCounters
  try dsimp only
  repeat' first
    | with_reducible exact Within.refl _ _
    | with_reducible refine reply_within _ _ _ _ (by decide) ?_
    | with_reducible refine Within.ite ?_ ?_

theorem takeCoord_within {M : Nat} {s0 : State} (coord : BitVec 16) (dims : BitVec 16) (s : State) (hm : 117497898 ||| M = M)
    (h : Within M s0 s) : Within M s0 (takeCoord coord dims s) := by
  refine h.after hm ?_
  clear h hm
  unfold takeCoord
  try dsimp only
  repeat' first
    | with_reducible exact Within.refl _ _
    | with_reducible refine trainAll_within _ (by decide) ?_
    | split
    | with_reducible refine Within.at_self (by decide)  ?_

theorem setCoord_within {M : Nat} {s0 : State} (inst : Byte) (coord : BitVec 16) (dims : BitVec 16) (s : State) (hm : 117497898 ||| M = M)
    (h : Within M s0 s) : Within M s0 (setCoord inst coord dims s) := by
  refine h.after hm ?_
  clear h hm
  unfold setCoord
  try dsimp only
  repeat' first
    | with_reducible exact Within.refl _ _
    | with_reducible refine reply_within _ _ _ _ (by decide) ?_
    | with_reducible refine raise_within _ _ _ _ _ _ (by decide) ?_
    | with_reducible refine takeCoord_within _ _ _ (by decide) ?_
    | with_reducible refine Within.ite ?_ ?_

theorem setRepairs_within {M : Nat} {s0 : State} (inst : Byte) (final : Bool) (entries : List Word64) (s : State) (hm : 2675929002 ||| M = M)
    (h : Within M s0 s) : Within M s0 (setRepairs inst final entries s) := by
  refine h.after hm ?_
  clear h hm
  unfold setRepairs
  try dsimp only
  repeat' first
    | with_reducible exact Within.refl _ _
    | with_reducible refine reply_within _ _ _ _ (by decide) ?_
    | with_reducible refine each_within _ _ _ (by decide) ?_ ?_
    | with_reducible refine repairApply_within _ _ (by decide) ?_
    | with_reducible refine bootTrain_within _ (by decide) ?_
    | with_reducible refine Within.ite ?_ ?_
    | with_reducible intro _

theorem getRepairs_within {M : Nat} {s0 : State} (inst : Byte) (first : Nat) (s : State) (hm : 8 ||| M = M)
    (h : Within M s0 s) : Within M s0 (getRepairs inst first s) := by
  refine h.after hm ?_
  clear h hm
  unfold getRepairs
  try dsimp only
  repeat' first
    | with_reducible exact Within.refl _ _
    | with_reducible refine reply_within _ _ _ _ (by decide) ?_
    | with_reducible refine Within.ite ?_ ?_

theorem selectImage_within {M : Nat} {s0 : State} (inst : Byte) (b : Byte) (s : State) (hm : 2097160 ||| M = M)
    (h : Within M s0 s) : Within M s0 (selectImage inst b s) := by
  refine h.after hm ?_
  clear h hm
  unfold selectImage
  try dsimp only
  repeat' first
    | with_reducible exact Within.refl _ _
    | with_reducible refine reply_within _ _ _ _ (by decide) ?_
    | with_reducible refine modBoot_within _ _ (by decide) (by exact ⟨id, Nat.le_refl _, rfl, fun _ h => h⟩) (by exact .inr rfl) ?_
    | with_reducible refine Within.ite ?_ ?_

theorem flashRefuse_within {M : Nat} {s0 : State} (inst : Byte) (offs : Nat) (n : Nat) (s : State) (hm : 117440554 ||| M = M)
    (h : Within M s0 s) : Within M s0 (flashRefuse inst offs n s) := by
  refine h.after hm ?_
  clear h hm
  unfold flashRefuse
  try dsimp only
  repeat' first
    | with_reducible exact Within.refl _ _
    | with_reducible refine reply_within _ _ _ _ (by decide) ?_
    | with_reducible refine raise_within _ _ _ _ _ _ (by decide) ?_

theorem modFlash_within {M : Nat} {s0 : State} (s : State) (f : Mem → Mem) (hm : 2097152 ||| M = M)
    (hf : memWf erasedByte s.boot.flash = true → memWf erasedByte (f s.boot.flash) = true) (h : Within M s0 s) :
    Within M s0 (modFlash s f) :=
  modBoot_within _ _ hm ⟨hf, Nat.le_refl _, rfl, fun _ h => h⟩ (.inr rfl) h

theorem flashErase_within {M : Nat} {s0 : State} (inst : Byte) (offs : Nat) (s : State) (hm : 119537706 ||| M = M)
    (h : Within M s0 s) : Within M s0 (flashErase inst offs s) := by
  refine h.after hm ?_
  clear h hm
  unfold flashErase
  try dsimp only
  repeat' first
    | with_reducible exact Within.refl _ _
    | with_reducible refine reply_within _ _ _ _ (by decide) ?_
    | with_reducible refine flashRefuse_within _ _ _ _ (by decide) ?_
    | with_reducible refine modFlash_within _ _ (by decide) (fun hw => by exact memClear_wf _ _ hw) ?_
    | with_reducible refine Within.ite ?_ ?_

theorem flashWrite_within {M : Nat} {s0 : State} (inst : Byte) (offs : Nat) (bs : List Byte) (s : State) (hm : 119537706 ||| M = M)
    (h : Within M s0 s) : Within M s0 (flashWrite inst offs bs s) := by
  refine h.after hm ?_
  clear h hm
  unfold flashWrite
  try dsimp only
  repeat' first
    | with_reducible exact Within.refl _ _
    | with_reducible refine reply_within _ _ _ _ (by decide) ?_
    | with_reducible refine flashRefuse_within _ _ _ _ (by decide) ?_
    | with_reducible refine modFlash_within _ _ (by decide) (fun hw => by (unfold flashProgram; exact memWrs_wf _ _ hw)) ?_
    | with_reducible refine Within.ite ?_ ?_

theorem flashRead_within {M : Nat} {s0 : State} (inst : Byte) (offs : Nat) (n : Nat) (s : State) (hm : 8 ||| M = M)
    (h : Within M s0 s) : Within M s0 (flashRead inst offs n s) := by
  refine h.after hm ?_
  clear h hm
  unfold flashRead
  try dsimp only
  repeat' first
    | with_reducible exact Within.refl _ _
    | with_reducible refine reply_within _ _ _ _ (by decide) ?_
    | with_reducible refine Within.ite ?_ ?_

theorem setSvnMin_within {M : Nat} {s0 : State} (inst : Byte) (svn : Byte) (s : State) (hm : 4297064456 ||| M = M)
    (h : Within M s0 s) : Within M s0 (setSvnMin inst svn s) := by
  refine h.after hm ?_
  unfold setSvnMin
  split
  · exact reply_within _ _ _ _ (by decide) (Within.refl _ _)
  · split
    · exact reply_within _ _ _ _ (by decide) (Within.refl _ _)
    · refine reply_within _ _ _ _ (by decide) (modBoot_within _ _ (by decide) ⟨id, ?_, rfl, fun _ h => h⟩ (.inl (by decide)) (Within.refl _ _))
      show s.boot.svnMin ≤ svn.toNat
      omega

theorem mem_insertNat {x k : Nat} {l : List Nat} : k ∈ insertNat x l ↔ k = x ∨ k ∈ l := by
  induction l with
  | nil => simp [insertNat]
  | cons y ys ih =>
    simp only [insertNat]
    split
    · simp
    · split
      · subst_vars; simp
      · simp only [List.mem_cons, ih]
        constructor <;> rintro (h | h | h) <;> simp [h]

theorem revokeKey_within {M : Nat} {s0 : State} (inst : Byte) (slot : Byte) (s : State) (hm : 4297064456 ||| M = M)
    (h : Within M s0 s) : Within M s0 (revokeKey inst slot s) := by
  refine h.after hm ?_
  unfold revokeKey
  split
  · exact reply_within _ _ _ _ (by decide) (Within.refl _ _)
  · split
    · exact reply_within _ _ _ _ (by decide) (Within.refl _ _)
    · split
      · exact reply_within _ _ _ _ (by decide) (Within.refl _ _)
      · exact reply_within _ _ _ _ (by decide) (modBoot_within _ _ (by decide)
          ⟨id, Nat.le_refl _, rfl, fun _ h => mem_insertNat.mpr (.inr h)⟩ (.inl (by decide)) (Within.refl _ _))

theorem resetCmd_within {M : Nat} {s0 : State} (inst : Byte) (s : State) (hm : 12884901887 ||| M = M)
    (h : Within M s0 s) : Within M s0 (resetCmd inst s) := by
  refine h.after hm ?_
  clear h hm
  unfold resetCmd
  try dsimp only
  repeat' first
    | with_reducible exact Within.refl _ _
    | with_reducible refine bootIfFree_within _ (by decide) ?_
    | with_reducible refine deviceReset_within _ (by decide) ?_
    | with_reducible refine reply_within _ _ _ _ (by decide) ?_

end Sys2Proof.Machine
end

