-- ==== Sys2Proof/Laws/Ports.lean ====
section
/-! SUPPORT. What each operation of Machine/Ports.lean may change: see Laws/Within.lean. -/

namespace Sys2Proof.Machine

theorem endpointDown_within {M : Nat} {s0 : State} (s : State) (hm : 73400320 ||| M = M)
    (h : Within M s0 s) : Within M s0 (endpointDown s) := by
  refine h.after hm ?_
  clear h hm
  unfold endpointDown
  try dsimp only
  repeat' first
    | with_reducible exact Within.refl _ _
    | with_reducible refine modHif_within _ _ (by decide) ?_
    | with_reducible refine modBoot_within _ _ (by decide) (by exact ⟨id, Nat.le_refl _, rfl, fun _ h => h⟩) (by exact .inr rfl) ?_
    | with_reducible refine evTidy_within _ (by decide) ?_
    | with_reducible refine evSkipHeld_within _ (by decide) ?_
    | with_reducible refine Within.ite ?_ ?_

theorem endpointReset_within {M : Nat} {s0 : State} (s : State) (hm : 123732002 ||| M = M)
    (h : Within M s0 s) : Within M s0 (endpointReset s) := by
  refine h.after hm ?_
  clear h hm
  unfold endpointReset
  try dsimp only
  repeat' first
    | with_reducible exact Within.refl _ _
    | with_reducible refine raise_within _ _ _ _ _ _ (by decide) ?_
    | with_reducible refine endpointDown_within _ (by decide) ?_
    | with_reducible refine Within.ite ?_ ?_

theorem endpointLinkUp_within {M : Nat} {s0 : State} (s : State) (hm : 71303168 ||| M = M)
    (h : Within M s0 s) : Within M s0 (endpointLinkUp s) := by
  refine h.after hm ?_
  clear h hm
  unfold endpointLinkUp
  try dsimp only
  repeat' first
    | with_reducible exact Within.refl _ _
    | with_reducible refine evTidy_within _ (by decide) ?_
    | with_reducible refine evSkipHeld_within _ (by decide) ?_
    | with_reducible refine modHif_within _ _ (by decide) ?_
    | with_reducible refine Within.ite ?_ ?_

theorem botWin_within {M : Nat} {s0 : State} (v : Word64) (s : State) (hm : 2097152 ||| M = M)
    (h : Within M s0 s) : Within M s0 (botWin v s) := by
  refine h.after hm ?_
  clear h hm
  unfold botWin
  try dsimp only
  repeat' first
    | with_reducible exact Within.refl _ _
    | with_reducible refine modBoot_within _ _ (by decide) (by exact ⟨id, Nat.le_refl _, rfl, fun _ h => h⟩) (by exact .inr rfl) ?_
    | with_reducible refine Within.ite ?_ ?_

theorem bar2Access_within {M : Nat} {s0 : State} (write : Bool) (offs : Nat) (len : Nat) (data : List Byte) (s : State) (hm : 251658538 ||| M = M)
    (h : Within M s0 s) : Within M s0 (bar2Access write offs len data s) := by
  refine h.after hm ?_
  clear h hm
  unfold bar2Access
  try dsimp only
  repeat' first
    | with_reducible exact Within.refl _ _
    | with_reducible refine emit_within _ _ (by decide) ?_
    | with_reducible refine writePA_within _ _ _ (by decide) ?_
    | with_reducible refine readPA_within _ _ _ _ (by decide) ?_
    | with_reducible refine Within.ite ?_ ?_

theorem storageLoss_within {M : Nat} {s0 : State} (s : State) (hm : 121765922 ||| M = M)
    (h : Within M s0 s) : Within M s0 (storageLoss s) := by
  refine h.after hm ?_
  clear h hm
  unfold storageLoss
  try dsimp only
  repeat' first
    | with_reducible exact Within.refl _ _
    | with_reducible refine raise_within _ _ _ _ _ _ (by decide) ?_
    | with_reducible refine modHif_within _ _ (by decide) ?_
    | with_reducible refine drainFail_within _ (by decide) ?_
    | with_reducible refine Within.ite ?_ ?_

theorem storageUp_within {M : Nat} {s0 : State} (conforms : Bool) (nsze : Nat) (s : State) (hm : 255984930 ||| M = M)
    (h : Within M s0 s) : Within M s0 (storageUp conforms nsze s) := by
  refine h.after hm ?_
  clear h hm
  unfold storageUp
  try dsimp only
  repeat' first
    | with_reducible exact Within.refl _ _
    | with_reducible refine modHif_within _ _ (by decide) ?_
    | with_reducible refine storeSeen_within _ (by decide) ?_
    | with_reducible refine modSnp_within _ _ (by decide) (fun _ => by exact id) ?_
    | with_reducible refine raise_within _ _ _ _ _ _ (by decide) ?_
    | with_reducible refine Within.ite ?_ ?_

theorem xltResolve_within {M : Nat} {s0 : State} (v : Word64) (s : State) (hm : 1057849322 ||| M = M)
    (h : Within M s0 s) : Within M s0 (xltResolve v s) := by
  refine h.after hm ?_
  clear h hm
  unfold xltResolve
  try dsimp only
  repeat' first
    | with_reducible exact Within.refl _ _
    | with_reducible refine resolveRetry_within _ _ (by decide) ?_
    | with_reducible refine resolveAbort_within _ _ (by decide) ?_
    | with_reducible refine Within.ite ?_ ?_

theorem w1cWrite_within {M : Nat} {s0 : State} (offs : Nat) (v : Word64) (s : State) (hm : 83886112 ||| M = M)
    (h : Within M s0 s) : Within M s0 (w1cWrite offs v s) := by
  refine h.after hm ?_
  clear h hm
  unfold w1cWrite
  try dsimp only
  repeat' first
    | with_reducible exact Within.refl _ _
    | with_reducible refine modPwr_within _ _ (by decide) (by with_reducible rfl) (by exact .inr rfl) ?_
    | with_reducible refine modEv_within _ _ (by decide) (fun _ => by exact id) ?_
    | with_reducible refine modDom_within _ _ _ (by decide) (by exact .inr (fun _ => rfl)) (by exact .inr (fun _ => rfl)) ?_
    | with_reducible refine Within.ite ?_ ?_

theorem wideWrite_within {M : Nat} {s0 : State} (offs : Nat) (v : Word64) (s : State) (hm : 1059946474 ||| M = M)
    (h : Within M s0 s) : Within M s0 (wideWrite offs v s) := by
  refine h.after hm ?_
  clear h hm
  unfold wideWrite
  try dsimp only
  repeat' first
    | with_reducible exact Within.refl _ _
    | with_reducible refine botWin_within _ _ (by decide) ?_
    | with_reducible refine xltResolve_within _ _ (by decide) ?_
    | with_reducible refine xltInval_within _ _ (by decide) ?_
    | with_reducible refine doorbell_within _ _ _ (by decide) ?_
    | with_reducible refine codKeyreq_within _ _ (by decide) ?_
    | with_reducible refine evtRing_within _ _ (by decide) ?_
    | with_reducible refine evtCons_within _ _ (by decide) ?_
    | with_reducible refine obsFilter_within _ _ (by decide) ?_
    | with_reducible refine obsRing_within _ _ (by decide) ?_
    | with_reducible refine obsCons_within _ _ (by decide) ?_
    | with_reducible refine w1cWrite_within _ _ _ (by decide) ?_
    | with_reducible refine Within.ite ?_ ?_

theorem registerWrite_within {M : Nat} {s0 : State} (offs : Nat) (bytes : Nat) (v : Word64) (s : State) (hm : 1059946474 ||| M = M)
    (h : Within M s0 s) : Within M s0 (registerWrite offs bytes v s) := by
  refine h.after hm ?_
  clear h hm
  unfold registerWrite
  try dsimp only
  repeat' first
    | with_reducible exact Within.refl _ _
    | with_reducible refine wideWrite_within _ _ _ (by decide) ?_
    | with_reducible refine Within.ite ?_ ?_

theorem testPortClock_within {M : Nat} {s0 : State} (tms : Bool) (tdi : Bool) (trstN : Bool) (pins : List Bool) (s : State) (hm : 8388618 ||| M = M)
    (h : Within M s0 s) : Within M s0 (testPortClock tms tdi trstN pins s) := by
  refine h.after hm ?_
  clear h hm
  unfold testPortClock
  try dsimp only
  repeat' first
    | with_reducible exact Within.refl _ _
    | with_reducible refine drew_within _ (by decide) ?_
    | with_reducible refine emit_within _ _ (by decide) ?_
    | with_reducible refine Within.ite ?_ ?_
    | with_reducible refine Within.at_jtag (by decide)  ?_

end Sys2Proof.Machine
end

