-- ==== Sys2Proof/Laws/Rtp.lean ====
section
/-! SUPPORT. What each operation of Machine/Rtp.lean may change: see Laws/Within.lean. -/

namespace Sys2Proof.Machine

theorem ringRead_within {M : Nat} {s0 : State} (va : Nat) (n : Nat) (s : State) (hm : 251659554 ||| M = M)
    (h : Within M s0 s) : Within M s0 (ringRead va n s).2 := by
  refine h.after hm ?_
  clear h hm
  unfold ringRead
  try dsimp only
  repeat' first
    | with_reducible exact Within.refl _ _
    | with_reducible refine engRead_within _ _ _ _ _ _ (by decide) ?_

theorem ringRecord_within {M : Nat} {s0 : State} (ring : Nat) (size : Nat) (at' : Nat) (s : State) (hm : 251659554 ||| M = M)
    (h : Within M s0 s) : Within M s0 (ringRecord ring size at' s).2 := by
  refine h.after hm ?_
  clear h hm
  unfold ringRecord
  try dsimp only
  repeat' first
    | with_reducible exact Within.refl _ _
    | with_reducible refine ringRead_within _ _ _ (by decide) ?_
    | split

theorem rtpOut_within {M : Nat} {s0 : State} (f : Nat) (s : State) (hm : 789055274 ||| M = M)
    (h : Within M s0 s) : Within M s0 (rtpOut f s) := by
  refine h.after hm ?_
  clear h hm
  unfold rtpOut
  try dsimp only
  repeat' first
    | with_reducible exact Within.refl _ _
    | with_reducible refine ringRead_within _ _ _ (by decide) ?_
    | with_reducible refine ringRecord_within _ _ _ _ (by decide) ?_
    | with_reducible refine modFlow_within _ _ _ (by decide) ?_
    | with_reducible refine emit_within _ _ (by decide) ?_
    | with_reducible refine ctrAdd_within _ _ _ (by decide) ?_
    | with_reducible refine putAll_within _ _ (by decide) ?_
    | with_reducible refine Within.ite ?_ ?_
    | split

theorem rtpStore_within {M : Nat} {s0 : State} (f : Nat) (c : FlowCfg) (pts : Nat) (unit : List Byte) (s : State) (hm : 789055266 ||| M = M)
    (h : Within M s0 s) : Within M s0 (rtpStore f c pts unit s) := by
  refine h.after hm ?_
  clear h hm
  unfold rtpStore
  try dsimp only
  repeat' first
    | with_reducible exact Within.refl _ _
    | with_reducible refine ringRead_within _ _ _ (by decide) ?_
    | with_reducible refine raise_within _ _ _ _ _ _ (by decide) ?_
    | with_reducible refine putAll_within _ _ (by decide) ?_
    | with_reducible refine ctrAdd_within _ _ _ (by decide) ?_
    | with_reducible refine modFlow_within _ _ _ (by decide) ?_
    | with_reducible refine Within.ite ?_ ?_
    | split

theorem rtpPacket_within {M : Nat} {s0 : State} (f : Nat) (gap : Bool) (p : Packet) (s : State) (hm : 789055266 ||| M = M)
    (h : Within M s0 s) : Within M s0 (rtpPacket f gap p s) := by
  refine h.after hm ?_
  clear h hm
  unfold rtpPacket
  try dsimp only
  repeat' first
    | with_reducible exact Within.refl _ _
    | with_reducible refine modFlow_within _ _ _ (by decide) ?_
    | with_reducible refine raise_within _ _ _ _ _ _ (by decide) ?_
    | with_reducible refine ctrAdd_within _ _ _ (by decide) ?_
    | with_reducible refine rtpStore_within _ _ _ _ _ (by decide) ?_
    | with_reducible refine Within.ite ?_ ?_
    | split

theorem rtpIn_within {M : Nat} {s0 : State} (f : Nat) (seq : BitVec 16) (ssrc : BitVec 32) (ts : BitVec 32) (marker : Bool) (payload : List Byte) (s : State) (hm : 789055266 ||| M = M)
    (h : Within M s0 s) : Within M s0 (rtpIn f seq ssrc ts marker payload s) := by
  refine h.after hm ?_
  clear h hm
  unfold rtpIn
  try dsimp only
  repeat' first
    | with_reducible exact Within.refl _ _
    | with_reducible refine offerPacket_within _ _ _ _ _ (by decide) ?_ ?_
    | with_reducible refine rtpPacket_within _ _ _ _ (by decide) ?_
    | with_reducible refine ctrAdd_within _ _ _ (by decide) ?_
    | split
    | with_reducible intro _

end Sys2Proof.Machine
end

