-- ==== Sys2Proof/Laws/Arms.lean ====
section
/-! SUPPORT. What each command may change: see Laws/Within.lean. -/

namespace Sys2Proof.Machine

theorem execTickBoundary_within {d : Dom} {s t : State} (h : execTickBoundary d s = .next t) :
    Within 9920511466 s t := by
  cases h
  repeat' first
    | with_reducible exact Within.refl _ _
    | with_reducible refine tickBoundary_within _ _ (by decide) ?_

theorem execAdmitSlot_within {d : Dom} {s t : State} (h : execAdmitSlot d s = .next t) :
    Within 8841598438 s t := by
  cases h
  repeat' first
    | with_reducible exact Within.refl _ _
    | with_reducible refine entryStep_within _ _ _ (by decide) ?_

theorem execDepart_within {d : Dom} {s t : State} (h : execDepart d s = .next t) :
    Within 8841598438 s t := by
  cases h
  repeat' first
    | with_reducible exact Within.refl _ _
    | with_reducible refine entryStep_within _ _ _ (by decide) ?_

theorem execChunkBegin_within {d : Dom} {s t : State} (h : execChunkBegin d s = .next t) :
    Within 8841598438 s t := by
  cases h
  repeat' first
    | with_reducible exact Within.refl _ _
    | with_reducible refine entryStep_within _ _ _ (by decide) ?_

theorem execChunkEnd_within {d : Dom} {s t : State} (h : execChunkEnd d s = .next t) :
    Within 8841598438 s t := by
  cases h
  repeat' first
    | with_reducible exact Within.refl _ _
    | with_reducible refine entryStep_within _ _ _ (by decide) ?_

theorem execWork_within {d : Dom} {s t : State} (h : execWork d s = .next t) :
    Within 8841598438 s t := by
  cases h
  repeat' first
    | with_reducible exact Within.refl _ _
    | with_reducible refine entryStep_within _ _ _ (by decide) ?_

theorem execComputeWindowStart_within {d : Dom} {s t : State} (h : execComputeWindowStart d s = .next t) :
    Within 9915670510 s t := by
  cases h
  repeat' first
    | with_reducible exact Within.refl _ _
    | with_reducible refine windowStart_within _ _ (by decide) ?_

theorem execCheckpoint_within {d : Dom} {second : Bool} {s t : State} (h : execCheckpoint d second s = .next t) :
    Within 1057300458 s t := by
  cases h
  repeat' first
    | with_reducible exact Within.refl _ _
    | with_reducible refine checkpoint_within _ _ _ (by decide) ?_

theorem execComputeWindowEnd_within {d : Dom} {s t : State} (h : execComputeWindowEnd d s = .next t) :
    Within 2131042282 s t := by
  cases h
  repeat' first
    | with_reducible exact Within.refl _ _
    | with_reducible refine windowEnd_within _ _ (by decide) ?_

theorem execGuardStart_within {d : Dom} {s t : State} (h : execGuardStart d s = .next t) :
    Within 1325426026 s t := by
  cases h
  repeat' first
    | with_reducible exact Within.refl _ _
    | with_reducible refine guardStart_within _ _ (by decide) ?_

theorem execPtpTimeAcquired_within {d : Dom} {ptpNs : Nat} {s t : State} (h : execPtpTimeAcquired d ptpNs s = .next t) :
    Within 8589934624 s t := by
  cases h
  repeat' first
    | with_reducible exact Within.refl _ _
    | with_reducible refine ptpAcquired_within _ _ _ (by decide) ?_

theorem execPtpSourceLost_within {d : Dom} {s t : State} (h : execPtpSourceLost d s = .next t) :
    Within 117440546 s t := by
  cases h
  repeat' first
    | with_reducible exact Within.refl _ _
    | with_reducible refine ptpLost_within _ _ (by decide) ?_

theorem execPtpSourceReturn_within {d : Dom} {phaseErrNs : Int} {s t : State} (h : execPtpSourceReturn d phaseErrNs s = .next t) :
    Within 117440546 s t := by
  cases h
  repeat' first
    | with_reducible exact Within.refl _ _
    | with_reducible refine ptpReturn_within _ _ _ (by decide) ?_

theorem execPtpMessage_within {p : MPort} {m : PtpMsg} {s t : State} (h : execPtpMessage p m s = .next t) :
    Within 34603008 s t := by
  cases h
  repeat' first
    | with_reducible exact Within.refl _ _
    | with_reducible refine ptpMessage_within _ _ _ (by decide) ?_

theorem execTmm_within {c : Cluster} {w : BitVec 248} {s t : State} (h : execTmm c w s = .next t) :
    Within 251994090 s t := by
  cases h
  repeat' first
    | with_reducible exact Within.refl _ _
    | with_reducible refine issue_within _ _ _ _ (by decide) ?_ ?_
    | with_reducible refine tileIssue_within _ _ _ _ _ _ (by decide) ?_
    | with_reducible intro _

theorem execTgrid_within {c : Cluster} {w : BitVec 248} {s t : State} (h : execTgrid c w s = .next t) :
    Within 251994090 s t := by
  cases h
  repeat' first
    | with_reducible exact Within.refl _ _
    | with_reducible refine issue_within _ _ _ _ (by decide) ?_ ?_
    | with_reducible refine tileIssue_within _ _ _ _ _ _ (by decide) ?_
    | with_reducible intro _

theorem execTileStepRelease_within {c : Cluster} {s t : State} (h : execTileStepRelease c s = .next t) :
    Within 385876706 s t := by
  cases h
  repeat' first
    | with_reducible exact Within.refl _ _
    | with_reducible refine tileRelease_within _ _ (by decide) ?_

theorem execConversionComplete_within {c : Cluster} {slot : Fin 4} {s t : State} (h : execConversionComplete c slot s = .next t) :
    Within 385876706 s t := by
  cases h
  repeat' first
    | with_reducible exact Within.refl _ _
    | with_reducible refine conversionEnd_within _ _ _ (by decide) ?_

theorem execTconv_within {c : Cluster} {w : BitVec 248} {s t : State} (h : execTconv c w s = .next t) :
    Within 251994090 s t := by
  cases h
  repeat' first
    | with_reducible exact Within.refl _ _
    | with_reducible refine issue_within _ _ _ _ (by decide) ?_ ?_
    | with_reducible refine convIssue_within _ _ _ _ _ (by decide) ?_
    | with_reducible refine Within.ite ?_ ?_
    | with_reducible intro _

theorem execTconvPrep_within {c : Cluster} {w : BitVec 248} {s t : State} (h : execTconvPrep c w s = .next t) :
    Within 251994090 s t := by
  cases h
  repeat' first
    | with_reducible exact Within.refl _ _
    | with_reducible refine issue_within _ _ _ _ (by decide) ?_ ?_
    | with_reducible refine convIssue_within _ _ _ _ _ (by decide) ?_
    | with_reducible refine Within.ite ?_ ?_
    | with_reducible intro _

theorem execVew_within {c : Cluster} {w : BitVec 56} {s t : State} (h : execVew c w s = .next t) :
    Within 520429546 s t := by
  cases h
  repeat' first
    | with_reducible exact Within.refl _ _
    | with_reducible refine issue_within _ _ _ _ (by decide) ?_ ?_
    | with_reducible refine vecIssue_within _ _ _ _ _ _ _ (by decide) ?_ ?_
    | with_reducible refine vewRun_within _ _ _ (by decide) ?_
    | with_reducible intro _

theorem execVcvt_within {c : Cluster} {w : BitVec 56} {s t : State} (h : execVcvt c w s = .next t) :
    Within 520429546 s t := by
  cases h
  repeat' first
    | with_reducible exact Within.refl _ _
    | with_reducible refine issue_within _ _ _ _ (by decide) ?_ ?_
    | with_reducible refine vecIssue_within _ _ _ _ _ _ _ (by decide) ?_ ?_
    | with_reducible refine vcvtRun_within _ _ _ (by decide) ?_
    | with_reducible intro _

theorem execVqnt_within {c : Cluster} {w : BitVec 56} {s t : State} (h : execVqnt c w s = .next t) :
    Within 520429546 s t := by
  cases h
  repeat' first
    | with_reducible exact Within.refl _ _
    | with_reducible refine issue_within _ _ _ _ (by decide) ?_ ?_
    | with_reducible refine vecIssue_within _ _ _ _ _ _ _ (by decide) ?_ ?_
    | with_reducible refine vqntRun_within _ _ _ (by decide) ?_
    | with_reducible intro _

theorem execVsf_within {c : Cluster} {w : BitVec 56} {s t : State} (h : execVsf c w s = .next t) :
    Within 520429546 s t := by
  cases h
  repeat' first
    | with_reducible exact Within.refl _ _
    | with_reducible refine issue_within _ _ _ _ (by decide) ?_ ?_
    | with_reducible refine vecIssue_within _ _ _ _ _ _ _ (by decide) ?_ ?_
    | with_reducible refine vsfRun_within _ _ _ (by decide) ?_
    | with_reducible intro _

theorem execVstat_within {c : Cluster} {w : BitVec 56} {s t : State} (h : execVstat c w s = .next t) :
    Within 520429546 s t := by
  cases h
  repeat' first
    | with_reducible exact Within.refl _ _
    | with_reducible refine issue_within _ _ _ _ (by decide) ?_ ?_
    | with_reducible refine vecIssue_within _ _ _ _ _ _ _ (by decide) ?_ ?_
    | with_reducible refine vstatRun_within _ _ _ (by decide) ?_
    | with_reducible refine Within.ite ?_ ?_
    | with_reducible intro _

theorem execVstatPartial_within {c : Cluster} {w : BitVec 56} {s t : State} (h : execVstatPartial c w s = .next t) :
    Within 520429546 s t := by
  cases h
  repeat' first
    | with_reducible exact Within.refl _ _
    | with_reducible refine issue_within _ _ _ _ (by decide) ?_ ?_
    | with_reducible refine vecIssue_within _ _ _ _ _ _ _ (by decide) ?_ ?_
    | with_reducible refine vstatRun_within _ _ _ (by decide) ?_
    | with_reducible refine Within.ite ?_ ?_
    | with_reducible intro _

theorem execVstatCombine_within {c : Cluster} {w : BitVec 56} {s t : State} (h : execVstatCombine c w s = .next t) :
    Within 520429546 s t := by
  cases h
  repeat' first
    | with_reducible exact Within.refl _ _
    | with_reducible refine issue_within _ _ _ _ (by decide) ?_ ?_
    | with_reducible refine vecIssue_within _ _ _ _ _ _ _ (by decide) ?_ ?_
    | with_reducible refine vstatCombineRun_within _ _ _ (by decide) ?_
    | with_reducible refine Within.ite ?_ ?_
    | with_reducible intro _

theorem execVsoft_within {c : Cluster} {w : BitVec 56} {s t : State} (h : execVsoft c w s = .next t) :
    Within 520429546 s t := by
  cases h
  repeat' first
    | with_reducible exact Within.refl _ _
    | with_reducible refine issue_within _ _ _ _ (by decide) ?_ ?_
    | with_reducible refine vecIssue_within _ _ _ _ _ _ _ (by decide) ?_ ?_
    | with_reducible refine vsoftRun_within _ _ _ (by decide) ?_
    | with_reducible refine Within.ite ?_ ?_
    | with_reducible intro _

theorem execVsoftSum_within {c : Cluster} {w : BitVec 56} {s t : State} (h : execVsoftSum c w s = .next t) :
    Within 520429546 s t := by
  cases h
  repeat' first
    | with_reducible exact Within.refl _ _
    | with_reducible refine issue_within _ _ _ _ (by decide) ?_ ?_
    | with_reducible refine vecIssue_within _ _ _ _ _ _ _ (by decide) ?_ ?_
    | with_reducible refine vsoftRun_within _ _ _ (by decide) ?_
    | with_reducible refine Within.ite ?_ ?_
    | with_reducible intro _

theorem execVsoftProb_within {c : Cluster} {w : BitVec 56} {s t : State} (h : execVsoftProb c w s = .next t) :
    Within 520429546 s t := by
  cases h
  repeat' first
    | with_reducible exact Within.refl _ _
    | with_reducible refine issue_within _ _ _ _ (by decide) ?_ ?_
    | with_reducible refine vecIssue_within _ _ _ _ _ _ _ (by decide) ?_ ?_
    | with_reducible refine vsoftProbRun_within _ _ _ (by decide) ?_
    | with_reducible refine Within.ite ?_ ?_
    | with_reducible intro _

theorem execVargmax_within {c : Cluster} {w : BitVec 56} {s t : State} (h : execVargmax c w s = .next t) :
    Within 520429546 s t := by
  cases h
  repeat' first
    | with_reducible exact Within.refl _ _
    | with_reducible refine issue_within _ _ _ _ (by decide) ?_ ?_
    | with_reducible refine vecIssue_within _ _ _ _ _ _ _ (by decide) ?_ ?_
    | with_reducible refine vargmaxRun_within _ _ _ (by decide) ?_
    | with_reducible intro _

theorem execDbox_within {c : Cluster} {w : BitVec 56} {s t : State} (h : execDbox c w s = .next t) :
    Within 520429546 s t := by
  cases h
  repeat' first
    | with_reducible exact Within.refl _ _
    | with_reducible refine issue_within _ _ _ _ (by decide) ?_ ?_
    | with_reducible refine detIssue_within _ _ _ _ _ _ (by decide) ?_
    | with_reducible intro _

theorem execDnms_within {c : Cluster} {w : BitVec 56} {s t : State} (h : execDnms c w s = .next t) :
    Within 520429546 s t := by
  cases h
  repeat' first
    | with_reducible exact Within.refl _ _
    | with_reducible refine issue_within _ _ _ _ (by decide) ?_ ?_
    | with_reducible refine detIssue_within _ _ _ _ _ _ (by decide) ?_
    | with_reducible intro _

theorem execBar_within {c : Cluster} {w : BitVec 56} {s t : State} (h : execBar c w s = .next t) :
    Within 251993578 s t := by
  cases h
  repeat' first
    | with_reducible exact Within.refl _ _
    | with_reducible refine issue_within _ _ _ _ (by decide) ?_ ?_
    | with_reducible refine bar_within _ _ _ _ _ (by decide) ?_
    | with_reducible intro _

theorem execMfence_within {c : Cluster} {_w : BitVec 56} {s t : State} (h : execMfence c _w s = .next t) :
    Within 251993578 s t := by
  cases h
  repeat' first
    | with_reducible exact Within.refl _ _
    | with_reducible refine issue_within _ _ _ _ (by decide) ?_ ?_
    | with_reducible refine mfence_within _ _ _ (by decide) ?_
    | with_reducible intro _

theorem execTfence_within {c : Cluster} {_w : BitVec 56} {s t : State} (h : execTfence c _w s = .next t) :
    Within 251993578 s t := by
  cases h
  repeat' first
    | with_reducible exact Within.refl _ _
    | with_reducible refine issue_within _ _ _ _ (by decide) ?_ ?_
    | with_reducible refine wait_within _ _ _ _ (by decide) ?_
    | with_reducible intro _

theorem execAtom_within {c : Cluster} {w : BitVec 56} {s t : State} (h : execAtom c w s = .next t) :
    Within 252018154 s t := by
  cases h
  repeat' first
    | with_reducible exact Within.refl _ _
    | with_reducible refine issue_within _ _ _ _ (by decide) ?_ ?_
    | with_reducible refine atom_within _ _ _ _ _ (by decide) ?_
    | with_reducible intro _

theorem execLds_within {c : Cluster} {w : BitVec 56} {s t : State} (h : execLds c w s = .next t) :
    Within 251993578 s t := by
  cases h
  repeat' first
    | with_reducible exact Within.refl _ _
    | with_reducible refine issue_within _ _ _ _ (by decide) ?_ ?_
    | with_reducible refine lds_within _ _ _ _ _ (by decide) ?_
    | with_reducible intro _

theorem execSts_within {c : Cluster} {w : BitVec 56} {s t : State} (h : execSts c w s = .next t) :
    Within 520429546 s t := by
  cases h
  repeat' first
    | with_reducible exact Within.refl _ _
    | with_reducible refine issue_within _ _ _ _ (by decide) ?_ ?_
    | with_reducible refine sts_within _ _ _ _ _ (by decide) ?_
    | with_reducible intro _

theorem execSusp_within {c : Cluster} {_w : BitVec 56} {s t : State} (h : execSusp c _w s = .next t) :
    Within 251993578 s t := by
  cases h
  repeat' first
    | with_reducible exact Within.refl _ _
    | with_reducible refine issue_within _ _ _ _ (by decide) ?_ ?_
    | with_reducible refine threadFault_within _ _ _ _ _ _ _ _ (by decide) ?_
    | with_reducible intro _

theorem execExit_within {c : Cluster} {_w : BitVec 56} {s t : State} (h : execExit c _w s = .next t) :
    Within 251993578 s t := by
  cases h
  repeat' first
    | with_reducible exact Within.refl _ _
    | with_reducible refine issue_within _ _ _ _ (by decide) ?_ ?_
    | with_reducible refine exitThread_within _ _ _ (by decide) ?_
    | with_reducible intro _

theorem execScalarAccess_within {c : Cluster} {a : ScalarAcc} {s t : State} (h : execScalarAccess c a s = .next t) :
    Within 252018154 s t := by
  cases h
  repeat' first
    | with_reducible exact Within.refl _ _
    | with_reducible refine issue_within _ _ _ _ (by decide) ?_ ?_
    | with_reducible refine scalar_within _ _ _ _ _ (by decide) ?_
    | with_reducible intro _

theorem execDq_within {c : Cluster} {w : BitVec 56} {s t : State} (h : execDq c w s = .next t) :
    Within 251993582 s t := by
  cases h
  repeat' first
    | with_reducible exact Within.refl _ _
    | with_reducible refine issue_within _ _ _ _ (by decide) ?_ ?_
    | with_reducible refine dq_within _ _ _ _ _ (by decide) ?_
    | with_reducible intro _

theorem execDwait_within {c : Cluster} {_w : BitVec 56} {s t : State} (h : execDwait c _w s = .next t) :
    Within 251993578 s t := by
  cases h
  repeat' first
    | with_reducible exact Within.refl _ _
    | with_reducible refine issue_within _ _ _ _ (by decide) ?_ ?_
    | with_reducible refine dwait_within _ _ _ (by decide) ?_
    | with_reducible intro _

theorem execKvput_within {e : Engine} {s t : State} (h : execKvput e s = .next t) :
    Within 788865006 s t := by
  cases h
  repeat' first
    | with_reducible exact Within.refl _ _
    | with_reducible refine startOp_within _ _ _ _ (by decide) ?_ ?_
    | with_reducible refine runKvput_within _ _ _ (by decide) ?_
    | with_reducible intro _

theorem execKvget_within {e : Engine} {s t : State} (h : execKvget e s = .next t) :
    Within 520429550 s t := by
  cases h
  repeat' first
    | with_reducible exact Within.refl _ _
    | with_reducible refine startOp_within _ _ _ _ (by decide) ?_ ?_
    | with_reducible refine runKvget_within _ _ _ (by decide) ?_
    | with_reducible intro _

theorem execCopy_within {e : Engine} {hostErrAt : Option Nat} {s t : State} (h : execCopy e hostErrAt s = .next t) :
    Within 1057325038 s t := by
  cases h
  repeat' first
    | with_reducible exact Within.refl _ _
    | with_reducible refine startOp_within _ _ _ _ (by decide) ?_ ?_
    | with_reducible refine runCopy_within _ _ _ (by decide) ?_
    | with_reducible intro _

theorem execFmapPack_within {e : Engine} {s t : State} (h : execFmapPack e s = .next t) :
    Within 788865006 s t := by
  cases h
  repeat' first
    | with_reducible exact Within.refl _ _
    | with_reducible refine startOp_within _ _ _ _ (by decide) ?_ ?_
    | with_reducible refine runPack_within _ _ _ (by decide) ?_
    | with_reducible intro _

theorem execFmapUnpack_within {e : Engine} {s t : State} (h : execFmapUnpack e s = .next t) :
    Within 520429550 s t := by
  cases h
  repeat' first
    | with_reducible exact Within.refl _ _
    | with_reducible refine startOp_within _ _ _ _ (by decide) ?_ ?_
    | with_reducible refine runUnpack_within _ _ _ (by decide) ?_
    | with_reducible intro _

theorem execHostIn_within {e : Engine} {hostErrAt : Option Nat} {s t : State} (h : execHostIn e hostErrAt s = .next t) :
    Within 1057300462 s t := by
  cases h
  repeat' first
    | with_reducible exact Within.refl _ _
    | with_reducible refine startOp_within _ _ _ _ (by decide) ?_ ?_
    | with_reducible refine runHostIn_within _ _ _ (by decide) ?_
    | with_reducible intro _

theorem execHostOut_within {e : Engine} {hostErrAt : Option Nat} {s t : State} (h : execHostOut e hostErrAt s = .next t) :
    Within 788865006 s t := by
  cases h
  repeat' first
    | with_reducible exact Within.refl _ _
    | with_reducible refine startOp_within _ _ _ _ (by decide) ?_ ?_
    | with_reducible refine runHostOut_within _ _ _ (by decide) ?_
    | with_reducible intro _

theorem execDmaEngDb_within {n : Engine} {v : Word64} {s t : State} (h : execDmaEngDb n v s = .next t) :
    Within 117442594 s t := by
  cases h
  repeat' first
    | with_reducible exact Within.refl _ _
    | with_reducible refine doorbell_within _ _ _ (by decide) ?_
    | with_reducible refine Within.ite ?_ ?_

theorem execXltResolveRetry_within {tag : BitVec 32} {s t : State} (h : execXltResolveRetry tag s = .next t) :
    Within 1057849322 s t := by
  cases h
  repeat' first
    | with_reducible exact Within.refl _ _
    | with_reducible refine resolveRetry_within _ _ (by decide) ?_
    | with_reducible refine Within.ite ?_ ?_

theorem execXltResolveAbort_within {tag : BitVec 32} {s t : State} (h : execXltResolveAbort tag s = .next t) :
    Within 252018154 s t := by
  cases h
  repeat' first
    | with_reducible exact Within.refl _ _
    | with_reducible refine resolveAbort_within _ _ (by decide) ?_
    | with_reducible refine Within.ite ?_ ?_

theorem execXltInval_within {v : Word64} {s t : State} (h : execXltInval v s = .next t) :
    Within 1024 s t := by
  cases h
  repeat' first
    | with_reducible exact Within.refl _ _
    | with_reducible refine xltInval_within _ _ (by decide) ?_
    | with_reducible refine Within.ite ?_ ?_

theorem execInvalComplete_within  {s t : State} (h : execInvalComplete s = .next t) :
    Within 1024 s t := by
  cases h
  repeat' first
    | with_reducible exact Within.refl _ _
    | with_reducible refine invalComplete_within _ (by decide) ?_

theorem execFaultTimeout_within {tag : BitVec 32} {s t : State} (h : execFaultTimeout tag s = .next t) :
    Within 252018154 s t := by
  cases h
  repeat' first
    | with_reducible exact Within.refl _ _
    | with_reducible refine faultTimeout_within _ _ (by decide) ?_

theorem execPeerFaultTimeout_within {tag : BitVec 32} {s t : State} (h : execPeerFaultTimeout tag s = .next t) :
    Within 251993578 s t := by
  cases h
  repeat' first
    | with_reducible exact Within.refl _ _
    | with_reducible refine peerFaultTimeout_within _ _ (by decide) ?_

theorem execEavesTimeout_within {sector : Nat} {s t : State} (h : execEavesTimeout sector s = .next t) :
    Within 251658530 s t := by
  cases h
  repeat' first
    | with_reducible exact Within.refl _ _
    | with_reducible refine eavesTimeout_within _ _ (by decide) ?_

theorem execScrub_within {ch : Channel} {found : List (Nat × EccKind)} {s t : State} (h : execScrub ch found s = .next t) :
    Within 117440802 s t := by
  cases h
  repeat' first
    | with_reducible exact Within.refl _ _
    | with_reducible refine scrub_within _ _ _ (by decide) ?_

theorem execStackTempSample_within {ts : List Int} {s t : State} (h : execStackTempSample ts s = .next t) :
    Within 2673831850 s t := by
  cases h
  repeat' first
    | with_reducible exact Within.refl _ _
    | with_reducible refine stackTempSample_within _ _ (by decide) ?_

theorem execChannelRetrain_within {ch : Channel} {drift : Bool} {s t : State} (h : execChannelRetrain ch drift s = .next t) :
    Within 2673831842 s t := by
  cases h
  repeat' first
    | with_reducible exact Within.refl _ _
    | with_reducible refine channelRetrain_within _ _ _ (by decide) ?_

theorem execRetrainDone_within {ch : Channel} {trained : Bool} {badLanes : List (Fin 40)} {s t : State} (h : execRetrainDone ch trained badLanes s = .next t) :
    Within 2673831842 s t := by
  cases h
  repeat' first
    | with_reducible exact Within.refl _ _
    | with_reducible refine retrainDone_within _ _ _ _ (by decide) ?_

theorem execLoadComplete_within {m : Model} {failed : Bool} {s t : State} (h : execLoadComplete m failed s = .next t) :
    Within 1056970542 s t := by
  cases h
  repeat' first
    | with_reducible exact Within.refl _ _
    | with_reducible refine loadComplete_within _ _ _ (by decide) ?_

theorem execVerifyComplete_within {m : Model} {s t : State} (h : execVerifyComplete m s = .next t) :
    Within 251663650 s t := by
  cases h
  repeat' first
    | with_reducible exact Within.refl _ _
    | with_reducible refine verifyComplete_within _ _ (by decide) ?_

theorem execRefetchDone_within {m : Model} {y : Nat} {loaded : Bool} {s t : State} (h : execRefetchDone m y loaded s = .next t) :
    Within 1056970542 s t := by
  cases h
  repeat' first
    | with_reducible exact Within.refl _ _
    | with_reducible refine refetchDone_within _ _ _ _ (by decide) ?_

theorem execCopyRetire_within {m : Model} {s t : State} (h : execCopyRetire m s = .next t) :
    Within 251663650 s t := by
  cases h
  repeat' first
    | with_reducible exact Within.refl _ _
    | with_reducible refine copyRetire_within _ _ (by decide) ?_

theorem execFetchFailure_within {m : Model} {y : Nat} {what : FetchFail} {s t : State} (h : execFetchFailure m y what s = .next t) :
    Within 251663650 s t := by
  cases h
  repeat' first
    | with_reducible exact Within.refl _ _
    | with_reducible refine fetchFailure_within _ _ _ _ (by decide) ?_

theorem execFallbackNotice_within {m : Model} {tick : Nat} {s t : State} (h : execFallbackNotice m tick s = .next t) :
    Within 4096 s t := by
  cases h
  repeat' first
    | with_reducible exact Within.refl _ _
    | with_reducible refine fallbackNotice_within _ _ _ (by decide) ?_
    | with_reducible refine Within.ite ?_ ?_

theorem execReturnNotice_within {m : Model} {tick : Nat} {s t : State} (h : execReturnNotice m tick s = .next t) :
    Within 4096 s t := by
  cases h
  repeat' first
    | with_reducible exact Within.refl _ _
    | with_reducible refine returnNotice_within _ _ _ (by decide) ?_
    | with_reducible refine Within.ite ?_ ?_

theorem execSequenceNotice_within {n : Slot} {toFallback : Bool} {tick : Nat} {s t : State} (h : execSequenceNotice n toFallback tick s = .next t) :
    Within 64 s t := by
  cases h
  repeat' first
    | with_reducible exact Within.refl _ _
    | with_reducible refine sequenceNotice_within _ _ _ _ (by decide) ?_
    | with_reducible refine Within.ite ?_ ?_

theorem execFlitReceive_within {l : Link} {flit : BitVec 2048} {s t : State} (h : execFlitReceive l flit s = .next t) :
    Within 117465130 s t := by
  cases h
  repeat' first
    | with_reducible exact Within.refl _ _
    | with_reducible refine flitReceive_within _ _ _ (by decide) ?_
    | with_reducible refine Within.ite ?_ ?_

theorem execRetryRequest_within {l : Link} {fseq : BitVec 12} {s t : State} (h : execRetryRequest l fseq s = .next t) :
    Within 117465130 s t := by
  cases h
  repeat' first
    | with_reducible exact Within.refl _ _
    | with_reducible refine retryRequest_within _ _ _ (by decide) ?_
    | with_reducible refine Within.ite ?_ ?_

theorem execPacketReceive_within {p : NPort} {hdr : BitVec 128} {payload : List Byte} {s t : State} (h : execPacketReceive p hdr payload s = .next t) :
    Within 117465130 s t := by
  cases h
  repeat' first
    | with_reducible exact Within.refl _ _
    | with_reducible refine packetReceive_within _ _ _ _ (by decide) ?_
    | with_reducible refine Within.ite ?_ ?_

theorem execMemRequest_within {src : BitVec 16} {req : BitVec 32} {op : MemOp} {va : BitVec 52} {sectors : Nat} {data : List Byte} {s t : State} (h : execMemRequest src req op va sectors data s = .next t) :
    Within 251684138 s t := by
  cases h
  repeat' first
    | with_reducible exact Within.refl _ _
    | with_reducible refine memRequest_within _ _ _ _ _ _ _ (by decide) ?_
    | with_reducible refine Within.ite ?_ ?_

theorem execMemResponse_within {req : BitVec 32} {status : MemStatus} {data : List Byte} {s t : State} (h : execMemResponse req status data s = .next t) :
    Within 1057849322 s t := by
  cases h
  repeat' first
    | with_reducible exact Within.refl _ _
    | with_reducible refine memResponse_within _ _ _ _ (by decide) ?_

theorem execMemTimeout_within {req : BitVec 32} {s t : State} (h : execMemTimeout req s = .next t) :
    Within 251993578 s t := by
  cases h
  repeat' first
    | with_reducible exact Within.refl _ _
    | with_reducible refine memTimeout_within _ _ (by decide) ?_

theorem execLinkRetrain_within {l : Link} {cause : LinkCause} {s t : State} (h : execLinkRetrain l cause s = .next t) :
    Within 117465130 s t := by
  cases h
  repeat' first
    | with_reducible exact Within.refl _ _
    | with_reducible refine linkRetrain_within _ _ (by decide) ?_
    | with_reducible refine badCodewords_within _ _ _ (by decide) ?_
    | with_reducible refine Within.ite ?_ ?_

theorem execLinkTrainingDone_within {l : Link} {result : LinkTraining} {s t : State} (h : execLinkTrainingDone l result s = .next t) :
    Within 117465130 s t := by
  cases h
  repeat' first
    | with_reducible exact Within.refl _ _
    | with_reducible refine trainingDone_within _ _ _ (by decide) ?_
    | with_reducible refine Within.ite ?_ ?_

theorem execSetCoord_within {inst : Byte} {coord : BitVec 16} {dims : BitVec 16} {s t : State} (h : execSetCoord inst coord dims s = .next t) :
    Within 117497898 s t := by
  cases h
  repeat' first
    | with_reducible exact Within.refl _ _
    | with_reducible refine onTarget_within _ _ (by decide) ?_ ?_
    | with_reducible refine setCoord_within _ _ _ _ (by decide) ?_
    | with_reducible intro _

theorem execCoordWaitTimeout_within  {s t : State} (h : execCoordWaitTimeout s = .next t) :
    Within 117473314 s t := by
  cases h
  repeat' first
    | with_reducible exact Within.refl _ _
    | with_reducible refine coordWait_within _ (by decide) ?_

theorem execAllReduce_within {c : Cluster} {w : BitVec 56} {s t : State} (h : execAllReduce c w s = .next t) :
    Within 520454122 s t := by
  cases h
  repeat' first
    | with_reducible exact Within.refl _ _
    | with_reducible refine issueCq_within _ _ _ _ (by decide) ?_

theorem execReduceScatter_within {c : Cluster} {w : BitVec 56} {s t : State} (h : execReduceScatter c w s = .next t) :
    Within 520454122 s t := by
  cases h
  repeat' first
    | with_reducible exact Within.refl _ _
    | with_reducible refine issueCq_within _ _ _ _ (by decide) ?_

theorem execAllGather_within {c : Cluster} {w : BitVec 56} {s t : State} (h : execAllGather c w s = .next t) :
    Within 520454122 s t := by
  cases h
  repeat' first
    | with_reducible exact Within.refl _ _
    | with_reducible refine issueCq_within _ _ _ _ (by decide) ?_

theorem execAllToAll_within {c : Cluster} {w : BitVec 56} {s t : State} (h : execAllToAll c w s = .next t) :
    Within 520454122 s t := by
  cases h
  repeat' first
    | with_reducible exact Within.refl _ _
    | with_reducible refine issueCq_within _ _ _ _ (by decide) ?_

theorem execBroadcast_within {c : Cluster} {w : BitVec 56} {s t : State} (h : execBroadcast c w s = .next t) :
    Within 520454122 s t := by
  cases h
  repeat' first
    | with_reducible exact Within.refl _ _
    | with_reducible refine issueCq_within _ _ _ _ (by decide) ?_

theorem execDispatch_within {c : Cluster} {w : BitVec 56} {s t : State} (h : execDispatch c w s = .next t) :
    Within 520454122 s t := by
  cases h
  repeat' first
    | with_reducible exact Within.refl _ _
    | with_reducible refine issueCq_within _ _ _ _ (by decide) ?_

theorem execCombine_within {c : Cluster} {w : BitVec 56} {s t : State} (h : execCombine c w s = .next t) :
    Within 520454122 s t := by
  cases h
  repeat' first
    | with_reducible exact Within.refl _ _
    | with_reducible refine issueCq_within _ _ _ _ (by decide) ?_

theorem execCwait_within {c : Cluster} {_w : BitVec 56} {s t : State} (h : execCwait c _w s = .next t) :
    Within 251993578 s t := by
  cases h
  repeat' first
    | with_reducible exact Within.refl _ _
    | with_reducible refine issue_within _ _ _ _ (by decide) ?_ ?_
    | with_reducible refine cwait_within _ _ _ (by decide) ?_
    | with_reducible intro _

theorem execShardReceive_within {sh : Shard} {s t : State} (h : execShardReceive sh s = .next t) :
    Within 520454122 s t := by
  cases h
  repeat' first
    | with_reducible exact Within.refl _ _
    | with_reducible refine shardReceive_within _ _ (by decide) ?_
    | with_reducible refine Within.ite ?_ ?_

theorem execShardAck_within {dst : Nat} {cid : BitVec 32} {shseq : BitVec 32} {s t : State} (h : execShardAck dst cid shseq s = .next t) :
    Within 251748650 s t := by
  cases h
  repeat' first
    | with_reducible exact Within.refl _ _
    | with_reducible refine shardAck_within _ _ _ _ (by decide) ?_
    | with_reducible refine Within.ite ?_ ?_

theorem execShardRetry_within {dst : Nat} {cid : BitVec 32} {shseq : BitVec 32} {s t : State} (h : execShardRetry dst cid shseq s = .next t) :
    Within 251748650 s t := by
  cases h
  repeat' first
    | with_reducible exact Within.refl _ _
    | with_reducible refine shardRetry_within _ _ _ _ (by decide) ?_
    | with_reducible refine Within.ite ?_ ?_

theorem execNotreadyResend_within {dst : Nat} {cid : BitVec 32} {shseq : BitVec 32} {s t : State} (h : execNotreadyResend dst cid shseq s = .next t) :
    Within 251683114 s t := by
  cases h
  repeat' first
    | with_reducible exact Within.refl _ _
    | with_reducible refine notreadyResend_within _ _ _ _ (by decide) ?_
    | with_reducible refine Within.ite ?_ ?_

theorem execCollectiveComplete_within {q : Quad} {cid : BitVec 32} {s t : State} (h : execCollectiveComplete q cid s = .next t) :
    Within 251749802 s t := by
  cases h
  repeat' first
    | with_reducible exact Within.refl _ _
    | with_reducible refine collectiveComplete_within _ _ _ (by decide) ?_
    | with_reducible refine Within.ite ?_ ?_

theorem execCollectiveTimeout_within {q : Quad} {cid : BitVec 32} {s t : State} (h : execCollectiveTimeout q cid s = .next t) :
    Within 520454122 s t := by
  cases h
  repeat' first
    | with_reducible exact Within.refl _ _
    | with_reducible refine collectiveTimeout_within _ _ _ (by decide) ?_
    | with_reducible refine Within.ite ?_ ?_

theorem execPaceNoticeTimer_within  {s t : State} (h : execPaceNoticeTimer s = .next t) :
    Within 117530666 s t := by
  cases h
  repeat' first
    | with_reducible exact Within.refl _ _
    | with_reducible refine paceTimer_within _ (by decide) ?_
    | with_reducible refine Within.ite ?_ ?_

theorem execPaceNotice_within {src : BitVec 16} {sliceId : BitVec 16} {number : Nat} {delayNs : Nat} {s t : State} (h : execPaceNotice src sliceId number delayNs s = .next t) :
    Within 117506082 s t := by
  cases h
  repeat' first
    | with_reducible exact Within.refl _ _
    | with_reducible refine paceNotice_within _ _ _ _ _ (by decide) ?_
    | with_reducible refine Within.ite ?_ ?_

theorem execMirrorReceive_within {slot : Bool} {offs : Nat} {data : Piece} {trailer : Bool} {s t : State} (h : execMirrorReceive slot offs data trailer s = .next t) :
    Within 251815210 s t := by
  cases h
  repeat' first
    | with_reducible exact Within.refl _ _
    | with_reducible refine mirrorReceive_within _ _ _ _ _ (by decide) ?_

theorem execCaptureDone_within  {s t : State} (h : execCaptureDone s = .next t) :
    Within 251790626 s t := by
  cases h
  repeat' first
    | with_reducible exact Within.refl _ _
    | with_reducible refine captureDone_within _ (by decide) ?_

theorem execMirrorTimeout_within  {s t : State} (h : execMirrorTimeout s = .next t) :
    Within 251790626 s t := by
  cases h
  repeat' first
    | with_reducible exact Within.refl _ _
    | with_reducible refine mirrorTimeout_within _ (by decide) ?_

theorem execDrainStart_within {ward : Option Nat} {s t : State} (h : execDrainStart ward s = .next t) :
    Within 251815210 s t := by
  cases h
  repeat' first
    | with_reducible exact Within.refl _ _
    | with_reducible refine drainStart_within _ _ (by decide) ?_

theorem execDrainComplete_within {ward : Option (List Byte)} {ok : Bool} {s t : State} (h : execDrainComplete ward ok s = .next t) :
    Within 251815210 s t := by
  cases h
  repeat' first
    | with_reducible exact Within.refl _ _
    | with_reducible refine drainComplete_within _ _ _ (by decide) ?_

theorem execSnapshotNotice_within {step : Nat} {s t : State} (h : execSnapshotNotice step s = .next t) :
    Within 251790626 s t := by
  cases h
  repeat' first
    | with_reducible exact Within.refl _ _
    | with_reducible refine snapshotNotice_within _ _ (by decide) ?_

theorem execIntervalNotice_within {next : Nat} {f : Nat} {tObs : Nat} {cUs : Nat} {stepUs : Nat} {s t : State} (h : execIntervalNotice next f tObs cUs stepUs s = .next t) :
    Within 251790626 s t := by
  cases h
  repeat' first
    | with_reducible exact Within.refl _ _
    | with_reducible refine intervalNotice_within _ _ _ _ _ _ (by decide) ?_

theorem execObservationSecond_within  {s t : State} (h : execObservationSecond s = .next t) :
    Within 251790626 s t := by
  cases h
  repeat' first
    | with_reducible exact Within.refl _ _
    | with_reducible refine observationSecond_within _ (by decide) ?_

theorem execRestoreComplete_within {data : List (List Byte)} {crcOk : Bool} {buddyHolds : Bool} {s t : State} (h : execRestoreComplete data crcOk buddyHolds s = .next t) :
    Within 251790626 s t := by
  cases h
  repeat' first
    | with_reducible exact Within.refl _ _
    | with_reducible refine restoreComplete_within _ _ _ _ (by decide) ?_

theorem execRestoreRequest_within {src : Nat} {step : Nat} {s t : State} (h : execRestoreRequest src step s = .next t) :
    Within 251684138 s t := by
  cases h
  repeat' first
    | with_reducible exact Within.refl _ _
    | with_reducible refine restoreRequest_within _ _ _ (by decide) ?_

theorem execOpen_within {e : Engine} {s t : State} (h : execOpen e s = .next t) :
    Within 251993582 s t := by
  cases h
  repeat' first
    | with_reducible exact Within.refl _ _
    | with_reducible refine startOp_within _ _ _ _ (by decide) ?_ ?_
    | with_reducible refine runOpen_within _ _ _ (by decide) ?_
    | with_reducible intro _

theorem execClose_within {e : Engine} {s t : State} (h : execClose e s = .next t) :
    Within 251928046 s t := by
  cases h
  repeat' first
    | with_reducible exact Within.refl _ _
    | with_reducible refine startOp_within _ _ _ _ (by decide) ?_ ?_
    | with_reducible refine runClose_within _ _ _ (by decide) ?_
    | with_reducible intro _

theorem execEncode_within {e : Engine} {s t : State} (h : execEncode e s = .next t) :
    Within 251928046 s t := by
  cases h
  repeat' first
    | with_reducible exact Within.refl _ _
    | with_reducible refine startOp_within _ _ _ _ (by decide) ?_ ?_
    | with_reducible refine runEncode_within _ _ _ (by decide) ?_
    | with_reducible intro _

theorem execDecode_within {e : Engine} {au : AccessUnit} {s t : State} (h : execDecode e au s = .next t) :
    Within 251928046 s t := by
  cases h
  repeat' first
    | with_reducible exact Within.refl _ _
    | with_reducible refine startOp_within _ _ _ _ (by decide) ?_ ?_
    | with_reducible refine runDecode_within _ _ _ _ (by decide) ?_
    | with_reducible intro _

theorem execCodecRowSchedule_within {x : Complex} {encoder : Bool} {s t : State} (h : execCodecRowSchedule x encoder s = .next t) :
    Within 788865002 s t := by
  cases h
  repeat' first
    | with_reducible exact Within.refl _ _
    | with_reducible refine rowSchedule_within _ _ _ (by decide) ?_

theorem execCodKeyreq_within {v : Word64} {s t : State} (h : execCodKeyreq v s = .next t) :
    Within 262144 s t := by
  cases h
  repeat' first
    | with_reducible exact Within.refl _ _
    | with_reducible refine codKeyreq_within _ _ (by decide) ?_
    | with_reducible refine Within.ite ?_ ?_

theorem execPlay_within {e : Engine} {s t : State} (h : execPlay e s = .next t) :
    Within 252517870 s t := by
  cases h
  repeat' first
    | with_reducible exact Within.refl _ _
    | with_reducible refine startOp_within _ _ _ _ (by decide) ?_ ?_
    | with_reducible refine runPlay_within _ _ _ (by decide) ?_
    | with_reducible intro _

theorem execInputPacketReceive_within {f : Flow} {port1 : Bool} {seq : BitVec 16} {ssrc : BitVec 32} {marker : Bool} {payload : List Byte} {s t : State} (h : execInputPacketReceive f port1 seq ssrc marker payload s = .next t) :
    Within 117964834 s t := by
  cases h
  repeat' first
    | with_reducible exact Within.refl _ _
    | with_reducible refine inputPacket_within _ _ _ _ _ _ _ (by decide) ?_

theorem execRtpOutAccessUnit_within {f : Flow} {s t : State} (h : execRtpOutAccessUnit f s = .next t) :
    Within 789055274 s t := by
  cases h
  repeat' first
    | with_reducible exact Within.refl _ _
    | with_reducible refine rtpOut_within _ _ (by decide) ?_

theorem execRtpInPacket_within {f : Flow} {seq : BitVec 16} {ssrc : BitVec 32} {ts : BitVec 32} {marker : Bool} {payload : List Byte} {s t : State} (h : execRtpInPacket f seq ssrc ts marker payload s = .next t) :
    Within 789055266 s t := by
  cases h
  repeat' first
    | with_reducible exact Within.refl _ _
    | with_reducible refine rtpIn_within _ _ _ _ _ _ _ (by decide) ?_

theorem execMediaLinkLoss_within {p : MPort} {s t : State} (h : execMediaLinkLoss p s = .next t) :
    Within 118489122 s t := by
  cases h
  repeat' first
    | with_reducible exact Within.refl _ _
    | with_reducible refine mportDown_within _ _ (by decide) ?_

theorem execMediaLinkUp_within {p : MPort} {s t : State} (h : execMediaLinkUp p s = .next t) :
    Within 1048576 s t := by
  cases h
  repeat' first
    | with_reducible exact Within.refl _ _
    | with_reducible refine mportUp_within _ _ (by decide) ?_

theorem execBoot_within {untrainable : List Channel} {s t : State} (h : execBoot untrainable s = .next t) :
    Within 9788457258 s t := by
  cases h
  repeat' first
    | with_reducible exact Within.refl _ _
    | with_reducible refine bootCmd_within _ _ (by decide) ?_

theorem execRepairListTimeout_within  {s t : State} (h : execRepairListTimeout s = .next t) :
    Within 2675928994 s t := by
  cases h
  repeat' first
    | with_reducible exact Within.refl _ _
    | with_reducible refine repairTimeout_within _ (by decide) ?_

theorem execSysRstAssert_within  {s t : State} (h : execSysRstAssert s = .next t) :
    Within 12884901887 s t := by
  cases h
  repeat' first
    | with_reducible exact Within.refl _ _
    | with_reducible refine sysRst_within _ (by decide) ?_

theorem execEndpointReset_within {_kind : EndpointReset} {s t : State} (h : execEndpointReset _kind s = .next t) :
    Within 123732002 s t := by
  cases h
  repeat' first
    | with_reducible exact Within.refl _ _
    | with_reducible refine endpointReset_within _ (by decide) ?_

theorem execBotWin_within {v : Word64} {s t : State} (h : execBotWin v s = .next t) :
    Within 2097152 s t := by
  cases h
  repeat' first
    | with_reducible exact Within.refl _ _
    | with_reducible refine botWin_within _ _ (by decide) ?_

theorem execBar2Access_within {write : Bool} {offs : BitVec 36} {len : Nat} {data : List Byte} {s t : State} (h : execBar2Access write offs len data s = .next t) :
    Within 251658538 s t := by
  cases h
  repeat' first
    | with_reducible exact Within.refl _ _
    | with_reducible refine bar2Access_within _ _ _ _ _ (by decide) ?_

theorem execStorageLinkLoss_within  {s t : State} (h : execStorageLinkLoss s = .next t) :
    Within 121765922 s t := by
  cases h
  repeat' first
    | with_reducible exact Within.refl _ _
    | with_reducible refine storageLoss_within _ (by decide) ?_

theorem execRegisterWrite_within {a : RegPlace} {v : Word64} {s t : State} (h : execRegisterWrite a v s = .next t) :
    Within 1059946474 s t := by
  cases h
  repeat' first
    | with_reducible exact Within.refl _ _
    | with_reducible refine registerWrite_within _ _ _ _ (by decide) ?_

theorem execDynamicAddressAssign_within {setdasa : Bool} {addr : BitVec 7} {s t : State} (h : execDynamicAddressAssign setdasa addr s = .next t) :
    Within 4194304 s t := by
  cases h
  repeat' first
    | with_reducible exact Within.refl _ _
    | with_reducible refine onTarget_within _ _ (by decide) ?_ ?_
    | with_reducible refine assignAddress_within _ _ _ (by decide) ?_
    | with_reducible intro _

theorem execEndpointIdAssign_within {eid : Byte} {s t : State} (h : execEndpointIdAssign eid s = .next t) :
    Within 4194304 s t := by
  cases h
  repeat' first
    | with_reducible exact Within.refl _ _
    | with_reducible refine onTarget_within _ _ (by decide) ?_ ?_
    | with_reducible refine assignEid_within _ _ (by decide) ?_
    | with_reducible intro _

theorem execGetStatus_within {inst : Byte} {s t : State} (h : execGetStatus inst s = .next t) :
    Within 8 s t := by
  cases h
  repeat' first
    | with_reducible exact Within.refl _ _
    | with_reducible refine onTarget_within _ _ (by decide) ?_ ?_
    | with_reducible refine getStatus_within _ _ (by decide) ?_
    | with_reducible intro _

theorem execSetRepairs_within {inst : Byte} {final : Bool} {entries : List Word64} {s t : State} (h : execSetRepairs inst final entries s = .next t) :
    Within 2675929002 s t := by
  cases h
  repeat' first
    | with_reducible exact Within.refl _ _
    | with_reducible refine onTarget_within _ _ (by decide) ?_ ?_
    | with_reducible refine setRepairs_within _ _ _ _ (by decide) ?_
    | with_reducible intro _

theorem execGetRepairs_within {inst : Byte} {first : BitVec 16} {s t : State} (h : execGetRepairs inst first s = .next t) :
    Within 8 s t := by
  cases h
  repeat' first
    | with_reducible exact Within.refl _ _
    | with_reducible refine onTarget_within _ _ (by decide) ?_ ?_
    | with_reducible refine getRepairs_within _ _ _ (by decide) ?_
    | with_reducible intro _

theorem execReadCounters_within {inst : Byte} {first : BitVec 16} {count : Byte} {s t : State} (h : execReadCounters inst first count s = .next t) :
    Within 8 s t := by
  cases h
  repeat' first
    | with_reducible exact Within.refl _ _
    | with_reducible refine onTarget_within _ _ (by decide) ?_ ?_
    | with_reducible refine readCounters_within _ _ _ _ (by decide) ?_
    | with_reducible intro _

theorem execReadReg_within {inst : Byte} {offs : BitVec 32} {s t : State} (h : execReadReg inst offs s = .next t) :
    Within 8 s t := by
  cases h
  repeat' first
    | with_reducible exact Within.refl _ _
    | with_reducible refine onTarget_within _ _ (by decide) ?_ ?_
    | with_reducible refine readRegCmd_within _ _ _ (by decide) ?_
    | with_reducible intro _

theorem execSelectImage_within {inst : Byte} {b : Byte} {s t : State} (h : execSelectImage inst b s = .next t) :
    Within 2097160 s t := by
  cases h
  repeat' first
    | with_reducible exact Within.refl _ _
    | with_reducible refine onTarget_within _ _ (by decide) ?_ ?_
    | with_reducible refine selectImage_within _ _ _ (by decide) ?_
    | with_reducible intro _

theorem execFlashErase_within {inst : Byte} {offs : BitVec 32} {s t : State} (h : execFlashErase inst offs s = .next t) :
    Within 119537706 s t := by
  cases h
  repeat' first
    | with_reducible exact Within.refl _ _
    | with_reducible refine onTarget_within _ _ (by decide) ?_ ?_
    | with_reducible refine flashErase_within _ _ _ (by decide) ?_
    | with_reducible intro _

theorem execFlashWrite_within {inst : Byte} {offs : BitVec 32} {bytes : List Byte} {s t : State} (h : execFlashWrite inst offs bytes s = .next t) :
    Within 119537706 s t := by
  cases h
  repeat' first
    | with_reducible exact Within.refl _ _
    | with_reducible refine onTarget_within _ _ (by decide) ?_ ?_
    | with_reducible refine flashWrite_within _ _ _ _ (by decide) ?_
    | with_reducible intro _

theorem execFlashRead_within {inst : Byte} {offs : BitVec 32} {len : BitVec 16} {s t : State} (h : execFlashRead inst offs len s = .next t) :
    Within 8 s t := by
  cases h
  repeat' first
    | with_reducible exact Within.refl _ _
    | with_reducible refine onTarget_within _ _ (by decide) ?_ ?_
    | with_reducible refine flashRead_within _ _ _ _ (by decide) ?_
    | with_reducible intro _

theorem execSetSvnMin_within {inst : Byte} {svn : Byte} {s t : State} (h : execSetSvnMin inst svn s = .next t) :
    Within 4297064456 s t := by
  cases h
  repeat' first
    | with_reducible exact Within.refl _ _
    | with_reducible refine onTarget_within _ _ (by decide) ?_ ?_
    | with_reducible refine setSvnMin_within _ _ _ (by decide) ?_
    | with_reducible intro _

theorem execRevokeKey_within {inst : Byte} {slot : Byte} {s t : State} (h : execRevokeKey inst slot s = .next t) :
    Within 4297064456 s t := by
  cases h
  repeat' first
    | with_reducible exact Within.refl _ _
    | with_reducible refine onTarget_within _ _ (by decide) ?_ ?_
    | with_reducible refine revokeKey_within _ _ _ (by decide) ?_
    | with_reducible intro _

theorem execReset_within {inst : Byte} {s t : State} (h : execReset inst s = .next t) :
    Within 12884901887 s t := by
  cases h
  repeat' first
    | with_reducible exact Within.refl _ _
    | with_reducible refine onTarget_within _ _ (by decide) ?_ ?_
    | with_reducible refine resetCmd_within _ _ (by decide) ?_
    | with_reducible intro _

theorem execRailSample_within {inTolerance : List Bool} {s t : State} (h : execRailSample inTolerance s = .next t) :
    Within 12884901887 s t := by
  cases h
  repeat' first
    | with_reducible exact Within.refl _ _
    | with_reducible refine railSample_within _ _ (by decide) ?_

theorem execVaonRecover_within  {s t : State} (h : execVaonRecover s = .next t) :
    Within 9788457002 s t := by
  cases h
  repeat' first
    | with_reducible exact Within.refl _ _
    | with_reducible refine vaonRecover_within _ (by decide) ?_

theorem execDieTempSample_within {cd : List Int} {bd : List Int} {iod : Int} {s t : State} (h : execDieTempSample cd bd iod s = .next t) :
    Within 2673831850 s t := by
  cases h
  repeat' first
    | with_reducible exact Within.refl _ _
    | with_reducible refine dieTempSample_within _ _ _ _ (by decide) ?_

theorem execPowerSample_within {watts : Nat} {s t : State} (h : execPowerSample watts s = .next t) :
    Within 2673831842 s t := by
  cases h
  repeat' first
    | with_reducible exact Within.refl _ _
    | with_reducible refine powerSample_within _ _ (by decide) ?_

theorem execOpticalTempSample_within {links : List Int} {media : List Int} {s t : State} (h : execOpticalTempSample links media s = .next t) :
    Within 118513706 s t := by
  cases h
  repeat' first
    | with_reducible exact Within.refl _ _
    | with_reducible refine opticalTempSample_within _ _ _ (by decide) ?_

theorem execExitAttempt_within {untrainable : List Channel} {railsBad : Bool} {s t : State} (h : execExitAttempt untrainable railsBad s = .next t) :
    Within 11265900522 s t := by
  cases h
  repeat' first
    | with_reducible exact Within.refl _ _
    | with_reducible refine exitAttempt_within _ _ _ (by decide) ?_

theorem execSysclk25Stop_within  {s t : State} (h : execSysclk25Stop s = .next t) :
    Within 12884901887 s t := by
  cases h
  repeat' first
    | with_reducible exact Within.refl _ _
    | with_reducible refine sysclkStop_within _ (by decide) ?_

theorem execPeRefclkStop_within  {s t : State} (h : execPeRefclkStop s = .next t) :
    Within 123863074 s t := by
  cases h
  repeat' first
    | with_reducible exact Within.refl _ _
    | with_reducible refine storageLoss_within _ (by decide) ?_
    | with_reducible refine endpointReset_within _ (by decide) ?_

theorem execRefclk156LStop_within  {s t : State} (h : execRefclk156LStop s = .next t) :
    Within 117465130 s t := by
  cases h
  repeat' first
    | with_reducible exact Within.refl _ _
    | with_reducible refine refclkLStop_within _ (by decide) ?_
    | with_reducible refine Within.ite ?_ ?_

theorem execRefclk156MStop_within  {s t : State} (h : execRefclk156MStop s = .next t) :
    Within 118489122 s t := by
  cases h
  repeat' first
    | with_reducible exact Within.refl _ _
    | with_reducible refine refclkMStop_within _ (by decide) ?_

theorem execObsFilter_within {v : Word64} {s t : State} (h : execObsFilter v s = .next t) :
    Within 117440546 s t := by
  cases h
  repeat' first
    | with_reducible exact Within.refl _ _
    | with_reducible refine obsFilter_within _ _ (by decide) ?_

theorem execObsRing_within {v : Word64} {s t : State} (h : execObsRing v s = .next t) :
    Within 117440546 s t := by
  cases h
  repeat' first
    | with_reducible exact Within.refl _ _
    | with_reducible refine obsRing_within _ _ (by decide) ?_

theorem execObsCons_within {v : Word64} {s t : State} (h : execObsCons v s = .next t) :
    Within 117440546 s t := by
  cases h
  repeat' first
    | with_reducible exact Within.refl _ _
    | with_reducible refine obsCons_within _ _ (by decide) ?_

theorem execTraceDomainPowered_within  {s t : State} (h : execTraceDomainPowered s = .next t) :
    Within 33554432 s t := by
  cases h
  repeat' first
    | with_reducible exact Within.refl _ _
    | with_reducible refine traceDomainPowered_within _ (by decide) ?_

theorem execTraceRecordWrite_within  {s t : State} (h : execTraceRecordWrite s = .next t) :
    Within 654311970 s t := by
  cases h
  repeat' first
    | with_reducible exact Within.refl _ _
    | with_reducible refine traceWrite_within _ (by decide) ?_

theorem execTraceWriteError_within  {s t : State} (h : execTraceWriteError s = .next t) :
    Within 117440546 s t := by
  cases h
  repeat' first
    | with_reducible exact Within.refl _ _
    | with_reducible refine traceError_within _ (by decide) ?_

theorem execEventRecordWrite_within  {s t : State} (h : execEventRecordWrite s = .next t) :
    Within 603980296 s t := by
  cases h
  repeat' first
    | with_reducible exact Within.refl _ _
    | with_reducible refine eventWrite_within _ (by decide) ?_

theorem execEvent_within  {s t : State} (h : execEvent s = .next t) :
    Within 67108872 s t := by
  cases h
  repeat' first
    | with_reducible exact Within.refl _ _
    | with_reducible refine eventSend_within _ (by decide) ?_

theorem execEvtRing_within {v : Word64} {s t : State} (h : execEvtRing v s = .next t) :
    Within 67108864 s t := by
  cases h
  repeat' first
    | with_reducible exact Within.refl _ _
    | with_reducible refine evtRing_within _ _ (by decide) ?_

theorem execEvtCons_within {v : Word64} {s t : State} (h : execEvtCons v s = .next t) :
    Within 67108864 s t := by
  cases h
  repeat' first
    | with_reducible exact Within.refl _ _
    | with_reducible refine evtCons_within _ _ (by decide) ?_

theorem execEndpointLinkUp_within  {s t : State} (h : execEndpointLinkUp s = .next t) :
    Within 71303168 s t := by
  cases h
  repeat' first
    | with_reducible exact Within.refl _ _
    | with_reducible refine endpointLinkUp_within _ (by decide) ?_

theorem execStorageLinkUp_within {conforms : Bool} {nsze : Nat} {s t : State} (h : execStorageLinkUp conforms nsze s = .next t) :
    Within 255984930 s t := by
  cases h
  repeat' first
    | with_reducible exact Within.refl _ _
    | with_reducible refine storageUp_within _ _ _ (by decide) ?_

theorem execSysclk25Return_within  {s t : State} (h : execSysclk25Return s = .next t) :
    Within 9788457002 s t := by
  cases h
  repeat' first
    | with_reducible exact Within.refl _ _
    | with_reducible refine sysclkReturn_within _ (by decide) ?_

theorem execTestPortClock_within {tms : Bool} {tdi : Bool} {trstN : Bool} {pins : List Bool} {s t : State} (h : execTestPortClock tms tdi trstN pins s = .next t) :
    Within 8388618 s t := by
  cases h
  repeat' first
    | with_reducible exact Within.refl _ _
    | with_reducible refine testPortClock_within _ _ _ _ _ (by decide) ?_

end Sys2Proof.Machine
end

