-- ==== Sys2Proof/Laws/Idle.lean ====
section
/-! SUPPORT. What each operation of Machine/Idle.lean may change: see Laws/Within.lean. -/

namespace Sys2Proof.Machine

theorem tick40_within {M : Nat} {s0 : State} (s : State) (hm : 16 ||| M = M)
    (h : Within M s0 s) : Within M s0 (tick40 s) := by
  refine h.after hm ?_
  clear h hm
  unfold tick40
  try dsimp only
  repeat' first
    | with_reducible exact Within.refl _ _
    | with_reducible refine Within.ite ?_ ?_
    | with_reducible refine Within.at_time (by decide)  ?_

theorem sigIfDue_within {M : Nat} {s0 : State} (s : State) (hm : 67108872 ||| M = M)
    (h : Within M s0 s) : Within M s0 (sigIfDue s) := by
  refine h.after hm ?_
  clear h hm
  unfold sigIfDue
  try dsimp only
  repeat' first
    | with_reducible exact Within.refl _ _
    | with_reducible refine evSignal_within _ (by decide) ?_
    | with_reducible refine Within.ite ?_ ?_

theorem ctrGrow_within {M : Nat} {s0 : State} (s : State) (i : Nat) (n : Nat) (hm : 33554432 ||| M = M)
    (h : Within M s0 s) : Within M s0 (ctrGrow s i n) := by
  refine h.after hm ?_
  clear h hm
  unfold ctrGrow
  try dsimp only
  repeat' first
    | with_reducible exact Within.refl _ _
    | with_reducible refine ctrAdd_within _ _ _ (by decide) ?_
    | with_reducible refine Within.ite ?_ ?_

theorem microCounters_within {M : Nat} {s0 : State} (s : State) (hm : 33554432 ||| M = M)
    (h : Within M s0 s) : Within M s0 (microCounters s) := by
  refine h.after hm ?_
  clear h hm
  unfold microCounters
  try dsimp only
  repeat' first
    | with_reducible exact Within.refl _ _
    | with_reducible refine each_within _ _ _ (by decide) ?_ ?_
    | with_reducible refine ctrGrow_within _ _ _ (by decide) ?_
    | with_reducible intro _

theorem microDue_within {M : Nat} {s0 : State} (before : Nat) (s : State) (hm : 33554432 ||| M = M)
    (h : Within M s0 s) : Within M s0 (microDue before s) := by
  refine h.after hm ?_
  clear h hm
  unfold microDue
  try dsimp only
  repeat' first
    | with_reducible exact Within.refl _ _
    | with_reducible refine microCounters_within _ (by decide) ?_
    | with_reducible refine Within.ite ?_ ?_

theorem idle_within {M : Nat} {s0 : State} (s : State) (hm : 256074042 ||| M = M)
    (h : Within M s0 s) : Within M s0 (idle s) := by
  refine h.after hm ?_
  clear h hm
  unfold idle
  try dsimp only
  repeat' first
    | with_reducible exact Within.refl _ _
    | with_reducible refine storeDue_within _ (by decide) ?_
    | with_reducible refine sigIfDue_within _ (by decide) ?_
    | with_reducible refine microDue_within _ _ (by decide) ?_
    | with_reducible refine tick40_within _ (by decide) ?_
    | with_reducible refine pump_within _ (by decide) ?_
    | with_reducible refine Within.ite ?_ ?_

end Sys2Proof.Machine
end

