-- ==== Sys2Proof/Laws/PerInstr.lean ====
section
/-! SUPPORT. One family of facts about every command as syntax: the commands that burn a fuse are none of those that move a
tick or keep-alive mode. -/

namespace Sys2Proof.Laws.Fuse

open Sys2Proof Sys2Proof.Machine

/-- A command that burns a fuse moves no tick and no keep-alive mode. -/
def Statement (i : Instr) : Prop := burnsFuse i = true → movesTick i = false ∧ movesKeepalive i = false

theorem tickBoundary (d : Dom) : Statement (.tickBoundary d) := nofun
theorem admitSlot (d : Dom) : Statement (.admitSlot d) := nofun
theorem depart (d : Dom) : Statement (.depart d) := nofun
theorem chunkBegin (d : Dom) : Statement (.chunkBegin d) := nofun
theorem chunkEnd (d : Dom) : Statement (.chunkEnd d) := nofun
theorem work (d : Dom) : Statement (.work d) := nofun
theorem computeWindowStart (d : Dom) : Statement (.computeWindowStart d) := nofun
theorem checkpoint (d : Dom) (second : Bool) : Statement (.checkpoint d second) := nofun
theorem computeWindowEnd (d : Dom) : Statement (.computeWindowEnd d) := nofun
theorem guardStart (d : Dom) : Statement (.guardStart d) := nofun
theorem ptpTimeAcquired (d : Dom) (ptpNs : Nat) : Statement (.ptpTimeAcquired d ptpNs) := nofun
theorem ptpSourceLost (d : Dom) : Statement (.ptpSourceLost d) := nofun
theorem ptpSourceReturn (d : Dom) (phaseErrNs : Int) : Statement (.ptpSourceReturn d phaseErrNs) := nofun
theorem ptpMessage (p : MPort) (m : PtpMsg) : Statement (.ptpMessage p m) := nofun
theorem tmm (c : Cluster) (w : BitVec 248) : Statement (.tmm c w) := nofun
theorem tgrid (c : Cluster) (w : BitVec 248) : Statement (.tgrid c w) := nofun
theorem tileStepRelease (c : Cluster) : Statement (.tileStepRelease c) := nofun
theorem conversionComplete (c : Cluster) (slot : Fin 4) : Statement (.conversionComplete c slot) := nofun
theorem tconv (c : Cluster) (w : BitVec 248) : Statement (.tconv c w) := nofun
theorem tconvPrep (c : Cluster) (w : BitVec 248) : Statement (.tconvPrep c w) := nofun
theorem vew (c : Cluster) (w : BitVec 56) : Statement (.vew c w) := nofun
theorem vcvt (c : Cluster) (w : BitVec 56) : Statement (.vcvt c w) := nofun
theorem vqnt (c : Cluster) (w : BitVec 56) : Statement (.vqnt c w) := nofun
theorem vsf (c : Cluster) (w : BitVec 56) : Statement (.vsf c w) := nofun
theorem vstat (c : Cluster) (w : BitVec 56) : Statement (.vstat c w) := nofun
theorem vstatPartial (c : Cluster) (w : BitVec 56) : Statement (.vstatPartial c w) := nofun
theorem vstatCombine (c : Cluster) (w : BitVec 56) : Statement (.vstatCombine c w) := nofun
theorem vsoft (c : Cluster) (w : BitVec 56) : Statement (.vsoft c w) := nofun
theorem vsoftSum (c : Cluster) (w : BitVec 56) : Statement (.vsoftSum c w) := nofun
theorem vsoftProb (c : Cluster) (w : BitVec 56) : Statement (.vsoftProb c w) := nofun
theorem vargmax (c : Cluster) (w : BitVec 56) : Statement (.vargmax c w) := nofun
theorem dbox (c : Cluster) (w : BitVec 56) : Statement (.dbox c w) := nofun
theorem dnms (c : Cluster) (w : BitVec 56) : Statement (.dnms c w) := nofun
theorem bar (c : Cluster) (w : BitVec 56) : Statement (.bar c w) := nofun
theorem mfence (c : Cluster) (w : BitVec 56) : Statement (.mfence c w) := nofun
theorem tfence (c : Cluster) (w : BitVec 56) : Statement (.tfence c w) := nofun
theorem atom (c : Cluster) (w : BitVec 56) : Statement (.atom c w) := nofun
theorem lds (c : Cluster) (w : BitVec 56) : Statement (.lds c w) := nofun
theorem sts (c : Cluster) (w : BitVec 56) : Statement (.sts c w) := nofun
theorem susp (c : Cluster) (w : BitVec 56) : Statement (.susp c w) := nofun
theorem exit (c : Cluster) (w : BitVec 56) : Statement (.exit c w) := nofun
theorem scalarAccess (c : Cluster) (a : ScalarAcc) : Statement (.scalarAccess c a) := nofun
theorem dq (c : Cluster) (w : BitVec 56) : Statement (.dq c w) := nofun
theorem dwait (c : Cluster) (w : BitVec 56) : Statement (.dwait c w) := nofun
theorem kvput (e : Engine) : Statement (.kvput e) := nofun
theorem kvget (e : Engine) : Statement (.kvget e) := nofun
theorem copy (e : Engine) (hostErrAt : Option Nat) : Statement (.copy e hostErrAt) := nofun
theorem fmapPack (e : Engine) : Statement (.fmapPack e) := nofun
theorem fmapUnpack (e : Engine) : Statement (.fmapUnpack e) := nofun
theorem hostIn (e : Engine) (hostErrAt : Option Nat) : Statement (.hostIn e hostErrAt) := nofun
theorem hostOut (e : Engine) (hostErrAt : Option Nat) : Statement (.hostOut e hostErrAt) := nofun
theorem dmaEngDb (n : Engine) (v : Word64) : Statement (.dmaEngDb n v) := nofun
theorem xltResolveRetry (tag : BitVec 32) : Statement (.xltResolveRetry tag) := nofun
theorem xltResolveAbort (tag : BitVec 32) : Statement (.xltResolveAbort tag) := nofun
theorem xltInval (v : Word64) : Statement (.xltInval v) := nofun
theorem invalComplete : Statement .invalComplete := nofun
theorem faultTimeout (tag : BitVec 32) : Statement (.faultTimeout tag) := nofun
theorem peerFaultTimeout (tag : BitVec 32) : Statement (.peerFaultTimeout tag) := nofun
theorem eavesTimeout (sector : Nat) : Statement (.eavesTimeout sector) := nofun
theorem scrub (ch : Channel) (found : List (Nat × EccKind)) : Statement (.scrub ch found) := nofun
theorem stackTempSample (ts : List Int) : Statement (.stackTempSample ts) := nofun
theorem channelRetrain (ch : Channel) (drift : Bool) : Statement (.channelRetrain ch drift) := nofun
theorem retrainDone (ch : Channel) (trained : Bool) (badLanes : List (Fin 40)) : Statement (.retrainDone ch trained badLanes) := nofun
theorem loadComplete (m : Model) (failed : Bool) : Statement (.loadComplete m failed) := nofun
theorem verifyComplete (m : Model) : Statement (.verifyComplete m) := nofun
theorem refetchDone (m : Model) (y : Nat) (loaded : Bool) : Statement (.refetchDone m y loaded) := nofun
theorem copyRetire (m : Model) : Statement (.copyRetire m) := nofun
theorem fetchFailure (m : Model) (y : Nat) (what : FetchFail) : Statement (.fetchFailure m y what) := nofun
theorem fallbackNotice (m : Model) (tick : Nat) : Statement (.fallbackNotice m tick) := nofun
theorem returnNotice (m : Model) (tick : Nat) : Statement (.returnNotice m tick) := nofun
theorem sequenceNotice (n : Slot) (toFallback : Bool) (tick : Nat) : Statement (.sequenceNotice n toFallback tick) := nofun
theorem flitReceive (l : Link) (flit : BitVec 2048) : Statement (.flitReceive l flit) := nofun
theorem retryRequest (l : Link) (fseq : BitVec 12) : Statement (.retryRequest l fseq) := nofun
theorem packetReceive (p : NPort) (hdr : BitVec 128) (payload : List Byte) : Statement (.packetReceive p hdr payload) := nofun
theorem memRequest (src : BitVec 16) (req : BitVec 32) (op : MemOp) (va : BitVec 52) (sectors : Nat) (data : List Byte) : Statement (.memRequest src req op va sectors data) := nofun
theorem memResponse (req : BitVec 32) (status : MemStatus) (data : List Byte) : Statement (.memResponse req status data) := nofun
theorem memTimeout (req : BitVec 32) : Statement (.memTimeout req) := nofun
theorem linkRetrain (l : Link) (cause : LinkCause) : Statement (.linkRetrain l cause) := nofun
theorem linkTrainingDone (l : Link) (result : LinkTraining) : Statement (.linkTrainingDone l result) := nofun
theorem setCoord (inst : Byte) (coord dims : BitVec 16) : Statement (.setCoord inst coord dims) := nofun
theorem coordWaitTimeout : Statement .coordWaitTimeout := nofun
theorem allReduce (c : Cluster) (w : BitVec 56) : Statement (.allReduce c w) := nofun
theorem reduceScatter (c : Cluster) (w : BitVec 56) : Statement (.reduceScatter c w) := nofun
theorem allGather (c : Cluster) (w : BitVec 56) : Statement (.allGather c w) := nofun
theorem allToAll (c : Cluster) (w : BitVec 56) : Statement (.allToAll c w) := nofun
theorem broadcast (c : Cluster) (w : BitVec 56) : Statement (.broadcast c w) := nofun
theorem dispatch (c : Cluster) (w : BitVec 56) : Statement (.dispatch c w) := nofun
theorem combine (c : Cluster) (w : BitVec 56) : Statement (.combine c w) := nofun
theorem cwait (c : Cluster) (w : BitVec 56) : Statement (.cwait c w) := nofun
theorem shardReceive (sh : Shard) : Statement (.shardReceive sh) := nofun
theorem shardAck (dst : Nat) (cid shseq : BitVec 32) : Statement (.shardAck dst cid shseq) := nofun
theorem shardRetry (dst : Nat) (cid shseq : BitVec 32) : Statement (.shardRetry dst cid shseq) := nofun
theorem notreadyResend (dst : Nat) (cid shseq : BitVec 32) : Statement (.notreadyResend dst cid shseq) := nofun
theorem collectiveComplete (q : Quad) (cid : BitVec 32) : Statement (.collectiveComplete q cid) := nofun
theorem collectiveTimeout (q : Quad) (cid : BitVec 32) : Statement (.collectiveTimeout q cid) := nofun
theorem paceNoticeTimer : Statement .paceNoticeTimer := nofun
theorem paceNotice (src : BitVec 16) (sliceId : BitVec 16) (number : Nat) (delayNs : Nat) : Statement (.paceNotice src sliceId number delayNs) := nofun
theorem mirrorReceive (slot : Bool) (offs : Nat) (data : Piece) (trailer : Bool) : Statement (.mirrorReceive slot offs data trailer) := nofun
theorem captureDone : Statement .captureDone := nofun
theorem mirrorTimeout : Statement .mirrorTimeout := nofun
theorem drainStart (ward : Option Nat) : Statement (.drainStart ward) := nofun
theorem drainComplete (ward : Option (List Byte)) (ok : Bool) : Statement (.drainComplete ward ok) := nofun
theorem snapshotNotice (step : Nat) : Statement (.snapshotNotice step) := nofun
theorem intervalNotice (next f tObs cUs stepUs : Nat) : Statement (.intervalNotice next f tObs cUs stepUs) := nofun
theorem observationSecond : Statement .observationSecond := nofun
theorem restoreComplete (data : List (List Byte)) (crcOk : Bool) (buddyHolds : Bool) : Statement (.restoreComplete data crcOk buddyHolds) := nofun
theorem restoreRequest (src : Nat) (step : Nat) : Statement (.restoreRequest src step) := nofun
theorem open_ (e : Engine) : Statement (.open_ e) := nofun
theorem close (e : Engine) : Statement (.close e) := nofun
theorem encode (e : Engine) : Statement (.encode e) := nofun
theorem decode (e : Engine) (au : AccessUnit) : Statement (.decode e au) := nofun
theorem codecRowSchedule (x : Complex) (encoder : Bool) : Statement (.codecRowSchedule x encoder) := nofun
theorem codKeyreq (v : Word64) : Statement (.codKeyreq v) := nofun
theorem play (e : Engine) : Statement (.play e) := nofun
theorem inputPacketReceive (f : Flow) (port1 : Bool) (seq : BitVec 16) (ssrc : BitVec 32) (marker : Bool) (payload : List Byte) : Statement (.inputPacketReceive f port1 seq ssrc marker payload) := nofun
theorem rtpOutAccessUnit (f : Flow) : Statement (.rtpOutAccessUnit f) := nofun
theorem rtpInPacket (f : Flow) (seq : BitVec 16) (ssrc ts : BitVec 32) (marker : Bool) (payload : List Byte) : Statement (.rtpInPacket f seq ssrc ts marker payload) := nofun
theorem mediaLinkLoss (p : MPort) : Statement (.mediaLinkLoss p) := nofun
theorem mediaLinkUp (p : MPort) : Statement (.mediaLinkUp p) := nofun
theorem boot (untrainable : List Channel) : Statement (.boot untrainable) := nofun
theorem repairListTimeout : Statement .repairListTimeout := nofun
theorem sysRstAssert : Statement .sysRstAssert := nofun
theorem endpointReset (kind : EndpointReset) : Statement (.endpointReset kind) := nofun
theorem botWin (v : Word64) : Statement (.botWin v) := nofun
theorem bar2Access (write : Bool) (offs : BitVec 36) (len : Nat) (data : List Byte) : Statement (.bar2Access write offs len data) := nofun
theorem storageLinkLoss : Statement .storageLinkLoss := nofun
theorem registerWrite (offs : RegPlace) (v : Word64) : Statement (.registerWrite offs v) := nofun
theorem dynamicAddressAssign (setdasa : Bool) (addr : BitVec 7) : Statement (.dynamicAddressAssign setdasa addr) := nofun
theorem endpointIdAssign (eid : Byte) : Statement (.endpointIdAssign eid) := nofun
theorem getStatus (inst : Byte) : Statement (.getStatus inst) := nofun
theorem setRepairs (inst : Byte) (final : Bool) (entries : List Word64) : Statement (.setRepairs inst final entries) := nofun
theorem getRepairs (inst : Byte) (first : BitVec 16) : Statement (.getRepairs inst first) := nofun
theorem readCounters (inst : Byte) (first : BitVec 16) (count : Byte) : Statement (.readCounters inst first count) := nofun
theorem readReg (inst : Byte) (offs : BitVec 32) : Statement (.readReg inst offs) := nofun
theorem selectImage (inst : Byte) (b : Byte) : Statement (.selectImage inst b) := nofun
theorem flashErase (inst : Byte) (offs : BitVec 32) : Statement (.flashErase inst offs) := nofun
theorem flashWrite (inst : Byte) (offs : BitVec 32) (bytes : List Byte) : Statement (.flashWrite inst offs bytes) := nofun
theorem flashRead (inst : Byte) (offs : BitVec 32) (len : BitVec 16) : Statement (.flashRead inst offs len) := nofun
theorem setSvnMin (inst : Byte) (svn : Byte) : Statement (.setSvnMin inst svn) := fun _ => ⟨rfl, rfl⟩
theorem revokeKey (inst : Byte) (slot : Byte) : Statement (.revokeKey inst slot) := fun _ => ⟨rfl, rfl⟩
theorem reset (inst : Byte) : Statement (.reset inst) := nofun
theorem railSample (inTolerance : List Bool) : Statement (.railSample inTolerance) := nofun
theorem vaonRecover : Statement .vaonRecover := nofun
theorem dieTempSample (cd bd : List Int) (iod : Int) : Statement (.dieTempSample cd bd iod) := nofun
theorem powerSample (watts : Nat) : Statement (.powerSample watts) := nofun
theorem opticalTempSample (links media : List Int) : Statement (.opticalTempSample links media) := nofun
theorem exitAttempt (untrainable : List Channel) (railsBad : Bool) : Statement (.exitAttempt untrainable railsBad) := nofun
theorem sysclk25Stop : Statement .sysclk25Stop := nofun
theorem peRefclkStop : Statement .peRefclkStop := nofun
theorem refclk156LStop : Statement .refclk156LStop := nofun
theorem refclk156MStop : Statement .refclk156MStop := nofun
theorem obsFilter (v : Word64) : Statement (.obsFilter v) := nofun
theorem obsRing (v : Word64) : Statement (.obsRing v) := nofun
theorem obsCons (v : Word64) : Statement (.obsCons v) := nofun
theorem traceDomainPowered : Statement .traceDomainPowered := nofun
theorem traceRecordWrite : Statement .traceRecordWrite := nofun
theorem traceWriteError : Statement .traceWriteError := nofun
theorem eventRecordWrite : Statement .eventRecordWrite := nofun
theorem event : Statement .event := nofun
theorem evtRing (v : Word64) : Statement (.evtRing v) := nofun
theorem evtCons (v : Word64) : Statement (.evtCons v) := nofun
theorem endpointLinkUp : Statement .endpointLinkUp := nofun
theorem storageLinkUp (conforms : Bool) (nsze : Nat) : Statement (.storageLinkUp conforms nsze) := nofun
theorem sysclk25Return : Statement .sysclk25Return := nofun
theorem testPortClock (tms tdi trstN : Bool) (pins : List Bool) : Statement (.testPortClock tms tdi trstN pins) := nofun

end Sys2Proof.Laws.Fuse
end

