-- ==== Sys2Proof/Laws/Reads.lean ====
section
/-! SUPPORT. What reads give where the stacks hold no error, no poison and no open eaves entry: the bytes that stand there,
whatever the caches keep. -/

namespace Sys2Proof.Machine

/-- The stacks are on and hold no error, no poison and no open eaves entry. -/
def Quiet (s : State) : Prop := s.mem.on = true ∧ s.mem.eaves = [] ∧ s.mem.eccErr = [] ∧ s.mem.poison = []

/-- Only the free values drawn, the counters and traces, the cached lines and the cached translations differ. -/
def AfterReads (s t : State) : Prop :=
  t = { s with free := t.free, obs := t.obs, mem := { s.mem with lines := t.mem.lines },
               xlt := { s.xlt with tlb := t.xlt.tlb } }

theorem AfterReads.refl (s : State) : AfterReads s s := rfl

theorem AfterReads.trans {s t u : State} (h : AfterReads s t) (k : AfterReads t u) : AfterReads s u := by
  unfold AfterReads at *
  rw [k, h]

theorem Quiet.after {s t : State} (h : Quiet s) (k : AfterReads s t) : Quiet t := by
  unfold AfterReads at k
  rw [k]; exact h

theorem AfterReads.stack {s t : State} (k : AfterReads s t) : t.mem.stack = s.mem.stack := by
  unfold AfterReads at k
  rw [k]

theorem AfterReads.param {s t : State} (k : AfterReads s t) (i : Nat) : param t i = param s i := by
  unfold AfterReads at k
  rw [k]; rfl

theorem AfterReads.self {s t : State} (k : AfterReads s t) : t.self = s.self := by
  unfold AfterReads at k
  rw [k]

theorem AfterReads.seqAt {s t : State} (k : AfterReads s t) (n : Nat) : seqAt t n = seqAt s n := by
  unfold AfterReads at k
  rw [k]; rfl

theorem AfterReads.cod {s t : State} (k : AfterReads s t) : t.cod = s.cod := by
  unfold AfterReads at k
  rw [k]

theorem ctrAdd_afterReads (s : State) (i n : Nat) : AfterReads s (ctrAdd s i n) := by
  unfold AfterReads ctrAdd
  repeat' first | rfl | split

theorem ctrAdd_tlb (s : State) (i n : Nat) : (ctrAdd s i n).xlt.tlb = s.xlt.tlb := by
  rw [ctrAdd_afterReads]
  unfold ctrAdd
  repeat' first | rfl | split

theorem chanRead_quiet {s : State} (h : Quiet s) (sec : Nat) :
    chanRead s sec = ctrAdd s (ctrStack (home sec).stack 0) 1 := by
  have e : (ctrAdd s (ctrStack (home sec).stack 0) 1).mem.eccErr = [] := by
    rw [ctrAdd_afterReads]; exact h.2.2.1
  unfold chanRead
  rw [h.2.2.2]
  simp only [List.contains_nil, Bool.false_eq_true, if_false]
  unfold eccRead
  dsimp only
  rw [e]
  rfl

theorem readSector_quiet {s : State} (h : Quiet s) (sec : Nat) (alloc : Bool) :
    (readSector s sec alloc).1 = ⟨memRdN zeroByte s.mem.stack (32 * sec) 32, false, 0⟩ ∧
      AfterReads s (readSector s sec alloc).2 ∧ (readSector s sec alloc).2.xlt.tlb = s.xlt.tlb := by
  have a := ctrAdd_afterReads s (ctrStack (home sec).stack 0) 1
  have t := ctrAdd_tlb s (ctrStack (home sec).stack 0) 1
  unfold readSector
  rw [h.1, h.2.1, chanRead_quiet h]
  simp only [Bool.not_true, Bool.false_eq_true, if_false, List.any_nil]
  split
  · have p : (drew s).mem.poison.contains sec = false := by show s.mem.poison.contains sec = false; rw [h.2.2.2]; rfl
    rw [p]
    exact ⟨rfl, rfl, rfl⟩
  · have p : (ctrAdd s (ctrStack (home sec).stack 0) 1).mem.poison.contains sec = false := by
      rw [a]; show s.mem.poison.contains sec = false; rw [h.2.2.2]; rfl
    rw [p]
    refine ⟨?_, ?_, t⟩
    · rw [a.stack]; rfl
    · generalize ctrAdd s (ctrStack (home sec).stack 0) 1 = v at *
      unfold AfterReads at *
      rw [a]

theorem chunks_one {a n : Nat} (hn : 0 < n) (h : a % 32 + n ≤ 32) : chunks a n = [(a, n)] := by
  have e : (a + n - 1) / 32 = a / 32 := by omega
  unfold chunks
  rw [if_neg (by omega), e, Nat.sub_self]
  simp only [Nat.zero_add, List.range_one, List.map_cons, List.map_nil, Nat.add_zero]
  rw [Nat.max_eq_left (by omega), Nat.min_eq_left (by omega)]
  simp

theorem memRdN_slice (d : Byte) (m : Mem) (a n k l : Nat) (h : k + l ≤ n) :
    ((memRdN d m a n).drop k).take l = memRdN d m (a + k) l := by
  unfold memRdN
  apply List.ext_getElem
  · simp; omega
  · intro i h1 h2
    simp [Nat.add_assoc]

theorem readPA_quiet {s : State} (h : Quiet s) {pa n : Nat} (hn : 0 < n) (hs : pa % 32 + n ≤ 32) (alloc : Bool) :
    (readPA s pa n alloc).1 = ⟨memRdN zeroByte s.mem.stack pa n, false, 0⟩ ∧
      AfterReads s (readPA s pa n alloc).2 ∧ (readPA s pa n alloc).2.xlt.tlb = s.xlt.tlb := by
  have r := readSector_quiet h (pa / 32) alloc
  unfold readPA
  rw [chunks_one hn hs]
  refine ⟨?_, r.2.1, r.2.2⟩
  simp only [List.foldl_cons, List.foldl_nil]
  rw [r.1]
  simp only [Read.join, List.nil_append, Bool.false_or, Bool.false_eq_true, if_false]
  rw [memRdN_slice _ _ _ _ _ _ (by omega)]
  have e : 32 * (pa / 32) + pa % 32 = pa := by omega
  rw [e]

/-- Whatever cache holds it, every cached entry is one of `T` (which names the cache 0 for all of them). -/
def Listed (s : State) (T : List PtEntry) : Prop := ∀ p ∈ s.xlt.tlb, { p with home := 0 } ∈ T

/-- The place of an address whose path the tables hold as `e3` in the table of level 3 and the leaf `e2` in that of level 2;
every translation in `T` is one of these where it covers the address. -/
def Maps (s : State) (T : List PtEntry) (va : Nat) (e3 e2 : Word64) : Prop :=
  (∀ p ∈ T, p.level = 0 → p.key ≠ va / 2 ^ 16) ∧ (∀ p ∈ T, p.level = 1 → p.key ≠ va / 2 ^ 21) ∧
  (∀ p ∈ T, p.level = 2 → p.key = va / 2 ^ 30 → p.entry = e2) ∧ (∀ p ∈ T, p.level = 3 → p.key = va / 2 ^ 39 → p.entry = e3) ∧
  ⟨3, va / 2 ^ 39, e3, 0⟩ ∈ T ∧ ⟨2, va / 2 ^ 30, e2, 0⟩ ∈ T ∧
  param s 0x020 % 8 = 0 ∧
  BitVec.ofNat 64 (ofLE (memRdN zeroByte s.mem.stack (param s 0x020 + 8 * tableIndex 3 va) 8)) = e3 ∧
  BitVec.ofNat 64 (ofLE (memRdN zeroByte s.mem.stack (pteAddr e3 + 8 * tableIndex 2 va) 8)) = e2 ∧
  pteV e3 = true ∧ pteBad 3 e3 = false ∧ pteLeaf e3 = false ∧ pteV e2 = true ∧ pteBad 2 e2 = false ∧ pteLeaf e2 = true

theorem pick_or (s : State) (l : List Word64) :
    (∃ x, (pick s l).1 = some x ∧ x ∈ l ∧ AfterReads s (pick s l).2 ∧ (pick s l).2.xlt.tlb = s.xlt.tlb) ∨
      ((pick s l).1 = none ∧ AfterReads s (pick s l).2 ∧ (pick s l).2.xlt.tlb = s.xlt.tlb) := by
  unfold pick
  split
  · exact .inr ⟨rfl, rfl, rfl⟩
  · cases h : l[drawn s 203 % (l.length + 1)]? with
    | none => exact .inr ⟨rfl, rfl, rfl⟩
    | some x => exact .inl ⟨x, rfl, List.mem_of_getElem? h, rfl, rfl⟩

theorem cacheIn_afterReads (s : State) (e : PtEntry) : AfterReads s (cacheIn s e) := by
  unfold cacheIn; dsimp only; split
  · rfl
  · split <;> rfl

theorem cacheIn_tlb {s : State} {T : List PtEntry} {e : PtEntry} (h : Listed s T)
    (k : { e with home := 0 } ∈ T) : Listed (cacheIn s e) T := by
  have grow : ∀ l : List PtEntry, (∀ p ∈ l, p ∈ s.xlt.tlb) → ∀ p ∈ l ++ [e], { p with home := 0 } ∈ T := by
    intro l hl p hp
    rcases List.mem_append.mp hp with hp | hp
    · exact h p (hl p hp)
    · rw [List.mem_singleton.mp hp]; exact k
  unfold cacheIn; dsimp only; split
  · exact h
  · split
    · exact grow _ fun _ hp => hp
    · exact grow _ fun _ hp => (List.mem_filter.mp hp).1

theorem cache_afterReads (s : State) (port level va : Nat) (e : Word64) : AfterReads s (cache s port level va e) := by
  unfold cache tlbHomes each
  split
  · exact cacheIn_afterReads _ _
  · exact (cacheIn_afterReads _ _).trans (cacheIn_afterReads _ _)

theorem cache_tlb {s : State} {T : List PtEntry} {port level va : Nat} {e : Word64}
    (h : Listed s T) (k : ⟨level, va / 2 ^ spanBits level, e, 0⟩ ∈ T) :
    Listed (cache s port level va e) T := by
  unfold cache tlbHomes each
  split
  · exact cacheIn_tlb h k
  · exact cacheIn_tlb (cacheIn_tlb h k) k

theorem mem_cachedAt {s : State} {port level va : Nat} {leaf : Bool} {x : Word64} (h : x ∈ cachedAt s port level va leaf) :
    pteLeaf x = leaf ∧ ∃ p ∈ s.xlt.tlb, p.level = level ∧ p.key = va / 2 ^ spanBits level ∧ p.entry = x := by
  unfold cachedAt at h
  obtain ⟨p, hp, rfl⟩ := List.mem_map.mp h
  have q := List.mem_filter.mp hp
  simp only [Bool.and_eq_true, beq_iff_eq] at q
  exact ⟨q.2.2, p, q.1, q.2.1.1.2, q.2.1.2, rfl⟩

theorem walk_quiet {s : State} {T : List PtEntry} {va : Nat} {e3 e2 : Word64} (need : Need) (host : Bool) (port : Nat) (h : Quiet s)
    (ht : Listed s T) (m : Maps s T va e3 e2) :
    (walk port va need host 3 (param s 0x020) s).1 = leafOut 2 va need host e2 ∧
      AfterReads s (walk port va need host 3 (param s 0x020) s).2 ∧
      Listed (walk port va need host 3 (param s 0x020) s).2 T := by
  obtain ⟨m0, m1, m2, m3, t3, t2, ma, r3, r2, v3, b3, l3, v2, b2, l2⟩ := m
  have a3 : pteAddr e3 % 8 = 0 := by unfold pteAddr; omega
  -- the second level, from any state after reads
  have low : ∀ u, AfterReads s u → Listed u T →
      (walk port va need host 2 (pteAddr e3) u).1 = leafOut 2 va need host e2 ∧
        AfterReads s (walk port va need host 2 (pteAddr e3) u).2 ∧ Listed (walk port va need host 2 (pteAddr e3) u).2 T := by
    intro u hu tu
    have none : cachedAt u port 2 va false = [] := by
      apply List.eq_nil_iff_forall_not_mem.mpr
      intro x hx
      obtain ⟨lx, p, hp, pl, pk, rfl⟩ := mem_cachedAt hx
      rw [m2 _ (tu p hp) pl pk, l2] at lx
      exact Bool.noConfusion lx
    have q := readPA_quiet (h.after hu) (pa := pteAddr e3 + 8 * tableIndex 2 va) (n := 8) (by decide) (by omega) true
    rw [walk, walk.entry, none]
    simp only [pick, List.isEmpty_nil, if_true]
    rw [q.1, hu.stack, r2]
    simp only [Bool.false_eq_true, if_false, v2, b2, l2, Bool.not_true, if_true]
    exact ⟨trivial, (hu.trans q.2.1).trans (cache_afterReads _ _ _ _ _), cache_tlb (by unfold Listed; rw [q.2.2]; exact tu) t2⟩
  rw [walk, walk.entry]
  dsimp only
  rcases pick_or s (cachedAt s port 3 va false) with ⟨x, e, hx, k, kt⟩ | ⟨e, k, kt⟩
  · rw [e]
    obtain ⟨-, p, hp, pl, pk, rfl⟩ := mem_cachedAt hx
    rw [m3 _ (ht p hp) pl pk]
    exact low _ k (by unfold Listed; rw [kt]; exact ht)
  · rw [e]
    have q := readPA_quiet (h.after k) (pa := param s 0x020 + 8 * tableIndex 3 va) (n := 8) (by decide) (by omega) true
    dsimp only
    rw [q.1, k.stack, r3]
    simp only [Bool.false_eq_true, if_false, v3, b3, l3, Bool.not_true]
    exact low _ ((k.trans q.2.1).trans (cache_afterReads _ _ _ _ _)) (cache_tlb (by unfold Listed; rw [q.2.2, kt]; exact ht) t3)

theorem translate_quiet {s : State} {T : List PtEntry} {va : Nat} {e3 e2 : Word64} (need : Need) (host : Bool) (port : Nat) (h : Quiet s)
    (ht : Listed s T) (m : Maps s T va e3 e2) :
    (translate s va need host port).1 = leafOut 2 va need host e2 ∧ AfterReads s (translate s va need host port).2 ∧
      Listed (translate s va need host port).2 T := by
  have c0 : cachedAt s port 0 va true = [] := List.eq_nil_iff_forall_not_mem.mpr fun x hx => by
    obtain ⟨-, p, hp, pl, pk, -⟩ := mem_cachedAt hx
    exact m.1 _ (ht p hp) pl pk
  have c1 : cachedAt s port 1 va true = [] := List.eq_nil_iff_forall_not_mem.mpr fun x hx => by
    obtain ⟨-, p, hp, pl, pk, -⟩ := mem_cachedAt hx
    exact m.2.1 _ (ht p hp) pl pk
  unfold translate
  rw [c0, c1]
  simp only [List.map_nil, List.nil_append]
  split
  · exact walk_quiet need host port h ht m
  · split
    · rename_i lv x hx
      obtain ⟨y, hy, e⟩ := List.mem_map.mp (List.mem_of_getElem? hx)
      obtain ⟨-, p, hp, pl, pk, rfl⟩ := mem_cachedAt hy
      injection e with e1 e2'
      subst e1 e2'
      rw [m.2.2.1 _ (ht p hp) pl pk]
      exact ⟨rfl, rfl, ht⟩
    · exact walk_quiet (s := drew s) need host port h ht m

/-- A read by the device itself of whole sectors or less, each of which the tables place: the bytes that stand there. -/
theorem devRead_quiet {s : State} {T : List PtEntry} (a n : Nat) (place : Nat → Nat) (h : Quiet s)
    (ht : Listed s T)
    (m : ∀ c ∈ chunks a n, a ≤ c.1 ∧ 0 < c.2 ∧ place c.1 % 32 + c.2 ≤ 32 ∧ ∃ e3 e2, Maps s T (c.1 % 2 ^ 52) e3 e2 ∧
      leafOut 2 (c.1 % 2 ^ 52) .r false e2 = .stack (place c.1)) :
    (devRead s (.lva a) n).1 = some ((chunks a n).flatMap fun c => memRdN zeroByte s.mem.stack (place c.1) c.2) ∧
      AfterReads s (devRead s (.lva a) n).2 ∧ Listed (devRead s (.lva a) n).2 T := by
  have places : ∀ (l : List (Nat × Nat)) (u : State), AfterReads s u → Listed u T →
      (∀ c ∈ l, a ≤ c.1 ∧ 0 < c.2 ∧ place c.1 % 32 + c.2 ≤ 32 ∧ ∃ e3 e2, Maps s T (c.1 % 2 ^ 52) e3 e2 ∧
        leafOut 2 (c.1 % 2 ^ 52) .r false e2 = .stack (place c.1)) →
      (devPlaces u (.lva a) false l).1 = some (l.map fun c => (place c.1, c.2)) ∧
        AfterReads s (devPlaces u (.lva a) false l).2 ∧ Listed (devPlaces u (.lva a) false l).2 T := by
    intro l
    induction l with
    | nil => intro u hu tu _; exact ⟨rfl, hu, tu⟩
    | cons c cs ih =>
      intro u hu tu hl
      obtain ⟨ha, -, -, e3, e2, mp, lf⟩ := hl c (List.mem_cons_self ..)
      have e : a + (c.1 - a) = c.1 := by omega
      have mu : Maps u T (c.1 % 2 ^ 52) e3 e2 := by
        unfold Maps at *; rw [hu.param, hu.stack]; exact mp
      have t := translate_quiet .r false 0 (h.after hu) tu mu
      have d : devPlace u ((Ad.lva a).plus (c.1 - (Ad.lva a).low)) false
          = (some (place c.1), (translate u (c.1 % 2 ^ 52) .r false).2) := by
        simp only [Ad.plus, Ad.low, e, devPlace, Bool.false_eq_true, if_false]
        rw [t.1, lf]
      unfold devPlaces
      rw [d]
      have r := ih _ (hu.trans t.2.1) t.2.2 fun c hc => hl c (List.mem_cons_of_mem _ hc)
      dsimp only
      rw [r.1]
      exact ⟨rfl, r.2⟩
  have reads : ∀ (l : List (Nat × Nat)) (acc : Read × State), acc.1.poison = false → AfterReads s acc.2 →
      Listed acc.2 T → (∀ c ∈ l, 0 < c.2 ∧ c.1 % 32 + c.2 ≤ 32) →
      (l.foldl (fun acc c => let r := readPA acc.2 c.1 c.2; (acc.1.join r.1, r.2)) acc).1.poison = false ∧
      (l.foldl (fun acc c => let r := readPA acc.2 c.1 c.2; (acc.1.join r.1, r.2)) acc).1.bytes
        = acc.1.bytes ++ l.flatMap (fun c => memRdN zeroByte s.mem.stack c.1 c.2) ∧
      AfterReads s (l.foldl (fun acc c => let r := readPA acc.2 c.1 c.2; (acc.1.join r.1, r.2)) acc).2 ∧
      Listed (l.foldl (fun acc c => let r := readPA acc.2 c.1 c.2; (acc.1.join r.1, r.2)) acc).2 T := by
    intro l
    induction l with
    | nil => intro acc hp hu tu _; exact ⟨hp, by simp, hu, tu⟩
    | cons c cs ih =>
      intro acc hp hu tu hl
      have q := readPA_quiet (h.after hu) (hl c (List.mem_cons_self ..)).1 (hl c (List.mem_cons_self ..)).2 true
      rw [hu.stack] at q
      have r := ih (acc.1.join (readPA acc.2 c.1 c.2).1, (readPA acc.2 c.1 c.2).2)
        (by show (acc.1.join _).poison = false; rw [q.1]; simp [Read.join, hp]) (hu.trans q.2.1) (by unfold Listed; rw [q.2.2]; exact tu)
        fun c hc => hl c (List.mem_cons_of_mem _ hc)
      simp only [List.foldl_cons]
      refine ⟨r.1, ?_, r.2.2⟩
      rw [r.2.1, q.1]
      simp [Read.join]
  have p := places (chunks a n) s rfl ht m
  have r := reads ((chunks a n).map fun c => (place c.1, c.2)) (⟨[], false, 0⟩, (devPlaces s (.lva a) false (chunks a n)).2)
    rfl p.2.1 p.2.2 fun c hc => by
      obtain ⟨d, hd, rfl⟩ := List.mem_map.mp hc
      exact ⟨(m d hd).2.1, (m d hd).2.2.1⟩
  unfold devRead
  rw [h.1]
  simp only [Bool.not_true, Bool.false_eq_true, if_false, Ad.low]
  rw [p.1]
  refine ⟨(if_neg fun e => Bool.noConfusion (r.1.symm.trans e)).trans ?_, r.2.2⟩
  refine (congrArg some r.2.1).trans ?_
  simp [List.flatMap_map]

end Sys2Proof.Machine
end

