-- ==== Sys2Proof/Laws/State.lean ====
section
/-! SUPPORT. The shared updates of the state, field by field: what each one leaves, and what it writes. -/

namespace Sys2Proof.Machine

/-- A unit of a list after one unit was changed. -/
theorem unit_modify {α : Type} (l : List α) (i j : Nat) (f : α → α) (d : α) :
    unit (l.modify i f) j d = if j = i ∧ i < l.length then f (unit l i d) else unit l j d := by
  unfold unit
  simp only [List.getD_eq_getElem?_getD, List.getElem?_modify]
  by_cases h : j = i
  · subst h
    by_cases h2 : j < l.length <;> simp [h2]
  · have : ¬ i = j := fun x => h x.symm
    simp [h, this]

/-- A unit of a list after every unit was changed. -/
theorem unit_map {α : Type} (l : List α) (j : Nat) (f : α → α) (d : α) :
    unit (l.map f) j d = if j < l.length then f (unit l j d) else d := by
  unfold unit
  simp only [List.getD_eq_getElem?_getD, List.getElem?_map]
  by_cases h : j < l.length <;> simp [h]

/-! `modDom` -/

@[simp] theorem modDom_pending (s : State) (d : Nat) (f : DomSt → DomSt) : (modDom s d f).pending = s.pending := rfl
@[simp] theorem modDom_free (s : State) (d : Nat) (f : DomSt → DomSt) : (modDom s d f).free = s.free := rfl
@[simp] theorem modDom_nextNum (s : State) (d : Nat) (f : DomSt → DomSt) : (modDom s d f).nextNum = s.nextNum := rfl
@[simp] theorem modDom_out (s : State) (d : Nat) (f : DomSt → DomSt) : (modDom s d f).out = s.out := rfl
@[simp] theorem modDom_time (s : State) (d : Nat) (f : DomSt → DomSt) : (modDom s d f).time = s.time := rfl
@[simp] theorem modDom_seq (s : State) (d : Nat) (f : DomSt → DomSt) : (modDom s d f).seq = s.seq := rfl
@[simp] theorem modDom_cl (s : State) (d : Nat) (f : DomSt → DomSt) : (modDom s d f).cl = s.cl := rfl
@[simp] theorem modDom_mem (s : State) (d : Nat) (f : DomSt → DomSt) : (modDom s d f).mem = s.mem := rfl
@[simp] theorem modDom_st (s : State) (d : Nat) (f : DomSt → DomSt) : (modDom s d f).st = s.st := rfl
@[simp] theorem modDom_xlt (s : State) (d : Nat) (f : DomSt → DomSt) : (modDom s d f).xlt = s.xlt := rfl
@[simp] theorem modDom_eng (s : State) (d : Nat) (f : DomSt → DomSt) : (modDom s d f).eng = s.eng := rfl
@[simp] theorem modDom_wgt (s : State) (d : Nat) (f : DomSt → DomSt) : (modDom s d f).wgt = s.wgt := rfl
@[simp] theorem modDom_link (s : State) (d : Nat) (f : DomSt → DomSt) : (modDom s d f).link = s.link := rfl
@[simp] theorem modDom_port (s : State) (d : Nat) (f : DomSt → DomSt) : (modDom s d f).port = s.port := rfl
@[simp] theorem modDom_self (s : State) (d : Nat) (f : DomSt → DomSt) : (modDom s d f).self = s.self := rfl
@[simp] theorem modDom_col (s : State) (d : Nat) (f : DomSt → DomSt) : (modDom s d f).col = s.col := rfl
@[simp] theorem modDom_snp (s : State) (d : Nat) (f : DomSt → DomSt) : (modDom s d f).snp = s.snp := rfl
@[simp] theorem modDom_cod (s : State) (d : Nat) (f : DomSt → DomSt) : (modDom s d f).cod = s.cod := rfl
@[simp] theorem modDom_flow (s : State) (d : Nat) (f : DomSt → DomSt) : (modDom s d f).flow = s.flow := rfl
@[simp] theorem modDom_mport (s : State) (d : Nat) (f : DomSt → DomSt) : (modDom s d f).mport = s.mport := rfl
@[simp] theorem modDom_boot (s : State) (d : Nat) (f : DomSt → DomSt) : (modDom s d f).boot = s.boot := rfl
@[simp] theorem modDom_hif (s : State) (d : Nat) (f : DomSt → DomSt) : (modDom s d f).hif = s.hif := rfl
@[simp] theorem modDom_jtag (s : State) (d : Nat) (f : DomSt → DomSt) : (modDom s d f).jtag = s.jtag := rfl
@[simp] theorem modDom_pwr (s : State) (d : Nat) (f : DomSt → DomSt) : (modDom s d f).pwr = s.pwr := rfl
@[simp] theorem modDom_obs (s : State) (d : Nat) (f : DomSt → DomSt) : (modDom s d f).obs = s.obs := rfl
@[simp] theorem modDom_ev (s : State) (d : Nat) (f : DomSt → DomSt) : (modDom s d f).ev = s.ev := rfl
@[simp] theorem modDom_seqAt (s : State) (d : Nat) (f : DomSt → DomSt) (j : Nat) : seqAt (modDom s d f) j = seqAt s j := rfl
@[simp] theorem modDom_clAt (s : State) (d : Nat) (f : DomSt → DomSt) (j : Nat) : clAt (modDom s d f) j = clAt s j := rfl
@[simp] theorem modDom_engAt (s : State) (d : Nat) (f : DomSt → DomSt) (j : Nat) : engAt (modDom s d f) j = engAt s j := rfl
@[simp] theorem modDom_flowAt (s : State) (d : Nat) (f : DomSt → DomSt) (j : Nat) : flowAt (modDom s d f) j = flowAt s j := rfl
@[simp] theorem modDom_mportAt (s : State) (d : Nat) (f : DomSt → DomSt) (j : Nat) : mportAt (modDom s d f) j = mportAt s j := rfl
@[simp] theorem modDom_linkAt (s : State) (d : Nat) (f : DomSt → DomSt) (j : Nat) : linkAt (modDom s d f) j = linkAt s j := rfl
@[simp] theorem modDom_portAt (s : State) (d : Nat) (f : DomSt → DomSt) (j : Nat) : portAt (modDom s d f) j = portAt s j := rfl
@[simp] theorem modDom_wgtAt (s : State) (d : Nat) (f : DomSt → DomSt) (j : Nat) : wgtAt (modDom s d f) j = wgtAt s j := rfl
@[simp] theorem modDom_ctxAt (s : State) (d : Nat) (f : DomSt → DomSt) (j : Nat) : ctxAt (modDom s d f) j = ctxAt s j := rfl
theorem domAt_modDom (s : State) (d : Nat) (f : DomSt → DomSt) (j : Nat) :
    domAt (modDom s d f) j = if j = d ∧ d < s.dom.length then f (domAt s d) else domAt s j :=
  unit_modify _ _ _ _ _

/-! `modSeq` -/

@[simp] theorem modSeq_pending (s : State) (n : Nat) (f : SeqSlot → SeqSlot) : (modSeq s n f).pending = s.pending := rfl
@[simp] theorem modSeq_free (s : State) (n : Nat) (f : SeqSlot → SeqSlot) : (modSeq s n f).free = s.free := rfl
@[simp] theorem modSeq_nextNum (s : State) (n : Nat) (f : SeqSlot → SeqSlot) : (modSeq s n f).nextNum = s.nextNum := rfl
@[simp] theorem modSeq_out (s : State) (n : Nat) (f : SeqSlot → SeqSlot) : (modSeq s n f).out = s.out := rfl
@[simp] theorem modSeq_time (s : State) (n : Nat) (f : SeqSlot → SeqSlot) : (modSeq s n f).time = s.time := rfl
@[simp] theorem modSeq_dom (s : State) (n : Nat) (f : SeqSlot → SeqSlot) : (modSeq s n f).dom = s.dom := rfl
@[simp] theorem modSeq_cl (s : State) (n : Nat) (f : SeqSlot → SeqSlot) : (modSeq s n f).cl = s.cl := rfl
@[simp] theorem modSeq_mem (s : State) (n : Nat) (f : SeqSlot → SeqSlot) : (modSeq s n f).mem = s.mem := rfl
@[simp] theorem modSeq_st (s : State) (n : Nat) (f : SeqSlot → SeqSlot) : (modSeq s n f).st = s.st := rfl
@[simp] theorem modSeq_xlt (s : State) (n : Nat) (f : SeqSlot → SeqSlot) : (modSeq s n f).xlt = s.xlt := rfl
@[simp] theorem modSeq_eng (s : State) (n : Nat) (f : SeqSlot → SeqSlot) : (modSeq s n f).eng = s.eng := rfl
@[simp] theorem modSeq_wgt (s : State) (n : Nat) (f : SeqSlot → SeqSlot) : (modSeq s n f).wgt = s.wgt := rfl
@[simp] theorem modSeq_link (s : State) (n : Nat) (f : SeqSlot → SeqSlot) : (modSeq s n f).link = s.link := rfl
@[simp] theorem modSeq_port (s : State) (n : Nat) (f : SeqSlot → SeqSlot) : (modSeq s n f).port = s.port := rfl
@[simp] theorem modSeq_self (s : State) (n : Nat) (f : SeqSlot → SeqSlot) : (modSeq s n f).self = s.self := rfl
@[simp] theorem modSeq_col (s : State) (n : Nat) (f : SeqSlot → SeqSlot) : (modSeq s n f).col = s.col := rfl
@[simp] theorem modSeq_snp (s : State) (n : Nat) (f : SeqSlot → SeqSlot) : (modSeq s n f).snp = s.snp := rfl
@[simp] theorem modSeq_cod (s : State) (n : Nat) (f : SeqSlot → SeqSlot) : (modSeq s n f).cod = s.cod := rfl
@[simp] theorem modSeq_flow (s : State) (n : Nat) (f : SeqSlot → SeqSlot) : (modSeq s n f).flow = s.flow := rfl
@[simp] theorem modSeq_mport (s : State) (n : Nat) (f : SeqSlot → SeqSlot) : (modSeq s n f).mport = s.mport := rfl
@[simp] theorem modSeq_boot (s : State) (n : Nat) (f : SeqSlot → SeqSlot) : (modSeq s n f).boot = s.boot := rfl
@[simp] theorem modSeq_hif (s : State) (n : Nat) (f : SeqSlot → SeqSlot) : (modSeq s n f).hif = s.hif := rfl
@[simp] theorem modSeq_jtag (s : State) (n : Nat) (f : SeqSlot → SeqSlot) : (modSeq s n f).jtag = s.jtag := rfl
@[simp] theorem modSeq_pwr (s : State) (n : Nat) (f : SeqSlot → SeqSlot) : (modSeq s n f).pwr = s.pwr := rfl
@[simp] theorem modSeq_obs (s : State) (n : Nat) (f : SeqSlot → SeqSlot) : (modSeq s n f).obs = s.obs := rfl
@[simp] theorem modSeq_ev (s : State) (n : Nat) (f : SeqSlot → SeqSlot) : (modSeq s n f).ev = s.ev := rfl
@[simp] theorem modSeq_domAt (s : State) (n : Nat) (f : SeqSlot → SeqSlot) (j : Nat) : domAt (modSeq s n f) j = domAt s j := rfl
@[simp] theorem modSeq_clAt (s : State) (n : Nat) (f : SeqSlot → SeqSlot) (j : Nat) : clAt (modSeq s n f) j = clAt s j := rfl
@[simp] theorem modSeq_engAt (s : State) (n : Nat) (f : SeqSlot → SeqSlot) (j : Nat) : engAt (modSeq s n f) j = engAt s j := rfl
@[simp] theorem modSeq_flowAt (s : State) (n : Nat) (f : SeqSlot → SeqSlot) (j : Nat) : flowAt (modSeq s n f) j = flowAt s j := rfl
@[simp] theorem modSeq_mportAt (s : State) (n : Nat) (f : SeqSlot → SeqSlot) (j : Nat) : mportAt (modSeq s n f) j = mportAt s j := rfl
@[simp] theorem modSeq_linkAt (s : State) (n : Nat) (f : SeqSlot → SeqSlot) (j : Nat) : linkAt (modSeq s n f) j = linkAt s j := rfl
@[simp] theorem modSeq_portAt (s : State) (n : Nat) (f : SeqSlot → SeqSlot) (j : Nat) : portAt (modSeq s n f) j = portAt s j := rfl
@[simp] theorem modSeq_wgtAt (s : State) (n : Nat) (f : SeqSlot → SeqSlot) (j : Nat) : wgtAt (modSeq s n f) j = wgtAt s j := rfl
@[simp] theorem modSeq_ctxAt (s : State) (n : Nat) (f : SeqSlot → SeqSlot) (j : Nat) : ctxAt (modSeq s n f) j = ctxAt s j := rfl
theorem seqAt_modSeq (s : State) (n : Nat) (f : SeqSlot → SeqSlot) (j : Nat) :
    seqAt (modSeq s n f) j = if j = n ∧ n < s.seq.length then f (seqAt s n) else seqAt s j :=
  unit_modify _ _ _ _ _

/-! `modCl` -/

@[simp] theorem modCl_pending (s : State) (c : Nat) (f : ClusterSt → ClusterSt) : (modCl s c f).pending = s.pending := rfl
@[simp] theorem modCl_free (s : State) (c : Nat) (f : ClusterSt → ClusterSt) : (modCl s c f).free = s.free := rfl
@[simp] theorem modCl_nextNum (s : State) (c : Nat) (f : ClusterSt → ClusterSt) : (modCl s c f).nextNum = s.nextNum := rfl
@[simp] theorem modCl_out (s : State) (c : Nat) (f : ClusterSt → ClusterSt) : (modCl s c f).out = s.out := rfl
@[simp] theorem modCl_time (s : State) (c : Nat) (f : ClusterSt → ClusterSt) : (modCl s c f).time = s.time := rfl
@[simp] theorem modCl_dom (s : State) (c : Nat) (f : ClusterSt → ClusterSt) : (modCl s c f).dom = s.dom := rfl
@[simp] theorem modCl_seq (s : State) (c : Nat) (f : ClusterSt → ClusterSt) : (modCl s c f).seq = s.seq := rfl
@[simp] theorem modCl_mem (s : State) (c : Nat) (f : ClusterSt → ClusterSt) : (modCl s c f).mem = s.mem := rfl
@[simp] theorem modCl_st (s : State) (c : Nat) (f : ClusterSt → ClusterSt) : (modCl s c f).st = s.st := rfl
@[simp] theorem modCl_xlt (s : State) (c : Nat) (f : ClusterSt → ClusterSt) : (modCl s c f).xlt = s.xlt := rfl
@[simp] theorem modCl_eng (s : State) (c : Nat) (f : ClusterSt → ClusterSt) : (modCl s c f).eng = s.eng := rfl
@[simp] theorem modCl_wgt (s : State) (c : Nat) (f : ClusterSt → ClusterSt) : (modCl s c f).wgt = s.wgt := rfl
@[simp] theorem modCl_link (s : State) (c : Nat) (f : ClusterSt → ClusterSt) : (modCl s c f).link = s.link := rfl
@[simp] theorem modCl_port (s : State) (c : Nat) (f : ClusterSt → ClusterSt) : (modCl s c f).port = s.port := rfl
@[simp] theorem modCl_self (s : State) (c : Nat) (f : ClusterSt → ClusterSt) : (modCl s c f).self = s.self := rfl
@[simp] theorem modCl_col (s : State) (c : Nat) (f : ClusterSt → ClusterSt) : (modCl s c f).col = s.col := rfl
@[simp] theorem modCl_snp (s : State) (c : Nat) (f : ClusterSt → ClusterSt) : (modCl s c f).snp = s.snp := rfl
@[simp] theorem modCl_cod (s : State) (c : Nat) (f : ClusterSt → ClusterSt) : (modCl s c f).cod = s.cod := rfl
@[simp] theorem modCl_flow (s : State) (c : Nat) (f : ClusterSt → ClusterSt) : (modCl s c f).flow = s.flow := rfl
@[simp] theorem modCl_mport (s : State) (c : Nat) (f : ClusterSt → ClusterSt) : (modCl s c f).mport = s.mport := rfl
@[simp] theorem modCl_boot (s : State) (c : Nat) (f : ClusterSt → ClusterSt) : (modCl s c f).boot = s.boot := rfl
@[simp] theorem modCl_hif (s : State) (c : Nat) (f : ClusterSt → ClusterSt) : (modCl s c f).hif = s.hif := rfl
@[simp] theorem modCl_jtag (s : State) (c : Nat) (f : ClusterSt → ClusterSt) : (modCl s c f).jtag = s.jtag := rfl
@[simp] theorem modCl_pwr (s : State) (c : Nat) (f : ClusterSt → ClusterSt) : (modCl s c f).pwr = s.pwr := rfl
@[simp] theorem modCl_obs (s : State) (c : Nat) (f : ClusterSt → ClusterSt) : (modCl s c f).obs = s.obs := rfl
@[simp] theorem modCl_ev (s : State) (c : Nat) (f : ClusterSt → ClusterSt) : (modCl s c f).ev = s.ev := rfl
@[simp] theorem modCl_domAt (s : State) (c : Nat) (f : ClusterSt → ClusterSt) (j : Nat) : domAt (modCl s c f) j = domAt s j := rfl
@[simp] theorem modCl_seqAt (s : State) (c : Nat) (f : ClusterSt → ClusterSt) (j : Nat) : seqAt (modCl s c f) j = seqAt s j := rfl
@[simp] theorem modCl_engAt (s : State) (c : Nat) (f : ClusterSt → ClusterSt) (j : Nat) : engAt (modCl s c f) j = engAt s j := rfl
@[simp] theorem modCl_flowAt (s : State) (c : Nat) (f : ClusterSt → ClusterSt) (j : Nat) : flowAt (modCl s c f) j = flowAt s j := rfl
@[simp] theorem modCl_mportAt (s : State) (c : Nat) (f : ClusterSt → ClusterSt) (j : Nat) : mportAt (modCl s c f) j = mportAt s j := rfl
@[simp] theorem modCl_linkAt (s : State) (c : Nat) (f : ClusterSt → ClusterSt) (j : Nat) : linkAt (modCl s c f) j = linkAt s j := rfl
@[simp] theorem modCl_portAt (s : State) (c : Nat) (f : ClusterSt → ClusterSt) (j : Nat) : portAt (modCl s c f) j = portAt s j := rfl
@[simp] theorem modCl_wgtAt (s : State) (c : Nat) (f : ClusterSt → ClusterSt) (j : Nat) : wgtAt (modCl s c f) j = wgtAt s j := rfl
@[simp] theorem modCl_ctxAt (s : State) (c : Nat) (f : ClusterSt → ClusterSt) (j : Nat) : ctxAt (modCl s c f) j = ctxAt s j := rfl
theorem clAt_modCl (s : State) (c : Nat) (f : ClusterSt → ClusterSt) (j : Nat) :
    clAt (modCl s c f) j = if j = c ∧ c < s.cl.length then f (clAt s c) else clAt s j :=
  unit_modify _ _ _ _ _

/-! `modEng` -/

@[simp] theorem modEng_pending (s : State) (e : Nat) (f : EngSt → EngSt) : (modEng s e f).pending = s.pending := rfl
@[simp] theorem modEng_free (s : State) (e : Nat) (f : EngSt → EngSt) : (modEng s e f).free = s.free := rfl
@[simp] theorem modEng_nextNum (s : State) (e : Nat) (f : EngSt → EngSt) : (modEng s e f).nextNum = s.nextNum := rfl
@[simp] theorem modEng_out (s : State) (e : Nat) (f : EngSt → EngSt) : (modEng s e f).out = s.out := rfl
@[simp] theorem modEng_time (s : State) (e : Nat) (f : EngSt → EngSt) : (modEng s e f).time = s.time := rfl
@[simp] theorem modEng_dom (s : State) (e : Nat) (f : EngSt → EngSt) : (modEng s e f).dom = s.dom := rfl
@[simp] theorem modEng_seq (s : State) (e : Nat) (f : EngSt → EngSt) : (modEng s e f).seq = s.seq := rfl
@[simp] theorem modEng_cl (s : State) (e : Nat) (f : EngSt → EngSt) : (modEng s e f).cl = s.cl := rfl
@[simp] theorem modEng_mem (s : State) (e : Nat) (f : EngSt → EngSt) : (modEng s e f).mem = s.mem := rfl
@[simp] theorem modEng_st (s : State) (e : Nat) (f : EngSt → EngSt) : (modEng s e f).st = s.st := rfl
@[simp] theorem modEng_xlt (s : State) (e : Nat) (f : EngSt → EngSt) : (modEng s e f).xlt = s.xlt := rfl
@[simp] theorem modEng_wgt (s : State) (e : Nat) (f : EngSt → EngSt) : (modEng s e f).wgt = s.wgt := rfl
@[simp] theorem modEng_link (s : State) (e : Nat) (f : EngSt → EngSt) : (modEng s e f).link = s.link := rfl
@[simp] theorem modEng_port (s : State) (e : Nat) (f : EngSt → EngSt) : (modEng s e f).port = s.port := rfl
@[simp] theorem modEng_self (s : State) (e : Nat) (f : EngSt → EngSt) : (modEng s e f).self = s.self := rfl
@[simp] theorem modEng_col (s : State) (e : Nat) (f : EngSt → EngSt) : (modEng s e f).col = s.col := rfl
@[simp] theorem modEng_snp (s : State) (e : Nat) (f : EngSt → EngSt) : (modEng s e f).snp = s.snp := rfl
@[simp] theorem modEng_cod (s : State) (e : Nat) (f : EngSt → EngSt) : (modEng s e f).cod = s.cod := rfl
@[simp] theorem modEng_flow (s : State) (e : Nat) (f : EngSt → EngSt) : (modEng s e f).flow = s.flow := rfl
@[simp] theorem modEng_mport (s : State) (e : Nat) (f : EngSt → EngSt) : (modEng s e f).mport = s.mport := rfl
@[simp] theorem modEng_boot (s : State) (e : Nat) (f : EngSt → EngSt) : (modEng s e f).boot = s.boot := rfl
@[simp] theorem modEng_hif (s : State) (e : Nat) (f : EngSt → EngSt) : (modEng s e f).hif = s.hif := rfl
@[simp] theorem modEng_jtag (s : State) (e : Nat) (f : EngSt → EngSt) : (modEng s e f).jtag = s.jtag := rfl
@[simp] theorem modEng_pwr (s : State) (e : Nat) (f : EngSt → EngSt) : (modEng s e f).pwr = s.pwr := rfl
@[simp] theorem modEng_obs (s : State) (e : Nat) (f : EngSt → EngSt) : (modEng s e f).obs = s.obs := rfl
@[simp] theorem modEng_ev (s : State) (e : Nat) (f : EngSt → EngSt) : (modEng s e f).ev = s.ev := rfl
@[simp] theorem modEng_domAt (s : State) (e : Nat) (f : EngSt → EngSt) (j : Nat) : domAt (modEng s e f) j = domAt s j := rfl
@[simp] theorem modEng_seqAt (s : State) (e : Nat) (f : EngSt → EngSt) (j : Nat) : seqAt (modEng s e f) j = seqAt s j := rfl
@[simp] theorem modEng_clAt (s : State) (e : Nat) (f : EngSt → EngSt) (j : Nat) : clAt (modEng s e f) j = clAt s j := rfl
@[simp] theorem modEng_flowAt (s : State) (e : Nat) (f : EngSt → EngSt) (j : Nat) : flowAt (modEng s e f) j = flowAt s j := rfl
@[simp] theorem modEng_mportAt (s : State) (e : Nat) (f : EngSt → EngSt) (j : Nat) : mportAt (modEng s e f) j = mportAt s j := rfl
@[simp] theorem modEng_linkAt (s : State) (e : Nat) (f : EngSt → EngSt) (j : Nat) : linkAt (modEng s e f) j = linkAt s j := rfl
@[simp] theorem modEng_portAt (s : State) (e : Nat) (f : EngSt → EngSt) (j : Nat) : portAt (modEng s e f) j = portAt s j := rfl
@[simp] theorem modEng_wgtAt (s : State) (e : Nat) (f : EngSt → EngSt) (j : Nat) : wgtAt (modEng s e f) j = wgtAt s j := rfl
@[simp] theorem modEng_ctxAt (s : State) (e : Nat) (f : EngSt → EngSt) (j : Nat) : ctxAt (modEng s e f) j = ctxAt s j := rfl
theorem engAt_modEng (s : State) (e : Nat) (f : EngSt → EngSt) (j : Nat) :
    engAt (modEng s e f) j = if j = e ∧ e < s.eng.length then f (engAt s e) else engAt s j :=
  unit_modify _ _ _ _ _

/-! `modFlow` -/

@[simp] theorem modFlow_pending (s : State) (n : Nat) (f : FlowSt → FlowSt) : (modFlow s n f).pending = s.pending := rfl
@[simp] theorem modFlow_free (s : State) (n : Nat) (f : FlowSt → FlowSt) : (modFlow s n f).free = s.free := rfl
@[simp] theorem modFlow_nextNum (s : State) (n : Nat) (f : FlowSt → FlowSt) : (modFlow s n f).nextNum = s.nextNum := rfl
@[simp] theorem modFlow_out (s : State) (n : Nat) (f : FlowSt → FlowSt) : (modFlow s n f).out = s.out := rfl
@[simp] theorem modFlow_time (s : State) (n : Nat) (f : FlowSt → FlowSt) : (modFlow s n f).time = s.time := rfl
@[simp] theorem modFlow_dom (s : State) (n : Nat) (f : FlowSt → FlowSt) : (modFlow s n f).dom = s.dom := rfl
@[simp] theorem modFlow_seq (s : State) (n : Nat) (f : FlowSt → FlowSt) : (modFlow s n f).seq = s.seq := rfl
@[simp] theorem modFlow_cl (s : State) (n : Nat) (f : FlowSt → FlowSt) : (modFlow s n f).cl = s.cl := rfl
@[simp] theorem modFlow_mem (s : State) (n : Nat) (f : FlowSt → FlowSt) : (modFlow s n f).mem = s.mem := rfl
@[simp] theorem modFlow_st (s : State) (n : Nat) (f : FlowSt → FlowSt) : (modFlow s n f).st = s.st := rfl
@[simp] theorem modFlow_xlt (s : State) (n : Nat) (f : FlowSt → FlowSt) : (modFlow s n f).xlt = s.xlt := rfl
@[simp] theorem modFlow_eng (s : State) (n : Nat) (f : FlowSt → FlowSt) : (modFlow s n f).eng = s.eng := rfl
@[simp] theorem modFlow_wgt (s : State) (n : Nat) (f : FlowSt → FlowSt) : (modFlow s n f).wgt = s.wgt := rfl
@[simp] theorem modFlow_link (s : State) (n : Nat) (f : FlowSt → FlowSt) : (modFlow s n f).link = s.link := rfl
@[simp] theorem modFlow_port (s : State) (n : Nat) (f : FlowSt → FlowSt) : (modFlow s n f).port = s.port := rfl
@[simp] theorem modFlow_self (s : State) (n : Nat) (f : FlowSt → FlowSt) : (modFlow s n f).self = s.self := rfl
@[simp] theorem modFlow_col (s : State) (n : Nat) (f : FlowSt → FlowSt) : (modFlow s n f).col = s.col := rfl
@[simp] theorem modFlow_snp (s : State) (n : Nat) (f : FlowSt → FlowSt) : (modFlow s n f).snp = s.snp := rfl
@[simp] theorem modFlow_cod (s : State) (n : Nat) (f : FlowSt → FlowSt) : (modFlow s n f).cod = s.cod := rfl
@[simp] theorem modFlow_mport (s : State) (n : Nat) (f : FlowSt → FlowSt) : (modFlow s n f).mport = s.mport := rfl
@[simp] theorem modFlow_boot (s : State) (n : Nat) (f : FlowSt → FlowSt) : (modFlow s n f).boot = s.boot := rfl
@[simp] theorem modFlow_hif (s : State) (n : Nat) (f : FlowSt → FlowSt) : (modFlow s n f).hif = s.hif := rfl
@[simp] theorem modFlow_jtag (s : State) (n : Nat) (f : FlowSt → FlowSt) : (modFlow s n f).jtag = s.jtag := rfl
@[simp] theorem modFlow_pwr (s : State) (n : Nat) (f : FlowSt → FlowSt) : (modFlow s n f).pwr = s.pwr := rfl
@[simp] theorem modFlow_obs (s : State) (n : Nat) (f : FlowSt → FlowSt) : (modFlow s n f).obs = s.obs := rfl
@[simp] theorem modFlow_ev (s : State) (n : Nat) (f : FlowSt → FlowSt) : (modFlow s n f).ev = s.ev := rfl
@[simp] theorem modFlow_domAt (s : State) (n : Nat) (f : FlowSt → FlowSt) (j : Nat) : domAt (modFlow s n f) j = domAt s j := rfl
@[simp] theorem modFlow_seqAt (s : State) (n : Nat) (f : FlowSt → FlowSt) (j : Nat) : seqAt (modFlow s n f) j = seqAt s j := rfl
@[simp] theorem modFlow_clAt (s : State) (n : Nat) (f : FlowSt → FlowSt) (j : Nat) : clAt (modFlow s n f) j = clAt s j := rfl
@[simp] theorem modFlow_engAt (s : State) (n : Nat) (f : FlowSt → FlowSt) (j : Nat) : engAt (modFlow s n f) j = engAt s j := rfl
@[simp] theorem modFlow_mportAt (s : State) (n : Nat) (f : FlowSt → FlowSt) (j : Nat) : mportAt (modFlow s n f) j = mportAt s j := rfl
@[simp] theorem modFlow_linkAt (s : State) (n : Nat) (f : FlowSt → FlowSt) (j : Nat) : linkAt (modFlow s n f) j = linkAt s j := rfl
@[simp] theorem modFlow_portAt (s : State) (n : Nat) (f : FlowSt → FlowSt) (j : Nat) : portAt (modFlow s n f) j = portAt s j := rfl
@[simp] theorem modFlow_wgtAt (s : State) (n : Nat) (f : FlowSt → FlowSt) (j : Nat) : wgtAt (modFlow s n f) j = wgtAt s j := rfl
@[simp] theorem modFlow_ctxAt (s : State) (n : Nat) (f : FlowSt → FlowSt) (j : Nat) : ctxAt (modFlow s n f) j = ctxAt s j := rfl
theorem flowAt_modFlow (s : State) (n : Nat) (f : FlowSt → FlowSt) (j : Nat) :
    flowAt (modFlow s n f) j = if j = n ∧ n < s.flow.length then f (flowAt s n) else flowAt s j :=
  unit_modify _ _ _ _ _

/-! `modMport` -/

@[simp] theorem modMport_pending (s : State) (p : Nat) (f : MPortSt → MPortSt) : (modMport s p f).pending = s.pending := rfl
@[simp] theorem modMport_free (s : State) (p : Nat) (f : MPortSt → MPortSt) : (modMport s p f).free = s.free := rfl
@[simp] theorem modMport_nextNum (s : State) (p : Nat) (f : MPortSt → MPortSt) : (modMport s p f).nextNum = s.nextNum := rfl
@[simp] theorem modMport_out (s : State) (p : Nat) (f : MPortSt → MPortSt) : (modMport s p f).out = s.out := rfl
@[simp] theorem modMport_time (s : State) (p : Nat) (f : MPortSt → MPortSt) : (modMport s p f).time = s.time := rfl
@[simp] theorem modMport_dom (s : State) (p : Nat) (f : MPortSt → MPortSt) : (modMport s p f).dom = s.dom := rfl
@[simp] theorem modMport_seq (s : State) (p : Nat) (f : MPortSt → MPortSt) : (modMport s p f).seq = s.seq := rfl
@[simp] theorem modMport_cl (s : State) (p : Nat) (f : MPortSt → MPortSt) : (modMport s p f).cl = s.cl := rfl
@[simp] theorem modMport_mem (s : State) (p : Nat) (f : MPortSt → MPortSt) : (modMport s p f).mem = s.mem := rfl
@[simp] theorem modMport_st (s : State) (p : Nat) (f : MPortSt → MPortSt) : (modMport s p f).st = s.st := rfl
@[simp] theorem modMport_xlt (s : State) (p : Nat) (f : MPortSt → MPortSt) : (modMport s p f).xlt = s.xlt := rfl
@[simp] theorem modMport_eng (s : State) (p : Nat) (f : MPortSt → MPortSt) : (modMport s p f).eng = s.eng := rfl
@[simp] theorem modMport_wgt (s : State) (p : Nat) (f : MPortSt → MPortSt) : (modMport s p f).wgt = s.wgt := rfl
@[simp] theorem modMport_link (s : State) (p : Nat) (f : MPortSt → MPortSt) : (modMport s p f).link = s.link := rfl
@[simp] theorem modMport_port (s : State) (p : Nat) (f : MPortSt → MPortSt) : (modMport s p f).port = s.port := rfl
@[simp] theorem modMport_self (s : State) (p : Nat) (f : MPortSt → MPortSt) : (modMport s p f).self = s.self := rfl
@[simp] theorem modMport_col (s : State) (p : Nat) (f : MPortSt → MPortSt) : (modMport s p f).col = s.col := rfl
@[simp] theorem modMport_snp (s : State) (p : Nat) (f : MPortSt → MPortSt) : (modMport s p f).snp = s.snp := rfl
@[simp] theorem modMport_cod (s : State) (p : Nat) (f : MPortSt → MPortSt) : (modMport s p f).cod = s.cod := rfl
@[simp] theorem modMport_flow (s : State) (p : Nat) (f : MPortSt → MPortSt) : (modMport s p f).flow = s.flow := rfl
@[simp] theorem modMport_boot (s : State) (p : Nat) (f : MPortSt → MPortSt) : (modMport s p f).boot = s.boot := rfl
@[simp] theorem modMport_hif (s : State) (p : Nat) (f : MPortSt → MPortSt) : (modMport s p f).hif = s.hif := rfl
@[simp] theorem modMport_jtag (s : State) (p : Nat) (f : MPortSt → MPortSt) : (modMport s p f).jtag = s.jtag := rfl
@[simp] theorem modMport_pwr (s : State) (p : Nat) (f : MPortSt → MPortSt) : (modMport s p f).pwr = s.pwr := rfl
@[simp] theorem modMport_obs (s : State) (p : Nat) (f : MPortSt → MPortSt) : (modMport s p f).obs = s.obs := rfl
@[simp] theorem modMport_ev (s : State) (p : Nat) (f : MPortSt → MPortSt) : (modMport s p f).ev = s.ev := rfl
@[simp] theorem modMport_domAt (s : State) (p : Nat) (f : MPortSt → MPortSt) (j : Nat) : domAt (modMport s p f) j = domAt s j := rfl
@[simp] theorem modMport_seqAt (s : State) (p : Nat) (f : MPortSt → MPortSt) (j : Nat) : seqAt (modMport s p f) j = seqAt s j := rfl
@[simp] theorem modMport_clAt (s : State) (p : Nat) (f : MPortSt → MPortSt) (j : Nat) : clAt (modMport s p f) j = clAt s j := rfl
@[simp] theorem modMport_engAt (s : State) (p : Nat) (f : MPortSt → MPortSt) (j : Nat) : engAt (modMport s p f) j = engAt s j := rfl
@[simp] theorem modMport_flowAt (s : State) (p : Nat) (f : MPortSt → MPortSt) (j : Nat) : flowAt (modMport s p f) j = flowAt s j := rfl
@[simp] theorem modMport_linkAt (s : State) (p : Nat) (f : MPortSt → MPortSt) (j : Nat) : linkAt (modMport s p f) j = linkAt s j := rfl
@[simp] theorem modMport_portAt (s : State) (p : Nat) (f : MPortSt → MPortSt) (j : Nat) : portAt (modMport s p f) j = portAt s j := rfl
@[simp] theorem modMport_wgtAt (s : State) (p : Nat) (f : MPortSt → MPortSt) (j : Nat) : wgtAt (modMport s p f) j = wgtAt s j := rfl
@[simp] theorem modMport_ctxAt (s : State) (p : Nat) (f : MPortSt → MPortSt) (j : Nat) : ctxAt (modMport s p f) j = ctxAt s j := rfl
theorem mportAt_modMport (s : State) (p : Nat) (f : MPortSt → MPortSt) (j : Nat) :
    mportAt (modMport s p f) j = if j = p ∧ p < s.mport.length then f (mportAt s p) else mportAt s j :=
  unit_modify _ _ _ _ _

/-! `modLink` -/

@[simp] theorem modLink_pending (s : State) (k : Nat) (f : LinkSt → LinkSt) : (modLink s k f).pending = s.pending := rfl
@[simp] theorem modLink_free (s : State) (k : Nat) (f : LinkSt → LinkSt) : (modLink s k f).free = s.free := rfl
@[simp] theorem modLink_nextNum (s : State) (k : Nat) (f : LinkSt → LinkSt) : (modLink s k f).nextNum = s.nextNum := rfl
@[simp] theorem modLink_out (s : State) (k : Nat) (f : LinkSt → LinkSt) : (modLink s k f).out = s.out := rfl
@[simp] theorem modLink_time (s : State) (k : Nat) (f : LinkSt → LinkSt) : (modLink s k f).time = s.time := rfl
@[simp] theorem modLink_dom (s : State) (k : Nat) (f : LinkSt → LinkSt) : (modLink s k f).dom = s.dom := rfl
@[simp] theorem modLink_seq (s : State) (k : Nat) (f : LinkSt → LinkSt) : (modLink s k f).seq = s.seq := rfl
@[simp] theorem modLink_cl (s : State) (k : Nat) (f : LinkSt → LinkSt) : (modLink s k f).cl = s.cl := rfl
@[simp] theorem modLink_mem (s : State) (k : Nat) (f : LinkSt → LinkSt) : (modLink s k f).mem = s.mem := rfl
@[simp] theorem modLink_st (s : State) (k : Nat) (f : LinkSt → LinkSt) : (modLink s k f).st = s.st := rfl
@[simp] theorem modLink_xlt (s : State) (k : Nat) (f : LinkSt → LinkSt) : (modLink s k f).xlt = s.xlt := rfl
@[simp] theorem modLink_eng (s : State) (k : Nat) (f : LinkSt → LinkSt) : (modLink s k f).eng = s.eng := rfl
@[simp] theorem modLink_wgt (s : State) (k : Nat) (f : LinkSt → LinkSt) : (modLink s k f).wgt = s.wgt := rfl
@[simp] theorem modLink_port (s : State) (k : Nat) (f : LinkSt → LinkSt) : (modLink s k f).port = s.port := rfl
@[simp] theorem modLink_self (s : State) (k : Nat) (f : LinkSt → LinkSt) : (modLink s k f).self = s.self := rfl
@[simp] theorem modLink_col (s : State) (k : Nat) (f : LinkSt → LinkSt) : (modLink s k f).col = s.col := rfl
@[simp] theorem modLink_snp (s : State) (k : Nat) (f : LinkSt → LinkSt) : (modLink s k f).snp = s.snp := rfl
@[simp] theorem modLink_cod (s : State) (k : Nat) (f : LinkSt → LinkSt) : (modLink s k f).cod = s.cod := rfl
@[simp] theorem modLink_flow (s : State) (k : Nat) (f : LinkSt → LinkSt) : (modLink s k f).flow = s.flow := rfl
@[simp] theorem modLink_mport (s : State) (k : Nat) (f : LinkSt → LinkSt) : (modLink s k f).mport = s.mport := rfl
@[simp] theorem modLink_boot (s : State) (k : Nat) (f : LinkSt → LinkSt) : (modLink s k f).boot = s.boot := rfl
@[simp] theorem modLink_hif (s : State) (k : Nat) (f : LinkSt → LinkSt) : (modLink s k f).hif = s.hif := rfl
@[simp] theorem modLink_jtag (s : State) (k : Nat) (f : LinkSt → LinkSt) : (modLink s k f).jtag = s.jtag := rfl
@[simp] theorem modLink_pwr (s : State) (k : Nat) (f : LinkSt → LinkSt) : (modLink s k f).pwr = s.pwr := rfl
@[simp] theorem modLink_obs (s : State) (k : Nat) (f : LinkSt → LinkSt) : (modLink s k f).obs = s.obs := rfl
@[simp] theorem modLink_ev (s : State) (k : Nat) (f : LinkSt → LinkSt) : (modLink s k f).ev = s.ev := rfl
@[simp] theorem modLink_domAt (s : State) (k : Nat) (f : LinkSt → LinkSt) (j : Nat) : domAt (modLink s k f) j = domAt s j := rfl
@[simp] theorem modLink_seqAt (s : State) (k : Nat) (f : LinkSt → LinkSt) (j : Nat) : seqAt (modLink s k f) j = seqAt s j := rfl
@[simp] theorem modLink_clAt (s : State) (k : Nat) (f : LinkSt → LinkSt) (j : Nat) : clAt (modLink s k f) j = clAt s j := rfl
@[simp] theorem modLink_engAt (s : State) (k : Nat) (f : LinkSt → LinkSt) (j : Nat) : engAt (modLink s k f) j = engAt s j := rfl
@[simp] theorem modLink_flowAt (s : State) (k : Nat) (f : LinkSt → LinkSt) (j : Nat) : flowAt (modLink s k f) j = flowAt s j := rfl
@[simp] theorem modLink_mportAt (s : State) (k : Nat) (f : LinkSt → LinkSt) (j : Nat) : mportAt (modLink s k f) j = mportAt s j := rfl
@[simp] theorem modLink_portAt (s : State) (k : Nat) (f : LinkSt → LinkSt) (j : Nat) : portAt (modLink s k f) j = portAt s j := rfl
@[simp] theorem modLink_wgtAt (s : State) (k : Nat) (f : LinkSt → LinkSt) (j : Nat) : wgtAt (modLink s k f) j = wgtAt s j := rfl
@[simp] theorem modLink_ctxAt (s : State) (k : Nat) (f : LinkSt → LinkSt) (j : Nat) : ctxAt (modLink s k f) j = ctxAt s j := rfl
theorem linkAt_modLink (s : State) (k : Nat) (f : LinkSt → LinkSt) (j : Nat) :
    linkAt (modLink s k f) j = if j = k ∧ k < s.link.length then f (linkAt s k) else linkAt s j :=
  unit_modify _ _ _ _ _

/-! `modPort` -/

@[simp] theorem modPort_pending (s : State) (p : Nat) (f : PortSt → PortSt) : (modPort s p f).pending = s.pending := rfl
@[simp] theorem modPort_free (s : State) (p : Nat) (f : PortSt → PortSt) : (modPort s p f).free = s.free := rfl
@[simp] theorem modPort_nextNum (s : State) (p : Nat) (f : PortSt → PortSt) : (modPort s p f).nextNum = s.nextNum := rfl
@[simp] theorem modPort_out (s : State) (p : Nat) (f : PortSt → PortSt) : (modPort s p f).out = s.out := rfl
@[simp] theorem modPort_time (s : State) (p : Nat) (f : PortSt → PortSt) : (modPort s p f).time = s.time := rfl
@[simp] theorem modPort_dom (s : State) (p : Nat) (f : PortSt → PortSt) : (modPort s p f).dom = s.dom := rfl
@[simp] theorem modPort_seq (s : State) (p : Nat) (f : PortSt → PortSt) : (modPort s p f).seq = s.seq := rfl
@[simp] theorem modPort_cl (s : State) (p : Nat) (f : PortSt → PortSt) : (modPort s p f).cl = s.cl := rfl
@[simp] theorem modPort_mem (s : State) (p : Nat) (f : PortSt → PortSt) : (modPort s p f).mem = s.mem := rfl
@[simp] theorem modPort_st (s : State) (p : Nat) (f : PortSt → PortSt) : (modPort s p f).st = s.st := rfl
@[simp] theorem modPort_xlt (s : State) (p : Nat) (f : PortSt → PortSt) : (modPort s p f).xlt = s.xlt := rfl
@[simp] theorem modPort_eng (s : State) (p : Nat) (f : PortSt → PortSt) : (modPort s p f).eng = s.eng := rfl
@[simp] theorem modPort_wgt (s : State) (p : Nat) (f : PortSt → PortSt) : (modPort s p f).wgt = s.wgt := rfl
@[simp] theorem modPort_link (s : State) (p : Nat) (f : PortSt → PortSt) : (modPort s p f).link = s.link := rfl
@[simp] theorem modPort_self (s : State) (p : Nat) (f : PortSt → PortSt) : (modPort s p f).self = s.self := rfl
@[simp] theorem modPort_col (s : State) (p : Nat) (f : PortSt → PortSt) : (modPort s p f).col = s.col := rfl
@[simp] theorem modPort_snp (s : State) (p : Nat) (f : PortSt → PortSt) : (modPort s p f).snp = s.snp := rfl
@[simp] theorem modPort_cod (s : State) (p : Nat) (f : PortSt → PortSt) : (modPort s p f).cod = s.cod := rfl
@[simp] theorem modPort_flow (s : State) (p : Nat) (f : PortSt → PortSt) : (modPort s p f).flow = s.flow := rfl
@[simp] theorem modPort_mport (s : State) (p : Nat) (f : PortSt → PortSt) : (modPort s p f).mport = s.mport := rfl
@[simp] theorem modPort_boot (s : State) (p : Nat) (f : PortSt → PortSt) : (modPort s p f).boot = s.boot := rfl
@[simp] theorem modPort_hif (s : State) (p : Nat) (f : PortSt → PortSt) : (modPort s p f).hif = s.hif := rfl
@[simp] theorem modPort_jtag (s : State) (p : Nat) (f : PortSt → PortSt) : (modPort s p f).jtag = s.jtag := rfl
@[simp] theorem modPort_pwr (s : State) (p : Nat) (f : PortSt → PortSt) : (modPort s p f).pwr = s.pwr := rfl
@[simp] theorem modPort_obs (s : State) (p : Nat) (f : PortSt → PortSt) : (modPort s p f).obs = s.obs := rfl
@[simp] theorem modPort_ev (s : State) (p : Nat) (f : PortSt → PortSt) : (modPort s p f).ev = s.ev := rfl
@[simp] theorem modPort_domAt (s : State) (p : Nat) (f : PortSt → PortSt) (j : Nat) : domAt (modPort s p f) j = domAt s j := rfl
@[simp] theorem modPort_seqAt (s : State) (p : Nat) (f : PortSt → PortSt) (j : Nat) : seqAt (modPort s p f) j = seqAt s j := rfl
@[simp] theorem modPort_clAt (s : State) (p : Nat) (f : PortSt → PortSt) (j : Nat) : clAt (modPort s p f) j = clAt s j := rfl
@[simp] theorem modPort_engAt (s : State) (p : Nat) (f : PortSt → PortSt) (j : Nat) : engAt (modPort s p f) j = engAt s j := rfl
@[simp] theorem modPort_flowAt (s : State) (p : Nat) (f : PortSt → PortSt) (j : Nat) : flowAt (modPort s p f) j = flowAt s j := rfl
@[simp] theorem modPort_mportAt (s : State) (p : Nat) (f : PortSt → PortSt) (j : Nat) : mportAt (modPort s p f) j = mportAt s j := rfl
@[simp] theorem modPort_linkAt (s : State) (p : Nat) (f : PortSt → PortSt) (j : Nat) : linkAt (modPort s p f) j = linkAt s j := rfl
@[simp] theorem modPort_wgtAt (s : State) (p : Nat) (f : PortSt → PortSt) (j : Nat) : wgtAt (modPort s p f) j = wgtAt s j := rfl
@[simp] theorem modPort_ctxAt (s : State) (p : Nat) (f : PortSt → PortSt) (j : Nat) : ctxAt (modPort s p f) j = ctxAt s j := rfl
theorem portAt_modPort (s : State) (p : Nat) (f : PortSt → PortSt) (j : Nat) :
    portAt (modPort s p f) j = if j = p ∧ p < s.port.length then f (portAt s p) else portAt s j :=
  unit_modify _ _ _ _ _

/-! `modWgt` -/

@[simp] theorem modWgt_pending (s : State) (m : Nat) (f : ModelSt → ModelSt) : (modWgt s m f).pending = s.pending := rfl
@[simp] theorem modWgt_free (s : State) (m : Nat) (f : ModelSt → ModelSt) : (modWgt s m f).free = s.free := rfl
@[simp] theorem modWgt_nextNum (s : State) (m : Nat) (f : ModelSt → ModelSt) : (modWgt s m f).nextNum = s.nextNum := rfl
@[simp] theorem modWgt_out (s : State) (m : Nat) (f : ModelSt → ModelSt) : (modWgt s m f).out = s.out := rfl
@[simp] theorem modWgt_time (s : State) (m : Nat) (f : ModelSt → ModelSt) : (modWgt s m f).time = s.time := rfl
@[simp] theorem modWgt_dom (s : State) (m : Nat) (f : ModelSt → ModelSt) : (modWgt s m f).dom = s.dom := rfl
@[simp] theorem modWgt_seq (s : State) (m : Nat) (f : ModelSt → ModelSt) : (modWgt s m f).seq = s.seq := rfl
@[simp] theorem modWgt_cl (s : State) (m : Nat) (f : ModelSt → ModelSt) : (modWgt s m f).cl = s.cl := rfl
@[simp] theorem modWgt_mem (s : State) (m : Nat) (f : ModelSt → ModelSt) : (modWgt s m f).mem = s.mem := rfl
@[simp] theorem modWgt_st (s : State) (m : Nat) (f : ModelSt → ModelSt) : (modWgt s m f).st = s.st := rfl
@[simp] theorem modWgt_xlt (s : State) (m : Nat) (f : ModelSt → ModelSt) : (modWgt s m f).xlt = s.xlt := rfl
@[simp] theorem modWgt_eng (s : State) (m : Nat) (f : ModelSt → ModelSt) : (modWgt s m f).eng = s.eng := rfl
@[simp] theorem modWgt_link (s : State) (m : Nat) (f : ModelSt → ModelSt) : (modWgt s m f).link = s.link := rfl
@[simp] theorem modWgt_port (s : State) (m : Nat) (f : ModelSt → ModelSt) : (modWgt s m f).port = s.port := rfl
@[simp] theorem modWgt_self (s : State) (m : Nat) (f : ModelSt → ModelSt) : (modWgt s m f).self = s.self := rfl
@[simp] theorem modWgt_col (s : State) (m : Nat) (f : ModelSt → ModelSt) : (modWgt s m f).col = s.col := rfl
@[simp] theorem modWgt_snp (s : State) (m : Nat) (f : ModelSt → ModelSt) : (modWgt s m f).snp = s.snp := rfl
@[simp] theorem modWgt_cod (s : State) (m : Nat) (f : ModelSt → ModelSt) : (modWgt s m f).cod = s.cod := rfl
@[simp] theorem modWgt_flow (s : State) (m : Nat) (f : ModelSt → ModelSt) : (modWgt s m f).flow = s.flow := rfl
@[simp] theorem modWgt_mport (s : State) (m : Nat) (f : ModelSt → ModelSt) : (modWgt s m f).mport = s.mport := rfl
@[simp] theorem modWgt_boot (s : State) (m : Nat) (f : ModelSt → ModelSt) : (modWgt s m f).boot = s.boot := rfl
@[simp] theorem modWgt_hif (s : State) (m : Nat) (f : ModelSt → ModelSt) : (modWgt s m f).hif = s.hif := rfl
@[simp] theorem modWgt_jtag (s : State) (m : Nat) (f : ModelSt → ModelSt) : (modWgt s m f).jtag = s.jtag := rfl
@[simp] theorem modWgt_pwr (s : State) (m : Nat) (f : ModelSt → ModelSt) : (modWgt s m f).pwr = s.pwr := rfl
@[simp] theorem modWgt_obs (s : State) (m : Nat) (f : ModelSt → ModelSt) : (modWgt s m f).obs = s.obs := rfl
@[simp] theorem modWgt_ev (s : State) (m : Nat) (f : ModelSt → ModelSt) : (modWgt s m f).ev = s.ev := rfl
@[simp] theorem modWgt_domAt (s : State) (m : Nat) (f : ModelSt → ModelSt) (j : Nat) : domAt (modWgt s m f) j = domAt s j := rfl
@[simp] theorem modWgt_seqAt (s : State) (m : Nat) (f : ModelSt → ModelSt) (j : Nat) : seqAt (modWgt s m f) j = seqAt s j := rfl
@[simp] theorem modWgt_clAt (s : State) (m : Nat) (f : ModelSt → ModelSt) (j : Nat) : clAt (modWgt s m f) j = clAt s j := rfl
@[simp] theorem modWgt_engAt (s : State) (m : Nat) (f : ModelSt → ModelSt) (j : Nat) : engAt (modWgt s m f) j = engAt s j := rfl
@[simp] theorem modWgt_flowAt (s : State) (m : Nat) (f : ModelSt → ModelSt) (j : Nat) : flowAt (modWgt s m f) j = flowAt s j := rfl
@[simp] theorem modWgt_mportAt (s : State) (m : Nat) (f : ModelSt → ModelSt) (j : Nat) : mportAt (modWgt s m f) j = mportAt s j := rfl
@[simp] theorem modWgt_linkAt (s : State) (m : Nat) (f : ModelSt → ModelSt) (j : Nat) : linkAt (modWgt s m f) j = linkAt s j := rfl
@[simp] theorem modWgt_portAt (s : State) (m : Nat) (f : ModelSt → ModelSt) (j : Nat) : portAt (modWgt s m f) j = portAt s j := rfl
@[simp] theorem modWgt_ctxAt (s : State) (m : Nat) (f : ModelSt → ModelSt) (j : Nat) : ctxAt (modWgt s m f) j = ctxAt s j := rfl
theorem wgtAt_modWgt (s : State) (m : Nat) (f : ModelSt → ModelSt) (j : Nat) :
    wgtAt (modWgt s m f) j = if j = m ∧ m < s.wgt.length then f (wgtAt s m) else wgtAt s j :=
  unit_modify _ _ _ _ _

/-! `modCtx` -/

@[simp] theorem modCtx_pending (s : State) (c : Nat) (f : CtxSt → CtxSt) : (modCtx s c f).pending = s.pending := rfl
@[simp] theorem modCtx_free (s : State) (c : Nat) (f : CtxSt → CtxSt) : (modCtx s c f).free = s.free := rfl
@[simp] theorem modCtx_nextNum (s : State) (c : Nat) (f : CtxSt → CtxSt) : (modCtx s c f).nextNum = s.nextNum := rfl
@[simp] theorem modCtx_out (s : State) (c : Nat) (f : CtxSt → CtxSt) : (modCtx s c f).out = s.out := rfl
@[simp] theorem modCtx_time (s : State) (c : Nat) (f : CtxSt → CtxSt) : (modCtx s c f).time = s.time := rfl
@[simp] theorem modCtx_dom (s : State) (c : Nat) (f : CtxSt → CtxSt) : (modCtx s c f).dom = s.dom := rfl
@[simp] theorem modCtx_seq (s : State) (c : Nat) (f : CtxSt → CtxSt) : (modCtx s c f).seq = s.seq := rfl
@[simp] theorem modCtx_cl (s : State) (c : Nat) (f : CtxSt → CtxSt) : (modCtx s c f).cl = s.cl := rfl
@[simp] theorem modCtx_mem (s : State) (c : Nat) (f : CtxSt → CtxSt) : (modCtx s c f).mem = s.mem := rfl
@[simp] theorem modCtx_st (s : State) (c : Nat) (f : CtxSt → CtxSt) : (modCtx s c f).st = s.st := rfl
@[simp] theorem modCtx_xlt (s : State) (c : Nat) (f : CtxSt → CtxSt) : (modCtx s c f).xlt = s.xlt := rfl
@[simp] theorem modCtx_eng (s : State) (c : Nat) (f : CtxSt → CtxSt) : (modCtx s c f).eng = s.eng := rfl
@[simp] theorem modCtx_wgt (s : State) (c : Nat) (f : CtxSt → CtxSt) : (modCtx s c f).wgt = s.wgt := rfl
@[simp] theorem modCtx_link (s : State) (c : Nat) (f : CtxSt → CtxSt) : (modCtx s c f).link = s.link := rfl
@[simp] theorem modCtx_port (s : State) (c : Nat) (f : CtxSt → CtxSt) : (modCtx s c f).port = s.port := rfl
@[simp] theorem modCtx_self (s : State) (c : Nat) (f : CtxSt → CtxSt) : (modCtx s c f).self = s.self := rfl
@[simp] theorem modCtx_col (s : State) (c : Nat) (f : CtxSt → CtxSt) : (modCtx s c f).col = s.col := rfl
@[simp] theorem modCtx_snp (s : State) (c : Nat) (f : CtxSt → CtxSt) : (modCtx s c f).snp = s.snp := rfl
@[simp] theorem modCtx_flow (s : State) (c : Nat) (f : CtxSt → CtxSt) : (modCtx s c f).flow = s.flow := rfl
@[simp] theorem modCtx_mport (s : State) (c : Nat) (f : CtxSt → CtxSt) : (modCtx s c f).mport = s.mport := rfl
@[simp] theorem modCtx_boot (s : State) (c : Nat) (f : CtxSt → CtxSt) : (modCtx s c f).boot = s.boot := rfl
@[simp] theorem modCtx_hif (s : State) (c : Nat) (f : CtxSt → CtxSt) : (modCtx s c f).hif = s.hif := rfl
@[simp] theorem modCtx_jtag (s : State) (c : Nat) (f : CtxSt → CtxSt) : (modCtx s c f).jtag = s.jtag := rfl
@[simp] theorem modCtx_pwr (s : State) (c : Nat) (f : CtxSt → CtxSt) : (modCtx s c f).pwr = s.pwr := rfl
@[simp] theorem modCtx_obs (s : State) (c : Nat) (f : CtxSt → CtxSt) : (modCtx s c f).obs = s.obs := rfl
@[simp] theorem modCtx_ev (s : State) (c : Nat) (f : CtxSt → CtxSt) : (modCtx s c f).ev = s.ev := rfl
@[simp] theorem modCtx_domAt (s : State) (c : Nat) (f : CtxSt → CtxSt) (j : Nat) : domAt (modCtx s c f) j = domAt s j := rfl
@[simp] theorem modCtx_seqAt (s : State) (c : Nat) (f : CtxSt → CtxSt) (j : Nat) : seqAt (modCtx s c f) j = seqAt s j := rfl
@[simp] theorem modCtx_clAt (s : State) (c : Nat) (f : CtxSt → CtxSt) (j : Nat) : clAt (modCtx s c f) j = clAt s j := rfl
@[simp] theorem modCtx_engAt (s : State) (c : Nat) (f : CtxSt → CtxSt) (j : Nat) : engAt (modCtx s c f) j = engAt s j := rfl
@[simp] theorem modCtx_flowAt (s : State) (c : Nat) (f : CtxSt → CtxSt) (j : Nat) : flowAt (modCtx s c f) j = flowAt s j := rfl
@[simp] theorem modCtx_mportAt (s : State) (c : Nat) (f : CtxSt → CtxSt) (j : Nat) : mportAt (modCtx s c f) j = mportAt s j := rfl
@[simp] theorem modCtx_linkAt (s : State) (c : Nat) (f : CtxSt → CtxSt) (j : Nat) : linkAt (modCtx s c f) j = linkAt s j := rfl
@[simp] theorem modCtx_portAt (s : State) (c : Nat) (f : CtxSt → CtxSt) (j : Nat) : portAt (modCtx s c f) j = portAt s j := rfl
@[simp] theorem modCtx_wgtAt (s : State) (c : Nat) (f : CtxSt → CtxSt) (j : Nat) : wgtAt (modCtx s c f) j = wgtAt s j := rfl
theorem ctxAt_modCtx (s : State) (c : Nat) (f : CtxSt → CtxSt) (j : Nat) :
    ctxAt (modCtx s c f) j = if j = c ∧ c < s.cod.ctxs.length then f (ctxAt s c) else ctxAt s j :=
  unit_modify _ _ _ _ _

/-! `drew` -/

@[simp] theorem drew_pending (s : State)  : (drew s).pending = s.pending := rfl
@[simp] theorem drew_nextNum (s : State)  : (drew s).nextNum = s.nextNum := rfl
@[simp] theorem drew_out (s : State)  : (drew s).out = s.out := rfl
@[simp] theorem drew_time (s : State)  : (drew s).time = s.time := rfl
@[simp] theorem drew_dom (s : State)  : (drew s).dom = s.dom := rfl
@[simp] theorem drew_seq (s : State)  : (drew s).seq = s.seq := rfl
@[simp] theorem drew_cl (s : State)  : (drew s).cl = s.cl := rfl
@[simp] theorem drew_mem (s : State)  : (drew s).mem = s.mem := rfl
@[simp] theorem drew_st (s : State)  : (drew s).st = s.st := rfl
@[simp] theorem drew_xlt (s : State)  : (drew s).xlt = s.xlt := rfl
@[simp] theorem drew_eng (s : State)  : (drew s).eng = s.eng := rfl
@[simp] theorem drew_wgt (s : State)  : (drew s).wgt = s.wgt := rfl
@[simp] theorem drew_link (s : State)  : (drew s).link = s.link := rfl
@[simp] theorem drew_port (s : State)  : (drew s).port = s.port := rfl
@[simp] theorem drew_self (s : State)  : (drew s).self = s.self := rfl
@[simp] theorem drew_col (s : State)  : (drew s).col = s.col := rfl
@[simp] theorem drew_snp (s : State)  : (drew s).snp = s.snp := rfl
@[simp] theorem drew_cod (s : State)  : (drew s).cod = s.cod := rfl
@[simp] theorem drew_flow (s : State)  : (drew s).flow = s.flow := rfl
@[simp] theorem drew_mport (s : State)  : (drew s).mport = s.mport := rfl
@[simp] theorem drew_boot (s : State)  : (drew s).boot = s.boot := rfl
@[simp] theorem drew_hif (s : State)  : (drew s).hif = s.hif := rfl
@[simp] theorem drew_jtag (s : State)  : (drew s).jtag = s.jtag := rfl
@[simp] theorem drew_pwr (s : State)  : (drew s).pwr = s.pwr := rfl
@[simp] theorem drew_obs (s : State)  : (drew s).obs = s.obs := rfl
@[simp] theorem drew_ev (s : State)  : (drew s).ev = s.ev := rfl
@[simp] theorem drew_domAt (s : State)  (j : Nat) : domAt (drew s) j = domAt s j := rfl
@[simp] theorem drew_seqAt (s : State)  (j : Nat) : seqAt (drew s) j = seqAt s j := rfl
@[simp] theorem drew_clAt (s : State)  (j : Nat) : clAt (drew s) j = clAt s j := rfl
@[simp] theorem drew_engAt (s : State)  (j : Nat) : engAt (drew s) j = engAt s j := rfl
@[simp] theorem drew_flowAt (s : State)  (j : Nat) : flowAt (drew s) j = flowAt s j := rfl
@[simp] theorem drew_mportAt (s : State)  (j : Nat) : mportAt (drew s) j = mportAt s j := rfl
@[simp] theorem drew_linkAt (s : State)  (j : Nat) : linkAt (drew s) j = linkAt s j := rfl
@[simp] theorem drew_portAt (s : State)  (j : Nat) : portAt (drew s) j = portAt s j := rfl
@[simp] theorem drew_wgtAt (s : State)  (j : Nat) : wgtAt (drew s) j = wgtAt s j := rfl
@[simp] theorem drew_ctxAt (s : State)  (j : Nat) : ctxAt (drew s) j = ctxAt s j := rfl

/-! `emit` -/

@[simp] theorem emit_pending (s : State) (o : Out) : (emit s o).pending = s.pending := rfl
@[simp] theorem emit_free (s : State) (o : Out) : (emit s o).free = s.free := rfl
@[simp] theorem emit_nextNum (s : State) (o : Out) : (emit s o).nextNum = s.nextNum := rfl
@[simp] theorem emit_time (s : State) (o : Out) : (emit s o).time = s.time := rfl
@[simp] theorem emit_dom (s : State) (o : Out) : (emit s o).dom = s.dom := rfl
@[simp] theorem emit_seq (s : State) (o : Out) : (emit s o).seq = s.seq := rfl
@[simp] theorem emit_cl (s : State) (o : Out) : (emit s o).cl = s.cl := rfl
@[simp] theorem emit_mem (s : State) (o : Out) : (emit s o).mem = s.mem := rfl
@[simp] theorem emit_st (s : State) (o : Out) : (emit s o).st = s.st := rfl
@[simp] theorem emit_xlt (s : State) (o : Out) : (emit s o).xlt = s.xlt := rfl
@[simp] theorem emit_eng (s : State) (o : Out) : (emit s o).eng = s.eng := rfl
@[simp] theorem emit_wgt (s : State) (o : Out) : (emit s o).wgt = s.wgt := rfl
@[simp] theorem emit_link (s : State) (o : Out) : (emit s o).link = s.link := rfl
@[simp] theorem emit_port (s : State) (o : Out) : (emit s o).port = s.port := rfl
@[simp] theorem emit_self (s : State) (o : Out) : (emit s o).self = s.self := rfl
@[simp] theorem emit_col (s : State) (o : Out) : (emit s o).col = s.col := rfl
@[simp] theorem emit_snp (s : State) (o : Out) : (emit s o).snp = s.snp := rfl
@[simp] theorem emit_cod (s : State) (o : Out) : (emit s o).cod = s.cod := rfl
@[simp] theorem emit_flow (s : State) (o : Out) : (emit s o).flow = s.flow := rfl
@[simp] theorem emit_mport (s : State) (o : Out) : (emit s o).mport = s.mport := rfl
@[simp] theorem emit_boot (s : State) (o : Out) : (emit s o).boot = s.boot := rfl
@[simp] theorem emit_hif (s : State) (o : Out) : (emit s o).hif = s.hif := rfl
@[simp] theorem emit_jtag (s : State) (o : Out) : (emit s o).jtag = s.jtag := rfl
@[simp] theorem emit_pwr (s : State) (o : Out) : (emit s o).pwr = s.pwr := rfl
@[simp] theorem emit_obs (s : State) (o : Out) : (emit s o).obs = s.obs := rfl
@[simp] theorem emit_ev (s : State) (o : Out) : (emit s o).ev = s.ev := rfl
@[simp] theorem emit_domAt (s : State) (o : Out) (j : Nat) : domAt (emit s o) j = domAt s j := rfl
@[simp] theorem emit_seqAt (s : State) (o : Out) (j : Nat) : seqAt (emit s o) j = seqAt s j := rfl
@[simp] theorem emit_clAt (s : State) (o : Out) (j : Nat) : clAt (emit s o) j = clAt s j := rfl
@[simp] theorem emit_engAt (s : State) (o : Out) (j : Nat) : engAt (emit s o) j = engAt s j := rfl
@[simp] theorem emit_flowAt (s : State) (o : Out) (j : Nat) : flowAt (emit s o) j = flowAt s j := rfl
@[simp] theorem emit_mportAt (s : State) (o : Out) (j : Nat) : mportAt (emit s o) j = mportAt s j := rfl
@[simp] theorem emit_linkAt (s : State) (o : Out) (j : Nat) : linkAt (emit s o) j = linkAt s j := rfl
@[simp] theorem emit_portAt (s : State) (o : Out) (j : Nat) : portAt (emit s o) j = portAt s j := rfl
@[simp] theorem emit_wgtAt (s : State) (o : Out) (j : Nat) : wgtAt (emit s o) j = wgtAt s j := rfl
@[simp] theorem emit_ctxAt (s : State) (o : Out) (j : Nat) : ctxAt (emit s o) j = ctxAt s j := rfl

/-! `ctrSet` -/

@[simp] theorem ctrSet_pending (s : State) (i v : Nat) : (ctrSet s i v).pending = s.pending := rfl
@[simp] theorem ctrSet_free (s : State) (i v : Nat) : (ctrSet s i v).free = s.free := rfl
@[simp] theorem ctrSet_nextNum (s : State) (i v : Nat) : (ctrSet s i v).nextNum = s.nextNum := rfl
@[simp] theorem ctrSet_out (s : State) (i v : Nat) : (ctrSet s i v).out = s.out := rfl
@[simp] theorem ctrSet_time (s : State) (i v : Nat) : (ctrSet s i v).time = s.time := rfl
@[simp] theorem ctrSet_dom (s : State) (i v : Nat) : (ctrSet s i v).dom = s.dom := rfl
@[simp] theorem ctrSet_seq (s : State) (i v : Nat) : (ctrSet s i v).seq = s.seq := rfl
@[simp] theorem ctrSet_cl (s : State) (i v : Nat) : (ctrSet s i v).cl = s.cl := rfl
@[simp] theorem ctrSet_mem (s : State) (i v : Nat) : (ctrSet s i v).mem = s.mem := rfl
@[simp] theorem ctrSet_st (s : State) (i v : Nat) : (ctrSet s i v).st = s.st := rfl
@[simp] theorem ctrSet_xlt (s : State) (i v : Nat) : (ctrSet s i v).xlt = s.xlt := rfl
@[simp] theorem ctrSet_eng (s : State) (i v : Nat) : (ctrSet s i v).eng = s.eng := rfl
@[simp] theorem ctrSet_wgt (s : State) (i v : Nat) : (ctrSet s i v).wgt = s.wgt := rfl
@[simp] theorem ctrSet_link (s : State) (i v : Nat) : (ctrSet s i v).link = s.link := rfl
@[simp] theorem ctrSet_port (s : State) (i v : Nat) : (ctrSet s i v).port = s.port := rfl
@[simp] theorem ctrSet_self (s : State) (i v : Nat) : (ctrSet s i v).self = s.self := rfl
@[simp] theorem ctrSet_col (s : State) (i v : Nat) : (ctrSet s i v).col = s.col := rfl
@[simp] theorem ctrSet_snp (s : State) (i v : Nat) : (ctrSet s i v).snp = s.snp := rfl
@[simp] theorem ctrSet_cod (s : State) (i v : Nat) : (ctrSet s i v).cod = s.cod := rfl
@[simp] theorem ctrSet_flow (s : State) (i v : Nat) : (ctrSet s i v).flow = s.flow := rfl
@[simp] theorem ctrSet_mport (s : State) (i v : Nat) : (ctrSet s i v).mport = s.mport := rfl
@[simp] theorem ctrSet_boot (s : State) (i v : Nat) : (ctrSet s i v).boot = s.boot := rfl
@[simp] theorem ctrSet_hif (s : State) (i v : Nat) : (ctrSet s i v).hif = s.hif := rfl
@[simp] theorem ctrSet_jtag (s : State) (i v : Nat) : (ctrSet s i v).jtag = s.jtag := rfl
@[simp] theorem ctrSet_pwr (s : State) (i v : Nat) : (ctrSet s i v).pwr = s.pwr := rfl
@[simp] theorem ctrSet_ev (s : State) (i v : Nat) : (ctrSet s i v).ev = s.ev := rfl
@[simp] theorem ctrSet_domAt (s : State) (i v : Nat) (j : Nat) : domAt (ctrSet s i v) j = domAt s j := rfl
@[simp] theorem ctrSet_seqAt (s : State) (i v : Nat) (j : Nat) : seqAt (ctrSet s i v) j = seqAt s j := rfl
@[simp] theorem ctrSet_clAt (s : State) (i v : Nat) (j : Nat) : clAt (ctrSet s i v) j = clAt s j := rfl
@[simp] theorem ctrSet_engAt (s : State) (i v : Nat) (j : Nat) : engAt (ctrSet s i v) j = engAt s j := rfl
@[simp] theorem ctrSet_flowAt (s : State) (i v : Nat) (j : Nat) : flowAt (ctrSet s i v) j = flowAt s j := rfl
@[simp] theorem ctrSet_mportAt (s : State) (i v : Nat) (j : Nat) : mportAt (ctrSet s i v) j = mportAt s j := rfl
@[simp] theorem ctrSet_linkAt (s : State) (i v : Nat) (j : Nat) : linkAt (ctrSet s i v) j = linkAt s j := rfl
@[simp] theorem ctrSet_portAt (s : State) (i v : Nat) (j : Nat) : portAt (ctrSet s i v) j = portAt s j := rfl
@[simp] theorem ctrSet_wgtAt (s : State) (i v : Nat) (j : Nat) : wgtAt (ctrSet s i v) j = wgtAt s j := rfl
@[simp] theorem ctrSet_ctxAt (s : State) (i v : Nat) (j : Nat) : ctxAt (ctrSet s i v) j = ctxAt s j := rfl

/-! `ctrAdd` -/

@[simp] theorem ctrAdd_pending (s : State) (i n : Nat) : (ctrAdd s i n).pending = s.pending := rfl
@[simp] theorem ctrAdd_free (s : State) (i n : Nat) : (ctrAdd s i n).free = s.free := rfl
@[simp] theorem ctrAdd_nextNum (s : State) (i n : Nat) : (ctrAdd s i n).nextNum = s.nextNum := rfl
@[simp] theorem ctrAdd_out (s : State) (i n : Nat) : (ctrAdd s i n).out = s.out := rfl
@[simp] theorem ctrAdd_time (s : State) (i n : Nat) : (ctrAdd s i n).time = s.time := rfl
@[simp] theorem ctrAdd_dom (s : State) (i n : Nat) : (ctrAdd s i n).dom = s.dom := rfl
@[simp] theorem ctrAdd_seq (s : State) (i n : Nat) : (ctrAdd s i n).seq = s.seq := rfl
@[simp] theorem ctrAdd_cl (s : State) (i n : Nat) : (ctrAdd s i n).cl = s.cl := rfl
@[simp] theorem ctrAdd_mem (s : State) (i n : Nat) : (ctrAdd s i n).mem = s.mem := rfl
@[simp] theorem ctrAdd_st (s : State) (i n : Nat) : (ctrAdd s i n).st = s.st := rfl
@[simp] theorem ctrAdd_xlt (s : State) (i n : Nat) : (ctrAdd s i n).xlt = s.xlt := rfl
@[simp] theorem ctrAdd_eng (s : State) (i n : Nat) : (ctrAdd s i n).eng = s.eng := rfl
@[simp] theorem ctrAdd_wgt (s : State) (i n : Nat) : (ctrAdd s i n).wgt = s.wgt := rfl
@[simp] theorem ctrAdd_link (s : State) (i n : Nat) : (ctrAdd s i n).link = s.link := rfl
@[simp] theorem ctrAdd_port (s : State) (i n : Nat) : (ctrAdd s i n).port = s.port := rfl
@[simp] theorem ctrAdd_self (s : State) (i n : Nat) : (ctrAdd s i n).self = s.self := rfl
@[simp] theorem ctrAdd_col (s : State) (i n : Nat) : (ctrAdd s i n).col = s.col := rfl
@[simp] theorem ctrAdd_snp (s : State) (i n : Nat) : (ctrAdd s i n).snp = s.snp := rfl
@[simp] theorem ctrAdd_cod (s : State) (i n : Nat) : (ctrAdd s i n).cod = s.cod := rfl
@[simp] theorem ctrAdd_flow (s : State) (i n : Nat) : (ctrAdd s i n).flow = s.flow := rfl
@[simp] theorem ctrAdd_mport (s : State) (i n : Nat) : (ctrAdd s i n).mport = s.mport := rfl
@[simp] theorem ctrAdd_boot (s : State) (i n : Nat) : (ctrAdd s i n).boot = s.boot := rfl
@[simp] theorem ctrAdd_hif (s : State) (i n : Nat) : (ctrAdd s i n).hif = s.hif := rfl
@[simp] theorem ctrAdd_jtag (s : State) (i n : Nat) : (ctrAdd s i n).jtag = s.jtag := rfl
@[simp] theorem ctrAdd_pwr (s : State) (i n : Nat) : (ctrAdd s i n).pwr = s.pwr := rfl
@[simp] theorem ctrAdd_ev (s : State) (i n : Nat) : (ctrAdd s i n).ev = s.ev := rfl
@[simp] theorem ctrAdd_domAt (s : State) (i n : Nat) (j : Nat) : domAt (ctrAdd s i n) j = domAt s j := rfl
@[simp] theorem ctrAdd_seqAt (s : State) (i n : Nat) (j : Nat) : seqAt (ctrAdd s i n) j = seqAt s j := rfl
@[simp] theorem ctrAdd_clAt (s : State) (i n : Nat) (j : Nat) : clAt (ctrAdd s i n) j = clAt s j := rfl
@[simp] theorem ctrAdd_engAt (s : State) (i n : Nat) (j : Nat) : engAt (ctrAdd s i n) j = engAt s j := rfl
@[simp] theorem ctrAdd_flowAt (s : State) (i n : Nat) (j : Nat) : flowAt (ctrAdd s i n) j = flowAt s j := rfl
@[simp] theorem ctrAdd_mportAt (s : State) (i n : Nat) (j : Nat) : mportAt (ctrAdd s i n) j = mportAt s j := rfl
@[simp] theorem ctrAdd_linkAt (s : State) (i n : Nat) (j : Nat) : linkAt (ctrAdd s i n) j = linkAt s j := rfl
@[simp] theorem ctrAdd_portAt (s : State) (i n : Nat) (j : Nat) : portAt (ctrAdd s i n) j = portAt s j := rfl
@[simp] theorem ctrAdd_wgtAt (s : State) (i n : Nat) (j : Nat) : wgtAt (ctrAdd s i n) j = wgtAt s j := rfl
@[simp] theorem ctrAdd_ctxAt (s : State) (i n : Nat) (j : Nat) : ctxAt (ctrAdd s i n) j = ctxAt s j := rfl

end Sys2Proof.Machine
end

