-- ==== Sys2Proof/WellFormed.lean ====
section
/-! DEFINITION. What a command can carry: the bounds that the interface it comes over gives its operands. Each check is a
definition of its own; `Instr.wf` joins them. A command that breaks one cannot arrive; exec still answers for it. -/

namespace Sys2Proof

/-- A scalar access has 1, 2, 4 or 8 bytes (09 R170). -/
def wfScalar (a : ScalarAcc) : Bool := a.size == 1 || a.size == 2 || a.size == 4 || a.size == 8

/-- One reading per stack (10 R189). -/
def wfStackTemps (ts : List Int) : Bool := ts.length == 20

/-- A packet has 1 to 16 flits of 242 bytes with a header of 16 (14 R275). -/
def wfPayload (payload : List Byte) : Bool := payload.length ≤ 3856

/-- A memory request names 1 to 64 sectors and carries its write data (14 R275). -/
def wfMemRequest (op : MemOp) (sectors : Nat) (data : List Byte) : Bool :=
  decide (1 ≤ sectors ∧ sectors ≤ 64) &&
    (match op with
     | .write => decide (1 ≤ data.length ∧ data.length ≤ 32 * sectors)
     | _ => data.isEmpty)

/-- A memory response carries at most 64 sectors (14 R275). -/
def wfMemData (data : List Byte) : Bool := data.length ≤ 2048

/-- A shard holds at most 3,840 data bytes (15 R289). -/
def wfShard (x : Shard) : Bool := x.data.length ≤ 3840

/-- Sectors found by a scrub of a channel are sectors of the stacks (10 R179). -/
def wfSectors (l : List (Nat × EccKind)) : Bool := l.all fun x => decide (x.1 < 0xA00000000)

/-- A sector of the stacks. -/
def wfSector (n : Nat) : Bool := n < 0xA00000000

/-- Yealm numbers (12 Table 12.2: at most 65,536). -/
def wfYealm (y : Nat) : Bool := y < 65536

/-- A BAR2 access: data for a write, a length for a read, within one request (19 R359, R361). -/
def wfBar2 (write : Bool) (len : Nat) (data : List Byte) : Bool :=
  if write then len == data.length && decide (1 ≤ len ∧ len ≤ 512) else data.isEmpty && decide (1 ≤ len ∧ len ≤ 4096)

/-- SET_REPAIRS carries 1 to 32 entries (19 Table 19.10). -/
def wfRepairs (l : List Word64) : Bool := decide (1 ≤ l.length ∧ l.length ≤ 32)

/-- READ_COUNTERS asks for 1 to 32 counters (19 Table 19.10). -/
def wfCount (n : Byte) : Bool := decide (1 ≤ n.toNat ∧ n.toNat ≤ 32)

/-- FLASH_WRITE carries 1 to 256 bytes (19 Table 19.10). -/
def wfFlashBytes (l : List Byte) : Bool := decide (1 ≤ l.length ∧ l.length ≤ 256)

/-- FLASH_READ asks for 1 to 256 bytes (19 Table 19.10). -/
def wfFlashLen (n : BitVec 16) : Bool := decide (1 ≤ n.toNat ∧ n.toNat ≤ 256)

/-- One flag per rail (22 Table 22.3: rails 0-31). -/
def wfRails (l : List Bool) : Bool := l.length == 32

/-- One reading per compute die and base die (20 R374). -/
def wfDies (cd bd : List Int) : Bool := cd.length == 4 && bd.length == 4

/-- One reading per link engine and media engine (20 R377). -/
def wfOptics (links media : List Int) : Bool := links.length == 32 && media.length == 4

/-- The command is one that its interface can carry. -/
def Instr.wf : Instr → Bool
  | .scalarAccess _ a => wfScalar a
  | .eavesTimeout n => wfSector n
  | .scrub _ l => wfSectors l
  | .stackTempSample ts => wfStackTemps ts
  | .refetchDone _ y _ => wfYealm y
  | .packetReceive _ _ p => wfPayload p
  | .memRequest _ _ op _ n d => wfMemRequest op n d
  | .memResponse _ _ d => wfMemData d
  | .shardReceive x => wfShard x
  | .bar2Access w _ n d => wfBar2 w n d
  | .setRepairs _ _ l => wfRepairs l
  | .readCounters _ _ n => wfCount n
  | .flashWrite _ _ l => wfFlashBytes l
  | .flashRead _ _ n => wfFlashLen n
  | .railSample l => wfRails l
  | .dieTempSample cd bd _ => wfDies cd bd
  | .opticalTempSample l m => wfOptics l m
  | _ => true

end Sys2Proof
end

