-- ==== Sys2Proof/Tests/Slice0.lean ====
section
/-! SUPPORT. The author's own tests: an ill-formed command for each check, the decoder, and for each statement with
hypotheses a concrete state and operands that meet them. -/

namespace Sys2Proof.Tests

open Sys2Proof Sys2Proof.Machine

set_option Elab.async false

/-! ### Ill-formed commands -/

theorem test_wf_scalar : (Instr.scalarAccess 0 ⟨false, 3, 0, 1⟩).wf = false := by decide
theorem test_wf_sector : (Instr.eavesTimeout 0xA00000000).wf = false := by decide
theorem test_wf_sectors : (Instr.scrub 0 [(0xA00000000, .corrected)]).wf = false := by decide
theorem test_wf_stackTemps : (Instr.stackTempSample [40]).wf = false := by decide
theorem test_wf_yealm : (Instr.refetchDone 0 65536 true).wf = false := by decide
theorem test_wf_payload : (Instr.packetReceive 0 0 (List.replicate 3857 0)).wf = false := by decide +kernel
theorem test_wf_memRequest : (Instr.memRequest 0 0 .write 0 1 []).wf = false := by decide
theorem test_wf_memData : (Instr.memResponse 0 .retry (List.replicate 2049 0)).wf = false := by decide +kernel
theorem test_wf_shard : (Instr.shardReceive ⟨0, 0, 0, 0, 0, 0, List.replicate 3841 0⟩).wf = false := by decide +kernel
theorem test_wf_bar2 : (Instr.bar2Access true 0 4 []).wf = false := by decide
theorem test_wf_repairs : (Instr.setRepairs 0 true []).wf = false := by decide
theorem test_wf_count : (Instr.readCounters 0 0 33).wf = false := by decide
theorem test_wf_flashBytes : (Instr.flashWrite 0 0 []).wf = false := by decide
theorem test_wf_flashLen : (Instr.flashRead 0 0 257).wf = false := by decide
theorem test_wf_rails : (Instr.railSample [true]).wf = false := by decide
theorem test_wf_dies : (Instr.dieTempSample [] [] 0).wf = false := by decide
theorem test_wf_optics : (Instr.opticalTempSample [] []).wf = false := by decide
theorem test_wf_other : (Instr.event).wf = true := by decide

/-- The table of operations gives its rows no bits, so no word spells a command. -/
theorem test_decode_none : decodeTableWord 32 0x12345678 = none := by decide

/-! ### States for the witnesses -/

/-- A state is sound. -/
def soundB (s : State) : Bool :=
  decide (s.dom.length = 4 ∧ s.seq.length = 32 ∧ s.cl.length = 144 ∧ s.mem.stks.length = 20 ∧ s.eng.length = 64 ∧
    s.wgt.length = 16 ∧ s.link.length = 32 ∧ s.port.length = 8 ∧ s.cod.ctxs.length = 128 ∧ s.flow.length = 48 ∧
    s.mport.length = 4 ∧ s.pwr.quads.length = 4)
  && decide (memWf zeroByte s.mem.stack = true ∧ memWf zeroByte s.st.cs = true ∧ memWf zeroByte s.st.host = true ∧
    memWf erasedByte s.boot.flash = true ∧ memWf zeroByte s.snp.store = true)
  && decide (s.ev.buf.length ≤ 4096)

theorem sound_of {s : State} (h : soundB s = true) : Sound s := by
  unfold soundB at h
  simp only [Bool.and_eq_true, decide_eq_true_eq] at h
  exact ⟨h.1.1, h.1.2, h.2⟩

/-- Page tables: local addresses from 0, from 2^41 and from 2^42 on lie at 2^30, 2^31 and 3 x 2^30, a page of 1 GiB each. -/
def tTables : Mem :=
  [(0x100000, 1), (0x100002, 0x20), (0x100020, 1), (0x100022, 0x30), (0x100040, 1), (0x100042, 0x40),
   (0x200000, 0x1F), (0x200003, 0x40), (0x300000, 0x1F), (0x300003, 0x80), (0x400000, 0x1F), (0x400003, 0xC0)]

/-- What the caches may hold of the first page. -/
def tCached : List PtEntry := [⟨3, 0, 0x200001, 0⟩, ⟨2, 0, 0x4000001F, 0⟩]

def tParams : List (Nat × Nat) :=
  [(0x020, 0x100000), (0x025, 0x500000), (0x030, 3), (0x031, 10), (0x040, 5), (0x041, 100), (0x070, 2 ^ 40), (0x080, 0),
   (0x081, 0), (0x082, 0), (0x083, 100), (0x084, 1000), (0x085, 1), (0x086, 1), (0x087, 10000)]

/-- A booted device with the stacks on and the tables above, with more bytes in the stacks. -/
def tOnWith (more : Mem) : State := { State.reset with
  boot := { BootSt.reset with
    rstPin := false, inReset := false, step := 7, sealed := true, cfg := { ImageCfg.reset with params := tParams } }
  hif := { HostIf.reset with epPowered := true, epUp := true, stPowered := true, stUp := true }
  mem := { MemSt.reset with on := true, stack := tTables ++ more } }

def tOn : State := tOnWith []

/-- The device with another state of domain 0, of slot 0, of cluster 0 with one thread, of engine 0. -/
def tDom (s : State) (x : DomSt) : State := { s with dom := s.dom.set 0 x }
def tSeq (s : State) (x : SeqSlot) : State := { s with seq := s.seq.set 0 x }
def tCl (s : State) (x : ClusterSt) : State := { s with cl := s.cl.set 0 x }
def tEng (s : State) (x : EngSt) : State := { s with eng := s.eng.set 0 x }

/-- A running domain in a phase. -/
def tRun (p : Phase) : DomSt := { DomSt.reset with running := true, phase := p, tickNo := 5 }

def tPlan : PlanRec where
  gen := 1
  source := 0
  rate := 7
  admitUs := 1000
  drainUs := 1000
  guardUs := 1000
  mask := 1
  cp1 := 5000
  cp2 := 9000
  allow := 16
  ptpPort := 0
  anchorTick := 0
  anchorTime := 0
  costTable := 0
  admitQueue := 0
  playoutCfg := 0

/-- A domain in its admit phase with one entry to process. -/
def tAdmit : DomSt := { tRun .admission with plan := some tPlan, qEnd := 1, admitting := true }

/-- An item, a batch of nothing, an active slot of domain 0. -/
def tItem : Item where
  num := 3
  order := 0
  launch := 0
  costNs := 1000
  clusters := 1
  nthr := 1
  acc := 0
  affinity := 0
  kind := 0
  doneVa := 0
  target := 5
  phase := .running
  placed := [0]
  prev := []
  saves := []
  lastTick := 5
  deferred := false
  short := false
  kept := []
  faultVa := 0
  payer := none
  spoiled := false
  terminated := false
  firstPass := false
  placedTick := true

def tSlot : SeqSlot := { SeqSlot.reset with state := .active, domain := 0, saveN := 1, cls := 2 }

/-- Bytes at an address as cells, without zeros. -/
def tBytes (a : Nat) (bs : List Byte) : Mem :=
  ((List.range bs.length).zip bs).filterMap fun p => if p.2 = 0 then none else some (a + p.1, p.2)

/-! ### The whole machine -/

theorem wit_StepKeepsSound : Sound State.reset ∧ step State.reset = .next State.reset := ⟨sound_of (by decide +kernel), rfl⟩
theorem wit_FusesAndQueueAreKept : burnsFuse (.boot []) = false := rfl
theorem wit_OnlyTheseMoveTickAndMode : exec (.botWin 3) tOn = .next (botWin 3 tOn) ∧ movesTick (.botWin 3) = false ∧
    movesKeepalive (.botWin 3) = false := ⟨rfl, rfl, rfl⟩

/-! ### The tick -/

theorem wit_BoundaryAdvancesTick : Sound tOn ∧ boundaryMay tOn 0 = true ∧ (domAt tOn 0).renumber = none ∧
    boundaryMay (tDom tOn (tRun .guard)) 0 = true :=
  ⟨sound_of (by decide +kernel), by decide +kernel, by decide +kernel, by decide +kernel⟩
/-- A slot of class 0 with an item that is placed for this tick, in a window. -/
def tWorkLate : State := tSeq (tDom tOn (tRun .window)) { tSlot with cls := 0, items := [tItem] }

theorem wit_PhasesFollow : Sound (tDom tOn (tRun .admission)) ∧ Sound (tDom tOn (tRun .window)) ∧
    Sound (tDom tOn (tRun .drain)) ∧ Sound tWorkLate ∧ tOn.boot.inReset = false ∧ tOn.mem.on = true ∧
    tOn.pwr.keepalive = false ∧ (tRun .drain).running = true ∧ (tRun .admission).admitting = false ∧
    (domAt tWorkLate 0).phase = .window ∧ (∃ n ∈ activeSlots tWorkLate 0, workLate (seqAt tWorkLate n) = true) ∧
    activeSlots (tDom tOn (tRun .window)) 0 = [] :=
  ⟨sound_of (by decide +kernel), sound_of (by decide +kernel), sound_of (by decide +kernel), sound_of (by decide +kernel),
    by decide +kernel⟩

/-- A slot with half of its cost done and an item left, far beyond the window. -/
def tLate : State := tSeq (tDom { tOn with time := 2 ^ 40 } { tRun .window with plan := some tPlan })
  { tSlot with totalCost := 10, doneCost := 5, items := [tItem] }

theorem wit_CheckpointPreempts : Sound tLate ∧ (domAt tLate 0).phase = .window ∧ tLate.pwr.keepalive = false ∧
    tLate.boot.inReset = false ∧ (activeSlots tLate 0).filter (projectedLate tLate 0) = [0] ∧
    (activeSlots (tDom tOn (tRun .window)) 0).filter (projectedLate (tDom tOn (tRun .window)) 0) = [] :=
  ⟨sound_of (by decide +kernel), by decide +kernel⟩

/-- A PTP domain that runs: without time, with time, in holdover. -/
def tPtp (held time acq : Bool) : State := tDom tOn
  { tRun .window with source := 1, acquired := acq, hasTime := time, holdover := held }

theorem wit_HoldoverKeepsTheTick : Sound (tPtp false true true) ∧ Sound (tPtp true false true) ∧
    (domAt (tPtp false true true) 0).running = true ∧ (domAt (tPtp false true true) 0).source = 1 ∧
    (domAt (tPtp false true true) 0).hasTime = true ∧ (domAt (tPtp true false true) 0).running = true ∧
    (domAt (tPtp true false true) 0).source = 1 ∧ (domAt (tPtp true false true) 0).holdover = true ∧
    (domAt (tPtp true false true) 0).nextRate = none ∧ (domAt (tPtp true false true) 0).renumber = none :=
  ⟨sound_of (by decide +kernel), sound_of (by decide +kernel), by decide +kernel⟩

/-- A media port that is up, in the middle of an exchange of messages. -/
def tPtpPort : State :=
  { tOn with mport := tOn.mport.set 1 { MPortSt.reset with linkUp := true, t1 := some 1, t2 := some 4, t3 := some 9 } }

theorem wit_TimeComesFromAPort : Sound (tPtp false false false) ∧ (domAt (tPtp false false false) 0).running = true ∧
    (domAt (tPtp false false false) 0).source = 1 ∧ (domAt (tPtp false false false) 0).hasTime = false ∧
    (domAt (tPtp false false false) 0).holdover = false ∧ (domAt (tPtp false false false) 0).acquired = false ∧
    (domAt (tPtp false false false) 0).nextRate = none ∧ Sound tPtpPort ∧ (mportAt tPtpPort 1).linkUp = true ∧
    (mportAt tPtpPort 1).t1 = some 1 ∧ (mportAt tPtpPort 1).t2 = some 4 ∧ (mportAt tPtpPort 1).t3 = some 9 ∧
    (mportAt tOn 0).linkUp = false :=
  ⟨sound_of (by decide +kernel), by decide +kernel, by decide +kernel, by decide +kernel, by decide +kernel, by decide +kernel,
    by decide +kernel, sound_of (by decide +kernel), by decide +kernel⟩

/-! ### Reads of the first page -/

/-- The stacks are quiet, the tables hold the first page, and the caches hold nothing else. -/
def Paged (s : State) : Prop :=
  Quiet s ∧ Listed s tCached ∧ param s 0x020 = 0x100000 ∧
    BitVec.ofNat 64 (ofLE (memRdN zeroByte s.mem.stack 0x100000 8)) = 0x200001 ∧
    BitVec.ofNat 64 (ofLE (memRdN zeroByte s.mem.stack 0x200000 8)) = 0x4000001F

def pagedB (s : State) : Bool :=
  s.mem.on && s.mem.eaves.isEmpty && s.mem.eccErr.isEmpty && s.mem.poison.isEmpty &&
    (s.xlt.tlb.all fun p => decide ({ p with home := 0 } ∈ tCached)) &&
    decide (param s 0x020 = 0x100000) &&
    decide (BitVec.ofNat 64 (ofLE (memRdN zeroByte s.mem.stack 0x100000 8)) = 0x200001) &&
    decide (BitVec.ofNat 64 (ofLE (memRdN zeroByte s.mem.stack 0x200000 8)) = 0x4000001F)

theorem paged_of {s : State} (h : pagedB s = true) : Paged s := by
  unfold pagedB at h
  simp only [Bool.and_eq_true, decide_eq_true_eq, List.isEmpty_iff] at h
  obtain ⟨⟨⟨⟨⟨⟨⟨a, b⟩, c⟩, d⟩, e⟩, f⟩, g⟩, i⟩ := h
  exact ⟨⟨a, b, c, d⟩, fun p hp => by simpa using List.all_eq_true.mp e p hp, f, g, i⟩

theorem Paged.after {s t : State} (h : Paged s) (k : AfterReads s t) (ht : Listed t tCached) : Paged t :=
  ⟨h.1.after k, ht, by rw [k.param]; exact h.2.2.1, by rw [k.stack]; exact h.2.2.2.1, by rw [k.stack]; exact h.2.2.2.2⟩

theorem Paged.maps {s : State} (h : Paged s) {va : Nat} (hv : va < 2 ^ 30) : Maps s tCached va 0x200001 0x4000001F := by
  have e0 : va / 2 ^ 30 = 0 := Nat.div_eq_of_lt hv
  have e1 : va / 2 ^ 39 = 0 := Nat.div_eq_of_lt (by omega)
  have t3 : tableIndex 3 va = 0 := by show va / 2 ^ 39 % 8192 = 0; rw [e1]
  have t2 : tableIndex 2 va = 0 := by show va / 2 ^ 30 % 512 = 0; rw [e0]
  have r3 : BitVec.ofNat 64 (ofLE (memRdN zeroByte s.mem.stack (param s 0x020 + 8 * tableIndex 3 va) 8)) = 0x200001 := by
    rw [h.2.2.1, t3]; exact h.2.2.2.1
  have r2 : BitVec.ofNat 64 (ofLE (memRdN zeroByte s.mem.stack (pteAddr 0x200001 + 8 * tableIndex 2 va) 8)) = 0x4000001F := by
    rw [t2]; exact h.2.2.2.2
  have two : ∀ p ∈ tCached, p = ⟨3, 0, 0x200001, 0⟩ ∨ p = ⟨2, 0, 0x4000001F, 0⟩ := by simp [tCached]
  refine ⟨fun p hp hl => ?_, fun p hp hl => ?_, fun p hp hl _ => ?_, fun p hp hl _ => ?_, ?_, ?_, ?_, r3, r2, ?_⟩
  · rcases two p hp with rfl | rfl <;> simp at hl
  · rcases two p hp with rfl | rfl <;> simp at hl
  · rcases two p hp with rfl | rfl
    · simp at hl
    · rfl
  · rcases two p hp with rfl | rfl
    · rfl
    · simp at hl
  · rw [e1]; decide
  · rw [e0]; decide
  · rw [h.2.2.1]
  · decide

/-- A read of the first page by the device itself gives the bytes that stand there. -/
theorem Paged.read {s : State} (h : Paged s) {a n : Nat} {bs : List Byte}
    (hc : (chunks a n).all (fun c => decide (a ≤ c.1 ∧ 0 < c.2 ∧ (2 ^ 30 + c.1) % 32 + c.2 ≤ 32 ∧ c.1 < 2 ^ 30)) = true)
    (hb : ((chunks a n).flatMap fun c => memRdN zeroByte s.mem.stack (2 ^ 30 + c.1) c.2) = bs) :
    ∃ v, devRead s (.lva a) n = (some bs, v) ∧ AfterReads s v ∧ Paged v := by
  have r := devRead_quiet (T := tCached) a n (fun x => 2 ^ 30 + x) h.1 h.2.1 fun c hc' => by
    have k := List.all_eq_true.mp hc c hc'
    simp only [decide_eq_true_eq] at k
    have e : c.1 % 2 ^ 52 = c.1 := Nat.mod_eq_of_lt (by omega)
    refine ⟨k.1, k.2.1, k.2.2.1, _, _, h.maps (by omega), ?_⟩
    rw [e]
    show Xl.stack (pteAddr 0x4000001F + c.1 % 2 ^ 30) = _
    rw [Nat.mod_eq_of_lt k.2.2.2]; rfl
  refine ⟨_, Prod.ext (r.1.trans (congrArg some hb)) rfl, r.2.1, h.after r.2.1 r.2.2⟩

/-- A global address on this device is read as its local virtual address is. -/
theorem devPlaces_gva {a : Nat} (ha : a < 2 ^ 52) (l : List (Nat × Nat)) (s : State) (ho : ownIndex s = 0)
    (hl : ∀ c ∈ l, a ≤ c.1 ∧ c.1 < 2 ^ 52) :
    devPlaces s (.gva (BitVec.ofNat 64 a)) false l = devPlaces s (.lva a) false l := by
  induction l generalizing s with
  | nil => rfl
  | cons c cs ih =>
    have hc := hl c (List.mem_cons_self ..)
    have n : (BitVec.ofNat 64 a).toNat = a := by rw [BitVec.toNat_ofNat]; exact Nat.mod_eq_of_lt (by omega)
    have e : BitVec.ofNat 64 a + BitVec.ofNat 64 (c.1 - a) = BitVec.ofNat 64 c.1 := by
      rw [← BitVec.ofNat_add]; congr 1; omega
    have m : (BitVec.ofNat 64 c.1).toNat = c.1 := by rw [BitVec.toNat_ofNat]; exact Nat.mod_eq_of_lt (by omega)
    have i : gIndex (BitVec.ofNat 64 c.1) = 0 := by
      unfold gIndex bits; rw [m]; omega
    have g : gLocal (BitVec.ofNat 64 c.1) = c.1 := by
      unfold gLocal bits; rw [m]; omega
    have q : a + (c.1 - a) = c.1 := by omega
    have p : devPlace s (.gva (BitVec.ofNat 64 c.1)) false = devPlace s (.lva c.1) false := by
      unfold devPlace
      dsimp only
      rw [i, g, ho, Nat.mod_eq_of_lt hc.2]
      rfl
    unfold devPlaces
    simp only [Ad.plus, Ad.low, n, e, q]
    rw [p]
    cases h : (devPlace s (.lva c.1) false).1 with
    | none => rfl
    | some x =>
      have k : ownIndex (devPlace s (.lva c.1) false).2 = 0 := by
        have t := (translate_within (M := 251659554) s (c.1 % 2 ^ 52) .r false 0 (by decide) (Within.refl _ _)).self.resolve_left
          (by decide)
        have w : (devPlace s (.lva c.1) false).2.self = s.self := by
          unfold devPlace at h ⊢
          dsimp only at h ⊢
          split at h
          · exact t
          · cases h
        unfold ownIndex at ho ⊢
        rw [w]; exact ho
      dsimp only
      rw [ih _ k fun d hd => hl d (List.mem_cons_of_mem _ hd)]

theorem after_ownIndex {s t : State} (k : AfterReads s t) : ownIndex t = ownIndex s := by
  unfold ownIndex; rw [k.self]

theorem after_groupOk {s t : State} (k : AfterReads s t) (l : List Nat) : groupOk t l = groupOk s l := by
  unfold groupOk sliceSize; rw [after_ownIndex k, k.self]

theorem Paged.readOwn {s : State} (h : Paged s) (ho : ownIndex s = 0) {a n : Nat} {bs : List Byte}
    (hc : (chunks a n).all (fun c => decide (a ≤ c.1 ∧ 0 < c.2 ∧ (2 ^ 30 + c.1) % 32 + c.2 ≤ 32 ∧ c.1 < 2 ^ 30)) = true)
    (ha : a < 2 ^ 52) (hb : ((chunks a n).flatMap fun c => memRdN zeroByte s.mem.stack (2 ^ 30 + c.1) c.2) = bs) :
    ∃ v, devRead s (.gva (BitVec.ofNat 64 a)) n = (some bs, v) ∧ AfterReads s v ∧ Paged v := by
  obtain ⟨v, e, r⟩ := h.read hc hb
  refine ⟨v, ?_, r⟩
  have n : (BitVec.ofNat 64 a).toNat = a := by rw [BitVec.toNat_ofNat]; exact Nat.mod_eq_of_lt (by omega)
  rw [← e]
  unfold devRead
  simp only [Ad.low, n]
  rw [devPlaces_gva ha _ s ho fun c hm => by
    have k := List.all_eq_true.mp hc c hm
    simp only [decide_eq_true_eq] at k
    omega]
  rfl

/-! ### The admission queue -/

/-- An entry of the queue: ADMIT of slot 0 with model 0, the ring at 0x1000, and one save image. -/
def tEntry (op : Nat) (more : List (Nat × Nat × Nat)) : List Byte := record 64 ((0, 1, op) :: more)

def tQueue (bs : List Byte) (x : SeqSlot) (more : Mem) : State :=
  tSeq (tDom (tOnWith (tBytes (2 ^ 30 + 0x40) bs ++ more)) tAdmit) x

/-- Table 7.3 for a ring of four slots, 2 in the window. -/
def tRing : List Byte :=
  record 64 [(0x10, 2, 1), (0x12, 1, 1), (0x14, 1, 4), (0x15, 1, 2), (0x16, 1, 1), (0x17, 1, 2), (0x18, 1, 2), (0x1C, 4, 64),
    (0x20, 4, 1), (0x28, 8, 2 ^ 64 - 1), (0x30, 8, 2 ^ 64 - 1)] ++ List.replicate 512 0

/-- The same ring with chunk 3 the only active one. -/
def tRing3 : List Byte :=
  record 64 [(0x10, 2, 1), (0x12, 1, 1), (0x14, 1, 4), (0x15, 1, 2), (0x16, 1, 1), (0x17, 1, 2), (0x18, 1, 2), (0x1C, 4, 64),
    (0x20, 4, 1), (0x28, 8, 3), (0x30, 8, 3)] ++ List.replicate 512 0

/-- The next entry of such a queue is read as it stands. -/
theorem tNext {s : State} {op : Nat} {bs : List Byte} (h : pagedB s = true) (hd : domAt s 0 = tAdmit)
    (hk : s.pwr.keepalive = false) (hr : s.boot.inReset = false)
    (hb : ((chunks 0x40 64).flatMap fun c => memRdN zeroByte s.mem.stack (2 ^ 30 + c.1) c.2) = bs) (ho : fld bs 0 1 = op) :
    ∃ v, EntryNext s 0 op bs v ∧ AfterReads s v ∧ Paged v := by
  obtain ⟨v, e, a, p⟩ := (paged_of h).read (a := 0x40) (n := 64) (by decide) hb
  refine ⟨v, ⟨by rw [hd]; rfl, hk, hr, ?_, ho⟩, a, p⟩
  unfold peekEntry queueVa
  rw [hd]
  exact e

/-- A live copy of model 0. -/
def tCopy : WCopy where
  gen := 1
  slot := false
  man := ⟨0, 1, 0, 0, 255, false, 1, []⟩
  bad := []
  twinOk := []
  said022 := []
  refetch := []

def tAdmitState : State :=
  { tQueue (tEntry 1 [(0x10, 8, 0x1000), (0x30, 2, 1)]) SeqSlot.reset (tBytes (2 ^ 30 + 0x1000) tRing) with
    wgt := State.reset.wgt.set 0 { ModelSt.reset with live := some tCopy } }

theorem wit_AdmitFillsTheSlot : ∃ bs all s v w, Sound s ∧ EntryNext s 0 1 bs v ∧
    fld bs 1 1 < 32 ∧ fld bs 2 1 ≤ 2 ∧ fld bs 3 1 ≤ 15 ∧ fld bs 0x10 8 < 2 ^ 52 ∧
    fld bs 0x18 8 < 2 ^ 52 ∧ fld bs 0x28 8 < 2 ^ 52 ∧ fld bs 0x28 8 % 65536 = 0 ∧ 1 ≤ fld bs 0x30 2 ∧ fld bs 0x30 2 ≤ 144 ∧
    (seqAt v (fld bs 1 1)).state = .free ∧ modelLive v (fld bs 3 1) = true ∧ fld bs 0x10 8 % 64 = 0 ∧
    devRead v (.lva (fld bs 0x10 8)) ringSize = (some all, w) ∧ ringOk (ringDesc all) = true ∧
    reservedAll w + (ringTotal (ringDesc all) + statsTotal (ringDesc all) + fld bs 0x20 8 + fld bs 0x30 2 * 4259840)
      ≤ param w 0x070 := by
  obtain ⟨v, e, a, p⟩ := tNext (s := tAdmitState) (op := 1) (bs := tEntry 1 [(0x10, 8, 0x1000), (0x30, 2, 1)])
    (by decide +kernel) rfl rfl rfl (by decide +kernel) (by decide +kernel)
  obtain ⟨w, f, b, -⟩ := p.read (a := 0x1000) (n := ringSize) (bs := tRing) (by decide +kernel)
    (by rw [a.stack]; decide +kernel)
  have k : param w 0x070 = param tAdmitState 0x070 := by rw [b.param, a.param]
  have r : reservedAll w = reservedAll tAdmitState := by unfold AfterReads at a b; rw [b, a]; rfl
  have l : modelLive v 0 = modelLive tAdmitState 0 := by unfold AfterReads at a; rw [a]; rfl
  have f1 : fld (tEntry 1 [(0x10, 8, 0x1000), (0x30, 2, 1)]) 1 1 < 32 ∧ fld (tEntry 1 [(0x10, 8, 0x1000), (0x30, 2, 1)]) 2 1 ≤ 2 ∧
      fld (tEntry 1 [(0x10, 8, 0x1000), (0x30, 2, 1)]) 3 1 ≤ 15 ∧ fld (tEntry 1 [(0x10, 8, 0x1000), (0x30, 2, 1)]) 0x10 8 = 0x1000 ∧
      fld (tEntry 1 [(0x10, 8, 0x1000), (0x30, 2, 1)]) 0x18 8 < 2 ^ 52 ∧ fld (tEntry 1 [(0x10, 8, 0x1000), (0x30, 2, 1)]) 0x28 8 = 0 ∧
      fld (tEntry 1 [(0x10, 8, 0x1000), (0x30, 2, 1)]) 0x30 2 = 1 := by decide +kernel
  obtain ⟨f1, f2, f3, f4, f5, f6, f7⟩ := f1
  refine ⟨_, tRing, _, v, w, sound_of (by decide +kernel), e, f1, f2, f3, by rw [f4]; decide, f5, by rw [f6]; decide, by rw [f6],
    Nat.le_of_eq f7.symm, by rw [f7]; decide, ?_, ?_, by rw [f4], ?_, by decide +kernel, ?_⟩
  · rw [a.seqAt]; decide +kernel
  · show modelLive v 0 = true; rw [l]; decide +kernel
  · rw [f4]; exact f
  · rw [r, k]; decide +kernel

theorem wit_EntryMovesConsumer (c : Instr) (op : Nat) (h : (c, op) ∈ [(Instr.admitSlot 0, 1), (.depart 0, 2), (.chunkBegin 0, 3),
    (.chunkEnd 0, 4), (.work 0, 5)]) : ∃ bs s v, Sound s ∧ EntryNext s 0 op bs v := by
  have k : op = 1 ∨ op = 2 ∨ op = 3 ∨ op = 4 ∨ op = 5 := by
    simp only [List.mem_cons, Prod.mk.injEq, List.not_mem_nil, or_false] at h
    omega
  have g : pagedB (tQueue (tEntry op []) tSlot []) = true ∧
      ((chunks 0x40 64).flatMap fun c => memRdN zeroByte (tQueue (tEntry op []) tSlot []).mem.stack (2 ^ 30 + c.1) c.2)
        = tEntry op [] ∧ fld (tEntry op []) 0 1 = op ∧ soundB (tQueue (tEntry op []) tSlot []) = true := by
    rcases k with rfl | rfl | rfl | rfl | rfl <;> decide +kernel
  obtain ⟨v, e, -, -⟩ := tNext g.1 rfl rfl rfl g.2.1 g.2.2.1
  exact ⟨_, _, v, sound_of g.2.2.2, e⟩

theorem wit_DepartMakesTheSlotDepart : ∃ bs s v, Sound s ∧ EntryNext s 0 2 bs v ∧ fld bs 1 1 < 32 ∧ SlotReady v 0 (fld bs 1 1) := by
  obtain ⟨v, e, a, -⟩ := tNext (s := tQueue (tEntry 2 []) tSlot []) (op := 2) (bs := tEntry 2 [])
    (by decide +kernel) rfl rfl rfl (by decide +kernel) (by decide +kernel)
  refine ⟨_, _, v, sound_of (by decide +kernel), e, by decide +kernel, ?_⟩
  unfold SlotReady; rw [a.seqAt]; exact ⟨rfl, rfl, rfl⟩

/-- A slot whose ring is at 0x1000. -/
def tRingSlot : SeqSlot := { tSlot with kvDesc := 0x1000 }

/-- An entry of OP 3 or 4 for chunk g of the ring whose only active chunk is 3. -/
def tChunk (op g : Nat) : List Byte := tEntry op [(8, 8, g)]
def tChunkState (op g : Nat) : State := tQueue (tChunk op g) tRingSlot (tBytes (2 ^ 30 + 0x1000) tRing3)
def tChunkOk (op g : Nat) : Bool :=
  pagedB (tChunkState op g) &&
  decide (((chunks 0x40 64).flatMap fun c => memRdN zeroByte (tChunkState op g).mem.stack (2 ^ 30 + c.1) c.2) = tChunk op g) &&
  decide (((chunks 0x1000 ringSize).flatMap fun c => memRdN zeroByte (tChunkState op g).mem.stack (2 ^ 30 + c.1) c.2) = tRing3) &&
  decide (fld (tChunk op g) 0 1 = op ∧ fld (tChunk op g) 1 1 = 0 ∧ fld (tChunk op g) 8 8 = g)

theorem tChunk_reads {op g : Nat} (h : tChunkOk op g = true) : ∃ s v w, fld (tChunk op g) 1 1 < 32 ∧ fld (tChunk op g) 8 8 = g ∧
    EntryNext s 0 op (tChunk op g) v ∧ SlotReady v 0 (fld (tChunk op g) 1 1) ∧
    readRing v (fld (tChunk op g) 1 1) = (some (ringDesc tRing3), w) := by
  unfold tChunkOk at h
  simp only [Bool.and_eq_true, decide_eq_true_eq] at h
  obtain ⟨⟨⟨h1, h2⟩, h3⟩, h4, h5, h6⟩ := h
  obtain ⟨v, e, a, p⟩ := tNext h1 rfl rfl rfl h2 h4
  have q : Machine.seqAt v 0 = tRingSlot := (a.seqAt 0).trans rfl
  obtain ⟨w, f, -, -⟩ := p.read (a := 0x1000) (n := ringSize) (bs := tRing3) (by decide +kernel) (by rw [a.stack]; exact h3)
  refine ⟨_, v, w, by rw [h5]; decide, h6, e, ?_, ?_⟩
  · rw [h5]; unfold SlotReady; rw [q]; exact ⟨rfl, rfl, rfl⟩
  · rw [h5]; unfold readRing; rw [q]
    have : tRingSlot.kvDesc.toNat % 2 ^ 52 = 0x1000 := by decide
    rw [this, f]; rfl

/-- CHUNK_BEGIN of the next chunk and of one too far on; CHUNK_END of the oldest chunk and of another one. -/
theorem wit_ChunkEntriesMoveTheRing (op g : Nat) (h : (op, g) ∈ [(3, 4), (3, 6), (4, 3), (4, 4)]) :
    ∃ s v w, fld (tChunk op g) 1 1 < 32 ∧ fld (tChunk op g) 8 8 = g ∧ EntryNext s 0 op (tChunk op g) v ∧
      SlotReady v 0 (fld (tChunk op g) 1 1) ∧ readRing v (fld (tChunk op g) 1 1) = (some (ringDesc tRing3), w) := by
  simp only [List.mem_cons, Prod.mk.injEq, List.not_mem_nil, or_false] at h
  rcases h with ⟨rfl, rfl⟩ | ⟨rfl, rfl⟩ | ⟨rfl, rfl⟩ | ⟨rfl, rfl⟩ <;> exact tChunk_reads (by decide +kernel)
theorem wit_ChunkEntriesMoveTheRing_cases : beginOk (ringDesc tRing3) 4 = true ∧ beginOk (ringDesc tRing3) 6 = false ∧
    (ringDesc tRing3).lo = some 3 := by decide +kernel

/-- WORK with one record at 0x2000: one cluster, one thread. -/
def tWork : List Byte := tEntry 5 [(8, 8, 9), (0x10, 8, 0x2000), (0x18, 8, 1)]
def tRecord : List Byte := record 64 [(0xC, 2, 1), (0xE, 1, 1)]
def tWorkState : State := tQueue tWork tSlot (tBytes (2 ^ 30 + 0x2000) tRecord)

theorem wit_WorkAddsABatch : ∃ bs all s v w, Sound s ∧ EntryNext s 0 5 bs v ∧ fld bs 1 1 < 32 ∧
    SlotReady v 0 (fld bs 1 1) ∧ (seqAt v (fld bs 1 1)).beginRefused = false ∧
    fld bs 0x10 8 % 64 = 0 ∧ fld bs 0x10 8 < 2 ^ 52 ∧ 1 ≤ fld bs 0x18 8 ∧ fld bs 0x18 8 ≤ 64 ∧
    (seqAt v (fld bs 1 1)).batches.length < 8 ∧
    (seqAt v (fld bs 1 1)).items.length + ((seqAt v (fld bs 1 1)).batches.map (·.items.length)).sum + fld bs 0x18 8 ≤ 64 ∧
    devRead v (.lva (fld bs 0x10 8)) (64 * fld bs 0x18 8) = (some all, w) ∧
    ∀ k, k < fld bs 0x18 8 → itemWf (seqAt v (fld bs 1 1)) ((all.drop (64 * k)).take 64) = true := by
  obtain ⟨v, e, a, p⟩ := tNext (s := tWorkState) (op := 5) (bs := tWork)
    (by decide +kernel) rfl rfl rfl (by decide +kernel) (by decide +kernel)
  have q : Machine.seqAt v (fld tWork 1 1) = tSlot := by rw [a.seqAt]; rfl
  obtain ⟨w, f, -, -⟩ := p.read (a := 0x2000) (n := 64) (bs := tRecord) (by decide +kernel) (by rw [a.stack]; decide +kernel)
  refine ⟨tWork, tRecord, _, v, w, sound_of (by decide +kernel), e, by decide +kernel, ?_, ?_, by decide +kernel,
    by decide +kernel, by decide +kernel, by decide +kernel, ?_, ?_, ?_, ?_⟩
  · unfold SlotReady; rw [q]; exact ⟨rfl, rfl, rfl⟩
  · rw [q]; rfl
  · rw [q]; decide
  · rw [q]; decide +kernel
  · have : fld tWork 0x10 8 = 0x2000 := by decide +kernel
    have n : 64 * fld tWork 0x18 8 = 64 := by decide +kernel
    rw [this, n]; exact f
  · rw [q]; decide +kernel

/-! ### Engine reads of the first page -/

theorem Paged.piece {s : State} (h : Paged s) {va n : Nat} (hn : 0 < n) (hv : va < 2 ^ 30) (hs : (2 ^ 30 + va) % 32 + n ≤ 32)
    (host alloc : Bool) (port : Nat) :
    (engPiece s va n host alloc port).1 = .data (memRdN zeroByte s.mem.stack (2 ^ 30 + va) n) false false ∧
      AfterReads s (engPiece s va n host alloc port).2 ∧ Paged (engPiece s va n host alloc port).2 := by
  have e : va % 2 ^ 52 = va := Nat.mod_eq_of_lt (by omega)
  have t := translate_quiet (T := tCached) .r host port h.1 h.2.1 (h.maps hv)
  have l : leafOut 2 va .r host 0x4000001F = .stack (2 ^ 30 + va) := by
    show Xl.stack (pteAddr 0x4000001F + va % 2 ^ 30) = _
    rw [Nat.mod_eq_of_lt hv]; rfl
  have q := readPA_quiet (h.1.after t.2.1) hn hs alloc
  unfold engPiece
  rw [e]
  dsimp only
  rw [t.1, l]
  dsimp only
  rw [q.1, t.2.1.stack]
  exact ⟨rfl, t.2.1.trans q.2.1, h.after (t.2.1.trans q.2.1) (by unfold Listed; rw [q.2.2]; exact t.2.2)⟩

/-- What holds of the elements folded so far holds of them all. -/
theorem foldl_ind {α β : Type} (f : β → α → β) (P : List α → β → Prop) {l : List α} {acc : β} (h0 : P [] acc)
    (h : ∀ done x y, x ∈ l → P done y → P (done ++ [x]) (f y x)) : P l (l.foldl f acc) := by
  have k : ∀ (r done : List α) (y : β), (∀ x ∈ r, x ∈ l) → P done y → P (done ++ r) (r.foldl f y) := by
    intro r
    induction r with
    | nil => intro done y _ p; rw [List.append_nil]; exact p
    | cons x r ih =>
      intro done y hr p
      have e := ih (done ++ [x]) (f y x) (fun z hz => hr z (List.mem_cons_of_mem _ hz)) (h done x y (hr x (List.mem_cons_self ..)) p)
      rw [List.append_assoc] at e
      exact e
  exact k l [] acc (fun _ => id) h0

/-- A read of an engine gives the bytes that stand there. -/
theorem Paged.engRead {s : State} (h : Paged s) {a n : Nat} {bs : List Byte} (host alloc : Bool)
    (hc : (chunks a n).all (fun c => decide (0 < c.2 ∧ (2 ^ 30 + c.1) % 32 + c.2 ≤ 32 ∧ c.1 < 2 ^ 30)) = true)
    (hb : ((chunks a n).flatMap fun c => memRdN zeroByte s.mem.stack (2 ^ 30 + c.1) c.2) = bs) :
    ∃ v, engRead s a n host alloc = (.data bs false false, v) ∧ AfterReads s v ∧ Paged v := by
  have r : (Machine.engRead s a n host alloc).1 = .data bs false false ∧ AfterReads s (Machine.engRead s a n host alloc).2 ∧
      Paged (Machine.engRead s a n host alloc).2 := by
    rw [← hb]
    unfold Machine.engRead
    refine foldl_ind _ (fun (done : List (Nat × Nat)) (acc : Got × State) => acc.1 = .data (done.flatMap fun c => memRdN zeroByte s.mem.stack (2 ^ 30 + c.1) c.2) false false ∧
      AfterReads s acc.2 ∧ Paged acc.2) ⟨rfl, rfl, h⟩ fun done c acc hm p => ?_
    have k := List.all_eq_true.mp hc c hm
    simp only [decide_eq_true_eq] at k
    have q := p.2.2.piece k.1 k.2.2 k.2.1 host alloc 0
    rw [p.2.1.stack] at q
    rw [p.1]
    dsimp only
    rw [q.1]
    refine ⟨?_, p.2.1.trans q.2.1, q.2.2⟩
    rw [List.flatMap_append, List.flatMap_singleton]
    rfl
  exact ⟨_, Prod.ext r.1 rfl, r.2⟩

/-- The sectors that a run holds are those that stand there. -/
def HeldOk (s : State) (x : Xfer) : Prop :=
  ∀ h ∈ x.held, h.poison = false ∧ h.host = false ∧ h.mixed = false ∧ h.bytes = memRdN zeroByte s.mem.stack (2 ^ 30 + h.sec) 32

theorem Paged.sector {s : State} {x : Xfer} (ha : AfterReads s x.s) (h : Paged x.s) (ho : HeldOk s x) (m : SrcMode) {va : Nat}
    (hv : va < 2 ^ 30) (hs : va % 32 = 0) :
    ∃ y, srcSector m va x = (.inl ⟨va, memRdN zeroByte s.mem.stack (2 ^ 30 + va) 32, false, false, false⟩, y) ∧ AfterReads s y.s ∧
      Paged y.s ∧ HeldOk s y ∧ y.cmd = x.cmd := by
  unfold srcSector
  cases e : x.held.find? (·.sec == va) with
  | some g =>
    have k := ho g (List.mem_of_find?_eq_some e)
    have z : g.sec = va := by have := List.find?_some e; simpa using this
    refine ⟨x, ?_, ha, h, ho, rfl⟩
    dsimp only
    rw [← z, ← k.2.2.2]
    cases g; simp only at k; simp [k.1, k.2.1, k.2.2.1]
  | none =>
    have q := h.piece (va := va) (n := 32) (by decide) hv (by omega) m.hostOk m.alloc x.port
    rw [ha.stack] at q
    dsimp only
    rw [q.1]
    refine ⟨_, rfl, ha.trans q.2.1, q.2.2, ?_, rfl⟩
    intro g hg
    rcases List.mem_cons.mp hg with rfl | hg
    · exact ⟨rfl, rfl, rfl, rfl⟩
    · exact ho g hg

/-- A source of an engine's command gives the bytes that stand there. -/
theorem Paged.source {s : State} {x : Xfer} (ha : AfterReads s x.s) (h : Paged x.s) (ho : HeldOk s x) (m : SrcMode) {a n : Nat}
    {bs : List Byte} (hc : (chunks a n).all (fun c => decide (c.1 < 2 ^ 30)) = true)
    (hb : ((chunks a n).flatMap fun c => ((memRdN zeroByte s.mem.stack (2 ^ 30 + c.1 / 32 * 32) 32).drop (c.1 % 32)).take c.2) = bs) :
    ∃ y, srcBytes m a n x = (.inl ⟨a, bs, false, false, false⟩, y) ∧ AfterReads s y.s ∧ Paged y.s ∧ HeldOk s y ∧ y.cmd = x.cmd := by
  have r : (srcBytes m a n x).1 = .inl ⟨a, bs, false, false, false⟩ ∧ AfterReads s (srcBytes m a n x).2.s ∧
      Paged (srcBytes m a n x).2.s ∧ HeldOk s (srcBytes m a n x).2 ∧ (srcBytes m a n x).2.cmd = x.cmd := by
    rw [← hb]
    unfold srcBytes
    refine foldl_ind _ (fun (done : List (Nat × Nat)) (acc : (Held ⊕ PieceEnd) × Xfer) => acc.1 = .inl ⟨a, done.flatMap fun c =>
        ((memRdN zeroByte s.mem.stack (2 ^ 30 + c.1 / 32 * 32) 32).drop (c.1 % 32)).take c.2, false, false, false⟩ ∧
      AfterReads s acc.2.s ∧ Paged acc.2.s ∧ HeldOk s acc.2 ∧ acc.2.cmd = x.cmd) ⟨rfl, ha, h, ho, rfl⟩ fun done c acc hm p => ?_
    have k := List.all_eq_true.mp hc c hm
    simp only [decide_eq_true_eq] at k
    obtain ⟨y, q, qa, qp, qh, qk⟩ := Paged.sector p.2.1 p.2.2.1 p.2.2.2.1 m (va := c.1 / 32 * 32) (by omega) (by omega)
    rw [p.1]
    dsimp only
    rw [q]
    refine ⟨?_, qa, qp, qh, qk.trans p.2.2.2.2⟩
    rw [List.flatMap_append, List.flatMap_singleton]
    simp [Held.join]
  exact ⟨_, Prod.ext r.1 rfl, r.2⟩

/-- A row of a picture in the first page is read without a poisoned block. -/
theorem Paged.row {s : State} (h : Paged s) (d : CtxDesc) (src row e : Nat) (c : DmaCmd)
    (hc : (rowLines d src row).all (fun line => (chunks line (d.width * d.b)).all fun k =>
      (chunks k.1 k.2).all fun c => decide (c.1 < 2 ^ 30)) = true) :
    ∃ bs y, readRow d src row ⟨s, c, [], e⟩ = (.inl ([], bs), y) := by
  have r : (∃ bs, (readRow d src row ⟨s, c, [], e⟩).1 = .inl ([], bs)) ∧ AfterReads s (readRow d src row ⟨s, c, [], e⟩).2.s ∧
      Paged (readRow d src row ⟨s, c, [], e⟩).2.s ∧ HeldOk s (readRow d src row ⟨s, c, [], e⟩).2 := by
    unfold readRow
    refine foldl_ind _ (fun (_ : List Nat) (acc : ((List Nat × List Byte) ⊕ PieceEnd) × Xfer) =>
      (∃ bs, acc.1 = .inl ([], bs)) ∧ AfterReads s acc.2.s ∧ Paged acc.2.s ∧ HeldOk s acc.2)
      ⟨⟨_, rfl⟩, rfl, h, fun _ hg => absurd hg List.not_mem_nil⟩ fun _ line acc hm p => ?_
    have hl := List.all_eq_true.mp hc line hm
    refine foldl_ind _ (fun (_ : List (Nat × Nat)) (acc : ((List Nat × List Byte) ⊕ PieceEnd) × Xfer) =>
      (∃ bs, acc.1 = .inl ([], bs)) ∧ AfterReads s acc.2.s ∧ Paged acc.2.s ∧ HeldOk s acc.2) p fun _ k acc hk p => ?_
    obtain ⟨⟨bs, e⟩, pa, pp, ph⟩ := p
    obtain ⟨y, q, qa, qp, qh, -⟩ := Paged.source (x := { acc.2 with held := acc.2.held.take 2 }) pa pp
      (fun g hg => ph g (List.mem_of_mem_take hg)) ⟨true, true⟩ (List.all_eq_true.mp hl k hk) rfl
    rw [e]
    dsimp only
    rw [q]
    exact ⟨⟨_, rfl⟩, qa, qp, qh⟩
  exact r.1.elim fun bs r => ⟨bs, _, Prod.ext r rfl⟩

/-! ### Threads -/

/-- A thread of item 3 of slot 0, ready at 0x8000. -/
def tThr : Thread := { Thread.reset with state := .ready, pc := 0x8000, item := 3 }

/-- Domain 0 in its compute window, slot 0 with one item, cluster 0 with thread 0. -/
def tThreads (h : Thread) (i : Item) (more : Mem) : State :=
  tCl (tSeq (tDom (tOnWith more) { tRun .window with plan := some tPlan }) { tSlot with items := [i] })
    { ClusterSt.reset with dom := some 0, powered := true, threads := ClusterSt.reset.threads.set 0 h }

/-- What an issue of cluster 0 gives. -/
def tIss (s : State) (n : Nat) : Nat × Word64 × State := (issued s 0 n).getD (0, 0, s)

theorem tIss_eq {s : State} {n : Nat} (h : (issued s 0 n).isSome = true) :
    issued s 0 n = some ((tIss s n).1, (tIss s n).2.1, (tIss s n).2.2) := by
  unfold tIss
  cases e : issued s 0 n with
  | none => rw [e] at h; cases h
  | some x => rfl

/-- The state after the issue of an 8-byte instruction. -/
def tU (s : State) : State := (tIss s 8).2.2

theorem tIss8 {s : State} (h : (issued s 0 8).isSome = true) (ht : (tIss s 8).1 = 0) :
    issued s 0 8 = some (0, (tIss s 8).2.1, tU s) := by
  have e := tIss_eq h
  rw [ht] at e
  exact e

theorem wit_IssueTakesOneThread : issued (tThreads tThr tItem []) 0 8 =
    some (0, (tIss (tThreads tThr tItem []) 8).2.1, tU (tThreads tThr tItem [])) :=
  tIss8 (by decide +kernel) (by decide +kernel)

/-- A request of the thread that is open; a command of it in the queue of an engine; a collective of it in progress. -/
def tOpenReq (s : State) : State := { s with xlt := { s.xlt with t4 := [{
  req := 7, who := .thread 0 0 3, item := 3, dst := 1, op := .read, va := 0x40, sectors := 1, data := [], faulted := none,
  sentAt := 0, size := 8, pc := 0x8000 }] } }
def tOpenCmd (s : State) : State := tEng s { EngSt.reset with thrQ := [mkCmd 1 0 (.thread 0 0 3) 0] }
def tCollOf (d : ColDesc) (who : Issuer) : Collective where
  desc := d
  members := [0, 1]
  pos := 0
  issuer := who
  pc := 0
  rank := 0
  pidx := 0
  item := 3
  seq := 0
  tick := 5
  accepted := 0
  emap := []
  got := []
  toSend := []
  sent := []
  retries := 0
  bad := []
  rescaled := false
  inexact := false
  ovf := false
  poisoned := false
  dropped := false
  reduced := true
  paces := []
  paceSaid := false
def tOpenColl (s : State) : State :=
  { s with col := { s.col with units := s.col.units.set 0 ⟨[tCollOf (colDesc []) (.thread 0 0 3)]⟩ } }

theorem wit_FencesWaitsAndEnds : ∃ s u pc i, issued s 0 8 = some (0, pc, u) ∧ t4Busy u 0 0 (thrAt u 0 0).item = false ∧
    (liveCmds u).any (byThread 0 0 (thrAt u 0 0).item) = false ∧ colBusy u 0 0 (thrAt u 0 0).item = false ∧
    (thrAt u 0 0).seq < u.seq.length ∧ itemOf u (thrAt u 0 0).seq (thrAt u 0 0).item = some i ∧ i.terminated = false ∧
    liveAll (modThr u 0 0 fun h => { h with state := .exited, wait := .none }) i = 0 :=
  ⟨tThreads tThr tItem [], tU (tThreads tThr tItem []), _, tItem, tIss8 (by decide +kernel) (by decide +kernel),
    by decide +kernel⟩

theorem wit_FencesWaitsAndEnds_open : ∃ s u pc, issued s 0 8 = some (0, pc, u) ∧ t4Busy u 0 0 (thrAt u 0 0).item = true :=
  ⟨tOpenReq (tThreads tThr tItem []), tU (tOpenReq (tThreads tThr tItem [])), _,
    tIss8 (by decide +kernel) (by decide +kernel), by decide +kernel⟩
theorem wit_FencesWaitsAndEnds_command : ∃ s u pc, issued s 0 8 = some (0, pc, u) ∧
    (liveCmds u).any (byThread 0 0 (thrAt u 0 0).item) = true :=
  ⟨tOpenCmd (tThreads tThr tItem []), tU (tOpenCmd (tThreads tThr tItem [])), _,
    tIss8 (by decide +kernel) (by decide +kernel), by decide +kernel⟩
theorem wit_FencesWaitsAndEnds_collective : ∃ s u pc, issued s 0 8 = some (0, pc, u) ∧ colBusy u 0 0 (thrAt u 0 0).item = true :=
  ⟨tOpenColl (tThreads tThr tItem []), tU (tOpenColl (tThreads tThr tItem [])), _,
    tIss8 (by decide +kernel) (by decide +kernel), by decide +kernel⟩

/-- Cluster 0 with a second thread of the item, which waits at barrier 0 of that scope for two, or runs. -/
def tBarrier (sc waits : Bool) : State :=
  tCl (tThreads tThr { tItem with nthr := 2 } []) { ClusterSt.reset with
    dom := some 0, powered := true
    threads := (ClusterSt.reset.threads.set 0 tThr).set 1 (if waits
      then { tThr with stamp := 1, state := .waiting, wait := .barrier sc 0 2 } else { tThr with stamp := 1 }) }

/-- A barrier of two threads, of a cluster or of the item: the second to arrive, and the first. -/
theorem wit_BarrierReleasesAtItsCount (sc waits : Bool) : ∃ w s u v pc i, issued s 0 8 = some (0, pc, u) ∧ wReg w 55 54 = sc.toNat ∧
    itemOf u (thrAt u 0 0).seq (thrAt u 0 0).item = some i ∧
    (∀ h ∈ arrived u i 0 sc (wReg w 53 48), barCount h = some (wReg w 47 32)) ∧
    v = wait u 0 0 (.barrier sc (wReg w 53 48) (wReg w 47 32)) ∧
    (if waits then wReg w 47 32 ≤ (arrived v i 0 sc (wReg w 53 48)).length
     else (arrived v i 0 sc (wReg w 53 48)).length < wReg w 47 32 ∧
       if sc then i.nthr * i.clusters ≤ liveAll v i else i.nthr ≤ liveOn (clAt v 0) i.num) := by
  refine ⟨if sc then 0x40000200000000 else 0x00000200000000, tBarrier sc waits, tU (tBarrier sc waits), _, _,
    { tItem with nthr := 2 }, tIss8 ?_ ?_, ?_, ?_, ?_, rfl, ?_⟩ <;> cases sc <;> cases waits <;> decide +kernel

theorem wit_StoreLoadsAndStores : ∃ w s u pc, issued s 0 8 = some (0, pc, u) ∧ lsPlace (thrAt u 0 0) w = .inr 0xBFFFF8 ∧
    csBadRange u 0 0xBFFFF8 (lsSize w) = false := by
  let s := tThreads { tThr with regs := Thread.reset.regs.set 0 0xBFFFF8 } tItem []
  exact ⟨0x00830000000000, s, tU s, _, tIss8 (by decide +kernel) (by decide +kernel), by decide +kernel, by decide +kernel⟩

theorem pair_eq {α β : Type} {p : α × β} {a : α} (h : p.1 = a) : p = (a, p.2) := Prod.ext h rfl

/-- A load and a store of 8 bytes at 2^41 + 0x40, and each operation of ATOM there by G1. -/
theorem wit_ScalarAccessesMemory (store : Bool) : ∃ s u v pc, issued s 0 8 = some (0, pc, u) ∧
    (0x20000000040 : Word64).toNat % 8 = 0 ∧
    accPlace u 0 0x20000000040 (if store then .w else .r) = (.here (.stack 0x80000040), v) ∧
    (readPA v 0x80000040 8).1.poison = false := by
  refine ⟨tThreads tThr tItem [], tU (tThreads tThr tItem []),
    (accPlace (tU (tThreads tThr tItem [])) 0 0x20000000040 (if store then .w else .r)).2, _, tIss8 ?_ ?_, ?_, pair_eq ?_, ?_⟩ <;>
    cases store <;> decide +kernel

/-- A thread with an address in G1. -/
def tPointer (a : Word64) : State := tThreads { tThr with regs := Thread.reset.regs.set 0 a } tItem []
def tAtomWord (op : Nat) : BitVec 56 := BitVec.ofNat 56 (op * 2 ^ 52 + 0x00800000000000)

theorem wit_ScalarAccessesMemory_atom (op : Nat) (h : op ≤ 4) : ∃ s u u1 v pc p y, issued s 0 8 = some (0, pc, u) ∧
    op = wReg (tAtomWord op) 55 52 ∧ p = reg (thrAt u 0 0) (wReg (tAtomWord op) 51 47) ∧ p.toNat % 8 = 0 ∧
    u1 = (if op = 4 then drew u else u) ∧ accPlace u1 0 p .rw = (.here (.stack 0x80000040), v) ∧
    y = atomPA v 0x80000040 (fun old => atomOp op old (reg (thrAt u 0 0) (wReg (tAtomWord op) 46 42)) (BitVec.ofNat 64 (drawn u 172))) ∧
    y.1.poison = false := by
  let u := tU (tPointer 0x20000000040)
  have g : op = wReg (tAtomWord op) 55 52 ∧ reg (thrAt u 0 0) (wReg (tAtomWord op) 51 47) = 0x20000000040 := by
    rcases (by omega : op = 0 ∨ op = 1 ∨ op = 2 ∨ op = 3 ∨ op = 4) with rfl | rfl | rfl | rfl | rfl <;> decide +kernel
  have a : ∀ (s : State), s = u ∨ s = drew u → (accPlace s 0 0x20000000040 .rw).1 = .here (.stack 0x80000040) ∧
      (atomPA (accPlace s 0 0x20000000040 .rw).2 0x80000040 fun _ => 0).1.poison = false := by
    rintro s (rfl | rfl) <;> decide +kernel
  have k : (if op = 4 then drew u else u) = u ∨ (if op = 4 then drew u else u) = drew u := by split <;> simp
  have same : ∀ (v : State) (f : Word64 → Word64), (atomPA v 0x80000040 f).1 = (atomPA v 0x80000040 fun _ => 0).1 := by
    intro v f
    unfold atomPA
    split
    · rfl
    · dsimp only; split <;> rfl
  refine ⟨_, u, _, (accPlace (if op = 4 then drew u else u) 0 0x20000000040 .rw).2, _, _, _,
    tIss8 (by decide +kernel) (by decide +kernel), g.1, rfl, ?_, rfl, ?_, rfl, ?_⟩
  · rw [g.2]; decide
  · rw [g.2]; exact Prod.ext (a _ k).1 rfl
  · rw [same]; exact (a _ k).2

/-- A slice of two members, this one with index 0. -/
def tSlice : SliceRec where
  gen := 1
  sliceId := 9
  origin := 0
  extent := 1
  domain := 0
  nsub := 0
  switchTick := 0
  dirBase := 0
  subs := []

def tMember (s : State) : State := { s with
  self := { SelfSt.reset with dims := 1, coordValid := true, slice := some tSlice, member := true, sliceId := 9 } }

/-- The same of member 1, for a load, a store and an ATOM. -/
theorem wit_ScalarAccessesMemory_peer (need : Need) : ∃ s u v pc p, issued s 0 8 = some (0, pc, u) ∧
    p = reg (thrAt u 0 0) (wReg (tAtomWord 0) 51 47) ∧ p.toNat % 8 = 0 ∧
    accPlace u 0 p need = (.peer 1 0x40, v) ∧ t4Before u 0 0 (thrAt u 0 0).item 1 0x40 8 = false := by
  have g : reg (thrAt (tU (tMember (tPointer 0x10000000000040))) 0 0) (wReg (tAtomWord 0) 51 47) = 0x10000000000040 ∧
      (accPlace (tU (tMember (tPointer 0x10000000000040))) 0 0x10000000000040 need).1 = .peer 1 0x40 ∧
      t4Before (tU (tMember (tPointer 0x10000000000040))) 0 0 (thrAt (tU (tMember (tPointer 0x10000000000040))) 0 0).item 1 0x40 8
        = false := by
    cases need <;> decide +kernel
  exact ⟨_, _, _, _, _, tIss8 (by decide +kernel) (by decide +kernel), g.1.symm, by decide, pair_eq g.2.1, g.2.2⟩

/-- A COPY of 32 bytes of class 1 from offset 0x100 of the store of cluster 0 to offset 0x200. -/
def tCopyRaw (src dst : Nat) : List Byte :=
  record 64 [(0, 1, 0x10), (1, 1, 1), (2, 1, 12), (8, 8, src), (0x10, 8, dst), (0x18, 4, 32)]

def tDqState (q : List DmaCmd) : State :=
  let s := tThreads tThr tItem []
  { s with st := { s.st with cs := tBytes 0 (tCopyRaw 0x100 0x200) }, eng := s.eng.set 4 { EngSt.reset with thrQ := q } }

/-- The command that DQ at offset 0 makes of the descriptor there. -/
def tDqCmd (u : State) (pc : Word64) : DmaCmd :=
  { mkCmd u.nextNum (ownSeq (BitVec.ofNat 512 (ofLE (csBytes u 0 0 64))) (thrAt u 0 0).seq)
      (.thread 0 0 (thrAt u 0 0).item) pc with
    rank := (thrAt u 0 0).rank, pidx := (thrAt u 0 0).pidx, owner := (thrAt u 0 0).seq
    target := (itemOf u (thrAt u 0 0).seq (thrAt u 0 0).item).elim 0 (·.target) }

theorem wit_DqQueuesOneCommand : ∃ w s u v e a k pc, Sound s ∧ issued s 0 8 = some (0, pc, u) ∧
    a = (reg (thrAt u 0 0) (wReg w 51 47)).toNat ∧ a % 64 = 0 ∧ a + 64 ≤ csSize ∧ csBadRange u 0 a 64 = false ∧
    k = tDqCmd u pc ∧ e = engineFor 0 (thrAt u 0 0).rank (cmdClass k) ∧ e < 64 ∧ (engAt u e).thrQ.length < 256 ∧
    cmdCheck u true k = (none, v) :=
  ⟨0, tDqState [], tU (tDqState []), _, 4, 0, tDqCmd (tU (tDqState [])) (tIss (tDqState []) 8).2.1, _, sound_of (by decide +kernel),
    tIss8 (by decide +kernel) (by decide +kernel), by decide +kernel, by decide, by decide, by decide +kernel, rfl,
    by decide +kernel, by decide, by decide +kernel, pair_eq (by decide +kernel)⟩

def tDqFull : State := tDqState (List.replicate 256 (mkCmd 0 0 .host 0))

theorem wit_DqQueuesOneCommand_full : ∃ s u pc, issued s 0 8 = some (0, pc, u) ∧ csBadRange u 0 0 64 = false ∧
    engineFor 0 (thrAt u 0 0).rank (cmdClass (tDqCmd u pc)) = 4 ∧ 256 ≤ (engAt u 4).thrQ.length :=
  ⟨tDqFull, tU tDqFull, (tIss tDqFull 8).2.1, tIss8 (by decide +kernel) (by decide +kernel), by decide +kernel⟩

/-- A descriptor of each collective: two members, its group at 0x1000, its home map at 0x2000, no rows. -/
def tColRaw (op : Nat) : List Byte :=
  record 128 ([(0, 1, op), (4, 4, 77), (8, 2, 2), (0x10, 8, 0x1000), (0x4C, 4, 10), (0x58, 8, 0x2000), (0x60, 4, 1),
    (0x64, 1, 1)] ++ if op = 1 ∨ op = 2 ∨ op = 7 then [(2, 1, 5), (3, 1, 5)] else [])

def tColState (op : Nat) : State :=
  let s := tMember (tThreads tThr tItem [(2 ^ 30 + 0x1002, 1)])
  { s with st := { s.st with cs := tBytes 0 (tColRaw op) } }

/-- The descriptor that CQ at offset 0 reads. -/
def tColD (op : Nat) : ColDesc := { colDesc (csBytes (tU (tColState op)) 0 0 128) with quad := 0 }

/-- The checks of that CQ, up to the reads of its group and home map. -/
def tColOk (op : Nat) : Bool :=
  let s := tColState op
  let u := tU s
  (issued s 0 8).isSome && (tIss s 8).1 == 0 && 0 == (reg (thrAt u 0 0) (wReg 0 51 47)).toNat && (csByte u 0 0).toNat == op &&
    !csBadRange u 0 0 128 && decide ((colUnit u 0).inProg.length < 64) && colDescOk u (tColD op) (csBytes u 0 0 128) &&
    (tColD op).group == 0x1000 && (tColD op).nmem == 2 && (tColD op).emap == 0x2000 && ownIndex u == 0 && pagedB u &&
    ((chunks 0x1000 4).flatMap fun c => memRdN zeroByte u.mem.stack (2 ^ 30 + c.1) c.2) == [0, 0, 1, 0] &&
    ((chunks 0x2000 1024).flatMap fun c => memRdN zeroByte u.mem.stack (2 ^ 30 + c.1) c.2) == List.replicate 1024 0 &&
    groupOk u [0, 1]
theorem tColOk_all : [1, 2, 3, 4, 5, 6, 7].all tColOk = true := by decide +kernel
theorem tCol_map : emapOk (List.replicate 1024 0) [0, 1] = true ∧
    (List.range 2).map (fun k => fld [0, 0, 1, 0] (2 * k) 2) = [0, 1] := by decide +kernel
theorem tCol_chunks : (chunks 0x2000 1024).all (fun c => decide (0x2000 ≤ c.1 ∧ 0 < c.2 ∧ (2 ^ 30 + c.1) % 32 + c.2 ≤ 32 ∧
    c.1 < 2 ^ 30)) = true := by decide +kernel

theorem wit_CollectiveIsAccepted (op : Nat) (h : op ∈ [1, 2, 3, 4, 5, 6, 7]) : ∃ w s u v1 v pc d gb emap,
    issued s 0 8 = some (0, pc, u) ∧ 0 = (reg (thrAt u 0 0) (wReg w 51 47)).toNat ∧
    d = { colDesc (csBytes u 0 0 128) with quad := 0 } ∧
    (csByte u 0 0).toNat = op ∧ csBadRange u 0 0 128 = false ∧ (colUnit u 0).inProg.length < 64 ∧
    colDescOk u d (csBytes u 0 0 128) = true ∧
    devRead u (.gva (BitVec.ofNat 64 d.group)) (2 * d.nmem) = (some gb, v1) ∧
    (if d.experts then devRead v1 (.gva (BitVec.ofNat 64 d.emap)) 1024 else (some [], v1)) = (some emap, v) ∧
    groupOk v ((List.range d.nmem).map fun k => fld gb (2 * k) 2) = true ∧
    (d.experts = true → emapOk emap ((List.range d.nmem).map fun k => fld gb (2 * k) 2) = true) := by
  have g := List.all_eq_true.mp tColOk_all op h
  unfold tColOk at g
  simp only [Bool.and_eq_true, beq_iff_eq, decide_eq_true_eq, Bool.not_eq_true'] at g
  obtain ⟨⟨⟨⟨⟨⟨⟨⟨⟨⟨⟨⟨⟨⟨g1, g2⟩, g3⟩, g4⟩, g5⟩, g6⟩, g7⟩, g8⟩, g9⟩, g10⟩, g11⟩, g12⟩, g13⟩, g14⟩, g15⟩ := g
  obtain ⟨g16, g17⟩ := tCol_map
  obtain ⟨v1, e1, a1, p1⟩ := (paged_of g12).readOwn g11 (a := 0x1000) (n := 4) (by decide +kernel) (by decide) g13
  obtain ⟨v2, e2, a2, -⟩ := p1.readOwn ((after_ownIndex a1).trans g11) (a := 0x2000) (n := 1024) tCol_chunks
    (by decide) (bs := List.replicate 1024 0) (by rw [a1.stack]; exact g14)
  refine ⟨0, tColState op, tU (tColState op), v1, if (tColD op).experts then v2 else v1, _, tColD op, [0, 0, 1, 0],
    if (tColD op).experts then List.replicate 1024 0 else [], tIss8 g1 g2, g3, rfl, g4, g5, g6, g7, ?_, ?_, ?_, ?_⟩
  · rw [g8, g9]; exact e1
  · rw [g10]; split
    · exact e2
    · rfl
  · rw [g9, g17]; split
    · exact (after_groupOk a2 _).trans ((after_groupOk a1 _).trans g15)
    · exact (after_groupOk a1 _).trans g15
  · intro hx; rw [g9, g17, if_pos hx]; exact g16


/-! ### Collectives in progress -/

/-- A collective of the members 0 and 1 with that descriptor: what it has got, what is retained, its rows. -/
def tColl (got : List (Nat × Nat × List Byte)) (sent : List Retained) (rows : Nat) : Collective :=
  { tCollOf { colDesc (tColRaw 1) with rows := rows, cols := 1 } .host with got := got, sent := sent }

/-- A member with that collective on unit 0. -/
def tColOn (x : Collective) (done : List (BitVec 32 × Nat)) : State :=
  let s := tMember { tOn with time := 10 ^ 9 }
  { s with col := { s.col with units := s.col.units.set 0 ⟨[x]⟩, done := done } }

/-- A shard of that collective, its CRC right or not, its tick. -/
def tShard (good : Bool) (cid tick : BitVec 32) : Shard where
  src := 1
  cid := cid
  shseq := 6
  tick := tick
  offs := 0
  crc := shardCrc 6 tick 0 [1, 2] + if good then 0 else 1
  data := [1, 2]

/-- States of the collective: nothing received, a shard received, two failed copies, of a tick long past, a shard retained,
complete. -/
def tCollNone : Collective := tColl [] [] 1
def tCollGot : Collective := tColl [(1, 0, [1, 2])] [] 1
def tCollBad : Collective := { tCollNone with bad := [(1, 6, 2)] }
def tCollOld : Collective := { tCollNone with tick := 2 ^ 32 - 17 }
def tKeeps : Retained := ⟨1, tShard true 77 5, 0⟩
def tColNone : State := tColOn tCollNone [(78, 5), (79, 2 ^ 32 - 17)]
def tColGot : State := tColOn tCollGot []
def tColSent : State := tColOn (tColl [] [tKeeps] 1) []
def tColDone : State := tColOn (tColl [] [] 0) []

/-- A shard that may be counted, a repeated one, one of a tick long past, and failed copies: the first and the third. -/
theorem wit_ShardsAreAnsweredAndReleased : colOn tColNone = true ∧ findColl tColNone 77 5 = some (0, tCollNone) ∧
    tCollNone.members.contains (tShard true 77 5).src = true ∧
    (tShard true 77 5).crc = shardCrc 6 5 0 [1, 2] ∧ staleShard tColNone (tShard true 77 5) = false ∧
    (tCollNone.got.any fun g => g.1 == tCollNone.members.idxOf 1 && g.2.1 == 0) = false ∧
    mapDiffers tCollNone (tShard true 77 5) = false ∧
    findColl tColGot 77 5 = some (0, tCollGot) ∧ (tCollGot.got.any fun g => g.1 == tCollGot.members.idxOf 1 && g.2.1 == 0) = true ∧
    findColl (tColOn tCollOld []) 77 (-17) = some (0, tCollOld) ∧
    (tShard true 77 (-17)).crc = shardCrc 6 (-17) 0 [1, 2] ∧ staleShard (tColOn tCollOld []) (tShard true 77 (-17)) = true ∧
    (tShard false 77 5).crc ≠ shardCrc 6 5 0 [1, 2] ∧ badCopies tCollNone 1 6 < 2 ∧
    findColl (tColOn tCollBad []) 77 5 = some (0, tCollBad) ∧ 2 ≤ badCopies tCollBad 1 6 := by
  decide +kernel

/-- No collective has the identifier: one that completed, now or long ago; one that is old; one not begun yet. -/
theorem wit_ShardsAreAnsweredAndReleased_none : findColl tColNone 78 5 = none ∧ findColl tColNone 79 (-17) = none ∧
    findColl tColNone 78 (-17) = none ∧ findColl tColNone 78 6 = none ∧
    (tColNone.col.done.any fun d => d.1 == 78 && BitVec.ofNat 32 d.2 == 5) = true ∧
    (tColNone.col.done.any fun d => d.1 == 79 && BitVec.ofNat 32 d.2 == -17) = true ∧
    (tColNone.col.done.any fun d => d.1 == 78 && BitVec.ofNat 32 d.2 == -17) = false ∧
    staleShard tColNone (tShard true 78 5) = false ∧ staleShard tColNone (tShard true 79 (-17)) = true ∧
    staleShard tColNone (tShard true 78 (-17)) = true ∧ staleShard tColNone (tShard true 78 6) = false := by
  decide +kernel
theorem wit_ShardsAreAnsweredAndReleased_retained : colOn tColSent = true ∧
    retainedAt tColSent 1 77 6 = some (0, tColl [] [tKeeps] 1, tKeeps) := by decide +kernel

theorem wit_CollectivesEnd : colOn tColDone = true ∧ collByCid tColDone 0 77 collDone = some (tColl [] [] 0) ∧
    collByCid tColNone 0 77 (fun y => !collDone y && decide (collDeadline y ≤ tColNone.time)) = some tCollNone := by
  decide +kernel

/-- A stack in row 3, the end of a cap, and a notice of member 1. -/
def tPaced (row : Nat) : State := { tColNone with
  mem := { tColNone.mem with stks := tColNone.mem.stks.set 0 { StackSt.reset with row := row } }
  col := { tColNone.col with paceOn := true } }

theorem wit_PaceNoticesGoOutAndComeIn : colOn (tPaced 3) = true ∧
    capQuarters (tPaced 3) = 2 ∧ colOn (tPaced 0) = true ∧
    capQuarters (tPaced 0) = 4 ∧ (tPaced 0).col.paceOn = true ∧
    ((tPaced 0).self.slice.bind fun r => indexOf (tPaced 0).self.dims r 1) = some 1 := by decide +kernel

/-! ### The array and the vector unit -/

/-- Cluster 0 with a thread whose descriptors stand at 0, its item with two accumulator slots. -/
def tArray (bs : List Byte) : State :=
  let s := tThreads { tThr with tdescCount := 1, vdescCount := 1 } { tItem with acc := 2 } []
  let t := tCl s { clAt s 0 with slots :=
    [{ AccSlot.reset with owner := some (3, 0) }, { AccSlot.reset with owner := some (3, 1) }, AccSlot.reset, AccSlot.reset] }
  { t with st := { t.st with cs := tBytes 0 bs } }

def tU32 (s : State) : State := (tIss s 32).2.2

theorem tIss32 {s : State} (h : (issued s 0 32).isSome = true) (ht : (tIss s 32).1 = 0) :
    issued s 0 32 = some (0, (tIss s 32).2.1, tU32 s) := by
  have e := tIss_eq h
  rw [ht] at e
  exact e

/-- A in BF16 at 0x1000, B at 0x2000, C at 0x3000: 16 x 16 over 32 positions, or of no rows. -/
def tTileDesc (rows : Nat) : List Byte :=
  record 128 [(0, 4, rows), (4, 4, 16), (8, 4, 32), (0x14, 4, 0x1000), (0x18, 4, 64), (0x24, 4, 0x2000), (0x28, 4, 64),
    (0x34, 4, 0x3000), (0x38, 4, 32), (0x44, 4, 0xFFFFFFFF), (0x48, 4, 0xFFFFFFFF)]

/-- A TMM or TGRID of BF16 operands and result, one tile, one bucket at 0x800. -/
def tTile (list : Nat) : BitVec 248 := BitVec.ofNat 248 (0x5555 * 2 ^ 232 + list * 2 ^ 152)
/-- The bucket: 16 x 16 x 32, or none. -/
def tTileState (rows : Nat) : State :=
  tArray (tTileDesc rows ++ List.replicate 0x780 0 ++ record 16 [(0, 4, rows), (4, 4, 16), (8, 4, 32)])

/-- The result of the checks, where they pass. -/
def passed {α β : Type} (d : β) : α ⊕ β → β
  | .inl _ => d
  | .inr j => j
theorem passed_eq {α β : Type} {d : β} {r : α ⊕ β} (h : r.isRight = true) : r = .inr (passed d r) := by
  cases r with
  | inl a => cases h
  | inr b => rfl

def tTileJob (rows : Nat) (grid : Bool) : TileJob :=
  passed ⟨grid, 0, tileWord 0, tileDesc [], none, 0, 0, 0⟩
    (tileChecks (tU32 (tTileState rows)) 0 (thrAt (tU32 (tTileState rows)) 0 0) 2 grid (tileWord (tTile (if grid then 0x800 else 0))))

theorem wit_TileInstructionsJoinTheArrayQueue : issued (tTileState 16) 0 32 =
      some (0, (tIss (tTileState 16) 32).2.1, tU32 (tTileState 16)) ∧
    (itemOf (tU32 (tTileState 16)) (thrAt (tU32 (tTileState 16)) 0 0).seq (thrAt (tU32 (tTileState 16)) 0 0).item).elim 0 (·.acc) = 2 ∧
    tileChecks (tU32 (tTileState 16)) 0 (thrAt (tU32 (tTileState 16)) 0 0) 2 false (tileWord (tTile 0)) = .inr (tTileJob 16 false) ∧
    (tTileJob 16 false).noSource = false ∧ ((tTileJob 16 false).curveFrom 0).isSome = true :=
  ⟨tIss32 (by decide +kernel) (by decide +kernel), by decide +kernel, passed_eq (by decide +kernel), by decide +kernel,
    by decide +kernel⟩

/-- A TGRID of one tile, and of none. -/
theorem wit_TileInstructionsJoinTheArrayQueue_grid (rows : Nat) (h : rows = 16 ∨ rows = 0) :
    issued (tTileState rows) 0 32 = some (0, (tIss (tTileState rows) 32).2.1, tU32 (tTileState rows)) ∧
    tileChecks (tU32 (tTileState rows)) 0 (thrAt (tU32 (tTileState rows)) 0 0) 2 true (tileWord (tTile 0x800)) =
      .inr (tTileJob rows true) ∧
    (tTileJob rows true).noSource = false ∧ ((tTileJob rows true).curveFrom 0).isSome = (rows == 16) := by
  rcases h with rfl | rfl
  · exact ⟨tIss32 (by decide +kernel) (by decide +kernel), passed_eq (by decide +kernel), by decide +kernel, by decide +kernel⟩
  · exact ⟨tIss32 (by decide +kernel) (by decide +kernel), passed_eq (by decide +kernel), by decide +kernel, by decide +kernel⟩

/-- A map of 2 x 2 positions of 32 channels in BF16 and a filter of one tap, or of 9 x 9 taps for the frequency path. -/
def tConvDesc (taps flog : Nat) : List Byte :=
  record 128 [(0, 4, 2), (4, 4, 2), (8, 2, 1), (0xA, 2, 32), (0xC, 2, 16), (0x10, 4, 2), (0x14, 4, 2), (0x1A, 2, 1),
    (0x1C, 1, 1), (0x1D, 1, taps), (0x1E, 1, 1), (0x20, 3, 0x010101), (0x24, 3, 0x010101), (0x2D, 1, flog),
    (0x34, 4, 0x1000), (0x38, 4, 128), (0x3C, 4, 256), (0x4C, 4, 0x2000), (0x54, 4, 0), (0x50, 4, 64 * taps),
    (0x5C, 4, 0x8000), (0x60, 4, 64), (0x64, 4, 128), (0x74, 4, 0x40000), (0x78, 4, 0x100000), (0x7E, 2, 1)]

def tConvWord (prep : Bool) : BitVec 248 := BitVec.ofNat 248 (0x555 * 2 ^ 236 + prep.toNat * 2 ^ 234)

def tConvJob (taps flog : Nat) (prep : Bool) : ConvJob :=
  passed ⟨0, convWord 0, convDesc []⟩ (convChecks (tU32 (tArray (tConvDesc taps flog))) 0
    (thrAt (tU32 (tArray (tConvDesc taps flog))) 0 0) 2 (convWord (tConvWord prep)))

theorem wit_TileInstructionsJoinTheArrayQueue_conv : convIsPrep (tConvWord false) = false ∧
    issued (tArray (tConvDesc 1 0)) 0 32 = some (0, (tIss (tArray (tConvDesc 1 0)) 32).2.1, tU32 (tArray (tConvDesc 1 0))) ∧
    convChecks (tU32 (tArray (tConvDesc 1 0))) 0 (thrAt (tU32 (tArray (tConvDesc 1 0))) 0 0) 2 (convWord (tConvWord false)) =
      .inr (tConvJob 1 0 false) ∧
    (if (tConvJob 1 0 false).direct then ((tConvJob 1 0 false).asTile.curveFrom 0).isSome = true
      else 0 < (tConvJob 1 0 false).units) :=
  ⟨by decide +kernel, tIss32 (by decide +kernel) (by decide +kernel), passed_eq (by decide +kernel), by decide +kernel⟩
theorem wit_TileInstructionsJoinTheArrayQueue_prep : convIsPrep (tConvWord true) = true ∧
    issued (tArray (tConvDesc 9 5)) 0 32 = some (0, (tIss (tArray (tConvDesc 9 5)) 32).2.1, tU32 (tArray (tConvDesc 9 5))) ∧
    convChecks (tU32 (tArray (tConvDesc 9 5))) 0 (thrAt (tU32 (tArray (tConvDesc 9 5))) 0 0) 2 (convWord (tConvWord true)) =
      .inr (tConvJob 9 5 true) ∧
    (tConvJob 9 5 true).direct = false ∧ 0 < (tConvJob 9 5 true).units :=
  ⟨by decide +kernel, tIss32 (by decide +kernel) (by decide +kernel), passed_eq (by decide +kernel), by decide +kernel,
    by decide +kernel⟩

/-- A step of item 3 on the array, with thread 0 in that state, and slot 0 being converted for it. -/
def tStep : ArrayStep := ⟨0, 3, 0, 0x40, 0, ⟨8, 5, 5, 0⟩, none, [(0x3000, [1])]⟩
def tOnArray (h : Thread) : State :=
  let s := tThreads h tItem []
  tCl s { clAt s 0 with
    array := some tStep
    slots := [{ AccSlot.reset with owner := some (3, 0), converting := some 0, result := [(0x3000, [1])] },
      AccSlot.reset, AccSlot.reset, AccSlot.reset] }
def tWaits : Thread := { tThr with state := .waiting, wait := .tile }
def tInProgress : Thread := { tWaits with prog := some (TileProg.start 0x40 (tTile 0) (tTileDesc 16) none [] (tTileJob 16 false) 0) }

/-- The thread waits in the middle of its instruction; it is suspended; it belongs to another item. -/
theorem wit_ArrayIsReleasedStepByStep : Sound (tOnArray tInProgress) ∧ (clAt (tOnArray tInProgress) 0).array = some tStep ∧
    (thrAt (tOnArray tInProgress) 0 0).state = .waiting ∧ (thrAt (tOnArray tInProgress) 0 0).wait = .tile ∧
    (thrAt (tOnArray tInProgress) 0 0).item = tStep.item ∧ (thrAt (tOnArray tInProgress) 0 0).prog.isSome = true ∧
    Sound (tOnArray { tWaits with state := .suspended }) ∧
    (thrAt (tOnArray { tWaits with state := .suspended }) 0 0).state = .suspended ∧ Sound (tOnArray { tWaits with item := 4 }) ∧
    (thrAt (tOnArray { tWaits with item := 4 }) 0 0).state ≠ .suspended ∧
    ofItem (thrAt (tOnArray { tWaits with item := 4 }) 0 0) tStep.item = false ∧ (clAt tOn 0).array = none :=
  ⟨sound_of (by decide +kernel), by decide +kernel, by decide +kernel, by decide +kernel, by decide +kernel, by decide +kernel,
    sound_of (by decide +kernel), by decide +kernel, sound_of (by decide +kernel), by decide +kernel⟩
/-- A conversion for a thread that waits for nothing else: no other slot converts for it. -/
theorem wit_ArrayIsReleasedStepByStep_last : Sound (tOnArray tWaits) ∧ 0 < (clAt (tOnArray tWaits) 0).slots.length ∧
    (unit (clAt (tOnArray tWaits) 0).slots 0 AccSlot.reset).converting = some 0 ∧
    (thrAt (tOnArray tWaits) 0 0).state = .waiting ∧ (thrAt (tOnArray tWaits) 0 0).wait = .tile ∧
    (thrAt (tOnArray tWaits) 0 0).prog = none ∧
    (unit (clAt (tOnArray tWaits) 0).slots 0 AccSlot.reset).owner.any (fun o => ofItem (thrAt (tOnArray tWaits) 0 0) o.1) = true ∧
    (List.range 8).all (fun k => k == 0 ||
      (unit (clAt (tOnArray tWaits) 0).slots k AccSlot.reset).converting != some 0) = true :=
  ⟨sound_of (by decide +kernel), by decide +kernel⟩

/-- One row of 4: X at 0x1000 and Z at 0x2000 in FP32, no Y, a statistics record at 0x3000. -/
def tVecDesc (z mode : Nat) (y : Nat) : List Byte :=
  record 128 [(0, 4, 1), (4, 4, 4), (8, 4, 0x1000), (0xC, 4, 32), (0x18, 4, y), (0x1C, 4, 32), (0x20, 4, 0x2000), (0x24, 4, 32),
    (0x28, 4, 0x2800), (0x2C, 4, 32), (0x30, 1, 6), (0x31, 1, 6), (0x32, 1, z), (0x33, 1, mode), (0x3C, 2, 0xFFFF),
    (0x40, 4, 0xFFFFFFFF), (0x4C, 4, 0x3000)]

/-- A thread with that descriptor, and the result of the checks of a vector instruction of opcode opc. -/
def tVec (z mode y : Nat) : State := tArray (tVecDesc z mode y)
def tVecJob (opc z mode y : Nat) : VecJob :=
  passed ⟨0, 0, 0, vecDesc []⟩ (vecChecks (tU (tVec z mode y)) 0 (thrAt (tU (tVec z mode y)) 0 0) opc 0)

/-- VEW with Y, VCVT, VQNT into OCP8, VSF of slot 0, the three VSTAT, the four VSOFT and VARGMAX. -/
def tVecForms : List (Nat × Nat × Nat × Nat) := [(0x50, 6, 0, 0x1800), (0x51, 6, 0, 0xFFFFFFFF), (0x52, 4, 0, 0xFFFFFFFF),
  (0x53, 6, 0, 0xFFFFFFFF), (0x54, 6, 0, 0xFFFFFFFF), (0x54, 6, 1, 0xFFFFFFFF), (0x54, 6, 2, 0xFFFFFFFF),
  (0x55, 6, 0, 0xFFFFFFFF), (0x55, 6, 1, 0xFFFFFFFF), (0x55, 6, 129, 0xFFFFFFFF), (0x55, 6, 2, 0xFFFFFFFF), (0x56, 6, 0, 0xFFFFFFFF)]

/-- The instruction issues and its checks pass; what the results ask of its descriptor holds. -/
def tVecOk (f : Nat × Nat × Nat × Nat) : Bool :=
  let s := tVec f.2.1 f.2.2.1 f.2.2.2
  let u := tU s
  let j := tVecJob f.1 f.2.1 f.2.2.1 f.2.2.2
  soundB s && (issued s 0 8).isSome && (tIss s 8).1 == 0 && (vecChecks u 0 (thrAt u 0 0) f.1 0).isRight &&
    j.d.mode == f.2.2.1 && j.d.rows == 1 && j.d.gutBase == noRegion && j.d.prob == 0xFFFF && j.d.zFmt == f.2.1 &&
    decide ((vecOutputs j).Pairwise fun a b => regionsMeet a b = false)
theorem tVecOk_all : tVecForms.all tVecOk = true := by decide +kernel

theorem wit_VectorInstructionsComplete (opc z mode y : Nat) (h : (opc, z, mode, y) ∈ tVecForms) : ∃ s u pc j, Sound s ∧
    issued s 0 8 = some (0, pc, u) ∧ vecChecks u 0 (thrAt u 0 0) opc 0 = .inr j ∧ j.d.mode = mode ∧ j.d.zFmt = z ∧
    j.d.rows ≤ 1 ∧ j.d.gutBase = noRegion ∧ j.d.prob = 0xFFFF ∧ RowsApart j := by
  have g := List.all_eq_true.mp tVecOk_all _ h
  unfold tVecOk at g
  simp only [Bool.and_eq_true, beq_iff_eq, decide_eq_true_eq] at g
  obtain ⟨⟨⟨⟨⟨⟨⟨⟨⟨g1, g2⟩, g3⟩, g4⟩, g5⟩, g6⟩, g7⟩, g8⟩, g9⟩, g10⟩ := g
  have r := Nat.le_of_eq g6
  exact ⟨tVec z mode y, tU (tVec z mode y), _, tVecJob opc z mode y, sound_of g1, tIss8 g2 g3, passed_eq g4, g5, g9, r, g7, g8,
    .inr r, fun _ => .inr r, g10⟩

/-- The forms of those results: Z in a float format, all modes; a sum that is not zero (here a poisoned one: the values of the
special functions are open, log entry 17); a partial moment of some elements; the greatest of a row of zeros, and a row of
poison. -/
def tVecBytes (more : List Byte) : State :=
  tArray (tVecDesc 6 0 0xFFFFFFFF ++ List.replicate (0x1000 - 128) 0 ++ more)
def tPoisonRow : List Byte := (List.range 4).flatMap fun _ => [0, 0, 0xC0, 0x7F]
theorem wit_ElementwiseResults : wxTree 2 ((vecVals (tVecBytes tPoisonRow) 0 (vecDesc (tVecDesc 6 0 0xFFFFFFFF)) 0).map fun y =>
      softU (clampLogit y).1) = none ∧
    csBadRange (tVecBytes []) 0 0x3000 48 = false ∧
    ((rowX (tVecBytes tPoisonRow) 0 (vecDesc (tVecDesc 6 0 0xFFFFFFFF)) 0).any fun y => y.1.v.isNone) = true ∧
    ((rowX (tVecBytes []) 0 (vecDesc (tVecDesc 6 0 0xFFFFFFFF)) 0).all fun y => y.1.v.isSome) = true ∧
    (argmax ((rowX (tVecBytes []) 0 (vecDesc (tVecDesc 6 0 0xFFFFFFFF)) 0).map (·.1))).isSome = true ∧
    fld (csBytes (tVecBytes (List.replicate 0x2020 0 ++ [4])) 0 0x3000 48) 32 4 ≠ 0 := by decide +kernel

/-- One candidate: DBOX and DNMS. -/
def tDetDesc : List Byte :=
  record 128 [(0, 4, 1), (4, 4, 0x1000), (8, 4, 0x2000), (0xC, 4, 0x3000), (0x10, 4, 0x4000), (0x14, 4, 0x5000), (0x18, 4, 0x6000),
    (0x1C, 4, 0x7000), (0x20, 4, 0xFFFFFFFF), (0x44, 1, 6), (0x46, 2, 1)]
def tDet (nms : Bool) : DetDesc :=
  passed (detDesc []) (detChecks (tU (tArray tDetDesc)) 0 (thrAt (tU (tArray tDetDesc)) 0 0) nms 0)
theorem tDet_ok (nms : Bool) : (detChecks (tU (tArray tDetDesc)) 0 (thrAt (tU (tArray tDetDesc)) 0 0) nms 0).isRight = true ∧
    (detOutputs nms (tDet nms)).Pairwise (fun a b => regionsMeet a b = false) := by cases nms <;> decide +kernel

theorem wit_VectorInstructionsComplete_det (nms : Bool) : ∃ s u pc d, Sound s ∧ issued s 0 8 = some (0, pc, u) ∧
    detChecks u 0 (thrAt u 0 0) nms 0 = .inr d ∧ (detOutputs nms d).Pairwise (fun a b => regionsMeet a b = false) :=
  ⟨tArray tDetDesc, tU (tArray tDetDesc), _, tDet nms, sound_of (by decide +kernel), tIss8 (by decide +kernel) (by decide +kernel),
    passed_eq (tDet_ok nms).1, (tDet_ok nms).2⟩

theorem wit_SumsDoNotDependOnOrder : ([(some ⟨1, 0⟩, some ⟨3, -2⟩), (none, none)] : List (Val × Val)).Perm
    ([(none, none)] ++ [(some ⟨1, 0⟩, some ⟨3, -2⟩)]) := List.Perm.swap _ _ _

/-! ### Engines, translation and peers -/

/-- Engine 4 with one COPY of 32 bytes within the store of cluster 0. -/
def tStart (raw : List Byte) : State :=
  tDqState [mkCmd 1 (BitVec.ofNat 512 (ofLE raw)) (.thread 0 0 3) 0]

/-- The command that starts on an engine, and the state it starts in. -/
def tBegun (s : State) (e : Nat) : DmaCmd × State := (starts s e).getD (mkCmd 0 0 .host 0, s)

theorem tBegun_eq {s : State} {e : Nat} (h : (starts s e).isSome = true) : starts s e = some ((tBegun s e).1, (tBegun s e).2) := by
  unfold tBegun
  cases k : starts s e with
  | none => rw [k] at h; cases h
  | some x => rfl

/-- Engine 4 with one command of each operation: nothing to move but for a COPY of 32 bytes; the containers are in tier 3, the
ring of the KV cache at 0x1000. -/
def tOpRaw (op : Nat) : List Byte :=
  record 64 ([(0, 1, op)] ++ if op ≤ 2 then [] else [(1, 1, 1), (2, 1, 12)] ++
    if op = 0x10 then [(8, 8, 0x100), (0x10, 8, 0x200), (0x18, 4, 32)]
    else [(8, 8, 2 ^ 42 + 2 ^ 30), (0x10, 8, 2 ^ 42 + 2 ^ 30)])
def tOpState (op : Nat) : State :=
  let s := tStart (tOpRaw op)
  tSeq { s with mem := { s.mem with stack := tTables ++ (tBytes 0x400008 [0x3F] ++ tBytes (2 ^ 30 + 0x1000) tRing) } }
    { seqAt s 0 with kvDesc := 0x1000 }
def tOpCmd (op : Nat) : DmaCmd := (tBegun (tOpState op) 4).1
def tOpIn (op : Nat) : State := (tBegun (tOpState op) 4).2

/-- Each of the twelve operations starts. -/
theorem wit_EnginesStartTheBestCommand (op : Nat)
    (h : op ∈ [0x01, 0x02, 0x10, 0x11, 0x12, 0x13, 0x14, 0x20, 0x21, 0x22, 0x23, 0x24]) :
    starts (tOpState op) 4 = some (tOpCmd op, tOpIn op) ∧ cmdOp (tOpCmd op) = op := by
  have g : ([0x01, 0x02, 0x10, 0x11, 0x12, 0x13, 0x14, 0x20, 0x21, 0x22, 0x23, 0x24].all fun op =>
      (starts (tOpState op) 4).isSome && cmdOp (tOpCmd op) == op) = true := by decide +kernel
  have k := List.all_eq_true.mp g op h
  simp only [Bool.and_eq_true, beq_iff_eq] at k
  exact ⟨tBegun_eq k.1, k.2⟩

/-- Each of the seven transfers runs to its end. -/
theorem wit_EnginesStartTheBestCommand_ends (op : Nat) (h : op ∈ [0x01, 0x02, 0x10, 0x11, 0x12, 0x13, 0x14]) :
    ∃ ps w x, transferPieces 4 (tOpCmd op) (tOpIn op) = (some ps, w) ∧ runPieces 4 ps 0 ⟨w, tOpCmd op, [], 4⟩ = (none, x) := by
  by_cases l : op ∈ [0x01, 0x02]
  · have g : ([0x01, 0x02].all fun op => pagedB (tOpIn op) && cmdOp (tOpCmd op) == op && (kvDesc (tOpCmd op)).tcount == 0 &&
        (kvDesc (tOpCmd op)).seq == 0 && (seqAt (tOpIn op) 0).kvDesc.toNat % 2 ^ 52 == 0x1000 &&
        ((chunks 0x1000 ringSize).flatMap fun c => memRdN zeroByte (tOpIn op).mem.stack (2 ^ 30 + c.1) c.2) == tRing) = true := by
      decide +kernel
    have k := List.all_eq_true.mp g op l
    simp only [Bool.and_eq_true, beq_iff_eq] at k
    obtain ⟨⟨⟨⟨⟨k1, k2⟩, k3⟩, k4⟩, k5⟩, k6⟩ := k
    obtain ⟨w, f, -, -⟩ := (paged_of k1).read (a := 0x1000) (n := ringSize) (by decide +kernel) k6
    have r : readRing (tOpIn op) (kvDesc (tOpCmd op)).seq = (some (ringDesc tRing), w) := by
      unfold readRing; rw [k4, k5, f]; rfl
    have z : kvTokens (ringDesc tRing) (kvDesc (tOpCmd op)) = 0 := by unfold kvTokens; rw [k3]; exact Nat.zero_min _
    refine ⟨[], w, _, ?_, rfl⟩
    unfold transferPieces
    rw [k2, r]
    simp only [List.mem_cons, List.not_mem_nil, or_false] at l
    rcases l with rfl | rfl
    · show (some (putPieces (ringDesc tRing) (kvDesc (tOpCmd 1))), w) = _
      unfold putPieces; rw [if_pos z]
    · show (some (getPieces 4 (ringDesc tRing) (kvDesc (tOpCmd 2))), w) = _
      unfold getPieces; simp only [if_pos z]
  · have g : ([0x10, 0x11, 0x12, 0x13, 0x14].all fun op =>
        let r := transferPieces 4 (tOpCmd op) (tOpIn op)
        r.1.isSome && (runPieces 4 (r.1.getD []) 0 ⟨r.2, tOpCmd op, [], 4⟩).1 == none) = true := by decide +kernel
    have m : op ∈ [0x10, 0x11, 0x12, 0x13, 0x14] := by
      simp only [List.mem_cons, List.not_mem_nil, or_false] at h l ⊢; omega
    have k := List.all_eq_true.mp g op m
    simp only [Bool.and_eq_true, beq_iff_eq] at k
    obtain ⟨ps, e⟩ := Option.isSome_iff_exists.mp k.1
    rw [e] at k
    exact ⟨ps, _, _, Prod.ext e rfl, pair_eq k.2⟩

/-- Engine 0 owns four entries from 2: TAIL 6 to 8 and down to 2 may be written, 3 may not. -/
def tOwned : State := tEng tOn { EngSt.reset with head := 2, tail := 6 }
theorem wit_DoorbellPassesEntries : Sound tOwned ∧ hostMay tOwned = true ∧
    ((engAt tOwned 0).tail - (engAt tOwned 0).head).toNat ≤ ((8 : Word64).setWidth 10 - (engAt tOwned 0).head).toNat ∧
    ((3 : Word64).setWidth 10 - (engAt tOwned 0).head).toNat < ((engAt tOwned 0).tail - (engAt tOwned 0).head).toNat ∧
    ((engAt tOwned 0).tail - (engAt tOwned 0).head).toNat ≤ ((6 : Word64).setWidth 10 - (engAt tOwned 0).head).toNat :=
  ⟨sound_of (by decide +kernel), by decide +kernel, by decide +kernel, by decide +kernel, by decide +kernel⟩

/-- A fault of a thread, or of an engine's command. -/
def tFault (who : Requester) (ticks : Nat) : FaultRec where
  tag := 9
  code := 0
  kind := 0
  level := 2
  va := 0x40
  who := 0
  seq := 0
  final := false
  done := 0
  cmdTag := 0
  peer := none
  req := who
  arose := 0
  ticks := ticks

def tParked : DmaCmd := mkCmd 1 (BitVec.ofNat 512 (ofLE (tCopyRaw 0x100 0x200))) (.thread 0 0 3) 0
def tFaulted (who : Requester) (ticks : Nat) : State :=
  let s := tEng (tThreads { tThr with state := .waiting, wait := .fault 9 } tItem []) { EngSt.reset with parked := [(9, tParked)] }
  { s with xlt := { s.xlt with faults := [tFault who ticks] } }

theorem wit_FaultsAreResolved : hostMay (tFaulted (.thread 0 0 3) 0) = true ∧
    faultAt (tFaulted (.thread 0 0 3) 0) 9 = some (tFault (.thread 0 0 3) 0) ∧ isOn (tFaulted (.thread 0 0 3) 0) 0 0 3 = true ∧
    hostMay (tFaulted (.engine 0) 5) = true ∧ faultAt (tFaulted (.engine 0) 5) 9 = some (tFault (.engine 0) 5) ∧
    parkedAt (tFaulted (.engine 0) 5) 0 9 = some tParked ∧
    ([2, 3].all fun k => parkedAt (raise (dropFault (tFaulted (.engine 0) 5) 9) bXLT k (faultLoc (tFault (.engine 0) 5)) 0 9) 0 9
      == some tParked) = true ∧
    limitPast (tFaulted (.thread 0 0 3) 0) 0 0 0 0 0 = false ∧ limitPast (tFaulted (.thread 0 0 3) 5) 0 5 0 0 0 = true ∧
    limitPast (tFaulted (.engine 0) 5) 0 5 0 0 0 = true := by decide +kernel

theorem wit_InvalidationDiscardsWhatItCovers : hostMay tOn = true ∧
    ({ tOn with xlt := { tOn.xlt with invals := [invalRange 0x41, invalRange 0] } }).xlt.invals = [invalRange 0x41, invalRange 0] := by
  decide +kernel

/-- Requests of member 1: a place here; no page there; a table entry that is not well formed. -/
def tPeers : State :=
  let s := tMember tOn
  { s with mem := { s.mem with stack := memWrs zeroByte s.mem.stack 0x100060 [0x81] } }
def tPlaces (s : State) (op : MemOp) (va : Nat) : (List (Nat × Nat) ⊕ (Xl × Nat)) × State :=
  peerPlaces (requestNeed op) va (requestBytes op va 1 (List.replicate 32 7)) s
/-- The same with the ring entry of the next fault occupied. -/
def tPeersBusy : State := { tPeers with xlt := { tPeers.xlt with nextTag := 16393, faults := [tFault (.thread 0 0 3) 0] } }
def tPeerFault (va : Nat) : FaultRec := { mkFault 6 3 va 0 noSeq (.peer 1 7) with peer := some 1 }

theorem wit_PeerRequestsAreAnswered : tPeers.self.member = true ∧ tPeers.pwr.keepalive = false ∧
    (tPeers.self.slice.bind fun r => indexOf tPeers.self.dims r 1) = some 1 ∧
    [MemOp.read, .write, .poison].all (fun op => (tPlaces tPeers op 0x40).1 == .inl [(2 ^ 30 + 0x40, 32)]) = true ∧
    (List.range 5).all (fun o => (tPlaces tPeers (.atom (BitVec.ofNat 4 o) 1 0) 0x40).1 == .inl [(2 ^ 30 + 0x40, 8)]) = true ∧
    (tPlaces tPeers .read (2 ^ 43)).1 = .inr (.retry 3, 2 ^ 43) ∧
    (tPlaces tPeers .read (3 * 2 ^ 41)).1 = .inr (.fatal 11 3, 3 * 2 ^ 41) ∧
    (faultRetry (tPlaces tPeers .read (2 ^ 43)).2 (tPeerFault (2 ^ 43))).1.isSome = true ∧
    tPeersBusy.self.member = true ∧ tPeersBusy.pwr.keepalive = false ∧
    (tPlaces tPeersBusy .read (2 ^ 43)).1 = .inr (.retry 3, 2 ^ 43) ∧
    (faultRetry (tPlaces tPeersBusy .read (2 ^ 43)).2 (tPeerFault (2 ^ 43))).1 = none := by decide +kernel

/-- A load of 8 bytes from member 1 that is open, or held up by its fault. -/
def tOpen (f : Option (BitVec 32 × BitVec 32 × Nat × Nat)) : T4Req where
  req := 7
  who := .thread 0 0 3
  item := 3
  dst := 1
  op := .read
  va := 0x40
  sectors := 1
  data := []
  faulted := f
  sentAt := 0
  size := 8
  pc := 0x8000
def tAnswer (f : Option (BitVec 32 × BitVec 32 × Nat × Nat)) : State :=
  let s := tMember (tThreads { tThr with state := .waiting, wait := .t4 7 1 } tItem [])
  { s with time := 10 ^ 12, xlt := { s.xlt with t4 := [tOpen f], faults := [tFault .none 0] } }

theorem wit_PeersAnswersReachTheThread : (tAnswer none).xlt.t4.find? (·.req == 7) = some (tOpen none) ∧
    (tOpen none).who = .thread 0 0 3 ∧ isOn (tAnswer none) 0 0 3 = true ∧ (thrAt (tAnswer none) 0 0).state = .waiting ∧
    (thrAt (tAnswer none) 0 0).wait = .t4 7 1 ∧ (tOpen none).op ≠ .write ∧
    (tOpen none).sentAt + 1000 * param (tAnswer none) 0x041 ≤ (tAnswer none).time := by decide +kernel
theorem wit_PeersAnswersReachTheThread_faulted : (tAnswer (some (4, 9, 20, 0))).xlt.t4.find? (·.req == 7) = some (tOpen (some (4, 9, 20, 0))) ∧
    (tAnswer (some (4, 9, 20, 0))).xlt.t4.find? (fun z => ownTag z == some 9) = some (tOpen (some (4, 9, 20, 0))) ∧
    (tAnswer (some (4, 9, 20, 0))).xlt.faults.find? (·.tag == 9) = some (tFault .none 0) ∧
    limitPast (tAnswer (some (4, 9, 20, 0))) 0 20 0 2 10 = true := by decide +kernel

/-! ### Stacks, weights -/

def tEaves : Eaves := ⟨0x80, [(3, 7), (5, 9)], 0⟩
def tEavesState : State := { tOn with time := 10 ^ 9, mem := { tOn.mem with eaves := [tEaves] } }
theorem wit_EavesEntryLeavesWhole : tEavesState.mem.on = true ∧ tEavesState.mem.eaves.find? (·.sector == 0x80) = some tEaves ∧
    tEaves.opened + 2000 ≤ tEavesState.time ∧ memWf zeroByte tEavesState.mem.stack = true ∧
    (∀ b ∈ tEaves.bytes, ∀ b' ∈ tEaves.bytes, b'.1 = b.1 → b' = b) := by decide +kernel

theorem wit_ScrubFindsEveryError : tOn.mem.on = true ∧ (0x80, EccKind.uncorrectable) ∈ [(0x80, EccKind.uncorrectable)] ∧
    (0x80, EccKind.corrected) ∉ [(0x80, EccKind.uncorrectable)] ∧ homeCh 0x80 < 1280 ∧ (0x80 : Nat) < nSectors ∧
    (∀ f ∈ tOn.mem.eccErr, f.1 ≠ 0x80) := by decide +kernel

theorem wit_StackTemperaturesSetTheRows : Sound tOn ∧ tOn.boot.inReset = false ∧ tOn.boot.noImage = false ∧
    (List.replicate 20 (114 : Int)).length = 20 ∧ (∀ x ∈ List.replicate 20 (114 : Int), x < 115) ∧
    (∃ x ∈ List.replicate 20 (115 : Int), 115 ≤ x) ∧ stacksPowered tOn = true :=
  ⟨sound_of (by decide +kernel), rfl, rfl, rfl, by decide, ⟨115, by decide, by decide⟩, by decide +kernel⟩

/-- Channel 5 asked for a retrain; its retrains of late, the device's last one, and what retrains now. -/
def tRetrain (times : List (Nat × Nat)) (last : Option Nat) (on : List (Nat × Nat)) : State := { tOn with
  time := 20 ^ 10
  mem := { tOn.mem with retrainReq := [5], retrainTimes := times, lastRetrain := last, retraining := on } }
def tTimes : List (Nat × Nat) := [(5, 20 ^ 10), (5, 20 ^ 10), (5, 20 ^ 10)]
theorem wit_RetrainingFollowsItsRules : tOn.mem.on = true ∧ 5 ∈ (tRetrain [] none []).mem.retrainReq ∧
    (∀ r ∈ (tRetrain [] none []).mem.retraining, r.1 ≠ 5) ∧ retrainMay (tRetrain [] none []) 5 = true ∧
    retrainsIn10 (tRetrain [] none []) 5 < 3 ∧ retrainMay (tRetrain tTimes none []) 5 = true ∧
    3 ≤ retrainsIn10 (tRetrain tTimes none []) 5 ∧ retrainMay (tRetrain [] (some (20 ^ 10)) []) 5 = false ∧
    (tRetrain [] none [(5, 9)]).mem.retraining.find? (·.1 == 5) = some (5, 9) ∧
    36 ∉ sparesUsed (tRetrain [] none [(5, 9)]) 5 := by decide +kernel

/-- A yealm of 32 bytes that the host provided, all zero; a copy with it; models in each state. -/
def tYealm : Yealm where
  layer := 0
  kind := 2
  crc := crc32c (List.replicate 32 0)
  va := 2 ^ 41 + 0x100
  bytes := 32
  twin := 0
  src := 0
  aux := 0
def tBuilt (bad : List (Nat × Nat)) : WCopy := { tCopy with man := { tCopy.man with ents := [tYealm] }, bad := bad }
def tModel (x : ModelSt) : State := { tOn with wgt := tOn.wgt.set 2 x }

/-- A build of model 2 that loads, or is past loading; its yealms are provided by the host, or the first is fetched from a
source that has no page. -/
def tBuild (loading waits : Bool) (crc : BitVec 32) : Build :=
  let y := { tYealm with kind := if waits then 0 else 2, src := if waits then 2 ^ 43 else 0, crc := crc }
  ⟨{ tCopy with man := { tCopy.man with ents := [y] } }, 0, loading, 0⟩
def tLoading (b : Build) : State := tModel { ModelSt.reset with build := [b] }
def tCrc : BitVec 32 := tYealm.crc
theorem wit_WeightsAreLoadedThenVerified : Sound (tLoading (tBuild true false tCrc)) ∧ Sound (tLoading (tBuild true true tCrc)) ∧
    Sound (tLoading (tBuild false false tCrc)) ∧ Sound (tLoading (tBuild false false 0)) ∧
    loadingBuild (wgtAt (tLoading (tBuild true false tCrc)) 2) = some (tBuild true false tCrc) ∧
    loadHeld (tLoading (tBuild true false tCrc)) 2 1 (fun _ => true) = false ∧
    (loadFrom 2 1 (tBuild true false tCrc).copy.man.ents 0 (tLoading (tBuild true false tCrc))).1 = .ok ∧
    loadingBuild (wgtAt (tLoading (tBuild true true tCrc)) 2) = some (tBuild true true tCrc) ∧
    loadHeld (tLoading (tBuild true true tCrc)) 2 1 (fun _ => true) = false ∧
    (loadFrom 2 1 (tBuild true true tCrc).copy.man.ents 0 (tLoading (tBuild true true tCrc))).1 = .wait ∧
    (wgtAt (tLoading (tBuild false false tCrc)) 2).build.find? (!·.loading) = some (tBuild false false tCrc) ∧
    (verifyAll (tBuild false false tCrc).copy.man.ents (tLoading (tBuild false false tCrc))).1 = true ∧
    sameOk (wgtAt (tLoading (tBuild false false tCrc)) 2) (tBuild false false tCrc).copy = true ∧
    (verifyAll (tBuild false false 0).copy.man.ents (tLoading (tBuild false false 0))).1 = false :=
  ⟨sound_of (by decide +kernel), sound_of (by decide +kernel), sound_of (by decide +kernel), sound_of (by decide +kernel),
    by decide +kernel⟩

/-- A copy that serves with its poisoned yealm refetched, and an old copy that an item refers to, or none does. -/
def tServed : WCopy := { tBuilt [(0, 3)] with refetch := [(0, 1)] }
def tOld (items : List Nat) : OldCopy := ⟨tBuilt [], items, []⟩
def tHeal (items : List Nat) (tries : List (Nat × Nat × Nat)) : State :=
  tModel { ModelSt.reset with live := some tServed, old := some (tOld items), fetchTries := tries }
theorem wit_CopiesAreHealedAndRetired : Sound (tHeal [] []) ∧ Sound (tHeal [3] [(0, 4, 2)]) ∧
    refetching (tHeal [] []) 2 0 = some (tServed, 1) ∧ tServed.man.ents[0]? = some tYealm ∧
    loadHeld (tHeal [] []) 2 tServed.gen (· == 0) = false ∧ (loadYealm 2 tServed.gen 0 tYealm (tHeal [] [])).1 = .ok ∧
    (crcOk (loadYealm 2 tServed.gen 0 tYealm (tHeal [] [])).2 tYealm.va tYealm.bytes tYealm.crc).1 = true ∧
    (wgtAt (tHeal [] []) 2).old = some (tOld []) ∧ (tOld []).items = [] ∧ copyRead (tHeal [] []) (tOld []) = false ∧
    (wgtAt (tHeal [3] [(0, 4, 2)]) 2).old = some (tOld [3]) ∧ (tOld [3]).items ≠ [] ∧
    ((wgtAt (tHeal [] []) 2).fetchTries.find? fun q => q.1 == 0 && q.2.1 == 4).elim 0 (·.2.2) < 2 ∧
    2 ≤ ((wgtAt (tHeal [3] [(0, 4, 2)]) 2).fetchTries.find? fun q => q.1 == 0 && q.2.1 == 4).elim 0 (·.2.2) :=
  ⟨sound_of (by decide +kernel), sound_of (by decide +kernel), by decide +kernel⟩

/-- A load meets the failures of its own commands. -/
def tFetching : State := tModel { ModelSt.reset with build := [tBuild true true tCrc], fetchTries := [(0, 4, 2)] }
theorem wit_CopiesAreHealedAndRetired_load : Sound tFetching ∧ refetching tFetching 2 0 = none ∧
    loadingBuild (wgtAt tFetching 2) = some (tBuild true true tCrc) ∧
    2 ≤ ((wgtAt tFetching 2).fetchTries.find? fun q => q.1 == 0 && q.2.1 == 4).elim 0 (·.2.2) :=
  ⟨sound_of (by decide +kernel), by decide +kernel⟩

/-- A COPY of class 0 of an item placed before the switch reads the old copy and keeps it. -/
def tReading : State := tEng (tModel { ModelSt.reset with live := some tServed, old := some ⟨tBuilt [], [], [(0, 3)]⟩ })
  { EngSt.reset with thrQ := [{ mkCmd 1 (BitVec.ofNat 512 (ofLE
    (record 64 [(0, 1, 0x10), (8, 8, 2 ^ 41 + 0x100), (0x10, 8, 2 ^ 42), (0x18, 4, 32)]))) (.thread 0 0 3) 0 with owner := 0 }] }
theorem wit_CopiesAreHealedAndRetired_read : (wgtAt tReading 2).old = some ⟨tBuilt [], [], [(0, 3)]⟩ ∧
    copyRead tReading ⟨tBuilt [], [], [(0, 3)]⟩ = true := by decide +kernel

/-- Notices for tick 9 with a fallback notice among them, and without one. -/
def tNotices (fb : Bool) : ModelSt := { ModelSt.reset with notices := (9, false) :: if fb then [(9, true)] else [] }
theorem wit_NoticesSetAMove : Sound (tSeq (tMember tOn) tSlot) ∧ (tSeq (tMember tOn) tSlot).self.member = true ∧
    (seqAt (tSeq (tMember tOn) tSlot) 0).state = .active ∧ (∀ x ∈ (tNotices true).notices, x.1 = 9) ∧
    (9, true) ∈ (tNotices true).notices ∧ (∀ x ∈ (tNotices false).notices, x.1 = 9) ∧ (9, true) ∉ (tNotices false).notices ∧
    (tNotices false).notices ≠ [] ∧ 9 ∉ (tNotices false).fbTicks :=
  ⟨sound_of (by decide +kernel), by decide +kernel⟩

/-! ### Links, ports and snapshots -/

/-- Link 0 active on an upright port. -/
def tLink (x : LinkSt) : State := { tOn with
  link := tOn.link.set 0 x, port := tOn.port.set 0 { PortSt.reset with state := .up }
  self := { SelfSt.reset with dims := 0x1111, coord := 0, coordValid := true, sliceId := 9 } }

theorem leBytes_zeros (n y : Nat) : leBytes n (256 ^ n * y) = List.replicate n 0 := by
  induction n generalizing y with
  | zero => rfl
  | succ n ih =>
    have e : 256 ^ (n + 1) * y = 256 * (256 ^ n * y) := by rw [Nat.pow_succ', Nat.mul_assoc]
    rw [leBytes, e, Nat.mul_div_cancel_left _ (by decide), ih, List.replicate_succ]
    congr 1
    apply BitVec.eq_of_toNat_eq
    rw [BitVec.toNat_ofNat, Nat.mul_mod_right]
    rfl

/-- The CRC of zeros is 0. -/
theorem crc64_zeros (n : Nat) : crc64 (List.replicate n 0) = 0 := by
  have z : crc64Step (0 ^^^ ((0 : Byte).toNat * 2 ^ 56)) 8 = 0 := by decide +kernel
  have k : ∀ n, (List.replicate n (0 : Byte)).foldl (fun c b => crc64Step (c ^^^ (b.toNat * 2 ^ 56)) 8) 0 = 0 := by
    intro n
    induction n with
    | zero => rfl
    | succ n ih => rw [List.replicate_succ, List.foldl_cons, z]; exact ih
  unfold crc64
  rw [k]
  rfl

theorem flitOk_zeros (y : Nat) (f : BitVec 2048) (h : f.toNat = 256 ^ 248 * y) :
    flitOk f = (f.extractLsb' 1984 64 == 0) := by
  unfold flitOk
  rw [h, leBytes_zeros, crc64_zeros]

theorem toNat_low (w y k : Nat) (h : y * 256 ^ k < 2 ^ w) : (BitVec.ofNat w (256 ^ k * y)).toNat = 256 ^ k * y := by
  rw [BitVec.toNat_ofNat, Nat.mod_eq_of_lt (by rw [Nat.mul_comm]; exact h)]

/-- A flit of zeros, a data flit of class 0 with FSEQ 0, is good; one with a bit of its CRC set is not. -/
def tFlit (y : Nat) : BitVec 2048 := BitVec.ofNat 2048 (256 ^ 248 * y)

theorem tFlit_crc (y : Nat) (h : y < 2 ^ 64) : flitOk (tFlit y) = (BitVec.ofNat 64 y == 0) := by
  have n : (tFlit y).toNat = 256 ^ 248 * y := by
    refine toNat_low 2048 y 248 ?_
    calc y * 256 ^ 248 < 2 ^ 64 * 256 ^ 248 := Nat.mul_lt_mul_of_pos_right h (Nat.pow_pos (by decide))
      _ = 2 ^ 2048 := by rw [show (256 : Nat) = 2 ^ 8 from rfl, ← Nat.pow_mul, ← Nat.pow_add]
  rw [flitOk_zeros y _ n]
  congr 1
  apply BitVec.eq_of_toNat_eq
  rw [BitVec.extractLsb'_toNat, n, Nat.shiftRight_eq_div_pow, show (256 : Nat) = 2 ^ 8 from rfl, ← Nat.pow_mul,
    Nat.mul_div_cancel_left _ (Nat.pow_pos (by decide)), BitVec.toNat_ofNat]

def tReplay : LinkSt := { LinkSt.reset with active := true, replay := [(4, 0), (5, 1)] }

/-- A link that expects that FSEQ, with flits 4 and 5 sent and so many replays of 5. -/
def tOrder (rx : BitVec 12) (n : Nat) : State := tLink { tReplay with rxSeq := rx, retries := List.replicate n (5, 0) }
theorem wit_FlitsComeInOrder : Sound (tOrder 0 0) ∧ Sound (tOrder 4095 3) ∧ Sound (tOrder 1 0) ∧ flitOk (tFlit 0) = true ∧
    flitOk (tFlit 1) = false ∧
    [tOrder 0 0, tOrder 4095 3, tOrder 1 0].all (fun s => linksOn s && (linkAt s 0).active &&
      decide ((linkAt s 0).replay.length < 2048) && (linkAt s 0).replay.any (·.1 == 5)) = true ∧
    flitIsData (tFlit 0) = true ∧ flitSeq (tFlit 0) = (linkAt (tOrder 0 0) 0).rxSeq ∧
    (flitSeq (tFlit 0) - (linkAt (tOrder 4095 3) 0).rxSeq).toNat = 1 ∧
    2048 ≤ (flitSeq (tFlit 0) - (linkAt (tOrder 1 0) 0).rxSeq).toNat ∧
    ((linkAt (tOrder 0 0) 0).retries.filter fun r => decide ((tOrder 0 0).time < r.2 + 1000000) && r.1 == 5).length < 3 ∧
    3 ≤ ((linkAt (tOrder 4095 3) 0).retries.filter fun r => decide ((tOrder 4095 3).time < r.2 + 1000000) && r.1 == 5).length :=
  ⟨sound_of (by decide +kernel), sound_of (by decide +kernel), sound_of (by decide +kernel), tFlit_crc 0 (by decide),
    tFlit_crc 1 (by decide), by decide +kernel⟩

/-- A link that trains, again after two failures, or for the first time; the last active link of its port, and none. -/
def tTraining : LinkSt := { LinkSt.reset with training := true, again := true, fails := [0, 0] }
theorem wit_LinksLeaveAndJoinTheirPort : Sound (tLink tTraining) ∧ Sound (tLink tReplay) ∧ linksOn (tLink tTraining) = true ∧
    (linkAt (tLink tTraining) 0).training = true ∧ (linkAt (tLink tTraining) 0).again = true ∧
    2 ≤ ((linkAt (tLink tTraining) 0).fails.filter fun t => decide ((tLink tTraining).time < t + 60 * second)).length ∧
    ((1 : Fin 8).val = oppositePort (linkPort 0)) ∧ activeLinks (tLink tTraining) (linkPort 0) = [] ∧
    (linkAt (tLink tTraining) 0).active = false ∧ (7 : BitVec 16) ≠ neighbour (tLink tTraining) (linkPort 0) ∧
    linksOn (tLink tReplay) = true ∧ (linkAt (tLink tReplay) 0).active = true ∧ (portAt (tLink tReplay) (linkPort 0)).state = .up ∧
    activeLinks (tLink tReplay) (linkPort 0) = [0] :=
  ⟨sound_of (by decide +kernel), sound_of (by decide +kernel), by decide +kernel⟩

/-- Headers of class 0 with a destination, a slice and a PSEQ. -/
def tHdr (dst slice pseq : Nat) : BitVec 128 := BitVec.ofNat 128 (dst + slice * 2 ^ 32 + pseq * 2 ^ 64)
theorem wit_PacketsComeInOrder : Sound (tLink tReplay) ∧ linksOn (tLink tReplay) = true ∧ (portAt (tLink tReplay) 0).state = .up ∧
    (portAt (tLink tReplay) 0).held = [] ∧ hdrClass (tHdr 0 9 0) < (portAt (tLink tReplay) 0).rxPseq.length ∧
    hdrPseq (tHdr 0 9 0) = (portAt (tLink tReplay) 0).rxPseq.getD 0 0 ∧ hdrDst (tHdr 0 9 0) = (tLink tReplay).self.coord ∧
    (tLink tReplay).self.sliceId ≠ 0 ∧ hdrSlice (tHdr 0 9 0) = (tLink tReplay).self.sliceId ∧
    hdrSlice (tHdr 0 8 0) ≠ (tLink tReplay).self.sliceId ∧ hdrDst (tHdr 1 9 0) ≠ (tLink tReplay).self.coord ∧
    (hdrPseq (tHdr 0 9 3) - (portAt (tLink tReplay) 0).rxPseq.getD 0 0).toNat < 32768 ∧
    hdrPseq (tHdr 0 9 3) ≠ (portAt (tLink tReplay) 0).rxPseq.getD 0 0 ∧
    32768 ≤ (hdrPseq (tHdr 0 9 65535) - (portAt (tLink tReplay) 0).rxPseq.getD 0 0).toNat :=
  ⟨sound_of (by decide +kernel), by decide +kernel⟩

/-- A protection record of slot 0 with one tensor of 32 bytes, buddy and ward member 1. -/
def tProt : ProtRec where
  gen := 1
  seq := 0
  buddy := 1
  ward := 1
  restore := false
  force := false
  stepVa := 0x1000
  stageVa := 0x10000
  stageBytes := 8192
  mirrorVa := 2 ^ 41
  mirrorBytes := 4096
  restoreStep := 0
  tensors := [⟨2 ^ 41 + 0x8000, 32, 1⟩]

/-- A member with that record, at device index 0 or 1. -/
def tSnap (index : Nat) (x : SnpSt) : State :=
  let s := tMember { tOn with time := 10 ^ 12 }
  { s with self := { s.self with index := index }, snp := { x with prot := some tProt, storeOk := true, nsze := 4096 }
           hif := { s.hif with stUp := true } }

/-- A capture that took a snapshot, or none. -/
def tCapture (snapshot : Bool) : Capture := ⟨7, true, snapshot, 0⟩
def tCapturing (snapshot first : Bool) : State := tSnap 0 { SnpSt.reset with
  capture := some (tCapture snapshot), method := 1, lastCapture := if first then none else some (6, 9) }
theorem wit_CapturesEndAndSetTheInterval (snapshot first : Bool) : (tCapturing snapshot first).snp.prot = some tProt ∧
    (tCapturing snapshot first).snp.capture = some (tCapture snapshot) ∧
    (tCapturing snapshot first).snp.lastCapture = (if first then none else some (6, 9)) ∧
    tensorsOf (tCapturing snapshot first).snp.method true tProt.tensors ≠ [] ∧ (tCapture snapshot).startedAt +
      1000000 * param (tCapturing snapshot first) 0x083 ≤ (tCapturing snapshot first).time ∧
    isLeader (tCapturing snapshot first) = true := by cases snapshot <;> cases first <;> decide +kernel
theorem wit_CapturesEndAndSetTheInterval_rest : tensorsOf (tSnap 0 { SnpSt.reset with capture := some (tCapture true) }).snp.method
      true tProt.tensors = [] ∧ isLeader (tSnap 1 SnpSt.reset) = false ∧ (tSnap 1 SnpSt.reset).snp.prot = some tProt := by
  decide +kernel

/-- A piece of 32 bytes for mirror slot 1, which no drain holds: good, or poisoned, or the trailer. -/
def tMirror : State := tSnap 0 SnpSt.reset
theorem wit_BuddiesExchangeSnapshots_mirror : Sound tMirror ∧ tMirror.snp.prot = some tProt ∧ tMirror.snp.wardHold ≠ some true ∧
    0x100 + (List.replicate 32 (7 : Byte)).length ≤ tProt.mirrorBytes ∧ ([[], [0]].all fun bad =>
      (putSectors (tProt.mirrorVa + true.toNat * tProt.mirrorBytes + 0x100) ⟨List.replicate 32 7, bad⟩
        (setWard true (wardWord tMirror true &&& 0x7FFFFFFFFFFFFFFF) tMirror)).1) = true :=
  ⟨sound_of (by decide +kernel), by decide +kernel⟩

theorem Paged.snap {s : State} (h : Paged s) {a n : Nat}
    (hc : (chunks a n).all (fun c => decide (0 < c.2 ∧ (2 ^ 30 + c.1) % 32 + c.2 ≤ 32 ∧ c.1 < 2 ^ 30)) = true) :
    ∃ bs v, snapRead a n s = (some bs, v) := by
  unfold snapRead
  have r := foldl_ind (fun (acc : Option Sectors × Nat × State) (c : Nat × Nat) =>
    match acc.1 with
    | none => acc
    | some x =>
      let p := engPiece acc.2.2 c.1 c.2 false false
      (match p.1 with
       | .data bs bad _ => some ⟨x.bytes ++ (if bad then List.replicate c.2 0 else bs), if bad then x.bad ++ [acc.2.1] else x.bad⟩
       | _ => none, acc.2.1 + 1, p.2)) (fun _ acc => acc.1.isSome = true ∧ Paged acc.2.2) (l := chunks a n)
    (acc := (some ⟨[], []⟩, 0, s)) ⟨rfl, h⟩ fun _ c acc hm p => by
      have k := List.all_eq_true.mp hc c hm
      simp only [decide_eq_true_eq] at k
      obtain ⟨x, e⟩ := Option.isSome_iff_exists.mp p.1
      have q := Paged.piece p.2 k.1 k.2.2 k.2.1 false false 0
      rw [e]
      dsimp only
      rw [q.1]
      exact ⟨rfl, q.2.2⟩
  obtain ⟨x, e⟩ := Option.isSome_iff_exists.mp r.1
  exact ⟨x, _, pair_eq e⟩

/-- Staged snapshots, a drain of the ward's, a restore. -/
def tStaged (draining : Bool) : State := tSnap 0 { SnpSt.reset with staged := some (7, true, draining) }
def tWard : State := tSnap 0 { SnpSt.reset with wardDrain := some (7, true) }
theorem wit_BuddiesExchangeSnapshots : Sound (tStaged false) ∧ Sound (tStaged true) ∧ Sound tWard ∧
    (∃ bs v, snapRead tProt.stageVa (pagedBytes (tensorsOf (tStaged false).snp.method false tProt.tensors)) (tStaged false) =
      (some bs, v)) ∧
    (tStaged false).snp.staged = some (7, true, false) ∧ tMirror.hif.stUp = true ∧ tMirror.snp.storeOk = true ∧
    tMirror.snp.wardDrain = none ∧ tWard.snp.wardDrain = some (7, true) ∧ tWard.snp.wardHold = none ∧
    (tStaged true).snp.staged = some (7, true, true) ∧ (2 : Nat) ≠ tProt.ward ∧ namesWard tMirror tProt.ward = false := by
  have n : pagedBytes (tensorsOf (tStaged false).snp.method false tProt.tensors) = 4096 := by decide +kernel
  refine ⟨sound_of (by decide +kernel), sound_of (by decide +kernel), sound_of (by decide +kernel), ?_, by decide +kernel⟩
  rw [n]
  exact (paged_of (by decide +kernel)).snap (by decide +kernel)

/-- A store that holds the ward's snapshot of step 7 in slot 1; with a byte of it changed. -/
def tHolds (bad : Bool) : State :=
  let s := tSnap 0 { SnpSt.reset with wardSnap := 7 }
  sarkPut (footerBlock s true + 1) [1, if bad then 3 else 2]
    (sarkPut (footerBlock s true) (footerBytes s 7 [1, 2]) (sarkPut 0 (headerBytes s 1) s))
theorem wit_BuddiesExchangeSnapshots_restore : Sound (tHolds false) ∧ Sound (tHolds true) ∧
    namesWard (tHolds false) tProt.ward = true ∧ slotWith (tHolds false) (tHolds false).snp.wardSnap = some true ∧
    payloadOf (tHolds false) true = some [1, 2] ∧ namesWard (tHolds true) tProt.ward = true ∧
    slotWith (tHolds true) (tHolds true).snp.wardSnap = some true ∧ payloadOf (tHolds true) true = none :=
  ⟨sound_of (by decide +kernel), sound_of (by decide +kernel), by decide +kernel⟩
def tRestoring : State := tSnap 0 { SnpSt.reset with restoring := some 7 }
theorem wit_BuddiesExchangeSnapshots_answer : tRestoring.snp.restoring = some 7 ∧
    [List.replicate 32 (1 : Byte)].map (·.length) = tProt.tensors.map (·.bytes) ∧
    (restoreTensors (tProt.tensors.zip [List.replicate 32 (1 : Byte)])
      (modSnp tRestoring fun n => { n with restoring := none })).1 = true := by decide +kernel

/-! ### Codec and flows -/

/-- A decode context: HEVC Main, 16 x 16 in 8 bits, 25 pictures a second, its ring at 0x4000. -/
def tCtxRaw : List Byte :=
  record 128 [(0, 1, 1), (3, 1, 1), (6, 1, 8), (7, 1, 1), (8, 2, 16), (0xA, 2, 16), (0xC, 4, 25), (0x10, 4, 1),
    (0x2C, 4, 32), (0x30, 4, 512), (0x40, 8, 2 ^ 40), (0x48, 8, 0x4000), (0x50, 8, 0x1040)]

/-- A codec command on engine 0: of decode context 0 (number 64), its descriptor at 0x5000, tick 9. -/
def tCodCmd (op : Nat) : DmaCmd :=
  mkCmd 1 (BitVec.ofNat 512 (ofLE (record 64 [(0, 1, op), (3, 1, 64), (4, 1, 255), (8, 8, 0x5000), (0x30, 8, 9)]))) .host 0

def tPicture (num : Nat) : Picture where
  cmd := { tCodCmd 0x22 with num := num }
  eng := 1
  deadline := 100
  begun := true
  key := true
  rowsDone := 0
  rows := 2
  budget := 10 ^ 6
  spent := 0
  src := []
  stage := 1
  srcPoison := []
  flags := 0
  au := none
  level := 0
  parked := false

/-- Context 64 as given, with that command on engine 0. -/
def tCodec (op : Nat) (x : CtxSt) : State :=
  let s := tEng (tOnWith (tBytes (2 ^ 30 + 0x5000) tCtxRaw)) { EngSt.reset with thrQ := [tCodCmd op] }
  { s with cod := { s.cod with ctxs := s.cod.ctxs.set 64 x } }

def tOpenCtx (l : List Picture) : CtxSt := { CtxSt.reset with desc := some (ctxDesc tCtxRaw), queue := l }

theorem Paged.first {s : State} (h : Paged s) (c : DmaCmd) (e : Nat) (m : SrcMode) {a n : Nat} {bs : List Byte}
    (hc : (chunks a n).all (fun c => decide (c.1 < 2 ^ 30)) = true)
    (hb : ((chunks a n).flatMap fun c => ((memRdN zeroByte s.mem.stack (2 ^ 30 + c.1 / 32 * 32) 32).drop (c.1 % 32)).take c.2) = bs) :
    ∃ y, srcBytes m a n ⟨s, c, [], e⟩ = (.inl ⟨a, bs, false, false, false⟩, y) ∧ AfterReads s y.s := by
  obtain ⟨y, q, k, -⟩ := Paged.source (s := s) (x := ⟨s, c, [], e⟩) (AfterReads.refl s) h (fun _ h => absurd h List.not_mem_nil) m hc hb
  exact ⟨y, q, k⟩

theorem wit_CodecCommandsTakeEffect : ∃ g r, Sound (tCodec 0x20 CtxSt.reset) ∧
    starts (tCodec 0x20 CtxSt.reset) 0 = some ((tBegun (tCodec 0x20 CtxSt.reset) 0).1, (tBegun (tCodec 0x20 CtxSt.reset) 0).2) ∧
    cmdOp (tBegun (tCodec 0x20 CtxSt.reset) 0).1 = 0x20 ∧
    srcBytes ⟨true, true⟩ (cmdN (tBegun (tCodec 0x20 CtxSt.reset) 0).1 8 8 % 2 ^ 52) 128
      ⟨(tBegun (tCodec 0x20 CtxSt.reset) 0).2, (tBegun (tCodec 0x20 CtxSt.reset) 0).1, [], 0⟩ = (.inl g, r) ∧ g.poison = false ∧
    (ctxDesc g.bytes).ok g.bytes = true ∧
    64 * (ctxDesc g.bytes).dir + (ctxDesc g.bytes).ctx = cmdCtx (tBegun (tCodec 0x20 CtxSt.reset) 0).1 ∧
    (ctxAt r.s (cmdCtx (tBegun (tCodec 0x20 CtxSt.reset) 0).1)).desc = none ∧
    overLive r.s (cmdCtx (tBegun (tCodec 0x20 CtxSt.reset) 0).1) (ctxDesc g.bytes) = false ∧ rateLow (ctxDesc g.bytes) = false := by
  have p : Paged (tBegun (tCodec 0x20 CtxSt.reset) 0).2 := paged_of (by decide +kernel)
  have n : cmdN (tBegun (tCodec 0x20 CtxSt.reset) 0).1 8 8 % 2 ^ 52 = 0x5000 := by decide +kernel
  have i : cmdCtx (tBegun (tCodec 0x20 CtxSt.reset) 0).1 = 64 := by decide +kernel
  have c : (tBegun (tCodec 0x20 CtxSt.reset) 0).2.cod = (tCodec 0x20 CtxSt.reset).cod := by decide +kernel
  have b : (tBegun (tCodec 0x20 CtxSt.reset) 0).2.mem.stack = (tCodec 0x20 CtxSt.reset).mem.stack := by decide +kernel
  obtain ⟨y, e, a⟩ := p.first (tBegun (tCodec 0x20 CtxSt.reset) 0).1 0 ⟨true, true⟩ (a := 0x5000) (n := 128) (bs := tCtxRaw)
    (by decide +kernel) (by rw [b]; decide +kernel)
  have cy : y.s.cod = (tCodec 0x20 CtxSt.reset).cod := (AfterReads.cod a).trans c
  refine ⟨⟨0x5000, tCtxRaw, false, false, false⟩, y, sound_of (by decide +kernel), tBegun_eq (by decide +kernel), by decide +kernel, ?_, rfl,
    by decide +kernel, by rw [i]; decide +kernel, ?_, ?_, by decide +kernel⟩
  · rw [n]; exact e
  · rw [i]; unfold ctxAt; rw [cy]; decide +kernel
  · rw [i]
    have : overLive y.s 64 (ctxDesc tCtxRaw) = overLive (tCodec 0x20 CtxSt.reset) 64 (ctxDesc tCtxRaw) := by
      unfold overLive loadOf ctxAt; rw [cy]
    rw [this]; decide +kernel

/-- CLOSE, ENCODE and DECODE of the closed context start. -/
theorem wit_CodecCommandsTakeEffect_closed (op : Nat) (h : op = 0x21 ∨ op = 0x22 ∨ op = 0x23) :
    (starts (tCodec op CtxSt.reset) 0).isSome = true ∧ cmdOp (tBegun (tCodec op CtxSt.reset) 0).1 = op ∧
    (ctxAt (tBegun (tCodec op CtxSt.reset) 0).2 (cmdCtx (tBegun (tCodec op CtxSt.reset) 0).1)).desc = none := by
  rcases h with rfl | rfl | rfl <;> decide +kernel

/-- The same commands of the open context, without pictures and with one. -/
theorem wit_CodecCommandsTakeEffect_open (op : Nat) (h : op = 0x21 ∨ op = 0x22 ∨ op = 0x23) (l : List Picture)
    (hl : l = [] ∨ l = [tPicture 5]) :
    (starts (tCodec op (tOpenCtx l)) 0).isSome = true ∧ cmdOp (tBegun (tCodec op (tOpenCtx l)) 0).1 = op ∧
    (ctxAt (tBegun (tCodec op (tOpenCtx l)) 0).2 (cmdCtx (tBegun (tCodec op (tOpenCtx l)) 0).1)).desc = some (ctxDesc tCtxRaw) ∧
    (ctxAt (tBegun (tCodec op (tOpenCtx l)) 0).2 (cmdCtx (tBegun (tCodec op (tOpenCtx l)) 0).1)).queue = l ∧
    (∀ p ∈ l, p.cmd.num ≠ (tBegun (tCodec op (tOpenCtx l)) 0).1.num) ∧
    (domAt (tBegun (tCodec op (tOpenCtx l)) 0).2 (ctxDesc tCtxRaw).domain).tickNo % 2 ^ 48
      < cmdN (tBegun (tCodec op (tOpenCtx l)) 0).1 0x30 8 % 2 ^ 48 := by
  rcases h with rfl | rfl | rfl <;> rcases hl with rfl | rfl <;> decide +kernel

/-- Encode context 0 of two rows of 64 lines, and decode context 64, each with a picture. -/
def tRowDesc : CtxDesc := { ctxDesc tCtxRaw with dir := 0, height := 128 }
def tAu : AccessUnit := ⟨true, false, true, false, false, 16, 128, 1, []⟩
def tDecoded : Picture := { tPicture 5 with au := some tAu }
def tCtxs : List CtxSt :=
  (tOn.cod.ctxs.set 0 { CtxSt.reset with desc := some tRowDesc, queue := [tPicture 5] }).set 64 (tOpenCtx [tDecoded])
def tRows : State := { tOn with cod := { tOn.cod with ctxs := tCtxs } }
theorem wit_RowsGoToTheEarliestDeadline : Sound tRows ∧ tRows.pwr.keepalive = false ∧ tRows.boot.inReset = false ∧
    headPic tRows 0 = some (tRowDesc, tPicture 5) ∧ headPic tRows 64 = some (ctxDesc tCtxRaw, tDecoded) ∧
    tRowDesc.cls = 0 ∧ (tPicture 5).rowsDone + 1 < (tPicture 5).rows ∧
    ((List.range 128).all fun k => (headPic tRows k).all fun q => (k == 0 || k == 64) && decide (q.2.deadline = 100)) = true ∧
    (tPicture 5).begun = true ∧ tDecoded.rowsDone + 1 < tDecoded.rows ∧ (ctxDesc tCtxRaw).cls = 0 ∧
    (∃ bs r, readRow tRowDesc (cmdN (tPicture 5).cmd 8 8 % 2 ^ 52) 0 ⟨tRows, (tPicture 5).cmd, [], 1⟩ = (.inl ([], bs), r)) ∧
    hostMay tRows = true :=
  ⟨sound_of (by decide +kernel), rfl, rfl, by decide +kernel, by decide +kernel, by decide +kernel, by decide +kernel,
    by decide +kernel, by decide +kernel, by decide +kernel, by decide +kernel,
    (paged_of (by decide +kernel)).row _ _ _ _ _ (by decide +kernel), by decide +kernel⟩

/-- A flow of a kind on ports, SSRC any; media port 0 and 2 up. -/
def tFlowCfg (kind ports : Nat) : FlowCfg where
  flow := 0
  kind := kind
  ports := ports
  depth := 4
  repeatMax := 0
  pass := 0
  slate := 0
  format := 0
  width := 16
  height := 16
  pt := 96
  dscp := 0
  ttl := 64
  ssrc := 0
  udp := 0
  troNs := 0
  pitch := 64
  dstIp := 0
  dstIpB := 0
  ring := 0
  ringBytes := 0

def tFlow (x : FlowSt) : State :=
  let s := tDom tOn (tRun .window)
  { s with flow := s.flow.set 0 x, mport := (s.mport.set 0 { MPortSt.reset with linkUp := true }).set 2 { MPortSt.reset with linkUp := true } }
def tInput : State := tFlow { FlowSt.reset with cfg := some (tFlowCfg 6 1), nextSeq := some 10 }
def tRtpIn : State := tFlow { FlowSt.reset with cfg := some (tFlowCfg 5 4), nextSeq := some 10 }

theorem wit_FlowsTakeAndSend : accepts tInput 0 false.toNat [6, 7] 5 = some (tFlowCfg 6 1) ∧ (flowAt tInput 0).nextSeq = some 10 ∧
    (flowAt tInput 0).window = [] ∧ (tFlowCfg 6 1).kind = 6 ∧ behind (flowAt tInput 0).nextSeq 9 = true ∧
    (flowAt tRtpIn 0).cfg = some (tFlowCfg 5 4) ∧ (tFlowCfg 5 4).kind = 5 ∧ (tFlowCfg 5 4).ssrc = 0 ∧
    codedPort tRtpIn (tFlowCfg 5 4) = some 2 ∧ (flowAt tRtpIn 0).nextSeq = some 10 ∧ (flowAt tRtpIn 0).window = [] ∧
    behind (flowAt tRtpIn 0).nextSeq 9 = true := by decide +kernel

/-- PLAY of 8 bytes of ancillary data at 2^41 for a tick, on output flow 0 of domain 0 at tick 5. -/
def tPlay (tick : Nat) : State :=
  let s := tFlow { FlowSt.reset with cfg := some (tFlowCfg 3 1) }
  tEng s { EngSt.reset with thrQ := [mkCmd 1 (BitVec.ofNat 512 (ofLE (record 64
    [(0, 1, 0x24), (4, 1, 255), (8, 8, 2 ^ 41), (0x10, 4, 8), (0x18, 8, tick)]))) .host 0] }

theorem wit_FlowsTakeAndSend_refused (tick : Nat) (h : tick = 5 ∨ tick = 10) : (starts (tPlay tick) 0).isSome = true ∧
    cmdOp (tBegun (tPlay tick) 0).1 = 0x24 ∧ (tBegun (tPlay tick) 0).1.started = false ∧ cmdN (tBegun (tPlay tick) 0).1 3 1 = 0 ∧
    (flowAt (tBegun (tPlay tick) 0).2 0).cfg = some (tFlowCfg 3 1) ∧ (tFlowCfg 3 1).kind ≤ 3 ∧
    (cmdN (tBegun (tPlay tick) 0).1 0x18 8 ≤ (domAt (tBegun (tPlay tick) 0).2 0).tickNo ∨
      (domAt (tBegun (tPlay tick) 0).2 0).tickNo + (tFlowCfg 3 1).depth < cmdN (tBegun (tPlay tick) 0).1 0x18 8) := by
  rcases h with rfl | rfl <;> decide +kernel

/-- The first and the last tick of the window; the source is read. -/
def tPlayed (tick : Nat) : Option PieceEnd × Xfer :=
  runPieces 0 (playPieces (tFlowCfg 3 1) 0 tick (2 ^ 41) 8) 0 ⟨modFlow (tBegun (tPlay tick) 0).2 0 fun y =>
    { y with accepted := y.accepted ++ [tick] }, { (tBegun (tPlay tick) 0).1 with started := true }, [], 0⟩
theorem wit_FlowsTakeAndSend_play (tick : Nat) (h : tick = 6 ∨ tick = 9) : (starts (tPlay tick) 0).isSome = true ∧
    cmdN (tBegun (tPlay tick) 0).1 0x18 8 = tick ∧ cmdN (tBegun (tPlay tick) 0).1 8 8 = 2 ^ 41 ∧
    cmdN (tBegun (tPlay tick) 0).1 0x10 4 = 8 ∧ (domAt (tBegun (tPlay tick) 0).2 0).tickNo < tick ∧
    tick ≤ (domAt (tBegun (tPlay tick) 0).2 0).tickNo + (tFlowCfg 3 1).depth ∧
    (flowAt (tBegun (tPlay tick) 0).2 0).accepted.contains tick = false ∧
    playLength (domAt (tBegun (tPlay tick) 0).2 0).rate (tFlowCfg 3 1) tick 8 = true ∧ (tPlayed tick).1 = none ∧
    (tPlayed tick).2.cmd.poisoned = 0 ∧ frameSpoiled (tPlayed tick).2.s (tPlayed tick).2.cmd tick = false ∧
    (domAt (tPlayed tick).2.s (flowAt (tPlayed tick).2.s 0).domain).tickNo < tick := by
  rcases h with rfl | rfl <;> decide +kernel

/-- The encode context 0 of RTP-out flow 0, its ring at 0x4000 with one access unit of 4 bytes. -/
def tRtpOut (prod : Nat) : State :=
  let s := tFlow { FlowSt.reset with cfg := some (tFlowCfg 4 4) }
  { s with cod := { s.cod with ctxs := s.cod.ctxs.set 0 { CtxSt.reset with desc := some tRowDesc, prodAt := prod } }
           mem := { s.mem with stack := memWrs zeroByte s.mem.stack (2 ^ 30 + 0x4040) (record 16 [(0, 4, 4), (8, 8, 90000)] ++ [1, 2, 3, 4]) } }

theorem Paged.ring {s : State} (h : Paged s) {a n : Nat} {bs : List Byte}
    (hc : (chunks (a % 2 ^ 52) n).all (fun c => decide (0 < c.2 ∧ (2 ^ 30 + c.1) % 32 + c.2 ≤ 32 ∧ c.1 < 2 ^ 30)) = true)
    (hb : ((chunks (a % 2 ^ 52) n).flatMap fun c => memRdN zeroByte s.mem.stack (2 ^ 30 + c.1) c.2) = bs) :
    ∃ v, ringRead a n s = (some bs, v) ∧ AfterReads s v ∧ Paged v := by
  obtain ⟨v, e, k, p⟩ := h.engRead true false hc hb
  exact ⟨v, by unfold ringRead; rw [e], k, p⟩

theorem wit_FlowsTakeAndSend_rtp : ∃ s p d bs v pos n pts r unit w, (flowAt s 0).cfg = some (tFlowCfg 4 4) ∧ (tFlowCfg 4 4).kind = 4 ∧
    codedPort s (tFlowCfg 4 4) = some p ∧ (ctxAt s ((tFlowCfg 4 4).format % 64)).desc = some d ∧
    ringRead (d.ringBase % 2 ^ 52 + 8) 8 s = (some bs, v) ∧ fld bs 0 8 < (ctxAt s ((tFlowCfg 4 4).format % 64)).prodAt ∧
    ringRecord d.ringBase d.ringData (fld bs 0 8) v = (some (pos, n, pts), r) ∧
    ringRead (d.ringBase + 0x40 + pos % d.ringData + 16) n r = (some unit, w) := by
  have p : Paged (tRtpOut 32) := paged_of (by decide +kernel)
  obtain ⟨v, e, k, q⟩ := p.ring (a := tRowDesc.ringBase % 2 ^ 52 + 8) (n := 8) (bs := List.replicate 8 0) (by decide +kernel)
    (by decide +kernel)
  obtain ⟨r, e1, k1, q1⟩ := q.ring (a := 0x4040) (n := 16) (bs := record 16 [(0, 4, 4), (8, 8, 90000)]) (by decide +kernel)
    (by rw [k.stack]; decide +kernel)
  obtain ⟨w, e2, -, -⟩ := q1.ring (a := 0x4050) (n := 4) (bs := [1, 2, 3, 4]) (by decide +kernel)
    (by rw [k1.stack, k.stack]; decide +kernel)
  have z : fld (List.replicate 8 0) 0 8 = 0 := by decide +kernel
  have c : ringRecord tRowDesc.ringBase tRowDesc.ringData 0 v = (some (0, 4, 90000), r) := by
    have x : tRowDesc.ringBase % 2 ^ 52 + 0x40 + 0 % tRowDesc.ringData = 0x4040 := by decide +kernel
    have f : fld (record 16 [(0, 4, 4), (8, 8, 90000)]) 0 4 = 4 := by decide +kernel
    have g : fld (record 16 [(0, 4, 4), (8, 8, 90000)]) 8 8 = 90000 := by decide +kernel
    unfold ringRecord
    dsimp only
    rw [x, e1]
    dsimp only [Option.map_some]
    rw [f, g]
    split
    · rename_i h; simp at h
    · rfl
  have x : tRowDesc.ringBase + 0x40 + 0 % tRowDesc.ringData + 16 = 0x4050 := by decide +kernel
  exact ⟨tRtpOut 32, 2, tRowDesc, _, v, 0, 4, 90000, r, [1, 2, 3, 4], w, by decide +kernel, rfl, by decide +kernel, by decide +kernel,
    e, by rw [z]; decide +kernel, by rw [z]; exact c, by rw [x]; exact e2⟩
theorem wit_FlowsTakeAndSend_empty : (ctxAt (tRtpOut 0) 0).prodAt = 0 := by decide +kernel

/-! ### Reset, boot, management -/

/-- 48 bytes, the most significant first, as a number whose least significant byte comes first. -/
def tBig (x : Nat) : Nat := ofLE (beBytes 48 x)

/-- Half A of a flash with an image of one section, the parameters without a default: the numbers that stand in it, by offset.
It is signed under the key whose point is the base point (the factor 1), with the nonce 1. -/
def tDigest : Nat := 0x969e2206d9c5fcd91b9e23a7493f07d3f6115e9026da4e3bad888b19874a0cdcf3663fde9ba2186f39f987cb5723510
def tParts : List (Nat × Nat) :=
  [(0, 0x4C4E4C44), (4, 1), (6, 1), (8, 1), (0x14, 0x290), (0x19, 1), (0x20, 4), (0x21, tBig p384G.x), (0x51, tBig p384G.y),
    (0x100, 1), (0x104, 0x140), (0x108, 0xB0), (0x1F0, tBig tDigest), (0x220, tBig p384G.x),
    (0x250, tBig ((tDigest + p384G.x) % p384N))] ++ paramNeeded.zipIdx.map fun q => (0x140 + 16 * q.2, q.1)
def tImage : Nat := tParts.foldl (fun n q => n + q.2 * 256 ^ q.1) 0
def tFlashByte (i : Nat) : Byte := BitVec.ofNat 8 (tImage / 256 ^ i)
@[irreducible] def tFlash : Mem := (List.range' 0 0x290).map fun i => (i, tFlashByte i)
/-- The fuses hold the digest of that key. -/
def tKeyHash : BitVec 384 := 0x8c4f262412b7f9ed867606705a130de5212fd048fbaf8c3842f4a240f4b45ba0c90f82194ccdda3ed89c96b0afe1d51d
def tFlashBoot (x : BootSt) : BootSt := { x with flash := tFlash, keyHashes := [tKeyHash] }

theorem memRd_range (d : Byte) (f : Nat → Byte) (n a x : Nat) (h : a ≤ x ∧ x < a + n) :
    memRd d ((List.range' a n).map fun i => (i, f i)) x = f x := by
  induction n generalizing a with
  | zero => omega
  | succ n ih =>
    rw [List.range'_succ, List.map_cons, memRd]
    by_cases e : a = x
    · simp [e]
    · rw [if_neg e, if_neg (by simp only; omega)]
      exact ih (a + 1) (by omega)

theorem tFlash_bytes (o n : Nat) (h : o + n ≤ 0x290) : imgBytes tFlash false o n = (List.range n).map fun k => tFlashByte (o + k) := by
  unfold imgBytes memRdN tFlash
  refine List.map_congr_left fun k hk => ?_
  have := List.mem_range.mp hk
  rw [show imgBase false = 0 by decide, Nat.zero_add]
  exact memRd_range _ _ _ _ _ (by omega)
theorem tFlash_n (o n : Nat) (h : o + n ≤ 0x290) :
    imgN tFlash false o n = ofLE ((List.range n).map fun k => tFlashByte (o + k)) := congrArg ofLE (tFlash_bytes o n h)

def tHeader : ImgHeader := ⟨1, 0, 0x290, 0, [⟨1, 0, 0x140, 0xB0, 0⟩]⟩
theorem tFlash_count : imgN tFlash false 6 2 = 1 := (tFlash_n _ _ (by decide)).trans (by decide +kernel)
theorem tFlash_head : imgHeader tFlash false = tHeader := by
  unfold imgHeader
  rw [tFlash_count, tFlash_n 8 8 (by decide), tFlash_n 0x10 4 (by decide), tFlash_n 0x14 4 (by decide), tFlash_n 0x18 1 (by decide)]
  show ImgHeader.mk _ _ _ _ [Sect.mk (imgN tFlash false 0x100 2) (imgN tFlash false 0x102 2) (imgN tFlash false 0x104 4)
    (imgN tFlash false 0x108 4) (imgN tFlash false 0x10C 4)] = _
  rw [tFlash_n 0x100 2 (by decide), tFlash_n 0x102 2 (by decide), tFlash_n 0x104 4 (by decide), tFlash_n 0x108 4 (by decide),
    tFlash_n 0x10C 4 (by decide)]
  decide +kernel
theorem tFlash_rest : imgMagic tFlash false = true ∧ imgN tFlash false 4 2 = 1 ∧ imgN tFlash false 6 2 = 1 ∧
    imgN tFlash false 0x19 1 = 1 ∧ imgN tFlash false 0x1A 6 = 0 ∧ imgN tFlash false 0x81 127 = 0 ∧
    imgN tFlash false (0x290 - 16) 16 = 0 := by
  unfold imgMagic
  rw [tFlash_n 0 4 (by decide), tFlash_n 4 2 (by decide), tFlash_n 6 2 (by decide), tFlash_n 0x19 1 (by decide),
    tFlash_n 0x1A 6 (by decide), tFlash_n 0x81 127 (by decide), tFlash_n (0x290 - 16) 16 (by decide)]
  decide +kernel
theorem tFlash_header : headerOk tFlash false = true := by
  obtain ⟨a, b, c, d, e, f, g⟩ := tFlash_rest
  have h : tHeader.length - 16 = 0x290 - 16 := rfl
  unfold headerOk
  dsimp only
  rw [tFlash_head, a, b, c, d, e, f, h, g]
  decide +kernel
theorem tFlash_params : imgBytes tFlash false 0x140 0xB0 = paramNeeded.flatMap fun id => record 16 [(0, 2, id)] :=
  (tFlash_bytes _ _ (by decide)).trans (by decide +kernel)
theorem tFlash_entries : paramEntries (paramNeeded.flatMap fun id => record 16 [(0, 2, id)]) = some (paramNeeded.map fun id => (id, 0)) := by
  decide +kernel
theorem tFlash_list : (paramList (paramNeeded.map fun id => (id, 0))).isSome = true := by decide +kernel
theorem imgCfg_some {fl : Mem} (hd : imgHeader fl false = tHeader)
    (pr : imgBytes fl false 0x140 0xB0 = paramNeeded.flatMap fun id => record 16 [(0, 2, id)]) : (imgCfg fl false).isSome = true := by
  have sc : sectBytes fl false tHeader 1 0 = some (paramNeeded.flatMap fun id => record 16 [(0, 2, id)]) := congrArg some pr
  obtain ⟨ps, h⟩ := Option.isSome_iff_exists.mp tFlash_list
  have b : ((some (paramNeeded.map fun id => (id, 0))).bind paramList) = some ps := h
  unfold imgCfg
  rw [hd]
  dsimp only
  rw [sc, Option.getD_some, tFlash_entries, b]
  rfl

theorem tFlash_cfg : (imgCfg tFlash false).isSome = true := imgCfg_some tFlash_head tFlash_params

theorem tSigned {x : BootSt} (f : x.flash = tFlash) (k : x.keyHashes = [tKeyHash])
    (v : x.svnMin = 0) (r : x.revoked = []) : signatureOk x false = true := by
  have h : tHeader.length - 160 = 0x1F0 ∧ tHeader.length - 112 = 0x220 := ⟨rfl, rfl⟩
  unfold signatureOk
  dsimp only
  rw [f, k, v, r, tFlash_head, h.1, h.2, tFlash_bytes 0x20 97 (by decide), tFlash_bytes 0 0x1F0 (by decide),
    tFlash_bytes 0x1F0 48 (by decide), tFlash_bytes 0x220 96 (by decide)]
  decide +kernel

theorem tValid_of {x : BootSt} {fl : Mem} (f : x.flash = fl) (h : headerOk fl false = true) (c : (imgCfg fl false).isSome = true)
    (s : signatureOk x false = true) : (validImage x false).isSome = true := by
  subst f
  unfold validImage
  rw [h, s]
  exact c

theorem tValid {x : BootSt} (v : x.svnMin = 0) (r : x.revoked = []) : (validImage (tFlashBoot x) false).isSome = true := by
  have f : (tFlashBoot x).flash = tFlash := by simp only [tFlashBoot]
  exact tValid_of f tFlash_header tFlash_cfg (tSigned f rfl v r)

theorem wit_ResetsAndBoots : (validImage (tFlashBoot BootSt.reset) (firstImage (tFlashBoot BootSt.reset))).isSome = true ∧
    ({ State.reset with boot := tFlashBoot BootSt.reset }).boot.inReset = true ∧ State.reset.pwr.vaonOk = true ∧
    State.reset.pwr.sysclk = true := by
  have f : firstImage (tFlashBoot BootSt.reset) = false := by decide +kernel
  rw [f]
  exact ⟨tValid rfl rfl, rfl, rfl, rfl⟩

/-- No valid image; a rail sample with VAON out; a device held in reset by VAON, by SYSCLK25; a running one. -/
theorem wit_ResetsAndBoots_none : validImage State.reset.boot false = none ∧ validImage State.reset.boot true = none ∧
    ([false] : List Bool).getD 0 true = false ∧
    ({ State.reset with boot := { BootSt.reset with rstPin := false }, pwr := { PwrSt.reset with vaonOk := false } }).pwr.vaonOk = false ∧
    ({ State.reset with boot := { BootSt.reset with rstPin := false }, pwr := { PwrSt.reset with sysclk := false } }).pwr.sysclk = false ∧
    tOn.boot.inReset = false ∧ tOn.boot.rstPin = false ∧ tOn.pwr.vaonOk = true ∧ tOn.pwr.sysclk = true := by decide +kernel

/-- A device that awaits the repair list, every channel trainable or one not. -/
def tAwaits (bad : List Nat) : State :=
  { tOn with boot := { tOn.boot with step := 4, sealed := false }, mem := { tOn.mem with on := false, untrainable := bad } }
theorem wit_TrainingSealsOrFails : Sound (tAwaits []) ∧ awaitsRepairs (tAwaits []) = true ∧ awaitsRepairs (tAwaits [7]) = true ∧
    (tAwaits []).mem.untrainable = [] ∧ (tAwaits [7]).mem.untrainable ≠ [] ∧ (tAwaits []).boot.repairCount < 16384 ∧
    (repairEntry 5).isSome = true ∧ ((repairEntry 5).bind (spareFor (tAwaits []))).isSome = true ∧ exitMay tOn = false :=
  ⟨sound_of (by decide +kernel), by decide +kernel⟩

/-- Keep-alive mode for 10 s, the booted image still in the flash. -/
def tKept : State := { tOn with
  time := 10 ^ 11, boot := tFlashBoot tOn.boot, mem := { tOn.mem with on := false }, pwr := { tOn.pwr with keepalive := true } }
theorem wit_TrainingSealsOrFails_exit : Sound tKept ∧ exitMay tKept = true ∧
    (validImage tKept.boot tKept.boot.image).isSome = true ∧ (∀ r ∈ tKept.pwr.railBad, r < 3) :=
  ⟨sound_of (by decide +kernel), by decide +kernel, tValid rfl rfl, by decide +kernel⟩

/-- Reads in range and out of it; the test port in each state that a clause names. -/
theorem wit_ReadsOnlyReport : tOn.boot.inReset = false ∧ 1 ≤ (32 : Byte).toNat ∧ (32 : Byte).toNat ≤ 32 ∧ 32 < (33 : Byte).toNat ∧
    ({ tOn with jtag := { tOn.jtag with state := .captureDr, ir := 0b0010 } }).jtag.ir = 0b0010 ∧
    ({ tOn with jtag := { tOn.jtag with state := .captureDr, ir := 0b1111 } }).jtag.state = .captureDr ∧
    ({ tOn with jtag := { tOn.jtag with state := .shiftDr, drSh := [true, false] } }).jtag.drSh = true :: [false] ∧
    ({ tOn with jtag := { tOn.jtag with state := .shiftIr } }).jtag.state = .shiftIr := by decide +kernel

/-- A device without a slice record; one with SVN 3 booted and a static address; coordinates held, or not yet, with the wait
over or not; flash ranges. -/
def tLone : State := { tMember tOn with self := { (tMember tOn).self with slice := none } }
def tBooted : State := { tOn with boot := { tOn.boot with svn := 3, svnMin := 1, cfg := { tOn.boot.cfg with i3cAddr := 8 } } }
def tLong : State := { tOn with time := 10 ^ 13 }
theorem wit_ManagementWritesTakeEffect : Sound (tMember tOn) ∧ Sound tOn ∧ Sound tLone ∧ Sound tBooted ∧ Sound tLong ∧
    [tMember tOn, tOn, tLone, tBooted, tLong].all (fun s => !s.boot.inReset) = true ∧
    tBooted.boot.cfg.i3cAddr ≠ 0 ∧ tOn.boot.cfg.i3cAddr = 0 ∧ (tMember tOn).self.coordValid = true ∧
    ¬((tMember tOn).self.coord = 5 ∧ (tMember tOn).self.dims = 1) ∧ (tMember tOn).self.slice.isSome = true ∧
    tOn.self.coordValid = false ∧ ¬(tLone.self.coord = 5 ∧ tLone.self.dims = 1) ∧ tLone.self.slice = none ∧
    tLong.boot.noImage = false ∧ 4 ≤ tLong.boot.step ∧ tLong.self.coordValid = false ∧ tLong.self.waitOver = false ∧
    param tLong 0x040 * second ≤ tLong.time ∧ tOn.time < param tOn 0x040 * second ∧
    flashRefused tOn 0x8000000 65536 = false ∧ flashRefused tOn 0 65536 = true ∧
    flashRefused tOn 0xFFFFFFF 1 = false ∧ flashRefused tOn 0xFFFFFFF 2 = true ∧ tBooted.boot.svn < (4 : Byte).toNat ∧
    (3 : Byte).toNat ≤ tBooted.boot.svn ∧ tBooted.boot.svnMin < (3 : Byte).toNat ∧ (1 : Byte).toNat ≤ tBooted.boot.svnMin ∧
    tOn.boot.keySlot ≠ (3 : Byte).toNat :=
  ⟨sound_of (by decide +kernel), sound_of (by decide +kernel), sound_of (by decide +kernel), sound_of (by decide +kernel),
    sound_of (by decide +kernel), by decide +kernel⟩

/-! ### The host, power, optics -/

/-- The link down, the storage link down, a drain of the ward's in progress; a store with a header and a footer of step 7, and
none. -/
def tEpDown : State := { tOn with hif := { tOn.hif with epUp := false } }
def tStDown : State := { tHolds false with hif := { tOn.hif with stUp := false, stPowered := true } }
theorem wit_HostAccessTakesEffect : Sound tOn ∧ Sound State.reset ∧ Sound tEpDown ∧ Sound tStDown ∧ Sound tWard ∧ hostMay tOn = true ∧
    hostMay State.reset = false ∧ bits (19 : Word64).toNat 4 0 < 20 ∧ 20 ≤ bits (20 : Word64).toNat 4 0 ∧ tOn.hif.epUp = true ∧
    tOn.mem.on = true ∧ (2 ^ 36 - 8 : Nat) + 8 ≤ 2 ^ 36 ∧ State.reset.mem.on = false ∧ tOn.hif.epPowered = true ∧
    tOn.boot.sealed = true ∧ tEpDown.hif.epPowered = true ∧ tEpDown.hif.epUp = false ∧ tOn.hif.stUp = true ∧
    tOn.snp.wardDrain = none ∧ tWard.hif.stUp = true ∧ tWard.snp.wardDrain.isSome = true ∧ tStDown.hif.stPowered = true ∧
    tStDown.hif.stUp = false ∧ fld (sarkAt tStDown 0 0 32) 0 4 = 0x534B5254 ∧
    fld (sarkAt tStDown (footerBlock tStDown true) 0 32) 8 2 ≠ 0 ∧ fld (sarkAt tOn 0 0 32) 0 4 ≠ 0x534B5254 :=
  ⟨sound_of (by decide +kernel), sound_of (by decide +kernel), sound_of (by decide +kernel), sound_of (by decide +kernel),
    sound_of (by decide +kernel), by decide +kernel⟩

/-- A rail that was out twice; power above the limit at the lowest cap for a second. -/
def tStress : State := { tOn with
  time := 10 ^ 12
  pwr := { tOn.pwr with railBad := List.replicate 32 2, cap := 10, samples := List.replicate 9 3100, overSince := some 0 } }
theorem wit_PowerAndThermalSamples : Sound tOn ∧ Sound tStress ∧ awake tOn = true ∧ (List.replicate 32 true).getD 0 true = true ∧
    (∀ n ∈ railCounts tOn.pwr.railBad (List.replicate 32 true), n < 3) ∧ awake tStress = true ∧
    ((List.replicate 31 true ++ [false]).getD 31 true = false) ∧ tStress.pwr.railBad[31]? = some 2 ∧
    tStress.pwr.keepalive = false ∧
    (∀ n, n < 4 → max ((List.replicate 4 (109 : Int)).getD n 0) ((List.replicate 4 (109 : Int)).getD n 0) < 110) ∧
    (110 : Int) ≤ max ((List.replicate 4 (110 : Int)).getD 3 0) 0 ∧
    3000 * ((3100 :: tStress.pwr.samples).take 10).length < ((3100 :: tStress.pwr.samples).take 10).sum ∧
    ((3000 :: tOn.pwr.samples).take 10).sum ≤ 3000 * ((3000 :: tOn.pwr.samples).take 10).length ∧
    2850 * ((2850 :: tOn.pwr.samples).take 10).length ≤ ((2850 :: tOn.pwr.samples).take 10).sum ∧ tOn.pwr.episode = false ∧
    ((2849 :: tOn.pwr.samples).take 10).sum < 2850 * ((2849 :: tOn.pwr.samples).take 10).length ∧
    tStress.pwr.overSince = some 0 ∧ 0 + second ≤ tStress.time ∧ tStress.pwr.cap = 10 ∧ tOn.pwr.overSince = none :=
  ⟨sound_of (by decide +kernel), sound_of (by decide +kernel), by decide +kernel⟩

/-- Links hot and not, a media port powered, and the domain of tPtp. -/
def tHot : State := { tOn with
  time := 10 ^ 10, link := tOn.link.set 3 { LinkSt.reset with hot := true }
  mport := tOn.mport.set 2 { MPortSt.reset with powered := true }, pwr := { tOn.pwr with linkCool := tOn.pwr.linkCool.set 3 (some 0) } }
theorem wit_OpticsReferencesAndMediaLinks : Sound tHot ∧ Sound (tPtp false true true) ∧ awake tHot = true ∧ (linkAt tHot 0).hot = false ∧
    (List.replicate 32 (85 : Int))[0]? = some 85 ∧ (List.replicate 32 (79 : Int))[3]? = some 79 ∧ (linkAt tHot 3).hot = true ∧
    tHot.pwr.linkCool[3]? = some (some 0) ∧ 0 + second ≤ tHot.time ∧ (mportAt tHot 2).hot = false ∧
    linksOn tHot = true ∧ linksOn State.reset = false ∧ (mportAt tHot 2).powered = true ∧ (mportAt State.reset 0).powered = false ∧
    (domAt (tPtp false true true) 0).running = true ∧ (domAt (tPtp false true true) 0).source = 1 ∧
    (domAt (tPtp false true true) 0).hasTime = true :=
  ⟨sound_of (by decide +kernel), sound_of (by decide +kernel), by decide +kernel⟩

/-! ### Events and traces -/

/-- One event record that no one has taken, with a ring of 4,096 entries or none. -/
def tEvRec : EvRec := newRec tOn bMEM 20 0 0 0 false
def tEvents (ring : Bool) : State := { tOn with
  hif := { tOn.hif with eid := some 9 }, ev := { tOn.ev with buf := [tEvRec], ringOn := ring, ringSize := 12, prod := 0, cons := 0 } }
theorem wit_EventsLeaveTheBuffer : mgmtOn (tEvents true) = true ∧
    (tEvents true).ev.buf.find? (fun r => !r.tookMgmt) = some tEvRec ∧ mgmtOn tOn = false ∧ (tEvents false).ev.ringOn = false ∧
    (tEvents true).ev.ringOn = true ∧ (tEvents true).ev.buf.filter (fun r => !r.tookHost) = [tEvRec] ∧ (tEvents true).hif.epUp = true ∧
    (tEvRec.eseq + 1 - (tEvents true).ev.cons).toNat ≤ ringEntries (tEvents true).ev.ringSize ∧ hostMay (tEvents true) = true ∧
    (0x1019 : Word64).getLsbD 0 = true ∧ bits (0x1019 : Word64).toNat 5 1 = 12 ∧ bits (0x31 : Word64).toNat 5 1 = 24 ∧
    bits (0x33 : Word64).toNat 5 1 = 25 ∧
    ((0 : Word64).setWidth 32 - (tEvents true).ev.cons).toNat ≤ ((tEvents true).ev.prod - (tEvents true).ev.cons).toNat ∧
    ((tEvents true).ev.prod - (tEvents true).ev.cons).toNat < ((1 : Word64).setWidth 32 - (tEvents true).ev.cons).toNat := by
  decide +kernel

/-- A trace record, and the trace unit with it and a ring of 64 KiB. -/
def tTraceRec : TraceRec := ⟨0, 0, 1, 0, 0, 0, [], 0⟩
def tTrace (x : TraceDomain) (cons : BitVec 32) (enable : Bool) : State := { tOn with
  obs := { tOn.obs with domain := x, ringSize := 16, buf := [tTraceRec], cons := cons, enable := enable } }
theorem wit_TraceRecordsLeaveTheRing : hostMay (tTrace .on 0 true) = true ∧ (tTrace .off 0 false).obs.ringSize ≠ 0 ∧
    tOn.obs.ringSize = 0 ∧ (1 : Word64).getLsbD 0 = true ∧ (tTrace .off 0 false).obs.enable = false ∧
    (tTrace .off 0 false).obs.domain = .off ∧ bits (16 : Word64).toNat 5 0 = 16 ∧ bits (30 : Word64).toNat 5 0 = 30 ∧
    bits (31 : Word64).toNat 5 0 = 31 ∧ (tTrace .on 0 true).obs.enable = true ∧
    ((0 : Word64).setWidth 32 - (tTrace .on 0 true).obs.cons).toNat ≤ ((tTrace .on 0 true).obs.prod - (tTrace .on 0 true).obs.cons).toNat ∧
    ((tTrace .on 0 true).obs.prod - (tTrace .on 0 true).obs.cons).toNat < ((1 : Word64).setWidth 32 - (tTrace .on 0 true).obs.cons).toNat ∧
    (tTrace .powering 0 true).obs.domain = .powering ∧ (tTrace .on 0 true).obs.buf = tTraceRec :: [] ∧ (tTrace .on 0 true).hif.epUp = true ∧
    (tTraceRec.rseq + 1 - (tTrace .on 0 true).obs.cons).toNat ≤ ringEntries (tTrace .on 0 true).obs.ringSize ∧
    ringEntries (tTrace .on 2 true).obs.ringSize < (tTraceRec.rseq + 1 - (tTrace .on 2 true).obs.cons).toNat ∧
    tOn.obs.buf = [] := by decide +kernel

/-! ### Worked examples of the spec -/

/-- 03 Table 3.6: a V4 block of 2.6, -0.7, 11.3, 0.2, -5.0, 0.04, -0.1, 3.0 and zeros (the values to within 2^-20). -/
def tBlock : Block := encPlain 2 (([2726298, -734003, 11848909, 209715, -5242880, 41943, -104858, 3145728].map fun (x : Int) =>
  (some ⟨x, -20⟩ : Val)) ++ List.replicate 24 (some ⟨0, 0⟩))

/-- 10: homing PA 0x12_3456_78A0. -/
theorem test_home : home (0x12345678A0 / 32) = ⟨11, 28, 10, 3728, 10⟩ ∧ homeCh (0x12345678A0 / 32) = 732 := by decide +kernel

/-- 04 Table 4.5: the visit order of a 4 x 4 grid, Hilbert and Morton. -/
theorem test_hilbert : (List.range 16).map (fun d => curveCell 0 d 2) =
    [(0, 0), (1, 0), (1, 1), (0, 1), (0, 2), (0, 3), (1, 3), (1, 2), (2, 2), (2, 3), (3, 3), (3, 2), (3, 1), (2, 1), (2, 0), (3, 0)] := by
  decide +kernel
theorem test_morton : (List.range 16).map (fun d => curveCell 1 d 2) =
    [(0, 0), (0, 1), (1, 0), (1, 1), (0, 2), (0, 3), (1, 2), (1, 3), (2, 0), (2, 1), (3, 0), (3, 1), (2, 2), (2, 3), (3, 2), (3, 3)] := by
  decide +kernel

/-- 04: the bucket of the ragged TGRID is entry 1. -/
theorem test_bucket : chooseBucket { tileWord 0 with ldim := 1 } { tileDesc [] with mLen := 1000, nLen := 200, kLen := 1000 }
    [(2048, 128, 1024), (2048, 256, 1024), (2048, 512, 2048)] = some (2048, 256, 1024) := by decide +kernel

/-- 03: the output 0x0000_0000_0000_0003_4200_0000 at anchor -32 is 0x4050 in BF16. -/
theorem test_output : toBf16 (some ⟨0x342000000, -32⟩) = 0x4050 := by decide +kernel

/-- 16: after 30 days and 4 failures, 256 members with c = 7.4 ms and steps of 0.75 s take 131 steps. -/
def tHistory : State :=
  let s := tSnap 0 { SnpSt.reset with f := 4, tObs := 663552000, cNs := some 7400000, stepNs := some 750000000, captures := 5 }
  { s with self := { s.self with slice := some { tSlice with extent := 0x00FF } } }
theorem test_interval : sliceSize tHistory = 256 ∧ intervalOf tHistory tProt = 131 := by decide +kernel
theorem test_block : tBlock.bse = 0x80 ∧ tBlock.codes.take 8 = [3, 9, 7, 0, 0xC, 0, 0, 3] ∧ tBlock.sat.contains true = false := by
  decide +kernel

/-- FIPS 180-4: the digest of the message abc. -/
theorem test_sha384 : sha384 [0x61, 0x62, 0x63] =
    0xCB00753F45A35E8BB5A03D699AC65007272C32AB0EDED1631A8B605A43FF5BED8086072BA1E7CC2358BAECA134C825A7 := by decide +kernel

end Sys2Proof.Tests
end

section
/-! SUPPORT. What the tick unit's proofs need of the shared operations: the units of a sound state, what raising an event
and tracing leave of the domains, where a domain stands, and loops over slots. -/

namespace Sys2Proof.Machine

/-! ### Units of a sound state -/

theorem Sound.dom_length {s : State} (h : Sound s) : s.dom.length = 4 := h.1.1

theorem Sound.seq_length {s : State} (h : Sound s) : s.seq.length = 32 := h.1.2.1

theorem Sound.mport_length {s : State} (h : Sound s) : s.mport.length = 4 := by
  obtain ⟨⟨-, -, -, -, -, -, -, -, -, -, hm, -⟩, -⟩ := h
  exact hm

theorem domAt_modDom_same {s : State} {d : Nat} (f : DomSt → DomSt) (h : d < s.dom.length) :
    domAt (modDom s d f) d = f (domAt s d) := by
  rw [domAt_modDom, if_pos ⟨rfl, h⟩]

theorem domAt_modDom_other {s : State} {d e : Nat} (f : DomSt → DomSt) (h : e ≠ d) :
    domAt (modDom s d f) e = domAt s e := by
  rw [domAt_modDom, if_neg fun k => h k.1]

@[simp] theorem modDom_dom_length (s : State) (d : Nat) (f : DomSt → DomSt) : (modDom s d f).dom.length = s.dom.length :=
  List.length_modify _ _ _

theorem domAt_congr {s t : State} (h : t.dom = s.dom) (d : Nat) : domAt t d = domAt s d := by
  unfold domAt; rw [h]

theorem seqAt_congr {s t : State} (h : t.seq = s.seq) (n : Nat) : seqAt t n = seqAt s n := by
  unfold seqAt; rw [h]

theorem activeSlots_congr {s t : State} (h : t.seq = s.seq) (d : Nat) : activeSlots t d = activeSlots s d := by
  unfold activeSlots slotsOf
  simp only [seqAt_congr h]

/-! ### What an event leaves of the domains (22 R394, 02 Table 2.7) -/

/-- The summary of the domains depends on the domains alone. -/
theorem evSummary_dom_congr {s t : State} (h : t.dom = s.dom) (block num : Nat) (l : BitVec 32) :
    (evSummary t block num l).dom = (evSummary s block num l).dom := by
  unfold evSummary
  split
  · split
    · simp only [modDom, h]
    · exact h
  · split
    · split <;> exact h
    · exact h

/-- An event that is not TCK at a domain shows in no domain. -/
theorem evSummary_dom_other (s : State) {block : Nat} (num : Nat) {l : BitVec 32} (h : block ≠ bTCK ∨ locType l ≠ 11) :
    (evSummary s block num l).dom = s.dom := by
  have hc : (block = bTCK && locType l = 11) = false := by
    rcases h with h | h <;> simp [h]
  unfold evSummary
  rw [hc]
  simp only [Bool.false_eq_true, if_false]
  split
  · split <;> rfl
  · rfl

theorem traceBare_dom (s : State) (kind seq : Nat) (u : Option Nat) (data : List Byte) :
    (traceBare s kind seq u data).1.dom = s.dom :=
  (traceBare_within (M := 33554434) s kind seq u data (by decide) (.refl _ _)).dom.resolve_left (by decide)

theorem raiseBare_dom (s : State) (block num : Nat) (l : BitVec 32) (seq : Nat) (detail : Word64) :
    (raiseBare s block num l seq detail).1.dom = (evSummary s block num l).dom := by
  unfold raiseBare evTrace
  rw [traceBare_dom]
  refine evSummary_dom_congr ?_ _ _ _
  rfl

/-- Of the domains, an event changes its summary only: an OBS.002 that its trace record sets off changes none. -/
theorem raise_dom (s : State) (block num : Nat) (l : BitVec 32) (seq : Nat) (detail : Word64) :
    (raise s block num l seq detail).dom = (evSummary s block num l).dom := by
  unfold raise
  dsimp only
  split
  · rw [raiseBare_dom, evSummary_dom_other _ _ (.inl (by decide)), raiseBare_dom]
  · exact raiseBare_dom _ _ _ _ _ _

theorem trace_dom (s : State) (kind seq wher : Nat) (data : List Byte) : (trace s kind seq wher data).dom = s.dom := by
  unfold trace
  dsimp only
  split
  · rw [raise_dom, evSummary_dom_other _ _ (.inl (by decide)), traceBare_dom]
  · exact traceBare_dom _ _ _ _ _

theorem locType_locDomain (d : Dom) : locType (locDomain d) = 11 := by revert d; decide

theorem locValue_locDomain (d : Dom) : locValue (locDomain d) = d := by revert d; decide

theorem locType_locSlot {n : Nat} (h : n < 32) : locType (locSlot n) = 12 := by
  unfold locType locSlot loc
  rw [BitVec.toNat_ofNat]
  omega

/-- A TCK event of a domain sets the bit of Table 2.7 in that domain. -/
theorem domAt_raise_tck {s : State} {d : Dom} {num b seq : Nat} {detail : Word64} (hs : d < s.dom.length)
    (hb : tckBit num = some b) :
    domAt (raise s bTCK num (locDomain d) seq detail) d =
      { domAt s d with events := (domAt s d).events ||| BitVec.ofNat 6 (2 ^ b) } := by
  rw [domAt_congr (raise_dom _ _ _ _ _ _)]
  unfold evSummary
  simp only [locType_locDomain, decide_true, Bool.and_self, if_true, hb, locValue_locDomain]
  exact domAt_modDom_same _ hs

/-- A TCK event of a domain changes no other domain. -/
theorem domAt_raise_tck_other {s : State} {d : Dom} {num e seq : Nat} {detail : Word64} (he : e ≠ d) :
    domAt (raise s bTCK num (locDomain d) seq detail) e = domAt s e := by
  rw [domAt_congr (raise_dom _ _ _ _ _ _)]
  unfold evSummary
  simp only [locType_locDomain, decide_true, Bool.and_self, if_true, locValue_locDomain]
  split
  · exact domAt_modDom_other _ he
  · rfl

/-- A TCK event that Table 2.7 gives no bit changes no domain. -/
theorem domAt_raise_unlisted {s : State} {l : BitVec 32} {num e seq : Nat} {detail : Word64} (hb : tckBit num = none) :
    domAt (raise s bTCK num l seq detail) e = domAt s e := by
  rw [domAt_congr (raise_dom _ _ _ _ _ _)]
  unfold evSummary
  simp only [hb, bTCK, bPWR]
  split <;> rfl

/-- An event of a slot changes no domain. -/
theorem raise_slot_dom (s : State) (block num : Nat) {n : Nat} (seq : Nat) (detail : Word64) (hn : n < 32) :
    (raise s block num (locSlot n) seq detail).dom = s.dom := by
  rw [raise_dom, evSummary_dom_other _ _ (.inr (by rw [locType_locSlot hn]; decide))]

/-! ### The parts of a domain's face and of what it has latched -/

theorem DomSt.running_of_face {x y : DomSt} (h : x.face = y.face) : x.running = y.running := congrArg (·.1) h

theorem DomSt.tickNo_of_face {x y : DomSt} (h : x.face = y.face) : x.tickNo = y.tickNo := congrArg (·.2.1) h

theorem DomSt.phase_of_face {x y : DomSt} (h : x.face = y.face) : x.phase = y.phase := congrArg (·.2.2.1) h

theorem DomSt.renumber_of_latched {x y : DomSt} (h : x.latched = y.latched) : x.renumber = y.renumber :=
  congrArg (·.2.2.2.2.1) h

theorem DomSt.admitting_of_latched {x y : DomSt} (h : x.latched = y.latched) : x.admitting = y.admitting :=
  congrArg (·.2.2.2.2.2.2.2.2.2.2.1) h

/-! ### A phase begins -/

theorem setPhase_dom (d : Nat) (p : Phase) (s : State) :
    (setPhase d p s).dom = (modDom s d fun x => { x with phase := p }).dom :=
  trace_dom _ _ _ _ _

theorem domAt_setPhase {d : Nat} {s : State} (p : Phase) (h : d < s.dom.length) :
    domAt (setPhase d p s) d = { domAt s d with phase := p } :=
  (domAt_congr (setPhase_dom d p s) d).trans (domAt_modDom_same _ h)

theorem domAt_setPhase_other {d e : Nat} (p : Phase) (s : State) (h : e ≠ d) : domAt (setPhase d p s) e = domAt s e :=
  (domAt_congr (setPhase_dom d p s) e).trans (domAt_modDom_other _ h)

theorem setPhase_changes (d : Nat) (p : Phase) (s : State) : Within 1191182370 s (setPhase d p s) :=
  setPhase_within d p s (by decide) (.refl _ _)

@[simp] theorem setPhase_seq (d : Nat) (p : Phase) (s : State) : (setPhase d p s).seq = s.seq :=
  (setPhase_changes d p s).seq.resolve_left (by decide)

/-! ### Loops -/

theorem raise_seq (s : State) (block num : Nat) (l : BitVec 32) (seq : Nat) (detail : Word64) :
    (raise s block num l seq detail).seq = s.seq :=
  (raise_within (M := 117440546) s block num l seq detail (by decide) (.refl _ _)).seq.resolve_left (by decide)

theorem mem_activeSlots_lt {s : State} {d n : Nat} (h : n ∈ activeSlots s d) : n < 32 :=
  List.mem_range.mp (List.mem_filter.mp h).1

theorem activeSlots_nodup (s : State) (d : Nat) : (activeSlots s d).Nodup := List.nodup_range.filter _

theorem each_changes {α : Type} {M : Nat} (l : List α) {f : State → α → State} (hf : ∀ s x, Within M s (f s x))
    (s : State) : Within M s (each l f s) :=
  each_within l f s (Nat.zero_or M) hf (.refl _ _)

/-- A loop that does the same idempotent thing to a part of the state does it once. -/
theorem each_idempotent {α β : Type} {f : State → α → State} (v : State → β) {op : β → β}
    (hop : ∀ x, op (op x) = op x) {l : List α} (hf : ∀ s, ∀ x ∈ l, v (f s x) = op (v s)) (hl : l ≠ []) (s : State) :
    v (each l f s) = op (v s) := by
  induction l generalizing s with
  | nil => exact absurd rfl hl
  | cons x xs ih =>
    have hx : v (f s x) = op (v s) := hf s x List.mem_cons_self
    cases xs with
    | nil => exact hx
    | cons y ys =>
      calc v (each (x :: y :: ys) f s) = op (v (f s x)) := ih (fun s z hz => hf s z (List.mem_cons_of_mem _ hz)) (by simp) _
        _ = op (v s) := by rw [hx, hop]

/-- A loop over different slots that changes each slot by itself: what it leaves in every slot. -/
theorem seqAt_each {M : Nat} {f : State → Nat → State} {g : SeqSlot → SeqSlot} {l : List Nat} (hl : l.Nodup) {s : State}
    (hw : ∀ t n, Within M t (f t n))
    (hf : ∀ t, ∀ n ∈ l, Within M s t → ∀ j, seqAt (f t n) j = if j = n then g (seqAt t n) else seqAt t j) (j : Nat) :
    seqAt (each l f s) j = if j ∈ l then g (seqAt s j) else seqAt s j := by
  have loop : ∀ k : List Nat, k.Nodup → (∀ n ∈ k, n ∈ l) → ∀ t, Within M s t →
      seqAt (each k f t) j = if j ∈ k then g (seqAt t j) else seqAt t j := by
    intro k
    induction k with
    | nil => intro _ _ t _; rfl
    | cons n k ih =>
      intro hk hkl t ht
      obtain ⟨hnk, hk⟩ := List.nodup_cons.mp hk
      have hn := hf t n (hkl n List.mem_cons_self) ht j
      have hr : seqAt (each (n :: k) f t) j = if j ∈ k then g (seqAt (f t n) j) else seqAt (f t n) j :=
        ih hk (fun m hm => hkl m (List.mem_cons_of_mem _ hm)) _ (ht.trans (hw t n))
      rw [hr, hn]
      by_cases hj : j = n
      · subst hj
        simp [hnk]
      · simp [hj]
  exact loop l hl (fun _ h => h) s (.refl _ _)

theorem seqAt_modSeq_of_lt {s : State} {n : Nat} (f : SeqSlot → SeqSlot) (h : n < s.seq.length) (j : Nat) :
    seqAt (modSeq s n f) j = if j = n then f (seqAt s n) else seqAt s j := by
  rw [seqAt_modSeq]
  simp [h]

theorem Within.seq_length {m : Nat} {s t : State} (h : Within m s t) (k : Sound s) : t.seq.length = 32 :=
  (h.sound k).seq_length

/-! ### What is late shows in its domain (02 R28, R29, Table 2.7) -/

/-- A domain with bits of TCK_DOMn_EVENTS set. -/
def DomSt.showing (b : BitVec 6) (x : DomSt) : DomSt := { x with events := x.events ||| b }

theorem modify_showing_idem (d : Nat) (b : BitVec 6) (l : List DomSt) :
    (l.modify d (DomSt.showing b)).modify d (DomSt.showing b) = l.modify d (DomSt.showing b) := by
  rw [List.modify_modify_eq]
  congr 1
  funext x
  simp [DomSt.showing, BitVec.or_assoc]

theorem domAt_modified {s t : State} {d : Nat} {f : DomSt → DomSt} (h : t.dom = s.dom.modify d f) (hd : d < s.dom.length) :
    domAt t d = f (domAt s d) :=
  (domAt_congr (s := modDom s d f) h d).trans (domAt_modDom_same f hd)

theorem domAt_modified_other {s t : State} {d e : Nat} {f : DomSt → DomSt} (h : t.dom = s.dom.modify d f) (he : e ≠ d) :
    domAt t e = domAt s e :=
  (domAt_congr (s := modDom s d f) h e).trans (domAt_modDom_other f he)

/-- A TCK event of a slot, shown in the slot's domain by `b`. -/
def noteLate (d num : Nat) (b : BitVec 6) (s : State) (n : Nat) : State :=
  modDom (raise s bTCK num (locSlot n) n 0) d (DomSt.showing b)

theorem noteLate_changes (d num : Nat) (b : BitVec 6) (s : State) (n : Nat) : Within 117440546 s (noteLate d num b s n) :=
  modDom_within _ _ _ (by decide) (.inr fun _ => rfl) (.inr fun _ => rfl) (raise_within _ _ _ _ _ _ (by decide) (.refl _ _))

theorem noteLate_dom (d num : Nat) (b : BitVec 6) (s : State) {n : Nat} (hn : n < 32) :
    (noteLate d num b s n).dom = s.dom.modify d (DomSt.showing b) := by
  simp only [noteLate, modDom, raise_slot_dom s bTCK num n 0 hn]

theorem noteLate_seq (d num : Nat) (b : BitVec 6) (s : State) (n : Nat) : (noteLate d num b s n).seq = s.seq :=
  (noteLate_changes d num b s n).seq.resolve_left (by decide)

/-! ### What the work of a phase leaves -/

theorem modSeq_changes (s : State) (n : Nat) (f : SeqSlot → SeqSlot) : Within 64 s (modSeq s n f) :=
  modSeq_within s n f (by decide) (.refl _ _)

theorem saveAll_changes (l : List (Nat × Nat)) (s : State) :
    Within 1057300458 s (each l (fun x w => saveItem none w.1 w.2 x) s) :=
  each_changes l (fun t w => saveItem_within none w.1 w.2 t (by decide) (.refl _ _)) s

/-- Placed items begin where every domain stands. -/
theorem beginAll_changes (l : List (Nat × Nat)) (s : State) :
    Within 251994090 s (each l (fun x w => beginItem w.1 w.2 x) s) :=
  each_changes l (fun t w => beginItem_within w.1 w.2 t (by decide) (.refl _ _)) s

end Sys2Proof.Machine
end

section
/-! The boundary's number and phase error, and PTP time (02 R15-R18). -/

namespace Sys2Proof.Machine

/-- Where a domain stands after a boundary that no anchor numbers: it runs, its tick number has moved by one or begins at 0,
and its phase is the one before (R16). -/
theorem nextBoundary_unnumbered (now : Nat) {x : DomSt} (hr : x.renumber = none) :
    (nextBoundary now x).1.running = true ∧
      (nextBoundary now x).1.tickNo = if x.running then x.tickNo + 1 else 0 := by
  unfold nextBoundary regrid
  simp only [hr]
  split <;> exact ⟨rfl, rfl⟩

/-- A running domain's boundary at an unchanged rate, without an anchor: the next tick, and a phase error that is slewed
outside holdover (R17, R18). -/
theorem nextBoundary_steady (now : Nat) {x : DomSt} (hrun : x.running = true) (hn : x.nextRate = none)
    (hr : x.renumber = none) :
    (nextBoundary now x).1.tickNo = x.tickNo + 1 ∧
      (nextBoundary now x).1.phaseErr =
        if x.holdover && x.source == 1 then x.phaseErr else slewed x.rate x.phaseErr := by
  refine ⟨by rw [(nextBoundary_unnumbered now hr).2, if_pos hrun], ?_⟩
  unfold nextBoundary
  simp [hr, hn]

/-- A boundary in PTP time that an anchor numbers: it counts as acquired (R16). -/
theorem nextBoundary_numbered (now : Nat) {x : DomSt} {k : Nat} {t : Int} (hr : x.renumber = some (k, t))
    (hn : x.nextRate = none) (hs : x.source = 1) :
    (nextBoundary now x).2 = true ∧ (nextBoundary now x).1.acquired = true ∧
      (nextBoundary now x).1.tickNo = (numberAt x.rate now k t).1 := by
  unfold nextBoundary
  simp [hr, hn, hs]

/-! ### The source is lost and returns (R18) -/

theorem exec_ptpSourceLost (d : Dom) (s : State) : exec (.ptpSourceLost d) s = .next (ptpLost d s) := rfl

theorem exec_ptpSourceReturn (d : Dom) (err : Int) (s : State) :
    exec (.ptpSourceReturn d err) s = .next (ptpReturn d err s) := rfl

theorem ptpLost_eq {d : Nat} {s : State} (hr : (domAt s d).running = true) (hs : (domAt s d).source = 1)
    (ht : (domAt s d).hasTime = true) :
    ptpLost d s =
      raise (modDom s d fun x => { x with hasTime := false, holdover := true }) bTCK 1 (locDomain d) noSeq 0 := by
  simp [ptpLost, hr, hs, ht]

theorem ptpReturn_eq {d : Nat} {s : State} (err : Int) (hr : (domAt s d).running = true) (hs : (domAt s d).source = 1)
    (hh : (domAt s d).holdover = true) :
    ptpReturn d err s =
      raise (modDom s d fun x => { x with hasTime := true, holdover := false, phaseErr := err }) bTCK 2 (locDomain d)
        noSeq 0 := by
  simp [ptpReturn, hr, hs, hh]

/-- A change of a domain that leaves its face and what it has latched changes the domains only. -/
theorem modDom_changesOnly (s : State) (d : Nat) (f : DomSt → DomSt) (hf : ∀ x : DomSt, (f x).face = x.face)
    (hl : ∀ x : DomSt, (f x).latched = x.latched) : ChangesOnly [.dom] s (modDom s d f) :=
  (modDom_within (M := 32) s d f (by decide) (.inr hf) (.inr hl) (.refl _ _)).changesOnly _ (by intro p; cases p <;> decide)

/-- The first part of R18: a domain with time loses its source. -/
theorem ptpLost_holds_over {d : Dom} {s : State} (hsnd : Sound s) (hr : (domAt s d).running = true)
    (hs : (domAt s d).source = 1) (ht : (domAt s d).hasTime = true) :
    domAt (ptpLost d s) d =
        { domAt s d with hasTime := false, holdover := true, events := (domAt s d).events ||| BitVec.ofNat 6 (2 ^ 0) } ∧
      ∀ e, e ≠ d.val → domAt (ptpLost d s) e = domAt s e := by
  have hd : d.val < s.dom.length := by rw [hsnd.dom_length]; exact d.isLt
  rw [ptpLost_eq hr hs ht]
  constructor
  · rw [domAt_raise_tck (b := 0) (by simpa using hd) rfl, domAt_modDom_same _ hd]
  · intro e he
    rw [domAt_raise_tck_other he, domAt_modDom_other _ he]

/-- The second part of R18: the source returns. -/
theorem ptpReturn_ends_holdover {d : Dom} {s : State} (err : Int) (hsnd : Sound s) (hr : (domAt s d).running = true)
    (hs : (domAt s d).source = 1) (hh : (domAt s d).holdover = true) :
    domAt (ptpReturn d err s) d = { domAt s d with hasTime := true, holdover := false, phaseErr := err } ∧
      ∀ e, e ≠ d.val → domAt (ptpReturn d err s) e = domAt s e := by
  have hd : d.val < s.dom.length := by rw [hsnd.dom_length]; exact d.isLt
  rw [ptpReturn_eq err hr hs hh]
  constructor
  · rw [domAt_raise_unlisted rfl, domAt_modDom_same _ hd]
  · intro e he
    rw [domAt_raise_unlisted rfl, domAt_modDom_other _ he]

/-- Settles O14: the loss and the return of the source each write one domain and raise one event; what the next boundary
slews follows from the domain that they leave. -/
theorem holdoverKeepsTheTick : Obligations.HoldoverKeepsTheTick := by
  intro d s hsnd hr hs
  refine ⟨fun ht => ?_, fun hh err => ?_⟩
  · obtain ⟨hd, ho⟩ := ptpLost_holds_over hsnd hr hs ht
    refine ⟨_, _, exec_ptpSourceLost d s, ptpLost_eq hr hs ht,
      modDom_changesOnly _ _ _ (fun _ => rfl) (fun _ => rfl), by rw [hd], by rw [hd], by rw [hd], ho, ?_⟩
    intro now hn hu
    obtain ⟨htick, herr⟩ := nextBoundary_steady now (x := domAt (ptpLost d s) d) (by rw [hd]; exact hr)
      (by rw [hd]; exact hn) (by rw [hd]; exact hu)
    exact ⟨by rw [htick, hd], by rw [herr, hd]; simp [hs]⟩
  · obtain ⟨hd, ho⟩ := ptpReturn_ends_holdover err hsnd hr hs hh
    refine ⟨_, _, exec_ptpSourceReturn d err s, ptpReturn_eq err hr hs hh,
      modDom_changesOnly _ _ _ (fun _ => rfl) (fun _ => rfl), by rw [hd], by rw [hd], ho, ?_⟩
    intro now hn hu
    obtain ⟨htick, herr⟩ := nextBoundary_steady now (x := domAt (ptpReturn d err s) d) (by rw [hd]; exact hr)
      (by rw [hd]; exact hn) (by rw [hd]; exact hu)
    exact ⟨by rw [htick, hd], by rw [herr, hd]; simp⟩

/-! ### The first time of a domain (R15, R16) -/

theorem exec_ptpTimeAcquired (d : Dom) (ns : Nat) (s : State) :
    exec (.ptpTimeAcquired d ns) s = .next (ptpAcquired d ns s) := rfl

theorem ptpAcquired_eq {d ns : Nat} {s : State} (hr : (domAt s d).running = true) (hs : (domAt s d).source = 1)
    (ht : (domAt s d).hasTime = false) (hh : (domAt s d).holdover = false) :
    ptpAcquired d ns s = modDom s d (acquire ((s.time : Int) - (ns : Int))) := by
  simp [ptpAcquired, hr, hs, ht, hh]

/-- A domain of PTP source that acquires time first takes the SMPTE epoch as the anchor of its next boundary (R16). -/
theorem acquire_first {x : DomSt} (epoch : Int) (ha : x.acquired = false) (hs : x.source = 1) (hn : x.nextRate = none) :
    acquire epoch x = { x with hasTime := true, renumber := some (0, epoch) } := by
  simp [acquire, dueSource, ha, hs, hn]

/-- The number of a boundary by the SMPTE epoch: the nearest count of periods since it (R16). -/
theorem numberAt_epoch (rate now : Nat) (t : Int) :
    (numberAt rate now 0 t).1 =
      (nearest (((now : Int) - t) * ((ratePeriod rate).2 : Nat)) (second * (ratePeriod rate).1)).toNat := by
  simp [numberAt]

theorem ptpAcquired_numbers {d : Dom} {ns : Nat} {s : State} (hsnd : Sound s) (hr : (domAt s d).running = true)
    (hs : (domAt s d).source = 1) (ht : (domAt s d).hasTime = false) (hh : (domAt s d).holdover = false)
    (ha : (domAt s d).acquired = false) (hn : (domAt s d).nextRate = none) :
    domAt (ptpAcquired d ns s) d =
        { domAt s d with hasTime := true, renumber := some (0, (s.time : Int) - (ns : Int)) } ∧
      ∀ e, e ≠ d.val → domAt (ptpAcquired d ns s) e = domAt s e := by
  have hd : d.val < s.dom.length := by rw [hsnd.dom_length]; exact d.isLt
  rw [ptpAcquired_eq hr hs ht hh]
  refine ⟨?_, fun e he => domAt_modDom_other _ he⟩
  rw [domAt_modDom_same _ hd, acquire_first _ ha hs hn]

/-! ### The clock of a media port (R335) -/

theorem exec_ptpMessage (p : MPort) (m : PtpMsg) (s : State) : exec (.ptpMessage p m) s = .next (ptpMessage p m s) := rfl

/-- What a message that crosses port 0 or 1 at local time `now` makes of the port's clock. -/
def portClock (now : Nat) (msg : PtpMsg) (m : MPortSt) : MPortSt :=
  match msg with
  | .sync true origin => clockSync { m with t1 := some origin, t2 := some now }
  | .sync false _ => { m with t1 := none, t2 := some now }
  | .followUp origin => if m.t2.isSome && m.t1.isNone then clockSync { m with t1 := some origin } else m
  | .delayReq => { m with t3 := some now }
  | .delayResp t4 =>
    match m.t1, m.t2, m.t3 with
    | some a, some b, some c =>
      clockSync { m with delayNs := (((b : Int) - a) + ((t4 : Int) - c)) / 2, ptpLocked := true, t3 := none }
    | _, _, _ => m

theorem ptpMessage_down {p : Nat} {s : State} (msg : PtpMsg) (h : (mportAt s p).linkUp = false) : ptpMessage p msg s = s := by
  simp [ptpMessage, h]

theorem ptpMessage_up {p : Nat} {s : State} (msg : PtpMsg) (h : (mportAt s p).linkUp = true) :
    ptpMessage p msg s =
      if 2 ≤ p then ctrAdd s (ctrMedia p 2) 1
      else modMport (ctrAdd s (ctrMedia p 2) 1) p (portClock s.time msg) := by
  unfold ptpMessage
  rw [h]
  rfl

theorem clockSync_linkUp (m : MPortSt) : (clockSync m).linkUp = m.linkUp := by
  unfold clockSync
  split <;> rfl

theorem portClock_linkUp (now : Nat) (msg : PtpMsg) (m : MPortSt) : (portClock now msg m).linkUp = m.linkUp := by
  unfold portClock
  split
  · exact clockSync_linkUp _
  · rfl
  · split
    · exact clockSync_linkUp _
    · rfl
  · rfl
  · split
    · exact clockSync_linkUp _
    · rfl

/-- The port after a message that crosses it. -/
theorem mportAt_ptpMessage {p : MPort} {s : State} (msg : PtpMsg) (hsnd : Sound s) (h : (mportAt s p).linkUp = true) :
    mportAt (ptpMessage p msg s) p = if 2 ≤ p.val then mportAt s p else portClock s.time msg (mportAt s p) := by
  rw [ptpMessage_up msg h]
  split
  · rfl
  · rw [mportAt_modMport, if_pos ⟨rfl, by simp [hsnd.mport_length]⟩, ctrAdd_mportAt]

theorem mportAt_ptpMessage_other {p : MPort} {k : Nat} {s : State} (msg : PtpMsg) (hk : k ≠ p.val) :
    mportAt (ptpMessage p msg s) k = mportAt s k := by
  cases h : (mportAt s p).linkUp with
  | false => rw [ptpMessage_down msg h]
  | true =>
    rw [ptpMessage_up msg h]
    split
    · rfl
    · rw [mportAt_modMport, if_neg fun e => hk e.1, ctrAdd_mportAt]

/-- Settles O51: time acquired first makes the epoch the anchor of the next boundary; a message writes the clock of its own
port 0 or 1. -/
theorem timeComesFromAPort : Obligations.TimeComesFromAPort := by
  intro s hsnd
  refine ⟨fun d ns hr hs ht hh ha hn => ?_, fun p => ⟨fun hl m => ?_, fun hl m => ?_⟩⟩
  · obtain ⟨hd, ho⟩ := ptpAcquired_numbers (ns := ns) hsnd hr hs ht hh ha hn
    refine ⟨_, exec_ptpTimeAcquired d ns s,
      (ptpAcquired_within (M := 8589934624) d ns s (by decide) (.refl _ _)).changesOnly _ (by intro p; cases p <;> decide),
      by rw [hd], by rw [hd], ho, fun now => ?_⟩
    rw [hd]
    obtain ⟨h2, hacq, hno⟩ := nextBoundary_numbered now
      (x := { domAt s d with hasTime := true, renumber := some (0, (s.time : Int) - (ns : Int)) }) rfl hn hs
    refine ⟨h2, hacq, ?_⟩
    have hsince : (now : Int) - ((s.time : Int) - ns) = now - s.time + ns := by omega
    rw [hno, numberAt_epoch, hsince]
  · rw [exec_ptpMessage, ptpMessage_down m hl]
  · have hat := mportAt_ptpMessage m hsnd hl
    refine ⟨_, exec_ptpMessage p m s,
      (ptpMessage_within (M := 34603008) p m s (by decide) (.refl _ _)).changesOnly _ (by intro p; cases p <;> decide),
      fun k hk => mportAt_ptpMessage_other m hk, ?_, fun hp => ?_, fun hp a hm => ?_, fun hp a b c d hm h1 h2 h3 => ?_⟩
    · rw [hat]
      split
      · exact hl
      · rw [portClock_linkUp, hl]
    · rw [ptpMessage_up m hl, if_pos hp]; rfl
    · rw [hat, if_neg (by omega), hm]
      exact ⟨rfl, rfl⟩
    · rw [hat, if_neg (by omega), hm]
      simp [portClock, h1, h2, h3, clockSync]

end Sys2Proof.Machine
end

section
/-! The boundary and the admit phase that follows it (02 R16, R19). -/

namespace Sys2Proof.Machine

theorem exec_tickBoundary (d : Dom) (s : State) : exec (.tickBoundary d) s = .next (tickBoundary d s) := rfl

/-- A boundary is the end of guard, which leaves where every domain stands and what it has latched, then the domain's own
step to its next tick, then what leaves where every domain stands. -/
theorem boundary_parts (d : Nat) (s : State) : ∃ u, Within 117440674 s u ∧
    Within 8842124778 (modDom u d fun _ => (nextBoundary u.time (domAt u d)).1) (boundary d s) := by
  refine ⟨if (domAt s d).running then releaseClusters d (lateWrites d ((domAt s d).tickNo + 1) s) else s, ?_, ?_⟩
  · exact .ite (releaseClusters_within _ _ (by decide) (lateWrites_within _ _ _ (by decide) (.refl _ _))) (.refl _ _)
  · unfold boundary
    exact sendFlows_within _ _ _ (by decide) (applyFlows_within _ _ (by decide) (countFaults_within _ _ (by decide)
      (ctrAdd_within _ _ _ (by decide) (.ite (raise_within _ _ _ _ _ _ (by decide) (.refl _ _)) (.refl _ _)))))

/-- Where the domain stands after a boundary that no anchor numbers. -/
theorem boundary_face {d : Nat} {s : State} (hsnd : Sound s) (hd : d < 4) (hr : (domAt s d).renumber = none) :
    (domAt (boundary d s) d).running = true ∧
      (domAt (boundary d s) d).tickNo = if (domAt s d).running then (domAt s d).tickNo + 1 else 0 := by
  obtain ⟨u, hu, hb⟩ := boundary_parts d s
  have hface := hb.face d (by decide)
  rw [domAt_modDom_same _ (by rw [(hu.sound hsnd).dom_length]; exact hd)] at hface
  have hur : (domAt u d).renumber = none := (DomSt.renumber_of_latched (hu.latched d (by decide))).trans hr
  obtain ⟨hrun, htick⟩ := nextBoundary_unnumbered u.time hur
  have hf := hu.face d (by decide)
  refine ⟨(DomSt.running_of_face hface).trans hrun, (DomSt.tickNo_of_face hface).trans ?_⟩
  rw [htick, DomSt.running_of_face hf, DomSt.tickNo_of_face hf]

theorem boundary_face_other {d e : Nat} (s : State) (he : e ≠ d) : (domAt (boundary d s) e).face = (domAt s e).face := by
  obtain ⟨u, hu, hb⟩ := boundary_parts d s
  rw [hb.face e (by decide), domAt_modDom_other _ he, hu.face e (by decide)]

/-- The admit phase is the latch and the claims, then the phase itself, then what leaves where every domain stands. -/
theorem admitPhase_parts (d : Nat) (s : State) : ∃ u, Within 8841594274 s u ∧
    Within 8846243306 (setPhase d (if (domAt u d).plan.isSome then .admission else .noRecord) u) (admitPhase d s) := by
  refine ⟨claimClusters d (if s.mem.on && !s.pwr.keepalive then planLatch d s else s), ?_, ?_⟩
  · exact claimClusters_within _ _ (by decide) (.ite (planLatch_within _ _ (by decide) (.refl _ _)) (.refl _ _))
  · unfold admitPhase
    exact .ite (admitSteps_within _ _ (by decide) (codLate_within _ _ _ (by decide) (freshSlots_within _ _ (by decide)
        (.refl _ _))))
      (codLate_within _ _ _ (by decide) (freshSlots_within _ _ (by decide) (.refl _ _)))

/-- The admit phase keeps the tick and begins the phase admit, or the phase without a record. -/
theorem admitPhase_face {d : Nat} {s : State} (hsnd : Sound s) (hd : d < 4) :
    (domAt (admitPhase d s) d).running = (domAt s d).running ∧ (domAt (admitPhase d s) d).tickNo = (domAt s d).tickNo ∧
      ((domAt (admitPhase d s) d).phase = .admission ∨ (domAt (admitPhase d s) d).phase = .noRecord) := by
  obtain ⟨u, hu, ha⟩ := admitPhase_parts d s
  have hface := ha.face d (by decide)
  rw [domAt_setPhase _ (by rw [(hu.sound hsnd).dom_length]; exact hd)] at hface
  have hrun := DomSt.running_of_face (hu.face d (by decide))
  have htick := DomSt.tickNo_of_face (hu.face d (by decide))
  refine ⟨(DomSt.running_of_face hface).trans hrun, (DomSt.tickNo_of_face hface).trans htick, ?_⟩
  rw [DomSt.phase_of_face hface]
  dsimp only
  split
  · exact .inl rfl
  · exact .inr rfl

theorem admitPhase_face_other {d e : Nat} (s : State) (he : e ≠ d) :
    (domAt (admitPhase d s) e).face = (domAt s e).face := by
  obtain ⟨u, hu, ha⟩ := admitPhase_parts d s
  rw [ha.face e (by decide), domAt_setPhase_other _ _ he, hu.face e (by decide)]

/-- Settles O6: the boundary moves the tick number, and the admit phase after it keeps it. -/
theorem boundaryAdvancesTick : Obligations.BoundaryAdvancesTick := by
  intro d s hsnd hmay hr
  have ht : tickBoundary d s = admitPhase d (boundary d s) := if_pos hmay
  obtain ⟨hrun, htick⟩ := boundary_face hsnd d.isLt hr
  obtain ⟨harun, hatick, hphase⟩ :=
    admitPhase_face ((boundary_within (M := 9915866602) d s (by decide) (.refl _ _)).sound hsnd) d.isLt
  refine ⟨_, exec_tickBoundary d s, ?_⟩
  rw [ht]
  refine ⟨harun.trans hrun, fun h => ?_, fun h => ?_, hphase, fun e he => ?_⟩
  · rw [hatick, htick, if_pos h]
  · rw [hatick, htick, if_neg (by simp [h])]
  · rw [admitPhase_face_other _ he, boundary_face_other _ he]

end Sys2Proof.Machine
end

section
/-! A checkpoint (02 R28, R29). -/

namespace Sys2Proof.Machine

/-- A slot that CP2 finds late. -/
def SeqSlot.lateAtCp2 (q : SeqSlot) : SeqSlot := { forfeit q with lateCp2 := true }

/-- What a checkpoint does for a slot that is projected late. -/
def noteProjected (d : Nat) (second : Bool) (s : State) (n : Nat) : State :=
  if second then modSeq (noteLate d 20 8 s n) n SeqSlot.lateAtCp2 else noteLate d 20 8 s n

theorem noteProjected_changes (d : Nat) (second : Bool) (s : State) (n : Nat) :
    Within 117440610 s (noteProjected d second s n) := by
  have h := (noteLate_changes d 20 8 s n).mono (b := 117440610) (by decide)
  exact .ite (modSeq_within _ _ _ (by decide) h) h

theorem noteProjected_dom (d : Nat) (second : Bool) (s : State) {n : Nat} (hn : n < 32) :
    (noteProjected d second s n).dom = s.dom.modify d (DomSt.showing 8) := by
  unfold noteProjected
  split
  · rw [modSeq_dom, noteLate_dom d 20 8 s hn]
  · exact noteLate_dom d 20 8 s hn

theorem seqAt_noteProjected (d : Nat) (second : Bool) {s : State} {n : Nat} (hn : n < s.seq.length) (j : Nat) :
    seqAt (noteProjected d second s n) j =
      if j = n then (if second then (seqAt s n).lateAtCp2 else seqAt s n) else seqAt s j := by
  have hseq := noteLate_seq d 20 8 s n
  cases second with
  | false =>
    rw [show noteProjected d false s n = noteLate d 20 8 s n from rfl, seqAt_congr hseq]
    split
    · next h => rw [h]; rfl
    · rfl
  | true =>
    rw [show noteProjected d true s n = modSeq (noteLate d 20 8 s n) n SeqSlot.lateAtCp2 from rfl,
      seqAt_modSeq_of_lt _ (by rw [hseq]; exact hn), seqAt_congr hseq, seqAt_congr hseq]
    rfl

/-- The state in which a checkpoint begins its saves. -/
def preempting (d : Nat) (second : Bool) (payer : Nat) (late : List Nat) (s : State) : State :=
  modDom (each late (noteProjected d second) s) d fun x =>
    { x with stopL2 := true, stopL1 := x.stopL1 || second, payer := some payer }

theorem exec_checkpoint (d : Dom) (second : Bool) (s : State) :
    exec (.checkpoint d second) s = .next (checkpoint d second s) := rfl

/-- No sequence is projected late. -/
theorem checkpoint_on_time {d : Nat} {second : Bool} {s : State} (h : (activeSlots s d).filter (projectedLate s d) = []) :
    checkpoint d second s = s := by
  unfold checkpoint
  simp only [h, List.head?_nil]
  exact ite_self s

/-- Some sequences are projected late: the saves of the pre-empted items, then the arrays. -/
theorem checkpoint_late {d : Nat} {second : Bool} {s : State} {p : Nat} {rest : List Nat} (hph : (domAt s d).phase = .window)
    (hk : s.pwr.keepalive = false) (hrst : s.boot.inReset = false)
    (h : (activeSlots s d).filter (projectedLate s d) = p :: rest) :
    checkpoint d second s =
      startAll (each (preemptList (preempting d second p (p :: rest) s) d second)
        (fun x w => saveItem (some p) w.1 w.2 x) (preempting d second p (p :: rest) s)) := by
  unfold checkpoint
  rw [if_neg (by simp [hph, hk, hrst]), h]
  rfl

section
variable (d : Nat) (second : Bool) (payer : Nat) {late : List Nat} {s : State}

theorem each_noteProjected_dom (hlate : ∀ n ∈ late, n < 32) (hne : late ≠ []) :
    (each late (noteProjected d second) s).dom = s.dom.modify d (DomSt.showing 8) :=
  each_idempotent State.dom (modify_showing_idem d 8) (fun t _ hn => noteProjected_dom d second t (hlate _ hn)) hne s

/-- The domain as the saves begin (R28, R29). -/
theorem domAt_preempting (hlate : ∀ n ∈ late, n < 32) (hne : late ≠ []) (hd : d < s.dom.length) :
    domAt (preempting d second payer late s) d =
      { domAt s d with stopL2 := true, stopL1 := (domAt s d).stopL1 || second, payer := some payer,
                       events := (domAt s d).events ||| 8 } := by
  have hdom := each_noteProjected_dom d second (s := s) hlate hne
  unfold preempting
  rw [domAt_modDom_same _ (by rw [hdom, List.length_modify]; exact hd), domAt_modified hdom hd]
  rfl

theorem domAt_preempting_other (hlate : ∀ n ∈ late, n < 32) (hne : late ≠ []) {e : Nat} (he : e ≠ d) :
    domAt (preempting d second payer late s) e = domAt s e := by
  unfold preempting
  rw [domAt_modDom_other _ he, domAt_modified_other (each_noteProjected_dom d second hlate hne) he]

/-- The slots as the saves begin: CP2 takes the allowance of the late ones. -/
theorem seqAt_preempting (hsnd : Sound s) (hnd : late.Nodup) (hlate : ∀ n ∈ late, n < 32) (n : Nat) :
    seqAt (preempting d second payer late s) n =
      if n ∈ late then (if second then (seqAt s n).lateAtCp2 else seqAt s n) else seqAt s n :=
  seqAt_each (g := fun q => if second then q.lateAtCp2 else q) hnd (noteProjected_changes d second)
    (fun t k hk ht j => seqAt_noteProjected d second (by rw [ht.seq_length hsnd]; exact hlate k hk) j) n

theorem preempting_changes : Within 117440610 s (preempting d second payer late s) :=
  modDom_within _ _ _ (by decide) (.inr fun _ => rfl) (.inr fun _ => rfl)
    (each_changes late (noteProjected_changes d second) s)

end

/-- Settles O8: the loop over the late slots writes each of them once, and the domain's summary however often it runs. -/
theorem checkpointPreempts : Obligations.CheckpointPreempts := by
  intro d second s hsnd hph hk hrst
  cases hl : (activeSlots s d).filter (projectedLate s d) with
  | nil => exact ⟨_, s, exec_checkpoint d second s, fun _ => checkpoint_on_time hl, fun _ _ h => nomatch h⟩
  | cons p0 rest0 =>
    refine ⟨_, preempting d second p0 (p0 :: rest0) s, exec_checkpoint d second s, fun h => (nomatch h), ?_⟩
    intro p rest h
    obtain ⟨rfl, rfl⟩ := List.cons.inj h
    have hlate : ∀ n ∈ p0 :: rest0, n < 32 := fun n hn =>
      mem_activeSlots_lt (List.mem_filter.mp (hl ▸ hn)).1
    have hnd : (p0 :: rest0).Nodup := hl ▸ (activeSlots_nodup s d).filter _
    have hdom := domAt_preempting d.val second p0 hlate (by simp) (by rw [hsnd.dom_length]; exact d.isLt)
    have hseq := seqAt_preempting d.val second p0 hsnd hnd hlate
    have hw := preempting_changes d.val second p0 (late := p0 :: rest0) (s := s)
    refine ⟨checkpoint_late hph hk hrst hl, by rw [hdom], by rw [hdom], by rw [hdom], by rw [hdom],
      hw.face d (by decide), fun e he => domAt_preempting_other d.val second p0 hlate (by simp) he,
      fun n h2 hn => ?_, fun n hn => ?_, hw.cl.resolve_left (by decide), hw.mem.resolve_left (by decide)⟩
    · rw [hseq, if_pos hn, if_pos h2]
      rfl
    · rw [hseq]
      rcases hn with h2 | hn
      · simp [h2]
      · rw [if_neg hn]

end Sys2Proof.Machine
end

section
/-! The phases of a tick after admission: compute window, drain, guard (02 R19-R21, R29, R31). -/

namespace Sys2Proof.Machine

theorem exec_computeWindowStart (d : Dom) (s : State) : exec (.computeWindowStart d) s = .next (windowStart d s) := rfl

theorem exec_computeWindowEnd (d : Dom) (s : State) : exec (.computeWindowEnd d) s = .next (windowEnd d s) := rfl

theorem exec_guardStart (d : Dom) (s : State) : exec (.guardStart d) s = .next (guardStart d s) := rfl

/-! ### The compute window begins -/

/-- A domain as its window begins at `now`, before the phase is set. -/
def DomSt.opened (now : Nat) (x : DomSt) : DomSt :=
  { x with windowStart := now, stopL1 := false, stopL2 := false, payer := none, admitting := false }

/-- A slot as the window of its domain begins: nothing is charged, nothing was late. -/
def SeqSlot.uncharged (q : SeqSlot) : SeqSlot := { q with chargedNs := 0, exemptNs := 0, lateCp2 := false, late21 := false }

/-- The state in which the placed items begin. -/
def openWindow (d : Nat) (s : State) : State :=
  let s1 := modDom s d (DomSt.opened s.time)
  setPhase d .window (msix (each (activeSlots s1 d) (fun t n => modSeq t n SeqSlot.uncharged) s1) (66 + d))

theorem windowStart_eq {d : Nat} {s : State} (hph : (domAt s d).phase = .admission) (hr : (domAt s d).running = true)
    (hrst : s.boot.inReset = false) :
    windowStart d s =
      let live := s.mem.on && !s.pwr.keepalive
      let u := openWindow d (if live then drainQueue d 128 s else s)
      if live then each (workList u d fun i => i.phase == .placed) (fun x w => beginItem w.1 w.2 x) u else u := by
  unfold windowStart
  rw [if_neg (by simp [hph, hr, hrst])]
  rfl

theorem windowStart_other {d : Nat} {s : State} (hph : (domAt s d).phase ≠ .admission) : windowStart d s = s :=
  if_pos (.inl hph)

theorem openWindow_dom (d : Nat) (s : State) :
    (openWindow d s).dom = (modDom (modDom s d (DomSt.opened s.time)) d fun x => { x with phase := .window }).dom := by
  have hslots := (each_changes (M := 64) (activeSlots (modDom s d (DomSt.opened s.time)) d)
    (fun t n => modSeq_changes t n SeqSlot.uncharged) (modDom s d (DomSt.opened s.time))).dom.resolve_left (by decide)
  unfold openWindow
  rw [setPhase_dom]
  simp only [modDom, (msix_within (M := 8) _ (66 + d) (by decide) (.refl _ _)).dom.resolve_left (by decide)] at hslots ⊢
  rw [hslots]

/-- The domain as its window begins. -/
theorem domAt_openWindow {d : Nat} {s : State} (hd : d < s.dom.length) :
    domAt (openWindow d s) d = { (domAt s d).opened s.time with phase := .window } := by
  rw [domAt_congr (openWindow_dom d s), domAt_modDom_same _ (by simpa using hd), domAt_modDom_same _ hd]

theorem domAt_openWindow_other {d e : Nat} (s : State) (he : e ≠ d) : domAt (openWindow d s) e = domAt s e := by
  rw [domAt_congr (openWindow_dom d s), domAt_modDom_other _ he, domAt_modDom_other _ he]

theorem openWindow_changes (d : Nat) (s : State) : Within 9781117034 s (openWindow d s) :=
  setPhase_within _ _ _ (by decide) (msix_within _ _ (by decide)
    ((modDom_within s d (DomSt.opened s.time) (by decide) (.inr fun _ => rfl) (.inl (by decide)) (.refl _ _)).trans
      ((each_changes _ (fun t n => modSeq_changes t n SeqSlot.uncharged) _).mono (by decide))))

/-- The slots as the window begins. -/
theorem seqAt_openWindow {d : Nat} {s : State} (hsnd : Sound s) (n : Nat) :
    seqAt (openWindow d s) n = if n ∈ activeSlots s d then (seqAt s n).uncharged else seqAt s n := by
  have hw : Within 8589934624 s (modDom s d (DomSt.opened s.time)) :=
    modDom_within s d _ (by decide) (.inr fun _ => rfl) (.inl (by decide)) (.refl _ _)
  have hmsix : ∀ t : State, (msix t (66 + d)).seq = t.seq := fun t =>
    (msix_within (M := 8) t (66 + d) (by decide) (.refl _ _)).seq.resolve_left (by decide)
  unfold openWindow
  rw [seqAt_congr ((setPhase_seq _ _ _).trans (hmsix _))]
  exact seqAt_each (activeSlots_nodup _ d) (fun t k => modSeq_changes t k _)
    (fun t k hk ht => seqAt_modSeq_of_lt _ (by rw [ht.seq_length (hw.sound hsnd)]; exact mem_activeSlots_lt hk)) n

/-- COMPUTE_WINDOW_START reads what is left of the queue, opens the window, and begins placed items. -/
theorem windowStart_parts {d : Nat} {s : State} (hph : (domAt s d).phase = .admission) (hr : (domAt s d).running = true)
    (hrst : s.boot.inReset = false) :
    ∃ v, Within 8841598438 s v ∧ Within 251994090 (openWindow d v) (windowStart d s) := by
  refine ⟨if s.mem.on && !s.pwr.keepalive then drainQueue d 128 s else s, ?_, ?_⟩
  · exact .ite (drainQueue_within _ _ _ (by decide) (.refl _ _)) (.refl _ _)
  · rw [windowStart_eq hph hr hrst]
    exact .ite (beginAll_changes _ _) (.refl _ _)

/-- The window of the domain runs, its tick number stands, and its part of the queue is closed. -/
theorem windowStart_face {d : Nat} {s : State} (hsnd : Sound s) (hd : d < 4) (hph : (domAt s d).phase = .admission)
    (hr : (domAt s d).running = true) (hrst : s.boot.inReset = false) :
    (domAt (windowStart d s) d).phase = .window ∧ (domAt (windowStart d s) d).tickNo = (domAt s d).tickNo ∧
      (domAt (windowStart d s) d).admitting = false ∧
      ∀ e, e ≠ d → (domAt (windowStart d s) e).face = (domAt s e).face := by
  obtain ⟨v, hv, ht⟩ := windowStart_parts hph hr hrst
  have hopen := domAt_openWindow (d := d) (s := v) (by rw [(hv.sound hsnd).dom_length]; exact hd)
  have hface := ht.face d (by decide)
  have hlat := ht.latched d (by decide)
  rw [hopen] at hface hlat
  refine ⟨DomSt.phase_of_face hface, ?_, DomSt.admitting_of_latched hlat, fun e he => ?_⟩
  · exact (DomSt.tickNo_of_face hface).trans (DomSt.tickNo_of_face (x := domAt v d) (hv.face d (by decide)))
  · rw [ht.face e (by decide), domAt_openWindow_other _ he, hv.face e (by decide)]

/-- Nothing is left of the queue. -/
theorem drainQueue_closed {d : Nat} {s : State} (n : Nat) (h : (domAt s d).admitting = false) : drainQueue d n s = s := by
  cases n with
  | zero => rfl
  | succ n => simp [drainQueue, h]

theorem windowStart_live {d : Nat} {s : State} (hph : (domAt s d).phase = .admission) (hr : (domAt s d).running = true)
    (hrst : s.boot.inReset = false) (ha : (domAt s d).admitting = false) (hon : s.mem.on = true)
    (hk : s.pwr.keepalive = false) :
    windowStart d s = each (workList (openWindow d s) d fun i => i.phase == .placed)
      (fun x w => beginItem w.1 w.2 x) (openWindow d s) := by
  rw [windowStart_eq hph hr hrst]
  simp only [hon, hk, drainQueue_closed 128 ha, Bool.not_false, Bool.and_self, if_true]

/-! ### The compute window ends -/

/-- What a slot has been charged, from what the slot holds (02 R31). -/
def chargeOf (s : State) (q : SeqSlot) : Nat :=
  if (domAt s q.domain).phase == .window && hasWork q then elapsed s q.domain - q.exemptNs else q.chargedNs

theorem charged_eq (s : State) (n : Nat) : charged s n = chargeOf s (seqAt s n) := rfl

theorem chargeOf_congr {s t : State} (hdom : t.dom = s.dom) (hmem : t.mem = s.mem) (htime : t.time = s.time) (q : SeqSlot) :
    chargeOf t q = chargeOf s q := by
  unfold chargeOf elapsed maintTimes
  simp only [domAt_congr hdom, hmem, htime]

/-- A slot that keeps what it has been charged by `s`. -/
def SeqSlot.keptCharge (s : State) (q : SeqSlot) : SeqSlot := { q with chargedNs := chargeOf s q }

theorem noteCharge_changes (s : State) (n : Nat) : Within 64 s (noteCharge s n) := modSeq_changes _ _ _

/-- The charges of all slots of a list are those of the state before. -/
theorem seqAt_noteCharges {s : State} {l : List Nat} (hsnd : Sound s) (hl : l.Nodup) (hlt : ∀ n ∈ l, n < 32) (n : Nat) :
    seqAt (each l noteCharge s) n = if n ∈ l then (seqAt s n).keptCharge s else seqAt s n := by
  refine seqAt_each hl noteCharge_changes (fun t k hk ht j => ?_) n
  have hcharge : charged t k = chargeOf s (seqAt t k) :=
    chargeOf_congr (ht.dom.resolve_left (by decide)) (ht.mem.resolve_left (by decide)) (ht.time.resolve_left (by decide)) _
  unfold noteCharge
  rw [seqAt_modSeq_of_lt _ (by rw [ht.seq_length hsnd]; exact hlt k hk), hcharge]
  rfl

/-- What the end of the window does for a slot with L0 work left: TCK.021. -/
def noteUnfinished (d : Nat) (s : State) (n : Nat) : State :=
  modSeq (noteLate d 21 16 s n) n fun q => { q with late21 := true }

theorem noteUnfinished_changes (d : Nat) (s : State) (n : Nat) : Within 117440610 s (noteUnfinished d s n) :=
  modSeq_within _ _ _ (by decide) ((noteLate_changes d 21 16 s n).mono (by decide))

theorem noteUnfinished_dom (d : Nat) (s : State) {n : Nat} (hn : n < 32) :
    (noteUnfinished d s n).dom = s.dom.modify d (DomSt.showing 16) :=
  noteLate_dom d 21 16 s hn

theorem seqAt_noteUnfinished (d : Nat) {s : State} {n : Nat} (hn : n < s.seq.length) (j : Nat) :
    seqAt (noteUnfinished d s n) j = if j = n then { seqAt s n with late21 := true } else seqAt s j := by
  have hseq := noteLate_seq d 21 16 s n
  unfold noteUnfinished
  rw [seqAt_modSeq_of_lt _ (by rw [hseq]; exact hn), seqAt_congr hseq, seqAt_congr hseq]

/-- The slots of a domain that have L0 work left. -/
def unfinished (s : State) (d : Nat) : List Nat := (activeSlots s d).filter fun n => workLate (seqAt s n)

theorem unfinished_eq_nil {s : State} {d : Nat} :
    unfinished s d = [] ↔ ∀ n ∈ activeSlots s d, workLate (seqAt s n) = false := by
  simp [unfinished, List.filter_eq_nil_iff]

/-- The state in which the saves of drain begin. -/
def closeWindow (d : Nat) (s : State) : State :=
  setPhase d .drain (each (unfinished s d) (noteUnfinished d) (each (activeSlots s d) noteCharge s))

theorem windowEnd_eq {d : Nat} {s : State} (hph : (domAt s d).phase = .window) (hrst : s.boot.inReset = false)
    (hk : s.pwr.keepalive = false) :
    windowEnd d s =
      each (activeSlots s d) (fun x n => modSeq x n fun q => { q with items := q.items.map unplace })
        (each (workList (closeWindow d s) d fun i => i.phase == .running) (fun x w => saveItem none w.1 w.2 x)
          (closeWindow d s)) := by
  unfold windowEnd
  rw [if_neg (by simp [hph, hrst]), if_neg (by simp [hk])]
  rfl

theorem windowEnd_keepalive {d : Nat} {s : State} (hph : (domAt s d).phase = .window) (hrst : s.boot.inReset = false)
    (hk : s.pwr.keepalive = true) : windowEnd d s = setPhase d .drain s := by
  unfold windowEnd
  rw [if_neg (by simp [hph, hrst]), if_pos hk]

theorem windowEnd_other {d : Nat} {s : State} (hph : (domAt s d).phase ≠ .window) : windowEnd d s = s := if_pos (.inl hph)

theorem noteCharges_changes (l : List Nat) (s : State) : Within 64 s (each l noteCharge s) :=
  each_changes l noteCharge_changes s

theorem closeWindow_changes (d : Nat) (s : State) : Within 1191182434 s (closeWindow d s) :=
  setPhase_within _ _ _ (by decide) (((noteCharges_changes _ s).mono (by decide)).trans
    (each_changes _ (fun t n => (noteUnfinished_changes d t n).mono (by decide)) _))

/-- What the end of the window leaves of the domains before the phase is set: TCK.021 shows where a slot is marked. -/
theorem each_noteUnfinished_dom (d : Nat) (s : State) :
    (each (unfinished s d) (noteUnfinished d) (each (activeSlots s d) noteCharge s)).dom =
      if unfinished s d = [] then s.dom else s.dom.modify d (DomSt.showing 16) := by
  have hcharge : (each (activeSlots s d) noteCharge s).dom = s.dom :=
    (noteCharges_changes _ s).dom.resolve_left (by decide)
  split
  · next h => rw [h]; exact hcharge
  · next h =>
    rw [each_idempotent State.dom (modify_showing_idem d 16)
      (l := unfinished s d) (fun t n hn => noteUnfinished_dom d t (mem_activeSlots_lt (List.mem_filter.mp hn).1)) h, hcharge]

/-- The domain as the saves of drain begin. -/
theorem domAt_closeWindow {d : Nat} {s : State} (hsnd : Sound s) (hd : d < 4) :
    domAt (closeWindow d s) d =
      { (if unfinished s d = [] then domAt s d else (domAt s d).showing 16) with phase := .drain } := by
  have hlen : d < s.dom.length := by rw [hsnd.dom_length]; exact hd
  have hdom := each_noteUnfinished_dom d s
  unfold closeWindow
  by_cases h : unfinished s d = []
  · rw [if_pos h] at hdom ⊢
    rw [domAt_setPhase _ (by rw [hdom]; exact hlen), domAt_congr hdom]
  · rw [if_neg h] at hdom ⊢
    rw [domAt_setPhase _ (by rw [hdom, List.length_modify]; exact hlen), domAt_modified hdom hlen]

theorem domAt_closeWindow_other {d e : Nat} (s : State) (he : e ≠ d) : domAt (closeWindow d s) e = domAt s e := by
  have hdom := each_noteUnfinished_dom d s
  unfold closeWindow
  rw [domAt_setPhase_other _ _ he]
  split at hdom
  · exact domAt_congr hdom e
  · exact domAt_modified_other hdom he

/-- The slots as the saves of drain begin. -/
theorem seqAt_closeWindow {d : Nat} {s : State} (hsnd : Sound s) (n : Nat) :
    seqAt (closeWindow d s) n =
      if n ∈ activeSlots s d then
        { seqAt s n with chargedNs := charged s n, late21 := (seqAt s n).late21 || workLate (seqAt s n) }
      else seqAt s n := by
  have hcharge := seqAt_noteCharges hsnd (activeSlots_nodup s d) (fun _ => mem_activeSlots_lt) n
  have hmark := seqAt_each (g := fun q => { q with late21 := true }) (s := each (activeSlots s d) noteCharge s)
    ((activeSlots_nodup s d).filter fun n => workLate (seqAt s n)) (noteUnfinished_changes d)
    (fun t k hk ht => seqAt_noteUnfinished d (by
      rw [ht.seq_length ((noteCharges_changes _ s).sound hsnd)]
      exact mem_activeSlots_lt (List.mem_filter.mp hk).1)) n
  unfold closeWindow unfinished
  rw [seqAt_congr (setPhase_seq _ _ _)]
  rw [hmark, hcharge]
  by_cases hact : n ∈ activeSlots s d <;> by_cases hlate : workLate (seqAt s n) = true <;>
    simp [hact, hlate, SeqSlot.keptCharge, charged_eq]

/-- The saves of drain leave where every domain stands. -/
theorem windowEnd_face {d : Nat} {s : State} (hsnd : Sound s) (hd : d < 4) (hph : (domAt s d).phase = .window)
    (hrst : s.boot.inReset = false) :
    (domAt (windowEnd d s) d).phase = .drain ∧ (domAt (windowEnd d s) d).tickNo = (domAt s d).tickNo ∧
      ∀ e, e ≠ d → (domAt (windowEnd d s) e).face = (domAt s e).face := by
  cases hk : s.pwr.keepalive with
  | true =>
    rw [windowEnd_keepalive hph hrst hk, domAt_setPhase _ (by rw [hsnd.dom_length]; exact hd)]
    exact ⟨rfl, rfl, fun e he => by rw [domAt_setPhase_other _ _ he]⟩
  | false =>
    have hsave : Within 1057300458 (closeWindow d s) (windowEnd d s) := by
      rw [windowEnd_eq hph hrst hk]
      exact (saveAll_changes _ _).trans ((each_changes _ (fun t n => modSeq_changes t n _) _).mono (by decide))
    have hface := hsave.face d (by decide)
    rw [domAt_closeWindow hsnd hd] at hface
    refine ⟨DomSt.phase_of_face hface, (DomSt.tickNo_of_face hface).trans ?_, fun e he => ?_⟩
    · dsimp only
      split <;> rfl
    · rw [hsave.face e (by decide), domAt_closeWindow_other _ he]

/-! ### Guard -/

theorem guardStart_other {d : Nat} {s : State} (hph : (domAt s d).phase ≠ .drain) : guardStart d s = s := if_pos (.inl hph)

theorem guardStart_eq {d : Nat} {s : State} (hph : (domAt s d).phase = .drain) (hrst : s.boot.inReset = false) :
    guardStart d s =
      if s.pwr.keepalive then setPhase d .guard s
      else each (activeSlots s d) (guardSlot d) (eavesFlushAll (setPhase d .guard s)) := by
  unfold guardStart
  rw [if_neg (by simp [hph, hrst])]
  dsimp only
  rw [activeSlots_congr (setPhase_seq d .guard s)]

/-- Guard leaves where every domain stands, but for its own phase. -/
theorem guardStart_face {d : Nat} {s : State} (hsnd : Sound s) (hd : d < 4) (hph : (domAt s d).phase = .drain)
    (hrst : s.boot.inReset = false) :
    (domAt (guardStart d s) d).phase = .guard ∧ (domAt (guardStart d s) d).tickNo = (domAt s d).tickNo ∧
      ∀ e, e ≠ d → (domAt (guardStart d s) e).face = (domAt s e).face := by
  have hslots : Within 251684202 (setPhase d .guard s) (guardStart d s) := by
    rw [guardStart_eq hph hrst]
    exact .ite (.refl _ _) ((eavesFlushAll_within _ (by decide) (.refl _ _)).trans
      (each_changes _ (fun t n => guardSlot_within d t n (by decide) (.refl _ _)) _))
  have hface := hslots.face d (by decide)
  rw [domAt_setPhase _ (by rw [hsnd.dom_length]; exact hd)] at hface
  exact ⟨DomSt.phase_of_face hface, (DomSt.tickNo_of_face hface).trans rfl, fun e he => by
    rw [hslots.face e (by decide), domAt_setPhase_other _ _ he]⟩

/-- Settles O7: the phase, the domain and the slots are those of the state in which each phase's work begins, and that work
leaves where every domain stands. -/
theorem phasesFollow : Obligations.PhasesFollow := by
  intro d s hsnd hrst hr
  have hlen : d.val < s.dom.length := by rw [hsnd.dom_length]; exact d.isLt
  refine ⟨fun hph => ⟨⟨_, exec_computeWindowStart d s, ?_⟩, fun ha hon hk => ?_⟩,
    fun hph => by rw [exec_computeWindowStart, windowStart_other hph],
    fun hph => ⟨⟨_, exec_computeWindowEnd d s, windowEnd_face hsnd d.isLt hph hrst⟩, fun hk => ?_⟩,
    fun hph => by rw [exec_computeWindowEnd, windowEnd_other hph],
    fun hph => ⟨⟨_, exec_guardStart d s, guardStart_face hsnd d.isLt hph hrst⟩, fun hk => ?_⟩,
    fun hph => by rw [exec_guardStart, guardStart_other hph]⟩
  · exact windowStart_face hsnd d.isLt hph hr hrst
  · have hw := openWindow_changes d s
    refine ⟨_, openWindow d s, exec_computeWindowStart d s, windowStart_live hph hr hrst ha hon hk, ?_,
      fun e he => domAt_openWindow_other s he, fun n hn => ?_, fun n hn => ?_, hw.cl.resolve_left (by decide),
      hw.mem.resolve_left (by decide), hw.st.resolve_left (by decide)⟩
    · rw [domAt_openWindow hlen]
      simp only [DomSt.opened, ha]
    · rw [seqAt_openWindow hsnd, if_pos hn]
      rfl
    · rw [seqAt_openWindow hsnd, if_neg hn]
  · have hw := closeWindow_changes d s
    have hdom := domAt_closeWindow hsnd d.isLt
    refine ⟨_, closeWindow d s, _, exec_computeWindowEnd d s, windowEnd_eq hph hrst hk, rfl, ?_, fun hn => ?_, fun hn => ?_,
      fun e he => domAt_closeWindow_other s he, fun n hn => ?_, fun n hn => ?_, hw.cl.resolve_left (by decide),
      hw.mem.resolve_left (by decide), hw.st.resolve_left (by decide)⟩
    · rw [hdom]
      split <;> rfl
    · rw [hdom, if_pos (unfinished_eq_nil.mpr hn)]
    · obtain ⟨n, hact, hlate⟩ := hn
      rw [hdom, if_neg fun h => by simpa [hlate] using unfinished_eq_nil.mp h n hact]
      rfl
    · rw [seqAt_closeWindow hsnd, if_pos hn]
    · rw [seqAt_closeWindow hsnd, if_neg hn]
  · have hw := setPhase_changes d .guard s
    refine ⟨_, setPhase d .guard s, exec_guardStart d s, ?_, domAt_setPhase _ hlen,
      fun e he => domAt_setPhase_other _ _ he, setPhase_seq _ _ _, hw.cl.resolve_left (by decide),
      hw.mem.resolve_left (by decide), hw.st.resolve_left (by decide)⟩
    rw [guardStart_eq hph hrst, if_neg (by simp [hk])]

end Sys2Proof.Machine
end

section
/-! LA96 accumulation (03 R44, R46, R52). Adding a contribution combines the element with what that contribution alone gives,
and combining is a commutative monoid: so a sum is a fold of it, whatever the order and the parts. -/

namespace Sys2Proof.Machine

/-! ### Combining two elements (R52) -/

theorem laCombine_assoc (x y z : LaElem) : laCombine (laCombine x y) z = laCombine x (laCombine y z) := by
  simp only [laCombine, BitVec.add_assoc, Bool.or_assoc]

theorem laCombine_comm (x y : LaElem) : laCombine x y = laCombine y x := by
  simp only [laCombine, BitVec.add_comm x.e, Bool.or_comm x.inexact, Bool.or_comm x.ovf, Bool.or_comm x.poison]

theorem laCombine_right_comm (x y z : LaElem) : laCombine (laCombine x y) z = laCombine (laCombine x z) y := by
  rw [laCombine_assoc, laCombine_comm y z, ← laCombine_assoc]

theorem laCombine_zero (x : LaElem) : laCombine x LaElem.zero = x := by
  simp [laCombine, LaElem.zero]

/-! ### Adding contributions (R44) -/

/-- What a contribution does to an element depends on the contribution alone: the element it gives from zero is combined
in. -/
theorem laAdd_eq_laCombine (a : Int) (x : LaElem) (p q : Val) : laAdd a x p q = laCombine x (laAdd a LaElem.zero p q) := by
  match p, q with
  | some _, some _ => simp [laAdd, laCombine, LaElem.zero]
  | none, _ => simp [laAdd, laCombine, LaElem.zero]
  | some _, none => simp [laAdd, laCombine, LaElem.zero]

theorem laAdd_right_comm (a : Int) (x : LaElem) (p q r t : Val) :
    laAdd a (laAdd a x p q) r t = laAdd a (laAdd a x r t) p q := by
  rw [laAdd_eq_laCombine a (laAdd a x p q), laAdd_eq_laCombine a x p, laCombine_right_comm, ← laAdd_eq_laCombine,
    ← laAdd_eq_laCombine]

/-! ### Sums (R46) -/

/-- The element that a list of contributions gives, added one after the other from zero. -/
def laSum (a : Int) (l : List (Val × Val)) : LaElem := l.foldl (fun x p => laAdd a x p.1 p.2) LaElem.zero

theorem laSum_eq_of_perm {a : Int} {l k : List (Val × Val)} (h : l.Perm k) : laSum a l = laSum a k :=
  h.foldl_eq' (fun _ _ _ _ _ => laAdd_right_comm a _ _ _ _ _) LaElem.zero

/-- Adding a list of contributions to any element combines that element with their sum. -/
theorem foldl_laAdd_eq (a : Int) (l : List (Val × Val)) (x : LaElem) :
    l.foldl (fun x p => laAdd a x p.1 p.2) x = laCombine x (laSum a l) := by
  induction l generalizing x with
  | nil => exact (laCombine_zero x).symm
  | cons p l ih =>
    rw [laSum, List.foldl_cons, List.foldl_cons, ih, ih (laAdd a LaElem.zero _ _), ← laCombine_assoc,
      ← laAdd_eq_laCombine]

theorem laSum_append (a : Int) (k m : List (Val × Val)) : laSum a (k ++ m) = laCombine (laSum a k) (laSum a m) := by
  rw [← foldl_laAdd_eq, laSum, List.foldl_append, laSum]

/-- Settles O29: the sum is a fold of a commuting operation, and the sum over parts is the combination of their sums. -/
theorem sumsDoNotDependOnOrder : Obligations.SumsDoNotDependOnOrder := by
  intro a l k m hperm
  have hsum : laSum a l = laSum a (k ++ m) := laSum_eq_of_perm hperm
  exact ⟨hsum.trans (laSum_append a k m), hsum⟩

end Sys2Proof.Machine
end

section
/-! SUPPORT. Clusters, their threads and their slots under the shared updates, and what an instruction's own effect starts
from. -/

namespace Sys2Proof.Machine

/-! ### Clusters -/

theorem Sound.cl_length {s : State} (h : Sound s) : s.cl.length = 144 := h.1.2.2.1

theorem Sound.cluster_lt {s : State} (h : Sound s) (c : Cluster) : c.val < s.cl.length := by
  rw [h.cl_length]; exact c.isLt

theorem clAt_congr {s t : State} (h : t.cl = s.cl) (c : Nat) : clAt t c = clAt s c := by
  unfold clAt; rw [h]

theorem thrAt_congr {s t : State} (h : t.cl = s.cl) (c n : Nat) : thrAt t c n = thrAt s c n := by
  unfold thrAt; rw [clAt_congr h]

theorem clAt_modCl_same {s : State} {c : Nat} (f : ClusterSt → ClusterSt) (h : c < s.cl.length) :
    clAt (modCl s c f) c = f (clAt s c) := by
  rw [clAt_modCl, if_pos ⟨rfl, h⟩]

@[simp] theorem modCl_cl_length (s : State) (c : Nat) (f : ClusterSt → ClusterSt) : (modCl s c f).cl.length = s.cl.length :=
  List.length_modify _ _ _

/-- What a change of a cluster keeps of it stays in every cluster. -/
theorem clAt_modCl_field {α : Type} {g : ClusterSt → α} {f : ClusterSt → ClusterSt} (hf : ∀ k, g (f k) = g k) (s : State)
    (c j : Nat) : g (clAt (modCl s c f) j) = g (clAt s j) := by
  rw [clAt_modCl]
  split
  next h => rw [h.1, hf]
  next => rfl

theorem each_field {α β : Type} {v : State → β} {f : State → α → State} (hf : ∀ s x, v (f s x) = v s) (l : List α)
    (s : State) : v (each l f s) = v s := by
  induction l generalizing s with
  | nil => rfl
  | cons x l ih => exact (ih _).trans (hf s x)

theorem raise_cl (s : State) (block num : Nat) (l : BitVec 32) (seq : Nat) (detail : Word64) :
    (raise s block num l seq detail).cl = s.cl :=
  (raise_within (M := 117440546) s block num l seq detail (by decide) (.refl _ _)).cl.resolve_left (by decide)

/-! ### Slots -/

theorem modSlot_field {α : Type} {g : ClusterSt → α} (hg : ∀ k l, g { k with slots := l } = g k) (s : State) (c i : Nat)
    (f : AccSlot → AccSlot) (j : Nat) : g (clAt (modSlot s c i f) j) = g (clAt s j) :=
  clAt_modCl_field (fun k => hg k _) s c j

theorem reserveSlots_field {α : Type} {g : ClusterSt → α} (hg : ∀ k l, g { k with slots := l } = g k) (s : State)
    (c item rank : Nat) (l : List Nat) (j : Nat) : g (clAt (reserveSlots s c item rank l) j) = g (clAt s j) :=
  each_field (v := fun s => g (clAt s j)) (fun s i => modSlot_field hg s c i _ j) l s

theorem unreserve_field {α : Type} {g : ClusterSt → α} (hg : ∀ k l, g { k with slots := l } = g k) (s : State) (c : Nat)
    (l : List Nat) (j : Nat) : g (clAt (unreserve s c l) j) = g (clAt s j) :=
  each_field (v := fun s => g (clAt s j)) (fun s i => modSlot_field hg s c i _ j) l s

/-! ### Threads -/

/-- The cluster and the thread exist. -/
def HasThread (s : State) (c t : Nat) : Prop := c < s.cl.length ∧ t < (clAt s c).threads.length

theorem unit_of_length_le {α : Type} {l : List α} {i : Nat} (d : α) (h : l.length ≤ i) : unit l i d = d := by
  unfold unit
  rw [List.getD_eq_getElem?_getD, List.getElem?_eq_none h, Option.getD_none]

theorem thrOf_reset (t : Nat) : thrOf ClusterSt.reset t = Thread.reset := by
  unfold thrOf unit ClusterSt.reset
  rw [List.getD_eq_getElem?_getD, List.getElem?_replicate]
  split
  · rfl
  · rfl

/-- A thread that is not free exists. -/
theorem hasThread_of_not_free {s : State} {c t : Nat} (h : (thrAt s c t).state ≠ .free) : HasThread s c t := by
  refine ⟨Nat.lt_of_not_le fun hc => h ?_, Nat.lt_of_not_le fun ht => h ?_⟩
  · unfold thrAt clAt
    rw [unit_of_length_le _ hc]
    exact congrArg Thread.state (thrOf_reset t)
  · unfold thrAt thrOf
    rw [unit_of_length_le _ ht]
    rfl

theorem HasThread.congr {s z : State} {c t : Nat} (h : HasThread s c t) (hz : z.cl = s.cl) : HasThread z c t := by
  unfold HasThread
  rw [hz, clAt_congr hz]
  exact h

theorem HasThread.modCl {s : State} {c t j : Nat} {f : ClusterSt → ClusterSt} (h : HasThread s c t)
    (hf : ∀ k, (f k).threads.length = k.threads.length) : HasThread (modCl s j f) c t := by
  unfold HasThread
  rw [modCl_cl_length, clAt_modCl_field (g := fun k => k.threads.length) hf]
  exact h

theorem HasThread.modThr {s : State} {c t : Nat} (h : HasThread s c t) (f : Thread → Thread) :
    HasThread (modThr s c t f) c t :=
  HasThread.modCl h fun _ => List.length_modify _ _ _

theorem thrAt_modThr_same {s : State} {c t : Nat} (f : Thread → Thread) (h : HasThread s c t) :
    thrAt (modThr s c t f) c t = f (thrAt s c t) := by
  unfold thrAt modThr
  rw [clAt_modCl_same _ h.1]
  exact (unit_modify _ _ _ _ _).trans (if_pos ⟨rfl, h.2⟩)

theorem thrAt_modThr_other {s : State} {c t n : Nat} (f : Thread → Thread) (h : n ≠ t) (k : Nat) :
    thrAt (modThr s c t f) k n = thrAt s k n :=
  clAt_modCl_field (g := fun cl => thrOf cl n)
    (f := fun cl => { cl with threads := cl.threads.modify t f })
    (fun _ => (unit_modify _ _ _ _ _).trans (if_neg fun e => h e.1)) s c k

/-- A change of a thread keeps whatever the threads do not show. -/
theorem modThr_field {α : Type} {g : ClusterSt → α} (hg : ∀ k l, g { k with threads := l } = g k) (s : State) (c t : Nat)
    (f : Thread → Thread) (j : Nat) : g (clAt (modThr s c t f) j) = g (clAt s j) :=
  clAt_modCl_field (fun k => hg k _) s c j

/-! ### Issue (09 R165-R167) -/

/-- The thread that the cluster issues from is Ready. -/
theorem pickThread_ready {s : State} {c t : Nat} (h : pickThread s c = some t) : (thrAt s c t).state = .ready := by
  have hall : ∀ b, pickThread s c = some b → (thrAt s c b).state = .ready := by
    refine List.foldlRecOn (motive := fun o => ∀ b, o = some b → (thrAt s c b).state = .ready) _ _
      (fun b hb => nomatch hb) ?_
    intro best hbest n _
    dsimp only
    split
    next => exact hbest
    next hn =>
      have hready : (thrAt s c n).state = .ready := by
        simp only [Bool.or_eq_true, bne_iff_ne, ne_eq, not_or, Decidable.not_not] at hn
        exact hn.1
      split
      next => exact fun b hb => Option.some.inj hb ▸ hready
      next =>
        split
        · exact fun b hb => Option.some.inj hb ▸ hready
        · exact hbest
  exact hall t h

/-- The state that the instruction's own effect starts from. -/
def issuedFrom (s : State) (c nbytes t : Nat) (pc : Word64) : State :=
  modCl (fetchXl (modCl s c freeExited) c pc nbytes).2 c fun cl => { cl with
    issues := cl.issues + 1
    threads := cl.threads.modify t fun h => { h with pc := pc + BitVec.ofNat 64 nbytes, stamp := cl.issues + 1 } }

/-- What it takes to issue: the cluster may, a thread is picked, its address is in the slice and its fetch finds a place. -/
theorem issued_cases {s u : State} {c nbytes t : Nat} {pc : Word64} (h : issued s c nbytes = some (t, pc, u)) :
    mayIssue s c = true ∧ pickThread s c = some t ∧ pc = (thrAt (modCl s c freeExited) c t).pc ∧
      gIndex pc < sliceSize (modCl s c freeExited) ∧ (fetchXl (modCl s c freeExited) c pc nbytes).1 = none ∧
      u = issuedFrom s c nbytes t pc := by
  unfold issued at h
  split at h
  next => cases h
  next hmay =>
    split at h
    next => cases h
    next t' hpick =>
      dsimp only at h
      split at h
      next => cases h
      next hin =>
        split at h
        next => cases h
        next hfetch =>
          cases h
          exact ⟨by simpa using hmay, hpick, rfl, Nat.lt_of_not_le hin, hfetch, rfl⟩

/-- An instruction that issues does its own effect. -/
theorem issue_of_issued {s u : State} {c nbytes t : Nat} {pc : Word64} (h : issued s c nbytes = some (t, pc, u))
    (body : Nat → Word64 → State → State) : issue s c nbytes body = body t pc u := by
  obtain ⟨hmay, hpick, rfl, hin, hfetch, rfl⟩ := issued_cases h
  unfold issue
  rw [hmay, hpick]
  dsimp only
  rw [if_neg (by decide), if_neg (Nat.not_le_of_lt hin), hfetch]
  rfl

theorem fetchXl_cl (s : State) (c : Nat) (pc : Word64) (nbytes : Nat) : (fetchXl s c pc nbytes).2.cl = s.cl :=
  (fetchXl_within (M := 251659554) s c pc nbytes (by decide) (.refl _ _)).cl.resolve_left (by decide)

/-- The thread that issues exists. -/
theorem hasThread_of_issued {s u : State} {c nbytes t : Nat} {pc : Word64} (h : issued s c nbytes = some (t, pc, u)) :
    HasThread u c t := by
  obtain ⟨-, hpick, -, -, -, rfl⟩ := issued_cases h
  have hs : HasThread s c t := hasThread_of_not_free (by rw [pickThread_ready hpick]; decide)
  have hfreed : HasThread (modCl s c freeExited) c t := hs.modCl fun _ => List.length_map _
  exact HasThread.modCl (hfreed.congr (fetchXl_cl _ _ _ _)) fun _ => List.length_modify _ _ _

end Sys2Proof.Machine
end

section
/-! A tile instruction from issue to the array's queue (04 R56, R61, R62, 08 R147). That MXE.042 is raised at issue and that
the descriptors are kept as they stood then are the model's readings (log entries 34 and 86). -/

namespace Sys2Proof.Machine

/-- The thread waits as a tile instruction `p`, and nothing but clusters changed. -/
structure WaitsAsTile (z v : State) (c t : Nat) (p : TileProg) : Prop where
  state : (thrAt v c t).state = .waiting
  wait : (thrAt v c t).wait = .tile
  prog : (thrAt v c t).prog = some p
  within : Within 128 z v

theorem WaitsAsTile.changesOnly {z v : State} {c t : Nat} {p : TileProg} (h : WaitsAsTile z v c t p) :
    ChangesOnly [.cl] z v :=
  h.within.changesOnly [.cl] (by intro p; cases p <;> decide)

/-- A further change of clusters that keeps the thread keeps that it waits. -/
theorem WaitsAsTile.after {z v x : State} {c t : Nat} {p : TileProg} (h : WaitsAsTile z v c t p)
    (hthr : thrAt x c t = thrAt v c t) (hx : Within 128 v x) : WaitsAsTile z x c t p where
  state := by rw [hthr, h.state]
  wait := by rw [hthr, h.wait]
  prog := by rw [hthr, h.prog]
  within := h.within.trans hx

/-- The thread as it begins to wait as a tile instruction. -/
def tileWaiting (s : State) (c t : Nat) (p : TileProg) : State := setProg (wait s c t .tile) c t (some p)

/-- The slots that the instruction opens are reserved. -/
def tileReserved (s : State) (c t : Nat) (p : TileProg) : State :=
  let s1 := tileWaiting s c t p
  if p.byUnit || p.isOpen then s1
  else reserveSlots s1 c (thrAt s c t).item (thrAt s c t).rank (progSlots s1 c (thrAt s c t).item p)

/-- The thread joins the end of the array's queue. -/
def tileQueued (s : State) (c t : Nat) (p : TileProg) : State :=
  modCl (tileReserved s c t p) c fun cl => { cl with waitQ := cl.waitQ ++ [t] }

theorem enterArray_idle (s : State) (c t : Nat) (p : TileProg) :
    enterArray s c t p false = progDone (tileWaiting s c t p) c t p := rfl

theorem enterArray_runs (s : State) (c t : Nat) (p : TileProg) :
    enterArray s c t p true = startNext (tileQueued s c t p) c := rfl

theorem tileWaiting_waits {s : State} {c t : Nat} (h : HasThread s c t) (p : TileProg) :
    WaitsAsTile s (tileWaiting s c t p) c t p := by
  have hthr : thrAt (tileWaiting s c t p) c t = { thrAt s c t with state := .waiting, wait := .tile, prog := some p } := by
    unfold tileWaiting setProg wait
    rw [thrAt_modThr_same _ (h.modThr _), thrAt_modThr_same _ h]
  exact {
    state := by rw [hthr]
    wait := by rw [hthr]
    prog := by rw [hthr]
    within := setProg_within _ c t _ (by decide) (wait_within s c t _ (by decide) (.refl _ _)) }

/-- Reserving slots changes them alone. -/
theorem tileReserved_field {α : Type} {g : ClusterSt → α} (hg : ∀ k l, g { k with slots := l } = g k) (s : State)
    (c t : Nat) (p : TileProg) (j : Nat) : g (clAt (tileReserved s c t p) j) = g (clAt (tileWaiting s c t p) j) := by
  unfold tileReserved
  dsimp only
  split
  · rfl
  · exact reserveSlots_field hg _ _ _ _ _ _

theorem tileReserved_within (s : State) (c t : Nat) (p : TileProg) :
    Within 128 (tileWaiting s c t p) (tileReserved s c t p) := by
  unfold tileReserved
  dsimp only
  split
  · exact .refl _ _
  · exact reserveSlots_within _ _ _ _ _ (by decide) (.refl _ _)

theorem tileQueued_waits {s : State} {c t : Nat} (h : HasThread s c t) (p : TileProg) :
    WaitsAsTile s (tileQueued s c t p) c t p := by
  have hres : WaitsAsTile s (tileReserved s c t p) c t p :=
    (tileWaiting_waits h p).after (tileReserved_field (g := fun k => thrOf k t) (fun _ _ => rfl) s c t p c)
      (tileReserved_within s c t p)
  exact hres.after (clAt_modCl_field (g := fun k => thrOf k t) (f := fun cl => { cl with waitQ := cl.waitQ ++ [t] })
    (fun _ => rfl) _ c c)
    (modCl_within _ _ _ (by decide) (.refl _ _))

theorem tileWaiting_waitQ (s : State) (c t : Nat) (p : TileProg) (j : Nat) :
    (clAt (tileWaiting s c t p) j).waitQ = (clAt s j).waitQ :=
  (modThr_field (g := (·.waitQ)) (fun _ _ => rfl) _ _ _ _ _).trans
    (modThr_field (g := (·.waitQ)) (fun _ _ => rfl) _ _ _ _ _)

theorem tileReserved_cl_length (s : State) (c t : Nat) (p : TileProg) : (tileReserved s c t p).cl.length = s.cl.length := by
  have hwait : (tileWaiting s c t p).cl.length = s.cl.length := by
    unfold tileWaiting setProg wait modThr
    simp only [modCl_cl_length]
  unfold tileReserved
  dsimp only
  split
  · exact hwait
  · exact (each_field (v := fun s => s.cl.length) (fun _ _ => modCl_cl_length _ _ _) _ _).trans hwait

theorem tileQueued_waitQ {s : State} {c : Nat} (h : c < s.cl.length) (t : Nat) (p : TileProg) :
    (clAt (tileQueued s c t p) c).waitQ = (clAt s c).waitQ ++ [t] := by
  unfold tileQueued
  rw [clAt_modCl_same _ (by rw [tileReserved_cl_length]; exact h)]
  dsimp only
  rw [tileReserved_field (g := (·.waitQ)) fun _ _ => rfl, tileWaiting_waitQ]

/-! ### Past the checks -/

theorem exec_tile {c : Cluster} {w : BitVec 248} {i : Instr} {opc : Nat}
    (hi : (i, opc) ∈ [(Instr.tmm c w, 0x40), (.tgrid c w, 0x41)]) (s : State) :
    exec i s = .next (issue s c 32 fun t pc s => tileIssue opc w c t pc s) := by
  simp only [List.mem_cons, Prod.mk.injEq, List.not_mem_nil, or_false] at hi
  obtain ⟨rfl, rfl⟩ | ⟨rfl, rfl⟩ := hi <;> rfl

theorem exec_conv {c : Cluster} {w : BitVec 248} {i : Instr}
    (hi : (i, convIsPrep w) ∈ [(Instr.tconv c w, false), (.tconvPrep c w, true)]) (s : State) :
    exec i s = .next (issue s c 32 fun t pc s => convIssue w c t pc s) := by
  simp only [List.mem_cons, Prod.mk.injEq, List.not_mem_nil, or_false] at hi
  obtain ⟨rfl, hp⟩ | ⟨rfl, hp⟩ := hi
  · exact congrArg Host.Outcome.next (if_neg (by simp [hp]))
  · exact congrArg Host.Outcome.next (if_pos hp)

/-- The instruction in progress that a checked TMM or TGRID becomes. -/
def tileStart (u : State) (c t opc : Nat) (w : BitVec 248) (j : TileJob) : TileProg :=
  TileProg.start opc w (csBytes u c ((thrAt u c t).tdescBase + 128 * j.prob) 128)
    (if j.prob < (thrAt u c t).pdescCount then some (csBytes u c ((thrAt u c t).pdescBase + 64 * j.prob) 64) else none)
    [j.mExt, j.nExt, j.kExt, j.prob] j ((j.curveFrom 0).getD 0)

/-- The first cell or unit of a TCONV. -/
def convFirst (j : ConvJob) : Option Nat :=
  if j.direct then j.asTile.curveFrom 0 else if j.units = 0 then none else some 0

theorem convFirst_isSome {j : ConvJob} (h : if j.direct then (j.asTile.curveFrom 0).isSome else 0 < j.units) :
    (convFirst j).isSome = true := by
  unfold convFirst
  by_cases hd : j.direct = true
  · rw [if_pos hd] at h ⊢
    exact h
  · rw [if_neg hd] at h ⊢
    rw [if_neg (Nat.ne_of_gt h)]
    rfl

/-- The instruction in progress that a checked TCONV becomes. -/
def convStart (u : State) (c t : Nat) (w : BitVec 248) (j : ConvJob) : TileProg :=
  TileProg.start 0x42 w (csBytes u c ((thrAt u c t).tdescBase + 128 * j.prob) 128) none [0, 0, 0, j.prob] j.asTile
    ((convFirst j).getD 0)

theorem tileIssue_passed {u : State} {c t opc : Nat} {w : BitVec 248} {j : TileJob} (pc : Word64)
    (h : tileChecks u c (thrAt u c t) ((itemOf u (thrAt u c t).seq (thrAt u c t).item).elim 0 (·.acc)) (opc == 0x41)
      (tileWord w) = .inr j) :
    tileIssue opc w c t pc u =
      enterArray (if j.noSource then raise u bMXE 42 (locCluster c) (thrAt u c t).seq 0 else u) c t
        (tileStart u c t opc w j) (j.curveFrom 0).isSome := by
  unfold tileIssue
  dsimp only
  rw [h]
  rfl

theorem convIssue_passed {u : State} {c t : Nat} {w : BitVec 248} {j : ConvJob} (pc : Word64)
    (h : convChecks u c (thrAt u c t) ((itemOf u (thrAt u c t).seq (thrAt u c t).item).elim 0 (·.acc)) (convWord w) =
      .inr j) :
    convIssue w c t pc u = enterArray u c t (convStart u c t w j) (convFirst j).isSome := by
  unfold convIssue
  dsimp only
  rw [h]
  rfl

/-- Settles O25: the checked instruction enters the array's queue, where its thread waits; without a cell it is done. -/
theorem tileInstructionsJoinTheArrayQueue : Obligations.TileInstructionsJoinTheArrayQueue := by
  intro c w s u t opc pc i hiss
  have hthr : HasThread u c t := hasThread_of_issued hiss
  refine ⟨?_, ?_⟩
  · rintro j acc hi rfl hchk z hz
    have hcl : z.cl = u.cl := by
      rw [hz]
      split
      · exact raise_cl _ _ _ _ _ _
      · rfl
    have hexec : exec i s = .next (enterArray z c t (tileStart u c t opc w j) (j.curveFrom 0).isSome) := by
      rw [exec_tile hi, issue_of_issued hiss, tileIssue_passed pc hchk, hz]
    cases hfirst : j.curveFrom 0 with
    | none =>
      rw [hfirst, Option.isSome_none, enterArray_idle] at hexec
      have hw := tileWaiting_waits (hthr.congr hcl) (tileStart u c t opc w j)
      exact ⟨_, _, _, hexec, hw.state, hw.wait, hw.prog, rfl, rfl, rfl, hw.changesOnly, nofun, fun _ => rfl⟩
    | some d =>
      rw [hfirst, Option.isSome_some, enterArray_runs] at hexec
      have hw := tileQueued_waits (hthr.congr hcl) (tileStart u c t opc w j)
      refine ⟨_, _, _, hexec, hw.state, hw.wait, hw.prog, rfl, rfl, rfl, hw.changesOnly, fun _ => ⟨rfl, ?_⟩, nofun⟩
      rw [tileQueued_waitQ (hthr.congr hcl).1, clAt_congr hcl]
  · rintro j acc hi rfl hchk hruns
    have hexec : exec i s = .next (startNext (tileQueued u c t (convStart u c t w j)) c) := by
      rw [exec_conv hi, issue_of_issued hiss, convIssue_passed pc hchk, convFirst_isSome hruns, enterArray_runs]
    have hw := tileQueued_waits hthr (convStart u c t w j)
    exact ⟨_, _, _, hexec, hw.state, hw.wait, hw.prog, rfl, rfl, rfl, hw.changesOnly, rfl,
      tileQueued_waitQ hthr.1 _ _⟩

end Sys2Proof.Machine
end

section
/-! The end of a step on the array and the end of a conversion (04 R56, R63, 09 R174). When results are written, when a
promotion is charged, and that nothing happens with an empty array are the model's readings (log entries 37, 35 and 1). -/

namespace Sys2Proof.Machine

/-! ### What leaves the array as it is -/

theorem progClose_cl (w : RunAt) (p : TileProg) (cell : Cell) (g : Group) (s : State) : (progClose w p cell g s).1.cl = s.cl :=
  (progClose_within (M := 117441122) w p cell g s (by decide) (.refl _ _)).cl.resolve_left (by decide)

theorem csWrites_cl (s : State) (c : Nat) (l : List (Nat × List Byte)) : (csWrites s c l).cl = s.cl :=
  (csWrites_within (M := 268435968) s c l (by decide) (.refl _ _)).cl.resolve_left (by decide)

@[simp] theorem modSlot_array (s : State) (c i : Nat) (f : AccSlot → AccSlot) (j : Nat) :
    (clAt (modSlot s c i f) j).array = (clAt s j).array :=
  modSlot_field (g := (·.array)) (fun _ _ => rfl) s c i f j

@[simp] theorem modThr_array (s : State) (c t : Nat) (f : Thread → Thread) (j : Nat) :
    (clAt (modThr s c t f) j).array = (clAt s j).array :=
  modThr_field (g := (·.array)) (fun _ _ => rfl) s c t f j

@[simp] theorem setProg_array (s : State) (c t : Nat) (p : Option TileProg) (j : Nat) :
    (clAt (setProg s c t p) j).array = (clAt s j).array :=
  modThr_array s c t _ j

@[simp] theorem queueNext_array (s : State) (c t j : Nat) : (clAt (queueNext s c t) j).array = (clAt s j).array :=
  clAt_modCl_field (g := (·.array)) (f := fun cl => { cl with waitQ := t :: cl.waitQ }) (fun _ => rfl) s c j

@[simp] theorem progDone_array (s : State) (c t : Nat) (p : TileProg) (j : Nat) :
    (clAt (progDone s c t p) j).array = (clAt s j).array := by
  have hfreed : (clAt (setProg (unreserve s c (progSlots s c (thrAt s c t).item p)) c t none) j).array = (clAt s j).array :=
    (setProg_array _ _ _ _ _).trans (unreserve_field (g := (·.array)) (fun _ _ => rfl) _ _ _ _)
  unfold progDone
  dsimp only
  split
  · exact hfreed
  · exact (modThr_array _ _ _ _ _).trans hfreed

/-- The end of an attempt does not take the array. -/
@[simp] theorem attemptEnd_array (s : State) (c t : Nat) (p : TileProg) (j : Nat) :
    (clAt (attemptEnd s c t p) j).array = (clAt s j).array := by
  unfold attemptEnd
  dsimp only
  split
  next cell i _ _ =>
    split
    next => simp only [progDone_array, modSlot_array]
    next =>
      split
      next => simp only [queueNext_array, setProg_array, modSlot_array, clAt_congr (progClose_cl _ _ _ _ _)]
      next =>
        split
        · simp only [queueNext_array, setProg_array, modSlot_array, clAt_congr (progClose_cl _ _ _ _ _)]
        · simp only [progDone_array, modSlot_array, clAt_congr (progClose_cl _ _ _ _ _)]
  next => exact progDone_array _ _ _ _ _

@[simp] theorem stepAfter_array (s : State) (c t : Nat) (p : TileProg) (j : Nat) :
    (clAt (stepAfter s c t p) j).array = (clAt s j).array := by
  unfold stepAfter
  split
  · split
    · exact queueNext_array _ _ _ _
    · exact progDone_array _ _ _ _ _
  · split
    · exact queueNext_array _ _ _ _
    · exact attemptEnd_array _ _ _ _ _

/-! ### The step on the array ends -/

/-- The array is free, and the step that it held is counted, traced and charged. -/
def arrayFreed (s : State) (c : Nat) (a : ArrayStep) : State :=
  modCl (promoDone c a (stepDone c a s)) c fun k => { k with array := none }

theorem promoDone_stepDone_cl (s : State) (c : Nat) (a : ArrayStep) : (promoDone c a (stepDone c a s)).cl = s.cl :=
  (promoDone_within (M := 117440610) c a _ (by decide) (stepDone_within c a s (by decide) (.refl _ _))).cl.resolve_left
    (by decide)

theorem arrayFreed_thrAt (s : State) (c : Nat) (a : ArrayStep) (k n : Nat) : thrAt (arrayFreed s c a) k n = thrAt s k n :=
  (clAt_modCl_field (g := fun cl => thrOf cl n) (f := fun cl => { cl with array := none }) (fun _ => rfl) _ c k).trans
    (thrAt_congr (promoDone_stepDone_cl s c a) k n)

theorem arrayFreed_array {s : State} {c : Nat} (h : c < s.cl.length) (a : ArrayStep) :
    (clAt (arrayFreed s c a) c).array = none :=
  congrArg ClusterSt.array (clAt_modCl_same _ (by rw [promoDone_stepDone_cl]; exact h))

section
variable {s : State} {c : Nat} {a : ArrayStep}

/-- A released step frees the array and leaves the rest to its thread. -/
theorem stepEnd_eq (ha : (clAt s c).array = some a) :
    stepEnd s c =
      if (thrAt s c a.thr).state == .suspended then modThr (arrayFreed s c a) c a.thr fun _ => Thread.reset
      else if ofItem (thrAt s c a.thr) a.item && (thrAt s c a.thr).wait == .tile then
        (thrAt s c a.thr).prog.elim (csWrites (arrayFreed s c a) c a.out)
          (stepAfter (csWrites (arrayFreed s c a) c a.out) c a.thr)
      else arrayFreed s c a := by
  rw [← arrayFreed_thrAt s c a]
  unfold stepEnd
  rw [ha]
  rfl

theorem stepEnd_suspended (ha : (clAt s c).array = some a) (h : (thrAt s c a.thr).state = .suspended) :
    stepEnd s c = modThr (arrayFreed s c a) c a.thr fun _ => Thread.reset := by
  rw [stepEnd_eq ha, h]
  rfl

theorem stepEnd_other_item (ha : (clAt s c).array = some a) (hs : (thrAt s c a.thr).state ≠ .suspended)
    (h : ofItem (thrAt s c a.thr) a.item = false) : stepEnd s c = arrayFreed s c a := by
  rw [stepEnd_eq ha, if_neg (by simpa using hs), h]
  rfl

theorem stepEnd_waiting {p : TileProg} (ha : (clAt s c).array = some a) (hs : (thrAt s c a.thr).state = .waiting)
    (hw : (thrAt s c a.thr).wait = .tile) (hi : (thrAt s c a.thr).item = a.item) (hp : (thrAt s c a.thr).prog = some p) :
    stepEnd s c = stepAfter (csWrites (arrayFreed s c a) c a.out) c a.thr p := by
  have hmine : ofItem (thrAt s c a.thr) a.item = true := by simp [ofItem, hs, hi]
  rw [stepEnd_eq ha, hs, hmine, hw, hp]
  rfl

/-- Whatever the thread does next, the array stays free for the step that starts then. -/
theorem stepEnd_array (hc : c < s.cl.length) (ha : (clAt s c).array = some a) : (clAt (stepEnd s c) c).array = none := by
  have hfree : (clAt (arrayFreed s c a) c).array = none := arrayFreed_array hc a
  have hout : (clAt (csWrites (arrayFreed s c a) c a.out) c).array = none := by
    rw [clAt_congr (csWrites_cl _ _ _)]
    exact hfree
  rw [stepEnd_eq ha]
  split
  · exact (modThr_array _ _ _ _ _).trans hfree
  · split
    · cases (thrAt s c a.thr).prog with
      | none => exact hout
      | some p => exact (stepAfter_array _ _ _ _ _).trans hout
    · exact hfree

theorem exec_tileStepRelease {c : Cluster} (ha : (clAt s c).array = some a) :
    exec (.tileStepRelease c) s = .next (startNext (stepEnd s c) c) := by
  refine congrArg Host.Outcome.next (if_neg ?_)
  rw [ha]
  exact Bool.false_ne_true

theorem exec_tileStepRelease_free {c : Cluster} (ha : (clAt s c).array = none) : exec (.tileStepRelease c) s = .next s :=
  congrArg Host.Outcome.next (if_pos (by rw [ha]; rfl))

end

/-! ### A conversion ends -/

/-- Slot i of a cluster. -/
abbrev slotAt (s : State) (c i : Nat) : AccSlot := unit (clAt s c).slots i AccSlot.reset

/-- The bytes of a conversion are written and its slot converts no longer. -/
def slotConverted (s : State) (c i : Nat) : State :=
  modSlot (csWrites s c (slotAt s c i).result) c i fun a => { a with converting := none, result := [] }

/-- The state that a conversion for thread t leaves to the steps that wait: the thread goes on where it waits for nothing
else. -/
def conversionLeft (s : State) (c i t : Nat) : State :=
  if ((slotAt s c i).owner.any fun o => ofItem (thrAt s c t) o.1) && (thrAt s c t).wait == .tile &&
      (thrAt s c t).prog.isNone && !stillConverting (slotConverted s c i) c t then ready (slotConverted s c i) c t
  else slotConverted s c i

theorem slotConverted_thrAt (s : State) (c i k n : Nat) : thrAt (slotConverted s c i) k n = thrAt s k n :=
  (modSlot_field (g := fun cl => thrOf cl n) (fun _ _ => rfl) _ c i _ k).trans (thrAt_congr (csWrites_cl _ _ _) k n)

theorem slotConverted_slots {s : State} {c : Nat} (hc : c < s.cl.length) (i : Nat) :
    (clAt (slotConverted s c i) c).slots =
      (clAt s c).slots.modify i fun a => { a with converting := none, result := [] } := by
  unfold slotConverted modSlot
  rw [clAt_modCl_same _ (by rw [csWrites_cl]; exact hc), clAt_congr (csWrites_cl _ _ _)]

/-- Where no other slot converts for a thread, none does once this conversion has ended. -/
theorem slotConverted_not_converting {s : State} {c i t : Nat} (hc : c < s.cl.length)
    (h : ∀ k, k ≠ i → (slotAt s c k).converting ≠ some t) : stillConverting (slotConverted s c i) c t = false := by
  unfold stillConverting
  rw [slotConverted_slots hc, List.any_eq_false]
  intro a ha
  obtain ⟨k, hk, rfl⟩ := List.mem_iff_getElem.mp ha
  rw [List.getElem_modify]
  split
  next => simp
  next hne =>
    rw [List.length_modify] at hk
    have hslot : slotAt s c k = (clAt s c).slots[k] := by
      rw [slotAt, unit, List.getD_eq_getElem?_getD, List.getElem?_eq_getElem hk, Option.getD_some]
    rw [← hslot, beq_iff_eq]
    exact h k (Ne.symm hne)

theorem conversionLeft_cases (s : State) (c i t : Nat) :
    conversionLeft s c i t = ready (slotConverted s c i) c t ∨ conversionLeft s c i t = slotConverted s c i := by
  unfold conversionLeft
  split
  · exact .inl rfl
  · exact .inr rfl

theorem conversionEnd_eq {s : State} {c i t : Nat} (h : (slotAt s c i).converting = some t) :
    conversionEnd s c i = startNext (conversionLeft s c i t) c := by
  unfold conversionEnd conversionLeft
  rw [← slotConverted_thrAt s c i]
  dsimp only
  rw [h]
  rfl

theorem slotConverted_within (s : State) (c i : Nat) : Within 268436096 s (slotConverted s c i) :=
  modSlot_within _ _ _ _ (by decide) (csWrites_within _ _ _ (by decide) (.refl _ _))

theorem conversionLeft_within (s : State) (c i t : Nat) : Within 268436096 s (conversionLeft s c i t) := by
  have hs := slotConverted_within s c i
  rcases conversionLeft_cases s c i t with h | h <;> rw [h]
  · exact ready_within _ _ _ (by decide) hs
  · exact hs

theorem conversionLeft_st (s : State) (c i t : Nat) :
    (conversionLeft s c i t).st = (csWrites s c (slotAt s c i).result).st := by
  rcases conversionLeft_cases s c i t with h | h <;> rw [h] <;> rfl

theorem conversionLeft_slots {s : State} {c : Nat} (hc : c < s.cl.length) (i t : Nat) :
    (clAt (conversionLeft s c i t) c).slots =
      (clAt s c).slots.modify i fun a => { a with converting := none, result := [] } := by
  rw [← slotConverted_slots hc i]
  rcases conversionLeft_cases s c i t with h | h <;> rw [h]
  exact modThr_field (g := (·.slots)) (fun _ _ => rfl) _ _ _ _ _

theorem conversionLeft_other (s : State) (c i : Nat) {t n : Nat} (hn : n ≠ t) (k : Nat) :
    thrAt (conversionLeft s c i t) k n = thrAt s k n := by
  rw [← slotConverted_thrAt s c i]
  rcases conversionLeft_cases s c i t with h | h <;> rw [h]
  exact thrAt_modThr_other _ hn k

/-- A thread that waits for the end of its last conversion is ready. -/
theorem conversionLeft_ready {s : State} {c i t : Nat} (hs : (thrAt s c t).state = .waiting)
    (hw : (thrAt s c t).wait = .tile) (hp : (thrAt s c t).prog = none)
    (ho : ((slotAt s c i).owner.any fun o => ofItem (thrAt s c t) o.1) = true)
    (hn : ∀ k, k ≠ i → (slotAt s c k).converting ≠ some t) : (thrAt (conversionLeft s c i t) c t).state = .ready := by
  have hthr : HasThread s c t := hasThread_of_not_free (by rw [hs]; decide)
  have hthr' : HasThread (slotConverted s c i) c t := HasThread.modCl (hthr.congr (csWrites_cl _ _ _)) fun _ => rfl
  have hlast := slotConverted_not_converting hthr.1 hn
  have hleft : conversionLeft s c i t = ready (slotConverted s c i) c t := by
    unfold conversionLeft
    rw [ho, hw, hp, hlast]
    rfl
  rw [hleft]
  unfold ready
  rw [thrAt_modThr_same _ hthr', slotConverted_thrAt, hs]
  rfl

/-- Settles O26: the step's end frees the array and hands over to its thread, and the conversion's end to its slot. -/
theorem arrayIsReleasedStepByStep : Obligations.ArrayIsReleasedStepByStep := by
  intro c s hsnd
  have hc : c.val < s.cl.length := hsnd.cluster_lt c
  refine ⟨?_, exec_tileStepRelease_free, ?_⟩
  · rintro a ha u rfl
    have hexec := exec_tileStepRelease ha
    refine ⟨⟨_, stepEnd s c, hexec, rfl, stepEnd_array hc ha⟩, fun p hs hw hi hp => ?_, fun hs => ?_, fun hs hi => ?_⟩
    · rw [hexec, stepEnd_waiting ha hs hw hi hp]
      rfl
    · rw [hexec, stepEnd_suspended ha hs]
      rfl
    · rw [hexec, stepEnd_other_item ha hs hi]
      rfl
  · intro i t hi hconv
    have hexec : exec (.conversionComplete c i) s = .next (startNext (conversionLeft s c i t) c) :=
      congrArg Host.Outcome.next (conversionEnd_eq hconv)
    exact ⟨_, conversionLeft s c i t, hexec, rfl,
      (conversionLeft_within s c i t).changesOnly _ (by intro p; cases p <;> decide), conversionLeft_st s c i t,
      conversionLeft_slots hc i t, fun n hn => conversionLeft_other s c i hn c,
      fun hs hw hp ho hn => conversionLeft_ready hs hw hp ho hn⟩

end Sys2Proof.Machine
end

section
/-! Chunk entries of the admission queue (07 R129, 13 R244). That a command's OP must be that of the entry that is next is
log entry 62. -/

namespace Sys2Proof.Machine

/-! ### The entry that is next -/

theorem EntryNext.op {s v : State} {d op : Nat} {bs : List Byte} (h : EntryNext s d op bs v) : fld bs 0 1 = op := by
  obtain ⟨-, -, -, -, hop⟩ := h
  exact hop

/-- The command with the OP of the entry that is next processes it, and then the shared rest of the admit phase runs. -/
theorem EntryNext.entryStep {s v : State} {d op : Nat} {bs : List Byte} (h : EntryNext s d op bs v) :
    entryStep d op s = afterEntry d (doEntry d bs v) := by
  obtain ⟨hadm, hka, hrst, hpeek, hop⟩ := h
  unfold Machine.entryStep
  rw [hadm, hka, hrst, hpeek]
  exact if_pos hop

theorem EntryNext.doEntry_other {s v : State} {d op : Nat} {bs : List Byte} (h : EntryNext s d op bs v) (hop : op ≠ 1) :
    doEntry d bs v = entryEnd d (fld bs 1 1) (otherEntry d bs v) := by
  unfold doEntry
  rw [h.op, if_neg hop]

/-- A ring that has been checked is not read again. -/
theorem recheckRing_of_checked {n : Nat} {s : State} (h : (seqAt s n).recheck = false) : recheckRing n s = (true, s) := by
  unfold recheckRing
  rw [h]
  rfl

/-! ### Chunk entries of a ready slot -/

theorem SlotReady.checked {s : State} {d n : Nat} (h : SlotReady s d n) : (seqAt s n).recheck = false := by
  obtain ⟨-, -, hchk⟩ := h
  exact hchk

/-- The check before any entry but ADMIT passes: active slot, the queue's own domain, a frame that fits a tag. -/
theorem SlotReady.passes {s : State} {d n g : Nat} (h : SlotReady s d n) (hg : g < 2 ^ 48) (chunk : Bool) :
    ((seqAt s n).state != .active || (seqAt s n).domain != d || (chunk && decide (2 ^ 48 ≤ g))) = false := by
  obtain ⟨hact, hdom, -⟩ := h
  rw [hact, hdom, decide_eq_false (Nat.not_le.2 hg), bne_self_eq_false, bne_self_eq_false, Bool.and_false]
  rfl

theorem SlotReady.otherEntry_chunkBegin {d : Nat} {bs : List Byte} {s : State} (h : SlotReady s d (fld bs 1 1))
    (hop : fld bs 0 1 = 3) (hg : fld bs 8 8 < 2 ^ 48) :
    otherEntry d bs s = chunkBeginEntry (fld bs 1 1) (fld bs 8 8) s := by
  unfold otherEntry
  dsimp only
  rw [h.passes hg, recheckRing_of_checked h.checked, hop]
  rfl

theorem SlotReady.otherEntry_chunkEnd {d : Nat} {bs : List Byte} {s : State} (h : SlotReady s d (fld bs 1 1))
    (hop : fld bs 0 1 = 4) (hg : fld bs 8 8 < 2 ^ 48) :
    otherEntry d bs s = chunkEndEntry (fld bs 1 1) (fld bs 8 8) s := by
  unfold otherEntry
  dsimp only
  rw [h.passes hg, recheckRing_of_checked h.checked, hop]
  rfl

theorem exec_chunkBegin {d : Dom} {bs : List Byte} {s v : State} (h : EntryNext s d 3 bs v)
    (hs : SlotReady v d (fld bs 1 1)) (hg : fld bs 8 8 < 2 ^ 48) :
    exec (.chunkBegin d) s =
      .next (afterEntry d (entryEnd d (fld bs 1 1) (chunkBeginEntry (fld bs 1 1) (fld bs 8 8) v))) := by
  rw [← hs.otherEntry_chunkBegin h.op hg, ← h.doEntry_other (by decide), ← h.entryStep]
  rfl

theorem exec_chunkEnd {d : Dom} {bs : List Byte} {s v : State} (h : EntryNext s d 4 bs v)
    (hs : SlotReady v d (fld bs 1 1)) (hg : fld bs 8 8 < 2 ^ 48) :
    exec (.chunkEnd d) s =
      .next (afterEntry d (entryEnd d (fld bs 1 1) (chunkEndEntry (fld bs 1 1) (fld bs 8 8) v))) := by
  rw [← hs.otherEntry_chunkEnd h.op hg, ← h.doEntry_other (by decide), ← h.entryStep]
  rfl

/-! ### What the ring allows (R129) -/

section
variable {n g : Nat} {k : RingDesc} {s w : State} (hr : readRing s n = (some k, w))
include hr

theorem chunkBeginEntry_allowed (hok : beginOk k g = true) :
    chunkBeginEntry n g s = (none, modSeq (beginChunk w n k g) n fun q => { q with beginRefused := false }) := by
  unfold chunkBeginEntry
  rw [hr]
  exact if_pos hok

theorem chunkBeginEntry_refused (hok : beginOk k g = false) :
    chunkBeginEntry n g s = (some (bATT, 2), modSeq w n fun q => { q with beginRefused := true }) := by
  unfold chunkBeginEntry
  rw [hr]
  exact if_neg (Bool.eq_false_iff.1 hok)

theorem chunkEndEntry_oldest (hlo : k.lo = some g) : chunkEndEntry n g s = (none, endChunk w n k) := by
  unfold chunkEndEntry
  rw [hr]
  exact if_pos hlo

theorem chunkEndEntry_refused (hlo : k.lo ≠ some g) : chunkEndEntry n g s = (some (bATT, 2), w) := by
  unfold chunkEndEntry
  rw [hr]
  exact if_neg hlo

end

/-- Settles O12: both entries reach the ring of a ready slot, and what the ring allows decides between their two ends. -/
theorem chunkEntriesMoveTheRing : Obligations.ChunkEntriesMoveTheRing := by
  intro d bs k s v w _ hg hready hring
  refine ⟨fun hnext hok => ⟨_, exec_chunkBegin hnext hready hg, ?_⟩,
    fun hnext hok => ⟨_, exec_chunkBegin hnext hready hg, ?_⟩,
    fun hnext hlo => ⟨_, exec_chunkEnd hnext hready hg, ?_⟩,
    fun hnext hlo => ⟨_, exec_chunkEnd hnext hready hg, ?_⟩⟩
  · rw [chunkBeginEntry_allowed hring hok]
  · rw [chunkBeginEntry_refused hring hok]
  · rw [chunkEndEntry_oldest hring hlo]
  · rw [chunkEndEntry_refused hring hlo]

end Sys2Proof.Machine
end

section
/-! SUPPORT. A change of one thread, and the thread that a cluster issues from (09 R165, R167). -/

namespace Sys2Proof.Machine

/-! ### A change of one thread -/

theorem clAt_modCl_other {s : State} {c j : Nat} (f : ClusterSt → ClusterSt) (h : j ≠ c) :
    clAt (modCl s c f) j = clAt s j := by
  rw [clAt_modCl, if_neg fun e => h e.1]

theorem onlyThread_modThr (s : State) (c t : Nat) (f : Thread → Thread) : OnlyThread c t s (modThr s c t f) := by
  refine ⟨(modThr_within (M := 128) s c t f (by decide) (.refl _ _)).changesOnly _ (by intro p; cases p <;> decide),
    fun k => modThr_field (g := fun cl => { cl with threads := [] }) (fun _ _ => rfl) s c t f k, fun k n hkn => ?_⟩
  by_cases hn : n = t
  · exact congrArg (thrOf · n) (clAt_modCl_other _ fun hk => hkn ⟨hk, hn⟩)
  · exact thrAt_modThr_other f hn k

theorem onlyThread_wait (s : State) (c t : Nat) (w : Wait) : OnlyThread c t s (wait s c t w) := onlyThread_modThr s c t _

theorem thrAt_wait {s : State} {c t : Nat} (w : Wait) (h : HasThread s c t) :
    thrAt (wait s c t w) c t = { thrAt s c t with state := .waiting, wait := w } :=
  thrAt_modThr_same _ h

/-! ### The order of threads (R165) -/

/-- By class, then by least recent issue. -/
theorem goesFirst_iff {s : State} {a b : Thread} :
    goesFirst s a b = true ↔
      seqClass s a.seq < seqClass s b.seq ∨ seqClass s a.seq = seqClass s b.seq ∧ a.stamp < b.stamp := by
  simp [goesFirst]

theorem goesFirst_irrefl (s : State) (a : Thread) : goesFirst s a a = false := by
  rw [← Bool.not_eq_true, goesFirst_iff]
  omega

theorem not_goesFirst_trans {s : State} {x a b : Thread} (hxb : goesFirst s x b = false) (hab : goesFirst s a b = true) :
    goesFirst s x a = false := by
  rw [← Bool.not_eq_true, goesFirst_iff] at hxb ⊢
  rw [goesFirst_iff] at hab
  omega

/-- The cluster may issue from the thread. -/
def mayGo (s : State) (c t : Nat) : Bool :=
  (thrAt s c t).state == .ready && !t4Held s c t (thrAt s c t).item

theorem mayGo_iff {s : State} {c t : Nat} :
    mayGo s c t = true ↔ (thrAt s c t).state = .ready ∧ t4Held s c t (thrAt s c t).item = false := by
  simp [mayGo]

/-- The better of the best thread so far and the next one. -/
def betterThread (s : State) (c : Nat) (best : Option Nat) (t : Nat) : Option Nat :=
  if mayGo s c t then
    best.elim (some t) fun b => if goesFirst s (thrAt s c t) (thrAt s c b) then some t else some b
  else best

theorem pickThread_eq (s : State) (c : Nat) :
    pickThread s c = (List.range (clAt s c).threads.length).foldl (betterThread s c) none := by
  unfold pickThread
  dsimp only
  congr 1
  funext best t
  have hgo : ((thrOf (clAt s c) t).state != .ready || t4Held s c t (thrOf (clAt s c) t).item) = !mayGo s c t := by
    rw [mayGo, Bool.not_and, Bool.not_not]
    rfl
  rw [hgo]
  unfold betterThread
  cases mayGo s c t <;> cases best <;> rfl

/-- No thread below `n` goes before the best. -/
def IsBest (s : State) (c n : Nat) (best : Option Nat) : Prop :=
  (∀ b, best = some b → mayGo s c b = true) ∧
    ∀ k, k < n → mayGo s c k = true → ∃ b, best = some b ∧ goesFirst s (thrAt s c k) (thrAt s c b) = false

theorem IsBest.better {s : State} {c n : Nat} {best : Option Nat} (h : IsBest s c n best) :
    IsBest s c (n + 1) (betterThread s c best n) := by
  obtain ⟨hgo, hfirst⟩ := h
  unfold betterThread
  split
  next hn =>
    cases best with
    | none =>
      refine ⟨fun b hb => Option.some.inj hb ▸ hn, fun k hk hkgo => ?_⟩
      rcases Nat.lt_succ_iff_lt_or_eq.mp hk with hlt | rfl
      · obtain ⟨b, hb, -⟩ := hfirst k hlt hkgo
        cases hb
      · exact ⟨k, rfl, goesFirst_irrefl _ _⟩
    | some b =>
      dsimp only [Option.elim]
      split
      next hnb =>
        refine ⟨fun x hx => Option.some.inj hx ▸ hn, fun k hk hkgo => ⟨n, rfl, ?_⟩⟩
        rcases Nat.lt_succ_iff_lt_or_eq.mp hk with hlt | rfl
        · obtain ⟨_, hb, hkb⟩ := hfirst k hlt hkgo
          cases hb
          exact not_goesFirst_trans hkb hnb
        · exact goesFirst_irrefl _ _
      next hnb =>
        refine ⟨hgo, fun k hk hkgo => ?_⟩
        rcases Nat.lt_succ_iff_lt_or_eq.mp hk with hlt | rfl
        · exact hfirst k hlt hkgo
        · exact ⟨b, rfl, by simpa using hnb⟩
  next hn =>
    refine ⟨hgo, fun k hk hkgo => ?_⟩
    rcases Nat.lt_succ_iff_lt_or_eq.mp hk with hlt | rfl
    · exact hfirst k hlt hkgo
    · exact absurd hkgo hn

theorem pickThread_isBest (s : State) (c : Nat) : IsBest s c (clAt s c).threads.length (pickThread s c) := by
  have hbest : ∀ n, IsBest s c n ((List.range n).foldl (betterThread s c) none) := by
    intro n
    induction n with
    | zero => exact ⟨nofun, fun _ hk => absurd hk (Nat.not_lt_zero _)⟩
    | succ n ih =>
      rw [List.range_succ, List.foldl_append]
      exact ih.better
  rw [pickThread_eq]
  exact hbest _

/-- The picked thread may issue, and no thread that may goes before it. -/
theorem pickThread_first {s : State} {c t : Nat} (h : pickThread s c = some t) :
    mayGo s c t = true ∧ ∀ k, mayGo s c k = true → goesFirst s (thrAt s c k) (thrAt s c t) = false := by
  obtain ⟨hgo, hfirst⟩ := pickThread_isBest s c
  refine ⟨hgo t h, fun k hk => ?_⟩
  have hthr : HasThread s c k := hasThread_of_not_free (by rw [(mayGo_iff.mp hk).1]; decide)
  obtain ⟨b, hb, hkb⟩ := hfirst k hthr.2 hk
  cases h.symm.trans hb
  exact hkb

/-! ### What an issue leaves of the clusters (R165, R167) -/

theorem thrOf_freeExited (cl : ClusterSt) (k : Nat) :
    thrOf (freeExited cl) k = if (thrOf cl k).state = .exited then Thread.reset else thrOf cl k := by
  have hmap := unit_map cl.threads k (fun h => if h.state == .exited then Thread.reset else h) Thread.reset
  unfold thrOf freeExited
  rw [hmap]
  by_cases hk : k < cl.threads.length
  · simp [hk]
  · rw [if_neg hk, unit_of_length_le _ (Nat.le_of_not_lt hk)]
    rfl

section
variable {s : State} {c : Nat} (nbytes t : Nat) (pc : Word64)

theorem clAt_issuedFrom (hc : c < s.cl.length) :
    clAt (issuedFrom s c nbytes t pc) c = { freeExited (clAt s c) with
      issues := (clAt s c).issues + 1
      threads := (freeExited (clAt s c)).threads.modify t fun h =>
        { h with pc := pc + BitVec.ofNat 64 nbytes, stamp := (clAt s c).issues + 1 } } := by
  unfold issuedFrom
  rw [clAt_modCl_same _ (by rw [fetchXl_cl, modCl_cl_length]; exact hc), clAt_congr (fetchXl_cl _ _ _ _),
    clAt_modCl_same _ hc]
  rfl

theorem clAt_issuedFrom_other {e : Nat} (he : e ≠ c) : clAt (issuedFrom s c nbytes t pc) e = clAt s e := by
  unfold issuedFrom
  rw [clAt_modCl_other _ he, clAt_congr (fetchXl_cl _ _ _ _), clAt_modCl_other _ he]

theorem thrAt_issuedFrom (h : HasThread s c t) (k : Nat) :
    thrAt (issuedFrom s c nbytes t pc) c k =
      if k = t then { thrOf (freeExited (clAt s c)) t with
        pc := pc + BitVec.ofNat 64 nbytes, stamp := (clAt s c).issues + 1 }
      else thrOf (freeExited (clAt s c)) k := by
  have hlen : t < (freeExited (clAt s c)).threads.length := by
    rw [freeExited, List.length_map]
    exact h.2
  unfold thrAt
  rw [clAt_issuedFrom nbytes t pc h.1]
  refine (unit_modify _ _ _ _ _).trans ?_
  simp only [hlen, and_true]
  rfl

theorem issuedFrom_within : Within 251659682 s (issuedFrom s c nbytes t pc) :=
  modCl_within _ _ _ (by decide) (fetchXl_within _ _ _ _ (by decide) (modCl_within _ _ _ (by decide) (.refl _ _)))

end

/-- What an issue may change. -/
theorem issued_within {s u : State} {c nbytes t : Nat} {pc : Word64} (h : issued s c nbytes = some (t, pc, u)) :
    Within 251659682 s u := by
  obtain ⟨-, -, -, -, -, rfl⟩ := issued_cases h
  exact issuedFrom_within nbytes t pc

/-- Settles O15: the fold over the threads keeps the best one, and the issue changes that thread and frees exited ones. -/
theorem issueTakesOneThread : Obligations.IssueTakesOneThread := by
  intro c n t pc s u h
  have hchg := (issued_within h).changesOnly (eventParts ++ [.cl, .mem, .stackBytes, .xlt]) (by intro p; cases p <;> decide)
  obtain ⟨hmay, hpick, hpc, -, -, rfl⟩ := issued_cases h
  obtain ⟨hgo, hfirst⟩ := pickThread_first hpick
  obtain ⟨hready, hheld⟩ := mayGo_iff.mp hgo
  have hthr : HasThread s c t := hasThread_of_not_free (by rw [hready]; decide)
  have hfree : thrOf (freeExited (clAt s c)) t = thrAt s c t := by
    rw [thrOf_freeExited, if_neg (by rw [show (thrOf (clAt s c) t).state = .ready from hready]; decide)]
    rfl
  refine ⟨hmay, hready, ?_, hheld, fun k hk hkh => hfirst k (mayGo_iff.mpr ⟨hk, hkh⟩), ?_, fun k hk => ?_,
    fun e he => clAt_issuedFrom_other n t pc he, hchg⟩
  · rw [hpc, thrAt, clAt_modCl_same _ hthr.1, hfree]
  · rw [thrAt_issuedFrom n t pc hthr, if_pos rfl, hfree]
  · rw [thrAt_issuedFrom n t pc hthr, if_neg hk, thrOf_freeExited]
    rfl

end Sys2Proof.Machine
end

section
/-! Fences, waits and the ends of a thread (09 R170, R173-R175, 11 R210, 15 R283). -/

namespace Sys2Proof.Machine

/-! ### Fences and waits -/

theorem mfence_done {s : State} {c t : Nat} (h : t4Busy s c t (thrAt s c t).item = false) : mfence c t s = s :=
  if_neg (by rw [h]; decide)

theorem mfence_open {s : State} {c t : Nat} (h : t4Busy s c t (thrAt s c t).item = true) :
    mfence c t s = wait s c t .mfence :=
  if_pos h

theorem dwait_done {s : State} {c t : Nat} (h : (liveCmds s).any (byThread c t (thrAt s c t).item) = false) :
    dwait c t s = s :=
  if_neg (by rw [h]; decide)

theorem dwait_open {s : State} {c t : Nat} (h : (liveCmds s).any (byThread c t (thrAt s c t).item) = true) :
    dwait c t s = wait s c t .dwait :=
  if_pos h

theorem cwait_done {s : State} {c t : Nat} (h : colBusy s c t (thrAt s c t).item = false) : cwait c t s = s :=
  if_neg (by rw [h]; decide)

theorem cwait_open {s : State} {c t : Nat} (h : colBusy s c t (thrAt s c t).item = true) :
    cwait c t s = wait s c t .cwait :=
  if_pos h

theorem exitThread_done {s : State} {c t : Nat} (h : t4Busy s c t (thrAt s c t).item = false) :
    exitThread c t s = threadExit s c t :=
  if_neg (by rw [h]; decide)

theorem exitThread_open {s : State} {c t : Nat} (h : t4Busy s c t (thrAt s c t).item = true) :
    exitThread c t s = wait s c t .exitFence :=
  if_pos h

section
variable {c : Cluster} {s u : State} {t : Nat} {pc : Word64} (h : issued s c 8 = some (t, pc, u)) (w : BitVec 56)
include h

theorem exec_mfence : exec (.mfence c w) s = .next (mfence c t u) :=
  congrArg Host.Outcome.next (issue_of_issued h fun t _ s => mfence c t s)

theorem exec_dwait : exec (.dwait c w) s = .next (dwait c t u) :=
  congrArg Host.Outcome.next (issue_of_issued h fun t _ s => dwait c t s)

theorem exec_cwait : exec (.cwait c w) s = .next (cwait c t u) :=
  congrArg Host.Outcome.next (issue_of_issued h fun t _ s => cwait c t s)

theorem exec_tfence : exec (.tfence c w) s = .next (wait u c t .tfence) :=
  congrArg Host.Outcome.next (issue_of_issued h fun t _ s => wait s c t .tfence)

theorem exec_exit : exec (.exit c w) s = .next (exitThread c t u) :=
  congrArg Host.Outcome.next (issue_of_issued h fun t _ s => exitThread c t s)

theorem exec_susp : exec (.susp c w) s = .next (threadFault u c t pc bSEQ 40 0xFFFF) :=
  congrArg Host.Outcome.next (issue_of_issued h fun t pc s => threadFault s c t pc bSEQ 40 0xFFFF)

end

/-! ### Threads at a barrier -/

/-- A thread after its barrier is released. -/
def letGo (num : Nat) (scope : Bool) (id : Nat) (h : Thread) : Thread := if atBarrier num scope id h then unwait h else h

theorem thrOf_map {f : Thread → Thread} (hf : f Thread.reset = Thread.reset) (cl : ClusterSt) (k : Nat) :
    thrOf { cl with threads := cl.threads.map f } k = f (thrOf cl k) := by
  have hmap := unit_map cl.threads k f Thread.reset
  unfold thrOf
  rw [hmap]
  split
  next => rfl
  next hk => rw [unit_of_length_le _ (Nat.le_of_not_lt hk), hf]

/-- A change of every thread of the device. -/
theorem thrAt_map {g : ClusterSt → ClusterSt} {f : Thread → Thread} (hg : ∀ cl k, thrOf (g cl) k = f (thrOf cl k))
    (hf : f Thread.reset = Thread.reset) {s z : State} (hz : z.cl = s.cl.map g) (k m : Nat) :
    thrAt z k m = f (thrAt s k m) := by
  unfold thrAt clAt
  rw [hz, unit_map]
  split
  next => exact hg _ _
  next hk => rw [unit_of_length_le _ (Nat.le_of_not_lt hk), thrOf_reset, hf]

theorem release_cluster (s : State) (slot : Nat) (i : Item) (c id : Nat) :
    release s slot i c false id =
      modCl s c fun cl => { cl with threads := cl.threads.map (letGo i.num false id) } := rfl

/-- What the release of a barrier leaves of every thread. -/
theorem thrAt_release (s : State) (slot : Nat) (i : Item) (c : Nat) (scope : Bool) (id k m : Nat) :
    thrAt (release s slot i c scope id) k m =
      if scope = true ∨ k = c then letGo i.num scope id (thrAt s k m) else thrAt s k m := by
  have hreset : letGo i.num scope id Thread.reset = Thread.reset := rfl
  cases scope with
  | true =>
    rw [if_pos (.inl rfl)]
    exact thrAt_map (thrOf_map hreset) hreset (s := s) (z := release s slot i c true id) rfl k m
  | false =>
    rw [release_cluster]
    unfold thrAt
    rw [clAt_modCl]
    by_cases hk : k = c
    · subst hk
      rw [if_pos (Or.inr rfl)]
      split
      next => exact thrOf_map hreset _ m
      next hc =>
        have hlen : s.cl.length ≤ k := Nat.le_of_not_lt fun hlt => hc ⟨rfl, hlt⟩
        unfold clAt
        rw [unit_of_length_le _ hlen, thrOf_reset, hreset]
    · rw [if_neg fun e => hk e.1, if_neg fun e => e.elim (fun h => nomatch h) hk]

theorem atBarrier_letGo (num : Nat) (scope : Bool) (id : Nat) (h : Thread) :
    atBarrier num scope id (letGo num scope id h) = false := by
  unfold letGo
  split
  · simp [atBarrier, unwait]
  next h => simpa using h

/-- A barrier is released or nothing happens. -/
theorem settleBarrier_cases (s : State) (slot num c : Nat) (scope : Bool) (id : Nat) :
    settleBarrier s slot num c scope id = s ∨
      ∃ i, settleBarrier s slot num c scope id = release s slot i c scope id := by
  unfold settleBarrier
  split
  · exact .inl rfl
  next i _ =>
    dsimp only
    split
    · exact .inl rfl
    · exact (Decidable.em _).elim (fun h => .inr ⟨i, if_pos h⟩) fun h => .inl (if_neg h)

/-! ### A thread that has exited stays so -/

/-- A thread that has exited runs no item. -/
theorem ofItem_of_exited {h : Thread} (hx : h.state = .exited) (num : Nat) : ofItem h num = false := by
  simp [ofItem, hx]

theorem letGo_of_exited {h : Thread} (hx : h.state = .exited) (num : Nat) (scope : Bool) (id : Nat) :
    letGo num scope id h = h := by
  unfold letGo atBarrier
  rw [ofItem_of_exited hx]
  rfl

theorem settleBarrier_exited {s : State} {k m : Nat} (hx : (thrAt s k m).state = .exited) (slot num c : Nat)
    (scope : Bool) (id : Nat) : (thrAt (settleBarrier s slot num c scope id) k m).state = .exited := by
  rcases settleBarrier_cases s slot num c scope id with h | ⟨i, h⟩
  · rw [h, hx]
  · rw [h, thrAt_release, letGo_of_exited hx]
    split <;> exact hx

theorem thrAt_dropThreads (s : State) (num k m : Nat) :
    thrAt (dropThreads s num) k m = if ofItem (thrAt s k m) num then Thread.reset else thrAt s k m :=
  thrAt_map (g := clDropItem num) (f := fun h => if ofItem h num then Thread.reset else h)
    (fun cl j => thrOf_map (f := fun h => if ofItem h num then Thread.reset else h) rfl cl j) rfl rfl k m

theorem writeDone_cl (s : State) (i : Item) (k : Nat) : (writeDone s i k).cl = s.cl :=
  (writeDone_within (M := 251659554) s i k (by decide) (.refl _ _)).cl.resolve_left (by decide)

theorem itemEnd_exited {s : State} {k m : Nat} (hx : (thrAt s k m).state = .exited) (slot num b : Nat) :
    (thrAt (itemEnd s slot num b) k m).state = .exited := by
  unfold itemEnd
  split
  · exact hx
  next i _ =>
    rw [show thrAt (removeItem (writeDone s i b) slot num) k m = thrAt (dropThreads (writeDone s i b) num) k m from rfl,
      thrAt_dropThreads, thrAt_congr (writeDone_cl s i b), ofItem_of_exited hx]
    exact hx

theorem itemDone_exited {s : State} {k m : Nat} (hx : (thrAt s k m).state = .exited) (slot num : Nat) :
    (thrAt (itemDone s slot num) k m).state = .exited := by
  unfold itemDone
  split
  · exact hx
  · exact itemEnd_exited (s := noteCharge s slot) hx slot num 0

/-! ### An item that is done leaves its list (13 R249) -/

theorem itemOf_congr {s z : State} {slot : Nat} (h : (seqAt z slot).items = (seqAt s slot).items) (num : Nat) :
    itemOf z slot num = itemOf s slot num := by
  unfold itemOf
  rw [h]

/-- A change of a sequence that keeps its items keeps every item. -/
theorem itemOf_modSeq {s : State} {n slot num : Nat} {f : SeqSlot → SeqSlot} (hf : ∀ q, (f q).items = q.items) :
    itemOf (modSeq s n f) slot num = itemOf s slot num := by
  refine itemOf_congr ?_ num
  rw [seqAt_modSeq]
  split
  next h => rw [h.1, hf]
  next => rfl

theorem itemOf_num {s : State} {slot num : Nat} {i : Item} (h : itemOf s slot num = some i) : i.num = num := by
  simpa using List.find?_some h

theorem itemOf_removeItem (s : State) (slot num : Nat) : itemOf (removeItem s slot num) slot num = none := by
  have hitems : (seqAt (removeItem s slot num) slot).items = (seqAt s slot).items.filter (·.num != num) := by
    refine (congrArg SeqSlot.items (seqAt_modSeq s slot (fun q => { q with items := q.items.filter (·.num != num) })
      slot)).trans ?_
    by_cases h : slot < s.seq.length
    · rw [if_pos ⟨rfl, h⟩]
    · rw [if_neg fun e => h e.2, seqAt, unit_of_length_le _ (Nat.le_of_not_lt h)]
      rfl
  unfold itemOf
  rw [hitems, List.find?_eq_none]
  intro i hi
  simpa using (List.mem_filter.mp hi).2

theorem itemEnd_removes {s : State} {slot num : Nat} {i : Item} (h : itemOf s slot num = some i) (b : Nat) :
    itemOf (itemEnd s slot num b) slot num = none := by
  unfold itemEnd
  rw [h]
  exact itemOf_removeItem _ _ _

theorem itemOf_noteCharge (s : State) (slot num : Nat) : itemOf (noteCharge s slot) slot num = itemOf s slot num := by
  unfold noteCharge
  exact itemOf_modSeq fun _ => rfl

theorem itemDone_removes {s : State} {slot num : Nat} {i : Item} (h : itemOf s slot num = some i) :
    itemOf (itemDone s slot num) slot num = none := by
  unfold itemDone
  rw [h]
  dsimp only
  rw [itemOf_modSeq fun _ => by rfl]
  exact itemEnd_removes ((itemOf_noteCharge s slot num).trans h) 0

/-! ### EXIT (R170, R175) -/

/-- Where an item has no thread left, none waits at a barrier. -/
theorem openBarriers_of_liveAll {s : State} {i : Item} (h : liveAll s i = 0) : openBarriers s i.num = [] := by
  have hlive : ∀ cl ∈ s.cl, liveOn cl i.num = 0 := fun cl hcl =>
    (List.sum_eq_zero_iff_forall_eq_nat.mp (Nat.add_eq_zero_iff.mp h).1) _ (List.mem_map_of_mem hcl)
  unfold openBarriers
  rw [List.flatMap_eq_nil_iff]
  intro c hc
  have hmem : clAt s c ∈ s.cl := by
    unfold clAt unit
    rw [← List.getElem_eq_getD (h := List.mem_range.mp hc)]
    exact List.getElem_mem _
  rw [List.filterMap_eq_nil_iff]
  intro x hx
  have hno : ofItem x i.num = false := by
    have hnil := List.length_eq_zero_iff.mp (hlive _ hmem)
    simpa using List.filter_eq_nil_iff.mp hnil x hx
  rw [hno]

/-- The state as a thread has exited, before its barriers and its item are looked at. -/
def exited (s : State) (c t : Nat) : State := modThr s c t fun h => { h with state := .exited, wait := .none }

theorem threadExit_eq (s : State) (c t : Nat) :
    threadExit s c t =
      let s2 := each (openBarriers (exited s c t) (thrAt s c t).item)
        (fun z b => settleBarrier z (thrAt s c t).seq (thrAt s c t).item b.1 b.2.1 b.2.2) (exited s c t)
      match itemOf s2 (thrAt s c t).seq (thrAt s c t).item with
      | none => s2
      | some i => if liveAll s2 i = 0 then itemDone s2 (thrAt s c t).seq (thrAt s c t).item else s2 := rfl

theorem threadExit_exited {s : State} {c t : Nat} (h : HasThread s c t) :
    (thrAt (threadExit s c t) c t).state = .exited := by
  have hone : (thrAt (exited s c t) c t).state = .exited := congrArg Thread.state (thrAt_modThr_same _ h)
  have hall : (thrAt (each (openBarriers (exited s c t) (thrAt s c t).item)
      (fun z b => settleBarrier z (thrAt s c t).seq (thrAt s c t).item b.1 b.2.1 b.2.2) (exited s c t)) c t).state =
      .exited :=
    List.foldlRecOn (motive := fun z => (thrAt z c t).state = .exited) _ _ hone
      fun z hz b _ => settleBarrier_exited hz _ _ _ _ _
  rw [threadExit_eq]
  dsimp only
  split
  · exact hall
  · split
    · exact itemDone_exited hall _ _
    · exact hall

/-- The last thread of an item takes the item off its list. -/
theorem threadExit_last {s : State} {c t : Nat} {i : Item} (hi : itemOf s (thrAt s c t).seq (thrAt s c t).item = some i)
    (hlast : liveAll (exited s c t) i = 0) :
    itemOf (threadExit s c t) (thrAt s c t).seq (thrAt s c t).item = none := by
  have hnone : openBarriers (exited s c t) (thrAt s c t).item = [] := itemOf_num hi ▸ openBarriers_of_liveAll hlast
  have hix : itemOf (exited s c t) (thrAt s c t).seq (thrAt s c t).item = some i := hi
  rw [threadExit_eq, hnone]
  dsimp only [each, List.foldl_nil]
  rw [hix]
  dsimp only
  rw [if_pos hlast]
  exact itemDone_removes hix

/-! ### Termination (R174) -/

theorem modSeq_seq_length (s : State) (n : Nat) (f : SeqSlot → SeqSlot) : (modSeq s n f).seq.length = s.seq.length :=
  List.length_modify _ _ _

theorem spoil_seq_length (item : Nat) (s : State) : (spoil item s).seq.length = s.seq.length := List.length_map _

theorem copyPoisoned_seq (s : State) (va n : Nat) : (copyPoisoned s va n).seq = s.seq :=
  (copyPoisoned_within (M := 251663650) s va n (by decide) (.refl _ _)).seq.resolve_left (by decide)

theorem poisonReport_seq_length (c : DmaCmd) (s : State) : (poisonReport c s).seq.length = s.seq.length := by
  unfold poisonReport
  split
  · split
    · rfl
    · dsimp only
      split
      · rw [spoil_seq_length, copyPoisoned_seq]
      · rw [copyPoisoned_seq]
  · rfl

theorem complete_seq_length (s : State) (e : Nat) (c : DmaCmd) (status : Nat) :
    (complete s e c status).seq.length = s.seq.length := by
  unfold complete
  rw [(finishCmd_within (M := 251659690) (poisonReport c s) e c status _ (by decide) (.refl _ _)).seq.resolve_left
    (by decide), poisonReport_seq_length]

theorem stallEnd_seq_length (s : State) (e oldest : Nat) : (stallEnd s e oldest).seq.length = s.seq.length := by
  unfold stallEnd
  split
  · rfl
  · split
    · rfl
    · rw [modEng_seq]
      unfold chargeSince
      dsimp only
      split
      · rfl
      · exact modSeq_seq_length _ _ _

/-- Ending commands of a list with status ABORTED. -/
theorem abortEach_seq_length {α : Type} (e : α → Nat) (k : α → DmaCmd) (l : List α) (s : State) :
    (each l (fun s p => complete s (e p) (k p) stABORTED) s).seq.length = s.seq.length :=
  each_field (v := fun s => s.seq.length) (fun s p => complete_seq_length s (e p) (k p) stABORTED) l s

theorem abortOnEngine_seq_length (num : Nat) (s : State) (e : Nat) :
    (abortOnEngine num s e).seq.length = s.seq.length := by
  unfold abortOnEngine
  refine (abortEach_seq_length (fun _ => e) (fun k => k) _ _).trans ?_
  rw [each_field (v := fun s => s.seq.length) (f := dropFault) (fun _ _ => rfl), stallEnd_seq_length, modEng_seq]

theorem abortOnCtx_seq_length (num : Nat) (s : State) (x : Nat) : (abortOnCtx num s x).seq.length = s.seq.length := by
  unfold abortOnCtx
  dsimp only
  rw [abortEach_seq_length (fun p : Nat × DmaCmd => p.1) (fun p => p.2),
    abortEach_seq_length (fun p : Picture => p.eng) (fun p => p.cmd), modCtx_seq]

theorem abortOnUnit_seq (num : Nat) (s : State) (q : Nat) : (abortOnUnit num s q).seq = s.seq :=
  (abortOnUnit_within (M := 251725218) num s q (by decide) (.refl _ _)).seq.resolve_left (by decide)

theorem devPut_seq (s : State) (ad : Ad) (bs : List Byte) : (devPut s ad bs).seq = s.seq :=
  (devPut_within (M := 251659554) s ad bs (by decide) (.refl _ _)).seq.resolve_left (by decide)

/-- What terminates an item ends by marking its sequence; before that, no slot came or went. -/
theorem terminate_ends_marking {s : State} {slot num : Nat} {i : Item} (hi : itemOf s slot num = some i)
    (ht : i.terminated = false) (x : FaultCause) :
    ∃ v, v.seq.length = s.seq.length ∧
      terminate s slot num x =
        raise (freeSuspended (modSeq v slot fun q => { q with fault := true, departNext := true }) num)
          bSEQ 43 (locSlot slot) slot 0 := by
  unfold terminate
  rw [hi]
  dsimp only
  rw [if_neg (by rw [ht]; decide)]
  refine ⟨_, ?_, rfl⟩
  rw [modItem, modSeq_seq_length]
  have habort : ∀ z : State, (each (List.range 4) (abortOnUnit num) (each (List.range 128) (abortOnCtx num)
      (each (List.range 64) (abortOnEngine num) z))).seq.length = z.seq.length := fun z => by
    rw [each_field (v := fun s => s.seq.length) (fun s q => congrArg List.length (abortOnUnit_seq num s q)),
      each_field (v := fun s => s.seq.length) (abortOnCtx_seq_length num),
      each_field (v := fun s => s.seq.length) (abortOnEngine_seq_length num)]
  have hstart : (suspendThreads (withdraw (noteCharge s slot) num) num).seq.length = s.seq.length :=
    modSeq_seq_length _ _ _
  split
  · rw [devPut_seq, habort, hstart]
  · rw [habort, hstart]

/-- The sequence of a terminated item is marked FAULT and departs next (R174). -/
theorem terminate_marks {s : State} {slot num : Nat} {i : Item} (hslot : slot < s.seq.length)
    (hi : itemOf s slot num = some i) (ht : i.terminated = false) (x : FaultCause) :
    (seqAt (terminate s slot num x) slot).fault = true ∧ (seqAt (terminate s slot num x) slot).departNext = true := by
  obtain ⟨v, hv, heq⟩ := terminate_ends_marking hi ht x
  rw [heq, seqAt_congr (raise_seq _ _ _ _ _ _)]
  have hmark := seqAt_modSeq_of_lt (s := v) (n := slot) (fun q => { q with fault := true, departNext := true })
    (by rw [hv]; exact hslot) slot
  rw [if_pos rfl] at hmark
  exact ⟨congrArg SeqSlot.fault hmark, congrArg SeqSlot.departNext hmark⟩

/-- Settles O16: each instruction's effect is the state of the issue, that state with the thread waiting, its exit or its
item's termination. -/
theorem fencesWaitsAndEnds : Obligations.FencesWaitsAndEnds := by
  intro c w s u t pc hiss
  have hthr : HasThread u c t := hasThread_of_issued hiss
  have hwait : ∀ wt, OnlyThread c t u (wait u c t wt) ∧
      thrAt (wait u c t wt) c t = { thrAt u c t with state := .waiting, wait := wt } :=
    fun wt => ⟨onlyThread_wait u c t wt, thrAt_wait wt hthr⟩
  refine ⟨fun h => ?_, fun h => ⟨_, ?_, hwait .mfence⟩, fun h => ?_, fun h => ⟨_, ?_, hwait .dwait⟩, fun h => ?_,
    fun h => ⟨_, ?_, hwait .cwait⟩, ⟨_, exec_tfence hiss w, hwait .tfence⟩, fun h => ⟨_, ?_, hwait .exitFence⟩,
    fun h => ⟨_, exec_exit hiss w, ?_⟩, _, exec_susp hiss w, rfl, fun i hslot hi ht => ?_⟩
  · rw [exec_mfence hiss, mfence_done h]
  · rw [exec_mfence hiss, mfence_open h]
  · rw [exec_dwait hiss, dwait_done h]
  · rw [exec_dwait hiss, dwait_open h]
  · rw [exec_cwait hiss, cwait_done h]
  · rw [exec_cwait hiss, cwait_open h]
  · rw [exec_exit hiss, exitThread_open h]
  · rw [exitThread_done h]
    exact ⟨threadExit_exited hthr, fun i hi hlast => threadExit_last hi hlast⟩
  · have hseq : (raise u bSEQ 40 (locCluster c) (thrAt u c t).seq 0).seq = u.seq := raise_seq _ _ _ _ _ _
    exact terminate_marks (by rw [hseq]; exact hslot)
      ((itemOf_congr (congrArg SeqSlot.items (seqAt_congr hseq _)) _).trans hi) ht _

end Sys2Proof.Machine
end

section
/-! Barriers (09 R171). -/

namespace Sys2Proof.Machine

/-! ### Threads that have arrived -/

theorem exists_thrAt_of_mem_threads {s : State} {k : Nat} {h : Thread} (hh : h ∈ (clAt s k).threads) :
    ∃ m, thrAt s k m = h := by
  obtain ⟨m, hm, rfl⟩ := List.mem_iff_getElem.mp hh
  exact ⟨m, (List.getElem_eq_getD (h := hm) _).symm⟩

theorem exists_clAt_of_mem {s : State} {cl : ClusterSt} (h : cl ∈ s.cl) : ∃ k, clAt s k = cl := by
  obtain ⟨k, hk, rfl⟩ := List.mem_iff_getElem.mp h
  exact ⟨k, (List.getElem_eq_getD (h := hk) _).symm⟩

theorem HasThread.mem {s : State} {k m : Nat} (h : HasThread s k m) :
    clAt s k ∈ s.cl ∧ thrAt s k m ∈ (clAt s k).threads := by
  obtain ⟨hk, hm⟩ := h
  constructor
  · rw [clAt, unit, ← List.getElem_eq_getD (h := hk)]
    exact List.getElem_mem _
  · rw [thrAt, thrOf, unit, ← List.getElem_eq_getD (h := hm)]
    exact List.getElem_mem _

theorem not_free_of_atBarrier {num id : Nat} {scope : Bool} {h : Thread} (hb : atBarrier num scope id h = true) :
    h.state ≠ .free := by
  simp only [atBarrier, ofItem, Bool.and_eq_true, bne_iff_ne] at hb
  exact hb.1.1.1.1

/-- A thread has arrived where it waits at the barrier on a cluster of the scope, or in an image of its item. -/
theorem mem_arrived_iff {s : State} {i : Item} {c : Nat} {scope : Bool} {id : Nat} {h : Thread} :
    h ∈ arrived s i c scope id ↔ atBarrier i.num scope id h = true ∧
      ((∃ k m, (scope = true ∨ k = c) ∧ thrAt s k m = h) ∨
        scope = true ∧ h ∈ i.saves.flatMap fun m => m.threads.map (·.2)) := by
  have hmem : ∀ {k m}, atBarrier i.num scope id (thrAt s k m) = true →
      clAt s k ∈ s.cl ∧ thrAt s k m ∈ (clAt s k).threads :=
    fun hb => (hasThread_of_not_free (not_free_of_atBarrier hb)).mem
  cases scope with
  | true =>
    simp only [arrived, if_true, List.mem_append, List.mem_flatMap, List.mem_filter, true_or, true_and]
    constructor
    · rintro (⟨cl, hcl, hh, hb⟩ | ⟨m, hm, hh, hb⟩)
      · obtain ⟨k, rfl⟩ := exists_clAt_of_mem hcl
        obtain ⟨m, hm⟩ := exists_thrAt_of_mem_threads hh
        exact ⟨hb, .inl ⟨k, m, hm⟩⟩
      · exact ⟨hb, .inr ⟨m, hm, hh⟩⟩
    · rintro ⟨hb, ⟨k, m, rfl⟩ | ⟨m, hm, hh⟩⟩
      · obtain ⟨hk, hm⟩ := hmem hb
        exact .inl ⟨clAt s k, hk, hm, hb⟩
      · exact .inr ⟨m, hm, hh, hb⟩
  | false =>
    simp only [arrived, Bool.false_eq_true, if_false, List.mem_filter, false_or, false_and, or_false]
    constructor
    · rintro ⟨hh, hb⟩
      obtain ⟨m, hm⟩ := exists_thrAt_of_mem_threads hh
      exact ⟨hb, c, m, rfl, hm⟩
    · rintro ⟨hb, k, m, rfl, rfl⟩
      exact ⟨(hmem hb).2, hb⟩

/-- A thread begins to wait at a barrier. -/
theorem atBarrier_wait {u : State} {c t : Nat} {i : Item} {scope : Bool} {id count : Nat} (ht : HasThread u c t)
    (hnum : i.num = (thrAt u c t).item) :
    atBarrier i.num scope id (thrAt (wait u c t (.barrier scope id count)) c t) = true := by
  rw [thrAt_wait _ ht]
  simp [atBarrier, ofItem, hnum]

/-- As a thread arrives, it is among those at the barrier, and every other one was there. -/
theorem arrived_wait {u : State} {c t : Nat} {i : Item} {scope : Bool} {id count : Nat} (ht : HasThread u c t)
    (hnum : i.num = (thrAt u c t).item)
    (hcount : ∀ h ∈ arrived u i c scope id, barCount h = some count) :
    arrived (wait u c t (.barrier scope id count)) i c scope id ≠ [] ∧
      ∀ h ∈ arrived (wait u c t (.barrier scope id count)) i c scope id, barCount h = some count := by
  constructor
  · exact List.ne_nil_of_mem (mem_arrived_iff.mpr ⟨atBarrier_wait ht hnum, .inl ⟨c, t, .inr rfl, rfl⟩⟩)
  · intro h hh
    obtain ⟨hb, ⟨k, m, hk, rfl⟩ | hsaved⟩ := mem_arrived_iff.mp hh
    · by_cases hkm : k = c ∧ m = t
      · obtain ⟨rfl, rfl⟩ := hkm
        rw [thrAt_wait _ ht]
        rfl
      · obtain ⟨-, -, hother⟩ := onlyThread_wait u c t (.barrier scope id count)
        rw [hother k m hkm] at hb ⊢
        exact hcount _ (mem_arrived_iff.mpr ⟨hb, .inl ⟨k, m, hk, rfl⟩⟩)
    · exact hcount h (mem_arrived_iff.mpr ⟨hb, .inr hsaved⟩)

theorem head_barCount {l : List Thread} {n : Nat} (hne : l ≠ []) (hall : ∀ h ∈ l, barCount h = some n) :
    l.head?.bind barCount = some n := by
  rw [List.head?_eq_some_head hne]
  exact hall _ (List.head_mem hne)

/-! ### The barrier (R171) -/

section
variable {v : State} {slot num c : Nat} {scope : Bool} {id n : Nat} {i : Item} (hi : itemOf v slot num = some i)
  (hne : arrived v i c scope id ≠ []) (hall : ∀ h ∈ arrived v i c scope id, barCount h = some n)
include hi hne hall

theorem settleBarrier_full (hn : n ≤ (arrived v i c scope id).length) :
    settleBarrier v slot num c scope id = release v slot i c scope id := by
  unfold settleBarrier
  rw [hi]
  dsimp only
  rw [head_barCount hne hall]
  dsimp only
  rw [if_pos (by simp [hn])]

theorem settleBarrier_short (hn : (arrived v i c scope id).length < n)
    (hfull : if scope then i.nthr * i.clusters ≤ liveAll v i else i.nthr ≤ liveOn (clAt v c) i.num) :
    settleBarrier v slot num c scope id = v := by
  have hleft : ¬(if scope then liveAll v i else liveOn (clAt v c) num) <
      (if scope then i.nthr * i.clusters else i.nthr) := by
    rw [itemOf_num hi] at hfull
    cases scope <;> exact Nat.not_lt.mpr hfull
  unfold settleBarrier
  rw [hi]
  dsimp only
  rw [head_barCount hne hall]
  dsimp only
  rw [decide_eq_false (Nat.not_le.mpr hn), decide_eq_false hleft]
  rfl

end

theorem bar_arrives {w : BitVec 56} {c t : Nat} {pc : Word64} {u : State} {i : Item} {sc : Bool}
    (hsc : wReg w 55 54 = sc.toNat) (hi : itemOf u (thrAt u c t).seq (thrAt u c t).item = some i)
    (hcount : ∀ h ∈ arrived u i c sc (wReg w 53 48), barCount h = some (wReg w 47 32)) :
    bar w c t pc u =
      settleBarrier (wait u c t (.barrier sc (wReg w 53 48) (wReg w 47 32))) (thrAt u c t).seq (thrAt u c t).item c sc
        (wReg w 53 48) := by
  have hscope : (sc.toNat == 1) = sc := by cases sc <;> rfl
  unfold bar
  dsimp only
  rw [hsc, if_neg (Nat.not_lt.mpr (Bool.toNat_le sc)), hi, hscope]
  dsimp only
  rw [if_neg (by simpa using hcount)]

theorem exec_bar {c : Cluster} {s u : State} {t : Nat} {pc : Word64} (h : issued s c 8 = some (t, pc, u)) (w : BitVec 56) :
    exec (.bar c w) s = .next (bar w c t pc u) :=
  congrArg Host.Outcome.next (issue_of_issued h fun t pc s => bar w c t pc s)

/-- Settles O17: the thread joins those at the barrier, all with its count, and the count decides. -/
theorem barrierReleasesAtItsCount : Obligations.BarrierReleasesAtItsCount := by
  rintro c w s u v t pc i sc hiss hsc hi hcount rfl
  have hthr : HasThread u c t := hasThread_of_issued hiss
  obtain ⟨hne, hall⟩ := arrived_wait hthr (itemOf_num hi) hcount
  have hiv : itemOf (wait u c t (.barrier sc (wReg w 53 48) (wReg w 47 32))) (thrAt u c t).seq (thrAt u c t).item =
      some i := hi
  refine ⟨_, exec_bar hiss w, ?_⟩
  rw [bar_arrives hsc hi hcount]
  refine ⟨fun hn k m hk => ?_, fun hn hfull => settleBarrier_short hiv hne hall hn hfull, onlyThread_wait _ _ _ _,
    (settleBarrier_within (M := 192) _ _ _ _ _ _ (by decide) (wait_within _ _ _ _ (by decide) (.refl _ _))).changesOnly _
      (by intro p; cases p <;> decide)⟩
  rw [settleBarrier_full hiv hne hall hn, thrAt_release, if_pos hk]
  exact atBarrier_letGo _ _ _ _

end Sys2Proof.Machine
end

section
/-! LDS and STS (09 R169, R170). -/

namespace Sys2Proof.Machine

/-! ### Bytes of a number -/

theorem leBytes_length (n x : Nat) : (leBytes n x).length = n := by
  induction n generalizing x with
  | zero => rfl
  | succ n ih => exact congrArg (· + 1) (ih _)

theorem leBytes_getElem {n i : Nat} (x : Nat) (h : i < (leBytes n x).length) :
    (leBytes n x)[i] = BitVec.ofNat 8 (x / 2 ^ (8 * i)) := by
  induction n generalizing x i with
  | zero => exact absurd h (Nat.not_lt_zero _)
  | succ n ih =>
    cases i with
    | zero => simp [leBytes]
    | succ i =>
      have hpow : 256 * 2 ^ (8 * i) = 2 ^ (8 * (i + 1)) := by
        rw [Nat.mul_add, Nat.pow_add, Nat.mul_comm]
      simp only [leBytes, List.getElem_cons_succ]
      rw [ih, Nat.div_div_eq_div_mul, hpow]

/-! ### The store -/

theorem csBytes_eq (s : State) (c a n : Nat) : csBytes s c a n = (List.range n).map fun k => csByte s c (a + k) := by
  unfold csBytes memRdN csByte csKey
  simp only [Nat.add_assoc]

/-- Clusters' stores lie apart: offset `o` of cluster `e` is in a range of cluster `c` only where both are the same. -/
theorem csKey_outside {e o c a n : Nat} (ho : o < csSize) (ha : a + n ≤ csSize) (h : ¬(e = c ∧ a ≤ o ∧ o < a + n)) :
    csKey e o < csKey c a ∨ csKey c a + n ≤ csKey e o := by
  unfold csKey csSize at *
  omega

/-- What a write of the store leaves at every offset of every store. -/
theorem csByte_csWrite {s : State} (hwf : memWf zeroByte s.st.cs = true) {c a : Nat} {bs : List Byte}
    (ha : a + bs.length ≤ csSize) (e o : Nat) (ho : o < csSize) :
    csByte (csWrite s c a bs) e o = if e = c ∧ a ≤ o ∧ o < a + bs.length then bs.getD (o - a) 0 else csByte s e o := by
  change memRd zeroByte (memWrs zeroByte s.st.cs (csKey c a) bs) (csKey e o) = _
  split
  next h =>
    obtain ⟨rfl, hlo, hhi⟩ := h
    have hkey : csKey e o = csKey e a + (o - a) := by unfold csKey; omega
    have hlt : o - a < bs.length := by omega
    rw [hkey, memRd_memWrs_same bs _ _ hwf hlt, ← List.getElem_eq_getD (h := hlt)]
  next h => exact memRd_memWrs_other bs _ _ hwf (csKey_outside ho ha h)

/-! ### LDS and STS -/

theorem lsPlace_inside {h : Thread} {w : BitVec 56} {a : Nat} (ha : lsPlace h w = .inr a) : a + lsSize w ≤ csSize := by
  unfold lsPlace at ha
  dsimp only at ha
  split at ha
  · cases ha
  · split at ha
    · cases ha
    next hle =>
      cases ha
      exact Nat.le_of_not_lt hle

theorem lds_clean {w : BitVec 56} {c t a : Nat} {pc : Word64} {s : State} (ha : lsPlace (thrAt s c t) w = .inr a)
    (hclean : csBadRange s c a (lsSize w) = false) :
    lds w c t pc s =
      modThr s c t fun h => setReg h (wReg w 46 42) (BitVec.ofNat 64 (ofLE (csBytes s c a (lsSize w)))) := by
  unfold lds
  dsimp only
  rw [ha]
  exact if_neg (by rw [hclean]; decide)

theorem sts_placed {w : BitVec 56} {c t a : Nat} {pc : Word64} {s : State} (ha : lsPlace (thrAt s c t) w = .inr a) :
    sts w c t pc s = csWrite s c a (leBytes (lsSize w) (reg (thrAt s c t) (wReg w 46 42)).toNat) := by
  unfold sts
  dsimp only
  rw [ha]

section
variable {c : Cluster} {s u : State} {t : Nat} {pc : Word64} (h : issued s c 8 = some (t, pc, u)) (w : BitVec 56)
include h

theorem exec_lds : exec (.lds c w) s = .next (lds w c t pc u) :=
  congrArg Host.Outcome.next (issue_of_issued h fun t pc s => lds w c t pc s)

theorem exec_sts : exec (.sts c w) s = .next (sts w c t pc u) :=
  congrArg Host.Outcome.next (issue_of_issued h fun t pc s => sts w c t pc s)

end

/-- Settles O18: the load writes one register from the store, the store's write is read back byte by byte. -/
theorem storeLoadsAndStores : Obligations.StoreLoadsAndStores := by
  intro c w s u t a pc hsnd hiss ha
  have hthr : HasThread u c t := hasThread_of_issued hiss
  refine ⟨fun hclean => ⟨_, exec_lds hiss w, ?_, ?_⟩, _, exec_sts hiss w, ?_, fun e o ho => ?_⟩
  · rw [lds_clean ha hclean]
    exact onlyThread_modThr u c t _
  · rw [lds_clean ha hclean, thrAt_modThr_same _ hthr, csBytes_eq]
  · rw [sts_placed ha]
    exact (csWrite_within (M := 268435968) _ _ _ _ (by decide) (.refl _ _)).changesOnly _
      (by intro p; cases p <;> decide)
  · obtain ⟨-, ⟨-, hcs, -⟩, -⟩ := (issued_within hiss).sound hsnd
    have hlen := leBytes_length (lsSize w) (reg (thrAt u c t) (wReg w 46 42)).toNat
    rw [sts_placed ha, csByte_csWrite hcs (by rw [hlen]; exact lsPlace_inside ha) e o ho, hlen]
    by_cases hin : e = c.val ∧ a ≤ o ∧ o < a + lsSize w
    · have hlt : o - a < (leBytes (lsSize w) (reg (thrAt u c t) (wReg w 46 42)).toNat).length := by omega
      rw [if_pos hin, if_pos hin, ← List.getElem_eq_getD (h := hlt), leBytes_getElem]
    · rw [if_neg hin, if_neg hin]

end Sys2Proof.Machine
end

section
/-! Scalar accesses and ATOM (09 R168, R170, R172). That ATOM's compare value is free is log entry 48. -/

namespace Sys2Proof.Machine

/-! ### Accesses leave the clusters -/

theorem accPlace_cl (s : State) (c : Nat) (a : Word64) (need : Need) : (accPlace s c a need).2.cl = s.cl :=
  (accPlace_within (M := 251659554) s c a need (by decide) (.refl _ _)).cl.resolve_left (by decide)

theorem accPlace_cl_of_eq {s v : State} {c : Nat} {a : Word64} {need : Need} {p : AccPlace}
    (h : accPlace s c a need = (p, v)) : v.cl = s.cl := by
  rw [← accPlace_cl s c a need, h]

theorem readPA_cl (s : State) (pa n : Nat) : (readPA s pa n).2.cl = s.cl :=
  (readPA_within (M := 251658530) s pa n true (by decide) (.refl _ _)).cl.resolve_left (by decide)

theorem writePA_cl (s : State) (pa : Nat) (bs : List Byte) : (writePA s pa bs).cl = s.cl :=
  (writePA_within (M := 251658530) s pa bs (by decide) (.refl _ _)).cl.resolve_left (by decide)

theorem atomPA_cl (s : State) (pa : Nat) (f : Word64 → Word64) : (atomPA s pa f).2.cl = s.cl :=
  (atomPA_within (M := 251658530) s pa f (by decide) (.refl _ _)).cl.resolve_left (by decide)

/-! ### Requests to peers -/

theorem inject_xlt (s : State) (dstIdx pclass : Nat) (b : Body) : (inject s dstIdx pclass b).xlt = s.xlt :=
  (inject_within (M := 117465130) s dstIdx pclass b (by decide) (.refl _ _)).xlt.resolve_left (by decide)

section
variable (s : State) (who : Requester) (item dst : Nat) (op : MemOp) (va size : Nat) (data : List Byte) (pc : Word64)

/-- The request that is sent and remembered. -/
def t4New : T4Req :=
  ⟨s.xlt.nextReq, who, item, dst, op, va, (chunks va size).length, data, none, s.time, size, pc⟩

theorem t4Send_t4 :
    (t4Send s who item dst op va size data pc).xlt.t4 = s.xlt.t4 ++ [t4New s who item dst op va size data pc] := by
  unfold t4Send
  rw [inject_xlt]
  rfl

theorem t4Send_cl : (t4Send s who item dst op va size data pc).cl = s.cl :=
  (t4Send_within (M := 117466154) s who item dst op va size data pc (by decide) (.refl _ _)).cl.resolve_left (by decide)

end

/-! ### Scalar loads and stores -/

section
variable {a : ScalarAcc} {c t pa dst va : Nat} {pc : Word64} {u v : State} (hal : a.addr.toNat % a.size = 0)
include hal

theorem scalar_store_here (hst : a.store = true) (hp : accPlace u c a.addr .w = (.here (.stack pa), v)) :
    scalar a c t pc u = writePA v pa (leBytes a.size (reg (thrAt u c t) a.reg).toNat) := by
  unfold scalar
  dsimp only
  rw [if_neg (not_not_intro hal), hst, if_pos rfl, hp]
  rfl

theorem scalar_load_here (hst : a.store = false) (hp : accPlace u c a.addr .r = (.here (.stack pa), v))
    (hgood : (readPA v pa a.size).1.poison = false) :
    scalar a c t pc u =
      modThr (readPA v pa a.size).2 c t fun h => setReg h a.reg (BitVec.ofNat 64 (ofLE (readPA v pa a.size).1.bytes)) := by
  unfold scalar
  dsimp only
  rw [if_neg (not_not_intro hal), hst, if_neg Bool.false_ne_true, hp]
  dsimp only
  rw [if_neg Bool.false_ne_true, hgood]
  rfl

theorem scalar_store_peer (hst : a.store = true) (hp : accPlace u c a.addr .w = (.peer dst va, v))
    (hfirst : t4Before u c t (thrAt u c t).item dst va a.size = false) :
    scalar a c t pc u = t4Send u (.thread c t (thrAt u c t).item) (thrAt u c t).item dst .write va a.size
      (leBytes a.size (reg (thrAt u c t) a.reg).toNat) pc := by
  unfold scalar
  dsimp only
  rw [if_neg (not_not_intro hal), hst, if_pos rfl, hp]
  dsimp only
  rw [hfirst]
  rfl

theorem scalar_load_peer (hst : a.store = false) (hp : accPlace u c a.addr .r = (.peer dst va, v))
    (hfirst : t4Before u c t (thrAt u c t).item dst va a.size = false) :
    scalar a c t pc u = t4Send (wait u c t (.t4 u.xlt.nextReq a.reg)) (.thread c t (thrAt u c t).item)
      (thrAt u c t).item dst .read va a.size [] pc := by
  unfold scalar
  dsimp only
  rw [if_neg (not_not_intro hal), hst, if_neg Bool.false_ne_true, hp]
  dsimp only
  rw [hfirst]
  rfl

end

theorem exec_scalarAccess {c : Cluster} {s u : State} {t : Nat} {pc : Word64} (h : issued s c 8 = some (t, pc, u))
    (a : ScalarAcc) : exec (.scalarAccess c a) s = .next (scalar a c t pc u) :=
  congrArg Host.Outcome.next (issue_of_issued h fun t pc s => scalar a c t pc s)

/-! ### ATOM -/

/-- The state in which ATOM resolves its address: compare-and-swap has drawn its compare value. -/
def atomFrom (w : BitVec 56) (u : State) : State := if wReg w 55 52 = 4 then drew u else u

theorem atomFrom_cl (w : BitVec 56) (u : State) : (atomFrom w u).cl = u.cl := by
  unfold atomFrom
  split <;> rfl

theorem atomFrom_xlt (w : BitVec 56) (u : State) : (atomFrom w u).xlt = u.xlt := by
  unfold atomFrom
  split <;> rfl

section
variable {w : BitVec 56} {c t pa dst va : Nat} {pc : Word64} {u v : State} (hop : wReg w 55 52 ≤ 4)
  (hal : (reg (thrAt u c t) (wReg w 51 47)).toNat % 8 = 0)
include hop hal

theorem atom_here {y : Read × State}
    (hp : accPlace (atomFrom w u) c (reg (thrAt u c t) (wReg w 51 47)) .rw = (.here (.stack pa), v))
    (hy : y = atomPA v pa fun old =>
      atomOp (wReg w 55 52) old (reg (thrAt u c t) (wReg w 46 42)) (BitVec.ofNat 64 (drawn u 172)))
    (hgood : y.1.poison = false) :
    atom w c t pc u = modThr y.2 c t fun h => setReg h (wReg w 41 37) (BitVec.ofNat 64 (ofLE y.1.bytes)) := by
  unfold atom
  dsimp only
  rw [if_neg (Nat.not_lt.mpr hop), if_neg (not_not_intro hal), ← atomFrom, hp]
  dsimp only
  rw [← hy, hgood]
  rfl

theorem atom_peer (hp : accPlace (atomFrom w u) c (reg (thrAt u c t) (wReg w 51 47)) .rw = (.peer dst va, v))
    (hfirst : t4Before (atomFrom w u) c t (thrAt u c t).item dst va 8 = false) :
    atom w c t pc u =
      t4Send (wait (atomFrom w u) c t (.t4 (atomFrom w u).xlt.nextReq (Fin.ofNat 32 (wReg w 41 37))))
        (.thread c t (thrAt u c t).item) (thrAt u c t).item dst
        (.atom (BitVec.ofNat 4 (wReg w 55 52)) (reg (thrAt u c t) (wReg w 46 42)) (BitVec.ofNat 64 (drawn u 172))) va 8 []
        pc := by
  unfold atom
  dsimp only
  rw [if_neg (Nat.not_lt.mpr hop), if_neg (not_not_intro hal), ← atomFrom, hp]
  dsimp only
  rw [hfirst]
  rfl

end

theorem exec_atom {c : Cluster} {s u : State} {t : Nat} {pc : Word64} (h : issued s c 8 = some (t, pc, u))
    (w : BitVec 56) : exec (.atom c w) s = .next (atom w c t pc u) :=
  congrArg Host.Outcome.next (issue_of_issued h fun t pc s => atom w c t pc s)

/-- A register is written in a state with the same clusters. -/
theorem onlyThread_setReg {u z : State} {c t : Nat} (hthr : HasThread u c t) (hz : z.cl = u.cl) (n : Nat) (x : Word64) :
    OnlyThread c t z (modThr z c t fun h => setReg h n x) ∧
      thrAt (modThr z c t fun h => setReg h n x) c t = setReg (thrAt u c t) n x := by
  refine ⟨onlyThread_modThr z c t _, ?_⟩
  rw [thrAt_modThr_same _ (hthr.congr hz), thrAt_congr hz]

/-- Settles O19: an access here touches memory and then one register; an access to a peer sends one request, for which a
load or ATOM waits. -/
theorem scalarAccessesMemory : Obligations.ScalarAccessesMemory := by
  intro c a w s u v t pa pc hiss
  have hthr : HasThread u c t := hasThread_of_issued hiss
  rw [exec_scalarAccess hiss a, exec_atom hiss w]
  refine ⟨fun hst hal hp => ⟨_, rfl, scalar_store_here hal hst hp, ?_⟩, fun hst hal hp hgood => ⟨_, rfl, ?_⟩,
    fun dst va hst hal hp hfirst => ?_, fun dst va hst hal hp hfirst => ?_, ?_⟩
  · rw [scalar_store_here hal hst hp, writePA_cl, accPlace_cl_of_eq hp]
  · rw [scalar_load_here hal hst hp hgood]
    exact onlyThread_setReg hthr ((readPA_cl v pa a.size).trans (accPlace_cl_of_eq hp)) _ _
  · rw [scalar_store_peer hal hst hp hfirst]
    exact ⟨_, _, rfl, t4Send_t4 .., rfl, rfl, rfl, rfl, rfl, rfl, thrAt_congr (t4Send_cl ..) c t⟩
  · rw [scalar_load_peer hal hst hp hfirst]
    exact ⟨_, _, rfl, t4Send_t4 .., rfl, rfl, rfl, rfl, rfl, (thrAt_congr (t4Send_cl ..) c t).trans (thrAt_wait _ hthr)⟩
  · rintro op p x cmp u1 rfl hop rfl rfl hal rfl rfl
    refine ⟨fun y hp hy hgood => ⟨_, rfl, ?_⟩, fun dst va hp hfirst => ?_⟩
    · have hcl : y.2.cl = u.cl := by
        rw [hy, atomPA_cl, accPlace_cl_of_eq hp]
        exact atomFrom_cl w u
      rw [atom_here hop hal hp hy hgood]
      exact onlyThread_setReg hthr hcl _ _
    · have hfrom : HasThread (atomFrom w u) c t := hthr.congr (atomFrom_cl w u)
      rw [atom_peer hop hal hp hfirst, ← atomFrom_xlt w u]
      exact ⟨_, _, rfl, t4Send_t4 .., rfl, rfl, rfl, rfl, rfl,
        congrArg Thread.state ((thrAt_congr (t4Send_cl ..) c t).trans (thrAt_wait _ hfrom))⟩

end Sys2Proof.Machine
end

section
/-! Answers to a thread's requests to peers, and their time limits (09 R168, 11 R223, 14 R280). -/

namespace Sys2Proof.Machine

/-! ### The own record of a request -/

theorem dropT4_gone {s : State} {req : BitVec 32} : ∀ z ∈ (dropT4 s req).xlt.t4, z.req ≠ req := by
  intro z hz
  simpa using (List.mem_filter.mp hz).2

theorem modT4_same {s : State} {req : BitVec 32} {f : T4Req → T4Req} :
    ∀ z ∈ (modT4 s req f).xlt.t4, z.req = req → ∃ y, z = f y := by
  intro z hz hreq
  obtain ⟨y, -, rfl⟩ := List.mem_map.mp hz
  split
  · exact ⟨y, rfl⟩
  next hy => exact absurd (by rw [if_neg hy] at hreq; exact hreq) hy

theorem forgetOwn_changesOnly (r : T4Req) (s : State) : ChangesOnly [.xlt] s (dropT4 (freeOwn r s) r.req) :=
  (dropT4_within (M := 1024) _ _ (by decide) (freeOwn_within _ _ (by decide) (.refl _ _))).changesOnly _
    (by intro p; cases p <;> decide)

theorem freeOwn_cl (r : T4Req) (s : State) : (freeOwn r s).cl = s.cl :=
  (freeOwn_within (M := 1024) r s (by decide) (.refl _ _)).cl.resolve_left (by decide)

/-! ### The thread of a request -/

theorem isOn_congr {s z : State} (h : z.cl = s.cl) (c t item : Nat) : isOn z c t item = isOn s c t item := by
  unfold isOn
  rw [thrAt_congr h]

theorem modAny_on {s : State} {c t item : Nat} (h : isOn s c t item = true) (f : Thread → Thread) :
    modAny s c t item f = modThr s c t f :=
  if_pos h

/-- A thread that runs on its cluster is found there, in any state with the same clusters. -/
theorem thrAny_on {s z : State} {c t item : Nat} (hz : z.cl = s.cl) (h : isOn s c t item = true) :
    thrAny z c t item = some (thrAt s c t) := by
  unfold thrAny
  rw [isOn_congr hz, if_pos h, thrAt_congr hz]

theorem setReg_state (h : Thread) (n : Nat) (x : Word64) : (setReg h n x).state = h.state := by
  unfold setReg
  split <;> rfl

/-- The thread that waits for the request takes the value and is ready. -/
theorem takeResult_waiting {h : Thread} {req : BitVec 32} {reg : Fin 32} (hst : h.state = .waiting)
    (hw : h.wait = .t4 req reg) (x : Word64) :
    takeResult req x h = { setReg h reg x with state := .ready, wait := .none } := by
  unfold takeResult
  rw [hw]
  dsimp only
  rw [if_pos rfl, unwait, setReg_state, hst]
  rfl

/-- A thread that does not wait is left as it is. -/
theorem t4Settle_ready {s : State} {c t : Nat} (item : Nat) (h : (thrAt s c t).state = .ready) :
    t4Settle s c t item = s := by
  unfold t4Settle wake
  dsimp only
  rw [h]
  simp

/-! ### What the answers and the limits do -/

/-- The state in which a request is sent again: its own record is freed, and it is as sent now. -/
def t4Resent (r : T4Req) (s : State) : State :=
  modT4 (freeOwn r s) r.req fun z => { z with faulted := none, sentAt := s.time }

theorem t4Resent_changesOnly (r : T4Req) (s : State) : ChangesOnly [.xlt] s (t4Resent r s) :=
  (modT4_within (M := 1024) _ _ _ (by decide) (freeOwn_within _ _ (by decide) (.refl _ _))).changesOnly _
    (by intro p; cases p <;> decide)

section
variable {s : State} {r : T4Req} {c k item : Nat} (hwho : r.who = .thread c k item)
include hwho

theorem t4Data_good (hop : r.op ≠ .write) (data : List Byte) :
    t4Data r false data s =
      t4Settle (modAny (dropT4 s r.req) c k item (takeResult r.req (BitVec.ofNat 64 (ofLE (data.take r.size))))) c k
        item := by
  unfold t4Data
  rw [hwho]
  dsimp only
  rw [if_neg hop, if_neg Bool.false_ne_true]

theorem t4Retry_thread :
    t4Retry r s = inject (t4Resent r s) r.dst 2 (.memRequest r.req r.op r.va r.sectors r.data) := by
  unfold t4Retry
  rw [hwho]
  rfl

theorem t4Abort_thread (hon : isOn s c k item = true) (code : Nat) :
    t4Abort code r s =
      endThread (some r.pc) c k item bXLT code r.va
        (raise (dropT4 (freeOwn r s) r.req) bXLT code (locCluster c) (thrAt s c k).seq
          ((ownTag r).elim 0 (·.setWidth 64))) := by
  have hthr : thrAny (dropT4 (freeOwn r s) r.req) c k item = some (thrAt s c k) := thrAny_on (freeOwn_cl r s) hon
  unfold t4Abort
  rw [hwho]
  dsimp only
  rw [hthr]
  rfl

theorem memTimeout_thread {req : BitVec 32} (hfind : s.xlt.t4.find? (·.req == req) = some r)
    (hon : isOn s c k item = true) (hfault : r.faulted = none) (hlate : r.sentAt + 1000 * param s 0x041 ≤ s.time) :
    memTimeout req s =
      endThread (some r.pc) c k item bLNK 33 r.va (raise (dropT4 s req) bLNK 33 (locCluster c) (thrAt s c k).seq 0) := by
  have hthr : thrAny (dropT4 s req) c k item = some (thrAt s c k) := thrAny_on rfl hon
  unfold memTimeout
  rw [hfind]
  dsimp only
  rw [hfault, decide_eq_false (Nat.not_lt.mpr hlate), hwho]
  dsimp only
  rw [hthr]
  rfl

end

theorem peerFaultTimeout_past {s : State} {r : T4Req} {peer tag : BitVec 32} {n at' : Nat} {f : FaultRec}
    (hfault : r.faulted = some (peer, tag, n, at')) (hown : s.xlt.t4.find? (fun z => ownTag z == some tag) = some r)
    (hrec : s.xlt.faults.find? (·.tag == tag) = some f) (hpast : limitPast s f.seq n at' 2 10 = true) :
    peerFaultTimeout tag s = t4Abort 3 r s := by
  unfold peerFaultTimeout
  rw [hown, hrec]
  dsimp only
  rw [hfault]
  exact if_pos hpast

section
variable {s : State} {req : BitVec 32} {r : T4Req} (hfind : s.xlt.t4.find? (·.req == req) = some r) (data : List Byte)
include hfind

theorem exec_memResponse_data (hfault : r.faulted = none) :
    exec (.memResponse req (.data false) data) s = .next (t4Data r false data s) := by
  change Host.Outcome.next (memResponse req (.data false) data s) = _
  unfold memResponse
  rw [hfind]
  dsimp only
  rw [hfault]
  rfl

theorem exec_memResponse_retry : exec (.memResponse req .retry data) s = .next (t4Retry r s) := by
  change Host.Outcome.next (memResponse req .retry data s) = _
  unfold memResponse
  rw [hfind]

theorem exec_memResponse_abort : exec (.memResponse req .abort data) s = .next (t4Abort 2 r s) := by
  change Host.Outcome.next (memResponse req .abort data s) = _
  unfold memResponse
  rw [hfind]

end

theorem exec_memTimeout (req : BitVec 32) (s : State) : exec (.memTimeout req) s = .next (memTimeout req s) := rfl

theorem exec_peerFaultTimeout (tag : BitVec 32) (s : State) :
    exec (.peerFaultTimeout tag) s = .next (peerFaultTimeout tag s) := rfl

/-- Good data makes the waiting thread ready with its value, and changes no other thread. -/
theorem t4Data_answers {s : State} {r : T4Req} {c k item : Nat} {reg : Fin 32} (hwho : r.who = .thread c k item)
    (hon : isOn s c k item = true) (hst : (thrAt s c k).state = .waiting) (hw : (thrAt s c k).wait = .t4 r.req reg)
    (hop : r.op ≠ .write) (data : List Byte) :
    OnlyThread c k (dropT4 s r.req) (t4Data r false data s) ∧
      thrAt (t4Data r false data s) c k =
        { setReg (thrAt s c k) reg (BitVec.ofNat 64 (ofLE (data.take r.size))) with state := .ready, wait := .none } := by
  have hthr : HasThread (dropT4 s r.req) c k := hasThread_of_not_free (s := s) (by rw [hst]; decide)
  have htake := (thrAt_modThr_same (takeResult r.req (BitVec.ofNat 64 (ofLE (data.take r.size)))) hthr).trans
    (takeResult_waiting (h := thrAt s c k) hst hw _)
  have hdata : t4Data r false data s = modThr (dropT4 s r.req) c k (takeResult r.req
      (BitVec.ofNat 64 (ofLE (data.take r.size)))) := by
    rw [t4Data_good hwho hop, modAny_on (s := dropT4 s r.req) hon, t4Settle_ready _ (congrArg Thread.state htake)]
  rw [hdata]
  exact ⟨onlyThread_modThr _ _ _ _, htake⟩

/-- Settles O35: each answer and each limit is one case of what may end a request of a thread. -/
theorem peersAnswersReachTheThread : Obligations.PeersAnswersReachTheThread := by
  intro req r c k item reg s hfind hwho hon hst hw
  obtain rfl : r.req = req := by simpa using List.find?_some hfind
  refine ⟨fun hop hfault data => ⟨_, exec_memResponse_data hfind data hfault, t4Data_answers hwho hon hst hw hop data⟩,
    fun data => ⟨_, t4Resent r s, exec_memResponse_retry hfind data, t4Retry_thread hwho, t4Resent_changesOnly r s,
      fun z hz hreq => ?_⟩,
    fun data => ⟨_, dropT4 (freeOwn r s) r.req, exec_memResponse_abort hfind data, forgetOwn_changesOnly r s, dropT4_gone,
      t4Abort_thread hwho hon 2⟩,
    fun hfault hlate => ⟨_, exec_memTimeout r.req s, memTimeout_thread hwho hfind hon hfault hlate⟩,
    fun tag peer n at' f hfault hown hrec hpast => ⟨_, dropT4 (freeOwn r s) r.req, exec_peerFaultTimeout tag s,
      forgetOwn_changesOnly r s, dropT4_gone, ?_⟩⟩
  · obtain ⟨y, rfl⟩ := modT4_same (f := fun z => { z with faulted := none, sentAt := s.time }) z hz hreq
    exact ⟨rfl, rfl⟩
  · have htag : ownTag r = some tag := by
      rw [ownTag, hfault]
      rfl
    rw [peerFaultTimeout_past hfault hown hrec hpast, t4Abort_thread hwho hon, htag]
    rfl

end Sys2Proof.Machine
end

section
/-! What an event leaves alone, and the entry to keep-alive mode (20 R378, 22 R394-R396, R403). -/

namespace Sys2Proof.Machine

/-! ### Events -/

theorem raise_changes (s : State) (block num : Nat) (l : BitVec 32) (seq : Nat) (detail : Word64) :
    Within 117440546 s (raise s block num l seq detail) :=
  raise_within s block num l seq detail (by decide) (.refl _ _)

@[simp] theorem raise_mem (s : State) (block num : Nat) (l : BitVec 32) (seq : Nat) (detail : Word64) :
    (raise s block num l seq detail).mem = s.mem :=
  (raise_changes s block num l seq detail).mem.resolve_left (by decide)

@[simp] theorem raise_time (s : State) (block num : Nat) (l : BitVec 32) (seq : Nat) (detail : Word64) :
    (raise s block num l seq detail).time = s.time :=
  (raise_changes s block num l seq detail).time.resolve_left (by decide)

@[simp] theorem raise_keepalive (s : State) (block num : Nat) (l : BitVec 32) (seq : Nat) (detail : Word64) :
    (raise s block num l seq detail).pwr.keepalive = s.pwr.keepalive :=
  (raise_changes s block num l seq detail).keepalive.resolve_left (by decide)

theorem evSummary_pwr_other (s : State) {block : Nat} (num : Nat) (l : BitVec 32) (h : block ≠ bPWR) :
    (evSummary s block num l).pwr = s.pwr := by
  unfold evSummary
  split
  · split <;> rfl
  next => simp only

theorem raiseBare_pwr_other (s : State) {block : Nat} (num : Nat) (l : BitVec 32) (seq : Nat) (detail : Word64)
    (h : block ≠ bPWR) : (raiseBare s block num l seq detail).1.pwr = s.pwr := by
  unfold raiseBare
  rw [(evTrace_within (M := 33554434) _ block num l seq (by decide) (.refl _ _)).pwr.resolve_left (by decide),
    evSummary_pwr_other _ _ _ h]
  rfl

/-- Only the events of the block PWR show in the power registers. -/
theorem raise_pwr_other (s : State) {block : Nat} (num : Nat) (l : BitVec 32) (seq : Nat) (detail : Word64)
    (h : block ≠ bPWR) : (raise s block num l seq detail).pwr = s.pwr := by
  unfold raise
  dsimp only
  split
  · rw [raiseBare_pwr_other _ _ _ _ _ (by decide), raiseBare_pwr_other _ _ _ _ _ h]
  · exact raiseBare_pwr_other _ _ _ _ _ h

/-! ### The entry to keep-alive mode -/

theorem each_linkDown_mem (l : List Nat) (s : State) :
    (each l (fun s p => raise s bLNK 11 (locPort p) noSeq 0) s).mem = s.mem :=
  each_field (fun s p => raise_mem s bLNK 11 (locPort p) noSeq 0) l s

theorem each_linkDown_pwr (l : List Nat) (s : State) :
    (each l (fun s p => raise s bLNK 11 (locPort p) noSeq 0) s).pwr = s.pwr :=
  each_field (v := State.pwr) (fun s p => raise_pwr_other s 11 (locPort p) noSeq 0 (by decide)) l s

/-- The first entry sets the cause, and the stacks go off. -/
theorem enterKeepalive_first {s : State} (block num : Nat) (cause : Cause) (h : s.pwr.keepalive = false) :
    (enterKeepalive s block num cause).pwr.keepalive = true ∧
      (enterKeepalive s block num cause).pwr.causeMem = (block == bMEM) ∧
      (enterKeepalive s block num cause).pwr.causeNum = num % 256 ∧
      (enterKeepalive s block num cause).mem = memOff s.mem := by
  have hmem : (traceOff (ctrAdd s 12 1)).mem = s.mem :=
    (traceOff_within (M := 117440546) (ctrAdd s 12 1) (by decide) (.refl _ _)).mem.resolve_left (by decide)
  unfold enterKeepalive
  rw [if_neg (by simp [h])]
  dsimp only
  rw [each_linkDown_pwr, each_linkDown_mem, ← hmem]
  exact ⟨rfl, rfl, rfl, rfl⟩

/-- After a fatal event the device is in keep-alive mode, whether it entered it now or before. -/
theorem raiseFatal_keepalive (s : State) (block num : Nat) (l : BitVec 32) (detail : Word64) (cause : Cause) :
    (raiseFatal s block num l detail cause).pwr.keepalive = true := by
  unfold raiseFatal
  cases h : (raise s block num l noSeq detail).pwr.keepalive with
  | false => exact (enterKeepalive_first block num cause h).1
  | true =>
    rw [enterKeepalive, if_pos h]
    exact h

end Sys2Proof.Machine
end

section
/-! Reads, corrections and row repairs: what they do to the errors, the poison and the cached lines of tier T2 (10 R184,
R185, R187, R194). -/

namespace Sys2Proof.Machine

/-- What reads of channels may do to tier T2. Errors only go, and an uncorrectable one goes into poison; poison stays, and
a line leaves the caches only where its sector is poisoned; the bytes and the eaves entries stay. -/
structure ErrorsSettle (m n : MemSt) : Prop where
  stack : n.stack = m.stack
  eaves : n.eaves = m.eaves
  errors : ∀ f ∈ n.eccErr, f ∈ m.eccErr
  caught : ∀ k, (k, EccKind.uncorrectable) ∈ m.eccErr → (k, EccKind.corrected) ∉ m.eccErr →
    (k, EccKind.uncorrectable) ∈ n.eccErr ∨ k ∈ n.poison
  poison : ∀ k ∈ m.poison, k ∈ n.poison
  lines : ∀ k ∈ n.lines, k ∈ m.lines
  cached : ∀ k ∈ m.lines, k ∉ n.poison → k ∈ n.lines

/-- No error stands in the sector. -/
def ErrorFree (m : MemSt) (sec : Nat) : Prop := ∀ f ∈ m.eccErr, f.1 ≠ sec

theorem ErrorsSettle.trans {m n o : MemSt} (h : ErrorsSettle m n) (k : ErrorsSettle n o) : ErrorsSettle m o where
  stack := k.stack.trans h.stack
  eaves := k.eaves.trans h.eaves
  errors f hf := h.errors f (k.errors f hf)
  caught i hu hc := by
    rcases h.caught i hu hc with hn | hn
    · exact k.caught i hn fun hcn => hc (h.errors _ hcn)
    · exact .inr (k.poison i hn)
  poison i hi := k.poison i (h.poison i hi)
  lines i hi := h.lines i (k.lines i hi)
  cached i hi ho := k.cached i (h.cached i hi fun hn => ho (k.poison i hn)) ho

theorem ErrorsSettle.errorFree {m n : MemSt} {sec : Nat} (h : ErrorsSettle m n) (k : ErrorFree m sec) : ErrorFree n sec :=
  fun f hf => k f (h.errors f hf)

/-- The counts, the repairs and the requests of the channels are no part of it. -/
theorem ErrorsSettle.of_eq {m n : MemSt} (hstack : n.stack = m.stack) (heaves : n.eaves = m.eaves)
    (herr : n.eccErr = m.eccErr) (hpoison : n.poison = m.poison) (hlines : n.lines = m.lines) : ErrorsSettle m n where
  stack := hstack
  eaves := heaves
  errors _ hf := herr ▸ hf
  caught _ hu _ := .inl (herr ▸ hu)
  poison _ hk := hpoison ▸ hk
  lines _ hk := hlines ▸ hk
  cached _ hk _ := hlines ▸ hk

theorem ErrorsSettle.refl (m : MemSt) : ErrorsSettle m m := .of_eq rfl rfl rfl rfl rfl

/-- Errors go, corrected or into poison: the ones that `gone` names. -/
theorem ErrorsSettle.of_gone {m n : MemSt} (gone : Nat × EccKind → Bool) (hstack : n.stack = m.stack)
    (heaves : n.eaves = m.eaves) (herr : n.eccErr = m.eccErr.filter fun f => !gone f)
    (hcaught : ∀ k, (k, EccKind.uncorrectable) ∈ m.eccErr → (k, EccKind.corrected) ∉ m.eccErr →
      gone (k, .uncorrectable) = true → k ∈ n.poison)
    (hpoison : ∀ k ∈ m.poison, k ∈ n.poison) (hlines : ∀ k ∈ n.lines, k ∈ m.lines)
    (hcached : ∀ k ∈ m.lines, k ∉ n.poison → k ∈ n.lines) : ErrorsSettle m n where
  stack := hstack
  eaves := heaves
  errors f hf := (List.mem_filter.mp (herr ▸ hf)).1
  caught k hu hc := by
    cases hg : gone (k, .uncorrectable) with
    | true => exact .inr (hcaught k hu hc hg)
    | false => exact .inl (herr ▸ List.mem_filter.mpr ⟨hu, by rw [hg]; rfl⟩)
  poison := hpoison
  lines := hlines
  cached := hcached

/-- A sector is poisoned: its line leaves the caches, and only its errors may go. -/
theorem ErrorsSettle.of_poisoned {m n : MemSt} (sec : Nat) (hstack : n.stack = m.stack) (heaves : n.eaves = m.eaves)
    (hpoison : n.poison = insertNat sec m.poison) (hlines : n.lines = m.lines.filter (· != sec))
    (herr : ∀ f ∈ n.eccErr, f ∈ m.eccErr) (hleft : ∀ f ∈ m.eccErr, f ∈ n.eccErr ∨ f.1 = sec) : ErrorsSettle m n := by
  have hmem : ∀ k, k ∈ n.poison ↔ k = sec ∨ k ∈ m.poison := fun k => by rw [hpoison, mem_insertNat]
  have hline : ∀ k, k ∈ n.lines ↔ k ∈ m.lines ∧ k ≠ sec := fun k => by rw [hlines, List.mem_filter, bne_iff_ne]
  exact {
    stack := hstack
    eaves := heaves
    errors := herr
    caught := fun k hu _ => (hleft _ hu).imp_right fun hk => (hmem k).mpr (.inl hk)
    poison := fun k hk => (hmem k).mpr (.inr hk)
    lines := fun k hk => ((hline k).mp hk).1
    cached := fun k hk hp => (hline k).mpr ⟨hk, fun he => hp ((hmem k).mpr (.inl he))⟩ }

/-! ### A row is copied -/

/-- One error in the row as it is copied: corrected, or its sector poisoned. -/
def copyError (sec : Nat) (s : State) (x : Nat × EccKind) : State :=
  match x.2 with
  | .corrected => raise (ctrAdd s (ctrChannel (homeCh sec)) 1) bMEM 1 (locChannel (homeCh sec)) noSeq 0
  | .uncorrectable =>
    raise { s with mem := { s.mem with poison := insertNat x.1 s.mem.poison, lines := s.mem.lines.filter (· != x.1) } }
      bMEM 2 (locChannel (homeCh sec)) noSeq (memDetail x.1)

/-- Does an error stand in the row of a sector? -/
def inRow (sec : Nat) (x : Nat × EccKind) : Bool :=
  homeCh x.1 == homeCh sec && (home x.1).bank == (home sec).bank && (home x.1).row == (home sec).row

theorem copyRow_eq (s : State) (sec : Nat) :
    copyRow s sec = each (s.mem.eccErr.filter (inRow sec)) (copyError sec)
      { s with mem := { s.mem with eccErr := s.mem.eccErr.filter fun x => !inRow sec x } } := rfl

theorem copyError_settles (sec : Nat) (s : State) (x : Nat × EccKind) :
    ErrorsSettle s.mem (copyError sec s x).mem ∧ (copyError sec s x).mem.eccErr = s.mem.eccErr ∧
      (x.2 = .uncorrectable → x.1 ∈ (copyError sec s x).mem.poison) := by
  obtain ⟨k, kind⟩ := x
  cases kind with
  | corrected =>
    simp only [copyError, raise_mem, ctrAdd_mem]
    exact ⟨.refl _, trivial, nofun⟩
  | uncorrectable =>
    simp only [copyError, raise_mem]
    exact ⟨.of_poisoned k rfl rfl rfl rfl (fun _ => id) (fun _ => .inl), trivial, fun _ => mem_insertNat.mpr (.inl rfl)⟩

theorem each_copyError_settles (sec : Nat) (l : List (Nat × EccKind)) (s : State) :
    ErrorsSettle s.mem (each l (copyError sec) s).mem ∧ (each l (copyError sec) s).mem.eccErr = s.mem.eccErr ∧
      ∀ k, (k, EccKind.uncorrectable) ∈ l → k ∈ (each l (copyError sec) s).mem.poison := by
  induction l generalizing s with
  | nil => exact ⟨.refl _, rfl, nofun⟩
  | cons x l ih =>
    obtain ⟨hx, hxerr, hxpoison⟩ := copyError_settles sec s x
    obtain ⟨hl, hlerr, hlpoison⟩ := ih (copyError sec s x)
    refine ⟨hx.trans hl, hlerr.trans hxerr, fun k hk => ?_⟩
    rcases List.mem_cons.mp hk with rfl | hk
    · exact hl.poison _ (hxpoison rfl)
    · exact hlpoison k hk

theorem copyRow_settles (s : State) (sec : Nat) : ErrorsSettle s.mem (copyRow s sec).mem := by
  rw [copyRow_eq]
  obtain ⟨h, herr, hpoison⟩ := each_copyError_settles sec (s.mem.eccErr.filter (inRow sec))
    { s with mem := { s.mem with eccErr := s.mem.eccErr.filter fun x => !inRow sec x } }
  exact .of_gone (inRow sec) h.stack h.eaves herr (fun k hu _ hg => hpoison k (List.mem_filter.mpr ⟨hu, hg⟩)) h.poison
    h.lines h.cached

/-! ### Repairs and retrains that errors ask for -/

theorem rowRepair_settles (s : State) (sec : Nat) : ErrorsSettle s.mem (rowRepair s sec).mem := by
  unfold rowRepair
  dsimp only
  split
  · rw [raise_mem, ctrAdd_mem]
    refine ErrorsSettle.trans (.of_eq ?_ ?_ ?_ ?_ ?_) (copyRow_settles _ sec) <;> rfl
  · split
    · exact .refl _
    · rw [raise_mem]
      exact .of_eq rfl rfl rfl rfl rfl

theorem askRetrain_settles (s : State) (ch : Nat) : ErrorsSettle s.mem (askRetrain s ch).mem := by
  unfold askRetrain
  split
  · exact .refl _
  · exact .of_eq rfl rfl rfl rfl rfl

theorem ErrorsSettle.ite {c : Prop} [Decidable c] {m : MemSt} {s t : State} (h : ErrorsSettle m s.mem)
    (k : ErrorsSettle m t.mem) : ErrorsSettle m (if c then s else t).mem := by
  split
  · exact h
  · exact k

theorem ErrorsSettle.after_raise {m : MemSt} {s : State} (h : ErrorsSettle m s.mem) (block num : Nat) (l : BitVec 32)
    (seq : Nat) (detail : Word64) : ErrorsSettle m (raise s block num l seq detail).mem :=
  (raise_mem s block num l seq detail).symm ▸ h

theorem ErrorsSettle.after_askRetrainIf {c : Prop} [Decidable c] {m : MemSt} {s : State} (h : ErrorsSettle m s.mem)
    (ch : Nat) : ErrorsSettle m (if c then askRetrain s ch else s).mem :=
  .ite (h.trans (askRetrain_settles s ch)) h

theorem ErrorsSettle.after_rowRepair {m : MemSt} {s : State} (h : ErrorsSettle m s.mem) (sec : Nat) :
    ErrorsSettle m (rowRepair s sec).mem :=
  h.trans (rowRepair_settles s sec)

/-! ### A read of a sector on its channel -/

theorem errorFree_filter {m : MemSt} {sec : Nat} {l : List (Nat × EccKind)} (h : m.eccErr = l.filter (·.1 != sec)) :
    ErrorFree m sec := fun f hf => by
  rw [h] at hf
  exact bne_iff_ne.mp (List.mem_filter.mp hf).2

theorem corrected_settles {s : State} {sec : Nat} (h : (sec, EccKind.corrected) ∈ s.mem.eccErr) :
    ErrorsSettle s.mem (corrected s sec).mem ∧ ErrorFree (corrected s sec).mem sec := by
  have rest : ErrorsSettle { s.mem with
      eccErr := s.mem.eccErr.filter (·.1 != sec)
      corrTimes := (homeCh sec, s.time) :: s.mem.corrTimes.filter fun e => s.time < e.2 + second
      rowErrs := (homeCh sec, (home sec).bank, (home sec).row, s.time) ::
        s.mem.rowErrs.filter fun e => s.time < e.2.2.2 + day } (corrected s sec).mem := by
    refine .ite (.after_rowRepair (.after_askRetrainIf ?_ _) sec) (.after_askRetrainIf ?_ _)
    all_goals
      refine .after_raise ?_ ..
      exact .refl _
  refine ⟨.trans ?_ rest, rest.errorFree (errorFree_filter rfl)⟩
  refine .of_gone (·.1 == sec) rfl rfl rfl ?_ (fun _ hk => hk) (fun _ hk => hk) fun _ hk _ => hk
  intro k _ hc hk
  exact absurd h (beq_iff_eq.mp hk ▸ hc)

theorem uncorrectable_settles (s : State) (sec : Nat) :
    ErrorsSettle s.mem (uncorrectable s sec).mem ∧ ErrorFree (uncorrectable s sec).mem sec := by
  have rest : ErrorsSettle { s.mem with
      eccErr := s.mem.eccErr.filter (·.1 != sec)
      poison := insertNat sec s.mem.poison
      lines := s.mem.lines.filter (· != sec)
      uncorrTimes := (homeCh sec, s.time) :: s.mem.uncorrTimes.filter fun e => s.time < e.2 + second }
      (uncorrectable s sec).mem := by
    refine .after_rowRepair (.after_askRetrainIf ?_ _) sec
    refine .after_raise ?_ ..
    exact .refl _
  refine ⟨.trans ?_ rest, rest.errorFree (errorFree_filter rfl)⟩
  refine .of_poisoned (m := s.mem) sec rfl rfl rfl rfl (fun f hf => (List.mem_filter.mp hf).1) fun f hf => ?_
  by_cases hsec : f.1 = sec
  · exact .inr hsec
  · exact .inl (List.mem_filter.mpr ⟨hf, bne_iff_ne.mpr hsec⟩)

theorem eccRead_settles (s : State) (sec : Nat) :
    ErrorsSettle s.mem (eccRead s sec).mem ∧ ErrorFree (eccRead s sec).mem sec := by
  unfold eccRead
  dsimp only
  split
  next n h =>
    obtain rfl : n = sec := by simpa using List.find?_some h
    exact corrected_settles (s := ctrAdd s _ 1) (List.mem_of_find?_eq_some h)
  next => exact uncorrectable_settles (ctrAdd s _ 1) sec
  next h => exact ⟨.refl _, fun f hf => by simpa using List.find?_eq_none.mp h f hf⟩

/-- A read of a sector leaves no error standing in it (R184, R185). -/
theorem chanRead_settles (s : State) (sec : Nat) :
    ErrorsSettle s.mem (chanRead s sec).mem ∧ ErrorFree (chanRead s sec).mem sec := by
  unfold chanRead
  split
  · rw [raise_mem]
    exact eccRead_settles s sec
  · exact eccRead_settles s sec

theorem each_chanRead_settles (l : List Nat) (s : State) :
    ErrorsSettle s.mem (each l chanRead s).mem ∧ ∀ sec ∈ l, ErrorFree (each l chanRead s).mem sec := by
  induction l generalizing s with
  | nil => exact ⟨.refl _, nofun⟩
  | cons n l ih =>
    obtain ⟨hn, hfree⟩ := chanRead_settles s n
    obtain ⟨hl, hall⟩ := ih (chanRead s n)
    refine ⟨hn.trans hl, fun sec hsec => ?_⟩
    rcases List.mem_cons.mp hsec with rfl | hsec
    · exact hl.errorFree hfree
    · exact hall sec hsec

/-! ### A scrub reads every sector that holds an error -/

theorem exec_scrub (ch : Channel) (found : List (Nat × EccKind)) (s : State) :
    exec (.scrub ch found) s = .next (scrub ch found s) := rfl

theorem scrub_on {s : State} (h : s.mem.on = true) (ch : Nat) (found : List (Nat × EccKind)) :
    scrub ch found s =
      each (rowOrder (((errorsArise found s).mem.poison ++ (errorsArise found s).mem.eccErr.map (·.1)).filter
        fun n => homeCh n == ch)) chanRead (errorsArise found s) := by
  unfold scrub
  rw [h]
  rfl

theorem mem_rowOrder {l : List Nat} {n : Nat} : n ∈ rowOrder l ↔ n ∈ l := List.mem_mergeSort

theorem mem_errorsArise {found : List (Nat × EccKind)} {s : State} {f : Nat × EccKind} :
    f ∈ (errorsArise found s).mem.eccErr ↔
      f ∈ s.mem.eccErr ∨ f ∈ found ∧ f.1 < nSectors ∧ (∀ e ∈ s.mem.eccErr, e.1 ≠ f.1) ∧ f.1 ∉ s.mem.poison := by
  simp [errorsArise, and_assoc]

/-- After a scrub no error stands in a sector of the channel. -/
theorem scrub_settles {s : State} (h : s.mem.on = true) (ch : Nat) (found : List (Nat × EccKind)) :
    ErrorsSettle (errorsArise found s).mem (scrub ch found s).mem ∧
      ∀ f ∈ (scrub ch found s).mem.eccErr, homeCh f.1 ≠ ch := by
  rw [scrub_on h]
  obtain ⟨hset, hfree⟩ := each_chanRead_settles (rowOrder (((errorsArise found s).mem.poison ++
    (errorsArise found s).mem.eccErr.map (·.1)).filter fun n => homeCh n == ch)) (errorsArise found s)
  refine ⟨hset, fun f hf hch => hfree f.1 ?_ f hf rfl⟩
  rw [mem_rowOrder, List.mem_filter]
  exact ⟨List.mem_append_right _ (List.mem_map_of_mem (hset.errors f hf)), beq_iff_eq.mpr hch⟩

/-- A sector that a scrub finds uncorrectable is poisoned. -/
theorem scrub_poisons {s : State} (h : s.mem.on = true) {ch n : Nat} {found : List (Nat × EccKind)}
    (hbad : (n, EccKind.uncorrectable) ∈ found) (hgood : (n, EccKind.corrected) ∉ found) (hch : homeCh n = ch)
    (hn : n < nSectors) (hnone : ∀ f ∈ s.mem.eccErr, f.1 ≠ n) : n ∈ (scrub ch found s).mem.poison := by
  obtain ⟨hset, hfree⟩ := scrub_settles h ch found
  by_cases hp : n ∈ s.mem.poison
  · exact hset.poison n hp
  have harise : (n, EccKind.uncorrectable) ∈ (errorsArise found s).mem.eccErr :=
    mem_errorsArise.mpr (.inr ⟨hbad, hn, hnone, hp⟩)
  have honly : (n, EccKind.corrected) ∉ (errorsArise found s).mem.eccErr := fun hc =>
    (mem_errorsArise.mp hc).elim (fun hold => hnone _ hold rfl) fun hnew => hgood hnew.1
  exact (hset.caught n harise honly).resolve_left fun hleft => hfree _ hleft hch

theorem scrub_changesOnly (ch : Nat) (found : List (Nat × EccKind)) (s : State) :
    ChangesOnly (eventParts ++ [.mem]) s (scrub ch found s) :=
  (scrub_within (M := 117440802) ch found s (by decide) (.refl _ _)).changesOnly _ (by intro p; cases p <;> decide)

/-- Settles O37: the scrub reads each sector in which an error stands, and a read takes the errors of its sector. -/
theorem scrubFindsEveryError : Obligations.ScrubFindsEveryError := by
  intro ch found s hon
  obtain ⟨hset, hfree⟩ := scrub_settles hon ch found
  exact ⟨_, exec_scrub ch found s, hfree, hset.poison, fun n hbad hgood hch hn hnone =>
    scrub_poisons hon hbad hgood hch hn hnone, hset.eaves, hset.stack, hset.lines, hset.cached,
    scrub_changesOnly ch found s⟩

end Sys2Proof.Machine
end

section
/-! An eaves entry leaves (10 R181, R182, R185). -/

namespace Sys2Proof.Machine

/-! ### The bytes of an entry -/

/-- The bytes of an entry written over a memory, from the address of its sector. -/
def putEntry (m : Mem) (base : Nat) (l : List (Nat × Byte)) : Mem :=
  l.foldl (fun m b => memWr zeroByte m (base + b.1) b.2) m

theorem memRd_putEntry_other {m : Mem} (base : Nat) {l : List (Nat × Byte)} {a : Nat} (hwf : memWf zeroByte m = true)
    (h : ∀ b ∈ l, a ≠ base + b.1) : memRd zeroByte (putEntry m base l) a = memRd zeroByte m a := by
  induction l generalizing m with
  | nil => rfl
  | cons b l ih =>
    calc memRd zeroByte (putEntry m base (b :: l)) a
      _ = memRd zeroByte (memWr zeroByte m (base + b.1) b.2) a :=
        ih (memWr_wf _ _ hwf) fun b hb => h b (List.mem_cons_of_mem _ hb)
      _ = memRd zeroByte m a := by rw [memRd_memWr _ _ _ hwf, if_neg (h b List.mem_cons_self)]

theorem memRd_putEntry_same {m : Mem} (base : Nat) {l : List (Nat × Byte)} {b : Nat × Byte}
    (hwf : memWf zeroByte m = true) (hb : b ∈ l) (honly : ∀ b' ∈ l, b'.1 = b.1 → b' = b) :
    memRd zeroByte (putEntry m base l) (base + b.1) = b.2 := by
  induction l generalizing m with
  | nil => cases hb
  | cons c l ih =>
    have hwf' := memWr_wf (base + c.1) c.2 hwf
    by_cases hl : b ∈ l
    · exact ih hwf' hl fun b' hb' => honly b' (List.mem_cons_of_mem _ hb')
    · obtain rfl : b = c := (List.mem_cons.mp hb).resolve_right hl
      have hlast : ∀ b' ∈ l, base + b.1 ≠ base + b'.1 := fun b' hb' he =>
        hl (honly b' (List.mem_cons_of_mem _ hb') (Nat.add_left_cancel he).symm ▸ hb')
      calc memRd zeroByte (putEntry m base (b :: l)) (base + b.1)
        _ = memRd zeroByte (memWr zeroByte m (base + b.1) b.2) (base + b.1) := memRd_putEntry_other base hwf' hlast
        _ = b.2 := by rw [memRd_memWr _ _ _ hwf, if_pos rfl]

/-! ### The entry leaves with its mask incomplete -/

/-- The channel is read first; the bytes are written where the sector is not poisoned then (R182, R185). -/
theorem eavesRmw_mem (s : State) (e : Eaves) :
    (eavesRmw s e).mem =
      if e.sector ∈ (chanRead s e.sector).mem.poison then (chanRead s e.sector).mem
      else { (chanRead s e.sector).mem with stack := putEntry s.mem.stack (32 * e.sector) e.bytes } := by
  rw [← (chanRead_settles s e.sector).1.stack]
  unfold eavesRmw
  simp only [ctrAdd_mem, List.contains_iff_mem]
  split <;> rfl

theorem eavesFlush_of_find {s : State} {sec : Nat} {e : Eaves} (h : s.mem.eaves.find? (·.sector == sec) = some e) :
    eavesFlush s sec = eavesRmw { s with mem := { s.mem with eaves := s.mem.eaves.filter (·.sector != sec) } } e := by
  unfold eavesFlush
  rw [h]

theorem exec_eavesTimeout (sec : Nat) (s : State) : exec (.eavesTimeout sec) s = .next (eavesTimeout sec s) := rfl

theorem eavesTimeout_due {s : State} {sec : Nat} {e : Eaves} (hon : s.mem.on = true)
    (h : s.mem.eaves.find? (·.sector == sec) = some e) (hopen : e.opened + 2000 ≤ s.time) :
    eavesTimeout sec s = eavesRmw { s with mem := { s.mem with eaves := s.mem.eaves.filter (·.sector != sec) } } e := by
  rw [← eavesFlush_of_find h]
  unfold eavesTimeout
  rw [h, hon]
  exact if_pos (decide_eq_true hopen)

theorem eavesTimeout_changesOnly (sec : Nat) (s : State) :
    ChangesOnly (eventParts ++ [.mem, .stackBytes]) s (eavesTimeout sec s) :=
  (eavesTimeout_within (M := 251658530) sec s (by decide) (.refl _ _)).changesOnly _ (by intro p; cases p <;> decide)

/-- The entry leaves: its bytes are in the stack, or the sector is poisoned. -/
theorem eavesRmw_leaves (s : State) (e : Eaves) :
    (eavesRmw s e).mem.eaves = s.mem.eaves ∧
      (e.sector ∈ (eavesRmw s e).mem.poison → (eavesRmw s e).mem.stack = s.mem.stack) ∧
      (e.sector ∉ (eavesRmw s e).mem.poison →
        (eavesRmw s e).mem.stack = putEntry s.mem.stack (32 * e.sector) e.bytes) := by
  have hread := (chanRead_settles s e.sector).1
  rw [eavesRmw_mem]
  split
  next h => exact ⟨hread.eaves, fun _ => hread.stack, fun hn => absurd h hn⟩
  next h => exact ⟨hread.eaves, fun hp => absurd hp h, fun _ => rfl⟩

/-- Settles O36: the read of the channel keeps the bytes, and then the entry's are written one by one. -/
theorem eavesEntryLeavesWhole : Obligations.EavesEntryLeavesWhole := by
  intro sec e s hon hfind hopen
  refine ⟨_, exec_eavesTimeout sec s, ?_, ?_, ?_, eavesTimeout_changesOnly sec s⟩
  all_goals
    rw [eavesTimeout_due hon hfind hopen]
    obtain rfl : e.sector = sec := by simpa using List.find?_some hfind
    obtain ⟨heaves, hbad, hgood⟩ :=
      eavesRmw_leaves { s with mem := { s.mem with eaves := s.mem.eaves.filter (·.sector != e.sector) } } e
  · exact heaves
  · exact hbad
  · intro hp hwf
    rw [hgood hp]
    exact ⟨fun b hb honly => memRd_putEntry_same _ hwf hb honly, fun a ha => memRd_putEntry_other _ hwf ha⟩

end Sys2Proof.Machine
end

section
/-! A sample of the stacks' temperatures (10 R188-R191). -/

namespace Sys2Proof.Machine

/-! ### One stack takes its sample -/

theorem stackSample_changes (s : State) (n : Nat) (t : Int) : Within 117440802 s (stackSample s n t) :=
  stackSample_within s n t (by decide) (.refl _ _)

theorem stackSample_time (s : State) (n : Nat) (t : Int) : (stackSample s n t).time = s.time :=
  (stackSample_changes s n t).time.resolve_left (by decide)

theorem stackSample_stks (s : State) (n : Nat) (t : Int) :
    (stackSample s n t).mem.stks =
      s.mem.stks.set n (stackStep s.time (unit s.mem.stks n StackSt.reset) t).1 := by
  unfold stackSample
  dsimp only
  split
  · rw [raise_mem]
    rfl
  · rfl

theorem unit_set {α : Type} (l : List α) (i j : Nat) (x d : α) :
    unit (l.set i x) j d = if j = i ∧ i < l.length then x else unit l j d := by
  unfold unit
  rw [List.getD_eq_getElem?_getD, List.getD_eq_getElem?_getD, List.getElem?_set]
  by_cases hj : i = j
  · subst hj
    by_cases hi : i < l.length
    · rw [if_pos rfl, if_pos hi, if_pos ⟨rfl, hi⟩, Option.getD_some]
    · rw [if_pos rfl, if_neg hi, if_neg fun h => hi h.2, List.getElem?_eq_none (Nat.le_of_not_lt hi)]
  · rw [if_neg hj, if_neg fun h => hj h.1.symm]

/-! ### Every stack takes its sample -/

/-- Every stack's sample, one after the other. -/
def sampleAll (l : List (Nat × Int)) (s : State) : State := each l (fun s p => stackSample s p.1 p.2) s

theorem sampleAll_changes (l : List (Nat × Int)) (s : State) : Within 117440802 s (sampleAll l s) :=
  each_changes l (fun s p => stackSample_changes s p.1 p.2) s

theorem sampleAll_cons (p : Nat × Int) (l : List (Nat × Int)) (s : State) :
    sampleAll (p :: l) s = sampleAll l (stackSample s p.1 p.2) := rfl

theorem sampleAll_other {l : List (Nat × Int)} {n : Nat} (h : n ∉ l.map (·.1)) (s : State) :
    unit (sampleAll l s).mem.stks n StackSt.reset = unit s.mem.stks n StackSt.reset := by
  induction l generalizing s with
  | nil => rfl
  | cons p l ih =>
    rw [List.map_cons, List.mem_cons, not_or] at h
    rw [sampleAll_cons, ih h.2, stackSample_stks, unit_set, if_neg fun hn => h.1 hn.1]

/-- A stack among different ones steps by its own reading. -/
theorem sampleAll_stack {l : List (Nat × Int)} (hl : (l.map (·.1)).Nodup) {n : Nat} {x : Int} (h : (n, x) ∈ l) {s : State}
    (hn : n < s.mem.stks.length) :
    unit (sampleAll l s).mem.stks n StackSt.reset = (stackStep s.time (unit s.mem.stks n StackSt.reset) x).1 := by
  induction l generalizing s with
  | nil => cases h
  | cons p l ih =>
    rw [List.map_cons, List.nodup_cons] at hl
    rw [sampleAll_cons]
    rcases List.mem_cons.mp h with rfl | h
    · rw [sampleAll_other hl.1, stackSample_stks, unit_set, if_pos ⟨rfl, hn⟩]
    · have hne : n ≠ p.1 := fun he => hl.1 (he ▸ List.mem_map_of_mem h)
      rw [ih hl.2 h (by rw [stackSample_stks, List.length_set]; exact hn), stackSample_time, stackSample_stks, unit_set,
        if_neg fun hn => hne hn.1]

/-! ### The device after the samples -/

/-- The state in which the readings have been taken, before a shutdown. -/
def sampled (ts : List Int) (s : State) : State := noteCool (sampleAll ((List.range 20).zip ts) s)

theorem sampled_changes (ts : List Int) (s : State) : Within 117440802 s (sampled ts s) :=
  noteCool_within _ (by decide) (sampleAll_changes _ s)

theorem sampled_keepalive (ts : List Int) (s : State) : (sampled ts s).pwr.keepalive = s.pwr.keepalive :=
  (sampled_changes ts s).keepalive.resolve_left (by decide)

theorem noteCool_mem (s : State) : (noteCool s).mem = s.mem :=
  (noteCool_within (M := 16777216) s (by decide) (.refl _ _)).mem.resolve_left (by decide)

theorem sampled_stack {ts : List Int} {s : State} (hs : s.mem.stks.length = 20) (hts : ts.length = 20) {n : Nat} {x : Int}
    (h : ts[n]? = some x) :
    unit (sampled ts s).mem.stks n StackSt.reset = (stackStep s.time (unit s.mem.stks n StackSt.reset) x).1 := by
  have hn : n < 20 := by
    obtain ⟨hlt, -⟩ := List.getElem?_eq_some_iff.mp h
    omega
  have hnodup : (((List.range 20).zip ts).map (·.1)).Nodup := by
    rw [List.map_fst_zip (by simp [hts])]
    exact List.nodup_range
  have hmem : (n, x) ∈ (List.range 20).zip ts :=
    List.mem_of_getElem? (List.getElem?_zip_eq_some.mpr ⟨List.getElem?_range hn, h⟩)
  rw [sampled, noteCool_mem]
  exact sampleAll_stack hnodup hmem (hs.symm ▸ hn)

/-- The stacks stay powered until the shutdown. -/
theorem sampled_powered (ts : List Int) (s : State) : stacksPowered (sampled ts s) = stacksPowered s := by
  unfold stacksPowered
  rw [sampled_keepalive, (sampled_changes ts s).boot.resolve_left (by decide)]

section
variable {ts : List Int} {s : State} (hreset : s.boot.inReset = false) (himage : s.boot.noImage = false)
include hreset himage

theorem stackTemps_below (h : ∀ x ∈ ts, x < 115) : stackTemps ts s = sampled ts s := by
  have hnone : ((List.range 20).zip ts).find? (fun p => decide (115 ≤ p.2)) = none :=
    List.find?_eq_none.mpr fun p hp => by simpa using h p.2 (List.of_mem_zip hp).2
  unfold stackTemps
  rw [hreset, himage, hnone]
  rfl

/-- The first stack at 115 °C or more shuts the stacks down (R191). -/
theorem stackTemps_trip (hts : ts.length = 20) (h : ∃ x ∈ ts, 115 ≤ x) (hon : stacksPowered s = true) :
    ∃ n, stackTemps ts s = raiseFatal (sampled ts s) bMEM 12 (locStack n) 0 .thermal := by
  obtain ⟨x, hx, hhot⟩ := h
  obtain ⟨n, hn⟩ := List.mem_iff_getElem?.mp hx
  have hlt : n < 20 := by
    obtain ⟨hlt, -⟩ := List.getElem?_eq_some_iff.mp hn
    omega
  have hmem : (n, x) ∈ (List.range 20).zip ts :=
    List.mem_of_getElem? (List.getElem?_zip_eq_some.mpr ⟨List.getElem?_range hlt, hn⟩)
  obtain ⟨p, hp⟩ := Option.isSome_iff_exists.mp
    (List.find?_isSome (p := fun p : Nat × Int => decide (115 ≤ p.2)).mpr ⟨_, hmem, decide_eq_true hhot⟩)
  refine ⟨p.1, ?_⟩
  unfold stackTemps
  rw [hreset, himage, hp]
  exact if_pos ((sampled_powered ts s).trans hon)

end

/-! ### The command -/

theorem exec_stackTempSample (ts : List Int) (s : State) :
    exec (.stackTempSample ts) s = .next (stackTempSample ts s) := rfl

/-- After the temperatures the command may only tell the peers about the cap (R190). -/
theorem stackTempSample_changes (ts : List Int) (s : State) :
    Within 117530666 (stackTemps ts s) (stackTempSample ts s) :=
  .ite (paceTimer_within _ (by decide) (.refl _ _)) (.refl _ _)

/-- In keep-alive mode no peer is told. -/
theorem stackTempSample_off {ts : List Int} {s : State} (h : (stackTemps ts s).pwr.keepalive = true) :
    stackTempSample ts s = stackTemps ts s := by
  unfold stackTempSample
  exact if_neg (by simp [colOn, h])

/-- Settles O38: below 115 °C only the samples count; at 115 °C the first hot stack's MEM.012 begins keep-alive mode. -/
theorem stackTemperaturesSetTheRows : Obligations.StackTemperaturesSetTheRows := by
  intro ts s hsound hreset himage hts
  obtain ⟨-, -, -, hstks, -⟩ := hsound.1
  refine ⟨fun hcool => ⟨_, exec_stackTempSample ts s, ?_, fun n x hx => ?_⟩,
    fun hhot hon => ⟨_, exec_stackTempSample ts s, ?_⟩⟩
  · rw [(stackTempSample_changes ts s).keepalive.resolve_left (by decide), stackTemps_below hreset himage hcool,
      sampled_keepalive]
  · rw [(stackTempSample_changes ts s).mem.resolve_left (by decide), stackTemps_below hreset himage hcool,
      sampled_stack hstks hts hx]
  · obtain ⟨n, hn⟩ := stackTemps_trip hreset himage hts hhot hon
    have hoff : s.pwr.keepalive = false := by
      simp only [stacksPowered, Bool.and_eq_true, Bool.not_eq_true'] at hon
      exact hon.1.2
    obtain ⟨hkeep, hcause, hnum, hmem⟩ := enterKeepalive_first
      (s := raise (sampled ts s) bMEM 12 (locStack n) noSeq 0) bMEM 12 .thermal
      (by rw [raise_keepalive, sampled_keepalive, hoff])
    have htrip : stackTemps ts s = enterKeepalive (raise (sampled ts s) bMEM 12 (locStack n) noSeq 0) bMEM 12 .thermal := hn
    rw [stackTempSample_off (htrip ▸ hkeep), htrip, hmem]
    exact ⟨hkeep, hcause, hnum, rfl, rfl⟩

end Sys2Proof.Machine
end

section
/-! Retraining of a channel, and its repairs (10 R193-R196). -/

namespace Sys2Proof.Machine

/-! ### A retrain begins, waits, or fails the channel -/

theorem exec_channelRetrain (ch : Channel) (drift : Bool) (s : State) :
    exec (.channelRetrain ch drift) s = .next (channelRetrain ch drift s) := rfl

theorem channelFail_keepalive (s : State) (ch : Nat) : (channelFail s ch).pwr.keepalive = true :=
  raiseFatal_keepalive _ _ _ _ _ _

/-- The state in which a retrain of the channel has begun (R193). -/
def retrainBegun (s : State) (ch : Nat) : State :=
  { s with mem := { s.mem with
    retrainReq := s.mem.retrainReq.filter (· != ch)
    retraining := s.mem.retraining ++ [(ch, s.time)]
    lastRetrain := some s.time
    retrainTimes := (ch, s.time) :: s.mem.retrainTimes.filter fun e => decide (s.time < e.2 + 10 * second) } }

/-- A retrain that was asked for, or is for drift, of a channel that does not retrain. -/
theorem channelRetrain_due {s : State} {ch : Nat} {drift : Bool} (hon : s.mem.on = true)
    (hdue : drift = true ∨ ch ∈ s.mem.retrainReq) (hidle : ∀ r ∈ s.mem.retraining, r.1 ≠ ch) :
    channelRetrain ch drift s =
      if !retrainMay s ch then askRetrain s ch
      else if 3 ≤ retrainsIn10 s ch then channelFail s ch
      else retrainBegun s ch := by
  have hasked : (drift || s.mem.retrainReq.contains ch) = true := by simpa using hdue
  have hany : s.mem.retraining.any (·.1 == ch) = false := by simpa using hidle
  unfold channelRetrain
  rw [hon, hasked, hany]
  rfl

theorem retrainBegun_changes (s : State) (ch : Nat) : Within 256 s (retrainBegun s ch) :=
  .at_mem (by decide) (.inl rfl) id (.inr rfl) (.refl _ s)

theorem retrainBegun_changesOnly (s : State) (ch : Nat) : ChangesOnly [.mem] s (retrainBegun s ch) :=
  (retrainBegun_changes s ch).changesOnly _ (by intro p; cases p <;> decide)

/-- A channel's request stands, and no other channel's is touched. -/
theorem askRetrain_stands (s : State) (ch : Nat) :
    ch ∈ (askRetrain s ch).mem.retrainReq ∧
      (∀ k, k ≠ ch → (k ∈ (askRetrain s ch).mem.retrainReq ↔ k ∈ s.mem.retrainReq)) ∧
      askRetrain s ch = { s with mem := { s.mem with retrainReq := (askRetrain s ch).mem.retrainReq } } := by
  unfold askRetrain
  split
  next h => exact ⟨List.contains_iff_mem.mp h, fun _ _ => .rfl, rfl⟩
  next => exact ⟨by simp, fun k hk => by simp [hk], rfl⟩

/-! ### A retrain ends -/

theorem exec_retrainDone (ch : Channel) (trained : Bool) (bad : List (Fin 40)) (s : State) :
    exec (.retrainDone ch trained bad) s = .next (retrainDone ch trained (bad.map (·.val)) s) := rfl

/-- The state in which the channel's retrain, begun at `t0`, is over and the time that it blocked the channel is noted. -/
def retrainOver (s : State) (ch t0 : Nat) : State :=
  noteMaint { s with mem := { s.mem with retraining := s.mem.retraining.filter (·.1 != ch) } } t0
    (min s.time (t0 + retrainMax))

section
variable {s : State} {ch t0 : Nat} (hfind : s.mem.retraining.find? (·.1 == ch) = some (ch, t0)) (bad : List Nat)
include hfind

/-- A training that succeeds, whose bad lanes find spares, ends the retrain. -/
theorem retrainDone_trained {u : State} (hbad : bad.foldl (laneRepair ch) (retrainOver s ch t0, false) = (u, false)) :
    retrainDone ch true bad s = raise (ctrAdd u (ctrStack (ch / 64) 5) 1) bMEM 20 (locChannel ch) noSeq 0 := by
  rw [retrainOver] at hbad
  unfold retrainDone
  rw [hfind]
  dsimp only
  rw [hbad]
  rfl

theorem retrainDone_untrained :
    retrainDone ch false bad s = channelFail (bad.foldl (laneRepair ch) (retrainOver s ch t0, false)).1 ch := by
  unfold retrainDone
  rw [hfind]
  rfl

end

/-- A data or ECC lane takes spare lane 36 where it is free (R194). -/
theorem laneRepair_spare36 {s : State} {ch lane : Nat} (hlane : lane < 36) (hfree : 36 ∉ sparesUsed s ch) :
    laneRepair ch (s, false) lane =
      (raise { s with mem := { s.mem with repairs := s.mem.repairs ++
        [{ channel := ch, isRow := false, lane := lane, bank := 0, row := 0, spare := 36 }] } } bMEM 21 (locChannel ch)
        noSeq 0, false) := by
  have hdata : ¬ 36 ≤ lane := by omega
  simp [laneRepair, hdata, hfree]

/-- Settles O39: each clause is one case of what a retrain's request, or its end, does. -/
theorem retrainingFollowsItsRules : Obligations.RetrainingFollowsItsRules := by
  intro ch drift s
  refine ⟨fun hon hdue hidle => ?_, fun t0 hfind => ⟨?_, fun lane hlane hfree => ?_, ?_⟩⟩
  · rw [exec_channelRetrain, channelRetrain_due hon hdue hidle]
    refine ⟨fun hmay hfew => ?_, fun hmay hmany => ?_, fun hwait => ?_⟩
    · rw [hmay, if_neg (by decide), if_neg (by omega)]
      exact ⟨_, rfl, retrainBegun_changesOnly s ch, rfl, rfl, rfl, rfl, rfl, rfl⟩
    · rw [hmay, if_neg (by decide), if_pos hmany]
      exact ⟨rfl, channelFail_keepalive s ch⟩
    · rw [hwait, if_pos (by decide)]
      exact ⟨_, rfl, askRetrain_stands s ch⟩
  · have hend := retrainDone_trained hfind [] rfl
    exact ⟨_, ctrAdd (retrainOver s ch t0) (ctrStack (ch / 64) 5) 1,
      (exec_retrainDone ch true [] s).trans (congrArg _ hend), rfl, raise_mem .., raise_keepalive ..⟩
  · have hend := retrainDone_trained hfind [lane.val] (laneRepair_spare36 (s := retrainOver s ch t0) hlane hfree)
    refine ⟨_, (exec_retrainDone ch true [lane] s).trans (congrArg _ hend), ?_⟩
    rw [raise_mem, ctrAdd_mem, raise_mem]
    rfl
  · exact ⟨_, (exec_retrainDone ch false [] s).trans (congrArg _ (retrainDone_untrained hfind [])),
      channelFail_keepalive _ _⟩

end Sys2Proof.Machine
end

section
/-! SUPPORT. Engines under the shared updates (11 R211, R212). -/

namespace Sys2Proof.Machine

theorem Sound.eng_length {s : State} (h : Sound s) : s.eng.length = 64 := by
  obtain ⟨⟨-, -, -, -, heng, -⟩, -, -⟩ := h
  exact heng

theorem engAt_congr {s t : State} (h : t.eng = s.eng) (e : Nat) : engAt t e = engAt s e := by
  unfold engAt; rw [h]

theorem engAt_modEng_same {s : State} {e : Nat} (f : EngSt → EngSt) (h : e < s.eng.length) :
    engAt (modEng s e f) e = f (engAt s e) := by
  rw [engAt_modEng, if_pos ⟨rfl, h⟩]

theorem engAt_modEng_other {s : State} {e k : Nat} (f : EngSt → EngSt) (h : k ≠ e) :
    engAt (modEng s e f) k = engAt s k := by
  rw [engAt_modEng, if_neg fun x => h x.1]

/-- What a change of an engine makes true of it, and the reset engine has, holds of the engine after the change. -/
theorem engAt_modEng_holds {s : State} {e : Nat} {f : EngSt → EngSt} {P : EngSt → Prop} (hf : ∀ g, P (f g))
    (hreset : P EngSt.reset) : P (engAt (modEng s e f) e) := by
  by_cases h : e < s.eng.length
  · rw [engAt_modEng_same f h]
    exact hf _
  · rw [engAt_modEng, if_neg fun x => h x.2, engAt, unit_of_length_le _ (Nat.le_of_not_lt h)]
    exact hreset

theorem modEng_changesOnly (s : State) (e : Nat) (f : EngSt → EngSt) : ChangesOnly [.eng] s (modEng s e f) :=
  (modEng_within (M := 2048) s e f (by decide) (.refl _ _)).changesOnly _ (by intro p; cases p <;> decide)

theorem raise_eng (s : State) (block num : Nat) (l : BitVec 32) (seq : Nat) (detail : Word64) :
    (raise s block num l seq detail).eng = s.eng :=
  (raise_within (M := 117440546) s block num l seq detail (by decide) (.refl _ _)).eng.resolve_left (by decide)

end Sys2Proof.Machine
end

section
/-! The doorbell of an engine (11 R212). -/

namespace Sys2Proof.Machine

theorem exec_dmaEngDb {s : State} (h : hostMay s = true) (n : Engine) (v : Word64) :
    exec (.dmaEngDb n v) s = .next (doorbell n v s) :=
  congrArg Host.Outcome.next (if_pos h)

section
variable {n : Nat} {v : Word64} {s : State}

theorem doorbell_outside
    (h : ((engAt s n).tail - (engAt s n).head).toNat ≤ (v.setWidth 10 - (engAt s n).head).toNat) :
    doorbell n v s = modEng s n fun g => { g with tail := v.setWidth 10 } :=
  if_pos h

theorem doorbell_inside
    (h : (v.setWidth 10 - (engAt s n).head).toNat < ((engAt s n).tail - (engAt s n).head).toNat) :
    doorbell n v s = raise s bDMA 3 (locEngine n) noSeq 0 :=
  if_neg (Nat.not_le.mpr h)

end

/-- Settles O31: whether the written tail lies inside the owned span decides between the two ends of the write. -/
theorem doorbellPassesEntries : Obligations.DoorbellPassesEntries := by
  intro n v s hsnd hmay
  have hn : n.val < s.eng.length := by rw [hsnd.eng_length]; exact n.isLt
  rw [exec_dmaEngDb hmay]
  refine ⟨fun hout => ⟨_, rfl, ?_⟩, fun hin => ⟨_, rfl, doorbell_inside hin, ?_⟩⟩
  · rw [doorbell_outside hout]
    exact ⟨modEng_changesOnly s n _, engAt_modEng_same _ hn, fun k hk => engAt_modEng_other _ hk⟩
  · rw [doorbell_inside hin, raise_eng]

end Sys2Proof.Machine
end

section
/-! Invalidation of cached translations (11 R203, R204). -/

namespace Sys2Proof.Machine

theorem exec_xltInval {s : State} (h : hostMay s = true) (v : Word64) :
    exec (.xltInval v) s = .next (xltInval v s) :=
  congrArg Host.Outcome.next (if_pos h)

theorem exec_invalComplete (s : State) : exec .invalComplete s = .next (invalComplete s) := rfl

theorem xltInval_changesOnly (v : Word64) (s : State) : ChangesOnly [.xlt] s (xltInval v s) :=
  (xltInval_within (M := 1024) v s (by decide) (.refl _ _)).changesOnly _ (by intro p; cases p <;> decide)

theorem invalComplete_changesOnly (s : State) : ChangesOnly [.xlt] s (invalComplete s) :=
  (invalComplete_within (M := 1024) s (by decide) (.refl _ _)).changesOnly _ (by intro p; cases p <;> decide)

/-- The oldest invalidation leaves what waits behind it and the cached entries that it does not meet. -/
theorem invalComplete_xlt {s : State} {r : Option (Nat × Nat)} {rest : List (Option (Nat × Nat))}
    (h : s.xlt.invals = r :: rest) :
    (invalComplete s).xlt = { s.xlt with
      invals := rest, tlb := s.xlt.tlb.filter fun t => !invalHits r t, invalDone := s.xlt.invalDone + 1 } := by
  unfold invalComplete
  rw [h]

/-- Settles O33: the write queues a range, and its completion filters the cached entries by it. -/
theorem invalidationDiscardsWhatItCovers : Obligations.InvalidationDiscardsWhatItCovers := by
  intro v s
  refine ⟨fun hmay => ⟨_, exec_xltInval hmay v, xltInval_changesOnly v s, rfl⟩, fun r rest hinv =>
    ⟨_, exec_invalComplete s, invalComplete_changesOnly s, ?_⟩⟩
  rw [invalComplete_xlt hinv]
  exact ⟨rfl, rfl, rfl, fun p => by simp only [List.mem_filter, Bool.not_eq_true']⟩

end Sys2Proof.Machine
end

section
/-! A memory request of another member (11 R223, R224, 14 R275). That a write of poison is a request of its own form is log
entry 105. -/

namespace Sys2Proof.Machine

theorem exec_memRequest {s : State} (hmember : s.self.member = true) (hka : s.pwr.keepalive = false) (src : BitVec 16)
    (req : BitVec 32) (op : MemOp) (va : BitVec 52) (n : Nat) (data : List Byte) :
    exec (.memRequest src req op va n data) s = .next (memRequest src req op va.toNat n data s) :=
  congrArg Host.Outcome.next (if_pos (by rw [hmember, hka]; rfl))

/-- The record of a fault that a request of member `i` meets. -/
def peerFault (i : Nat) (req : BitVec 32) (level at' : Nat) : FaultRec :=
  { mkFault 6 level (at' % 2 ^ 52) 0 noSeq (.peer i req.toNat) with peer := some i }

section
variable {src : BitVec 16} {req : BitVec 32} {op : MemOp} {va n i : Nat} {data : List Byte} {s v : State}
  (hfrom : (s.self.slice.bind fun r => indexOf s.self.dims r src) = some i)
include hfrom

theorem memRequest_placed {l : List (Nat × Nat)}
    (hp : peerPlaces (requestNeed op) va (requestBytes op va n data) s = (.inl l, v)) :
    memRequest src req op va n data s =
      inject (requestDo op data l v).2.2 i 3
        (.memResponse req (.data (requestDo op data l v).1) (requestDo op data l v).2.1) := by
  unfold memRequest
  rw [hfrom]
  dsimp only
  rw [hp]

theorem memRequest_recoverable {level at' : Nat}
    (hp : peerPlaces (requestNeed op) va (requestBytes op va n data) s = (.inr (.retry level, at'), v)) :
    memRequest src req op va n data s =
      inject (faultRetry v (peerFault i req level at')).2 i 3
        (.memResponse req ((faultRetry v (peerFault i req level at')).1.elim .abort .faulted) []) := by
  unfold memRequest
  rw [hfrom]
  dsimp only
  rw [hp]
  change (match (faultRetry v (peerFault i req level at')).1 with | some tag => _ | none => _) = _
  cases (faultRetry v (peerFault i req level at')).1 <;> rfl

theorem memRequest_fatal {code level at' : Nat}
    (hp : peerPlaces (requestNeed op) va (requestBytes op va n data) s = (.inr (.fatal code level, at'), v)) :
    memRequest src req op va n data s =
      inject (faultFatal v { peerFault i req level at' with code := code }) i 3 (.memResponse req .abort []) := by
  unfold memRequest
  rw [hfrom]
  dsimp only
  rw [hp]
  rfl

end

/-- Settles O34: what the places of the request come to decides what is done and answered. -/
theorem peerRequestsAreAnswered : Obligations.PeerRequestsAreAnswered := by
  intro src req op va n i data s hmember hka hfrom
  rw [exec_memRequest hmember hka]
  refine ⟨fun l v hp => ?_, fun level at' v w f tag hp hf hfault => ?_, fun level at' v w f hp hf hfault => ?_,
    fun code level at' v hp => ?_⟩
  · rw [memRequest_placed hfrom hp]
  · rw [memRequest_recoverable hfrom hp, peerFault, ← hf, hfault]
    rfl
  · rw [memRequest_recoverable hfrom hp, peerFault, ← hf, hfault]
    rfl
  · rw [memRequest_fatal hfrom hp, peerFault]

end Sys2Proof.Machine
end

section
/-! DQ (11 R209, R210). -/

namespace Sys2Proof.Machine

/-- The command that DQ reads at store offset `a`, as the thread issues it. -/
def dqCmd (u : State) (c t a : Nat) (pc : Word64) : DmaCmd :=
  { mkCmd u.nextNum (ownSeq (BitVec.ofNat 512 (ofLE (csBytes u c a 64))) (thrAt u c t).seq)
      (.thread c t (thrAt u c t).item) pc with
    rank := (thrAt u c t).rank, pidx := (thrAt u c t).pidx, owner := (thrAt u c t).seq
    target := (itemOf u (thrAt u c t).seq (thrAt u c t).item).elim 0 (·.target) }

theorem exec_dq {c : Cluster} {s u : State} {t : Nat} {pc : Word64} (h : issued s c 8 = some (t, pc, u))
    (w : BitVec 56) : exec (.dq c w) s = .next (dq w c t pc u) :=
  congrArg Host.Outcome.next (issue_of_issued h fun t pc s => dq w c t pc s)

section
variable {w : BitVec 56} {c t a e : Nat} {pc : Word64} {u v : State}
  (ha : a = (reg (thrAt u c t) (wReg w 51 47)).toNat) (hal : a % 64 = 0) (hin : a + 64 ≤ csSize)
  (hgood : csBadRange u c a 64 = false)
  (he : e = engineFor c (thrAt u c t).rank (cmdClass (dqCmd u c t a pc)))
include ha hal hin hgood he

theorem dq_full (hfull : 256 ≤ (engAt u e).thrQ.length) :
    dq w c t pc u = setPc (wait u c t (.dqFull e)) c t pc := by
  subst he ha
  unfold dq
  dsimp only
  rw [if_neg (not_not_intro hal), if_neg (Nat.not_lt.mpr hin), hgood]
  exact if_pos hfull

theorem dq_accepted (hroom : (engAt u e).thrQ.length < 256) (hok : cmdCheck u true (dqCmd u c t a pc) = (none, v)) :
    dq w c t pc u = enqueue v e (dqCmd u c t a pc) := by
  subst he ha
  unfold dq
  dsimp only
  rw [if_neg (not_not_intro hal), if_neg (Nat.not_lt.mpr hin), hgood]
  refine (if_neg (Nat.not_le.mpr hroom)).trans ?_
  rw [← dqCmd, hok]

end

/-- The thread waits at its own instruction. -/
theorem setPc_wait (u : State) (c t : Nat) (x : Wait) (pc : Word64) :
    setPc (wait u c t x) c t pc = modThr u c t fun h => { h with state := .waiting, wait := x, pc := pc } := by
  unfold setPc wait modThr modCl
  dsimp only
  rw [List.modify_modify_eq]
  congr 2
  funext cl
  exact congrArg (fun l => { cl with threads := l }) (List.modify_modify_eq _ _ _ _)

/-- The checks read memory and translate. -/
theorem cmdCheck_changes {u v : State} {k : DmaCmd} {o : Option CmdBad} (h : cmdCheck u true k = (o, v)) :
    Within 251659554 u v :=
  .ofSnd h (cmdCheck_within u true k (by decide) (.refl _ _))

/-- Settles O20: a full engine makes the thread wait at its instruction; otherwise the checks leave every engine, and the
command joins the end of its own. -/
theorem dqQueuesOneCommand : Obligations.DqQueuesOneCommand := by
  intro c w s u v t e a k pc hsnd hiss ha hal hin hgood hk he hlt
  replace hk : k = dqCmd u c t a pc := hk
  subst hk
  rw [exec_dq hiss]
  refine ⟨fun hfull => ⟨_, rfl, ?_⟩, fun hroom hok => ⟨_, rfl, ?_⟩⟩
  · rw [dq_full ha hal hin hgood he hfull, setPc_wait]
    exact ⟨onlyThread_modThr u c t _, thrAt_modThr_same _ (hasThread_of_issued hiss)⟩
  · have hchk := cmdCheck_changes hok
    have heng : v.eng = u.eng := hchk.eng.resolve_left (by decide)
    have hlen : e < v.eng.length := by rw [heng, ((issued_within hiss).sound hsnd).eng_length]; exact hlt
    have hnum : v.nextNum = u.nextNum := hchk.nextNum.resolve_left (by decide)
    rw [dq_accepted ha hal hin hgood he hroom hok]
    refine ⟨?_, fun f hf => ?_, congrArg (· + 1) hnum, ?_⟩
    · exact (engAt_modEng_same (s := { v with nextNum := v.nextNum + 1 }) _ hlen).trans
        (congrArg (fun g : EngSt => { g with thrQ := g.thrQ ++ [dqCmd u c t a pc] }) (engAt_congr heng e))
    · exact (engAt_modEng_other _ hf).trans (engAt_congr heng f)
    · exact (enqueue_within (M := 251661606) v e _ (by decide) (hchk.mono (by decide))).changesOnly _
        (by intro p; cases p <;> decide)

end Sys2Proof.Machine
end

section
/-! Faults that the run-time resolves, and their limit (11 R218-R220). -/

namespace Sys2Proof.Machine

theorem exec_xltResolveRetry {s : State} (h : hostMay s = true) (tag : BitVec 32) :
    exec (.xltResolveRetry tag) s = .next (resolveRetry tag s) :=
  congrArg Host.Outcome.next (if_pos h)

theorem exec_xltResolveAbort {s : State} (h : hostMay s = true) (tag : BitVec 32) :
    exec (.xltResolveAbort tag) s = .next (resolveAbort tag s) :=
  congrArg Host.Outcome.next (if_pos h)

theorem exec_faultTimeout (tag : BitVec 32) (s : State) : exec (.faultTimeout tag) s = .next (faultTimeout tag s) := rfl

/-- A thread that runs an item exists. -/
theorem hasThread_of_isOn {s : State} {c t item : Nat} (h : isOn s c t item = true) : HasThread s c t :=
  hasThread_of_not_free fun hfree => by simp [isOn, ofItem, hfree] at h

/-! ### The fault of a tag -/

theorem faultAt_tag {s : State} {tag : BitVec 32} {f : FaultRec} (h : faultAt s tag = some f) : f.tag = tag := by
  unfold faultAt at h
  split at h
  · cases h
  · simpa using List.find?_some h

section
variable {s : State} {f : FaultRec} (h : faultAt s f.tag = some f)
include h

theorem resolveRetry_found : resolveRetry f.tag s = faultRetried f s := by
  unfold resolveRetry
  rw [h]
  rfl

theorem resolveAbort_found : resolveAbort f.tag s = faultAborted 2 f s := by
  unfold resolveAbort
  rw [h]
  rfl

theorem faultTimeout_found :
    faultTimeout f.tag s = if limitPast s f.seq f.ticks f.arose 0 0 then faultAborted 3 f s else s := by
  unfold faultTimeout
  rw [h]

end

/-! ### What waits for a fault goes on, or ends -/

section
variable {s : State} {f : FaultRec} {c t item : Nat} (hreq : f.req = .thread c t item)
include hreq

theorem faultRetried_thread (hon : isOn s c t item = true) :
    faultRetried f s = modThr (dropFault s f.tag) c t unwait := by
  unfold faultRetried
  rw [hreq]
  exact modAny_on (s := dropFault s f.tag) hon unwait

theorem faultAborted_thread (code : Nat) :
    faultAborted code f s = endThread none c t item bXLT code f.va
      (raise (dropFault s f.tag) bXLT code (faultLoc f) f.seq (f.tag.setWidth 64)) := by
  unfold faultAborted
  rw [hreq]

end

section
variable {s : State} {f : FaultRec} {e : Nat} {cmd : DmaCmd} (hreq : f.req = .engine e)
include hreq

theorem faultRetried_engine (hpark : parkedAt s e f.tag = some cmd) :
    faultRetried f s =
      resumeCmd e { cmd with faults := cmd.faults + 1 } (unpark (dropFault s f.tag) e f.tag) := by
  have hpark' : parkedAt (dropFault s f.tag) e f.tag = some cmd := hpark
  unfold faultRetried
  rw [hreq]
  dsimp only
  rw [hpark']

theorem faultAborted_engine (code : Nat) :
    faultAborted code f s = abortParked e f.tag (code == 2) code f.va
      (raise (dropFault s f.tag) bXLT code (faultLoc f) f.seq (f.tag.setWidth 64)) := by
  unfold faultAborted
  rw [hreq]

end

theorem abortParked_found {s : State} {e : Nat} {tag : BitVec 32} {cmd : DmaCmd} (h : parkedAt s e tag = some cmd)
    (counts : Bool) (code place : Nat) :
    abortParked e tag counts code place s =
      endIssuer (codAborted { cmd with faults := cmd.faults + counts.toNat }
        (complete (unpark s e tag) e { cmd with faults := cmd.faults + counts.toNat } stABORTED))
        { cmd with faults := cmd.faults + counts.toNat } bXLT code place := by
  unfold abortParked
  rw [h]

/-- Settles O32: each clause is what a retry or an abort does for a thread or for an engine. -/
theorem faultsAreResolved : Obligations.FaultsAreResolved := by
  intro tag f s hfault
  obtain rfl : f.tag = tag := faultAt_tag hfault
  refine ⟨rfl, fun c k item hmay hreq hon => ⟨_, exec_xltResolveRetry hmay _, ?_⟩, fun e cmd hmay hreq hpark => ?_,
    fun c k item u hmay hreq hu => ?_, fun e cmd u hmay hreq hu hpark => ?_, fun hin => ?_,
    fun c k item u hpast hreq hu => ?_, fun e cmd u hpast hreq hu hpark => ?_⟩
  · have hthr : HasThread (dropFault s f.tag) c k := hasThread_of_isOn (s := s) hon
    rw [resolveRetry_found hfault, faultRetried_thread hreq hon]
    exact ⟨onlyThread_modThr _ c k _, thrAt_modThr_same unwait hthr⟩
  · rw [exec_xltResolveRetry hmay, resolveRetry_found hfault, faultRetried_engine hreq hpark]
  · rw [exec_xltResolveAbort hmay, resolveAbort_found hfault, faultAborted_thread hreq, hu]
  · subst hu
    rw [exec_xltResolveAbort hmay, resolveAbort_found hfault, faultAborted_engine hreq, abortParked_found hpark]
    rfl
  · rw [exec_faultTimeout, faultTimeout_found hfault, hin]
    rfl
  · rw [exec_faultTimeout, faultTimeout_found hfault, if_pos hpast, faultAborted_thread hreq, hu]
  · subst hu
    rw [exec_faultTimeout, faultTimeout_found hfault, if_pos hpast, faultAborted_engine hreq, abortParked_found hpark]
    rfl

end Sys2Proof.Machine
end

section
/-! The command that an engine starts, and what it runs (11 R211-R215, R217). -/

namespace Sys2Proof.Machine

/-! ### The choice among the commands that may start (R213) -/

/-- No command of a list ranks above `c`, which stands in it. -/
structure RanksFirst (s : State) (l : List DmaCmd) (c : DmaCmd) : Prop where
  mem : c ∈ l
  first : ∀ k ∈ l, seqClass s (cmdSeq c) ≤ seqClass s (cmdSeq k)

theorem RanksFirst.append {s : State} {l m : List DmaCmd} {c d : DmaCmd} (hc : RanksFirst s l c)
    (hd : RanksFirst s m d) (h : seqClass s (cmdSeq c) ≤ seqClass s (cmdSeq d)) : RanksFirst s (l ++ m) c where
  mem := List.mem_append_left _ hc.mem
  first k hk := (List.mem_append.mp hk).elim (hc.first k) fun hm => Nat.le_trans h (hd.first k hm)

theorem RanksFirst.of_perm {s : State} {l m : List DmaCmd} {c : DmaCmd} (h : RanksFirst s l c) (hp : l.Perm m) :
    RanksFirst s m c where
  mem := hp.mem_iff.mp h.mem
  first k hk := h.first k (hp.mem_iff.mpr hk)

/-- The better of the best command so far and the next one. -/
def betterCmd (s : State) (best : Option DmaCmd) (c : DmaCmd) : Option DmaCmd :=
  match best with
  | none => some c
  | some b => if seqClass s (cmdSeq c) < seqClass s (cmdSeq b) then some c else some b

theorem bestOf_eq (s : State) (l : List DmaCmd) : bestOf s l = l.foldl (betterCmd s) none := rfl

/-- The fold from a command on keeps one that none of the list, and not that command, ranks above. -/
theorem foldl_betterCmd (s : State) (b : DmaCmd) (l : List DmaCmd) :
    ∃ c, l.foldl (betterCmd s) (some b) = some c ∧ RanksFirst s (b :: l) c := by
  induction l generalizing b with
  | nil => exact ⟨b, rfl, List.mem_cons_self, fun k hk => List.mem_singleton.mp hk ▸ Nat.le_refl _⟩
  | cons x l ih =>
    by_cases hx : seqClass s (cmdSeq x) < seqClass s (cmdSeq b)
    · obtain ⟨c, hc, hfirst⟩ := ih x
      refine ⟨c, ?_, List.mem_cons_of_mem _ hfirst.mem, fun k hk => ?_⟩
      · rw [List.foldl_cons, betterCmd, if_pos hx, hc]
      · rcases List.mem_cons.mp hk with rfl | hk
        · exact Nat.le_trans (hfirst.first x List.mem_cons_self) (Nat.le_of_lt hx)
        · exact hfirst.first k hk
    · obtain ⟨c, hc, hfirst⟩ := ih b
      refine ⟨c, ?_, ?_, fun k hk => ?_⟩
      · rw [List.foldl_cons, betterCmd, if_neg hx, hc]
      · exact (List.mem_cons.mp hfirst.mem).elim (fun h => h ▸ List.mem_cons_self)
          fun h => List.mem_cons_of_mem _ (List.mem_cons_of_mem _ h)
      · have hb := hfirst.first b List.mem_cons_self
        rcases List.mem_cons.mp hk with rfl | hk
        · exact hb
        · rcases List.mem_cons.mp hk with rfl | hk
          · exact Nat.le_trans hb (Nat.le_of_not_lt hx)
          · exact hfirst.first k (List.mem_cons_of_mem _ hk)

/-- A list is empty or has a best command. -/
theorem bestOf_cases (s : State) (l : List DmaCmd) :
    l = [] ∧ bestOf s l = none ∨ ∃ c, bestOf s l = some c ∧ RanksFirst s l c := by
  cases l with
  | nil => exact .inl ⟨rfl, rfl⟩
  | cons b l => exact .inr (foldl_betterCmd s b l)

/-- The commands of an engine that may start. -/
def startable (s : State) (e : Nat) : List DmaCmd :=
  ((engAt s e).thrQ ++ (engAt s e).hostQ).filter (mayStart s (engAt s e))

theorem nextCmd_ranksFirst {s : State} {e : Nat} {c : DmaCmd} (h : nextCmd s e = some c) :
    RanksFirst s (startable s e) c := by
  unfold startable
  rw [List.filter_append]
  unfold nextCmd at h
  dsimp only at h
  rcases bestOf_cases s ((engAt s e).thrQ.filter (mayStart s (engAt s e))) with ⟨ht, hbt⟩ | ⟨t, hbt, ht⟩ <;>
    rcases bestOf_cases s ((engAt s e).hostQ.filter (mayStart s (engAt s e))) with ⟨hh, hbh⟩ | ⟨d, hbh, hh⟩ <;>
    rw [hbt, hbh] at h
  · cases h
  · cases h
    rwa [ht, List.nil_append]
  · cases h
    rwa [hh, List.append_nil]
  · dsimp only at h
    split at h
    next hlt =>
      cases h
      refine (hh.append ht ?_).of_perm List.perm_append_comm
      simp only [Bool.or_eq_true, Bool.and_eq_true, decide_eq_true_eq, beq_iff_eq] at hlt
      omega
    next hge =>
      cases h
      refine ht.append hh ?_
      simp only [Bool.or_eq_true, decide_eq_true_eq, not_or] at hge
      omega

theorem mem_startable {s : State} {e : Nat} {c : DmaCmd} :
    c ∈ startable s e ↔ c ∈ (engAt s e).thrQ ++ (engAt s e).hostQ ∧ mayStart s (engAt s e) c = true :=
  List.mem_filter

/-! ### The start of a command (R211, R212) -/

/-- An engine whose queues the command has left. -/
def EngSt.without (c : DmaCmd) (g : EngSt) : EngSt :=
  { g with thrQ := g.thrQ.filter (·.num != c.num), hostQ := g.hostQ.filter (·.num != c.num),
           hostTurn := c.issuer != .host }

theorem takeCmd_eng (s : State) (e : Nat) (c : DmaCmd) :
    (takeCmd s e c).eng = (modEng s e (EngSt.without c)).eng := by
  unfold takeCmd
  dsimp only
  split <;> rfl

theorem takeCmd_gone (s : State) (e : Nat) (c : DmaCmd) :
    ∀ k ∈ (engAt (takeCmd s e c) e).thrQ ++ (engAt (takeCmd s e c) e).hostQ, k.num ≠ c.num := by
  rw [engAt_congr (takeCmd_eng s e c)]
  refine engAt_modEng_holds (P := fun g => ∀ k ∈ g.thrQ ++ g.hostQ, k.num ≠ c.num) (fun g k hk => ?_)
    fun k hk => nomatch hk
  rw [EngSt.without, ← List.filter_append] at hk
  simpa using (List.mem_filter.mp hk).2

/-- What it takes to start: the engine may run, and the command is next after the host queue was read. -/
theorem starts_cases {s v : State} {e : Nat} {c : DmaCmd} (h : starts s e = some (c, v)) :
    engFree s e = true ∧ nextCmd (readQueue e (ownedEntries (engAt s e)) s) e = some c ∧
      v = takeCmd (readQueue e (ownedEntries (engAt s e)) s) e c := by
  unfold starts at h
  split at h
  next hfree =>
    obtain ⟨k, hk, hkv⟩ := Option.map_eq_some_iff.mp h
    cases hkv
    exact ⟨hfree, hk, rfl⟩
  next => cases h

theorem startOp_of_starts {s v : State} {e op : Nat} {c : DmaCmd} (h : starts s e = some (c, v)) (hop : cmdOp c = op)
    (run : DmaCmd → State → State) : startOp e op run s = run c v := by
  obtain ⟨hfree, hnext, rfl⟩ := starts_cases h
  unfold startOp
  rw [hfree]
  dsimp only
  rw [if_neg (by decide), hnext]
  exact if_pos hop

/-! ### The rows of the engines (R214, R215) -/

/-- Each row starts the command whose OP it has. -/
theorem exec_engineRow (e : Engine) (err : Option Nat) (au : AccessUnit) (s : State) {i : Instr} {op : Nat}
    {run : DmaCmd → State → State}
    (h : (i, op, run) ∈ [(Instr.kvput e, 0x01, runKvput e), (.kvget e, 0x02, runKvget e),
        (.copy e err, 0x10, fun k => runCopy e { k with errAt := err }), (.fmapPack e, 0x11, runPack e),
        (.fmapUnpack e, 0x12, runUnpack e), (.hostIn e err, 0x13, fun k => runHostIn e { k with errAt := err }),
        (.hostOut e err, 0x14, fun k => runHostOut e { k with errAt := err }), (.open_ e, 0x20, runOpen e),
        (.close e, 0x21, runClose e), (.encode e, 0x22, runEncode e), (.decode e au, 0x23, runDecode e au),
        (.play e, 0x24, runPlay e)]) :
    exec i s = .next (startOp e op run s) := by
  simp only [List.mem_cons, List.not_mem_nil, or_false, Prod.mk.injEq] at h
  rcases h with ⟨rfl, rfl, rfl⟩ | ⟨rfl, rfl, rfl⟩ | ⟨rfl, rfl, rfl⟩ | ⟨rfl, rfl, rfl⟩ | ⟨rfl, rfl, rfl⟩ | ⟨rfl, rfl, rfl⟩ |
    ⟨rfl, rfl, rfl⟩ | ⟨rfl, rfl, rfl⟩ | ⟨rfl, rfl, rfl⟩ | ⟨rfl, rfl, rfl⟩ | ⟨rfl, rfl, rfl⟩ | ⟨rfl, rfl, rfl⟩ <;> rfl

/-! ### The pieces of a transfer (R215) -/

section
variable {e : Nat} {k : DmaCmd} {v w : State} {ps : List (Nat × (Xfer → PieceEnd × Xfer))}
  (h : transferPieces e k v = (some ps, w))
include h

theorem runKvput_of_pieces (hop : cmdOp k = 0x01) :
    runKvput e k v = settle e (runPieces e ps 0 ⟨w, k, [], e⟩) := by
  unfold transferPieces at h
  rw [hop] at h
  obtain ⟨hps, rfl⟩ := Prod.mk.inj h
  obtain ⟨d, hd, rfl⟩ := Option.map_eq_some_iff.mp hps
  unfold runKvput runKv
  dsimp only
  rw [hd]

theorem runKvget_of_pieces (hop : cmdOp k = 0x02) :
    runKvget e k v = settle e (runPieces e ps 0 ⟨w, k, [], e⟩) := by
  unfold transferPieces at h
  rw [hop] at h
  obtain ⟨hps, rfl⟩ := Prod.mk.inj h
  obtain ⟨d, hd, rfl⟩ := Option.map_eq_some_iff.mp hps
  unfold runKvget runKv
  dsimp only
  rw [hd]

theorem runCopy_of_pieces (hop : cmdOp k = 0x10) :
    runCopy e k v = settle e (runPieces e ps 0 ⟨w, k, [], e⟩) := by
  unfold transferPieces at h
  rw [hop] at h
  cases h
  rfl

theorem runPack_of_pieces (hop : cmdOp k = 0x11) :
    runPack e k v = settle e (runPieces e ps 0 ⟨w, k, [], e⟩) := by
  unfold transferPieces at h
  rw [hop] at h
  cases h
  rfl

theorem runUnpack_of_pieces (hop : cmdOp k = 0x12) :
    runUnpack e k v = settle e (runPieces e ps 0 ⟨w, k, [], e⟩) := by
  unfold transferPieces at h
  rw [hop] at h
  cases h
  rfl

/-- Pieces show that the header was read, and from host memory. -/
theorem runHostIn_of_pieces (hop : cmdOp k = 0x13) :
    runHostIn e k v = settle e (runPieces e ps 0 ⟨w, k, [], e⟩) := by
  unfold transferPieces at h
  rw [hop] at h
  obtain ⟨hps, rfl⟩ := Prod.mk.inj h
  unfold runHostIn
  dsimp only at hps ⊢
  generalize readContainer v (gLocal (dmaDesc k).src) (4 + e) = header at hps ⊢
  obtain ⟨got, ct, z⟩ := header
  match got with
  | .data _ _ true => cases hps; rfl
  | .data _ _ false => cases hps
  | .xl _ _ => cases hps
  | .hostErr => cases hps

theorem runHostOut_of_pieces (hop : cmdOp k = 0x14) :
    runHostOut e k v = settle e (runPieces e ps 0 ⟨w, k, [], e⟩) := by
  unfold transferPieces at h
  rw [hop] at h
  obtain ⟨hps, rfl⟩ := Prod.mk.inj h
  unfold runHostOut
  dsimp only at hps ⊢
  generalize readContainer v (gLocal (dmaDesc k).dst) (4 + e) = header at hps ⊢
  obtain ⟨got, ct, z⟩ := header
  match got with
  | .data _ _ true => cases hps; rfl
  | .data _ _ false => cases hps
  | .xl _ _ => cases hps
  | .hostErr => cases hps

end

/-- A transfer that starts and runs all its pieces completes with status OK (R214). -/
theorem exec_transfer {i : Instr} {e : Engine} {op : Nat} {run : DmaCmd → State → State} {s v w : State} {c k : DmaCmd}
    {ps : List (Nat × (Xfer → PieceEnd × Xfer))} {x : Xfer} (hexec : exec i s = .next (startOp e op run s))
    (hs : starts s e = some (c, v)) (hop : cmdOp c = op)
    (hrun : run c v = settle e (runPieces e ps 0 ⟨w, k, [], e⟩)) (hdone : runPieces e ps 0 ⟨w, k, [], e⟩ = (none, x)) :
    exec i s = .next (complete x.s e x.cmd stOK) := by
  rw [hexec, startOp_of_starts hs hop, hrun, hdone]
  rfl

/-- Settles O30: the best startable command has left its queue when its row runs it, and a transfer that runs all its
pieces is settled as complete. -/
theorem enginesStartTheBestCommand : Obligations.EnginesStartTheBestCommand := by
  rintro e err au s u v c hs rfl
  obtain ⟨-, hnext, hv⟩ := starts_cases hs
  obtain ⟨hmem, hfirst⟩ := nextCmd_ranksFirst hnext
  obtain ⟨hqueue, hmay⟩ := mem_startable.mp hmem
  refine ⟨⟨hqueue, hmay, fun k hk hkmay => hfirst k (mem_startable.mpr ⟨hk, hkmay⟩), hv ▸ takeCmd_gone _ _ _⟩,
    fun i op run hrow hop => ?_, fun i op k ps w x hrow hop hps hdone => ?_⟩
  · rw [exec_engineRow e err au s hrow, startOp_of_starts hs hop]
  · simp only [List.mem_cons, List.not_mem_nil, or_false, Prod.mk.injEq] at hrow
    rcases hrow with ⟨rfl, rfl, rfl⟩ | ⟨rfl, rfl, rfl⟩ | ⟨rfl, rfl, rfl⟩ | ⟨rfl, rfl, rfl⟩ | ⟨rfl, rfl, rfl⟩ |
      ⟨rfl, rfl, rfl⟩ | ⟨rfl, rfl, rfl⟩
    · exact exec_transfer rfl hs hop (runKvput_of_pieces hps hop) hdone
    · exact exec_transfer rfl hs hop (runKvget_of_pieces hps hop) hdone
    · exact exec_transfer rfl hs hop (runCopy_of_pieces hps hop) hdone
    · exact exec_transfer rfl hs hop (runPack_of_pieces hps hop) hdone
    · exact exec_transfer rfl hs hop (runUnpack_of_pieces hps hop) hdone
    · exact exec_transfer rfl hs hop (runHostIn_of_pieces hps hop) hdone
    · exact exec_transfer rfl hs hop (runHostOut_of_pieces hps hop) hdone

end Sys2Proof.Machine
end

section
/-! SUPPORT. Catalogue entries under the shared updates (12 R227-R232). -/

namespace Sys2Proof.Machine

theorem Sound.wgt_length {s : State} (h : Sound s) : s.wgt.length = 16 := by
  obtain ⟨⟨-, -, -, -, -, hwgt, -⟩, -, -⟩ := h
  exact hwgt

theorem wgtAt_congr {s t : State} (h : t.wgt = s.wgt) (m : Nat) : wgtAt t m = wgtAt s m := by
  unfold wgtAt; rw [h]

theorem wgtAt_modWgt_same {s : State} {m : Nat} (f : ModelSt → ModelSt) (h : m < s.wgt.length) :
    wgtAt (modWgt s m f) m = f (wgtAt s m) := by
  rw [wgtAt_modWgt, if_pos ⟨rfl, h⟩]

theorem wgtAt_modWgt_other {s : State} {m k : Nat} (f : ModelSt → ModelSt) (h : k ≠ m) :
    wgtAt (modWgt s m f) k = wgtAt s k := by
  rw [wgtAt_modWgt, if_neg fun x => h x.1]

@[simp] theorem modWgt_wgt_length (s : State) (m : Nat) (f : ModelSt → ModelSt) :
    (modWgt s m f).wgt.length = s.wgt.length :=
  List.length_modify _ _ _

/-- What a change of an entry keeps, it keeps of every entry. -/
theorem wgtAt_modWgt_field {α : Type} (g : ModelSt → α) {f : ModelSt → ModelSt} (s : State) (m j : Nat)
    (hf : ∀ w, g (f w) = g w) : g (wgtAt (modWgt s m f) j) = g (wgtAt s j) := by
  rw [wgtAt_modWgt]
  split
  next h => rw [h.1, hf]
  next => rfl

theorem modWgt_changesOnly (s : State) (m : Nat) (f : ModelSt → ModelSt) : ChangesOnly [.wgt] s (modWgt s m f) :=
  (modWgt_within (M := 4096) s m f (by decide) (.refl _ _)).changesOnly _ (by intro p; cases p <;> decide)

/-! ### What leaves the copies of an entry as they were -/

/-- The live copy, the builds and the ready copies of an entry. -/
abbrev ModelSt.copies (w : ModelSt) : Option WCopy × List Build × List WCopy := (w.live, w.build, w.ready)

/-- Of the catalogue only entry `m` may differ, and there not in its copies. -/
structure KeepsCopies (m : Nat) (s t : State) : Prop where
  entries : t.wgt.length = s.wgt.length
  others : ∀ k, k ≠ m → wgtAt t k = wgtAt s k
  copies : (wgtAt t m).copies = (wgtAt s m).copies

namespace KeepsCopies

theorem of_wgt {s t : State} (m : Nat) (h : t.wgt = s.wgt) : KeepsCopies m s t :=
  ⟨congrArg _ h, fun k _ => wgtAt_congr h k, congrArg _ (wgtAt_congr h m)⟩

theorem of_within {M m : Nat} {s t : State} (h : Within M s t) (hb : M.testBit 12 = false) : KeepsCopies m s t :=
  of_wgt m (h.wgt.resolve_left (by rw [hb]; decide))

theorem of_modWgt (s : State) (m : Nat) {f : ModelSt → ModelSt}
    (hf : ∀ w, (f w).copies = w.copies := by intro w; rfl) :
    KeepsCopies m s (modWgt s m f) :=
  ⟨modWgt_wgt_length s m f, fun _ hk => wgtAt_modWgt_other f hk, wgtAt_modWgt_field ModelSt.copies s m m hf⟩

section
variable {m : Nat} {s t u : State}

theorem refl (m : Nat) (s : State) : KeepsCopies m s s := of_wgt m rfl

theorem trans (h : KeepsCopies m s t) (k : KeepsCopies m t u) : KeepsCopies m s u :=
  ⟨k.entries.trans h.entries, fun j hj => (k.others j hj).trans (h.others j hj), k.copies.trans h.copies⟩

theorem live (h : KeepsCopies m s t) : (wgtAt t m).live = (wgtAt s m).live := congrArg (·.1) h.copies

theorem build (h : KeepsCopies m s t) : (wgtAt t m).build = (wgtAt s m).build := congrArg (·.2.1) h.copies

theorem ready (h : KeepsCopies m s t) : (wgtAt t m).ready = (wgtAt s m).ready := congrArg (·.2.2) h.copies

theorem each {α : Type} (l : List α) {f : State → α → State} (hf : ∀ s x, KeepsCopies m s (f s x)) (s : State) :
    KeepsCopies m s (each l f s) := by
  induction l generalizing s with
  | nil => exact refl m s
  | cons x l ih => exact (hf s x).trans (ih _)

end

theorem catPut (s : State) (m offs : Nat) (bs : List Byte) : KeepsCopies m s (catPut s m offs bs) := by
  have hwrite : KeepsCopies m s (devWrite s (.lva (catAddr s m + offs)) bs).2 :=
    of_within (devWrite_within (M := 251659554) _ _ _ (by decide) (.refl _ _)) (by decide)
  unfold Machine.catPut
  dsimp only
  split
  · exact hwrite
  · exact hwrite.trans (of_modWgt _ _)

theorem yealmStatus (s : State) (m : Nat) (man : Manifest) (y st : Nat) :
    KeepsCopies m s (yealmStatus s m man y st) := by
  have hwrite := devWrite_within (M := 251659554) s (.lva (man.va + 0x40 + 64 * y + 3)) [BitVec.ofNat 8 st] (by decide)
    (.refl _ _)
  exact (of_within hwrite (by decide)).trans (of_modWgt _ _)

theorem setState (s : State) (m st : Nat) : KeepsCopies m s (setState s m st) :=
  (of_modWgt s m).trans (catPut _ _ _ _)

theorem raise (m : Nat) (s : State) (block num : Nat) (l : BitVec 32) (seq : Nat) (detail : Word64) :
    KeepsCopies m s (raise s block num l seq detail) :=
  of_within (raise_within (M := 117440546) s block num l seq detail (by decide) (.refl _ _)) (by decide)

theorem dropLoad (m gen : Nat) (which : Nat → Bool) (s : State) : KeepsCopies m s (dropLoad m gen which s) :=
  (of_modWgt s m).trans (of_wgt (s := modWgt s m _) m rfl)

end KeepsCopies

/-- STATE is set even where the catalogue's byte cannot be written. -/
theorem setState_state {s : State} {m : Nat} (st : Nat) (h : m < s.wgt.length) : (wgtAt (setState s m st) m).state = st := by
  have hput : ∀ (u : State) (offs : Nat) (bs : List Byte), (wgtAt (catPut u m offs bs) m).state = (wgtAt u m).state := by
    intro u offs bs
    have hwrite : wgtAt (devWrite u (.lva (catAddr u m + offs)) bs).2 m = wgtAt u m :=
      wgtAt_congr ((devWrite_within (M := 251659554) _ _ _ (by decide) (.refl _ _)).wgt.resolve_left (by decide)) m
    unfold catPut
    dsimp only
    split
    · exact congrArg _ hwrite
    · exact Eq.trans (wgtAt_modWgt_field (·.state) _ _ _ (by intro w; rfl)) (congrArg _ hwrite)
  unfold setState
  rw [hput, wgtAt_modWgt_same _ h]

/-! ### A build leaves (R232) -/

/-- A build that stops is taken from its entry. -/
theorem buildFail_takes {s : State} {m gen : Nat} {b : Build} (hm : m < s.wgt.length)
    (hb : (wgtAt s m).build.find? (·.copy.gen == gen) = some b) :
    (wgtAt (buildFail s m gen) m).live = (wgtAt s m).live ∧ (∀ k, k ≠ m → wgtAt (buildFail s m gen) k = wgtAt s k) ∧
      (wgtAt (buildFail s m gen) m).build = takeBuild gen (wgtAt s m).build := by
  have hrest : KeepsCopies m (modWgt s m fun w => { w with build := takeBuild gen w.build, fetchTries := [] })
      (buildFail s m gen) := by
    unfold buildFail
    rw [hb]
    dsimp only
    refine KeepsCopies.trans ?_ (.raise ..)
    split
    · exact (KeepsCopies.dropLoad ..).trans (.setState ..)
    · exact .dropLoad ..
  refine ⟨hrest.live.trans ?_, fun k hk => (hrest.others k hk).trans (wgtAt_modWgt_other _ hk), hrest.build.trans ?_⟩
  · rw [wgtAt_modWgt_same _ hm]
  · rw [wgtAt_modWgt_same _ hm]

/-- A build of the entry is found by its GEN. -/
theorem exists_build_of_gen {l : List Build} {b : Build} (h : b ∈ l) :
    ∃ x, l.find? (·.copy.gen == b.copy.gen) = some x :=
  Option.isSome_iff_exists.mp (List.find?_isSome.mpr ⟨b, h, beq_self_eq_true _⟩)

end Sys2Proof.Machine
end

section
/-! A build is loaded, then verified (12 R228-R232). That an entry may hold several builds, of which the oldest is taken
first, is log entry 107. -/

namespace Sys2Proof.Machine

/-! ### Loading leaves the copies (R229) -/

/-- A load that stops notes the place at which it goes on, beside the copies. -/
theorem loadStopped_keepsCopies (m : Nat) (j : LoadJob) (z : PieceEnd) (x : Xfer) :
    KeepsCopies m x.s (loadStopped m j z x).2 := by
  have hretry : ∀ f, KeepsCopies m x.s (faultRetry x.s f).2 := fun f =>
    .of_within (faultRetry_within (M := 251659562) _ f (by decide) (.refl _ _)) (by decide)
  have hfatal : ∀ f, KeepsCopies m x.s (faultFatal x.s f) := fun f =>
    .of_within (faultFatal_within (M := 251659562) _ f (by decide) (.refl _ _)) (by decide)
  unfold loadStopped
  dsimp only
  split
  · exact .refl _ _
  · split
    · exact (hretry _).trans (.of_modWgt _ _)
    · exact hretry _
  · exact hfatal _
  · exact .raise ..
  · exact .raise ..
  · exact .refl _ _

theorem runUnits_keepsCopies {s : State} {x : Xfer} (m e : Nat) (d : DmaDesc) (ct : Container) (n : Nat)
    (sectors : Nat → Nat) (h : Within 1056966446 s x.s) :
    KeepsCopies m s (runPieces e ((List.range n).map fun i => (sectors i, inPiece e d ct i)) 0 x).2.s :=
  .of_within (runPieces_within _ _ _ _ (by decide)
    (piecesMap _ _ _ fun i y => inPiece_within e d ct i y (by decide) (.refl _ _)) h) (by decide)

theorem loadHost_keepsCopies (m gen y : Nat) (ye : Yealm) (s : State) : KeepsCopies m s (loadHost m gen y ye s).2 := by
  have hread : ∀ base port, Within 1056966446 s (readContainer (loadJob m gen y ye s).2 base port).2.2 := fun base port =>
    readContainer_within _ base port (by decide) (loadJob_within m gen y ye s (by decide) (.refl _ _))
  unfold loadHost
  dsimp only
  split
  · split
    · exact .of_within (hread _ _) (by decide)
    · split
      · exact runUnits_keepsCopies _ _ _ _ _ _ (hread _ _)
      · refine KeepsCopies.trans ?_ (loadStopped_keepsCopies ..)
        exact runUnits_keepsCopies _ _ _ _ _ _ (hread _ _)
  · refine KeepsCopies.trans ?_ (loadStopped_keepsCopies ..)
    exact .of_within (hread _ _) (by decide)

theorem loadYealm_keepsCopies (m gen y : Nat) (ye : Yealm) (s : State) : KeepsCopies m s (loadYealm m gen y ye s).2 := by
  unfold loadYealm
  split
  · exact loadHost_keepsCopies m gen y ye s
  · exact (KeepsCopies.of_within (putVa_within (M := 251659554) s _ _ (by decide) (.refl _ _)) (by decide)).trans
      (.of_wgt m rfl)
  · exact .refl _ _

/-- Loading leaves the copies, and at a fault then notes the yealm at which the build goes on. -/
theorem loadFrom_keepsCopies (m gen : Nat) (l : List Yealm) (y : Nat) (s : State) :
    ∃ u, KeepsCopies m s u ∧ ((loadFrom m gen l y s).1 ≠ .wait → (loadFrom m gen l y s).2 = u) ∧
      (wgtAt (loadFrom m gen l y s).2 m).live = (wgtAt u m).live := by
  induction l generalizing y s with
  | nil => exact ⟨s, .refl _ _, fun _ => rfl, rfl⟩
  | cons ye l ih =>
    have hye := loadYealm_keepsCopies m gen y ye s
    unfold loadFrom
    dsimp only
    split
    · obtain ⟨u, hu, hend, hlive⟩ := ih (y + 1) (dropLoad m gen (· == y) (loadYealm m gen y ye s).2)
      exact ⟨u, hye.trans ((KeepsCopies.dropLoad ..).trans hu), hend, hlive⟩
    · exact ⟨_, hye, fun h => absurd rfl h, wgtAt_modWgt_field (·.live) _ _ _ fun _ => rfl⟩
    · exact ⟨_, hye, fun _ => rfl, rfl⟩

/-! ### The ends of a load (R232) -/

theorem exec_loadComplete (m : Model) (failed : Bool) (s : State) :
    exec (.loadComplete m failed) s = .next (loadComplete m failed s) := rfl

/-- A build that has loaded is past loading; a later one would go back to state 2. -/
theorem loaded_then_staged (gen : Nat) (l : List Build) :
    (l.map fun x => if x.copy.gen = gen then { x with loading := false } else x).map
        (fun x => if gen < x.copy.gen then { x with before := 2 } else x) =
      l.map fun x => if x.copy.gen = gen then { x with loading := false }
        else if gen < x.copy.gen then { x with before := 2 } else x := by
  rw [List.map_map]
  refine List.map_congr_left fun x _ => ?_
  by_cases h : x.copy.gen = gen <;> simp [h]

section
variable {m : Nat} {b : Build} {s : State} (hb : loadingBuild (wgtAt s m) = some b)
include hb

theorem loadComplete_failed : loadComplete m true s = buildFail s m b.copy.gen := by
  unfold loadComplete
  rw [hb]
  rfl

section
variable {v : State} (hheld : loadHeld s m b.copy.gen (fun _ => true) = false)
include hheld

theorem loadComplete_waits
    (hload : loadFrom m b.copy.gen (b.copy.man.ents.drop b.next) b.next s = (.wait, v)) :
    loadComplete m false s = v := by
  unfold loadComplete
  rw [hb]
  dsimp only
  rw [hheld, hload]
  rfl

/-- Where every source delivers, the entry goes to state 2 and the build is past loading. -/
theorem loadComplete_loads (hm : m < s.wgt.length)
    (hload : loadFrom m b.copy.gen (b.copy.man.ents.drop b.next) b.next s = (.ok, v)) :
    (wgtAt (loadComplete m false s) m).live = (wgtAt s m).live ∧
      (∀ k, k ≠ m → wgtAt (loadComplete m false s) k = wgtAt s k) ∧ (wgtAt (loadComplete m false s) m).state = 2 ∧
      (wgtAt (loadComplete m false s) m).ready = (wgtAt s m).ready ∧
      (wgtAt (loadComplete m false s) m).build = (wgtAt s m).build.map fun x =>
        if x.copy.gen = b.copy.gen then { x with loading := false }
        else if b.copy.gen < x.copy.gen then { x with before := 2 } else x := by
  obtain ⟨u, hu, hend, -⟩ := loadFrom_keepsCopies m b.copy.gen (b.copy.man.ents.drop b.next) b.next s
  rw [hload] at hend
  obtain rfl : v = u := hend nofun
  have hmv : m < v.wgt.length := by rw [hu.entries]; exact hm
  unfold loadComplete
  rw [hb]
  dsimp only
  rw [hheld, hload]
  simp only [Bool.false_eq_true, if_false, stage]
  have hmw : ∀ f, m < (modWgt v m f).wgt.length := fun f => by rw [modWgt_wgt_length]; exact hmv
  have hput := fun w => KeepsCopies.setState w m 2
  refine ⟨(hput _).live.trans ?_, fun k hk => ((hput _).others k hk).trans ?_,
    setState_state 2 (by rw [modWgt_wgt_length]; exact hmw _), (hput _).ready.trans ?_, (hput _).build.trans ?_⟩
  · rw [wgtAt_modWgt_same _ (hmw _), wgtAt_modWgt_same _ hmv]
    exact hu.live
  · rw [wgtAt_modWgt_other _ hk, wgtAt_modWgt_other _ hk]
    exact hu.others k hk
  · rw [wgtAt_modWgt_same _ (hmw _), wgtAt_modWgt_same _ hmv]
    exact hu.ready
  · rw [wgtAt_modWgt_same _ (hmw _), wgtAt_modWgt_same _ hmv, ← hu.build]
    exact loaded_then_staged _ _

end

end

/-! ### The ends of a verification (R232) -/

theorem exec_verifyComplete (m : Model) (s : State) : exec (.verifyComplete m) s = .next (verifyComplete m s) := rfl

theorem verifyAll_wgt (l : List Yealm) (s : State) : (verifyAll l s).2.wgt = s.wgt :=
  (verifyAll_within (M := 251659554) l s (by decide) (.refl _ _)).wgt.resolve_left (by decide)

/-- The state in which the yealms of a copy have been read, and marked as valid in its manifest. -/
def yealmsValid (m : Nat) (c : WCopy) (s : State) : State :=
  each (List.range c.man.ents.length) (fun u y => yealmStatus u m c.man y 2) (verifyAll c.man.ents s).2

theorem yealmsValid_keepsCopies (m : Nat) (c : WCopy) (s : State) : KeepsCopies m s (yealmsValid m c s) :=
  (KeepsCopies.of_wgt m (verifyAll_wgt _ _)).trans (.each _ (fun u y => .yealmStatus u m _ y 2) _)

/-- A copy that verified: the twin of each yealm that names one is good (R237). -/
def readyCopy (c : WCopy) : WCopy :=
  { c with twinOk := (List.range c.man.ents.length).filter fun y => ((c.man.ents[y]?).elim 0 (·.twin)) != 0 }

theorem mem_twinOk_readyCopy (c : WCopy) (y : Nat) :
    y ∈ (readyCopy c).twinOk ↔ ∃ e, c.man.ents[y]? = some e ∧ e.twin ≠ 0 := by
  rw [readyCopy, List.mem_filter, List.mem_range]
  by_cases h : y < c.man.ents.length <;> simp [h]

section
variable {m : Nat} {b : Build} {s : State} (hb : (wgtAt s m).build.find? (!·.loading) = some b)
include hb

theorem verifyComplete_fails
    (hbad : (verifyAll b.copy.man.ents s).1 = false ∨ sameOk (wgtAt s m) b.copy = false) :
    verifyComplete m s = buildFail (verifyAll b.copy.man.ents s).2 m b.copy.gen := by
  unfold verifyComplete
  rw [hb]
  exact if_pos (by rcases hbad with h | h <;> simp [h])

theorem verifyComplete_succeeds (hcrc : (verifyAll b.copy.man.ents s).1 = true)
    (hsame : sameOk (wgtAt s m) b.copy = true) :
    verifyComplete m s =
      setState (modWgt (yealmsValid m b.copy s) m fun w => { w with
        build := (w.build.filter (·.copy.gen != b.copy.gen)).map fun x => { x with before := 3 }
        ready := w.ready ++ [readyCopy b.copy] }) m 3 := by
  unfold verifyComplete
  rw [hb]
  exact if_neg (by simp [hcrc, hsame])

/-- Where every CRC matches, the entry goes to state 3 and the build's copy is ready. -/
theorem verifyComplete_readies (hm : m < s.wgt.length) (hcrc : (verifyAll b.copy.man.ents s).1 = true)
    (hsame : sameOk (wgtAt s m) b.copy = true) :
    (wgtAt (verifyComplete m s) m).live = (wgtAt s m).live ∧
      (∀ k, k ≠ m → wgtAt (verifyComplete m s) k = wgtAt s k) ∧ (wgtAt (verifyComplete m s) m).state = 3 ∧
      (wgtAt (verifyComplete m s) m).build =
        ((wgtAt s m).build.filter (·.copy.gen != b.copy.gen)).map (fun x => { x with before := 3 }) ∧
      (wgtAt (verifyComplete m s) m).ready = (wgtAt s m).ready ++ [readyCopy b.copy] := by
  have hvalid := yealmsValid_keepsCopies m b.copy s
  have hmv : m < (yealmsValid m b.copy s).wgt.length := by rw [hvalid.entries]; exact hm
  have hput := fun w => KeepsCopies.setState w m 3
  rw [verifyComplete_succeeds hb hcrc hsame]
  refine ⟨(hput _).live.trans ?_, fun k hk => ((hput _).others k hk).trans ?_,
    setState_state 3 (by rw [modWgt_wgt_length]; exact hmv), (hput _).build.trans ?_, (hput _).ready.trans ?_⟩
  · rw [wgtAt_modWgt_same _ hmv]
    exact hvalid.live
  · rw [wgtAt_modWgt_other _ hk]
    exact hvalid.others k hk
  · rw [wgtAt_modWgt_same _ hmv, ← hvalid.build]
  · rw [wgtAt_modWgt_same _ hmv, ← hvalid.ready]

end

/-- Settles O40: a load or a verification that ends changes the copies of its own entry only, and there only the builds
and the ready copies. -/
theorem weightsAreLoadedThenVerified : Obligations.WeightsAreLoadedThenVerified := by
  intro m b v s hsnd
  have hm : m.val < s.wgt.length := by rw [hsnd.wgt_length]; exact m.isLt
  refine ⟨fun hb => ⟨fun hheld hload => ⟨_, exec_loadComplete m false s, loadComplete_loads hb hheld hm hload⟩,
    fun hheld hload => ?_, ⟨_, exec_loadComplete m true s, ?_⟩⟩, fun hb => ⟨fun hcrc hsame => ?_, fun hbad => ?_⟩⟩
  · obtain ⟨u, hu, -, hlive⟩ := loadFrom_keepsCopies m b.copy.gen (b.copy.man.ents.drop b.next) b.next s
    rw [hload] at hlive
    exact ⟨(exec_loadComplete m false s).trans (congrArg _ (loadComplete_waits hb hheld hload)), hlive.trans hu.live⟩
  · obtain ⟨x, hx⟩ := exists_build_of_gen (List.mem_of_find?_eq_some hb)
    rw [loadComplete_failed hb]
    exact buildFail_takes hm hx
  · obtain ⟨hlive, hothers, hstate, hbuild, hready⟩ := verifyComplete_readies hb hm hcrc hsame
    exact ⟨_, readyCopy b.copy, exec_verifyComplete m s, hlive, hothers, hstate, hbuild, hready, rfl, rfl, rfl,
      mem_twinOk_readyCopy b.copy⟩
  · have hkeep : KeepsCopies m s (verifyAll b.copy.man.ents s).2 := .of_wgt m (verifyAll_wgt _ _)
    obtain ⟨x, hx⟩ := exists_build_of_gen (List.mem_of_find?_eq_some hb)
    obtain ⟨hlive, hothers, hbuild⟩ := buildFail_takes (hkeep.entries ▸ hm) (hkeep.build ▸ hx)
    exact ⟨_, (exec_verifyComplete m s).trans (congrArg _ (verifyComplete_fails hb hbad)), hlive.trans hkeep.live,
      fun k hk => (hothers k hk).trans (hkeep.others k hk), hbuild.trans (congrArg _ hkeep.build)⟩

end Sys2Proof.Machine
end

section
/-! Notices of members (12 R239, 13 R258). -/

namespace Sys2Proof.Machine

/-! ### A notice waits -/

/-- A notice joins those that wait, and none of them is lost. -/
theorem mem_putNotice {n x : Nat × Bool} {l : List (Nat × Bool)} : x ∈ putNotice n l ↔ x = n ∨ x ∈ l := by
  induction l with
  | nil => simp [putNotice]
  | cons y ys ih =>
    unfold putNotice
    split
    next h =>
      subst h
      simp
    next =>
      split
      · simp
      · rw [List.mem_cons, ih, List.mem_cons]
        exact or_left_comm

section
variable {s : State} (hmember : s.self.member = true)
include hmember

theorem exec_fallbackNotice (m : Model) (tick : Nat) :
    exec (.fallbackNotice m tick) s = .next (modelNotice m tick true s) :=
  congrArg Host.Outcome.next (if_pos hmember)

theorem exec_returnNotice (m : Model) (tick : Nat) :
    exec (.returnNotice m tick) s = .next (modelNotice m tick false s) :=
  congrArg Host.Outcome.next (if_pos hmember)

theorem exec_sequenceNotice {n : Slot} (hactive : (seqAt s n).state = .active) (fb : Bool) (tick : Nat) :
    exec (.sequenceNotice n fb tick) s =
      .next (modSeq s n fun q => { q with moves := putNotice (tick, fb) q.moves }) :=
  congrArg Host.Outcome.next ((if_pos hmember).trans (if_neg (by rw [hactive]; decide)))

end

theorem modelNotice_waits {s : State} {m : Nat} (hm : m < s.wgt.length) (tick : Nat) (toFb : Bool) :
    ChangesOnly [.wgt] s (modelNotice m tick toFb s) ∧ (∀ k, k ≠ m → wgtAt (modelNotice m tick toFb s) k = wgtAt s k) ∧
      wgtAt (modelNotice m tick toFb s) m =
        { wgtAt s m with notices := putNotice (tick, toFb) (wgtAt s m).notices } :=
  ⟨modWgt_changesOnly _ _ _, fun _ hk => wgtAt_modWgt_other _ hk, wgtAt_modWgt_same _ hm⟩

/-! ### Notices fall due -/

/-- What one due notice makes of a model that has fallen or not, where `fb` are the ticks that fallback notices name. -/
def fallenAfter (fb : List Nat) (on : Bool) (x : Nat × Bool) : Bool :=
  if x.2 then true else if fb.contains x.1 then on else false

theorem noticesDue_fallen (n : Nat) (w : ModelSt) :
    (noticesDue n w).fallen = (w.notices.filter (·.1 ≤ n)).foldl
      (fallenAfter (((w.notices.filter (·.1 ≤ n)).filter (·.2)).map (·.1) ++ w.fbTicks)) w.fallen := rfl

/-- Where every tick is one that a fallback notice names, no return notice acts. -/
theorem foldl_fallenAfter_named {fb : List Nat} {l : List (Nat × Bool)} (h : ∀ x ∈ l, x.1 ∈ fb) (on : Bool) :
    l.foldl (fallenAfter fb) on = (on || l.any (·.2)) := by
  induction l generalizing on with
  | nil => simp
  | cons x l ih =>
    obtain ⟨hx, hl⟩ := List.forall_mem_cons.mp h
    have hstep : fallenAfter fb on x = (on || x.2) := by cases hx2 : x.2 <;> simp [fallenAfter, hx2, hx]
    rw [List.foldl_cons, ih hl, hstep, List.any_cons, Bool.or_assoc]

/-- Where no tick is one that a fallback notice names, any return notice acts. -/
theorem foldl_fallenAfter_unnamed {fb : List Nat} {l : List (Nat × Bool)} (h : ∀ x ∈ l, x.2 = false ∧ x.1 ∉ fb)
    (on : Bool) : l.foldl (fallenAfter fb) on = (on && l.isEmpty) := by
  induction l generalizing on with
  | nil => simp
  | cons x l ih =>
    obtain ⟨⟨hx2, hx⟩, hl⟩ := List.forall_mem_cons.mp h
    have hstep : fallenAfter fb on x = false := by simp [fallenAfter, hx2, hx]
    rw [List.foldl_cons, ih hl, hstep]
    simp

section
variable {tick : Nat} {w : ModelSt} (hall : ∀ x ∈ w.notices, x.1 = tick)
include hall

theorem filter_due_of_tick : w.notices.filter (·.1 ≤ tick) = w.notices :=
  List.filter_eq_self.mpr fun x hx => by simp [hall x hx]

theorem noticesDue_falls (hfb : (tick, true) ∈ w.notices) : (noticesDue tick w).fallen = true := by
  have hnamed : tick ∈ (w.notices.filter (·.2)).map (·.1) :=
    List.mem_map.mpr ⟨_, List.mem_filter.mpr ⟨hfb, rfl⟩, rfl⟩
  rw [noticesDue_fallen, filter_due_of_tick hall,
    foldl_fallenAfter_named fun x hx => hall x hx ▸ List.mem_append_left _ hnamed, List.any_eq_true.mpr ⟨_, hfb, rfl⟩,
    Bool.or_true]

theorem noticesDue_returns (hfb : (tick, true) ∉ w.notices) (hne : w.notices ≠ []) (hpast : tick ∉ w.fbTicks) :
    (noticesDue tick w).fallen = false := by
  have hret : ∀ x ∈ w.notices, x.2 = false := fun x hx =>
    Bool.eq_false_iff.mpr fun h2 => hfb ((Prod.ext (hall x hx) h2 : x = (tick, true)) ▸ hx)
  have hnone : w.notices.filter (·.2) = [] := List.filter_eq_nil_iff.mpr fun x hx => by simp [hret x hx]
  rw [noticesDue_fallen, filter_due_of_tick hall, hnone,
    foldl_fallenAfter_unnamed fun x hx => ⟨hret x hx, by simpa [hall x hx] using hpast⟩]
  simp [hne]

end

/-- Settles O42: each notice is put among those of its model or slot, and the fold over those due for one tick is decided
by whether one of them names a fallback. -/
theorem noticesSetAMove : Obligations.NoticesSetAMove := by
  intro m n tick s hsnd hmember
  have hm : m.val < s.wgt.length := by rw [hsnd.wgt_length]; exact m.isLt
  have hn : n.val < s.seq.length := by rw [hsnd.seq_length]; exact n.isLt
  refine ⟨?_, ?_, fun hactive fb => ?_, fun w hall => ⟨noticesDue_falls hall, noticesDue_returns hall⟩⟩
  · obtain ⟨honly, hothers, hat⟩ := modelNotice_waits hm tick true
    exact ⟨_, _, exec_fallbackNotice hmember m tick, honly, hothers, hat, fun x => mem_putNotice⟩
  · obtain ⟨honly, hothers, hat⟩ := modelNotice_waits hm tick false
    exact ⟨_, _, exec_returnNotice hmember m tick, honly, hothers, hat, fun x => mem_putNotice⟩
  · exact ⟨_, _, exec_sequenceNotice hmember hactive fb tick,
      (modSeq_changes s n _).changesOnly _ (by intro p; cases p <;> decide),
      fun k hk => by rw [seqAt_modSeq_of_lt _ hn, if_neg hk], by rw [seqAt_modSeq_of_lt _ hn, if_pos rfl],
      fun x => mem_putNotice⟩

end Sys2Proof.Machine
end

section
/-! Entries of the admission queue (13 R243-R249): the command with the OP of the entry that is next processes it in the
state after the entry's read, then its STATUS is written and the domain's position moves past it. That a command's OP must
be that of the entry that is next is log entry 62. -/

namespace Sys2Proof.Machine

/-! ### The entry's read -/

theorem devRead_changes {s w : State} {ad : Ad} {n : Nat} {r : Option (List Byte)} (h : devRead s ad n = (r, w)) :
    Within 251659554 s w :=
  (devRead_within s ad n (by decide) (.refl _ _)).ofSnd h

theorem seqAt_devRead {s w : State} {ad : Ad} {n : Nat} {r : Option (List Byte)} (h : devRead s ad n = (r, w)) (k : Nat) :
    seqAt w k = seqAt s k :=
  seqAt_congr ((devRead_changes h).seq.resolve_left (by decide)) k

section
variable {s v : State} {d op : Nat} {bs : List Byte} (h : EntryNext s d op bs v)
include h

theorem EntryNext.read_changes : Within 251659554 s v := by
  obtain ⟨-, -, -, hpeek, -⟩ := h
  exact (peekEntry_within s d (by decide) (.refl _ _)).ofSnd hpeek

theorem EntryNext.seqAt_read (n : Nat) : seqAt v n = seqAt s n :=
  seqAt_congr (h.read_changes.seq.resolve_left (by decide)) n

end

/-! ### The entry's end (R243) -/

theorem DomSt.cons_of_latched {x y : DomSt} (h : x.latched = y.latched) : x.cons = y.cons :=
  congrArg (·.2.2.2.2.2.2.2.1) h

/-- An entry ends with its STATUS written, and then the position moves by one. -/
theorem entryEnd_moves (d slot : Nat) (r : Refuse × State) :
    ∃ u, Within 251659554 r.2 u ∧ entryEnd d slot r = modDom u d fun x => { x with cons := x.cons + 1 } := by
  refine ⟨_, ?_, rfl⟩
  have hevent : Within 251659554 r.2 (match r.1 with
      | some x => entryEvent d slot x r.2
      | none => r.2) := by
    split
    · exact entryEvent_within _ _ _ _ (by decide) (.refl _ _)
    · exact .refl _ _
  split
  · exact devPut_within _ _ _ (by decide) hevent
  · exact hevent

theorem cons_entryEnd {d : Dom} {r : Refuse × State} (hsnd : Sound r.2) (slot : Nat) :
    (domAt (entryEnd d slot r) d).cons = (domAt r.2 d).cons + 1 := by
  obtain ⟨u, hu, hend⟩ := entryEnd_moves d slot r
  have hd : d.val < u.dom.length := (hu.sound hsnd).dom_length.symm ▸ d.isLt
  rw [hend, domAt_modDom_same _ hd, DomSt.cons_of_latched (hu.latched d (by decide))]

/-- Whatever an entry does, it leaves what the domains have latched, their positions too, until it ends. -/
theorem doEntry_ends (d : Nat) (bs : List Byte) (s : State) :
    ∃ r, Within 251663846 s r.2 ∧ doEntry d bs s = entryEnd d (fld bs 1 1) r := by
  refine ⟨_, ?_, rfl⟩
  split
  · exact admitEntry_within d bs s (by decide) (.refl _ _)
  · exact otherEntry_within d bs s (by decide) (.refl _ _)

theorem cons_doEntry {d : Dom} {s : State} (hsnd : Sound s) (bs : List Byte) :
    (domAt (doEntry d bs s) d).cons = (domAt s d).cons + 1 := by
  obtain ⟨r, hr, hend⟩ := doEntry_ends d bs s
  rw [hend, cons_entryEnd (hr.sound hsnd), DomSt.cons_of_latched (hr.latched d (by decide))]

/-- The OP that each command of the queue processes (Table 13.3). -/
theorem exec_entryCommand {d : Dom} {c : Instr} {op : Nat}
    (h : (c, op) ∈ [(Instr.admitSlot d, 1), (.depart d, 2), (.chunkBegin d, 3), (.chunkEnd d, 4), (.work d, 5)])
    (s : State) : exec c s = .next (entryStep d op s) := by
  simp only [List.mem_cons, Prod.mk.injEq, List.not_mem_nil, or_false] at h
  rcases h with ⟨rfl, rfl⟩ | ⟨rfl, rfl⟩ | ⟨rfl, rfl⟩ | ⟨rfl, rfl⟩ | ⟨rfl, rfl⟩ <;> rfl

/-- Settles O9: what an entry does keeps what the domains have latched, and its end moves the position by one. -/
theorem entryMovesConsumer : Obligations.EntryMovesConsumer := by
  intro d bs s v c op hsnd hcmd hnext
  have hread := hnext.read_changes
  have hall : Within 8841598438 s (doEntry d bs v) := doEntry_within d bs v (by decide) (hread.mono (by decide))
  refine ⟨_, doEntry d bs v, exec_entryCommand hcmd s, hnext.entryStep, ?_,
    hall.changesOnly _ (by intro p; cases p <;> decide)⟩
  rw [cons_doEntry (hread.sound hsnd), DomSt.cons_of_latched (hread.latched d (by decide))]

/-! ### ADMIT (R245, R246) -/

section
variable {d : Nat} {bs all : List Byte} {s w : State} (hwf : admitWf bs = true)
  (hfree : (seqAt s (fld bs 1 1)).state = .free) (hlive : modelLive s (fld bs 3 1) = true)
  (halign : fld bs 0x10 8 % 64 = 0) (hread : devRead s (.lva (fld bs 0x10 8)) ringSize = (some all, w))
  (hring : ringOk (ringDesc all) = true)
  (hroom : reservedAll w + (newSlot w d bs (ringTotal (ringDesc all) + statsTotal (ringDesc all))).reserved
    ≤ param w 0x070)
include hwf hfree hlive halign hread hring hroom

/-- An entry that R245 does not refuse and that has room (R246) takes its slot. -/
theorem admitEntry_admitted :
    admitEntry d bs s =
      (none, ringClear (modSeq w (fld bs 1 1) fun _ =>
        newSlot w d bs (ringTotal (ringDesc all) + statsTotal (ringDesc all))) (fld bs 1 1)) := by
  have hdesc : ((some all).map ringDesc).filter (fun k => ringOk k && fld bs 0x10 8 % 64 == 0) = some (ringDesc all) := by
    simp [hring, halign]
  unfold admitEntry
  simp only [hwf, hfree, hlive, hread, hdesc, Nat.not_lt.2 hroom, bne_self_eq_false, Bool.not_true, Bool.or_self,
    Bool.false_eq_true, if_false]

end

theorem exec_admitSlot {d : Dom} {bs : List Byte} {s v : State} (h : EntryNext s d 1 bs v) :
    exec (.admitSlot d) s = .next (afterEntry d (entryEnd d (fld bs 1 1) (admitEntry d bs v))) := by
  rw [exec_entryCommand (d := d) (op := 1) (by simp), h.entryStep, doEntry, if_pos h.op]

/-- Settles O10: the entry passes every check, and the slot it takes is the new one. -/
theorem admitFillsTheSlot : Obligations.AdmitFillsTheSlot := by
  intro d bs all s v w hsnd hnext hslot hcls hmodel hkv hres hsave hsaveAlign hsave1 hsaveN hfree hlive halign hread hring
    hroom
  have hwf : admitWf bs = true := decide_eq_true ⟨hcls, hmodel, hkv, hres, hsave, hsaveAlign, hsave1, hsaveN⟩
  have hw : Within 251659554 s w := hnext.read_changes.trans (devRead_changes hread)
  have hn : fld bs 1 1 < w.seq.length := hw.seq_length hsnd ▸ hslot
  have hu : Within 251659618 s (modSeq w (fld bs 1 1) fun _ =>
      newSlot w d bs (ringTotal (ringDesc all) + statsTotal (ringDesc all))) :=
    modSeq_within _ _ _ (by decide) (hw.mono (by decide))
  refine ⟨_, _, exec_admitSlot hnext, by rw [admitEntry_admitted hwf hfree hlive halign hread hring hroom], ?_⟩
  rw [seqAt_modSeq_of_lt _ hn, if_pos rfl]
  refine ⟨rfl, rfl, rfl, rfl, ?_, rfl, DomSt.tickNo_of_face (hw.face d (by decide)), rfl, fun n hne => ?_,
    hu.changesOnly _ (by intro p; cases p <;> decide)⟩
  · exact Nat.mod_eq_of_lt (Nat.lt_trans hkv (by decide))
  · rw [seqAt_modSeq_of_lt _ hn, if_neg hne, seqAt_devRead hread, hnext.seqAt_read]

/-! ### Entries of a ready slot but those of chunks -/

/-- The check before DEPART and WORK passes, whatever stands where another entry has a frame. -/
theorem SlotReady.passes_noChunk {s : State} {d n : Nat} (h : SlotReady s d n) {chunk : Bool} (hc : chunk = false) (g : Nat) :
    ((seqAt s n).state != .active || (seqAt s n).domain != d || (chunk && decide (2 ^ 48 ≤ g))) = false := by
  rw [← h.passes (g := 0) (by decide) false, hc, Bool.false_and, Bool.false_and]

section
variable {d : Dom} {bs : List Byte} {s v : State}

theorem SlotReady.otherEntry_depart (h : SlotReady s d (fld bs 1 1)) (hop : fld bs 0 1 = 2) :
    otherEntry d bs s = (none, departSlot (fld bs 1 1) s) := by
  unfold otherEntry
  dsimp only
  rw [hop, h.passes_noChunk (chunk := 2 == 3 || 2 == 4) rfl, recheckRing_of_checked h.checked]
  rfl

theorem SlotReady.otherEntry_work (h : SlotReady s d (fld bs 1 1)) (hop : fld bs 0 1 = 5) :
    otherEntry d bs s = workEntry (fld bs 1 1) bs s := by
  unfold otherEntry
  dsimp only
  rw [hop, h.passes_noChunk (chunk := 5 == 3 || 5 == 4) rfl, recheckRing_of_checked h.checked]
  rfl

theorem exec_depart (h : EntryNext s d 2 bs v) (hs : SlotReady v d (fld bs 1 1)) :
    exec (.depart d) s = .next (afterEntry d (entryEnd d (fld bs 1 1) (none, departSlot (fld bs 1 1) v))) := by
  rw [exec_entryCommand (d := d) (op := 2) (by simp), h.entryStep, h.doEntry_other (by decide), hs.otherEntry_depart h.op]

theorem exec_work (h : EntryNext s d 5 bs v) (hs : SlotReady v d (fld bs 1 1)) :
    exec (.work d) s = .next (afterEntry d (entryEnd d (fld bs 1 1) (workEntry (fld bs 1 1) bs v))) := by
  rw [exec_entryCommand (d := d) (op := 5) (by simp), h.entryStep, h.doEntry_other (by decide), hs.otherEntry_work h.op]

end

/-! ### DEPART (R247) -/

theorem seqAt_modSeq_field {α : Type} {g : SeqSlot → α} {f : SeqSlot → SeqSlot} (hf : ∀ q, g (f q) = g q) (s : State)
    (n j : Nat) : g (seqAt (modSeq s n f) j) = g (seqAt s j) := by
  rw [seqAt_modSeq]
  split
  next h => rw [h.1, hf]
  next => rfl

theorem seqAt_writeDone (s : State) (i : Item) (k j : Nat) : seqAt (writeDone s i k) j = seqAt s j :=
  seqAt_congr ((writeDone_within (M := 251659554) s i k (by decide) (.refl _ _)).seq.resolve_left (by decide)) j

/-- Of the slots, an item that ends changes only the list of its own. -/
theorem itemEnd_field {α : Type} {g : SeqSlot → α} (hg : ∀ q l, g { q with items := l } = g q) (s : State)
    (slot num k j : Nat) : g (seqAt (itemEnd s slot num k) j) = g (seqAt s j) := by
  unfold itemEnd
  split
  · rfl
  next i _ =>
    calc g (seqAt (removeItem (writeDone s i k) slot num) j)
      _ = g (seqAt (writeDone s i k) j) :=
        seqAt_modSeq_field (f := fun q => { q with items := q.items.filter (·.num != num) }) (fun q => hg q _) _ slot j
      _ = g (seqAt s j) := by rw [seqAt_writeDone]

/-- Work that is discarded leaves the slot but for its items and batches. -/
theorem discardWork_field {α : Type} {g : SeqSlot → α} (hi : ∀ q l, g { q with items := l } = g q)
    (hb : ∀ q l, g { q with batches := l } = g q) (slot k : Nat) (s : State) (j : Nat) :
    g (seqAt (discardWork slot k s) j) = g (seqAt s j) := by
  unfold discardWork
  dsimp only
  rw [seqAt_modSeq_field fun q => hb q [],
    each_field (v := fun s => g (seqAt s j)) (fun s i => by rw [seqAt_writeDone]),
    each_field (v := fun s => g (seqAt s j)) (fun s i => itemEnd_field hi s _ _ _ j)]

theorem discardWork_batches (slot k : Nat) (s : State) : (seqAt (discardWork slot k s) slot).batches = [] := by
  unfold discardWork
  dsimp only
  rw [seqAt_modSeq]
  split
  · rfl
  next h => rw [seqAt, unit_of_length_le _ (Nat.le_of_not_lt fun hlt => h ⟨rfl, hlt⟩)]; rfl

/-- A slot that departs: its references go last, after its work. -/
theorem seqAt_departSlot (n : Nat) (s : State) (j : Nat) :
    seqAt (departSlot n s) j =
      seqAt (discardWork n 4 (modSeq s n fun q => { q with state := .departing, moves := [], departNext := false })) j := rfl

section
variable {s : State} {n : Nat} (hn : n < s.seq.length)
include hn

theorem departSlot_departing : (seqAt (departSlot n s) n).state = .departing := by
  rw [seqAt_departSlot, discardWork_field (g := SeqSlot.state) (fun _ _ => rfl) (fun _ _ => rfl),
    seqAt_modSeq_of_lt _ hn, if_pos rfl]

theorem departSlot_moves : (seqAt (departSlot n s) n).moves = [] := by
  rw [seqAt_departSlot, discardWork_field (g := SeqSlot.moves) (fun _ _ => rfl) (fun _ _ => rfl),
    seqAt_modSeq_of_lt _ hn, if_pos rfl]

end

/-- Settles O11: the slot is departing before its work is discarded, and that leaves its state and its moves. -/
theorem departMakesTheSlotDepart : Obligations.DepartMakesTheSlotDepart := by
  intro d bs s v hsnd hnext hslot hready
  have hv := hnext.read_changes
  have hn : fld bs 1 1 < v.seq.length := hv.seq_length hsnd ▸ hslot
  have hu : Within 251663842 s (departSlot (fld bs 1 1) v) := departSlot_within _ v (by decide) (hv.mono (by decide))
  exact ⟨_, _, exec_depart hnext hready, rfl, departSlot_departing hn, discardWork_batches _ _ _, departSlot_moves hn,
    hu.changesOnly _ (by intro p; cases p <;> decide)⟩

/-! ### WORK (R249) -/

/-- The batch of a WORK entry for a slot: a record of the list for each item, numbered from `first` on. -/
def workBatch (q : SeqSlot) (first : Nat) (bs all : List Byte) : Batch :=
  ⟨fld bs 8 8, ((List.range (fld bs 0x18 8)).zip ((List.range (fld bs 0x18 8)).map fun k => (all.drop (64 * k)).take 64)).map
    fun p => itemRec q (first + p.1) (fld bs 8 8) (fld bs 0x10 8 + 64 * p.1) p.2⟩

/-- A batch joins a slot, and its items take the next numbers (log entry 3). -/
def withBatch (s : State) (n : Nat) (b : Batch) : State :=
  modSeq { s with nextNum := s.nextNum + b.items.length } n fun q => { q with batches := q.batches ++ [b] }

theorem seqAt_withBatch {s : State} {n : Nat} (hn : n < s.seq.length) (b : Batch) (j : Nat) :
    seqAt (withBatch s n b) j =
      if j = n then { seqAt s n with batches := (seqAt s n).batches ++ [b] } else seqAt s j :=
  seqAt_modSeq_of_lt (s := { s with nextNum := s.nextNum + b.items.length }) _ hn j

section
variable (q : SeqSlot) (first : Nat) (bs all : List Byte)

theorem workBatch_length : (workBatch q first bs all).items.length = fld bs 0x18 8 := by
  simp [workBatch]

theorem workBatch_nums :
    (workBatch q first bs all).items.map (·.num) = (List.range (fld bs 0x18 8)).map fun k => first + k := by
  apply List.ext_getElem
  · simp [workBatch]
  · intro k _ _
    simp [workBatch, itemRec]

theorem workBatch_waiting : ∀ i ∈ (workBatch q first bs all).items, i.phase = .waiting ∧ i.placed = [] := by
  intro i hi
  obtain ⟨p, -, rfl⟩ := List.mem_map.mp hi
  exact ⟨rfl, rfl⟩

end

section
variable {n : Nat} {bs all : List Byte} {s w : State} (hopen : (seqAt s n).beginRefused = false)
  (halign : fld bs 0x10 8 % 64 = 0) (hlocal : fld bs 0x10 8 < 2 ^ 52) (hone : 1 ≤ fld bs 0x18 8) (hmax : fld bs 0x18 8 ≤ 64)
  (hbatches : (seqAt s n).batches.length < 8)
  (hitems : (seqAt s n).items.length + ((seqAt s n).batches.map (·.items.length)).sum + fld bs 0x18 8 ≤ 64)
  (hread : devRead s (.lva (fld bs 0x10 8)) (64 * fld bs 0x18 8) = (some all, w))
  (hrecs : ∀ k, k < fld bs 0x18 8 → itemWf (seqAt s n) ((all.drop (64 * k)).take 64) = true)
include hopen halign hlocal hone hmax hbatches hitems hread hrecs

/-- A valid list within both bounds joins the slot's batches. -/
theorem workEntry_queued :
    workEntry n bs s = (none, withBatch w n (workBatch (seqAt s n) w.nextNum bs all)) := by
  have hlist : ¬(fld bs 0x10 8 % 64 ≠ 0 ∨ 2 ^ 52 ≤ fld bs 0x10 8 ∨ fld bs 0x18 8 = 0 ∨ 64 < fld bs 0x18 8) := by omega
  have hbound : ¬(8 ≤ (seqAt s n).batches.length ∨
      64 < (seqAt s n).items.length + ((seqAt s n).batches.map (·.items.length)).sum + fld bs 0x18 8) := by omega
  have hall : ((List.range (fld bs 0x18 8)).map fun k => (all.drop (64 * k)).take 64).all (itemWf (seqAt s n)) = true := by
    simpa using hrecs
  unfold workEntry
  dsimp only
  rw [hopen, if_neg Bool.false_ne_true, if_neg hlist, if_neg hbound, hread]
  dsimp only
  rw [hall, withBatch, workBatch_length]
  rfl

end

/-- Settles O13: the batch joins the slot as the read of its list left it. -/
theorem workAddsABatch : Obligations.WorkAddsABatch := by
  intro d bs all s v w hsnd hnext hslot hready hopen halign hlocal hone hmax hbatches hitems hread hrecs
  have hw : Within 251659554 s w := hnext.read_changes.trans (devRead_changes hread)
  have hn : fld bs 1 1 < w.seq.length := hw.seq_length hsnd ▸ hslot
  refine ⟨_, withBatch w (fld bs 1 1) (workBatch (seqAt v (fld bs 1 1)) w.nextNum bs all), _, exec_work hnext hready,
    by rw [workEntry_queued hopen halign hlocal hone hmax hbatches hitems hread hrecs],
    by rw [seqAt_withBatch hn, if_pos rfl, seqAt_devRead hread], rfl, workBatch_length _ _ _ _, workBatch_nums _ _ _ _,
    workBatch_waiting _ _ _ _, fun n hne => by rw [seqAt_withBatch hn, if_neg hne, seqAt_devRead hread],
    hw.cl.resolve_left (by decide)⟩

end Sys2Proof.Machine
end

section
/-! SUPPORT. Links and ports under the shared updates (14 R263-R268): the units of a sound state, what raising an event leaves
of them, and what sending flits leaves of a link. -/

namespace Sys2Proof.Machine

/-! ### Units of a sound state -/

theorem Sound.link_length {s : State} (h : Sound s) : s.link.length = 32 := by
  obtain ⟨⟨-, -, -, -, -, -, hlink, -⟩, -⟩ := h
  exact hlink

theorem Sound.port_length {s : State} (h : Sound s) : s.port.length = 8 := by
  obtain ⟨⟨-, -, -, -, -, -, -, hport, -⟩, -⟩ := h
  exact hport

theorem linkAt_congr {s t : State} (h : t.link = s.link) (k : Nat) : linkAt t k = linkAt s k := by
  unfold linkAt; rw [h]

theorem portAt_congr {s t : State} (h : t.port = s.port) (p : Nat) : portAt t p = portAt s p := by
  unfold portAt; rw [h]

theorem linkAt_modLink_same {s : State} {k : Nat} (f : LinkSt → LinkSt) (h : k < s.link.length) :
    linkAt (modLink s k f) k = f (linkAt s k) := by
  rw [linkAt_modLink, if_pos ⟨rfl, h⟩]

theorem linkAt_modLink_other {s : State} {k j : Nat} (f : LinkSt → LinkSt) (h : j ≠ k) :
    linkAt (modLink s k f) j = linkAt s j := by
  rw [linkAt_modLink, if_neg fun x => h x.1]

/-- What a change of a link keeps, it keeps of every link. -/
theorem linkAt_modLink_field {α : Type} (g : LinkSt → α) {f : LinkSt → LinkSt} (s : State) (k j : Nat)
    (hf : ∀ l, g (f l) = g l) : g (linkAt (modLink s k f) j) = g (linkAt s j) := by
  rw [linkAt_modLink]
  split
  next h => rw [h.1, hf]
  next => rfl

theorem portAt_modPort_same {s : State} {p : Nat} (f : PortSt → PortSt) (h : p < s.port.length) :
    portAt (modPort s p f) p = f (portAt s p) := by
  rw [portAt_modPort, if_pos ⟨rfl, h⟩]

@[simp] theorem modLink_link_length (s : State) (k : Nat) (f : LinkSt → LinkSt) :
    (modLink s k f).link.length = s.link.length :=
  List.length_modify _ _ _

@[simp] theorem modPort_port_length (s : State) (p : Nat) (f : PortSt → PortSt) :
    (modPort s p f).port.length = s.port.length :=
  List.length_modify _ _ _

theorem modPort_changes (s : State) (p : Nat) (f : PortSt → PortSt) : Within 16384 s (modPort s p f) :=
  modPort_within s p f (by decide) (.refl _ _)

/-! ### Events -/

@[simp] theorem raise_linkAt (s : State) (block num : Nat) (l : BitVec 32) (seq : Nat) (detail : Word64) (k : Nat) :
    linkAt (raise s block num l seq detail) k = linkAt s k :=
  linkAt_congr ((raise_changes s block num l seq detail).link.resolve_left (by decide)) k

@[simp] theorem raise_portAt (s : State) (block num : Nat) (l : BitVec 32) (seq : Nat) (detail : Word64) (p : Nat) :
    portAt (raise s block num l seq detail) p = portAt s p :=
  portAt_congr ((raise_changes s block num l seq detail).port.resolve_left (by decide)) p

@[simp] theorem raise_out (s : State) (block num : Nat) (l : BitVec 32) (seq : Nat) (detail : Word64) :
    (raise s block num l seq detail).out = s.out :=
  (raise_changes s block num l seq detail).out.resolve_left (by decide)

/-! ### Flits on the wire (R264, R265) -/

/-- What a link is as a receiver: whether it is active, whether it trains, and the next FSEQ that it expects. -/
abbrev LinkSt.receiver (l : LinkSt) : Bool × Bool × BitVec 12 := (l.active, l.training, l.rxSeq)

/-- A link after a flit of its own: the flit has its FSEQ and slot, and is kept for replay. -/
def LinkSt.sent (slot cls : Nat) (f : BitVec 2048) (l : LinkSt) : LinkSt :=
  { l with
    txSeq := l.txSeq + 1
    replay := l.replay ++ [(l.txSeq, f)]
    owed := l.owed.modify (creditsDue l).1 (· - (creditsDue l).2)
    slots := (slot, cls) :: l.slots.filter fun x => slot < x.1 + 256
    slotNo := slot + 1 }

section
variable {s : State} {k slot cls kind : Nat} {sop eop lane order : Bool} {pay : BitVec 1936}

theorem linkAt_putFlit (h : k < s.link.length) :
    linkAt (putFlit s k slot cls kind sop eop lane order pay) k = (linkAt s k).sent slot cls
      (flitBits (linkAt s k).txSeq ((linkAt s k).rxSeq - 1) cls (creditsDue (linkAt s k)) kind sop eop lane order pay) := by
  unfold putFlit
  simp only [emit_linkAt, ctrAdd_linkAt]
  rw [linkAt_modLink_same _ h]
  rfl

theorem putFlit_receiver (j : Nat) :
    (linkAt (putFlit s k slot cls kind sop eop lane order pay) j).receiver = (linkAt s j).receiver := by
  unfold putFlit
  simp only [emit_linkAt, ctrAdd_linkAt]
  exact linkAt_modLink_field LinkSt.receiver s k j fun _ => rfl

end

theorem sendBare_of_maySend {s : State} {k : Nat} (h : maySend (linkAt s k) = true) (kind : Nat) :
    sendBare s k kind = putFlit s k (max (linkAt s k).slotNo (slotNow s)) 7 kind false false false false 0 :=
  if_pos h

theorem sendBare_receiver (s : State) (k kind j : Nat) :
    (linkAt (sendBare s k kind) j).receiver = (linkAt s j).receiver := by
  unfold sendBare
  dsimp only
  split
  · exact putFlit_receiver j
  · rfl

theorem sendFlit_receiver (s : State) (k : Nat) (t : Turn) (j : Nat) :
    (linkAt (sendFlit s k t) j).receiver = (linkAt s j).receiver := by
  unfold sendFlit
  dsimp only
  rw [putFlit_receiver]
  split
  · rw [ctrAdd_linkAt]
    exact linkAt_modLink_field LinkSt.receiver s k j fun _ => rfl
  · exact linkAt_modLink_field LinkSt.receiver s k j fun _ => rfl

theorem drainLink_receiver (k n : Nat) (s : State) (j : Nat) :
    (linkAt (drainLink k n s) j).receiver = (linkAt s j).receiver := by
  induction n generalizing s with
  | zero => rfl
  | succ n ih =>
    unfold drainLink
    dsimp only
    split
    · rfl
    · split
      · rw [ih, sendFlit_receiver]
      · split
        · rfl
        · rw [ctrAdd_linkAt]

theorem drain_receiver (s : State) (k j : Nat) : (linkAt (drain s k) j).receiver = (linkAt s j).receiver :=
  drainLink_receiver k _ s j

theorem LinkSt.rxSeq_of_receiver {l m : LinkSt} (h : l.receiver = m.receiver) : l.rxSeq = m.rxSeq := congrArg (·.2.2) h

theorem LinkSt.active_of_receiver {l m : LinkSt} (h : l.receiver = m.receiver) : l.active = m.active := congrArg (·.1) h

theorem LinkSt.training_of_receiver {l m : LinkSt} (h : l.receiver = m.receiver) : l.training = m.training :=
  congrArg (·.2.1) h

end Sys2Proof.Machine
end

section
/-! Flits in the order of FSEQ (14 R264, R265, R278). That a retry request is a flit of KIND 2 whose ACK names the last flit
accepted, and that a flit behind its turn asks for nothing, is log entry 72. -/

namespace Sys2Proof.Machine

theorem exec_flitReceive {s : State} (h : linksOn s = true) (k : Link) (f : BitVec 2048) :
    exec (.flitReceive k f) s = .next (flitReceive k f s) :=
  congrArg Host.Outcome.next (if_pos h)

theorem exec_retryRequest {s : State} (h : linksOn s = true) (k : Link) (q : BitVec 12) :
    exec (.retryRequest k q) s = .next (retryRequest k q s) :=
  congrArg Host.Outcome.next (if_pos h)

/-! ### What becomes of a flit (R264) -/

section
variable {k : Nat} {f : BitVec 2048} {s : State} (hact : (linkAt s k).active = true)
include hact

theorem flitReceive_badCrc (hbad : flitOk f = false) : flitReceive k f s = askReplay k s := by
  simp [flitReceive, hact, hbad]

theorem flitReceive_inTurn (hok : flitOk f = true) (hseq : flitSeq f = (linkAt s k).rxSeq) :
    flitReceive k f s = takeFlit k f s := by
  simp [flitReceive, hact, hok, hseq]

theorem flitReceive_ahead (hok : flitOk f = true) (hpos : 0 < (flitSeq f - (linkAt s k).rxSeq).toNat)
    (hlt : (flitSeq f - (linkAt s k).rxSeq).toNat < 2048) : flitReceive k f s = askReplay k s := by
  have hne : flitSeq f ≠ (linkAt s k).rxSeq := fun h => by simp [h] at hpos
  simp only [flitReceive, hact, hok, Bool.not_true, Bool.false_eq_true, if_false]
  rw [if_neg hne, if_pos hlt]

theorem flitReceive_behind (hok : flitOk f = true) (hle : 2048 ≤ (flitSeq f - (linkAt s k).rxSeq).toNat) :
    flitReceive k f s = s := by
  have hne : flitSeq f ≠ (linkAt s k).rxSeq := fun h => by simp [h] at hle
  simp only [flitReceive, hact, hok, Bool.not_true, Bool.false_eq_true, if_false]
  rw [if_neg hne, if_neg (Nat.not_lt.mpr hle)]

end

/-! ### A request for a replay (R265) -/

theorem askReplay_changesOnly (k : Nat) (s : State) : ChangesOnly [.link, .out, .obs] s (askReplay k s) :=
  (askReplay_within (M := 33562632) k s (by decide) (.refl _ _)).changesOnly _ (by intro p; cases p <;> decide)

theorem askReplay_rxSeq (k : Nat) (s : State) : (linkAt (askReplay k s) k).rxSeq = (linkAt s k).rxSeq :=
  LinkSt.rxSeq_of_receiver (sendBare_receiver s k 2 k)

theorem askReplay_of_maySend {k : Nat} {s : State} (h : maySend (linkAt s k) = true) :
    askReplay k s = putFlit s k (max (linkAt s k).slotNo (slotNow s)) 7 2 false false false false 0 :=
  sendBare_of_maySend h 2

/-! ### A data flit in its turn -/

/-- A link that takes a flit: the next FSEQ, the flit's ACK and credits, and its part of a packet. -/
def LinkSt.taking (f : BitVec 2048) (l : LinkSt) : LinkSt :=
  let l1 := credited f (acked (flitAck f) { l with rxSeq := l.rxSeq + 1 })
  if flitIsData f then buffered f l1 else l1

theorem buffered_rxSeq (f : BitVec 2048) (l : LinkSt) : (buffered f l).rxSeq = l.rxSeq := by
  unfold buffered
  dsimp only
  split <;> rfl

theorem LinkSt.taking_rxSeq (f : BitVec 2048) (l : LinkSt) : (l.taking f).rxSeq = l.rxSeq + 1 := by
  unfold LinkSt.taking
  dsimp only
  split
  · exact buffered_rxSeq _ _
  · rfl

/-- The state in which a flit is taken, before it is acknowledged by a flit without a packet. -/
def flitTaken (k : Nat) (f : BitVec 2048) (s : State) : State :=
  drain (ctrAdd (modLink s k (LinkSt.taking f)) (ctrLink k 1) 1) k

theorem flitTaken_changes (k : Nat) (f : BitVec 2048) (s : State) : Within 33562632 s (flitTaken k f s) :=
  drain_within _ _ (by decide) (ctrAdd_within _ _ _ (by decide) (modLink_within _ _ _ (by decide) (.refl _ _)))

theorem flitTaken_rxSeq {k : Nat} {s : State} (f : BitVec 2048) (hk : k < s.link.length) :
    (linkAt (flitTaken k f s) k).rxSeq = (linkAt s k).rxSeq + 1 := by
  unfold flitTaken
  rw [LinkSt.rxSeq_of_receiver (drain_receiver _ k k), ctrAdd_linkAt, linkAt_modLink_same _ hk, LinkSt.taking_rxSeq]

theorem flitKind_of_data {f : BitVec 2048} (h : flitIsData f = true) : flitHdr f 6 5 = 0 := by
  simp only [flitIsData, Bool.and_eq_true, beq_iff_eq] at h
  exact h.1

/-- A data flit asks for no replay; it is acknowledged by a null flit where no other goes. -/
theorem takeFlit_of_data (k : Nat) {f : BitVec 2048} (s : State) (h : flitIsData f = true) :
    takeFlit k f s =
      if flitIsData f && (linkAt (flitTaken k f s) k).txSeq == (linkAt (modLink s k (LinkSt.taking f)) k).txSeq then
        sendBare (flitTaken k f s) k 1
      else flitTaken k f s :=
  if_neg (by rw [flitKind_of_data h]; decide)

theorem takeFlit_data {k : Nat} {f : BitVec 2048} {s : State} (hk : k < s.link.length) (h : flitIsData f = true) :
    (linkAt (takeFlit k f s) k).rxSeq = (linkAt s k).rxSeq + 1 ∧
      ChangesOnly [.link, .out, .obs] s (takeFlit k f s) := by
  have hw : Within 33562632 s (takeFlit k f s) := by
    rw [takeFlit_of_data k s h]
    exact .ite (sendBare_within _ _ _ (by decide) (flitTaken_changes k f s)) (flitTaken_changes k f s)
  refine ⟨?_, hw.changesOnly _ (by intro p; cases p <;> decide)⟩
  rw [takeFlit_of_data k s h]
  split
  · rw [LinkSt.rxSeq_of_receiver (sendBare_receiver _ k 1 k), flitTaken_rxSeq f hk]
  · exact flitTaken_rxSeq f hk

/-! ### A replay (R265, R266) -/

/-- The replays of the last millisecond with one of `q` now. -/
def retriesWith (q : BitVec 12) (now : Nat) (l : List (BitVec 12 × Nat)) : List (BitVec 12 × Nat) :=
  (q, now) :: l.filter fun r => now < r.2 + 1000000

theorem retriesWith_count (q : BitVec 12) (now : Nat) (l : List (BitVec 12 × Nat)) :
    ((retriesWith q now l).filter (·.1 == q)).length =
      (l.filter fun r => decide (now < r.2 + 1000000) && r.1 == q).length + 1 := by
  unfold retriesWith
  rw [List.filter_cons_of_pos (by simp), List.filter_filter, List.length_cons]
  simp only [Bool.and_comm]

/-- The sender has replayed its flits from `q` on. -/
def replayed (k : Nat) (q : BitVec 12) (s : State) : State :=
  each ((linkAt s k).replay.dropWhile (·.1 != q)) (fun s r => emit (ctrAdd s (ctrLink k 0) 1) (.flit k r.2))
    (raise (modLink (ctrAdd s (ctrLink k 2) 1) k fun l => { l with retries := retriesWith q s.time (linkAt s k).retries })
      bLNK 1 (locLink k) noSeq 0)

theorem retryRequest_kept {k : Nat} {q : BitVec 12} {s : State} (hact : (linkAt s k).active = true)
    (hin : (linkAt s k).replay.any (·.1 == q) = true) :
    retryRequest k q s = if 3 < ((retriesWith q s.time (linkAt s k).retries).filter (·.1 == q)).length
      then linkRetrain k (replayed k q s) else replayed k q s := by
  simp only [retryRequest, hact, hin, Bool.not_true, Bool.or_self, Bool.false_eq_true, if_false]
  rfl

theorem each_emit_out {α : Type} (g : α → Out) (i n : Nat) (l : List α) (s : State) :
    (each l (fun s x => emit (ctrAdd s i n) (g x)) s).out = (l.map g).reverse ++ s.out := by
  induction l generalizing s with
  | nil => rfl
  | cons x l ih =>
    calc (each l (fun s x => emit (ctrAdd s i n) (g x)) (emit (ctrAdd s i n) (g x))).out
        = (l.map g).reverse ++ g x :: s.out := ih _
      _ = ((x :: l).map g).reverse ++ s.out := by simp

theorem replayed_out (k : Nat) (q : BitVec 12) (s : State) :
    (replayed k q s).out = (((linkAt s k).replay.dropWhile (·.1 != q)).map fun r => Out.flit k r.2).reverse ++ s.out := by
  unfold replayed
  rw [each_emit_out (fun r : BitVec 12 × BitVec 2048 => Out.flit k r.2), raise_out, modLink_out, ctrAdd_out]

theorem replayed_replay (k : Nat) (q : BitVec 12) (s : State) : (linkAt (replayed k q s) k).replay = (linkAt s k).replay := by
  unfold replayed
  refine (each_field (v := fun u => (linkAt u k).replay) ?_ _ _).trans ?_
  · exact fun _ _ => rfl
  · rw [raise_linkAt]
    exact linkAt_modLink_field LinkSt.replay (ctrAdd s (ctrLink k 2) 1) k k fun _ => rfl

theorem replayed_changesOnly (k : Nat) (q : BitVec 12) (s : State) :
    ChangesOnly (eventParts ++ [.link, .out]) s (replayed k q s) := by
  have hw : Within 117448746 s (replayed k q s) :=
    each_within _ _ _ (by decide) (fun _ _ => emit_within _ _ (by decide) (ctrAdd_within _ _ _ (by decide) (.refl _ _)))
      (raise_within _ _ _ _ _ _ (by decide) (modLink_within _ _ _ (by decide) (ctrAdd_within _ _ _ (by decide) (.refl _ _))))
  exact hw.changesOnly _ (by intro p; cases p <;> decide)

/-- Settles O43: the CRC, then the distance of FSEQ from the one expected, decide what becomes of a flit; a request that names
a kept flit replays from it. -/
theorem flitsComeInOrder : Obligations.FlitsComeInOrder := by
  intro k f q s hsnd hon hact
  have hk : k.val < s.link.length := by rw [hsnd.link_length]; exact k.isLt
  rw [exec_flitReceive hon, exec_retryRequest hon]
  refine ⟨fun hbad hroom => ?_, fun hok hdata => ⟨fun hseq => ?_, fun hpos hlt => ?_, fun hle => ?_⟩, fun hin => ?_⟩
  · have hmay : maySend (linkAt s k) = true := by simp [maySend, hact, hroom]
    rw [flitReceive_badCrc hact hbad]
    refine ⟨_, rfl, askReplay_changesOnly k s, ?_⟩
    rw [askReplay_of_maySend hmay, linkAt_putFlit hk]
    exact ⟨rfl, rfl, rfl, rfl, rfl⟩
  · rw [flitReceive_inTurn hact hok hseq]
    exact ⟨_, rfl, takeFlit_data hk hdata⟩
  · rw [flitReceive_ahead hact hok hpos hlt]
    exact ⟨_, rfl, askReplay_rxSeq k s, askReplay_changesOnly k s⟩
  · rw [flitReceive_behind hact hok hle]
  · rw [retryRequest_kept hact hin, retriesWith_count]
    refine ⟨replayed k q s, replayed_out k q s, replayed_replay k q s, replayed_changesOnly k q s, fun hfew => ?_,
      fun hmany => ?_⟩
    · rw [if_neg (by omega)]
    · rw [if_pos (by omega)]

end Sys2Proof.Machine
end

section
/-! Links that leave their port and join it (14 R266-R268, R270). -/

namespace Sys2Proof.Machine

theorem exec_linkRetrain {s : State} (h : linksOn s = true) (k : Link) (cause : LinkCause) :
    exec (.linkRetrain k cause) s = .next (linkRetrain k (badCodewords k cause s)) :=
  congrArg Host.Outcome.next (if_pos h)

theorem exec_linkTrainingDone {s : State} (h : linksOn s = true) (k : Link) (r : LinkTraining) :
    exec (.linkTrainingDone k r) s = .next (trainingDone k r s) :=
  congrArg Host.Outcome.next (if_pos h)

theorem linkPort_lt (k : Nat) : linkPort k < 8 := Nat.mod_lt k (by decide)

/-! ### The active links of a port -/

theorem mem_activeLinks {s : State} {k : Nat} (hk : k < 32) (hact : (linkAt s k).active = true) :
    k ∈ activeLinks s (linkPort k) := by
  have hmem : k ∈ [linkPort k, linkPort k + 8, linkPort k + 16, linkPort k + 24] := by
    simp only [linkPort, List.mem_cons, List.not_mem_nil, or_false]
    omega
  exact List.mem_filter.mpr ⟨hmem, hact⟩

theorem active_of_mem_activeLinks {s : State} {p j : Nat} (h : j ∈ activeLinks s p) : (linkAt s j).active = true :=
  (List.mem_filter.mp h).2

theorem activeLinks_nodup (s : State) (p : Nat) : (activeLinks s p).Nodup := by
  have hports : [p, p + 8, p + 16, p + 24].Nodup := by simp
  exact hports.filter _

theorem activeLinks_congr {s t : State} (h : ∀ j, (linkAt t j).active = (linkAt s j).active) (p : Nat) :
    activeLinks t p = activeLinks s p := by
  simp only [activeLinks, h]

/-- A link that is no longer active is no longer among them; the others stay. -/
theorem activeLinks_without {s t : State} {k : Nat} (hk : (linkAt t k).active = false)
    (hother : ∀ j, j ≠ k → linkAt t j = linkAt s j) (p : Nat) : activeLinks t p = (activeLinks s p).erase k := by
  rw [(activeLinks_nodup s p).erase_eq_filter]
  unfold activeLinks
  rw [List.filter_filter]
  refine List.filter_congr fun j _ => ?_
  by_cases hj : j = k
  · simp [hj, hk]
  · simp [hj, hother j hj]

/-! ### A port that has lost a link (R268) -/

@[simp] theorem portCheck_linkAt (p : Nat) (s : State) (j : Nat) : linkAt (portCheck p s) j = linkAt s j := by
  unfold portCheck
  split
  · rw [raise_linkAt, modPort_linkAt]
  · rfl

theorem portCheck_empty {p : Nat} {s : State} (hp : p < s.port.length) (hup : (portAt s p).state = .up)
    (hnone : activeLinks s p = []) : (portAt (portCheck p s) p).state = .down := by
  unfold portCheck
  rw [if_pos (by simp [hup, hnone]), raise_portAt, portAt_modPort_same _ hp]

theorem portCheck_stays {p : Nat} {s : State} (h : (portAt s p).state ≠ .up ∨ activeLinks s p ≠ []) :
    portCheck p s = s := by
  unfold portCheck
  rw [if_neg]
  rw [Bool.and_eq_true_iff, beq_iff_eq, List.isEmpty_iff]
  exact fun hempty => h.elim (· hempty.1) (· hempty.2)

/-! ### Training begins (R270) -/

/-- A link that trains is not active, whether or not its training may begin. -/
theorem trainLink_inactive {s : State} {j : Nat} (k : Nat) (h : (linkAt s j).active = false) :
    (linkAt (trainLink k s) j).active = false := by
  unfold trainLink
  dsimp only
  split
  · exact h
  · rw [emit_linkAt, linkAt_modLink]
    split
    · rfl
    · exact h

theorem trainLink_other {j k : Nat} (s : State) (h : j ≠ k) : linkAt (trainLink k s) j = linkAt s j := by
  unfold trainLink
  dsimp only
  split
  · rfl
  · rw [emit_linkAt, linkAt_modLink_other _ h]

@[simp] theorem trainLink_portAt (k : Nat) (s : State) (p : Nat) : portAt (trainLink k s) p = portAt s p :=
  portAt_congr ((trainLink_within (M := 8200) k s (by decide) (.refl _ _)).port.resolve_left (by decide)) p

/-! ### A retrain (R266) -/

/-- The links and ports with link `k` out of its port. -/
def linkLeaving (k : Nat) (s : State) : State :=
  modLink (ctrAdd s (ctrLink k 4) 1) k fun l => { l with active := false, retries := [], again := true }

theorem linkLeaving_other {j k : Nat} (s : State) (h : j ≠ k) : linkAt (linkLeaving k s) j = linkAt s j := by
  rw [linkLeaving, linkAt_modLink_other _ h, ctrAdd_linkAt]

theorem linkRetrain_active {k : Nat} {s : State} (h : (linkAt s k).active = true) :
    linkRetrain k s = trainLink k (portCheck (linkPort k) (linkLeaving k s)) :=
  if_neg (by simp [h])

theorem linkLeaving_inactive {k : Nat} {s : State} (hk : k < s.link.length) : (linkAt (linkLeaving k s) k).active = false := by
  rw [linkLeaving, linkAt_modLink_same _ (by exact hk)]

theorem linkLeaving_activeLinks {k : Nat} {s : State} (hk : k < s.link.length) (p : Nat) :
    activeLinks (linkLeaving k s) p = (activeLinks s p).erase k :=
  activeLinks_without (linkLeaving_inactive hk) (fun _ => linkLeaving_other s) p

/-- A retrain of an active link: what it leaves of every link and of the link's port. -/
theorem linkRetrain_leaves {k : Nat} {s : State} (hsnd : Sound s) (hk : k < 32) (hact : (linkAt s k).active = true) :
    (linkAt (linkRetrain k s) k).active = false ∧ (∀ j, j ≠ k → linkAt (linkRetrain k s) j = linkAt s j) ∧
      ((portAt s (linkPort k)).state = .up → activeLinks s (linkPort k) = [k] →
        (portAt (linkRetrain k s) (linkPort k)).state = .down) ∧
      ((portAt s (linkPort k)).state ≠ .up ∨ activeLinks s (linkPort k) ≠ [k] →
        (portAt (linkRetrain k s) (linkPort k)).state = (portAt s (linkPort k)).state) := by
  have hlen : k < s.link.length := by rw [hsnd.link_length]; exact hk
  have hport : linkPort k < (linkLeaving k s).port.length := by
    change linkPort k < s.port.length
    rw [hsnd.port_length]
    exact linkPort_lt k
  have hstate : portAt (linkLeaving k s) (linkPort k) = portAt s (linkPort k) := rfl
  rw [linkRetrain_active hact, trainLink_portAt]
  refine ⟨trainLink_inactive k ?_, fun j hj => ?_, fun hup hlast => ?_, fun hstays => ?_⟩
  · rw [portCheck_linkAt, linkLeaving_inactive hlen]
  · rw [trainLink_other _ hj, portCheck_linkAt, linkLeaving_other _ hj]
  · exact portCheck_empty hport hup (by rw [linkLeaving_activeLinks hlen, hlast, List.erase_cons_head])
  · rw [portCheck_stays, hstate]
    refine hstays.imp id fun hmore hnone => ?_
    rw [linkLeaving_activeLinks hlen, List.erase_eq_nil_iff] at hnone
    exact hnone.elim (fun e => List.ne_nil_of_mem (mem_activeLinks hk hact) e) hmore

theorem badCodewords_link (k : Nat) (cause : LinkCause) (s : State) : (badCodewords k cause s).link = s.link :=
  (badCodewords_within (M := 33554434) k cause s (by decide) (.refl _ _)).link.resolve_left (by decide)

theorem badCodewords_port (k : Nat) (cause : LinkCause) (s : State) : (badCodewords k cause s).port = s.port :=
  (badCodewords_within (M := 33554434) k cause s (by decide) (.refl _ _)).port.resolve_left (by decide)

theorem badCodewords_sound {s : State} (h : Sound s) (k : Nat) (cause : LinkCause) : Sound (badCodewords k cause s) :=
  (badCodewords_within (M := 33554434) k cause s (by decide) (.refl _ _)).sound h

/-! ### A training that fails (R266) -/

theorem trainingDone_failed {k : Nat} {s : State} (h : (linkAt s k).training = true) :
    trainingDone k .failed s = trainingFailed k s :=
  if_neg (by simp [h])

/-- The third failure within 60 s removes the link. -/
theorem trainingFailed_removes {k : Nat} {s : State} (hk : k < s.link.length) (hagain : (linkAt s k).again = true)
    (hfails : 2 ≤ ((linkAt s k).fails.filter fun t => decide (s.time < t + 60 * second)).length) :
    (linkAt (trainingFailed k s) k).removed = true ∧ (linkAt (trainingFailed k s) k).active = false := by
  have hthree : 3 ≤ (s.time :: (linkAt s k).fails.filter fun t => decide (s.time < t + 60 * second)).length :=
    Nat.succ_le_succ hfails
  unfold trainingFailed
  dsimp only
  rw [if_neg (by simp [hagain]), if_pos hthree, raise_linkAt, portCheck_linkAt, linkAt_modLink_same _ hk]
  exact ⟨rfl, rfl⟩

/-! ### A trained link (R267, R270) -/

theorem trainingDone_neighbour {k lat : Nat} {code : NPort} {s : State} (h : (linkAt s k).training = true)
    (hcode : code.val = oppositePort (linkPort k)) :
    trainingDone k (.trained lat (neighbour s (linkPort k)) s.self.dims code) s =
      linkJoins k lat (neighbour s (linkPort k)) s :=
  (if_neg (by simp [h])).trans (if_pos ⟨rfl, hcode, rfl⟩)

theorem trainingDone_stranger {k lat : Nat} {coord dims : BitVec 16} {code : NPort} {s : State}
    (h : (linkAt s k).training = true) (hne : coord ≠ neighbour s (linkPort k)) :
    trainingDone k (.trained lat coord dims code) s = fencePort (linkPort k) coord s :=
  (if_neg (by simp [h])).trans (if_neg fun hall => hne hall.2.2)

/-- The latency of a link has been measured, and its retrain, if it was one, is over. -/
def linkMeasured (k lat : Nat) (s : State) : State := modLink s k fun l => { l with latency := lat, again := false }

theorem linkMeasured_active (k lat : Nat) (s : State) (j : Nat) :
    (linkAt (linkMeasured k lat s) j).active = (linkAt s j).active := by
  unfold linkMeasured
  exact linkAt_modLink_field LinkSt.active s k j fun _ => rfl

/-- A measured link is active, and its port up. -/
def linkJoined (k lat : Nat) (coord : BitVec 16) (s : State) : State :=
  modPort (modLink (linkMeasured k lat s) k fun l => { l with active := true, training := false }) (linkPort k) fun q =>
    { q with state := .up, nbr := coord }

/-- A link as fast as the others joins its port, and none leaves it. -/
theorem linkJoins_inSkew {k lat : Nat} {s : State} (coord : BitVec 16) (hinact : (linkAt s k).active = false)
    (hskew : ∀ j ∈ activeLinks s (linkPort k), j ≠ k →
      (linkAt s j).latency ≤ lat + 64 ∧ lat ≤ (linkAt s j).latency + 64) :
    linkJoins k lat coord s = drain (if (linkAt s k).again then
      raise (linkJoined k lat coord s) bLNK 2 (locLink k) noSeq 0 else linkJoined k lat coord s) k := by
  have hlat : ∀ j ∈ activeLinks (linkMeasured k lat s) (linkPort k),
      (linkAt (linkMeasured k lat s) j).latency ≤ lat + 64 ∧ lat ≤ (linkAt (linkMeasured k lat s) j).latency + 64 := by
    rw [activeLinks_congr (linkMeasured_active k lat s)]
    intro j hj
    have hne : j ≠ k := fun e => by
      have hon := active_of_mem_activeLinks hj
      rw [e, hinact] at hon
      exact Bool.noConfusion hon
    rw [linkMeasured, linkAt_modLink_other _ hne]
    exact hskew j hj hne
  have hfast : ¬((activeLinks (linkMeasured k lat s) (linkPort k)).any fun j =>
      decide ((linkAt (linkMeasured k lat s) j).latency + 64 < lat)) = true := by
    simpa using fun j hj => (hlat j hj).2
  have hnone : ((activeLinks (linkMeasured k lat s) (linkPort k)).filter fun j =>
      decide (lat + 64 < (linkAt (linkMeasured k lat s) j).latency)) = [] := by
    simpa using fun j hj => (hlat j hj).1
  refine (if_neg hfast).trans ?_
  change drain (each ((activeLinks (linkMeasured k lat s) (linkPort k)).filter fun j =>
    decide (lat + 64 < (linkAt (linkMeasured k lat s) j).latency)) _ _) k = _
  rw [hnone]
  rfl

section
variable {k lat : Nat} {coord : BitVec 16} {s : State}

theorem linkJoined_linkAt (hk : k < s.link.length) : linkAt (linkJoined k lat coord s) k =
    { linkAt s k with latency := lat, again := false, active := true, training := false } := by
  rw [linkJoined, modPort_linkAt, linkMeasured, linkAt_modLink_same _ (by rw [modLink_link_length]; exact hk),
    linkAt_modLink_same _ hk]

theorem linkJoined_portAt (hp : linkPort k < s.port.length) : portAt (linkJoined k lat coord s) (linkPort k) =
    { portAt s (linkPort k) with state := .up, nbr := coord } := by
  rw [linkJoined, portAt_modPort_same _ (by exact hp)]
  rfl

end

theorem drain_portAt (s : State) (k p : Nat) : portAt (drain s k) p = portAt s p :=
  portAt_congr ((drain_within (M := 33562632) s k (by decide) (.refl _ _)).port.resolve_left (by decide)) p

/-- A link that joins in skew is active, and its port is up with that neighbour. -/
theorem linkJoins_joins {k lat : Nat} {s : State} (coord : BitVec 16) (hk : k < s.link.length) (hp : linkPort k < s.port.length)
    (hinact : (linkAt s k).active = false)
    (hskew : ∀ j ∈ activeLinks s (linkPort k), j ≠ k →
      (linkAt s j).latency ≤ lat + 64 ∧ lat ≤ (linkAt s j).latency + 64) :
    (linkAt (linkJoins k lat coord s) k).active = true ∧ (linkAt (linkJoins k lat coord s) k).training = false ∧
      (portAt (linkJoins k lat coord s) (linkPort k)).state = .up ∧
      (portAt (linkJoins k lat coord s) (linkPort k)).nbr = coord := by
  rw [linkJoins_inSkew coord hinact hskew, LinkSt.active_of_receiver (drain_receiver _ k k),
    LinkSt.training_of_receiver (drain_receiver _ k k), drain_portAt, apply_ite (linkAt · k),
    apply_ite (portAt · (linkPort k)), raise_linkAt, raise_portAt, ite_self, ite_self, linkJoined_linkAt hk, linkJoined_portAt hp]
  exact ⟨rfl, rfl, rfl, rfl⟩

/-! ### A frame of another device (R270) -/

/-- A link of a fenced port: what training and traffic had left is lost. -/
def LinkSt.fencedOff (l : LinkSt) : LinkSt := { LinkSt.reset with removed := l.removed, hot := l.hot, fails := l.fails }

theorem each_fencedOff_inactive {j : Nat} (l : List Nat) {s : State}
    (h : (linkAt s j).active = false ∨ (j ∈ l ∧ j < s.link.length)) :
    (linkAt (each l (fun s k => modLink s k LinkSt.fencedOff) s) j).active = false := by
  induction l generalizing s with
  | nil => exact h.resolve_right fun x => absurd x.1 List.not_mem_nil
  | cons k l ih =>
    refine ih (s := modLink s k LinkSt.fencedOff) ?_
    by_cases hj : j = k
    · subst hj
      by_cases hlen : j < s.link.length
      · exact .inl (by rw [linkAt_modLink_same _ hlen]; rfl)
      · exact .inl (by rw [linkAt_modLink, if_neg fun x => hlen x.2]; exact h.resolve_right fun x => hlen x.2)
    · rw [linkAt_modLink_other _ hj, modLink_link_length]
      exact h.imp id fun x => ⟨(List.mem_cons.mp x.1).resolve_left hj, x.2⟩

theorem fencePort_fences {p : Nat} {s : State} (coord : BitVec 16) (hsnd : Sound s) (hp : p < 8) :
    (portAt (fencePort p coord s) p).state = .fenced ∧ activeLinks (fencePort p coord s) p = [] := by
  have hlen : p < (each [p, p + 8, p + 16, p + 24] (fun s k => modLink s k LinkSt.fencedOff) s).port.length := by
    change p < s.port.length
    rw [hsnd.port_length]
    exact hp
  refine ⟨?_, List.filter_eq_nil_iff.mpr fun j hj => ?_⟩
  · unfold fencePort
    rw [raise_portAt]
    exact congrArg PortSt.state (portAt_modPort_same _ hlen)
  · have hj32 : j < s.link.length := by
      rw [hsnd.link_length]
      simp only [List.mem_cons, List.not_mem_nil, or_false] at hj
      omega
    unfold fencePort
    rw [raise_linkAt, modPort_linkAt]
    exact Bool.eq_false_iff.mp (each_fencedOff_inactive _ (.inr ⟨hj, hj32⟩))

/-- Settles O44: a retrain takes the link from the active ones of its port; what training ends with says whether it is removed,
joins the port or fences it. -/
theorem linksLeaveAndJoinTheirPort : Obligations.LinksLeaveAndJoinTheirPort := by
  intro k s hsnd hon
  have hk : k.val < s.link.length := by rw [hsnd.link_length]; exact k.isLt
  have hp : linkPort k < s.port.length := by rw [hsnd.port_length]; exact linkPort_lt k
  refine ⟨fun cause hact => ⟨_, exec_linkRetrain hon k cause, ?_⟩, fun htrain => ⟨fun hagain hfails =>
    ⟨_, exec_linkTrainingDone hon k _, ?_⟩, fun lat code hcode hskew hinact => ⟨_, exec_linkTrainingDone hon k _, ?_⟩,
    fun lat coord dims code hne => ⟨_, exec_linkTrainingDone hon k _, ?_⟩⟩⟩
  · have hlink : ∀ j, linkAt (badCodewords k cause s) j = linkAt s j := linkAt_congr (badCodewords_link k cause s)
    have hport := portAt_congr (badCodewords_port k cause s) (linkPort k)
    have hleaves := linkRetrain_leaves (badCodewords_sound hsnd k cause) k.isLt ((hlink k).symm ▸ hact)
    simpa only [hlink, hport, activeLinks_congr fun j => congrArg LinkSt.active (hlink j)] using hleaves
  · rw [trainingDone_failed htrain]
    exact trainingFailed_removes hk hagain hfails
  · rw [trainingDone_neighbour htrain hcode]
    exact linkJoins_joins _ hk hp hinact hskew
  · rw [trainingDone_stranger htrain hne]
    exact fencePort_fences coord hsnd (linkPort_lt k)

end Sys2Proof.Machine
end

section
/-! Packets in the order of PSEQ (14 R267, R276, R280). That PSEQ is counted for each port and class is log entry 43. -/

namespace Sys2Proof.Machine

theorem exec_packetReceive {s : State} (h : linksOn s = true) (p : NPort) (hdr : BitVec 128) (pay : List Byte) :
    exec (.packetReceive p hdr pay) s = .next (packetReceive p hdr pay s) :=
  congrArg Host.Outcome.next (if_pos h)

/-! ### Where a packet goes (R276) -/

section
variable {p : Nat} {hdr : BitVec 128} {pay : List Byte} {s : State}

theorem ownSlice_iff : (s.self.sliceId != 0 && hdrSlice hdr == s.self.sliceId) = true ↔
    s.self.sliceId ≠ 0 ∧ hdrSlice hdr = s.self.sliceId := by
  rw [Bool.and_eq_true_iff, bne_iff_ne, beq_iff_eq]

theorem routePacket_own (hdst : hdrDst hdr = s.self.coord) (hid : s.self.sliceId ≠ 0)
    (hslice : hdrSlice hdr = s.self.sliceId) : routePacket p hdr pay s = emit s (.delivered hdr pay) :=
  (if_pos hdst).trans (if_pos (ownSlice_iff.mpr ⟨hid, hslice⟩))

theorem routePacket_foreign (hdst : hdrDst hdr = s.self.coord) (hslice : hdrSlice hdr ≠ s.self.sliceId) :
    routePacket p hdr pay s = dropForeign p s :=
  (if_pos hdst).trans (if_neg fun hown => hslice (ownSlice_iff.mp hown).2)

theorem routePacket_forward (hdst : hdrDst hdr ≠ s.self.coord) (hslice : hdrSlice hdr = s.self.sliceId)
    (hid : s.self.sliceId ≠ 0) (hcls : hdrClass hdr ≠ 7) :
    routePacket p hdr pay s = sendOn s p (hdrClass hdr) hdr pay := by
  have hlt : hdrClass hdr < 7 := Nat.lt_of_le_of_ne (Nat.le_of_lt_succ (hdr.extractLsb' 52 3).isLt) hcls
  have hown := Bool.and_eq_true_iff.mpr ⟨ownSlice_iff.mpr ⟨hid, hslice⟩, decide_eq_true hlt⟩
  exact (if_neg hdst).trans (congrArg (sendOn s p · hdr pay) (if_pos hown))

theorem routePacket_transit (hdst : hdrDst hdr ≠ s.self.coord)
    (hnot : hdrSlice hdr ≠ s.self.sliceId ∨ s.self.sliceId = 0 ∨ hdrClass hdr = 7) :
    routePacket p hdr pay s = sendOn s p 4 hdr pay := by
  refine (if_neg hdst).trans (congrArg (sendOn s p · hdr pay) (if_neg fun hall => ?_))
  obtain ⟨hown, hlt⟩ := Bool.and_eq_true_iff.mp hall
  obtain ⟨hid, hslice⟩ := ownSlice_iff.mp hown
  exact hnot.elim (· hslice) fun h => h.elim hid (Nat.ne_of_lt (of_decide_eq_true hlt))

end

/-! ### A packet at a port that holds none (R267) -/

/-- The port holds a packet that it cannot deliver yet. -/
def packetHeld (p : Nat) (hdr : BitVec 128) (pay : List Byte) (s : State) : State :=
  modPort s p fun q => { q with held := q.held ++ [(hdr, pay)] }

/-- The port delivers the packet: the next PSEQ of its class is one on. -/
def packetNext (p : Nat) (hdr : BitVec 128) (pay : List Byte) (s : State) : State :=
  modPort s p fun q => { q with
    held := q.held.erase (hdr, pay), rxPseq := q.rxPseq.modify (hdrClass hdr) (· + 1) }

section
variable {p : Nat} {hdr : BitVec 128} {pay : List Byte} {s : State} (hp : p < s.port.length)
  (hup : (portAt s p).state = .up) (hnone : (portAt s p).held = [])

include hup in
theorem packetReceive_old (hle : 32768 ≤ (hdrPseq hdr - (portAt s p).rxPseq.getD (hdrClass hdr) 0).toNat) :
    packetReceive p hdr pay s = s := by
  simp only [packetReceive, hup, bne_self_eq_false, Bool.false_eq_true, if_false]
  rw [if_pos (by simpa using hle)]

include hup hnone in
theorem packetReceive_new (hlt : (hdrPseq hdr - (portAt s p).rxPseq.getD (hdrClass hdr) 0).toNat < 32768) :
    packetReceive p hdr pay s = deliverHeld p (hdrClass hdr) 1 (packetHeld p hdr pay s) := by
  simp only [packetReceive, hup, hnone, bne_self_eq_false, Bool.false_eq_true, if_false]
  rw [if_neg (by simpa using hlt)]
  rfl

include hp hnone

theorem packetHeld_portAt : portAt (packetHeld p hdr pay s) p = { portAt s p with held := [(hdr, pay)] } := by
  rw [packetHeld, portAt_modPort_same _ hp, hnone]
  rfl

theorem deliverHeld_waits (hne : hdrPseq hdr ≠ (portAt s p).rxPseq.getD (hdrClass hdr) 0) :
    deliverHeld p (hdrClass hdr) 1 (packetHeld p hdr pay s) = packetHeld p hdr pay s := by
  unfold deliverHeld
  dsimp only
  rw [packetHeld_portAt hp hnone, List.find?_cons_of_neg (by simpa using hne)]
  rfl

theorem deliverHeld_delivers (hpseq : hdrPseq hdr = (portAt s p).rxPseq.getD (hdrClass hdr) 0) :
    deliverHeld p (hdrClass hdr) 1 (packetHeld p hdr pay s) =
      routePacket p hdr pay (packetNext p hdr pay (packetHeld p hdr pay s)) := by
  unfold deliverHeld
  dsimp only
  rw [packetHeld_portAt hp hnone, List.find?_cons_of_pos (by simpa using hpseq)]
  rfl

theorem packetNext_portAt (hcls : hdrClass hdr < (portAt s p).rxPseq.length)
    (hpseq : hdrPseq hdr = (portAt s p).rxPseq.getD (hdrClass hdr) 0) :
    portAt (packetNext p hdr pay (packetHeld p hdr pay s)) p =
      { portAt s p with rxPseq := (portAt s p).rxPseq.set (hdrClass hdr) (hdrPseq hdr + 1) } := by
  have hset : (portAt s p).rxPseq.modify (hdrClass hdr) (· + 1) =
      (portAt s p).rxPseq.set (hdrClass hdr) (hdrPseq hdr + 1) := by
    rw [hpseq, List.getD_eq_getElem?_getD, List.getElem?_eq_getElem hcls, Option.getD_some]
    refine List.ext_getElem (by rw [List.length_modify, List.length_set]) fun i _ _ => ?_
    rw [List.getElem_modify, List.getElem_set]
    split
    next hi => subst hi; rfl
    next => rfl
  rw [packetNext, portAt_modPort_same _ (by rw [packetHeld, modPort_port_length]; exact hp), packetHeld_portAt hp hnone]
  dsimp only
  rw [hset, List.erase_cons_head, ← hnone]

end

theorem packetHeld_changesOnly (p : Nat) (hdr : BitVec 128) (pay : List Byte) (s : State) :
    ChangesOnly [.port] s (packetHeld p hdr pay s) :=
  (modPort_changes s p _).changesOnly _ (by intro q; cases q <;> decide)

theorem packetNext_changesOnly (p : Nat) (hdr : BitVec 128) (pay : List Byte) (s : State) :
    ChangesOnly [.port] s (packetNext p hdr pay (packetHeld p hdr pay s)) :=
  ((modPort_changes s p _).trans (modPort_changes _ p _)).changesOnly _ (by intro q; cases q <;> decide)

/-- Settles O45: the distance of PSEQ from the one expected decides whether the packet is delivered, held or old; its
destination and slice say where it goes. -/
theorem packetsComeInOrder : Obligations.PacketsComeInOrder := by
  intro p hdr pay s hsnd hon hup hnone hcls
  have hp : p.val < s.port.length := by rw [hsnd.port_length]; exact p.isLt
  rw [exec_packetReceive hon]
  refine ⟨fun hpseq => ?_, fun hne hlt => ?_, fun hle => ?_⟩
  · have hlt : (hdrPseq hdr - (portAt s p).rxPseq.getD (hdrClass hdr) 0).toNat < 32768 := by
      rw [hpseq, BitVec.sub_self]
      decide
    rw [packetReceive_new hup hnone hlt, deliverHeld_delivers hp hnone hpseq]
    have hself : (packetNext p hdr pay (packetHeld p hdr pay s)).self = s.self := rfl
    refine ⟨_, packetNext p hdr pay (packetHeld p hdr pay s), rfl, packetNext_changesOnly p hdr pay s,
      packetNext_portAt hp hnone hcls hpseq, ?_⟩
    rw [← hself]
    exact ⟨routePacket_own, routePacket_foreign, routePacket_forward, routePacket_transit⟩
  · rw [packetReceive_new hup hnone hlt, deliverHeld_waits hp hnone hne]
    exact ⟨_, rfl, packetHeld_changesOnly p hdr pay s, packetHeld_portAt hp hnone⟩
  · rw [packetReceive_old hup hle]

end Sys2Proof.Machine
end

section
/-! The management interface (14 R269, 19 R365, R366, Table 19.10). Status 1 for a minimum SVN that is already as
high, the static address that SETDASA needs and the order of SET_COORD's tests are log entry 137. -/

namespace Sys2Proof.Machine

/-! ### A target out of reset answers -/

section
variable {s : State} (hrst : s.boot.inReset = false)
include hrst

theorem onTarget_awake (f : State → State) :
    (Host.Outcome.next (onTarget f s) : Host.Outcome State Fault Refusal) = .next (f s) :=
  congrArg Host.Outcome.next (if_neg (by rw [hrst]; decide))

theorem exec_dynamicAddressAssign (setdasa : Bool) (a : BitVec 7) :
    exec (.dynamicAddressAssign setdasa a) s = .next (assignAddress setdasa a s) := onTarget_awake hrst _

theorem exec_endpointIdAssign (eid : Byte) : exec (.endpointIdAssign eid) s = .next (assignEid eid s) :=
  onTarget_awake hrst _

theorem exec_setCoord (inst : Byte) (coord dims : BitVec 16) :
    exec (.setCoord inst coord dims) s = .next (setCoord inst coord dims s) := onTarget_awake hrst _

theorem exec_selectImage (inst b : Byte) : exec (.selectImage inst b) s = .next (selectImage inst b s) :=
  onTarget_awake hrst _

theorem exec_flashErase (inst : Byte) (offs : BitVec 32) :
    exec (.flashErase inst offs) s = .next (flashErase inst offs.toNat s) := onTarget_awake hrst _

theorem exec_flashWrite (inst : Byte) (offs : BitVec 32) (bs : List Byte) :
    exec (.flashWrite inst offs bs) s = .next (flashWrite inst offs.toNat bs s) := onTarget_awake hrst _

theorem exec_setSvnMin (inst v : Byte) : exec (.setSvnMin inst v) s = .next (setSvnMin inst v s) := onTarget_awake hrst _

theorem exec_revokeKey (inst k : Byte) : exec (.revokeKey inst k) s = .next (revokeKey inst k s) := onTarget_awake hrst _

end

theorem Sound.flash_wf {s : State} (h : Sound s) : memWf erasedByte s.boot.flash = true := by
  obtain ⟨-, ⟨-, -, -, hflash, -⟩, -⟩ := h
  exact hflash

theorem exec_coordWaitTimeout (s : State) : exec .coordWaitTimeout s = .next (coordWait s) := rfl

/-! ### Addresses (R365) -/

theorem assignAddress_static {s : State} (h : s.boot.cfg.i3cAddr ≠ 0) (a : BitVec 7) :
    assignAddress true a s = modHif s fun x => { x with dynAddr := some a } :=
  if_neg (by simp [h])

theorem assignAddress_noStatic {s : State} (h : s.boot.cfg.i3cAddr = 0) (a : BitVec 7) : assignAddress true a s = s :=
  if_pos (by simp [h])

theorem modHif_changesOnly (s : State) (f : HostIf → HostIf) : ChangesOnly [.hif] s (modHif s f) :=
  (modHif_within (M := 4194304) s f (by decide) (.refl _ _)).changesOnly _ (by intro p; cases p <;> decide)

/-! ### Coordinates (14 R269) -/

section
variable {inst : Byte} {coord dims : BitVec 16} {s : State}

theorem setCoord_held (hvalid : s.self.coordValid = true) (hcoord : s.self.coord = coord) (hdims : s.self.dims = dims) :
    setCoord inst coord dims s = reply inst msUnchanged [] s :=
  if_pos (by simp [hvalid, hcoord, hdims])

theorem setCoord_refused (hvalid : s.self.coordValid = true) (hother : ¬(s.self.coord = coord ∧ s.self.dims = dims))
    (hslice : s.self.slice.isSome = true) :
    setCoord inst coord dims s = reply inst msRefused [] (raise s bLNK 22 locDevice noSeq 0) :=
  (if_neg (by simpa [hvalid] using hother)).trans (if_pos (by simp [hvalid, hslice]))

theorem setCoord_taken (h : s.self.coordValid = false ∨
    (¬(s.self.coord = coord ∧ s.self.dims = dims) ∧ s.self.slice = none)) :
    setCoord inst coord dims s = reply inst msDone [] (takeCoord coord dims s) := by
  obtain hvalid | ⟨hother, hslice⟩ := h
  · exact (if_neg (by simp [hvalid])).trans (if_neg (by simp [hvalid]))
  · exact (if_neg (by simpa [and_assoc] using fun _ => not_and.mp hother)).trans (if_neg (by simp [hslice]))

end

theorem trainAll_self (s : State) : (trainAll s).self = s.self :=
  (trainAll_within (M := 117465130) s (by decide) (.refl _ _)).self.resolve_left (by decide)

/-- When every port trains afresh, no link is active. -/
theorem trainAll_inactive (s : State) (k : Nat) : (linkAt (trainAll s) k).active = false := by
  unfold trainAll
  dsimp only
  refine List.foldlRecOn (motive := fun u => (linkAt u k).active = false) _ _ ?_ fun u hu j _ => trainLink_inactive j hu
  unfold linkAt
  rw [unit_map]
  split <;> rfl

theorem takeCoord_changesOnly (coord dims : BitVec 16) (s : State) :
    ChangesOnly (eventParts ++ [.self, .link, .port, .out]) s (takeCoord coord dims s) :=
  (takeCoord_within (M := 117497898) coord dims s (by decide) (.refl _ _)).changesOnly _ (by intro p; cases p <;> decide)

theorem takeCoord_takes (coord dims : BitVec 16) (s : State) :
    (takeCoord coord dims s).self.coord = coord ∧ (takeCoord coord dims s).self.dims = dims ∧
      (takeCoord coord dims s).self.coordValid = true := by
  unfold takeCoord
  dsimp only
  rw [trainAll_self]
  exact ⟨rfl, rfl, rfl⟩

theorem takeCoord_inactive (coord dims : BitVec 16) (s : State) (k : Nat) :
    (linkAt (takeCoord coord dims s) k).active = false := trainAll_inactive _ k

/-! ### The wait for coordinates (14 R269) -/

/-- The wait for coordinates has ended without them. -/
def coordWaited (s : State) : State := { s with self := { s.self with waitOver := true } }

theorem coordWaited_changesOnly (s : State) : ChangesOnly [.self] s (coordWaited s) :=
  (Within.at_self (m := 32768) (by decide) (.refl _ s)).changesOnly _ (by intro p; cases p <;> decide)

theorem coordWait_over {s : State} (hrst : s.boot.inReset = false) (himg : s.boot.noImage = false) (hstep : 4 ≤ s.boot.step)
    (hvalid : s.self.coordValid = false) (hwait : s.self.waitOver = false) (htime : param s 0x040 * second ≤ s.time) :
    coordWait s = raise (coordWaited s) bLNK 21 locDevice noSeq 0 :=
  if_neg (by simp [hrst, himg, hvalid, hwait, hstep, htime])

theorem coordWait_not_over {s : State} (h : s.self.coordValid = true ∨ s.self.waitOver = true ∨
    s.time < param s 0x040 * second) : coordWait s = s :=
  if_pos (by rcases h with h | h | h <;> simp [h])

/-! ### Images and flash (19 R365, R366) -/

theorem Within.changesOnly_boot {s t : State} (h : Within 2097152 s t) : ChangesOnly [.boot] s t :=
  h.changesOnly _ (by intro p; cases p <;> decide)

theorem prefer_changesOnly (s : State) (i : Option Bool) :
    ChangesOnly [.boot] s (modBoot s fun x => { x with prefer := i }) :=
  (modBoot_within _ _ (by decide) ⟨id, Nat.le_refl _, rfl, fun _ h => h⟩ (.inr rfl) (.refl _ _)).changesOnly_boot

theorem selectImage_selects {b : Byte} (h : b.toNat ≤ 1) (inst : Byte) (s : State) :
    selectImage inst b s = reply inst msDone [] (modBoot s fun x => { x with prefer := some (b == 1) }) := if_pos h

theorem selectImage_invalid {b : Byte} (h : 1 < b.toNat) (inst : Byte) (s : State) :
    selectImage inst b s = reply inst msInvalid [] s := if_neg (Nat.not_le.mpr h)

theorem flashRefuse_boot (inst : Byte) (offs n : Nat) (s : State) : (flashRefuse inst offs n s).boot = s.boot :=
  (raise_changes s bBOT 40 (if touchesBooted s offs n then locImage s.boot.image else locDevice) noSeq 0).boot.resolve_left
    (by decide)

theorem flashErase_erases {offs : Nat} {s : State} (hal : offs % 65536 = 0) (h : flashRefused s offs 65536 = false)
    (inst : Byte) : flashErase inst offs s = reply inst msDone [] (modFlash s fun m => memClear m offs 65536) :=
  (if_neg fun hne => hne hal).trans (if_neg (by rw [h]; decide))

theorem flashErase_refused {offs : Nat} {s : State} (hal : offs % 65536 = 0) (h : flashRefused s offs 65536 = true)
    (inst : Byte) : flashErase inst offs s = flashRefuse inst offs 65536 s :=
  (if_neg fun hne => hne hal).trans (if_pos h)

section
variable {offs : Nat} {bs : List Byte} {s : State} (hsome : bs ≠ []) (hlen : bs.length ≤ 256)
include hsome hlen

theorem flashWrite_programs (h : flashRefused s offs bs.length = false) (inst : Byte) :
    flashWrite inst offs bs s = reply inst msDone [] (modFlash s fun m => flashProgram m offs bs) :=
  (if_neg (by simpa [hsome] using hlen)).trans (if_neg (by rw [h]; decide))

theorem flashWrite_refused (h : flashRefused s offs bs.length = true) (inst : Byte) :
    flashWrite inst offs bs s = flashRefuse inst offs bs.length s :=
  (if_neg (by simpa [hsome] using hlen)).trans (if_pos h)

end

/-- What programming writes: each byte with the bits that stand there. -/
def programmed (m : Mem) (offs : Nat) (bs : List Byte) : List Byte :=
  ((memRdN erasedByte m offs bs.length).zip bs).map fun p => p.1 &&& p.2

theorem programmed_length (m : Mem) (offs : Nat) (bs : List Byte) : (programmed m offs bs).length = bs.length := by
  simp [programmed, memRdN]

section
variable {m : Mem} {offs : Nat} {bs : List Byte} (hwf : memWf erasedByte m = true)
include hwf

/-- Programming clears bits and sets none. -/
theorem memRd_flashProgram_same {k : Nat} {b : Byte} (hb : bs[k]? = some b) :
    memRd erasedByte (flashProgram m offs bs) (offs + k) = memRd erasedByte m (offs + k) &&& b := by
  obtain ⟨hk, rfl⟩ := List.getElem?_eq_some_iff.mp hb
  have hread : memRd erasedByte (flashProgram m offs bs) (offs + k) =
      (programmed m offs bs)[k]'(by rw [programmed_length]; exact hk) :=
    memRd_memWrs_same _ _ _ hwf _
  rw [hread]
  simp [programmed, memRdN]

theorem memRd_flashProgram_other {a : Nat} (ha : a < offs ∨ offs + bs.length ≤ a) :
    memRd erasedByte (flashProgram m offs bs) a = memRd erasedByte m a :=
  memRd_memWrs_other (programmed m offs bs) _ _ hwf (by rw [programmed_length]; exact ha)

end

theorem flashErase_changesOnly (s : State) (offs n : Nat) :
    ChangesOnly [.boot] s (modFlash s fun m => memClear m offs n) :=
  (modFlash_within _ _ (by decide) (memClear_wf offs n) (.refl _ _)).changesOnly_boot

theorem flashProgram_changesOnly (s : State) (offs : Nat) (bs : List Byte) :
    ChangesOnly [.boot] s (modFlash s fun m => flashProgram m offs bs) :=
  (modFlash_within _ _ (by decide) (memWrs_wf _ offs) (.refl _ _)).changesOnly_boot

/-! ### Fuses (19 R365) -/

theorem svnMin_changesOnly {s : State} {v : Nat} (h : s.boot.svnMin ≤ v) :
    ChangesOnly [.boot, .fuses] s (modBoot s fun b => { b with svnMin := v }) :=
  (modBoot_within (M := 4297064448) _ _ (by decide) ⟨id, h, rfl, fun _ h => h⟩ (.inl (by decide)) (.refl _ _)).changesOnly _
    (by intro p; cases p <;> decide)

section
variable {inst v : Byte} {s : State}

theorem setSvnMin_refused (h : s.boot.svn < v.toNat) : setSvnMin inst v s = reply inst msRefused [] s := if_pos h

theorem setSvnMin_raises (h : v.toNat ≤ s.boot.svn) (hmin : s.boot.svnMin < v.toNat) :
    setSvnMin inst v s = reply inst msDone [] (modBoot s fun b => { b with svnMin := v.toNat }) :=
  (if_neg (Nat.not_lt.mpr h)).trans (if_neg (Nat.not_le.mpr hmin))

theorem setSvnMin_unchanged (h : v.toNat ≤ s.boot.svn) (hmin : v.toNat ≤ s.boot.svnMin) :
    setSvnMin inst v s = reply inst msUnchanged [] s :=
  (if_neg (Nat.not_lt.mpr h)).trans (if_pos hmin)

end

section
variable {inst k : Byte} {s : State} (hk : k.toNat < 4) (hbooted : imageIn s = false ∨ s.boot.keySlot ≠ k.toNat)
include hk hbooted

theorem revokeKey_unbooted : revokeKey inst k s =
    if s.boot.revoked.contains k.toNat then reply inst msUnchanged [] s
    else reply inst msDone [] (modBoot s fun b => { b with revoked := insertNat k.toNat b.revoked }) := by
  have hnot : ¬(imageIn s && s.boot.keySlot == k.toNat) = true := by
    rcases hbooted with h | h <;> simp [h]
  exact (if_neg (Nat.not_le.mpr hk)).trans (if_neg hnot)

/-- Of the boot state, REVOKE_KEY changes the revoked slots only: one more is among them, or the same one still. -/
theorem revokeKey_revokes :
    (∀ j, j ∈ (revokeKey inst k s).boot.revoked ↔ j ∈ s.boot.revoked ∨ j = k.toNat) ∧
      (revokeKey inst k s).boot.svnMin = s.boot.svnMin := by
  rw [revokeKey_unbooted hk hbooted]
  split
  next hin =>
    have hmem : k.toNat ∈ s.boot.revoked := List.contains_iff_mem.mp hin
    exact ⟨fun j => ⟨.inl, fun h => h.elim id fun e => e ▸ hmem⟩, rfl⟩
  next => exact ⟨fun j => mem_insertNat.trans or_comm, rfl⟩

end

theorem revokeKey_changesOnly (inst k : Byte) (s : State) : ChangesOnly [.boot, .fuses, .out] s (revokeKey inst k s) :=
  (revokeKey_within (M := 4297064456) inst k s (by decide) (.refl _ _)).changesOnly _ (by intro p; cases p <;> decide)

/-- Settles O55: each request comes down to its answer and to one change of the state, or to its refusal. -/
theorem managementWritesTakeEffect : Obligations.ManagementWritesTakeEffect := by
  intro s inst hsnd hrst
  have hflash := hsnd.flash_wf
  refine ⟨fun a => ?_, fun eid => ?_, fun coord dims => ?_, ?_, fun b => ?_, fun offs hal => ?_,
    fun offs bs hsome hlen => ?_, fun v => ?_, fun k hk hbooted => ?_⟩
  · rw [exec_dynamicAddressAssign hrst, exec_dynamicAddressAssign hrst]
    refine ⟨⟨_, rfl, modHif_changesOnly s _, rfl⟩, fun hstatic => ?_, fun hnone => ?_⟩
    · rw [assignAddress_static hstatic]
      exact ⟨_, rfl, modHif_changesOnly s _, rfl⟩
    · rw [assignAddress_noStatic hnone]
  · exact ⟨_, exec_endpointIdAssign hrst eid, modHif_changesOnly s _, rfl⟩
  · rw [exec_setCoord hrst]
    refine ⟨fun hvalid hcoord hdims => ?_, fun hvalid hother hslice => ?_, fun htaken => ?_⟩
    · rw [setCoord_held hvalid hcoord hdims]
    · rw [setCoord_refused hvalid hother hslice]
    · obtain ⟨hcoord, hdims, hvalid⟩ := takeCoord_takes coord dims s
      exact ⟨_, _, rfl, setCoord_taken htaken, hcoord, hdims, hvalid, takeCoord_inactive coord dims s,
        takeCoord_changesOnly coord dims s⟩
  · rw [exec_coordWaitTimeout]
    refine ⟨fun himg hstep hvalid hwait htime => ⟨_, _, rfl, coordWait_over hrst himg hstep hvalid hwait htime,
      coordWaited_changesOnly s, rfl⟩, fun hnot => ?_⟩
    rw [coordWait_not_over hnot]
  · rw [exec_selectImage hrst]
    refine ⟨fun hle => ?_, fun hlt => ?_⟩
    · rw [selectImage_selects hle]
      exact ⟨_, rfl, prefer_changesOnly s _, rfl⟩
    · rw [selectImage_invalid hlt]
  · rw [exec_flashErase hrst]
    refine ⟨fun hmay => ⟨_, _, rfl, flashErase_erases hal hmay inst, flashErase_changesOnly s _ _, rfl, fun a hlo hhi => ?_,
      fun a hout => ?_⟩, fun href => ⟨_, rfl, ?_⟩⟩
    · exact memRd_memClear_same _ _ _ hlo hhi
    · exact memRd_memClear_other _ _ _ hflash hout
    · rw [flashErase_refused hal href, flashRefuse_boot]
  · rw [exec_flashWrite hrst]
    refine ⟨fun hmay => ⟨_, _, rfl, flashWrite_programs hsome hlen hmay inst, flashProgram_changesOnly s _ _, rfl,
      fun k b hb => ?_, fun a hout => ?_⟩, fun href => ⟨_, rfl, ?_⟩⟩
    · exact memRd_flashProgram_same hflash hb
    · exact memRd_flashProgram_other hflash hout
    · rw [flashWrite_refused hsome hlen href, flashRefuse_boot]
  · rw [exec_setSvnMin hrst]
    refine ⟨fun hlt => ?_, fun hle hmin => ?_, fun hle hmin => ?_⟩
    · rw [setSvnMin_refused hlt]
    · rw [setSvnMin_raises hle hmin]
      exact ⟨_, rfl, svnMin_changesOnly (Nat.le_of_lt hmin), rfl⟩
    · rw [setSvnMin_unchanged hle hmin]
  · obtain ⟨hrevoked, hmin⟩ := revokeKey_revokes (inst := inst) hk hbooted
    exact ⟨_, exec_revokeKey hrst inst k, revokeKey_changesOnly inst k s, (hrevoked _).mpr (.inr rfl), hrevoked, hmin⟩

end Sys2Proof.Machine
end

section
/-! SUPPORT. What every command keeps, whichever it is: the arm's own mask says it, and the lists of commands that may move
a tick, keep-alive mode or a fuse cover the masks. -/

namespace Sys2Proof.Machine

/-- A mask names where the domains stand, keep-alive mode and the fuses only for commands of the list of each. -/
def MaskFits (c : Instr) (m : Nat) : Bool :=
  (movesTick c || !m.testBit 30) && (movesKeepalive c || !m.testBit 31) && (burnsFuse c || !m.testBit 32)

/-- Every command stays within a mask that fits the lists of commands. -/
theorem exec_within_fits (c : Instr) {s t : State} (h : exec c s = .next t) : ∃ m, Within m s t ∧ MaskFits c m = true :=
  match c, h with
  | .tickBoundary _, h => ⟨_, execTickBoundary_within h, rfl⟩
  | .admitSlot _, h => ⟨_, execAdmitSlot_within h, rfl⟩
  | .depart _, h => ⟨_, execDepart_within h, rfl⟩
  | .chunkBegin _, h => ⟨_, execChunkBegin_within h, rfl⟩
  | .chunkEnd _, h => ⟨_, execChunkEnd_within h, rfl⟩
  | .work _, h => ⟨_, execWork_within h, rfl⟩
  | .computeWindowStart _, h => ⟨_, execComputeWindowStart_within h, rfl⟩
  | .checkpoint _ _, h => ⟨_, execCheckpoint_within h, rfl⟩
  | .computeWindowEnd _, h => ⟨_, execComputeWindowEnd_within h, rfl⟩
  | .guardStart _, h => ⟨_, execGuardStart_within h, rfl⟩
  | .ptpTimeAcquired _ _, h => ⟨_, execPtpTimeAcquired_within h, rfl⟩
  | .ptpSourceLost _, h => ⟨_, execPtpSourceLost_within h, rfl⟩
  | .ptpSourceReturn _ _, h => ⟨_, execPtpSourceReturn_within h, rfl⟩
  | .ptpMessage _ _, h => ⟨_, execPtpMessage_within h, rfl⟩
  | .tmm _ _, h => ⟨_, execTmm_within h, rfl⟩
  | .tgrid _ _, h => ⟨_, execTgrid_within h, rfl⟩
  | .tileStepRelease _, h => ⟨_, execTileStepRelease_within h, rfl⟩
  | .conversionComplete _ _, h => ⟨_, execConversionComplete_within h, rfl⟩
  | .tconv _ _, h => ⟨_, execTconv_within h, rfl⟩
  | .tconvPrep _ _, h => ⟨_, execTconvPrep_within h, rfl⟩
  | .vew _ _, h => ⟨_, execVew_within h, rfl⟩
  | .vcvt _ _, h => ⟨_, execVcvt_within h, rfl⟩
  | .vqnt _ _, h => ⟨_, execVqnt_within h, rfl⟩
  | .vsf _ _, h => ⟨_, execVsf_within h, rfl⟩
  | .vstat _ _, h => ⟨_, execVstat_within h, rfl⟩
  | .vstatPartial _ _, h => ⟨_, execVstatPartial_within h, rfl⟩
  | .vstatCombine _ _, h => ⟨_, execVstatCombine_within h, rfl⟩
  | .vsoft _ _, h => ⟨_, execVsoft_within h, rfl⟩
  | .vsoftSum _ _, h => ⟨_, execVsoftSum_within h, rfl⟩
  | .vsoftProb _ _, h => ⟨_, execVsoftProb_within h, rfl⟩
  | .vargmax _ _, h => ⟨_, execVargmax_within h, rfl⟩
  | .dbox _ _, h => ⟨_, execDbox_within h, rfl⟩
  | .dnms _ _, h => ⟨_, execDnms_within h, rfl⟩
  | .bar _ _, h => ⟨_, execBar_within h, rfl⟩
  | .mfence _ w, h => ⟨_, execMfence_within (_w := w) h, rfl⟩
  | .tfence _ w, h => ⟨_, execTfence_within (_w := w) h, rfl⟩
  | .atom _ _, h => ⟨_, execAtom_within h, rfl⟩
  | .lds _ _, h => ⟨_, execLds_within h, rfl⟩
  | .sts _ _, h => ⟨_, execSts_within h, rfl⟩
  | .susp _ w, h => ⟨_, execSusp_within (_w := w) h, rfl⟩
  | .exit _ w, h => ⟨_, execExit_within (_w := w) h, rfl⟩
  | .scalarAccess _ _, h => ⟨_, execScalarAccess_within h, rfl⟩
  | .dq _ _, h => ⟨_, execDq_within h, rfl⟩
  | .dwait _ w, h => ⟨_, execDwait_within (_w := w) h, rfl⟩
  | .kvput _, h => ⟨_, execKvput_within h, rfl⟩
  | .kvget _, h => ⟨_, execKvget_within h, rfl⟩
  | .copy _ _, h => ⟨_, execCopy_within h, rfl⟩
  | .fmapPack _, h => ⟨_, execFmapPack_within h, rfl⟩
  | .fmapUnpack _, h => ⟨_, execFmapUnpack_within h, rfl⟩
  | .hostIn _ _, h => ⟨_, execHostIn_within h, rfl⟩
  | .hostOut _ _, h => ⟨_, execHostOut_within h, rfl⟩
  | .dmaEngDb _ _, h => ⟨_, execDmaEngDb_within h, rfl⟩
  | .xltResolveRetry _, h => ⟨_, execXltResolveRetry_within h, rfl⟩
  | .xltResolveAbort _, h => ⟨_, execXltResolveAbort_within h, rfl⟩
  | .xltInval _, h => ⟨_, execXltInval_within h, rfl⟩
  | .invalComplete, h => ⟨_, execInvalComplete_within h, rfl⟩
  | .faultTimeout _, h => ⟨_, execFaultTimeout_within h, rfl⟩
  | .peerFaultTimeout _, h => ⟨_, execPeerFaultTimeout_within h, rfl⟩
  | .eavesTimeout _, h => ⟨_, execEavesTimeout_within h, rfl⟩
  | .scrub _ _, h => ⟨_, execScrub_within h, rfl⟩
  | .stackTempSample _, h => ⟨_, execStackTempSample_within h, rfl⟩
  | .channelRetrain _ _, h => ⟨_, execChannelRetrain_within h, rfl⟩
  | .retrainDone _ _ _, h => ⟨_, execRetrainDone_within h, rfl⟩
  | .loadComplete _ _, h => ⟨_, execLoadComplete_within h, rfl⟩
  | .verifyComplete _, h => ⟨_, execVerifyComplete_within h, rfl⟩
  | .refetchDone _ _ _, h => ⟨_, execRefetchDone_within h, rfl⟩
  | .copyRetire _, h => ⟨_, execCopyRetire_within h, rfl⟩
  | .fetchFailure _ _ _, h => ⟨_, execFetchFailure_within h, rfl⟩
  | .fallbackNotice _ _, h => ⟨_, execFallbackNotice_within h, rfl⟩
  | .returnNotice _ _, h => ⟨_, execReturnNotice_within h, rfl⟩
  | .sequenceNotice _ _ _, h => ⟨_, execSequenceNotice_within h, rfl⟩
  | .flitReceive _ _, h => ⟨_, execFlitReceive_within h, rfl⟩
  | .retryRequest _ _, h => ⟨_, execRetryRequest_within h, rfl⟩
  | .packetReceive _ _ _, h => ⟨_, execPacketReceive_within h, rfl⟩
  | .memRequest _ _ _ _ _ _, h => ⟨_, execMemRequest_within h, rfl⟩
  | .memResponse _ _ _, h => ⟨_, execMemResponse_within h, rfl⟩
  | .memTimeout _, h => ⟨_, execMemTimeout_within h, rfl⟩
  | .linkRetrain _ _, h => ⟨_, execLinkRetrain_within h, rfl⟩
  | .linkTrainingDone _ _, h => ⟨_, execLinkTrainingDone_within h, rfl⟩
  | .setCoord _ _ _, h => ⟨_, execSetCoord_within h, rfl⟩
  | .coordWaitTimeout, h => ⟨_, execCoordWaitTimeout_within h, rfl⟩
  | .allReduce _ _, h => ⟨_, execAllReduce_within h, rfl⟩
  | .reduceScatter _ _, h => ⟨_, execReduceScatter_within h, rfl⟩
  | .allGather _ _, h => ⟨_, execAllGather_within h, rfl⟩
  | .allToAll _ _, h => ⟨_, execAllToAll_within h, rfl⟩
  | .broadcast _ _, h => ⟨_, execBroadcast_within h, rfl⟩
  | .dispatch _ _, h => ⟨_, execDispatch_within h, rfl⟩
  | .combine _ _, h => ⟨_, execCombine_within h, rfl⟩
  | .cwait _ w, h => ⟨_, execCwait_within (_w := w) h, rfl⟩
  | .shardReceive _, h => ⟨_, execShardReceive_within h, rfl⟩
  | .shardAck _ _ _, h => ⟨_, execShardAck_within h, rfl⟩
  | .shardRetry _ _ _, h => ⟨_, execShardRetry_within h, rfl⟩
  | .notreadyResend _ _ _, h => ⟨_, execNotreadyResend_within h, rfl⟩
  | .collectiveComplete _ _, h => ⟨_, execCollectiveComplete_within h, rfl⟩
  | .collectiveTimeout _ _, h => ⟨_, execCollectiveTimeout_within h, rfl⟩
  | .paceNoticeTimer, h => ⟨_, execPaceNoticeTimer_within h, rfl⟩
  | .paceNotice _ _ _ _, h => ⟨_, execPaceNotice_within h, rfl⟩
  | .mirrorReceive _ _ _ _, h => ⟨_, execMirrorReceive_within h, rfl⟩
  | .captureDone, h => ⟨_, execCaptureDone_within h, rfl⟩
  | .mirrorTimeout, h => ⟨_, execMirrorTimeout_within h, rfl⟩
  | .drainStart _, h => ⟨_, execDrainStart_within h, rfl⟩
  | .drainComplete _ _, h => ⟨_, execDrainComplete_within h, rfl⟩
  | .snapshotNotice _, h => ⟨_, execSnapshotNotice_within h, rfl⟩
  | .intervalNotice _ _ _ _ _, h => ⟨_, execIntervalNotice_within h, rfl⟩
  | .observationSecond, h => ⟨_, execObservationSecond_within h, rfl⟩
  | .restoreComplete _ _ _, h => ⟨_, execRestoreComplete_within h, rfl⟩
  | .restoreRequest _ _, h => ⟨_, execRestoreRequest_within h, rfl⟩
  | .open_ _, h => ⟨_, execOpen_within h, rfl⟩
  | .close _, h => ⟨_, execClose_within h, rfl⟩
  | .encode _, h => ⟨_, execEncode_within h, rfl⟩
  | .decode _ _, h => ⟨_, execDecode_within h, rfl⟩
  | .codecRowSchedule _ _, h => ⟨_, execCodecRowSchedule_within h, rfl⟩
  | .codKeyreq _, h => ⟨_, execCodKeyreq_within h, rfl⟩
  | .play _, h => ⟨_, execPlay_within h, rfl⟩
  | .inputPacketReceive _ _ _ _ _ _, h => ⟨_, execInputPacketReceive_within h, rfl⟩
  | .rtpOutAccessUnit _, h => ⟨_, execRtpOutAccessUnit_within h, rfl⟩
  | .rtpInPacket _ _ _ _ _ _, h => ⟨_, execRtpInPacket_within h, rfl⟩
  | .mediaLinkLoss _, h => ⟨_, execMediaLinkLoss_within h, rfl⟩
  | .mediaLinkUp _, h => ⟨_, execMediaLinkUp_within h, rfl⟩
  | .boot _, h => ⟨_, execBoot_within h, rfl⟩
  | .repairListTimeout, h => ⟨_, execRepairListTimeout_within h, rfl⟩
  | .sysRstAssert, h => ⟨_, execSysRstAssert_within h, rfl⟩
  | .endpointReset kind, h => ⟨_, execEndpointReset_within (_kind := kind) h, rfl⟩
  | .botWin _, h => ⟨_, execBotWin_within h, rfl⟩
  | .bar2Access _ _ _ _, h => ⟨_, execBar2Access_within h, rfl⟩
  | .storageLinkLoss, h => ⟨_, execStorageLinkLoss_within h, rfl⟩
  | .registerWrite _ _, h => ⟨_, execRegisterWrite_within h, rfl⟩
  | .dynamicAddressAssign _ _, h => ⟨_, execDynamicAddressAssign_within h, rfl⟩
  | .endpointIdAssign _, h => ⟨_, execEndpointIdAssign_within h, rfl⟩
  | .getStatus _, h => ⟨_, execGetStatus_within h, rfl⟩
  | .setRepairs _ _ _, h => ⟨_, execSetRepairs_within h, rfl⟩
  | .getRepairs _ _, h => ⟨_, execGetRepairs_within h, rfl⟩
  | .readCounters _ _ _, h => ⟨_, execReadCounters_within h, rfl⟩
  | .readReg _ _, h => ⟨_, execReadReg_within h, rfl⟩
  | .selectImage _ _, h => ⟨_, execSelectImage_within h, rfl⟩
  | .flashErase _ _, h => ⟨_, execFlashErase_within h, rfl⟩
  | .flashWrite _ _ _, h => ⟨_, execFlashWrite_within h, rfl⟩
  | .flashRead _ _ _, h => ⟨_, execFlashRead_within h, rfl⟩
  | .setSvnMin _ _, h => ⟨_, execSetSvnMin_within h, rfl⟩
  | .revokeKey _ _, h => ⟨_, execRevokeKey_within h, rfl⟩
  | .reset _, h => ⟨_, execReset_within h, rfl⟩
  | .railSample _, h => ⟨_, execRailSample_within h, rfl⟩
  | .vaonRecover, h => ⟨_, execVaonRecover_within h, rfl⟩
  | .dieTempSample _ _ _, h => ⟨_, execDieTempSample_within h, rfl⟩
  | .powerSample _, h => ⟨_, execPowerSample_within h, rfl⟩
  | .opticalTempSample _ _, h => ⟨_, execOpticalTempSample_within h, rfl⟩
  | .exitAttempt _ _, h => ⟨_, execExitAttempt_within h, rfl⟩
  | .sysclk25Stop, h => ⟨_, execSysclk25Stop_within h, rfl⟩
  | .peRefclkStop, h => ⟨_, execPeRefclkStop_within h, rfl⟩
  | .refclk156LStop, h => ⟨_, execRefclk156LStop_within h, rfl⟩
  | .refclk156MStop, h => ⟨_, execRefclk156MStop_within h, rfl⟩
  | .obsFilter _, h => ⟨_, execObsFilter_within h, rfl⟩
  | .obsRing _, h => ⟨_, execObsRing_within h, rfl⟩
  | .obsCons _, h => ⟨_, execObsCons_within h, rfl⟩
  | .traceDomainPowered, h => ⟨_, execTraceDomainPowered_within h, rfl⟩
  | .traceRecordWrite, h => ⟨_, execTraceRecordWrite_within h, rfl⟩
  | .traceWriteError, h => ⟨_, execTraceWriteError_within h, rfl⟩
  | .eventRecordWrite, h => ⟨_, execEventRecordWrite_within h, rfl⟩
  | .event, h => ⟨_, execEvent_within h, rfl⟩
  | .evtRing _, h => ⟨_, execEvtRing_within h, rfl⟩
  | .evtCons _, h => ⟨_, execEvtCons_within h, rfl⟩
  | .endpointLinkUp, h => ⟨_, execEndpointLinkUp_within h, rfl⟩
  | .storageLinkUp _ _, h => ⟨_, execStorageLinkUp_within h, rfl⟩
  | .sysclk25Return, h => ⟨_, execSysclk25Return_within h, rfl⟩
  | .testPortClock _ _ _ _, h => ⟨_, execTestPortClock_within h, rfl⟩

/-- Every command answers a next state. -/
theorem exec_next (c : Instr) (s : State) : ∃ t, exec c s = .next t := by
  cases c <;> exact ⟨_, rfl⟩

/-- Every list of units is as long at reset as the device has units. -/
theorem reset_sound : Sound State.reset :=
  ⟨⟨rfl, rfl, rfl, rfl, rfl, rfl, rfl, rfl, rfl, rfl, rfl, rfl⟩, ⟨rfl, rfl, rfl, rfl, rfl⟩, Nat.zero_le _⟩

/-- Taking the front command off the queue leaves the sound form alone. -/
theorem Sound.pending {s : State} (h : Sound s) (l : List Instr) : Sound { s with pending := l } := h

/-- Settles O1: the queue's front is what a step looks at. -/
theorem stepRunsFront : Obligations.StepRunsFront := fun _ _ _ => rfl

/-- Settles O3: counts of the lists of units as they are replicated at reset, and empty memories. -/
theorem resetIsSound : Obligations.ResetIsSound := reset_sound

/-- Settles O2: a step is one command with the queue's rest, or one idle cycle, and both stay within some mask. -/
theorem stepKeepsSound : Obligations.StepKeepsSound := by
  intro s t hs h
  unfold step at h
  split at h
  case h_1 =>
    obtain rfl := Host.Outcome.next.inj h
    exact (idle_within s (Nat.or_self _) (.refl _ s)).sound hs
  case h_2 c rest _ =>
    obtain ⟨m, hw, -⟩ := exec_within_fits c h
    exact hw.sound (hs.pending rest)

/-- Settles O4: what a mask without the fuses keeps, and what every mask keeps. -/
theorem fusesAndQueueAreKept : Obligations.FusesAndQueueAreKept := by
  intro c s
  obtain ⟨t, ht⟩ := exec_next c s
  obtain ⟨m, hw, hf⟩ := exec_within_fits c ht
  refine ⟨t, ht, hw.pending, hw.grow, fun hb => hw.fuses.resolve_left ?_⟩
  simp only [MaskFits, hb, Bool.false_or, Bool.and_eq_true, Bool.not_eq_true'] at hf
  simp [hf.2]

/-- Settles O5: a command outside a list has a mask without the bit of what the list is about. -/
theorem onlyTheseMoveTickAndMode : Obligations.OnlyTheseMoveTickAndMode := by
  intro c s t h
  obtain ⟨m, hw, hf⟩ := exec_within_fits c h
  simp only [MaskFits, Bool.and_eq_true, Bool.or_eq_true, Bool.not_eq_true'] at hf
  obtain ⟨⟨htick, hkeep⟩, -⟩ := hf
  constructor
  · intro hc d
    exact hw.face d (htick.resolve_left (by simp [hc]))
  · intro hc
    exact hw.keepalive.resolve_left (by simp [hkeep.resolve_left (by simp [hc] : ¬ movesKeepalive c = true)])

end Sys2Proof.Machine
end

section
/-! What a management read reports, and the test port (19 R365-R367, 21 R382). Status 3 for what is out of range is log
entry 137; the 16 states and the shifts of the test port are log entry 84. -/

namespace Sys2Proof.Machine

/-! ### Requests that only report (R365, R366) -/

section
variable {s : State} (hrst : s.boot.inReset = false)
include hrst

theorem exec_getStatus (inst : Byte) : exec (.getStatus inst) s = .next (getStatus inst s) := onTarget_awake hrst _

theorem exec_readCounters (inst : Byte) (first : BitVec 16) (count : Byte) :
    exec (.readCounters inst first count) s = .next (readCounters inst first.toNat count.toNat s) := onTarget_awake hrst _

theorem exec_readReg (inst : Byte) (offs : BitVec 32) :
    exec (.readReg inst offs) s = .next (readRegCmd inst offs.toNat s) := onTarget_awake hrst _

theorem exec_getRepairs (inst : Byte) (first : BitVec 16) :
    exec (.getRepairs inst first) s = .next (getRepairs inst first.toNat s) := onTarget_awake hrst _

theorem exec_flashRead (inst : Byte) (offs : BitVec 32) (n : BitVec 16) :
    exec (.flashRead inst offs n) s = .next (flashRead inst offs.toNat n.toNat s) := onTarget_awake hrst _

end

/-- Words of one length, one after the other: word k is found at its place. -/
theorem flatMap_range_word {α : Type} (f : Nat → List α) {m : Nat} (hf : ∀ i, (f i).length = m) (n : Nat) :
    ((List.range n).flatMap f).length = m * n ∧
      ∀ k, k < n → (((List.range n).flatMap f).drop (m * k)).take m = f k := by
  induction n with
  | zero => exact ⟨rfl, fun k hk => absurd hk (Nat.not_lt_zero k)⟩
  | succ n ih =>
    obtain ⟨hlen, hword⟩ := ih
    rw [List.range_succ, List.flatMap_append, List.flatMap_singleton]
    refine ⟨by rw [List.length_append, hlen, hf, Nat.mul_succ], fun k hk => ?_⟩
    have hle : m * k ≤ m * n := Nat.mul_le_mul_left m (Nat.le_of_lt_succ hk)
    rw [List.drop_append_of_le_length (hlen ▸ hle)]
    by_cases hkn : k = n
    · subst hkn
      rw [List.drop_eq_nil_of_le (Nat.le_of_eq hlen), List.nil_append, List.take_of_length_le (Nat.le_of_eq (hf k))]
    · have hlt : k < n := Nat.lt_of_le_of_ne (Nat.le_of_lt_succ hk) hkn
      have hroom : m ≤ (((List.range n).flatMap f).drop (m * k)).length := by
        have := Nat.mul_le_mul_left m (Nat.succ_le_of_lt hlt)
        rw [Nat.mul_succ] at this
        rw [List.length_drop, hlen]
        omega
      rw [List.take_append_of_le_length hroom, hword k hlt]

/-- The counters that READ_COUNTERS reports, 8 bytes each (21 R382). -/
def counterBytes (s : State) (first count : Nat) : List Byte :=
  (List.range count).flatMap fun i => leBytes 8 (if first + i < 4096 then ctrGet s (first + i) else 0)

theorem counterBytes_words (s : State) (first count : Nat) : (counterBytes s first count).length = 8 * count ∧
    ∀ k, k < count → ((counterBytes s first count).drop (8 * k)).take 8 =
      leBytes 8 (if first + k < 4096 then ctrGet s (first + k) else 0) :=
  flatMap_range_word _ (fun _ => leBytes_length 8 _) count

section
variable {inst : Byte} {s : State}

theorem readCounters_reports {first count : Nat} (hpos : 1 ≤ count) (hle : count ≤ 32) :
    readCounters inst first count s = reply inst msDone (counterBytes s first count) s := if_pos ⟨hpos, hle⟩

theorem readCounters_invalid {first count : Nat} (h : count = 0 ∨ 32 < count) :
    readCounters inst first count s = reply inst msInvalid [] s := if_neg (by omega)

theorem readRegCmd_reports {offs : Nat} (hal : offs % 8 = 0) (hlt : offs < 0x1000000) :
    readRegCmd inst offs s = reply inst msDone (leBytes 8 (readReg s offs)) s := if_pos (by simp [regAddrOk, hal, hlt])

theorem readRegCmd_invalid {offs : Nat} (h : offs % 8 ≠ 0 ∨ 0x1000000 ≤ offs) :
    readRegCmd inst offs s = reply inst msInvalid [] s :=
  if_neg (by rw [regAddrOk, Bool.and_eq_true, beq_iff_eq, decide_eq_true_eq]; omega)

theorem getRepairs_refused {first : Nat} (h : s.boot.noImage = true ∨ s.boot.step < 6) :
    getRepairs inst first s = reply inst msRefused [] s := if_pos (by simpa using h)

theorem getRepairs_reports {first : Nat} (himg : s.boot.noImage = false) (hstep : 6 ≤ s.boot.step) :
    getRepairs inst first s =
      reply inst msDone ((((repairsMade s).drop first).take 32).flatMap fun r => leBytes 8 (repairWord r)) s :=
  if_neg (by simp [himg, hstep])

theorem flashRead_reports {offs n : Nat} (hpos : 1 ≤ n) (hle : n ≤ 256) :
    flashRead inst offs n s = reply inst msDone (memRdN erasedByte s.boot.flash offs n) s := if_pos ⟨hpos, hle⟩

theorem flashRead_invalid {offs n : Nat} (h : n = 0 ∨ 256 < n) : flashRead inst offs n s = reply inst msInvalid [] s :=
  if_neg (by omega)

end

/-! ### The test port (R367) -/

theorem exec_testPortClock (tms tdi trstN : Bool) (pins : List Bool) (s : State) :
    exec (.testPortClock tms tdi trstN pins) s = .next (testPortClock tms tdi trstN pins s) := rfl

theorem testPortClock_changesOnly (tms tdi trstN : Bool) (pins : List Bool) (s : State) :
    ChangesOnly [.jtag, .out, .free] s (testPortClock tms tdi trstN pins s) :=
  (testPortClock_within (M := 8388618) tms tdi trstN pins s (by decide) (.refl _ _)).changesOnly _
    (by intro p; cases p <;> decide)

section
variable {tms tdi : Bool} {pins : List Bool} {s : State} (hrst : s.boot.inReset = false)
include hrst

theorem testPortClock_held : testPortClock tms tdi false pins s = { s with jtag := tapReset s.jtag } := by
  simp [testPortClock, hrst]

/-- An edge takes the controller one step; the bits above the fixed 01 that a captured instruction register shows are
drawn. -/
theorem testPortClock_jtag : (testPortClock tms tdi true pins s).jtag =
    tapStep tms tdi pins (BitVec.ofNat 2 (drawn s 367)) s.jtag := by
  simp only [testPortClock, hrst]
  split
  next h => exact absurd h (by decide)
  next =>
    split
    next h => exact absurd h (by decide)
    next => split <;> rfl

theorem testPortClock_out_shift (h : s.jtag.state = .shiftDr ∨ s.jtag.state = .shiftIr) :
    (testPortClock tms tdi true pins s).out =
      .tdo (tapStep tms tdi pins (BitVec.ofNat 2 (drawn s 367)) s.jtag).tdo :: s.out := by
  rcases h with h | h <;> simp [testPortClock, hrst, h, emit]

end

section
variable (tms tdi : Bool) (pins : List Bool) (hi : BitVec 2) (j : JtagSt)

theorem tapStep_state : (tapStep tms tdi pins hi j).state = tapNext j.state tms := by
  unfold tapStep
  dsimp only
  split
  next h => exact h.symm
  next => rfl
  next => rfl

variable {j}

theorem tapStep_captureDr (h : j.state = .captureDr) : (tapStep tms tdi pins hi j).drSh = drCapture j.ir pins := by
  cases tms <;> simp [tapStep, tapNext, h]

theorem tapStep_shiftDr {b : Bool} {rest : List Bool} (h : j.state = .shiftDr) (hsh : j.drSh = b :: rest) :
    (tapStep tms tdi pins hi j).drSh = rest ++ [tdi] ∧ (tapStep tms tdi pins hi j).tdo = b := by
  cases tms <;> simp [tapStep, tapNext, h, hsh]

theorem tapStep_shiftIr (h : j.state = .shiftIr) : (tapStep tms tdi pins hi j).tdo = j.irSh.getLsbD 0 := by
  cases tms <;> simp [tapStep, tapNext, h]

end

/-- Settles O54: each request comes down to its one response, and an edge of the test port to one step of the controller. -/
theorem readsOnlyReport : Obligations.ReadsOnlyReport := by
  intro s inst hrst
  refine ⟨exec_getStatus hrst inst, fun first count => ?_, fun offs => ?_, fun first => ?_, fun offs n => ?_,
    fun tms tdi pins => ⟨?_, ?_⟩⟩
  · rw [exec_readCounters hrst]
    refine ⟨fun hpos hle => ⟨_, by rw [readCounters_reports hpos hle]; rfl, counterBytes_words s _ _⟩, fun h => ?_⟩
    rw [readCounters_invalid h]
    rfl
  · rw [exec_readReg hrst]
    refine ⟨fun hal hlt => ?_, fun h => ?_⟩
    · rw [readRegCmd_reports hal hlt]
      rfl
    · rw [readRegCmd_invalid h]
      rfl
  · rw [exec_getRepairs hrst]
    refine ⟨fun h => ?_, fun himg hstep => ?_⟩
    · rw [getRepairs_refused h]
      rfl
    · rw [getRepairs_reports himg hstep]
      rfl
  · rw [exec_flashRead hrst]
    refine ⟨fun hpos hle => ?_, fun h => ?_⟩
    · rw [flashRead_reports hpos hle]
      rfl
    · rw [flashRead_invalid h]
      rfl
  · refine ⟨_, exec_testPortClock tms tdi false pins s, testPortClock_changesOnly tms tdi _ pins s, ?_⟩
    rw [testPortClock_held hrst]
    exact ⟨rfl, rfl⟩
  · refine ⟨_, exec_testPortClock tms tdi true pins s, testPortClock_changesOnly tms tdi _ pins s, ?_⟩
    rw [testPortClock_jtag hrst]
    refine ⟨tapStep_state .., fun hst hir => ?_, fun hst hir => ?_, fun hst b rest hsh => ?_, fun hst => ?_⟩
    · rw [tapStep_captureDr _ _ _ _ hst, hir]
      rfl
    · rw [tapStep_captureDr _ _ _ _ hst, hir]
      rfl
    · obtain ⟨hdr, htdo⟩ := tapStep_shiftDr tms tdi pins (BitVec.ofNat 2 (drawn s 367)) hst hsh
      exact ⟨hdr, by rw [testPortClock_out_shift hrst (.inl hst), htdo]⟩
    · rw [testPortClock_out_shift hrst (.inr hst), tapStep_shiftIr _ _ _ _ hst]

end Sys2Proof.Machine
end

section
/-! SUPPORT. A mask as a list of the parts that it names; what an event leaves of the trace filter; the event buffer's
destinations. -/

namespace Sys2Proof.Machine

/-- The parts of the state. -/
def allParts : List Part :=
  [.free, .nextNum, .out, .time, .dom, .seq, .cl, .mem, .st, .xlt, .eng, .wgt, .link, .port, .self, .col, .snp, .cod, .flow,
    .mport, .boot, .hif, .jtag, .pwr, .obs, .ev, .stackBytes, .storeBytes, .hostBytes, .phases, .keepalive, .fuses, .latches]

theorem mem_allParts (p : Part) : p ∈ allParts := by
  cases p <;> decide

/-- What a mask says of the parts, where the parts that it names are found in the list by evaluation. -/
theorem Within.only {m : Nat} {s t : State} {l : List Part} (h : Within m s t)
    (hl : (allParts.all fun p => !m.testBit p.bit || l.contains p) = true) : ChangesOnly l s t :=
  h.changesOnly l fun p hp => by simpa [hp] using List.all_eq_true.mp hl p (mem_allParts p)

theorem ChangesOnly.refl (l : List Part) (s : State) : ChangesOnly l s s := (Within.refl 0 s).changesOnly l fun p hp =>
  absurd hp (by cases p <;> decide)

theorem each_keeps {α : Type} {P : State → Prop} {f : State → α → State} {l : List α}
    (hf : ∀ s x, x ∈ l → P s → P (f s x)) {s : State} (h : P s) : P (each l f s) :=
  List.foldlRecOn (motive := P) l f h fun u hu x hx => hf u x hx hu

/-! ### What an event leaves of the power registers (20 Table 20.8) -/

/-- PWR_EVENTS shows other events. -/
def PwrSt.noting (e : BitVec 4) (p : PwrSt) : PwrSt := { p with events := e }

theorem evSummary_pwr (s : State) (block num : Nat) (l : BitVec 32) :
    ∃ e, (evSummary s block num l).pwr = s.pwr.noting e := by
  unfold evSummary
  split
  · split <;> exact ⟨_, rfl⟩
  · split
    · split <;> exact ⟨_, rfl⟩
    · exact ⟨_, rfl⟩

theorem raiseBare_pwr (s : State) (block num : Nat) (l : BitVec 32) (seq : Nat) (detail : Word64) :
    ∃ e, (raiseBare s block num l seq detail).1.pwr = s.pwr.noting e := by
  unfold raiseBare
  rw [(evTrace_within (M := 33554434) _ block num l seq (by decide) (.refl _ _)).pwr.resolve_left (by decide)]
  exact evSummary_pwr _ block num l

/-- Of the power registers, an event changes PWR_EVENTS only. -/
theorem raise_pwr (s : State) (block num : Nat) (l : BitVec 32) (seq : Nat) (detail : Word64) :
    ∃ e, (raise s block num l seq detail).pwr = s.pwr.noting e := by
  unfold raise
  dsimp only
  obtain ⟨e, he⟩ := raiseBare_pwr s block num l seq detail
  split
  · rw [raiseBare_pwr_other _ _ _ _ _ (by decide)]
    exact ⟨e, he⟩
  · exact ⟨e, he⟩

theorem raise_boot (s : State) (block num : Nat) (l : BitVec 32) (seq : Nat) (detail : Word64) :
    (raise s block num l seq detail).boot = s.boot :=
  (raise_changes s block num l seq detail).boot.resolve_left (by decide)

/-! ### What an event leaves of the trace registers (21 R384-R386) -/

/-- The trace registers that no event writes: the filter, ENABLE, the ring and the domain's power. -/
abbrev ObsSt.registers (o : ObsSt) : BitVec 16 × BitVec 32 × BitVec 4 × Bool × Word64 × Nat × TraceDomain :=
  (o.kinds, o.seqs, o.domains, o.enable, o.ringBase, o.ringSize, o.domain)

theorem ctrAdd_registers (s : State) (i n : Nat) : (ctrAdd s i n).obs.registers = s.obs.registers := rfl

theorem traceBare_registers (s : State) (kind seq : Nat) (u : Option Nat) (data : List Byte) :
    (traceBare s kind seq u data).1.obs.registers = s.obs.registers := by
  unfold traceBare
  dsimp only
  split
  next => rfl
  next =>
    split
    next => rfl
    next => split <;> rfl

theorem evSummary_obs (s : State) (block num : Nat) (l : BitVec 32) : (evSummary s block num l).obs = s.obs :=
  (evSummary_within (M := 16777248) s block num l (by decide) (.refl _ _)).obs.resolve_left (by decide)

theorem raiseBare_registers (s : State) (block num : Nat) (l : BitVec 32) (seq : Nat) (detail : Word64) :
    (raiseBare s block num l seq detail).1.obs.registers = s.obs.registers := by
  unfold raiseBare evTrace
  rw [traceBare_registers, evSummary_obs, ctrAdd_registers]

theorem raise_registers (s : State) (block num : Nat) (l : BitVec 32) (seq : Nat) (detail : Word64) :
    (raise s block num l seq detail).obs.registers = s.obs.registers := by
  unfold raise
  dsimp only
  split
  · rw [raiseBare_registers, raiseBare_registers]
  · exact raiseBare_registers _ _ _ _ _ _

end Sys2Proof.Machine
end

section
/-! Event records and trace records leave the device (21 R384-R389, 22 R394-R400). That the host destination takes the held
records when its ring is enabled is log entry 137; that an event with no record due changes nothing, log entry 1. -/

namespace Sys2Proof.Machine

theorem modEv_changesOnly {s : State} {f : EvSt → EvSt} (hf : ∀ e : EvSt, e.buf.length ≤ 4096 → (f e).buf.length ≤ 4096) :
    ChangesOnly [.ev] s (modEv s f) :=
  (modEv_within (M := 67108864) s f (by decide) hf (.refl _ _)).only rfl

theorem modObs_changesOnly (s : State) (f : ObsSt → ObsSt) : ChangesOnly [.obs] s (modObs s f) :=
  (modObs_within (M := 33554432) s f (by decide) (.refl _ _)).only rfl

theorem consOk_iff {cons prod v : BitVec 32} : consOk cons prod v = true ↔ (v - cons).toNat ≤ (prod - cons).toNat :=
  decide_eq_true_iff

theorem consOk_false_iff {cons prod v : BitVec 32} :
    consOk cons prod v = false ↔ (prod - cons).toNat < (v - cons).toNat := by
  rw [← Bool.not_eq_true, consOk_iff, Nat.not_le]

/-! ### EVENT (R394) -/

theorem exec_event (s : State) : exec .event s = .next (eventSend s) := rfl

theorem eventSend_none {s : State} (h : mgmtOn s = false ∨ s.ev.buf.find? (fun r => !r.tookMgmt) = none) :
    eventSend s = s := by
  unfold eventSend
  rcases h with h | h
  · rw [h]
    rfl
  · rw [h]
    split <;> rfl

theorem eventSend_due {s : State} {r : EvRec} (hon : mgmtOn s = true) (hr : s.ev.buf.find? (fun r => !r.tookMgmt) = some r) :
    eventSend s = evTidy (emit (modEv s fun e => { e with
      buf := modFirst (fun r => !r.tookMgmt) (fun r => { r with tookMgmt := true }) e.buf }) (.eventMsg r)) := by
  unfold eventSend
  rw [hon, hr]
  rfl

/-! ### EVENT_RECORD_WRITE (R397-R399) -/

theorem exec_eventRecordWrite (s : State) : exec .eventRecordWrite s = .next (eventWrite s) := rfl

theorem eventWrite_off {s : State} (h : s.ev.ringOn = false) : eventWrite s = s := if_pos (by rw [h]; rfl)

theorem evSignal_ev (s : State) : (evSignal s).ev.buf = s.ev.buf ∧ (evSignal s).ev.prod = s.ev.prod ∧
    (evSignal s).st = s.st := by
  unfold evSignal
  split
  · unfold msix
    split <;> exact ⟨rfl, rfl, rfl⟩
  · exact ⟨rfl, rfl, rfl⟩

/-- The records due to the host, as they are written. -/
def eventsWritten (s : State) : State × Bool :=
  if s.hif.epUp then (s.ev.buf.filter fun r => !r.tookHost).foldl evWriteOne (s, false) else (s, false)

theorem eventWrite_on {s : State} (h : s.ev.ringOn = true) :
    (eventWrite s).ev.buf = (evTidy (evSkipHeld (eventsWritten s).1)).ev.buf ∧
      (eventWrite s).ev.prod = (eventsWritten s).1.ev.prod ∧ (eventWrite s).st = (eventsWritten s).1.st := by
  have hsum : eventWrite s = if (eventsWritten s).2 then evSignal (evTidy (evSkipHeld (eventsWritten s).1))
      else evTidy (evSkipHeld (eventsWritten s).1) := if_neg (by rw [h]; decide)
  rw [hsum]
  split
  · exact evSignal_ev _
  · exact ⟨rfl, rfl, rfl⟩

theorem mem_evTidy_skipped {s : State} {r : EvRec} (h : r ∈ (evTidy (evSkipHeld s)).ev.buf) : r.tookHost = true := by
  obtain ⟨q, -, rfl⟩ := List.mem_map.mp (List.mem_of_mem_filter h)
  rfl

theorem hostWrite_host {s : State} (h : s.hif.epUp = true) (a : Nat) (bs : List Byte) :
    (hostWrite s a bs).st.host = memWrs zeroByte s.st.host a bs := by
  unfold hostWrite
  rw [if_pos h]

theorem hostWrite_ev (s : State) (a : Nat) (bs : List Byte) : (hostWrite s a bs).ev = s.ev :=
  (hostWrite_within (M := 536871424) s a bs (by decide) (.refl _ _)).ev.resolve_left (by decide)

theorem hostWrite_obs (s : State) (a : Nat) (bs : List Byte) : (hostWrite s a bs).obs = s.obs :=
  (hostWrite_within (M := 536871424) s a bs (by decide) (.refl _ _)).obs.resolve_left (by decide)

theorem eventsWritten_one {s : State} {r : EvRec} (hdue : s.ev.buf.filter (fun r => !r.tookHost) = [r])
    (hup : s.hif.epUp = true) (hroom : (r.eseq + 1 - s.ev.cons).toNat ≤ ringEntries s.ev.ringSize) :
    eventsWritten s = (hostWrite (modEv s fun e => { e with prod := r.eseq + 1 })
      (s.ev.ringBase.toNat + 32 * (r.eseq.toNat % ringEntries s.ev.ringSize)) (evBytes r), true) := by
  unfold eventsWritten
  rw [if_pos hup, hdue]
  exact if_neg (Nat.not_lt.mpr hroom)

/-! ### The registers of the host ring (R400) -/

section
variable {s : State} (hmay : hostMay s = true)
include hmay

theorem evtRing_disable {v : Word64} (h : v.getLsbD 0 = false) :
    evtRing v s = evTidy (modEv s fun e => { e with ringOn := false }) := by
  unfold evtRing
  rw [hmay, h]
  rfl

/-- The positions of a ring that is put in force start at the next ESEQ. -/
theorem evtRing_enable {v : Word64} (h : v.getLsbD 0 = true) (hoff : s.ev.ringOn = false) (hlo : 12 ≤ bits v.toNat 5 1)
    (hhi : bits v.toNat 5 1 ≤ 24) : evtRing v s = evTidy (evSkipHeld (modEv s fun e => { e with
      ringBase := BitVec.ofNat 64 (v.toNat / 4096 * 4096)
      ringSize := bits v.toNat 5 1
      ringOn := true
      prod := e.eseq
      cons := e.eseq })) := by
  have hsize : ¬(bits v.toNat 5 1 < 12 ∨ 24 < bits v.toNat 5 1) := by omega
  unfold evtRing
  dsimp only
  rw [hmay, h, hoff, decide_eq_false hsize]
  rfl

theorem evtRing_ignored {v : Word64} (h : v.getLsbD 0 = true)
    (hbad : s.ev.ringOn = true ∨ bits v.toNat 5 1 < 12 ∨ 24 < bits v.toNat 5 1) : evtRing v s = s := by
  have hnot : (s.ev.ringOn || decide (bits v.toNat 5 1 < 12 ∨ 24 < bits v.toNat 5 1)) = true := by simpa using hbad
  unfold evtRing
  dsimp only
  rw [hmay, h, hnot]
  rfl

theorem evtCons_moves {v : Word64} (h : (v.setWidth 32 - s.ev.cons).toNat ≤ (s.ev.prod - s.ev.cons).toNat) :
    evtCons v s = modEv s fun e => { e with cons := v.setWidth 32 } := by
  unfold evtCons
  dsimp only
  rw [BitVec.ofNat_toNat, hmay, consOk_iff.mpr h]
  rfl

theorem evtCons_ignored {v : Word64} (h : (s.ev.prod - s.ev.cons).toNat < (v.setWidth 32 - s.ev.cons).toNat) :
    evtCons v s = s := by
  unfold evtCons
  dsimp only
  rw [BitVec.ofNat_toNat, hmay, consOk_false_iff.mpr h]
  rfl

end

theorem exec_evtRing (v : Word64) (s : State) : exec (.evtRing v) s = .next (evtRing v s) := rfl

theorem exec_evtCons (v : Word64) (s : State) : exec (.evtCons v) s = .next (evtCons v s) := rfl

theorem evtRing_changesOnly (v : Word64) (s : State) : ChangesOnly [.ev] s (evtRing v s) :=
  (evtRing_within (M := 67108864) v s (by decide) (.refl _ _)).only rfl

theorem toNat_pageBase (v : Word64) : (BitVec.ofNat 64 (v.toNat / 4096 * 4096)).toNat = v.toNat / 4096 * 4096 := by
  rw [BitVec.toNat_ofNat, Nat.mod_eq_of_lt (Nat.lt_of_le_of_lt (Nat.div_mul_le_self _ _) v.isLt)]

/-- Settles O59: each command is one change of the event buffer; what leaves for the host ring is what was due. -/
theorem eventsLeaveTheBuffer : Obligations.EventsLeaveTheBuffer := by
  intro s
  refine ⟨fun h => ?_, fun r hon hr => ⟨_, exec_event s, ?_, ?_⟩, fun h => ?_, fun h => ⟨_, exec_eventRecordWrite s, ?_, ?_⟩,
    fun hmay v => ⟨fun h => ⟨_, exec_evtRing v s, evtRing_changesOnly v s, ?_⟩,
      fun h hoff hlo hhi => ⟨_, exec_evtRing v s, evtRing_changesOnly v s, ?_⟩, fun h hbad => ?_, fun h => ?_, fun h => ?_⟩⟩
  · rw [exec_event, eventSend_none h]
  · exact (eventSend_within (M := 67108872) s (by decide) (.refl _ _)).only rfl
  · rw [eventSend_due hon hr]
    refine ⟨rfl, fun l hl => ?_⟩
    subst hl
    rw [← hon]
    rfl
  · rw [exec_eventRecordWrite, eventWrite_off h]
  · exact (eventWrite_within (M := 603980296) s (by decide) (.refl _ _)).only rfl
  · obtain ⟨hbuf, hprod, hst⟩ := eventWrite_on h
    rw [hbuf, hprod, hst]
    refine ⟨fun r => mem_evTidy_skipped, fun r hdue hup hroom => ?_⟩
    rw [eventsWritten_one hdue hup hroom]
    exact ⟨congrArg EvSt.prod (hostWrite_ev _ _ _), hostWrite_host (by exact hup) _ _⟩
  · rw [evtRing_disable hmay h]
    exact ⟨rfl, rfl⟩
  · rw [evtRing_enable hmay h hoff hlo hhi]
    exact ⟨rfl, rfl, toNat_pageBase v, rfl, rfl, fun r => mem_evTidy_skipped⟩
  · rw [exec_evtRing, evtRing_ignored hmay h hbad]
  · rw [exec_evtCons, evtCons_moves hmay h]
    exact ⟨_, rfl, modEv_changesOnly fun _ => id, rfl⟩
  · rw [exec_evtCons, evtCons_ignored hmay h]

/-! ### The trace filter and ring (21 R384-R386) -/

theorem exec_obsFilter (v : Word64) (s : State) : exec (.obsFilter v) s = .next (obsFilter v s) := rfl

theorem exec_obsRing (v : Word64) (s : State) : exec (.obsRing v) s = .next (obsRing v s) := rfl

theorem exec_obsCons (v : Word64) (s : State) : exec (.obsCons v) s = .next (obsCons v s) := rfl

theorem exec_traceDomainPowered (s : State) : exec .traceDomainPowered s = .next (traceDomainPowered s) := rfl

theorem exec_traceRecordWrite (s : State) : exec .traceRecordWrite s = .next (traceWrite s) := rfl

theorem exec_traceWriteError (s : State) : exec .traceWriteError s = .next (traceError s) := rfl

/-- The filter fields of OBS_FILTER, all at once. -/
def ObsSt.filtered (v : Word64) (o : ObsSt) : ObsSt :=
  { o with
    kinds := v.extractLsb' 48 16
    seqs := v.extractLsb' 16 32
    domains := v.extractLsb' 12 4
    dropSaid := false }

section
variable {s : State} (hmay : hostMay s = true) {v : Word64}
include hmay

theorem obsFilter_disable (h : v.getLsbD 0 = false) :
    obsFilter v s = modObs s fun o => traceClear (o.filtered v) := by
  unfold obsFilter
  rw [hmay, h]
  rfl

theorem obsFilter_noRing (h : v.getLsbD 0 = true) (hring : s.obs.ringSize = 0) :
    obsFilter v s = obsBad (modObs s fun o => traceClear (o.filtered v)) := by
  unfold obsFilter
  dsimp only
  rw [hmay, h, if_pos hring]
  rfl

theorem obsFilter_enable (h : v.getLsbD 0 = true) (hring : s.obs.ringSize ≠ 0) :
    obsFilter v s = modObs s fun o => traceSet (o.filtered v) := by
  unfold obsFilter
  dsimp only
  rw [hmay, h, if_neg hring]
  rfl

/-- OBS_FILTER takes the filter whole, and ENABLE where a ring is in force. -/
theorem obsFilter_takes : (obsFilter v s).obs.kinds = v.extractLsb' 48 16 ∧ (obsFilter v s).obs.seqs = v.extractLsb' 16 32 ∧
    (obsFilter v s).obs.domains = v.extractLsb' 12 4 ∧
      (obsFilter v s).obs.enable = (v.getLsbD 0 && s.obs.ringSize != 0) := by
  cases hb : v.getLsbD 0 with
  | false =>
    rw [obsFilter_disable hmay hb]
    exact ⟨rfl, rfl, rfl, rfl⟩
  | true =>
    by_cases hring : s.obs.ringSize = 0
    · rw [obsFilter_noRing hmay hb hring]
      have hreg := raise_registers (modObs s fun o => traceClear (o.filtered v)) bOBS 1 locDevice noSeq 0
      simp only [Prod.mk.injEq] at hreg
      obtain ⟨hkinds, hseqs, hdomains, henable, -⟩ := hreg
      exact ⟨hkinds, hseqs, hdomains, by rw [hring]; exact henable⟩
    · rw [obsFilter_enable hmay hb hring]
      exact ⟨rfl, rfl, rfl, by simp [modObs, traceSet, hring]⟩

theorem obsRing_accepted (henable : s.obs.enable = false) (hoff : s.obs.domain = .off) (hlo : 16 ≤ bits v.toNat 5 0)
    (hhi : bits v.toNat 5 0 ≤ 30) : obsRing v s = modObs s fun o => { o with
      ringBase := BitVec.ofNat 64 (v.toNat / 4096 * 4096), ringSize := bits v.toNat 5 0 } := by
  simp [obsRing, hmay, henable, hoff, Nat.not_lt.mpr hlo, Nat.not_lt.mpr hhi]

theorem obsRing_refused (h : s.obs.enable = true ∨ s.obs.domain ≠ .off ∨ bits v.toNat 5 0 < 16 ∨ 30 < bits v.toNat 5 0) :
    obsRing v s = raise s bOBS 1 locDevice noSeq 0 := by
  have hbad : (s.obs.enable || s.obs.domain != .off || decide (bits v.toNat 5 0 < 16 ∨ 30 < bits v.toNat 5 0)) = true := by
    simpa [or_assoc] using h
  unfold obsRing
  dsimp only
  rw [hmay, hbad]
  rfl

theorem obsCons_moves (h : (v.setWidth 32 - s.obs.cons).toNat ≤ (s.obs.prod - s.obs.cons).toNat) :
    obsCons v s = modObs s fun o => { o with cons := v.setWidth 32, dropSaid := false } := by
  unfold obsCons
  dsimp only
  rw [BitVec.ofNat_toNat, hmay, consOk_iff.mpr h]
  rfl

theorem obsCons_refused (h : (s.obs.prod - s.obs.cons).toNat < (v.setWidth 32 - s.obs.cons).toNat) :
    obsCons v s = raise s bOBS 1 locDevice noSeq 0 := by
  unfold obsCons
  dsimp only
  rw [BitVec.ofNat_toNat, hmay, consOk_false_iff.mpr h]
  rfl

end

/-! ### The trace domain and its records (21 R385, R386, R389) -/

theorem traceDomainPowered_powering {s : State} (h : s.obs.domain = .powering) : traceDomainPowered s =
    modObs s fun o => { o with domain := if o.enable then .on else .off, rseq := 0, prod := 0, cons := 0 } :=
  if_neg (by rw [h]; decide)

theorem traceDomainPowered_other {s : State} (h : s.obs.domain ≠ .powering) : traceDomainPowered s = s :=
  if_pos (bne_iff_ne.mpr h)

theorem traceDomain_kept {s : State} (h : s.obs.domain = .on ∨ s.obs.domain = .draining) :
    (s.obs.domain == .on || s.obs.domain == .draining) = true := by
  rcases h with h | h <;> rw [h] <;> rfl

theorem traceWrite_none {s : State} (h : s.obs.domain = .off ∨ s.obs.domain = .powering ∨ s.obs.buf = []) :
    traceWrite s = s := by
  unfold traceWrite
  rcases h with h | h | h <;> rw [h]
  · rfl
  · rfl
  · split <;> rfl

/-- What a trace domain that drains leaves when its last record has gone: everything but its power. -/
theorem traceDrained_keeps (s : State) : (traceDrained s).obs.buf = s.obs.buf ∧ (traceDrained s).obs.prod = s.obs.prod ∧
    (traceDrained s).st = s.st := by
  unfold traceDrained
  split <;> exact ⟨rfl, rfl, rfl⟩

/-- The oldest record has left the buffer for its place in the ring. -/
def traceWrote (r : TraceRec) (rest : List TraceRec) (s : State) : State :=
  traceDrained (ctrAdd (hostWrite (modObs s fun o => { o with buf := rest, prod := r.rseq + 1 })
    (s.obs.ringBase.toNat + 32 * (r.rseq.toNat % ringEntries s.obs.ringSize)) (traceBytes r)) (ctrFibry 0) 1)

theorem traceWrote_changesOnly (r : TraceRec) (rest : List TraceRec) (s : State) :
    ChangesOnly [.obs, .st, .hostBytes] s (traceWrote r rest s) :=
  (traceDrained_within (M := 570425856) _ (by decide) (ctrAdd_within _ _ _ (by decide)
    (hostWrite_within _ _ _ (by decide) (modObs_within _ _ (by decide) (.refl _ _))))).only rfl

theorem traceWrote_obs (r : TraceRec) (rest : List TraceRec) (s : State) :
    (traceWrote r rest s).obs.buf = rest ∧ (traceWrote r rest s).obs.prod = r.rseq + 1 := by
  unfold traceWrote
  obtain ⟨hbuf, hprod, -⟩ := traceDrained_keeps (ctrAdd (hostWrite (modObs s fun o => { o with
    buf := rest, prod := r.rseq + 1 }) (s.obs.ringBase.toNat + 32 * (r.rseq.toNat % ringEntries s.obs.ringSize))
    (traceBytes r)) (ctrFibry 0) 1)
  rw [hbuf, hprod]
  exact ⟨congrArg ObsSt.buf (hostWrite_obs _ _ _), congrArg ObsSt.prod (hostWrite_obs _ _ _)⟩

theorem traceWrote_host {s : State} (hup : s.hif.epUp = true) (r : TraceRec) (rest : List TraceRec) :
    (traceWrote r rest s).st.host = memWrs zeroByte s.st.host
      (s.obs.ringBase.toNat + 32 * (r.rseq.toNat % ringEntries s.obs.ringSize)) (traceBytes r) := by
  obtain ⟨-, -, hst⟩ := traceDrained_keeps (ctrAdd (hostWrite (modObs s fun o => { o with
    buf := rest, prod := r.rseq + 1 }) (s.obs.ringBase.toNat + 32 * (r.rseq.toNat % ringEntries s.obs.ringSize))
    (traceBytes r)) (ctrFibry 0) 1)
  exact (congrArg StoreSt.host hst).trans (hostWrite_host (by exact hup) _ _)

section
variable {s : State} {r : TraceRec} {rest : List TraceRec} (hdom : s.obs.domain = .on ∨ s.obs.domain = .draining)
  (hbuf : s.obs.buf = r :: rest)
include hdom hbuf

theorem traceWrite_writes (hup : s.hif.epUp = true)
    (hroom : (r.rseq + 1 - s.obs.cons).toNat ≤ ringEntries s.obs.ringSize) :
    traceWrite s = traceWrote r rest s := by
  unfold traceWrite
  dsimp only
  rw [traceDomain_kept hdom, hbuf]
  dsimp only
  rw [hup, decide_eq_false (Nat.not_lt.mpr hroom)]
  rfl

theorem traceWrite_drops (h : s.hif.epUp = false ∨ ringEntries s.obs.ringSize < (r.rseq + 1 - s.obs.cons).toNat) :
    traceWrite s = traceDrained (traceDrop (modObs s fun o => { o with buf := rest })) := by
  have hbad : (!s.hif.epUp || decide (ringEntries s.obs.ringSize < (r.rseq + 1 - s.obs.cons).toNat)) = true := by
    simpa using h
  unfold traceWrite
  rw [traceDomain_kept hdom, hbuf]
  exact if_pos hbad

end

theorem traceError_clears {s : State} (hdom : s.obs.domain = .on ∨ s.obs.domain = .draining) :
    traceError s = raise (modObs s traceClear) bOBS 20 locDevice noSeq 0 := if_pos (traceDomain_kept hdom)

theorem traceDropped_within (s : State) (f : ObsSt → ObsSt) :
    Within 117440546 s (traceDrained (traceDrop (modObs s f))) :=
  traceDrained_within _ (by decide) (traceDrop_within _ (by decide) (modObs_within _ _ (by decide) (.refl _ _)))

/-- Settles O60: each write of a register is one change of the trace registers or OBS.001, and a record leaves its buffer to
the ring or to the count of those dropped. -/
theorem traceRecordsLeaveTheRing : Obligations.TraceRecordsLeaveTheRing := by
  intro s
  refine ⟨fun hmay v => ⟨?_, fun henable hoff hlo hhi => ?_, fun h => ?_, fun h => ?_, fun h => ?_⟩, fun h => ?_, fun h => ?_,
    fun hdom => ⟨fun r rest hbuf => ⟨fun hup hroom => ?_, fun h => ?_⟩, ?_⟩, fun h => ?_⟩
  · obtain ⟨hkinds, hseqs, hdomains, henable⟩ := obsFilter_takes hmay (v := v)
    refine ⟨_, exec_obsFilter v s, (obsFilter_within (M := 117440546) v s (by decide) (.refl _ _)).only rfl, hkinds, hseqs,
      hdomains, henable, fun hb hring => ?_, fun hb hring => ?_⟩
    · rw [obsFilter_enable hmay hb hring]
      exact ⟨modObs_changesOnly _ _, fun hoff => by simp [modObs, traceSet, ObsSt.filtered, hoff]⟩
    · rw [obsFilter_noRing hmay hb hring]
      exact ⟨_, modObs_changesOnly _ _, rfl⟩
  · rw [exec_obsRing, obsRing_accepted hmay henable hoff hlo hhi]
    exact ⟨_, rfl, modObs_changesOnly _ _, rfl⟩
  · rw [exec_obsRing, obsRing_refused hmay h]
  · rw [exec_obsCons, obsCons_moves hmay h]
    exact ⟨_, rfl, modObs_changesOnly _ _, rfl⟩
  · rw [exec_obsCons, obsCons_refused hmay h]
  · rw [exec_traceDomainPowered, traceDomainPowered_powering h]
    exact ⟨_, rfl, modObs_changesOnly _ _, rfl, rfl, rfl⟩
  · rw [exec_traceDomainPowered, traceDomainPowered_other h]
  · rw [exec_traceRecordWrite, traceWrite_writes hdom hbuf hup hroom]
    obtain ⟨hb, hp⟩ := traceWrote_obs r rest s
    exact ⟨_, rfl, traceWrote_changesOnly _ _ _, hb, hp, traceWrote_host hup r rest⟩
  · rw [exec_traceRecordWrite, traceWrite_drops hdom hbuf h]
    have hw := traceDropped_within s fun o => { o with buf := rest }
    exact ⟨_, rfl, hw.only rfl, hw.st.resolve_left (by decide), rfl⟩
  · exact ⟨_, _, exec_traceWriteError s, modObs_changesOnly _ _, rfl, traceError_clears hdom⟩
  · rw [exec_traceRecordWrite, traceWrite_none h]

end Sys2Proof.Machine
end

section
/-! Rails, die temperatures and package power (20 R371, R374-R376). That a quadrant cools one row at a time is log entry 54;
the mean over the samples so far, and clock 0 in keep-alive mode, are log entry 135. -/

namespace Sys2Proof.Machine

theorem Sound.quads_length {s : State} (h : Sound s) : s.pwr.quads.length = 4 := by
  obtain ⟨⟨-, -, -, -, -, -, -, -, -, -, -, hq⟩, -⟩ := h
  exact hq

/-! ### Keep-alive mode and its cause (20 R378, 22 R403) -/

theorem traceOff_pwr (s : State) : (traceOff s).pwr = s.pwr := by
  unfold traceOff
  split
  · rfl
  · exact raise_pwr_other _ _ _ _ _ (by decide)

theorem traceOff_time (s : State) : (traceOff s).time = s.time :=
  (traceOff_within (M := 117440546) s (by decide) (.refl _ _)).time.resolve_left (by decide)

/-- Keep-alive mode begins, with its cause, and the clocks stop. -/
def PwrSt.entering (num : Nat) (mem : Bool) (cause : Cause) (now : Nat) (p : PwrSt) : PwrSt :=
  { p with
    keepalive := true, causeNum := num, causeMem := mem, cause := cause, enteredAt := now, coolSince := none,
    railSince := none, quads := p.quads.map fun q => { q with clock := 0 } }

theorem enterKeepalive_pwr {s : State} (block num : Nat) (cause : Cause) (h : s.pwr.keepalive = false) :
    (enterKeepalive s block num cause).pwr = s.pwr.entering (num % 256) (block == bMEM) cause s.time := by
  have hpwr : (traceOff (ctrAdd s 12 1)).pwr = s.pwr := traceOff_pwr _
  have htime : (traceOff (ctrAdd s 12 1)).time = s.time := traceOff_time _
  unfold enterKeepalive
  rw [if_neg (by simp [h])]
  dsimp only
  rw [each_linkDown_pwr, ← hpwr, ← htime]
  rfl

theorem enterKeepalive_again {s : State} (block num : Nat) (cause : Cause) (h : s.pwr.keepalive = true) :
    enterKeepalive s block num cause = s := if_pos h

/-- The device is in keep-alive mode, by an event of the block PWR. -/
def InKeepalive (num : Nat) (s : State) : Prop :=
  s.pwr.keepalive = true ∧ s.pwr.causeNum = num ∧ s.pwr.causeMem = false

section
variable {n : Nat} {s : State}

theorem InKeepalive.raise (h : InKeepalive n s) (block num : Nat) (l : BitVec 32) (seq : Nat) (detail : Word64) :
    InKeepalive n (raise s block num l seq detail) := by
  obtain ⟨e, he⟩ := raise_pwr s block num l seq detail
  unfold InKeepalive
  rw [he]
  exact h

/-- The first fatal event sets the cause: a later one leaves it. -/
theorem InKeepalive.raiseFatal (h : InKeepalive n s) (block num : Nat) (l : BitVec 32) (detail : Word64) (cause : Cause) :
    InKeepalive n (raiseFatal s block num l detail cause) := by
  have hr := h.raise block num l noSeq detail
  unfold Machine.raiseFatal
  rw [enterKeepalive_again _ _ _ hr.1]
  exact hr

theorem raiseFatal_pwr (hn : n < 256) (l : BitVec 32) (detail : Word64) (cause : Cause) (h : s.pwr.keepalive = false) :
    ∃ e, (raiseFatal s bPWR n l detail cause).pwr = (s.pwr.noting e).entering n false cause s.time := by
  obtain ⟨e, he⟩ := raise_pwr s bPWR n l noSeq detail
  refine ⟨e, ?_⟩
  unfold raiseFatal
  rw [enterKeepalive_pwr _ _ _ (by rw [raise_keepalive]; exact h), he, raise_time, Nat.mod_eq_of_lt hn]
  rfl

theorem raiseFatal_enters (hn : n < 256) (l : BitVec 32) (detail : Word64) (cause : Cause) (h : s.pwr.keepalive = false) :
    InKeepalive n (raiseFatal s bPWR n l detail cause) := by
  obtain ⟨e, he⟩ := raiseFatal_pwr hn l detail cause h
  unfold InKeepalive
  rw [he]
  exact ⟨rfl, rfl, rfl⟩

end

/-! ### Rails (R371) -/

/-- The counts of the rails after a sample. -/
def railsCounted (tol : List Bool) (s : State) : State :=
  modPwr s fun p => { p with railBad := railCounts p.railBad tol, railSince := railSinceOf s tol }

/-- The rails that have been outside tolerance for three samples. -/
def railsFailed (tol : List Bool) (s : State) : List Nat :=
  (List.range 32).filter fun r => decide (3 ≤ (railCounts s.pwr.railBad tol).getD r 0)

theorem railsCounted_changesOnly (tol : List Bool) (s : State) : ChangesOnly [.pwr] s (railsCounted tol s) :=
  (modPwr_within (M := 16777216) _ _ (by decide) rfl (.inr rfl) (.refl _ _)).only rfl

section
variable {tol : List Bool} {s : State} (hvaon : tol.getD 0 true = true) (hon : awake s = true)
include hvaon hon

theorem railSample_keepalive (h : s.pwr.keepalive = true) : railSample tol s = railsCounted tol s := by
  unfold railSample
  dsimp only
  rw [hvaon, hon, h]
  rfl

theorem railSample_outside (h : s.pwr.keepalive = false) : railSample tol s =
    each (railsFailed tol s) (fun s r => raiseFatal s bPWR 11 (locRail r) 0 .rail) (railsCounted tol s) := by
  unfold railSample
  dsimp only
  rw [hvaon, hon, h]
  rfl

theorem railSample_counts (h : (∀ n ∈ railCounts s.pwr.railBad tol, n < 3) ∨ s.pwr.keepalive = true) :
    railSample tol s = railsCounted tol s := by
  cases hka : s.pwr.keepalive with
  | true => exact railSample_keepalive hvaon hon hka
  | false =>
    have hnone : railsFailed tol s = [] := by
      refine List.filter_eq_nil_iff.mpr fun r _ => ?_
      rw [decide_eq_true_eq, Nat.not_le, List.getD_eq_getElem?_getD]
      cases hr : (railCounts s.pwr.railBad tol)[r]? with
      | none => exact Nat.zero_lt_succ 2
      | some n => exact h.resolve_right (by simp [hka]) n (List.mem_of_getElem? hr)
    rw [railSample_outside hvaon hon hka, hnone]
    rfl

end

theorem railCounts_getElem? {old : List Nat} {tol : List Bool} {r n : Nat} (hlt : r < 32) (hr : r ≠ 0)
    (hout : tol.getD r true = false) (hn : old[r]? = some n) : (railCounts old tol)[r]? = some (n + 1) := by
  have hzip : ((List.range 32).zip old)[r]? = some (r, n) :=
    List.getElem?_zip_eq_some.mpr ⟨List.getElem?_range hlt, hn⟩
  rw [railCounts, List.getElem?_map, hzip, Option.map_some, if_neg (by rw [hout]; simpa using hr)]

theorem mem_railsFailed {s : State} {tol : List Bool} {r n : Nat} (hlt : r < 32) (hr : r ≠ 0)
    (hout : tol.getD r true = false) (hn : s.pwr.railBad[r]? = some n) (h2 : 2 ≤ n) : r ∈ railsFailed tol s := by
  refine List.mem_filter.mpr ⟨List.mem_range.mpr hlt, ?_⟩
  rw [List.getD_eq_getElem?_getD, railCounts_getElem? hlt hr hout hn]
  exact decide_eq_true (Nat.succ_le_succ h2)

/-- The first rail that has failed brings keep-alive mode. -/
theorem each_railFailed {l : List Nat} (hl : l ≠ []) {s : State} (h : s.pwr.keepalive = false) :
    InKeepalive 11 (each l (fun s r => raiseFatal s bPWR 11 (locRail r) 0 .rail) s) := by
  cases l with
  | nil => exact absurd rfl hl
  | cons r l =>
    exact each_keeps (P := InKeepalive 11) (l := l) (s := raiseFatal s bPWR 11 (locRail r) 0 .rail)
      (fun s r _ hs => hs.raiseFatal bPWR 11 (locRail r) 0 .rail) (raiseFatal_enters (n := 11) (by decide) (locRail r) 0 .rail h)

/-! ### Die temperatures (R374, R376) -/

theorem stacksPowered_congr {s t : State} (hboot : t.boot = s.boot) (hka : t.pwr.keepalive = s.pwr.keepalive) :
    stacksPowered t = stacksPowered s := by
  unfold stacksPowered
  rw [hboot, hka]

/-- The quadrants, TJ_IOD, and the time since which every temperature is low, as samples set them. -/
def PwrSt.taking (i : Int) (qs : List QuadSt) (c : Option Nat) (p : PwrSt) : PwrSt :=
  { p with tjIod := i, quads := qs, coolSince := c }

section
variable (i j : Int) (qs rs : List QuadSt) (c d : Option Nat) (e f : BitVec 4) (p : PwrSt)

@[simp] theorem PwrSt.taking_taking : (p.taking i qs c).taking j rs d = p.taking j rs d := rfl
@[simp] theorem PwrSt.noting_events : p.noting p.events = p := rfl
@[simp] theorem PwrSt.noting_taking : (p.noting e).taking i qs c = (p.taking i qs c).noting e := rfl
@[simp] theorem PwrSt.noting_noting : (p.noting e).noting f = p.noting f := rfl
@[simp] theorem PwrSt.taking_tjIod : (p.taking i qs c).tjIod = i := rfl
@[simp] theorem PwrSt.taking_quads : (p.taking i qs c).quads = qs := rfl
@[simp] theorem PwrSt.taking_coolSince : (p.taking i qs c).coolSince = c := rfl
@[simp] theorem PwrSt.taking_keepalive : (p.taking i qs c).keepalive = p.keepalive := rfl
@[simp] theorem PwrSt.taking_cap : (p.taking i qs c).cap = p.cap := rfl
@[simp] theorem PwrSt.noting_tjIod : (p.noting e).tjIod = p.tjIod := rfl
@[simp] theorem PwrSt.noting_quads : (p.noting e).quads = p.quads := rfl
@[simp] theorem PwrSt.noting_coolSince : (p.noting e).coolSince = p.coolSince := rfl
@[simp] theorem PwrSt.noting_keepalive : (p.noting e).keepalive = p.keepalive := rfl
@[simp] theorem PwrSt.noting_cap : (p.noting e).cap = p.cap := rfl

end

theorem noteCool_pwr (s : State) : ∃ c, (noteCool s).pwr = s.pwr.taking s.pwr.tjIod s.pwr.quads c := by
  unfold noteCool
  split <;> exact ⟨_, rfl⟩

theorem quadRow_lt {t : Int} (h : t < 110) : quadRow t < 4 := by
  unfold quadRow
  rw [if_pos h]
  split
  · decide
  split
  · decide
  split <;> decide

theorem quadRow_trip {t : Int} (h : 110 ≤ t) : quadRow t = 4 := by
  unfold quadRow
  rw [if_neg (by omega), if_neg (by omega), if_neg (by omega), if_neg (by omega)]

/-- A quadrant that enters a hotter row stands in the row of its reading. -/
theorem quadStep_entered {now : Nat} {q : QuadSt} {cd bd : Int} (h : (quadStep now q cd bd).2 = true) :
    (quadStep now q cd bd).1.row = quadRow (max cd bd) := by
  unfold quadStep at h ⊢
  dsimp only at h ⊢
  split
  next => rfl
  next hle =>
    rw [if_neg hle] at h
    split at h <;> exact absurd h Bool.false_ne_true

/-- At the trip a quadrant stands in the last row. -/
theorem quadStep_trip (now : Nat) (q : QuadSt) {cd bd : Int} (h : 110 ≤ max cd bd) : 4 ≤ (quadStep now q cd bd).1.row := by
  unfold quadStep
  dsimp only
  rw [quadRow_trip h]
  split
  next => exact Nat.le_refl 4
  next hrow =>
    have hbound : quadBound q.row = 110 := by
      match q.row, Nat.not_lt.mp hrow with
      | r + 4, _ => rfl
    have hcool : coolStep now (quadBound q.row) (max cd bd) q.coolSince = (none, false) := by
      unfold coolStep
      rw [hbound, if_neg (by omega)]
    rw [hcool, Bool.and_false, if_neg (by decide)]
    exact Nat.not_lt.mp hrow

/-- The quadrants with one of them after its sample. -/
def quadsTake (now : Nat) (cd bd : List Int) (qs : List QuadSt) (n : Nat) : List QuadSt :=
  qs.set n (quadStep now (unit qs n QuadSt.reset) (cd.getD n 0) (bd.getD n 0)).1

/-- Below the trip a sample changes its quadrant, and at most shows in PWR_EVENTS. -/
theorem quadSample_cool (s : State) {n : Nat} {cd bd : List Int} (h : max (cd.getD n 0) (bd.getD n 0) < 110) :
    ∃ e, (quadSample s n (cd.getD n 0) (bd.getD n 0)).pwr =
      (s.pwr.taking s.pwr.tjIod (quadsTake s.time cd bd s.pwr.quads n) s.pwr.coolSince).noting e := by
  unfold quadSample
  dsimp only
  split
  next hrow =>
    have hentered : (quadStep s.time (unit s.pwr.quads n QuadSt.reset) (cd.getD n 0) (bd.getD n 0)).2 = false := by
      refine Bool.eq_false_iff.mpr fun h2 => ?_
      rw [quadStep_entered h2] at hrow
      exact absurd (quadRow_lt h) (Nat.not_lt.mpr hrow)
    rw [hentered, decide_eq_false (by omega), Bool.and_false, Bool.or_false, if_neg (by decide)]
    exact ⟨_, rfl⟩
  next =>
    split
    · exact raise_pwr _ _ _ _ _ _
    · exact ⟨_, rfl⟩

theorem quadSample_time (s : State) (n : Nat) (cd bd : Int) : (quadSample s n cd bd).time = s.time :=
  (quadSample_within (M := 2673831842) s n cd bd (by decide) (.refl _ _)).time.resolve_left (by decide)

theorem each_quadSample_cool {cd bd : List Int} {l : List Nat} (h : ∀ n ∈ l, max (cd.getD n 0) (bd.getD n 0) < 110)
    (s : State) : ∃ e, (each l (fun s n => quadSample s n (cd.getD n 0) (bd.getD n 0)) s).pwr =
      (s.pwr.taking s.pwr.tjIod (l.foldl (quadsTake s.time cd bd) s.pwr.quads) s.pwr.coolSince).noting e := by
  induction l generalizing s with
  | nil => exact ⟨_, rfl⟩
  | cons n l ih =>
    obtain ⟨e, he⟩ := quadSample_cool s (h n List.mem_cons_self)
    obtain ⟨e', he'⟩ := ih (fun m hm => h m (List.mem_cons_of_mem n hm)) (quadSample s n (cd.getD n 0) (bd.getD n 0))
    rw [he, quadSample_time] at he'
    exact ⟨e', he'.trans (by simp)⟩

/-- Each quadrant of the list takes its own sample once. -/
theorem unit_quadsTaken (now : Nat) (cd bd : List Int) {l : List Nat} (hl : l.Nodup) (qs : List QuadSt) (n : Nat) :
    unit (l.foldl (quadsTake now cd bd) qs) n QuadSt.reset = if n ∈ l ∧ n < qs.length then
      (quadStep now (unit qs n QuadSt.reset) (cd.getD n 0) (bd.getD n 0)).1 else unit qs n QuadSt.reset := by
  induction l generalizing qs with
  | nil => rw [if_neg fun h => List.not_mem_nil h.1]; rfl
  | cons m l ih =>
    obtain ⟨hm, hl⟩ := List.nodup_cons.mp hl
    rw [List.foldl_cons, ih hl, quadsTake, unit_set, List.length_set]
    by_cases hnm : n = m
    · subst hnm
      by_cases hlen : n < qs.length <;> simp [hm, hlen]
    · simp [hnm]

/-- The device after its readings, before the clocks follow. -/
def diesSampled (cd bd : List Int) (iod : Int) (s : State) : State :=
  noteCool (each (List.range 4) (fun s n => quadSample s n (cd.getD n 0) (bd.getD n 0)) (iodSample iod s))

theorem exec_dieTempSample {s : State} (hon : awake s = true) (cd bd : List Int) (iod : Int) :
    exec (.dieTempSample cd bd iod) s = .next (setClocks (diesSampled cd bd iod s)) :=
  congrArg Host.Outcome.next (if_neg (by rw [hon]; decide))

theorem diesSampled_boot (cd bd : List Int) (iod : Int) (s : State) : (diesSampled cd bd iod s).boot = s.boot :=
  (noteCool_within (M := 2673831850) _ (by decide) (each_within _ _ _ (by decide)
    (fun s n => quadSample_within s n _ _ (by decide) (.refl _ _))
    (iodSample_within iod s (by decide) (.refl _ _)))).boot.resolve_left (by decide)

theorem iodSample_cool {iod : Int} (h : iod < 110) (s : State) :
    (iodSample iod s).pwr = s.pwr.taking iod s.pwr.quads s.pwr.coolSince ∧ (iodSample iod s).time = s.time := by
  unfold iodSample
  dsimp only
  rw [decide_eq_false (by omega), decide_eq_false (by omega)]
  exact ⟨rfl, rfl⟩

/-- Readings below every trip change the quadrants and what follows from the readings. -/
theorem diesSampled_cool {cd bd : List Int} {iod : Int} (hdies : ∀ n, n < 4 → max (cd.getD n 0) (bd.getD n 0) < 110)
    (hiod : iod < 110) (s : State) : ∃ c e, (diesSampled cd bd iod s).pwr =
      (s.pwr.taking iod ((List.range 4).foldl (quadsTake s.time cd bd) s.pwr.quads) c).noting e := by
  obtain ⟨e, he⟩ := each_quadSample_cool (fun n hn => hdies n (List.mem_range.mp hn)) (iodSample iod s)
  obtain ⟨c, hc⟩ := noteCool_pwr (each (List.range 4) (fun s n => quadSample s n (cd.getD n 0) (bd.getD n 0))
    (iodSample iod s))
  obtain ⟨hpwr, htime⟩ := iodSample_cool hiod s
  rw [he, hpwr, htime] at hc
  exact ⟨c, e, hc.trans (by simp)⟩

theorem setClocks_pwr (s : State) : (setClocks s).pwr = { s.pwr with quads := s.pwr.quads.map fun q => { q with
    clock := if stacksPowered s then min (thermCap q.row) s.pwr.cap else 0 } } := rfl

theorem quadsTaken_length (now : Nat) (cd bd : List Int) (l : List Nat) (qs : List QuadSt) :
    (l.foldl (quadsTake now cd bd) qs).length = qs.length :=
  List.foldlRecOn (motive := fun q => q.length = qs.length) l (quadsTake now cd bd) rfl
    fun _ hq _ _ => (List.length_set ..).trans hq

theorem dieTemps_cool {cd bd : List Int} {iod : Int} {s : State} (hq : s.pwr.quads.length = 4)
    (hdies : ∀ n, n < 4 → max (cd.getD n 0) (bd.getD n 0) < 110) (hiod : iod < 110) :
    (setClocks (diesSampled cd bd iod s)).pwr.keepalive = s.pwr.keepalive ∧
      (setClocks (diesSampled cd bd iod s)).pwr.tjIod = iod ∧ ∀ n, n < 4 → ∀ q,
        q = (quadStep s.time (unit s.pwr.quads n QuadSt.reset) (cd.getD n 0) (bd.getD n 0)).1 →
        unit (setClocks (diesSampled cd bd iod s)).pwr.quads n QuadSt.reset = { q with
          clock := if stacksPowered s then min (thermCap q.row) s.pwr.cap else 0 } := by
  obtain ⟨c, e, hpwr⟩ := diesSampled_cool hdies hiod s
  have hon := stacksPowered_congr (diesSampled_boot cd bd iod s) (by rw [hpwr]; rfl)
  rw [setClocks_pwr, hpwr, hon]
  refine ⟨rfl, rfl, fun n hn q hqn => ?_⟩
  have hlen : n < ((List.range 4).foldl (quadsTake s.time cd bd) s.pwr.quads).length := by
    rw [quadsTaken_length, hq]
    exact hn
  simp only [PwrSt.noting_quads, PwrSt.taking_quads, PwrSt.noting_cap, PwrSt.taking_cap]
  rw [unit_map, if_pos hlen, unit_quadsTaken _ _ _ List.nodup_range, if_pos ⟨List.mem_range.mpr hn, hq ▸ hn⟩, ← hqn]

/-! ### A die at 110 °C (R374) -/

/-- A hot reading raises PWR.010, whatever the row that it meets: outside keep-alive mode that brings it. -/
theorem quadSample_hot {s : State} (h : s.pwr.keepalive = false) {n : Nat} {cd bd : Int} (hot : 110 ≤ max cd bd) :
    InKeepalive 10 (quadSample s n cd bd) := by
  unfold quadSample
  dsimp only
  rw [if_pos (quadStep_trip _ _ hot), if_pos (by simp [modPwr, h, hot])]
  exact raiseFatal_enters (n := 10) (by decide) _ _ _ h

theorem quadSample_keeps {s : State} (h : InKeepalive 10 s) (n : Nat) (cd bd : Int) :
    InKeepalive 10 (quadSample s n cd bd) := by
  have hset : InKeepalive 10 (modPwr s fun p => { p with
      quads := p.quads.set n (quadStep s.time (unit s.pwr.quads n QuadSt.reset) cd bd).1 }) := h
  unfold quadSample
  dsimp only
  split
  · split
    · exact hset.raiseFatal _ _ _ _ _
    · exact hset
  · split
    · exact hset.raise _ _ _ _ _
    · exact hset

theorem each_quadSample_hot {cd bd : List Int} {l : List Nat} (h : ∃ n ∈ l, 110 ≤ max (cd.getD n 0) (bd.getD n 0))
    {s : State} (hoff : s.pwr.keepalive = false) :
    InKeepalive 10 (each l (fun s n => quadSample s n (cd.getD n 0) (bd.getD n 0)) s) := by
  induction l generalizing s with
  | nil =>
    obtain ⟨n, hn, -⟩ := h
    exact absurd hn List.not_mem_nil
  | cons m l ih =>
    by_cases hm : 110 ≤ max (cd.getD m 0) (bd.getD m 0)
    · exact each_keeps (P := InKeepalive 10) (l := l) (s := quadSample s m (cd.getD m 0) (bd.getD m 0))
        (fun s n _ hs => quadSample_keeps hs n _ _) (quadSample_hot hoff hm)
    · obtain ⟨n, hn, hot⟩ := h
      have hnl : n ∈ l := (List.mem_cons.mp hn).resolve_left fun e => hm (e ▸ hot)
      obtain ⟨e, he⟩ := quadSample_cool s (Int.not_le.mp hm)
      exact ih ⟨n, hnl, hot⟩ (by rw [he]; exact hoff)

theorem eventSendAll_pwr (s : State) : (eventSendAll s).pwr = s.pwr :=
  (eventSendAll_within (M := 67108872) s (by decide) (.refl _ _)).pwr.resolve_left (by decide)

/-- TJ_IOD has been read at its trip: PWR.010 has been raised. -/
def iodTripped (iod : Int) (s : State) : State :=
  raiseFatal (modPwr s fun p => { p with tjIod := iod }) bPWR 10 locDevice 0 .thermal

theorem iodSample_tripped {iod : Int} {s : State} (h : s.pwr.keepalive = false) (hot : 110 ≤ iod) : iodSample iod s =
    if decide (125 ≤ iod) && !(iodTripped iod s).pwr.thermtrip then
      emit (modPwr (eventSendAll (raise (iodTripped iod s) bPWR 30 locDevice noSeq 0)) fun p =>
        { p with thermtrip := true }) .thermtrip
    else iodTripped iod s := by
  have hraised : (decide (110 ≤ iod) && (decide (s.pwr.tjIod < 110) || !s.pwr.keepalive)) = true := by simp [h, hot]
  unfold iodSample
  dsimp only [modPwr]
  rw [hraised]
  rfl

theorem iodSample_hot {iod : Int} {s : State} (h : s.pwr.keepalive = false) (hot : 110 ≤ iod) :
    InKeepalive 10 (iodSample iod s) := by
  have hfatal : InKeepalive 10 (iodTripped iod s) := raiseFatal_enters (n := 10) (by decide) _ _ _ h
  rw [iodSample_tripped h hot]
  split
  · have hsent := hfatal.raise bPWR 30 locDevice noSeq 0
    unfold InKeepalive at hsent
    rw [← eventSendAll_pwr] at hsent
    exact hsent
  · exact hfatal

/-- With a die or the I/O die at 110 °C the device ends in keep-alive mode by PWR.010. -/
theorem diesSampled_hot {cd bd : List Int} {iod : Int} {s : State}
    (hot : (∃ n, n < 4 ∧ 110 ≤ max (cd.getD n 0) (bd.getD n 0)) ∨ 110 ≤ iod) (hoff : s.pwr.keepalive = false) :
    InKeepalive 10 (diesSampled cd bd iod s) := by
  have hsampled : InKeepalive 10 (each (List.range 4) (fun s n => quadSample s n (cd.getD n 0) (bd.getD n 0))
      (iodSample iod s)) := by
    by_cases hiod : 110 ≤ iod
    · exact each_keeps (P := InKeepalive 10) (l := List.range 4) (s := iodSample iod s)
        (fun s n _ hs => quadSample_keeps hs n _ _) (iodSample_hot hoff hiod)
    · obtain ⟨n, hn, hdie⟩ := hot.resolve_right hiod
      refine each_quadSample_hot ⟨n, List.mem_range.mpr hn, hdie⟩ ?_
      rw [(iodSample_cool (Int.not_le.mp hiod) s).1]
      exact hoff
  obtain ⟨c, hc⟩ := noteCool_pwr (each (List.range 4) (fun s n => quadSample s n (cd.getD n 0) (bd.getD n 0))
    (iodSample iod s))
  unfold InKeepalive diesSampled
  rw [hc]
  exact hsampled

/-- In keep-alive mode no clock runs. -/
theorem setClocks_stopped {s : State} (h : s.pwr.keepalive = true) : ∀ q ∈ (setClocks s).pwr.quads, q.clock = 0 := by
  have hon : stacksPowered s = false := by simp [stacksPowered, h]
  rw [setClocks_pwr, hon]
  intro q hq
  obtain ⟨p, -, rfl⟩ := List.mem_map.mp hq
  rfl

/-! ### Package power (R375) -/

/-- The sample is the newest of the last ten. -/
def powerTaken (w : Nat) (s : State) : State := modPwr s fun p => { p with samples := (w :: p.samples).take 10 }

/-- The time since which the mean is above the limit. -/
def PwrSt.over (o : Option Nat) (p : PwrSt) : PwrSt := { p with overSince := o }

/-- The cap has taken its step after the sample. -/
def capStepped (s : State) : State :=
  modPwr (ctrSet s 13 (pMean s.pwr)) fun _ => (capStep s.pwr).1.over (overStep s.time (capStep s.pwr).1)

/-- The device after the sample, before the clocks and the limit of 1 s. -/
def powerStepped (w : Nat) (s : State) : State :=
  if (capStep (powerTaken w s).pwr).2 then raise (capStepped (powerTaken w s)) bPWR 2 locDevice noSeq 0
  else capStepped (powerTaken w s)

theorem capStepped_pwr (s : State) :
    (capStepped s).pwr = (capStep s.pwr).1.over (overStep s.time (capStep s.pwr).1) := rfl

theorem powerStepped_time (w : Nat) (s : State) : (powerStepped w s).time = s.time := by
  unfold powerStepped
  split
  · exact raise_time ..
  · rfl

theorem powerStepped_pwr (w : Nat) (s : State) : ∃ e, (powerStepped w s).pwr =
    ((capStep (powerTaken w s).pwr).1.over (overStep s.time (capStep (powerTaken w s).pwr).1)).noting e := by
  unfold powerStepped
  split
  · obtain ⟨e, he⟩ := raise_pwr (capStepped (powerTaken w s)) bPWR 2 locDevice noSeq 0
    exact ⟨e, he⟩
  · exact ⟨_, (capStepped_pwr _).trans (PwrSt.noting_events _).symm⟩

/-- PWR.014 is raised where the mean has been above the limit, with the cap at its lowest, for 1 s. -/
def powerLimited (s : State) : State :=
  match s.pwr.overSince with
  | some t =>
    if t + second ≤ s.time then raiseFatal (modPwr s fun p => { p with overSince := none }) bPWR 14 locDevice 0 .thermal
    else s
  | none => s

theorem exec_powerSample {s : State} (hon : awake s = true) (w : Nat) :
    exec (.powerSample w) s = .next (powerLimited (setClocks (powerStepped w s))) := by
  refine congrArg Host.Outcome.next ?_
  unfold powerSample
  rw [hon]
  rfl

section
variable {w : Nat} {s : State}

/-- A mean above 3,000 W lowers the cap by one step, down to its lowest. -/
theorem capStep_above {p : PwrSt} (h : 3000 * p.samples.length < p.samples.sum) :
    (capStep p).1.cap = if 10 < p.cap then p.cap - 1 else p.cap := by
  have hbelow : pBelow p 2850 = false := decide_eq_false (by omega)
  have habove : pAbove p 3000 = true := decide_eq_true h
  unfold capStep
  rw [hbelow, habove]
  by_cases hcap : 10 < p.cap <;> simp [hcap]

theorem capStep_between {p : PwrSt} (hle : p.samples.sum ≤ 3000 * p.samples.length)
    (hge : 2850 * p.samples.length ≤ p.samples.sum) (hepisode : p.episode = false) : (capStep p).1.cap = p.cap := by
  have hbelow : pBelow p 2850 = false := decide_eq_false (by omega)
  have habove : pAbove p 3000 = false := decide_eq_false (by omega)
  unfold capStep
  rw [hbelow, habove, hepisode]
  rfl

/-- A mean below 2,850 W ends an episode, and every tenth such sample raises the cap by one step. -/
theorem capStep_below {p : PwrSt} (h : p.samples.sum < 2850 * p.samples.length) : (capStep p).1.lowRun = p.lowRun + 1 ∧
    (capStep p).1.cap = if (p.lowRun + 1) % 10 = 0 then min 20 (p.cap + 1) else p.cap := by
  have hbelow : pBelow p 2850 = true := decide_eq_true h
  have hover : pAbove p 3000 = false := decide_eq_false (by omega)
  have hepisode : pAbove p 2950 = false := decide_eq_false (by omega)
  unfold capStep
  rw [hbelow, hover, hepisode]
  simp

end

/-! ### What the commands of a sample leave of the power metering -/

/-- The registers of the power metering: the samples, the cap and the run of low samples. -/
abbrev PwrSt.metering (p : PwrSt) : List Nat × Nat × Nat := (p.samples, p.cap, p.lowRun)

theorem raiseFatal_metering (s : State) {n : Nat} (hn : n < 256) (l : BitVec 32) (detail : Word64) (cause : Cause) :
    (raiseFatal s bPWR n l detail cause).pwr.metering = s.pwr.metering := by
  cases h : s.pwr.keepalive with
  | false =>
    obtain ⟨e, he⟩ := raiseFatal_pwr hn l detail cause h
    rw [he]
    rfl
  | true =>
    obtain ⟨e, he⟩ := raise_pwr s bPWR n l noSeq detail
    unfold raiseFatal
    rw [enterKeepalive_again _ _ _ (by rw [raise_keepalive]; exact h), he]
    rfl

theorem powerLimited_metering (s : State) : (powerLimited s).pwr.metering = s.pwr.metering := by
  unfold powerLimited
  split
  · split
    · exact raiseFatal_metering _ (n := 14) (by decide) _ _ _
    · rfl
  · rfl

theorem capStep_samples (p : PwrSt) : (capStep p).1.samples = p.samples := rfl

theorem powerSampled_metering (w : Nat) (s : State) : (powerLimited (setClocks (powerStepped w s))).pwr.metering =
    (capStep (powerTaken w s).pwr).1.metering := by
  obtain ⟨e, he⟩ := powerStepped_pwr w s
  rw [powerLimited_metering, setClocks_pwr, he]
  rfl

theorem setClocks_overSince (s : State) : (setClocks s).pwr.overSince = s.pwr.overSince := rfl

theorem powerStepped_overSince (w : Nat) (s : State) :
    (setClocks (powerStepped w s)).pwr.overSince = overStep s.time (capStep (powerTaken w s).pwr).1 := by
  obtain ⟨e, he⟩ := powerStepped_pwr w s
  rw [setClocks_overSince, he]
  rfl

theorem powerStepped_keepalive (w : Nat) (s : State) :
    (setClocks (powerStepped w s)).pwr.keepalive = s.pwr.keepalive := by
  obtain ⟨e, he⟩ := powerStepped_pwr w s
  rw [setClocks_pwr, he]
  rfl

theorem setClocks_time (s : State) : (setClocks s).time = s.time := rfl

/-- 1 s has to pass first: a sample that finds no such time brings no keep-alive mode. -/
theorem powerLimited_fresh {w : Nat} {s : State} (h : s.pwr.overSince = none) :
    powerLimited (setClocks (powerStepped w s)) = setClocks (powerStepped w s) := by
  have hsince := powerStepped_overSince w s
  have hnone : (capStep (powerTaken w s).pwr).1.overSince = none := h
  unfold powerLimited
  rw [hsince, overStep, hnone]
  split
  next t0 ht0 =>
    split at ht0
    · cases ht0
      rw [setClocks_time, powerStepped_time]
      exact if_neg (Nat.not_le.mpr (Nat.lt_add_of_pos_right (by decide)))
    · cases ht0
  next => rfl

/-- After 1 s above the limit at the lowest cap, PWR.014 brings keep-alive mode. -/
theorem powerLimited_late {w t0 : Nat} {s : State} (h : s.pwr.overSince = some t0) (hlate : t0 + second ≤ s.time)
    (hcap : s.pwr.cap = 10) (hoff : s.pwr.keepalive = false)
    (habove : 3000 * (powerTaken w s).pwr.samples.length < (powerTaken w s).pwr.samples.sum) :
    InKeepalive 14 (powerLimited (setClocks (powerStepped w s))) := by
  have hc : (capStep (powerTaken w s).pwr).1.cap = 10 := by
    rw [capStep_above habove]
    exact if_neg (by rw [show (powerTaken w s).pwr.cap = 10 from hcap]; decide) |>.trans hcap
  have hka : (capStep (powerTaken w s).pwr).1.keepalive = false := hoff
  have hmean : pAbove (capStep (powerTaken w s).pwr).1 3000 = true := decide_eq_true habove
  have hover : (capStep (powerTaken w s).pwr).1.overSince = some t0 := h
  have hsince : (setClocks (powerStepped w s)).pwr.overSince = some t0 := by
    rw [powerStepped_overSince, overStep, hmean, hc, hka, hover]
    rfl
  unfold powerLimited
  rw [hsince]
  dsimp only
  rw [setClocks_time, powerStepped_time, if_pos hlate]
  exact raiseFatal_enters (n := 14) (by decide) _ _ _ ((powerStepped_keepalive w s).trans hoff)

/-- Settles O57: the rails' counts, the quadrants' rows and the metering of the power, and what their limits bring. -/
theorem powerAndThermalSamples : Obligations.PowerAndThermalSamples := by
  intro s hs hon
  refine ⟨fun tol htol => ⟨fun h => ⟨_, congrArg Host.Outcome.next (railSample_counts htol hon h),
      railsCounted_changesOnly tol s, rfl, rfl⟩, fun r n hr hout hn h2 hoff => ⟨_, rfl, ?_⟩⟩,
    fun cd bd iod => ⟨fun hdies hiod => ⟨_, exec_dieTempSample hon cd bd iod,
      dieTemps_cool hs.quads_length hdies hiod⟩, fun hot hoff => ?_⟩,
    fun w l hl => ⟨_, exec_powerSample hon w, ?_⟩⟩
  · rw [railSample_outside htol hon hoff]
    exact each_railFailed (List.ne_nil_of_mem (mem_railsFailed r.isLt hr hout hn h2)) hoff
  · obtain ⟨hka, hnum, hmem⟩ := diesSampled_hot hot hoff
    exact ⟨_, exec_dieTempSample hon cd bd iod, hka, hnum, hmem, setClocks_stopped hka⟩
  · have hmeter := powerSampled_metering w s
    have hsamples := (congrArg Prod.fst hmeter).trans (capStep_samples _)
    have hcap := congrArg (fun m => m.2.1) hmeter
    have hlow := congrArg (fun m => m.2.2) hmeter
    dsimp only at hsamples hcap hlow
    obtain rfl : (powerTaken w s).pwr.samples = l := hl.symm
    refine ⟨hsamples, fun h => hcap.trans (capStep_above h), fun hle hge hep => hcap.trans (capStep_between hle hge hep),
      fun h => ⟨hlow.trans (capStep_below h).1, hcap.trans (capStep_below h).2⟩, fun h => ?_,
      fun t0 h0 hlate hc hoff habove => powerLimited_late h0 hlate hc hoff habove⟩
    rw [powerLimited_fresh h]
    exact powerStepped_keepalive w s

end Sys2Proof.Machine
end

section
/-! Optical engines, references that stop, and the links of the media ports (02 R18, 18 R339, 20 R377, 23 R413). -/

namespace Sys2Proof.Machine

/-! ### One turn of a loop -/

/-- A loop over entries with keys of their own, each of which leaves what belongs to another key: what belongs to the key of
an entry is as that entry's turn leaves it. -/
theorem each_turn {α β : Type} {m : Nat} {f : State → α → State} (key : α → Nat) (v : State → β) {x : α}
    (hf : ∀ s y, Within m s (f s y)) {l : List α}
    (hother : ∀ s, ∀ y ∈ l, key y ≠ key x → v (f s y) = v s) (hl : l.Pairwise fun a b => key a ≠ key b) (hx : x ∈ l) (s : State) :
    ∃ u, Within m s u ∧ v u = v s ∧ v (each l f s) = v (f u x) := by
  induction l generalizing s with
  | nil => exact absurd hx List.not_mem_nil
  | cons y l ih =>
    obtain ⟨hy, hl⟩ := List.pairwise_cons.mp hl
    by_cases hxy : x = y
    · subst hxy
      exact ⟨s, .refl _ _, rfl, List.foldlRecOn (motive := fun u => v u = v (f s x)) l f rfl
        fun u hu z hz => (hother u z (List.mem_cons_of_mem _ hz) (hy z hz).symm).trans hu⟩
    · have hxl : x ∈ l := (List.mem_cons.mp hx).resolve_left hxy
      obtain ⟨u, hwithin, hu, hleft⟩ := ih (fun s z hz => hother s z (List.mem_cons_of_mem _ hz)) hl hxl (f s y)
      exact ⟨u, (hf s y).trans hwithin, hu.trans (hother s y List.mem_cons_self (hy x hxl)), hleft⟩

/-- The readings of a sample, each with its number. -/
theorem zip_range_keys (n : Nat) (l : List Int) : ((List.range n).zip l).Pairwise fun a b => a.1 ≠ b.1 := by
  refine List.pairwise_iff_getElem.mpr fun i j hi hj hij => ?_
  simpa using Nat.ne_of_lt hij

theorem mem_zip_range {n k : Nat} {l : List Int} {x : Int} (hk : k < n) (hx : l[k]? = some x) :
    (k, x) ∈ (List.range n).zip l :=
  List.mem_of_getElem? (i := k) (List.getElem?_zip_eq_some.mpr ⟨List.getElem?_range hk, hx⟩)

theorem not_bnot {b : Bool} (h : b = true) : ¬ (!b) = true := by simp [h]

/-! ### The engine of a link (R377) -/

/-- The reading of a link's engine is kept, and since when it is below 80 °C. -/
def linkRead (s : State) (k : Nat) (t : Int) : State :=
  modPwr (ctrGauge s (ctrLink k 7) t) fun p => { p with
    toLink := p.toLink.set k t
    linkCool := p.linkCool.set k (coolFor1s s.time 80 t (s.pwr.linkCool.getD k none)).1 }

theorem linkRead_linkAt (s : State) (k : Nat) (t : Int) (j : Nat) : linkAt (linkRead s k t) j = linkAt s j := rfl

section
variable {s : State} {k : Nat} {t : Int}

theorem linkOptic_heats (h : (linkAt s k).hot = false) (ht : 85 ≤ t) : linkOptic s k t =
    raise (linkOut k (modLink (linkRead s k t) k fun l => { l with hot := true })) bPWR 20 (locOptic k) noSeq 0 :=
  (if_pos (by exact congrArg (!·) h)).trans (if_pos ht)

theorem linkOptic_below (h : (linkAt s k).hot = false) (ht : t < 85) : linkOptic s k t = linkRead s k t :=
  (if_pos (by exact congrArg (!·) h)).trans (if_neg (Int.not_le.mpr ht))

theorem linkOptic_cooled (h : (linkAt s k).hot = true)
    (hcool : (coolFor1s s.time 80 t (s.pwr.linkCool.getD k none)).2 = true) :
    linkOptic s k t = trainLink k (modLink (linkRead s k t) k fun l => { l with hot := false }) :=
  (if_neg (not_bnot h)).trans (if_pos hcool)

theorem linkOptic_waits (h : (linkAt s k).hot = true)
    (hcool : (coolFor1s s.time 80 t (s.pwr.linkCool.getD k none)).2 = false) : linkOptic s k t = linkRead s k t :=
  (if_neg (not_bnot h)).trans (if_neg (by rw [hcool]; decide))

end

theorem linkOut_linkAt (k : Nat) (s : State) (j : Nat) : linkAt (linkOut k s) j =
    linkAt (modLink s k fun l => { l with active := false, training := false }) j := portCheck_linkAt _ _ _

theorem portCheck_linkCool (p : Nat) (s : State) : (portCheck p s).pwr.linkCool = s.pwr.linkCool := by
  unfold portCheck
  split
  · obtain ⟨e, he⟩ := raise_pwr (modPort s p fun q => { q with state := .down }) bLNK 11 (locPort p) noSeq 0
    rw [he]
    rfl
  · rfl

theorem linkOptic_linkCool (s : State) (k : Nat) (t : Int) :
    (linkOptic s k t).pwr.linkCool = (linkRead s k t).pwr.linkCool := by
  cases h : (linkAt s k).hot with
  | false =>
    by_cases ht : 85 ≤ t
    · rw [linkOptic_heats h ht]
      obtain ⟨e, he⟩ := raise_pwr (linkOut k (modLink (linkRead s k t) k fun l => { l with hot := true })) bPWR 20
        (locOptic k) noSeq 0
      rw [he]
      exact portCheck_linkCool _ _
    · rw [linkOptic_below h (Int.not_le.mp ht)]
  | true =>
    cases hcool : (coolFor1s s.time 80 t (s.pwr.linkCool.getD k none)).2 with
    | false => rw [linkOptic_waits h hcool]
    | true =>
      rw [linkOptic_cooled h hcool, (trainLink_within (M := 8200) k _ (by decide) (.refl _ _)).pwr.resolve_left (by decide)]
      rfl

theorem linkOptic_linkAt_other {s : State} {j k : Nat} (t : Int) (h : j ≠ k) : linkAt (linkOptic s k t) j = linkAt s j := by
  cases hhot : (linkAt s k).hot with
  | false =>
    by_cases ht : 85 ≤ t
    · rw [linkOptic_heats hhot ht, raise_linkAt, linkOut_linkAt, linkAt_modLink_other _ h, linkAt_modLink_other _ h,
        linkRead_linkAt]
    · rw [linkOptic_below hhot (Int.not_le.mp ht), linkRead_linkAt]
  | true =>
    cases hcool : (coolFor1s s.time 80 t (s.pwr.linkCool.getD k none)).2 with
    | false => rw [linkOptic_waits hhot hcool, linkRead_linkAt]
    | true => rw [linkOptic_cooled hhot hcool, trainLink_other _ h, linkAt_modLink_other _ h, linkRead_linkAt]

theorem linkOptic_changes (s : State) (k : Nat) (t : Int) : Within 117465130 s (linkOptic s k t) :=
  linkOptic_within s k t (by decide) (.refl _ _)

theorem linkOptic_hot {s : State} {k : Nat} {t : Int} (hk : k < s.link.length) (h : (linkAt s k).hot = false) (ht : 85 ≤ t) :
    (linkAt (linkOptic s k t) k).hot = true ∧ (linkAt (linkOptic s k t) k).active = false := by
  rw [linkOptic_heats h ht, raise_linkAt, linkOut_linkAt, linkAt_modLink_same _ (by simpa [modLink, linkRead, modPwr, ctrGauge, ctrSet] using hk),
    linkAt_modLink_same _ (by exact hk)]
  exact ⟨rfl, rfl⟩

theorem trainLink_hot (k : Nat) (s : State) (j : Nat) : (linkAt (trainLink k s) j).hot = (linkAt s j).hot := by
  unfold trainLink
  dsimp only
  split
  · rfl
  · rw [emit_linkAt]
    exact linkAt_modLink_field (·.hot) _ _ _ fun _ => rfl

/-- A hot link is held off no longer once its engine has been below 80 °C for 1 s. -/
theorem linkOptic_cool {s : State} {k : Nat} {t : Int} {t0 : Nat} (hk : k < s.link.length) (h : (linkAt s k).hot = true)
    (ht : t < 80) (hsince : s.pwr.linkCool[k]? = some (some t0)) (hlate : t0 + second ≤ s.time) :
    (linkAt (linkOptic s k t) k).hot = false := by
  have hcool : (coolFor1s s.time 80 t (s.pwr.linkCool.getD k none)).2 = true := by
    rw [List.getD_eq_getElem?_getD, hsince]
    unfold coolFor1s
    rw [if_pos ht]
    exact decide_eq_true hlate
  rw [linkOptic_cooled h hcool, trainLink_hot, linkAt_modLink_same _ (by exact hk)]

/-! ### The engine of a media port (R377) -/

/-- A link that goes down, of a port of no 2022-7 pair or with MED.020 (R339). -/
def MPortSt.down (m : MPortSt) : MPortSt :=
  { m with linkUp := false, ptpLocked := false, t1 := none, t2 := none, t3 := none }

@[simp] theorem raise_mportAt (s : State) (block num : Nat) (l : BitVec 32) (seq : Nat) (detail : Word64) (p : Nat) :
    mportAt (raise s block num l seq detail) p = mportAt s p := by
  unfold mportAt
  rw [(raise_changes s block num l seq detail).mport.resolve_left (by decide)]

theorem mportAt_modMport_same {s : State} {p : Nat} (f : MPortSt → MPortSt) (h : p < s.mport.length) :
    mportAt (modMport s p f) p = f (mportAt s p) :=
  (mportAt_modMport ..).trans (if_pos ⟨rfl, h⟩)

theorem mportAt_modMport_other {s : State} {p j : Nat} (f : MPortSt → MPortSt) (h : j ≠ p) :
    mportAt (modMport s p f) j = mportAt s j :=
  (mportAt_modMport ..).trans (if_neg fun e => h e.1)

theorem mportDown_mportAt_other {p j : Nat} (s : State) (h : j ≠ p) : mportAt (mportDown p s) j = mportAt s j := by
  unfold mportDown
  dsimp only
  split
  · rfl
  · split
    · rw [raise_mportAt, mportAt_modMport_other _ h]
    · exact mportAt_modMport_other _ h

theorem mportDown_mportAt {p : Nat} {s : State} (hp : p < s.mport.length) (h : (mportAt s p).linkUp = true) :
    mportAt (mportDown p s) p = (mportAt s p).down := by
  unfold mportDown
  dsimp only
  rw [if_neg (by simp [h])]
  split
  · rw [raise_mportAt, mportAt_modMport_same _ hp]
    rfl
  · exact mportAt_modMport_same _ hp

theorem mportDown_already {p : Nat} {s : State} (h : (mportAt s p).linkUp = false) : mportDown p s = s :=
  if_pos (by simp [h])

theorem mportDown_down {p : Nat} {s : State} (hp : p < s.mport.length) : (mportAt (mportDown p s) p).linkUp = false := by
  cases h : (mportAt s p).linkUp with
  | false => rw [mportDown_already h, h]
  | true =>
    rw [mportDown_mportAt hp h]
    rfl

theorem mportDown_hot {p : Nat} {s : State} (hp : p < s.mport.length) :
    (mportAt (mportDown p s) p).hot = (mportAt s p).hot := by
  cases h : (mportAt s p).linkUp with
  | false => rw [mportDown_already h]
  | true =>
    rw [mportDown_mportAt hp h]
    rfl

theorem mportDown_changes (p : Nat) (s : State) : Within 118489122 s (mportDown p s) :=
  mportDown_within p s (by decide) (.refl _ _)

/-- The limit of a media engine. -/
def mediaLimit (p : Nat) : Int := if p < 2 then 95 else 85

/-- The reading of a media engine is kept, and since when it is 5 °C below its limit. -/
def mediaRead (s : State) (p : Nat) (t : Int) : State :=
  modMport (modPwr (ctrGauge s (ctrMedia p 4) t) fun w => { w with toMedia := w.toMedia.set p t }) p fun m =>
    { m with coolSince := (coolFor1s s.time (mediaLimit p - 5) t (mportAt s p).coolSince).1 }

section
variable {s : State} {p : Nat} {t : Int}

theorem mediaOptic_cold (h : (mportAt s p).hot = false) : mediaOptic s p t =
    if mediaLimit p ≤ t then mportDown p (raise (modMport (mediaRead s p t) p fun m => { m with hot := true }) bPWR 20
      (locOptic (32 + p)) noSeq 0) else mediaRead s p t :=
  if_pos (by exact congrArg (!·) h)

theorem mediaOptic_was_hot (h : (mportAt s p).hot = true) : mediaOptic s p t =
    if (coolFor1s s.time (mediaLimit p - 5) t (mportAt s p).coolSince).2 then
      modMport (mediaRead s p t) p fun m => { m with hot := false } else mediaRead s p t :=
  if_neg (not_bnot h)

theorem mediaRead_other {j : Nat} (h : j ≠ p) : mportAt (mediaRead s p t) j = mportAt s j :=
  mportAt_modMport_other _ h

theorem mediaOptic_other {j : Nat} (h : j ≠ p) : mportAt (mediaOptic s p t) j = mportAt s j := by
  cases hhot : (mportAt s p).hot with
  | false =>
    rw [mediaOptic_cold hhot]
    split
    · rw [mportDown_mportAt_other _ h, raise_mportAt, mportAt_modMport_other _ h, mediaRead_other h]
    · exact mediaRead_other h
  | true =>
    rw [mediaOptic_was_hot hhot]
    split
    · rw [mportAt_modMport_other _ h, mediaRead_other h]
    · exact mediaRead_other h

theorem mediaOptic_hot (hp : p < s.mport.length) (h : (mportAt s p).hot = false) (ht : mediaLimit p ≤ t) :
    (mportAt (mediaOptic s p t) p).hot = true ∧ (mportAt (mediaOptic s p t) p).linkUp = false := by
  have hlen : p < (modMport (mediaRead s p t) p fun m => { m with hot := true }).mport.length := by
    simpa [modMport, mediaRead, modPwr, ctrGauge, ctrSet] using hp
  have hlen' : p < (raise (modMport (mediaRead s p t) p fun m => { m with hot := true }) bPWR 20
      (locOptic (32 + p)) noSeq 0).mport.length := by
    rw [(raise_changes _ _ _ _ _ _).mport.resolve_left (by decide)]
    exact hlen
  rw [mediaOptic_cold h, if_pos ht]
  refine ⟨?_, mportDown_down hlen'⟩
  rw [mportDown_hot hlen', raise_mportAt, mportAt_modMport_same]
  simpa [modMport] using hlen

theorem mediaOptic_changes (s : State) (p : Nat) (t : Int) : Within 118489122 s (mediaOptic s p t) :=
  mediaOptic_within s p t (by decide) (.refl _ _)

end

/-! ### The samples of the optical engines -/

/-- The links' samples of a list. -/
def linksSampled (links : List Int) (s : State) : State :=
  each ((List.range 32).zip links) (fun s p => linkOptic s p.1 p.2) s

/-- The media ports' samples of a list. -/
def mediaSampled (media : List Int) (s : State) : State :=
  each ((List.range 4).zip media) (fun s p => mediaOptic s p.1 p.2) s

theorem exec_opticalTempSample {s : State} (hon : awake s = true) (links media : List Int) :
    exec (.opticalTempSample links media) s = .next (mediaSampled media (linksSampled links s)) := by
  refine congrArg Host.Outcome.next ?_
  unfold opticalTempSample
  rw [hon]
  rfl

theorem linksSampled_changes (links : List Int) (s : State) : Within 117465130 s (linksSampled links s) := by
  unfold linksSampled
  exact each_changes (f := fun s (p : Nat × Int) => linkOptic s p.1 p.2) _ (fun s p => linkOptic_changes s p.1 p.2) s

theorem mediaSampled_changes (media : List Int) (s : State) : Within 118489122 s (mediaSampled media s) := by
  unfold mediaSampled
  exact each_changes (f := fun s (p : Nat × Int) => mediaOptic s p.1 p.2) _ (fun s p => mediaOptic_changes s p.1 p.2) s

/-- What a sample of a link's engine reads. -/
def opticView (k : Nat) (s : State) : LinkSt × Option (Option Nat) × Nat := (linkAt s k, s.pwr.linkCool[k]?, s.time)

theorem opticView_other {j k : Nat} (h : j ≠ k) (s : State) (t : Int) : opticView k (linkOptic s j t) = opticView k s := by
  have hcool : (linkOptic s j t).pwr.linkCool[k]? = s.pwr.linkCool[k]? := by
    rw [linkOptic_linkCool]
    exact List.getElem?_set_ne h
  unfold opticView
  rw [linkOptic_linkAt_other t h.symm, hcool, (linkOptic_changes s j t).time.resolve_left (by decide)]

section
variable {s : State} {links : List Int} {k : Link} {x : Int} (hs : Sound s) (hx : links[k.val]? = some x)
include hs hx

/-- A link stands after the samples as its own sample leaves it. -/
theorem linksSampled_linkAt : ∃ u, k.val < u.link.length ∧ linkAt u k = linkAt s k ∧
    u.pwr.linkCool[k.val]? = s.pwr.linkCool[k.val]? ∧ u.time = s.time ∧
    linkAt (linksSampled links s) k = linkAt (linkOptic u k x) k := by
  obtain ⟨u, hwithin, hu, hleft⟩ := each_turn (f := fun s (p : Nat × Int) => linkOptic s p.1 p.2) Prod.fst (opticView k)
    (x := (k.val, x)) (fun s p => linkOptic_changes s p.1 p.2) (fun s p _ hp => opticView_other hp s p.2)
    (zip_range_keys 32 links) (mem_zip_range k.isLt hx) s
  have hlen : k.val < u.link.length := by
    rw [(hwithin.sound hs).link_length]
    exact k.isLt
  exact ⟨u, hlen, congrArg Prod.fst hu, congrArg (fun v => v.2.1) hu, congrArg (fun v => v.2.2) hu, congrArg Prod.fst hleft⟩

theorem linksSampled_hot (h : (linkAt s k).hot = false) (ht : 85 ≤ x) :
    (linkAt (linksSampled links s) k).hot = true ∧ (linkAt (linksSampled links s) k).active = false := by
  obtain ⟨u, hlen, hlink, -, -, hleft⟩ := linksSampled_linkAt hs hx
  rw [hleft]
  exact linkOptic_hot hlen (hlink ▸ h) ht

theorem linksSampled_below (h : (linkAt s k).hot = false) (ht : x < 85) :
    linkAt (linksSampled links s) k = linkAt s k := by
  obtain ⟨u, -, hlink, -, -, hleft⟩ := linksSampled_linkAt hs hx
  rw [hleft, linkOptic_below (hlink ▸ h) ht, linkRead_linkAt, hlink]

theorem linksSampled_cool {t0 : Nat} (h : (linkAt s k).hot = true) (ht : x < 80)
    (hsince : s.pwr.linkCool[k.val]? = some (some t0)) (hlate : t0 + second ≤ s.time) :
    (linkAt (linksSampled links s) k).hot = false := by
  obtain ⟨u, hlen, hlink, hcool, htime, hleft⟩ := linksSampled_linkAt hs hx
  rw [hleft]
  exact linkOptic_cool hlen (hlink ▸ h) ht (hcool.trans hsince) (htime ▸ hlate)

end

theorem mediaSampled_linkAt (media : List Int) (s : State) (k : Nat) : linkAt (mediaSampled media s) k = linkAt s k :=
  linkAt_congr ((mediaSampled_changes media s).link.resolve_left (by decide)) k

theorem mediaSampled_hot {s : State} {media : List Int} {p : MPort} {x : Int} (hs : Sound s) (hx : media[p.val]? = some x)
    (h : (mportAt s p).hot = false) (ht : mediaLimit p ≤ x) :
    (mportAt (mediaSampled media s) p).hot = true ∧ (mportAt (mediaSampled media s) p).linkUp = false := by
  obtain ⟨u, hwithin, hu, hleft⟩ := each_turn (f := fun s (q : Nat × Int) => mediaOptic s q.1 q.2) Prod.fst
    (fun s => mportAt s p) (x := (p.val, x)) (fun s q => mediaOptic_changes s q.1 q.2) (fun _ _ _ hq => mediaOptic_other hq.symm)
    (zip_range_keys 4 media) (mem_zip_range p.isLt hx) s
  have hlen : p.val < u.mport.length := by
    rw [(hwithin.sound hs).mport_length]
    exact p.isLt
  unfold mediaSampled
  rw [hleft]
  exact mediaOptic_hot hlen (hu ▸ h) ht

/-! ### References that stop (23 R413) -/

theorem exec_refclk156LStop {s : State} (h : linksOn s = true) : exec .refclk156LStop s = .next (refclkLStop s) :=
  congrArg Host.Outcome.next (if_pos h)

theorem exec_refclk156LStop_off {s : State} (h : linksOn s = false) : exec .refclk156LStop s = .next s :=
  congrArg Host.Outcome.next (if_neg (by simp [h]))

theorem exec_refclk156MStop (s : State) : exec .refclk156MStop s = .next (refclkMStop s) := rfl

theorem linkRetrain_changes (k : Nat) (s : State) : Within 117465130 s (linkRetrain k s) :=
  linkRetrain_within k s (by decide) (.refl _ _)

theorem linkRetrain_inactive {s : State} (hs : Sound s) {k : Nat} (hk : k < 32) : (linkAt (linkRetrain k s) k).active = false := by
  cases h : (linkAt s k).active with
  | true => exact (linkRetrain_leaves hs hk h).1
  | false =>
    unfold linkRetrain
    rw [if_pos (by simp [h]), h]

theorem linkRetrain_other {j k : Nat} (h : j ≠ k) (s : State) : linkAt (linkRetrain k s) j = linkAt s j := by
  cases hact : (linkAt s k).active with
  | true => rw [linkRetrain_active hact, trainLink_other _ h, portCheck_linkAt, linkLeaving_other _ h]
  | false =>
    unfold linkRetrain
    rw [if_pos (by simp [hact])]

theorem range_keys (n : Nat) : (List.range n).Pairwise fun a b => id a ≠ id b := List.nodup_range

theorem linkAt_beyond {s : State} {k : Nat} (h : s.link.length ≤ k) : linkAt s k = LinkSt.reset := by
  unfold linkAt unit
  rw [List.getD_eq_getElem?_getD, List.getElem?_eq_none h, Option.getD_none]

theorem refclkLStop_changes (s : State) : Within 117465130 s (refclkLStop s) :=
  refclkLStop_within s (by decide) (.refl _ _)

/-- Every lane has lost its signal: no link is active. -/
theorem refclkLStop_inactive {s : State} (hs : Sound s) (k : Nat) : (linkAt (refclkLStop s) k).active = false := by
  by_cases hk : k < 32
  · obtain ⟨u, hwithin, -, hleft⟩ := each_turn (f := fun s j => linkRetrain j s) id (fun s => linkAt s k) (x := k)
      (fun s j => linkRetrain_changes j s) (fun s j _ hj => linkRetrain_other (Ne.symm hj) s) (range_keys 32)
      (List.mem_range.mpr hk) s
    exact (congrArg LinkSt.active hleft).trans (linkRetrain_inactive (hwithin.sound hs) hk)
  · rw [linkAt_beyond (by rw [((refclkLStop_changes s).sound hs).link_length]; exact Nat.not_lt.mp hk)]
    rfl

/-- Every media port has lost its link. -/
def portsDown (s : State) : State := each (List.range 4) (fun s p => mportDown p s) s

theorem portsDown_changes (s : State) : Within 118489122 s (portsDown s) := each_changes _ (fun s p => mportDown_changes p s) s

theorem portsDown_down {s : State} (hs : Sound s) (p : Nat) : (mportAt (portsDown s) p).linkUp = false := by
  by_cases hp : p < 4
  · obtain ⟨u, hwithin, -, hleft⟩ := each_turn (f := fun s q => mportDown q s) id (fun s => mportAt s p) (x := p)
      (fun s q => mportDown_changes q s) (fun s q _ hq => mportDown_mportAt_other s (Ne.symm hq)) (range_keys 4)
      (List.mem_range.mpr hp) s
    exact (congrArg MPortSt.linkUp hleft).trans (mportDown_down (by rw [(hwithin.sound hs).mport_length]; exact hp))
  · have hlen : (portsDown s).mport.length ≤ p := by
      rw [((portsDown_changes s).sound hs).mport_length]
      exact Nat.not_lt.mp hp
    unfold mportAt unit
    rw [List.getD_eq_getElem?_getD, List.getElem?_eq_none hlen]
    rfl

theorem ptpLost_changes (d : Nat) (s : State) : Within 117440546 s (ptpLost d s) := ptpLost_within d s (by decide) (.refl _ _)

theorem ptpLost_other {d : Dom} {e : Nat} (s : State) (h : e ≠ d) : domAt (ptpLost d s) e = domAt s e := by
  unfold ptpLost
  dsimp only
  split
  · rfl
  · rw [domAt_raise_tck_other h, domAt_modDom_other _ h]

theorem mportDown_dom (p : Nat) (s : State) : (mportDown p s).dom = s.dom := by
  unfold mportDown
  dsimp only
  split
  · rfl
  · split
    · rw [raise_dom, evSummary_dom_other _ _ (.inl (by decide))]
      rfl
    · rfl

theorem refclkMStop_ports (s : State) (p : Nat) : mportAt (refclkMStop s) p = mportAt (portsDown s) p := by
  unfold mportAt
  rw [← (each_changes (List.range 4) (fun s d => ptpLost_changes d s) (portsDown s)).mport.resolve_left (by decide)]
  rfl

theorem refclkMStop_changes (s : State) : Within 118489122 s (refclkMStop s) :=
  refclkMStop_within s (by decide) (.refl _ _)

theorem domAt_face (s : State) (d : Nat) : (domAt s d).face = (s.dom.map DomSt.face).getD d DomSt.reset.face :=
  (List.getD_map ..).symm

/-- A tick number is not touched (R18). -/
theorem refclkMStop_tickNo (s : State) (d : Nat) : (domAt (refclkMStop s) d).tickNo = (domAt s d).tickNo := by
  refine DomSt.tickNo_of_face ?_
  rw [domAt_face, domAt_face, (refclkMStop_changes s).phases.resolve_left (by decide)]

theorem domAt_beyond {s : State} {d : Nat} (h : s.dom.length ≤ d) : domAt s d = DomSt.reset := by
  unfold domAt unit
  rw [List.getD_eq_getElem?_getD, List.getElem?_eq_none h, Option.getD_none]

/-- A domain with time from a PTP source goes into holdover (R18). -/
theorem refclkMStop_holdover {s : State} (hs : Sound s) {d : Nat} (hr : (domAt s d).running = true)
    (hsrc : (domAt s d).source = 1) (ht : (domAt s d).hasTime = true) : (domAt (refclkMStop s) d).holdover = true := by
  have hd : d < 4 := by
    refine Nat.lt_of_not_le fun hle => ?_
    rw [domAt_beyond (by rw [hs.dom_length]; exact hle)] at hr
    exact Bool.false_ne_true hr
  obtain ⟨u, hwithin, hu, hleft⟩ := each_turn (f := fun s e => ptpLost e s) id (fun s => domAt s d) (x := d)
    (fun s e => ptpLost_changes e s)
    (fun s e he hne => ptpLost_other (d := ⟨e, List.mem_range.mp he⟩) s (Ne.symm hne)) (range_keys 4)
    (List.mem_range.mpr hd) (portsDown s)
  have hsound : Sound u := hwithin.sound ((portsDown_changes s).sound hs)
  have hdom : domAt u d = domAt s d := by
    refine hu.trans (domAt_congr ?_ d)
    exact each_field (v := State.dom) (fun s p => mportDown_dom p s) _ s
  refine (congrArg DomSt.holdover hleft).trans ?_
  rw [(ptpLost_holds_over (d := ⟨d, hd⟩) hsound (hdom ▸ hr) (hdom ▸ hsrc) (hdom ▸ ht)).1]

/-! ### The links of the media ports (R339) -/

theorem exec_mediaLinkLoss (p : MPort) (s : State) : exec (.mediaLinkLoss p) s = .next (mportDown p s) := rfl

theorem exec_mediaLinkUp (p : MPort) (s : State) : exec (.mediaLinkUp p) s = .next (mportUp p s) := rfl

theorem mportUp_up {p : Nat} {s : State} (hpow : (mportAt s p).powered = true) (hhot : (mportAt s p).hot = false) :
    mportUp p s = modMport s p fun m => { m with linkUp := true } := if_pos (by simp [hpow, hhot])

theorem mportUp_held {p : Nat} {s : State} (h : (mportAt s p).powered = false ∨ (mportAt s p).hot = true) :
    mportUp p s = s := if_neg (by rcases h with h | h <;> simp [h])

/-- Settles O58: each engine's own sample, the links of a stopped reference, and the media ports one by one. -/
theorem opticsReferencesAndMediaLinks : Obligations.OpticsReferencesAndMediaLinks := by
  intro s hs
  refine ⟨fun hon links media => ⟨_, exec_opticalTempSample hon links media, ?_, fun k x hx => ?_, fun p x hx hcold ht => ?_⟩,
    fun hlinks => ⟨_, exec_refclk156LStop hlinks, refclkLStop_inactive hs, (refclkLStop_changes s).only rfl⟩,
    exec_refclk156LStop_off, ⟨_, exec_refclk156MStop s, fun p => ?_, fun d => ⟨refclkMStop_tickNo s d,
      refclkMStop_holdover hs⟩⟩, fun p => ⟨⟨_, exec_mediaLinkLoss p s, ?_, fun k hk => mportDown_mportAt_other s hk, ?_⟩,
        fun h => ⟨_, (exec_mediaLinkUp p s).trans (congrArg Host.Outcome.next (mportUp_up h.1 h.2)), ?_, ?_,
          fun k hk => mportAt_modMport_other _ hk⟩,
        fun h => (exec_mediaLinkUp p s).trans (congrArg Host.Outcome.next (mportUp_held h))⟩⟩
  · rw [(mediaSampled_changes media _).keepalive.resolve_left (by decide),
      (linksSampled_changes links s).keepalive.resolve_left (by decide)]
  · rw [mediaSampled_linkAt]
    exact ⟨linksSampled_hot hs hx, linksSampled_below hs hx, fun t0 => linksSampled_cool hs hx⟩
  · have hports : mportAt (linksSampled links s) p = mportAt s p := by
      unfold mportAt
      rw [(linksSampled_changes links s).mport.resolve_left (by decide)]
    exact mediaSampled_hot ((linksSampled_changes links s).sound hs) hx (hports ▸ hcold) ht
  · rw [refclkMStop_ports]
    exact portsDown_down hs p
  · exact mportDown_down (by rw [hs.mport_length]; exact p.isLt)
  · exact (mportDown_changes p s).only rfl
  · exact (modMport_within (M := 1048576) _ _ _ (by decide) (.refl _ _)).only rfl
  · exact mportAt_modMport_same _ (by rw [hs.mport_length]; exact p.isLt)

end Sys2Proof.Machine
end

section
/-! Resets, and boot from step 1 to the wait for the repair list (19 R352-R356, Table 19.5, 20 R371, 23 R413). What a reset
keeps is log entry 138; the endpoint that stays off without an image is log entry 136. -/

namespace Sys2Proof.Machine

/-! ### What holds the device in reset -/

theorem exec_sysRstAssert (s : State) : exec .sysRstAssert s = .next (sysRst s) := rfl

theorem exec_sysclk25Stop (s : State) : exec .sysclk25Stop s = .next (sysclkStop s) := rfl

/-- VAON has left its tolerance. -/
def vaonOut (s : State) : State := modPwr (deviceReset s) fun p => { p with vaonOk := false, thermtrip := false }

theorem exec_railSample_vaon {tol : List Bool} (h : tol.getD 0 true = false) (s : State) :
    exec (.railSample tol) s = .next (vaonOut s) := by
  refine congrArg Host.Outcome.next ?_
  unfold railSample
  rw [h]
  rfl

/-- The device in reset: what is as after reset, and what stays. -/
def InReset (s t : State) : Prop :=
  t.boot.inReset = true ∧ t.dom = State.reset.dom ∧ t.seq = State.reset.seq ∧ t.cl = State.reset.cl ∧
    t.eng = State.reset.eng ∧ t.link = State.reset.link ∧ t.cod = State.reset.cod ∧ t.flow = State.reset.flow ∧
    t.xlt = State.reset.xlt ∧ t.ev = State.reset.ev ∧ t.mem.on = false ∧ t.mem.stack = [] ∧ t.st.host = s.st.host ∧
    t.snp.store = s.snp.store ∧ t.boot.flash = s.boot.flash ∧ t.boot.fuses = s.boot.fuses ∧
    t.boot.prefer = s.boot.prefer ∧ t.out = s.out

theorem sysRst_inReset (s : State) : InReset s (sysRst s) :=
  ⟨rfl, rfl, rfl, rfl, rfl, rfl, rfl, rfl, rfl, rfl, rfl, rfl, rfl, rfl, rfl, rfl, rfl, rfl⟩

theorem sysclkStop_inReset (s : State) : InReset s (sysclkStop s) :=
  ⟨rfl, rfl, rfl, rfl, rfl, rfl, rfl, rfl, rfl, rfl, rfl, rfl, rfl, rfl, rfl, rfl, rfl, rfl⟩

theorem vaonOut_inReset (s : State) : InReset s (vaonOut s) :=
  ⟨rfl, rfl, rfl, rfl, rfl, rfl, rfl, rfl, rfl, rfl, rfl, rfl, rfl, rfl, rfl, rfl, rfl, rfl⟩

/-- What holds the device: the pin, SYSCLK25 and VAON. -/
abbrev State.holders (s : State) : Bool × Bool × Bool := (s.boot.rstPin, s.pwr.sysclk, s.pwr.vaonOk)

/-- Each of the three causes puts the device into reset and adds one holder. -/
theorem resets (s : State) (i : Instr) (tol : List Bool)
    (h : i = .sysRstAssert ∨ i = .sysclk25Stop ∨ (i = .railSample tol ∧ tol.getD 0 true = false)) :
    ∃ t, exec i s = .next t ∧ InReset s t ∧ t.boot.rstPin = (s.boot.rstPin || i == .sysRstAssert) ∧
      t.pwr.sysclk = (s.pwr.sysclk && i != .sysclk25Stop) ∧ t.pwr.vaonOk = (s.pwr.vaonOk && i != .railSample tol) := by
  obtain rfl | rfl | ⟨rfl, hv⟩ := h
  · exact ⟨_, exec_sysRstAssert s, sysRst_inReset s, by simp [sysRst, modBoot], by simp [sysRst, modBoot, deviceReset],
      by simp [sysRst, modBoot, deviceReset]⟩
  · exact ⟨_, exec_sysclk25Stop s, sysclkStop_inReset s, by simp [sysclkStop, modPwr, deviceReset],
      by simp [sysclkStop, modPwr], by simp [sysclkStop, modPwr, deviceReset]⟩
  · exact ⟨_, exec_railSample_vaon hv s, vaonOut_inReset s, by simp [vaonOut, modPwr, deviceReset],
      by simp [vaonOut, modPwr, deviceReset], by simp [vaonOut, modPwr]⟩

/-! ### The image (R351, R352) -/

/-- Whether an image is valid, and with which configuration, depends on the flash and the fuses. -/
theorem validImage_congr {x y : BootSt} (hflash : x.flash = y.flash) (hfuses : x.fuses = y.fuses) (b : Bool) :
    validImage x b = validImage y b := by
  obtain ⟨hsvn, hrest⟩ := Prod.mk.inj hfuses
  obtain ⟨hkeys, hrevoked⟩ := Prod.mk.inj hrest
  unfold validImage signatureOk
  rw [hflash, hsvn, hkeys, hrevoked]

/-- Reset is released: steps 1 and 2. -/
def bootStart (s : State) : State :=
  modHif (modBoot s fun b => { b with inReset := false, step := 2 }) fun h => { h with epPowered := true }

theorem bootStart_validImage (s : State) (b : Bool) : validImage (bootStart s).boot b = validImage s.boot b :=
  validImage_congr rfl rfl b

/-- The selection of the image serves one boot (R365). -/
def unselected (s : State) : State := modBoot s fun b => { b with prefer := none }

theorem bootRun_eq (s : State) : bootRun s =
    match (pickImage (bootStart s)).1 with
    | some (b, c) => bootImage b c (unselected (pickImage (bootStart s)).2)
    | none => bootNone (unselected (pickImage (bootStart s)).2) := by
  unfold bootRun
  rfl

theorem pickImage_first {s : State} {c : ImageCfg} (h : validImage s.boot (firstImage s.boot) = some c) :
    pickImage s = (some (firstImage s.boot, c), s) := by
  unfold pickImage
  dsimp only
  rw [h]

theorem imageBad_boot (b : Bool) (s : State) : (imageBad b s).boot = s.boot := raise_boot _ _ _ _ _ _

theorem imageBad_out (b : Bool) (s : State) : (imageBad b s).out = s.out := raise_out _ _ _ _ _ _

theorem pickImage_none {s : State} (h : ∀ b, validImage s.boot b = none) :
    pickImage s = (none, imageBad (!firstImage s.boot) (imageBad (firstImage s.boot) s)) := by
  unfold pickImage
  dsimp only
  rw [h]
  dsimp only
  rw [imageBad_boot, h]

theorem pickImage_boot (s : State) : (pickImage s).2.boot = s.boot := by
  unfold pickImage
  dsimp only
  split
  · rfl
  · split
    · exact imageBad_boot _ _
    · exact (imageBad_boot _ _).trans (imageBad_boot _ _)

/-! ### Steps 3 and 4, or no image (R353, R355) -/

/-- An image is chosen, and boot waits in step 4. -/
def BootSt.chosen (b : Bool) (c : ImageCfg) (h : ImgHeader) (x : BootSt) : BootSt :=
  { x with image := b, imageSeq := h.seq % 2 ^ 32, svn := h.svn, keySlot := h.keySlot, cfg := c, step := 4 }

/-- The tick domains and the media ports as the always-on configuration leaves them. -/
def bootConfigured (s : State) : State :=
  each (List.range 4) (fun s p => modMport s p fun m => { m with powered := true }) (each (List.range 4) domBoot s)

theorem bootConfigured_changes (s : State) : Within 9664725024 s (bootConfigured s) :=
  each_within _ _ _ (by decide) (fun s p => modMport_within s p _ (by decide) (.refl _ _))
    (each_within _ _ _ (by decide) (fun s d => domBoot_within s d (by decide) (.refl _ _)) (.refl _ _))

theorem bootImage_eq (b : Bool) (c : ImageCfg) (s : State) : bootImage b c s =
    emit (setClocks (bootConfigured (modBoot s (BootSt.chosen b c (imgHeader s.boot.flash b))))) .askRepairs := by
  unfold bootImage bootConfigured
  rfl

theorem setClocks_boot (s : State) : (setClocks s).boot = s.boot := rfl

theorem bootImage_boot (b : Bool) (c : ImageCfg) (s : State) :
    (bootImage b c s).boot = s.boot.chosen b c (imgHeader s.boot.flash b) := by
  rw [bootImage_eq, emit_boot, setClocks_boot, (bootConfigured_changes _).boot.resolve_left (by decide)]
  rfl

/-- The domains and ports configured, nothing else of what boot leaves is touched. -/
theorem bootImage_hif (b : Bool) (c : ImageCfg) (s : State) : (bootImage b c s).hif = s.hif :=
  (bootImage_within (M := 9683599400) b c s (by decide) (.refl _ _)).hif.resolve_left (by decide)

theorem emit_out (s : State) (o : Out) : (emit s o).out = o :: s.out := rfl

theorem setClocks_out (s : State) : (setClocks s).out = s.out := rfl

theorem bootImage_out (b : Bool) (c : ImageCfg) (s : State) : (bootImage b c s).out = .askRepairs :: s.out := by
  rw [bootImage_eq, emit_out, setClocks_out, (bootConfigured_changes _).out.resolve_left (by decide)]
  rfl

theorem bootNone_boot (s : State) : (bootNone s).boot = { s.boot with noImage := true, step := 15 } :=
  congrArg (fun b : BootSt => { b with noImage := true, step := 15 }) (raise_boot s bBOT 3 locDevice noSeq 0)

theorem bootNone_epPowered (s : State) : (bootNone s).hif.epPowered = false := rfl

theorem bootNone_out (s : State) : (bootNone s).out = s.out := raise_out s bBOT 3 locDevice noSeq 0

/-! ### Boot from step 1 -/

theorem bootRun_chosen {s : State} {c : ImageCfg} (h : validImage s.boot (firstImage s.boot) = some c) :
    bootRun s = bootImage (firstImage s.boot) c (unselected (bootStart s)) := by
  have hpick : pickImage (bootStart s) = (some (firstImage s.boot, c), bootStart s) :=
    pickImage_first ((bootStart_validImage s _).trans h)
  rw [bootRun_eq, hpick]

theorem bootRun_none {s : State} (h : ∀ b, validImage s.boot b = none) :
    bootRun s = bootNone (unselected (imageBad (!firstImage s.boot) (imageBad (firstImage s.boot) (bootStart s)))) := by
  have hpick : pickImage (bootStart s) =
      (none, imageBad (!firstImage s.boot) (imageBad (firstImage s.boot) (bootStart s))) :=
    pickImage_none fun b => (bootStart_validImage s b).trans (h b)
  rw [bootRun_eq, hpick]

/-- Boot leaves reset, and keeps the flash and the fuses. -/
theorem bootRun_leaves (s : State) : (bootRun s).boot.inReset = false ∧ (bootRun s).boot.flash = s.boot.flash ∧
    (bootRun s).boot.fuses = s.boot.fuses := by
  have hboot : (unselected (pickImage (bootStart s)).2).boot = { s.boot with inReset := false, step := 2, prefer := none } :=
    congrArg (fun b : BootSt => { b with prefer := none }) (pickImage_boot (bootStart s))
  rw [bootRun_eq]
  split
  · rw [bootImage_boot, hboot]
    exact ⟨rfl, rfl, rfl⟩
  · rw [bootNone_boot, hboot]
    exact ⟨rfl, rfl, rfl⟩

/-- A device that boots from reset: what stays, the image that it takes, and what a device without one keeps on. -/
def Booted (s t : State) : Prop :=
  t.boot.inReset = false ∧ t.boot.flash = s.boot.flash ∧ t.boot.fuses = s.boot.fuses ∧
    (∀ c, validImage s.boot (firstImage s.boot) = some c →
      t.boot.image = firstImage s.boot ∧ t.boot.cfg = c ∧ t.boot.step = 4 ∧ t.boot.noImage = s.boot.noImage ∧
      t.hif.epPowered = true ∧ t.out = .askRepairs :: s.out) ∧
    (validImage s.boot false = none → validImage s.boot true = none →
      t.boot.noImage = true ∧ t.hif.epPowered = false ∧ t.out = s.out)

theorem bootRun_booted (s : State) : Booted s (bootRun s) := by
  obtain ⟨hreset, hflash, hfuses⟩ := bootRun_leaves s
  refine ⟨hreset, hflash, hfuses, fun c hc => ?_, fun h0 h1 => ?_⟩
  · rw [bootRun_chosen hc, bootImage_boot, bootImage_hif, bootImage_out]
    exact ⟨rfl, rfl, rfl, rfl, rfl, rfl⟩
  · rw [bootRun_none (Bool.forall_bool.mpr ⟨h0, h1⟩), bootNone_boot, bootNone_epPowered, bootNone_out]
    refine ⟨rfl, rfl, ?_⟩
    unfold unselected
    exact (imageBad_out _ _).trans (imageBad_out _ _)

/-- What boot is about depends on the flash, the fuses, the selection, NO_IMAGE and the outputs. -/
theorem Booted.congr {r s t : State} (h : Booted r t) (hflash : r.boot.flash = s.boot.flash)
    (hfuses : r.boot.fuses = s.boot.fuses) (hprefer : r.boot.prefer = s.boot.prefer)
    (hnone : r.boot.noImage = s.boot.noImage) (hout : r.out = s.out) : Booted s t := by
  have hvalid := validImage_congr hflash hfuses
  have hfirst : firstImage r.boot = firstImage s.boot := by
    unfold firstImage
    rw [hflash, hprefer]
  unfold Booted at h ⊢
  rw [hfirst, hflash, hfuses, hnone, hout] at h
  simpa only [hvalid] using h

theorem bootIfFree_free {s : State} (hreset : s.boot.inReset = true) (hpin : s.boot.rstPin = false)
    (hvaon : s.pwr.vaonOk = true) (hclk : s.pwr.sysclk = true) : bootIfFree s = bootRun s :=
  if_pos (by simp [hreset, hpin, hvaon, hclk])

theorem bootIfFree_held {s : State} (h : s.pwr.vaonOk = false ∨ s.pwr.sysclk = false) : bootIfFree s = s :=
  if_neg (by rcases h with h | h <;> simp [h])

/-- The pin is released, and the channels that fail the next training are named (log entry 5). -/
def pinReleased (u : List Channel) (s : State) : State :=
  { modBoot s fun b => { b with rstPin := false } with mem := { s.mem with untrainable := u.map (·.val) } }

theorem exec_boot {s : State} (h : s.boot.inReset = true) (u : List Channel) :
    exec (.boot u) s = .next (bootIfFree (pinReleased u s)) := congrArg Host.Outcome.next (if_neg (by simp [h]))

theorem exec_vaonRecover {s : State} (h : s.pwr.vaonOk = false) :
    exec .vaonRecover s = .next (bootIfFree (modPwr s fun p => { p with vaonOk := true })) :=
  congrArg Host.Outcome.next (if_neg (by simp [h]))

theorem exec_sysclk25Return {s : State} (h : s.pwr.sysclk = false) :
    exec .sysclk25Return s = .next (bootIfFree (modPwr s fun p => { p with sysclk := true })) :=
  congrArg Host.Outcome.next (if_neg (by simp [h]))

/-- BOOT, VAON_RECOVER and SYSCLK25_RETURN boot the device that nothing else holds. -/
theorem boots {s : State} (hreset : s.boot.inReset = true) (u : List Channel) (i : Instr)
    (h : (i = .boot u ∧ s.pwr.vaonOk = true ∧ s.pwr.sysclk = true) ∨
      (i = .vaonRecover ∧ s.boot.rstPin = false ∧ s.pwr.vaonOk = false ∧ s.pwr.sysclk = true) ∨
      (i = .sysclk25Return ∧ s.boot.rstPin = false ∧ s.pwr.vaonOk = true ∧ s.pwr.sysclk = false)) :
    ∃ t, exec i s = .next t ∧ Booted s t := by
  obtain ⟨rfl, hvaon, hclk⟩ | ⟨rfl, hpin, hvaon, hclk⟩ | ⟨rfl, hpin, hvaon, hclk⟩ := h
  · refine ⟨_, exec_boot hreset u, ?_⟩
    rw [bootIfFree_free (by exact hreset) (by rfl) (by exact hvaon) (by exact hclk)]
    exact (bootRun_booted _).congr rfl rfl rfl rfl rfl
  · refine ⟨_, exec_vaonRecover hvaon, ?_⟩
    rw [bootIfFree_free (by exact hreset) (by exact hpin) (by rfl) (by exact hclk)]
    exact (bootRun_booted _).congr rfl rfl rfl rfl rfl
  · refine ⟨_, exec_sysclk25Return hclk, ?_⟩
    rw [bootIfFree_free (by exact hreset) (by exact hpin) (by exact hvaon) (by rfl)]
    exact (bootRun_booted _).congr rfl rfl rfl rfl rfl

theorem pinReleased_changesOnly (u : List Channel) (s : State) : ChangesOnly [.boot, .mem] s (pinReleased u s) := by
  intro p hp
  cases p with
  | boot => exact absurd (by decide) hp
  | mem => exact absurd (by decide) hp
  | _ => rfl

/-! ### RESET (Table 19.5) -/

section
variable {s : State} (hreset : s.boot.inReset = false) (hpin : s.boot.rstPin = false) (hvaon : s.pwr.vaonOk = true)
  (hclk : s.pwr.sysclk = true)
include hreset hpin hvaon hclk

theorem exec_reset (inst : Byte) : exec (.reset inst) s = .next (bootRun (deviceReset (reply inst msDone [] s))) :=
  congrArg Host.Outcome.next ((if_neg (by simp [hreset])).trans (bootIfFree_free rfl hpin hvaon hclk))

theorem reset_boots (inst : Byte) {c : ImageCfg} (hc : validImage s.boot (firstImage s.boot) = some c) :
    ∃ t, exec (.reset inst) s = .next t ∧ t.boot.inReset = false ∧ t.boot.step = 4 ∧ t.boot.cfg = c ∧
      t.boot.sealed = false ∧ t.cl = State.reset.cl ∧ t.seq = State.reset.seq ∧ t.st.host = s.st.host ∧
      t.out = .askRepairs :: .reply inst msDone [] :: s.out := by
  have hfirst : firstImage (deviceReset (reply inst msDone [] s)).boot = firstImage s.boot := rfl
  have hvalid : validImage (deviceReset (reply inst msDone [] s)).boot
      (firstImage (deviceReset (reply inst msDone [] s)).boot) = some c := (validImage_congr rfl rfl _).trans hc
  refine ⟨_, exec_reset hreset hpin hvaon hclk inst, ?_⟩
  rw [bootRun_chosen hvalid, bootImage_boot, bootImage_out]
  have hleft := bootImage_within (M := 9683599400) (firstImage (deviceReset (reply inst msDone [] s)).boot) c
    (unselected (bootStart (deviceReset (reply inst msDone [] s)))) (by decide) (.refl _ _)
  rw [hleft.cl.resolve_left (by decide), hleft.seq.resolve_left (by decide), hleft.st.resolve_left (by decide)]
  exact ⟨rfl, rfl, rfl, rfl, rfl, rfl, rfl, rfl⟩

end

/-- Settles O52: each cause of a reset, each command that ends one, and RESET, which answers first. -/
theorem resetsAndBoots : Obligations.ResetsAndBoots := by
  intro s u
  refine ⟨fun i tol h => ?_, fun hreset i h => boots hreset u i h, fun hreset held => ⟨_, exec_boot hreset u, ?_⟩,
    fun hreset hpin hvaon hclk inst c hc => reset_boots hreset hpin hvaon hclk inst hc⟩
  · simpa only [InReset, and_assoc] using resets s i tol h
  · rw [bootIfFree_held (by exact held)]
    exact ⟨pinReleased_changesOnly u s, rfl, rfl⟩

end Sys2Proof.Machine
end

section
/-! The repair list, training and the seal, and the exit from keep-alive mode (10 R188, R196, 19 R356-R358, 20 R379). That an
attempt is one step without a repair list is log entries 114 and 138. -/

namespace Sys2Proof.Machine

/-! ### The repair list (R356) -/

theorem awaitsRepairs_state {s : State} (h : awaitsRepairs s = true) :
    s.boot.step = 4 ∧ s.boot.inReset = false ∧ s.pwr.keepalive = false := by
  simpa [awaitsRepairs, and_assoc] using h

/-- The entries of a message are applied in order. -/
def repairsApplied (es : List Word64) (s : State) : State := each es repairApply s

section
variable {s : State} (hwait : awaitsRepairs s = true) {es : List Word64} (hne : es ≠ []) (hle : es.length ≤ 32)
include hwait hne hle

theorem setRepairs_taken (inst : Byte) (final : Bool) : setRepairs inst final es s =
    if final then bootTrain (reply inst msDone [] (repairsApplied es s)) else reply inst msDone [] (repairsApplied es s) :=
  (if_neg (by simp [hwait])).trans (if_neg (by simp [hne, hle]))

theorem exec_setRepairs (inst : Byte) (final : Bool) : exec (.setRepairs inst final es) s = .next
    (if final then bootTrain (reply inst msDone [] (repairsApplied es s)) else reply inst msDone [] (repairsApplied es s)) :=
  congrArg Host.Outcome.next ((if_neg (by simp [(awaitsRepairs_state hwait).2.1])).trans
    (setRepairs_taken hwait hne hle inst final))

end

theorem exec_repairListTimeout {s : State} (h : awaitsRepairs s = true) :
    exec .repairListTimeout s = .next (bootTrain (raise s bBOT 10 locDevice noSeq 0)) :=
  congrArg Host.Outcome.next (if_pos h)

/-- One more entry has been received. -/
def BootSt.counted (x : BootSt) : BootSt := { x with repairCount := x.repairCount + 1 }

theorem repairApply_boot (s : State) (v : Word64) : (repairApply s v).boot = s.boot.counted := by
  unfold repairApply repairIgnored
  dsimp only
  split
  · exact raise_boot _ _ _ _ _ _
  · split
    · exact raise_boot _ _ _ _ _ _
    · split
      · exact raise_boot _ _ _ _ _ _
      · rfl

theorem repairApply_untrainable (s : State) (v : Word64) : (repairApply s v).mem.untrainable = s.mem.untrainable := by
  unfold repairApply repairIgnored
  dsimp only
  split
  · rw [raise_mem]
    rfl
  · split
    · rw [raise_mem]
      rfl
    · split
      · rw [raise_mem]
        rfl
      · rfl

/-- An entry for a lane or a row with a free spare is listed with that spare. -/
theorem repairApply_listed {s : State} {v : Word64} {r : Repair} {sp : Nat} (hcount : s.boot.repairCount < 16384)
    (hr : repairEntry v = some r) (hsp : spareFor s r = some sp) :
    (repairApply s v).mem.bootRepairs = s.mem.bootRepairs ++ [{ r with spare := sp }] := by
  have hsp' : spareFor (modBoot s BootSt.counted) r = some sp := hsp
  unfold BootSt.counted at hsp'
  unfold repairApply
  dsimp only
  rw [if_neg (Nat.not_le.mpr hcount), hr]
  dsimp only
  rw [hsp']
  rfl

theorem repairApply_changes (s : State) (v : Word64) : Within 119537954 s (repairApply s v) :=
  repairApply_within s v (by decide) (.refl _ _)

theorem repairsApplied_changes (es : List Word64) (s : State) : Within 119537954 s (repairsApplied es s) :=
  each_changes es repairApply_changes s

theorem repairsApplied_boot (es : List Word64) (s : State) :
    (repairsApplied es s).boot = { s.boot with repairCount := s.boot.repairCount + es.length } := by
  unfold repairsApplied
  induction es generalizing s with
  | nil => rfl
  | cons v es ih =>
    refine (ih (repairApply s v)).trans ?_
    rw [repairApply_boot]
    simp [BootSt.counted, Nat.add_assoc, Nat.add_comm]

theorem repairsApplied_untrainable (es : List Word64) (s : State) :
    (repairsApplied es s).mem.untrainable = s.mem.untrainable :=
  each_field (v := fun s => s.mem.untrainable) repairApply_untrainable es s

/-! ### Training (R357, 10 R188, R196) -/

theorem raiseFatal_again {s : State} (block num : Nat) (l : BitVec 32) (detail : Word64) (cause : Cause)
    (h : s.pwr.keepalive = true) : raiseFatal s block num l detail cause = raise s block num l noSeq detail :=
  enterKeepalive_again _ _ _ (by rw [raise_keepalive]; exact h)

/-- In keep-alive mode a channel that fails changes no power register, and no stack comes on. -/
theorem trainFail_again {s : State} (h : s.pwr.keepalive = true) (ch : Nat) :
    (trainFail s ch).pwr = s.pwr ∧ (trainFail s ch).mem.on = s.mem.on := by
  unfold trainFail channelFail
  rw [raiseFatal_again _ _ _ _ _ (by exact h), raise_pwr_other _ _ _ _ _ (by decide), raise_mem]
  exact ⟨rfl, rfl⟩

/-- The first channel that fails its training brings keep-alive mode, with the stacks off. -/
theorem trainFail_first {s : State} (h : s.pwr.keepalive = false) (ch : Nat) :
    (trainFail s ch).pwr.keepalive = true ∧ (trainFail s ch).mem.on = false := by
  refine ⟨channelFail_keepalive s ch, ?_⟩
  unfold trainFail channelFail raiseFatal
  rw [(enterKeepalive_first bMEM 23 .other (by rw [raise_keepalive]; exact h)).2.2.2]
  rfl

theorem each_trainFail_again {s : State} (h : s.pwr.keepalive = true) (l : List Nat) :
    (each l trainFail s).pwr = s.pwr ∧ (each l trainFail s).mem.on = s.mem.on :=
  each_keeps (P := fun u => u.pwr = s.pwr ∧ u.mem.on = s.mem.on) (l := l) (s := s)
    (fun u ch _ hu => by
      obtain ⟨hpwr, hmem⟩ := trainFail_again (by rw [hu.1]; exact h) ch
      exact ⟨hpwr.trans hu.1, hmem.trans hu.2⟩) ⟨rfl, rfl⟩

theorem each_trainFail_fails {s : State} (h : s.pwr.keepalive = false) {l : List Nat} (hne : l ≠ []) :
    (each l trainFail s).pwr.keepalive = true ∧ (each l trainFail s).mem.on = false := by
  cases l with
  | nil => exact absurd rfl hne
  | cons ch l =>
    obtain ⟨hka, hoff⟩ := trainFail_first h ch
    obtain ⟨hpwr, hon⟩ := each_trainFail_again hka l
    exact ⟨(congrArg PwrSt.keepalive hpwr).trans hka, hon.trans hoff⟩

theorem each_trainFail_boot (l : List Nat) (s : State) : (each l trainFail s).boot = s.boot :=
  each_field (v := State.boot) (fun s ch =>
    (trainFail_within (M := 2673831842) s ch (by decide) (.refl _ _)).boot.resolve_left (by decide)) l s

/-- Step 5 begins: what the training meets is taken. -/
def trainingStarts (s : State) : State :=
  modBoot { s with mem := { s.mem with untrainable := [] } } fun b => { b with step := 5 }

theorem bootTrain_passes {s : State} (h : s.mem.untrainable = []) :
    bootTrain s = bootSeal { trainingStarts s with mem := stacksInit (trainingStarts s).mem } :=
  if_pos (by rw [h]; rfl)

theorem bootTrain_fails {s : State} (h : s.mem.untrainable ≠ []) :
    bootTrain s = each s.mem.untrainable trainFail (trainingStarts s) :=
  if_neg (by simpa using h)

/-- The wait for the repair list ends in the seal, or in keep-alive mode. -/
theorem bootTrain_ends {s : State} (h : s.pwr.keepalive = false) :
    (s.mem.untrainable = [] → (bootTrain s).boot.sealed = true ∧ (bootTrain s).boot.step = 7 ∧
      (bootTrain s).mem.on = true ∧ (bootTrain s).mem.stack = [] ∧ (bootTrain s).pwr.keepalive = false) ∧
    (s.mem.untrainable ≠ [] → (bootTrain s).pwr.keepalive = true ∧ (bootTrain s).boot.sealed = s.boot.sealed ∧
      (bootTrain s).mem.on = false) := by
  refine ⟨fun hall => ?_, fun hbad => ?_⟩
  · rw [bootTrain_passes hall]
    exact ⟨rfl, rfl, rfl, rfl, h⟩
  · obtain ⟨hka, hoff⟩ := each_trainFail_fails (s := trainingStarts s) h hbad
    rw [bootTrain_fails hbad, each_trainFail_boot]
    exact ⟨hka, rfl, hoff⟩

/-! ### An attempt to leave keep-alive mode that fails (20 R379, 22 R403) -/

theorem exec_exitAttempt (l : List Channel) (rails : Bool) (s : State) :
    exec (.exitAttempt l rails) s = .next (exitAttempt (l.map (·.val)) rails s) := rfl

theorem exitAttempt_early {s : State} (h : exitMay s = false) (l : List Nat) (rails : Bool) : exitAttempt l rails s = s :=
  if_pos (by simp [h])

theorem exitMay_keepalive {s : State} (h : exitMay s = true) : s.pwr.keepalive = true := by
  unfold exitMay at h
  simp only [Bool.and_eq_true] at h
  exact h.1.1.1

/-- An attempt has failed, and a new wait begins. -/
def waitingAgain (cause : Cause) (s : State) : State :=
  modPwr s fun p => { p with
    attempts := p.attempts + 1, cause := cause, enteredAt := s.time, coolSince := none, railSince := none }

theorem exitFail_eq (cause : Cause) (s : State) : exitFail cause s =
    if 3 ≤ (waitingAgain cause s).pwr.attempts then
      raise (modPwr (waitingAgain cause s) fun p => { p with exhausted := true }) bPWR 13 locDevice noSeq 0
    else waitingAgain cause s := rfl

/-- What a failed attempt leaves: keep-alive mode with its cause, and one attempt more. -/
theorem exitFail_leaves (cause : Cause) (s : State) : (exitFail cause s).pwr.keepalive = s.pwr.keepalive ∧
    (exitFail cause s).pwr.attempts = s.pwr.attempts + 1 ∧ (exitFail cause s).pwr.causeNum = s.pwr.causeNum ∧
    (exitFail cause s).pwr.causeMem = s.pwr.causeMem ∧ (exitFail cause s).mem = s.mem := by
  rw [exitFail_eq]
  split
  · obtain ⟨e, he⟩ := raise_pwr (modPwr (waitingAgain cause s) fun p => { p with exhausted := true }) bPWR 13 locDevice
      noSeq 0
    rw [raise_mem, he]
    exact ⟨rfl, rfl, rfl, rfl, rfl⟩
  · exact ⟨rfl, rfl, rfl, rfl, rfl⟩

/-- An attempt that a rail fails. -/
def lostToRail (s : State) : State :=
  exitFail .rail (exitCause false 11 (raise (drew s) bPWR 11 (locRail (badRail s)) noSeq 0))

/-- An attempt that channels fail. -/
def lostToChannels (l : List Nat) (s : State) : State :=
  exitFail .other (exitCause true 23 (each l trainFail { s with mem := unfail s.mem }))

/-- A rail that is out of tolerance fails the attempt, and nothing of the memory is touched. -/
theorem lostToRail_leaves {s : State} (h : s.pwr.keepalive = true) : (lostToRail s).pwr.keepalive = true ∧
    (lostToRail s).pwr.attempts = s.pwr.attempts + 1 ∧ (lostToRail s).pwr.causeNum = 11 ∧
    (lostToRail s).pwr.causeMem = false ∧ (lostToRail s).mem = s.mem := by
  obtain ⟨hka, hattempts, hnum, hcause, hmem⟩ :=
    exitFail_leaves .rail (exitCause false 11 (raise (drew s) bPWR 11 (locRail (badRail s)) noSeq 0))
  obtain ⟨e, he⟩ := raise_pwr (drew s) bPWR 11 (locRail (badRail s)) noSeq 0
  unfold lostToRail
  rw [hka, hattempts, hnum, hcause, hmem]
  unfold exitCause modPwr
  rw [he, raise_mem]
  exact ⟨h, rfl, rfl, rfl, rfl⟩

/-- A channel that fails its training fails the attempt. -/
theorem lostToChannels_leaves {s : State} (h : s.pwr.keepalive = true) (l : List Nat) :
    (lostToChannels l s).pwr.keepalive = true ∧ (lostToChannels l s).pwr.attempts = s.pwr.attempts + 1 ∧
      (lostToChannels l s).pwr.causeNum = 23 ∧ (lostToChannels l s).pwr.causeMem = true := by
  obtain ⟨hka, hattempts, hnum, hcause, -⟩ :=
    exitFail_leaves .other (exitCause true 23 (each l trainFail { s with mem := unfail s.mem }))
  unfold lostToChannels
  rw [hka, hattempts, hnum, hcause]
  unfold exitCause modPwr
  rw [(each_trainFail_again (s := { s with mem := unfail s.mem }) h l).1]
  exact ⟨h, rfl, rfl, rfl⟩

theorem any_failed_eq_false {l : List Nat} (h : ∀ r ∈ l, r < 3) : l.any (3 ≤ ·) = false :=
  List.any_eq_false.mpr fun r hr => by simpa using h r hr

theorem validImage_not_none {s : State} (himage : (validImage s.boot s.boot.image).isSome = true) :
    ¬ (validImage s.boot s.boot.image).isNone = true := by
  rw [Option.isNone_iff_eq_none]
  exact Option.isSome_iff_ne_none.mp himage

section
variable {s : State} (hmay : exitMay s = true) (himage : (validImage s.boot s.boot.image).isSome = true)
include hmay himage

theorem exitAttempt_rails (l : List Nat) : exitAttempt l true s = lostToRail s :=
  (if_neg (by simp [hmay])).trans ((if_neg (validImage_not_none himage)).trans (if_pos rfl))

theorem exitAttempt_channels {l : List Nat} (hne : l ≠ []) (hrails : ∀ r ∈ s.pwr.railBad, r < 3) :
    exitAttempt l false s = lostToChannels l s :=
  (if_neg (by simp [hmay])).trans ((if_neg (validImage_not_none himage)).trans
    ((if_neg (by rw [any_failed_eq_false hrails]; decide)).trans (if_pos (by simpa using hne))))

theorem exitAttempt_leaves (hrails : ∀ r ∈ s.pwr.railBad, r < 3) : exitAttempt [] false s = exitDone s :=
  (if_neg (by simp [hmay])).trans ((if_neg (validImage_not_none himage)).trans
    ((if_neg (by rw [any_failed_eq_false hrails]; decide)).trans (if_neg (by decide))))

end

/-! ### The exit (R358, R379) -/

/-- The parts as the exit brings them back. -/
def exitRestored (s : State) : State :=
  { s with
    mem := stacksRaw (stacksInit s.mem)
    cl := s.cl.map fun k => { k with powered := k.dom.isSome }
    eng := List.replicate 64 EngSt.reset
    wgt := List.replicate 16 ModelSt.reset
    dom := s.dom.map fun x => { x with lastRej := none, consOwn := false }
    self := { s.self with lastRej := none }
    snp := { s.snp with lastRej := none }
    hif := { s.hif with epPowered := true, stPowered := true, stAt := s.time, stKnown := false }
    pwr := { s.pwr with keepalive := false, coolSince := none, railSince := none } }

/-- The device is sealed, if it was not yet, with window 0. -/
def exitSealed (s : State) : State :=
  modBoot (if (exitRestored s).boot.sealed then exitRestored s else bootSeal (exitRestored s)) fun b => { b with win := 0 }

/-- The media ports are powered, every link trains, and PWR.012 is raised. -/
def exitRunning (s : State) : State :=
  raise (trainAll (each [2, 3] (fun s p => modMport s p fun m => { m with powered := true }) (setClocks (exitSealed s))))
    bPWR 12 locDevice noSeq 0

theorem exitDone_eq (s : State) : exitDone s =
    each (List.range 128) (exitCtx (codecWaiting s)) (each (List.range 32) exitSlot (exitRunning s)) := by
  unfold exitDone exitRunning exitSealed exitRestored
  dsimp only

theorem exitSealed_boot (s : State) : (exitSealed s).boot.sealed = true ∧ (exitSealed s).boot.win = 0 := by
  unfold exitSealed
  cases h : (exitRestored s).boot.sealed with
  | true =>
    rw [if_pos rfl]
    exact ⟨h, rfl⟩
  | false =>
    rw [if_neg (by decide)]
    exact ⟨rfl, rfl⟩

theorem exitSealed_keepalive (s : State) : (exitSealed s).pwr.keepalive = false := by
  unfold exitSealed
  split <;> rfl

theorem exitSealed_ctxs (s : State) : (exitSealed s).cod = s.cod := by
  unfold exitSealed
  split <;> rfl

/-- After the seal: the event path, the links and ports, the media ports and the outputs. -/
theorem exitRunning_changes (s : State) : Within 118513706 (exitSealed s) (exitRunning s) :=
  raise_within _ _ _ _ _ _ (by decide) (trainAll_within _ (by decide)
    (each_within _ _ _ (by decide) (fun s p => modMport_within s p _ (by decide) (.refl _ _))
      (setClocks_within _ (by decide) (.refl _ _))))

theorem exitSlots_changes (s : State) : Within 251663842 s (each (List.range 32) exitSlot s) :=
  each_changes _ (fun s n => exitSlot_within s n (by decide) (.refl _ _)) s

theorem exitCtxs_changes (lost : List (Nat × DmaCmd)) (s : State) :
    Within 251925994 s (each (List.range 128) (exitCtx lost) s) :=
  each_changes _ (fun s i => exitCtx_within lost s i (by decide) (.refl _ _)) s

theorem exitDone_boot (s : State) : (exitDone s).boot = (exitSealed s).boot := by
  rw [exitDone_eq, (exitCtxs_changes _ _).boot.resolve_left (by decide),
    (exitSlots_changes _).boot.resolve_left (by decide), (exitRunning_changes s).boot.resolve_left (by decide)]

theorem exitDone_keepalive (s : State) : (exitDone s).pwr.keepalive = false := by
  rw [exitDone_eq, (exitCtxs_changes _ _).keepalive.resolve_left (by decide),
    (exitSlots_changes _).keepalive.resolve_left (by decide), (exitRunning_changes s).keepalive.resolve_left (by decide),
    exitSealed_keepalive]

/-! ### The codec contexts at the exit (17 R332) -/

theorem ctxAt_congr {s t : State} (h : t.cod = s.cod) (k : Nat) : ctxAt t k = ctxAt s k := by
  unfold ctxAt
  rw [h]

theorem complete_cod (s : State) (e : Nat) (c : DmaCmd) (status : Nat) : (complete s e c status).cod = s.cod :=
  (complete_within (M := 251663850) s e c status (by decide) (.refl _ _)).cod.resolve_left (by decide)

theorem each_complete_cod {α : Type} (e : α → Nat) (c : α → DmaCmd) (l : List α) (s : State) :
    (each l (fun s p => complete s (e p) (c p) stABORTED) s).cod = s.cod :=
  each_field (v := State.cod) (fun s p => complete_cod s (e p) (c p) stABORTED) l s

theorem raise_cod (s : State) (block num : Nat) (l : BitVec 32) (seq : Nat) (detail : Word64) :
    (raise s block num l seq detail).cod = s.cod :=
  (raise_changes s block num l seq detail).cod.resolve_left (by decide)

theorem exitCtx_open {lost : List (Nat × DmaCmd)} {s : State} {i : Nat} (h : (ctxAt s i).desc.isNone = false) :
    (exitCtx lost s i).cod = (modCtx s i fun _ => CtxSt.reset).cod := by
  unfold exitCtx
  dsimp only
  rw [if_neg (by rw [h]; decide), raise_cod, each_complete_cod Prod.fst Prod.snd, each_complete_cod Prod.fst Prod.snd,
    each_complete_cod Picture.eng Picture.cmd]

theorem exitCtx_closed {lost : List (Nat × DmaCmd)} {s : State} {i : Nat} (h : (ctxAt s i).desc.isNone = true) :
    exitCtx lost s i = s := if_pos h

theorem exitCtx_other {lost : List (Nat × DmaCmd)} {s : State} {i k : Nat} (hk : k ≠ i) :
    ctxAt (exitCtx lost s i) k = ctxAt s k := by
  cases h : (ctxAt s i).desc.isNone with
  | true => rw [exitCtx_closed h]
  | false => rw [ctxAt_congr (exitCtx_open h), ctxAt_modCtx, if_neg fun e => hk e.1]

theorem exitCtx_closes {lost : List (Nat × DmaCmd)} {s : State} {i : Nat} (hi : i < s.cod.ctxs.length) :
    (ctxAt (exitCtx lost s i) i).desc = none := by
  cases h : (ctxAt s i).desc.isNone with
  | true =>
    rw [exitCtx_closed h]
    exact Option.isNone_iff_eq_none.mp h
  | false =>
    rw [ctxAt_congr (exitCtx_open h), ctxAt_modCtx, if_pos ⟨rfl, hi⟩]
    rfl

theorem exitCtx_length (lost : List (Nat × DmaCmd)) (s : State) (i : Nat) :
    (exitCtx lost s i).cod.ctxs.length = s.cod.ctxs.length := by
  cases h : (ctxAt s i).desc.isNone with
  | true => rw [exitCtx_closed h]
  | false =>
    rw [exitCtx_open h]
    exact List.length_modify ..

theorem Sound.ctxs_length {s : State} (h : Sound s) : s.cod.ctxs.length = 128 := by
  obtain ⟨⟨-, -, -, -, -, -, -, -, hc, -⟩, -⟩ := h
  exact hc

theorem ctxAt_beyond {s : State} {k : Nat} (h : s.cod.ctxs.length ≤ k) : ctxAt s k = CtxSt.reset := by
  unfold ctxAt unit
  rw [List.getD_eq_getElem?_getD, List.getElem?_eq_none h, Option.getD_none]

/-- No context is open after the exit. -/
theorem exitDone_ctx {s : State} (hs : Sound s) (k : Nat) : (ctxAt (exitDone s) k).desc = none := by
  have hlen : (each (List.range 32) exitSlot (exitRunning s)).cod.ctxs.length = 128 := by
    rw [(exitSlots_changes _).cod.resolve_left (by decide), (exitRunning_changes s).cod.resolve_left (by decide),
      exitSealed_ctxs, hs.ctxs_length]
  rw [exitDone_eq]
  by_cases hk : k < 128
  · obtain ⟨u, hwithin, hu, hleft⟩ := each_turn (m := 251925994) (f := exitCtx (codecWaiting s)) id (fun s => (ctxAt s k, s.cod.ctxs.length))
      (x := k) (fun s i => exitCtx_within _ s i (by decide) (.refl _ _))
      (fun s i _ hi => congrArg₂ Prod.mk (exitCtx_other (Ne.symm hi)) (exitCtx_length _ s i)) (range_keys 128)
      (List.mem_range.mpr hk) (each (List.range 32) exitSlot (exitRunning s))
    obtain ⟨-, hulen⟩ := Prod.mk.inj hu
    obtain ⟨hctx, -⟩ := Prod.mk.inj hleft
    rw [hctx]
    exact exitCtx_closes (by rw [hulen, hlen]; exact hk)
  · rw [ctxAt_beyond]
    · rfl
    · rw [each_field (v := fun s => s.cod.ctxs.length) (exitCtx_length (codecWaiting s)), hlen]
      exact Nat.not_lt.mp hk

/-- Settles O53: the wait for the repair list and what ends it; an exit attempt before its time, one that fails, and one
that brings the device back. -/
theorem trainingSealsOrFails : Obligations.TrainingSealsOrFails := by
  intro s hs
  refine ⟨fun hwait => ⟨fun inst es hne hle => ⟨_, _, exec_setRepairs hwait hne hle inst false, rfl,
      (repairsApplied_changes es s).only rfl, ?_, ?_, fun v r sp hes hcount hr hsp => ?_⟩, fun i inst es h => ?_⟩,
    fun hearly l rails => ?_, fun _ hmay himage => ⟨fun hrails => ⟨_, exec_exitAttempt [] false s, ?_⟩,
      fun l => ⟨_, exec_exitAttempt l true s, ?_⟩, fun l hne hrails => ⟨_, exec_exitAttempt l false s, ?_⟩⟩⟩
  · rw [repairsApplied_boot]
    exact (awaitsRepairs_state hwait).1
  · rw [repairsApplied_boot]
  · rw [hes]
    exact repairApply_listed hcount hr hsp
  · obtain ⟨-, -, hka⟩ := awaitsRepairs_state hwait
    obtain ⟨rfl, hne, hle⟩ | rfl := h
    · refine ⟨_, exec_setRepairs hwait hne hle inst true, ?_⟩
      have hends := bootTrain_ends (s := reply inst msDone [] (repairsApplied es s))
        (((repairsApplied_changes es s).keepalive.resolve_left (by decide)).trans hka)
      have hmem : (reply inst msDone [] (repairsApplied es s)).mem.untrainable = s.mem.untrainable :=
        repairsApplied_untrainable es s
      have hsealed : (reply inst msDone [] (repairsApplied es s)).boot.sealed = s.boot.sealed :=
        (congrArg BootSt.sealed (repairsApplied_boot es s)).trans rfl
      rw [hmem, hsealed] at hends
      exact hends
    · refine ⟨_, exec_repairListTimeout hwait, ?_⟩
      have hends := bootTrain_ends (s := raise s bBOT 10 locDevice noSeq 0) (by rw [raise_keepalive]; exact hka)
      rwa [raise_mem, raise_boot] at hends
  · rw [exec_exitAttempt, exitAttempt_early hearly]
  · rw [show ([] : List Channel).map (·.val) = [] from rfl, exitAttempt_leaves hmay himage hrails, exitDone_boot]
    obtain ⟨hsealed, hwin⟩ := exitSealed_boot s
    exact ⟨exitDone_keepalive s, hsealed, hwin, exitDone_ctx hs⟩
  · rw [exitAttempt_rails hmay himage]
    exact lostToRail_leaves (exitMay_keepalive hmay)
  · rw [exitAttempt_channels hmay himage (by simpa using hne) hrails]
    exact lostToChannels_leaves (exitMay_keepalive hmay) _

end Sys2Proof.Machine
end

section
/-! Host accesses: registers by their offset, BAR2, and the PCIe links (19 R358-R364, Table 19.5, 22 R399, 23 R413). A write
of another width that changes nothing is log entry 104; a reset before the seal without BOT.020 is log entry 138. -/

namespace Sys2Proof.Machine

/-! ### Registers by their offset (R360, R363) -/

theorem exec_registerWrite (a : RegPlace) (v : Word64) (s : State) :
    exec (.registerWrite a v) s = .next (registerWrite a.offs.toNat a.bytes v s) := rfl

theorem registerWrite_wide {s : State} (h : hostMay s = true) {offs : Nat} (halign : offs % 8 = 0) (v : Word64) :
    registerWrite offs 8 v s = wideWrite offs v s := if_pos (by simp [h, halign])

theorem registerWrite_ignored {s : State} {offs n : Nat} (h : hostMay s = false ∨ n ≠ 8 ∨ offs % 8 ≠ 0) (v : Word64) :
    registerWrite offs n v s = s := if_neg (by rcases h with h | h | h <;> simp [h])

theorem exec_registerWrite_wide {s : State} (h : hostMay s = true) {offs : BitVec 24} {k : Nat} (hk : offs.toNat = k)
    (halign : k % 8 = 0) (v : Word64) : exec (.registerWrite ⟨offs, 8⟩ v) s = .next (wideWrite k v s) := by
  rw [exec_registerWrite]
  dsimp only
  rw [hk, registerWrite_wide h halign]

section
variable {s : State} (v : Word64)

/-- The doorbell of each engine has an offset of its own. -/
theorem wideWrite_doorbell (n : Engine) : wideWrite (0x40000 + 0x40 * n) v s = doorbell n v s := by
  have hn := n.isLt
  have hindex : (0x40000 + 0x40 * n.val - 0x40000) / 0x40 = n := by omega
  unfold wideWrite
  rw [if_neg (by omega), if_neg (by omega), if_neg (by omega), if_pos (by omega), hindex]

theorem wideWrite_resolve : wideWrite 0x30000 v s = xltResolve v s := rfl

theorem xltResolve_retry (h : v.toNat / 2 ^ 32 % 4 = 0) : xltResolve v s = resolveRetry (v.setWidth 32) s := by
  have haction : bits v.toNat 33 32 = 0 := h
  unfold xltResolve
  dsimp only
  rw [if_pos haction]
  rfl

theorem xltResolve_abort (h : v.toNat / 2 ^ 32 % 4 = 1) : xltResolve v s = resolveAbort (v.setWidth 32) s := by
  have haction : bits v.toNat 33 32 = 1 := h
  unfold xltResolve
  dsimp only
  rw [if_neg (by rw [haction]; decide), if_pos haction]
  rfl

/-- The events of each domain have an offset of their own. -/
theorem wideWrite_domain (d : Dom) : wideWrite (0x10008 + 0x40 * d) v s =
    modDom s d fun x => { x with events := w1c x.events v } := by
  have hd := d.isLt
  have hindex : (0x10008 + 0x40 * d.val - 0x10008) / 0x40 = d := by omega
  unfold wideWrite
  rw [if_neg (by omega), if_neg (by omega), if_neg (by omega), if_neg (by omega), if_neg (by omega), if_neg (by omega),
    if_neg (by omega), if_neg (by omega), if_neg (by omega), if_neg (by omega)]
  unfold w1cWrite
  rw [if_neg (by omega), if_neg (by omega), if_pos (by omega), hindex]

end

theorem exec_codKeyreq {s : State} (h : hostMay s = true) (v : Word64) : exec (.codKeyreq v) s = .next (codKeyreq v s) :=
  congrArg Host.Outcome.next (if_pos h)

/-- A register with a command of its own. -/
theorem registerWrite_acts {s : State} (h : hostMay s = true) {v : Word64} {offs : BitVec 24} {i : Instr}
    (hi : (offs, i) ∈ [(0x8#24, Instr.botWin v), (0x30008#24, .xltInval v), (0x60000#24, .codKeyreq v),
        (0x90000#24, .evtRing v), (0x90008#24, .evtCons v), (0x108000#24, .obsFilter v), (0x108008#24, .obsRing v),
        (0x108010#24, .obsCons v)]) : exec (.registerWrite ⟨offs, 8⟩ v) s = exec i s := by
  simp only [List.mem_cons, List.not_mem_nil, or_false, Prod.mk.injEq] at hi
  obtain ⟨rfl, rfl⟩ | ⟨rfl, rfl⟩ | ⟨rfl, rfl⟩ | ⟨rfl, rfl⟩ | ⟨rfl, rfl⟩ | ⟨rfl, rfl⟩ | ⟨rfl, rfl⟩ | ⟨rfl, rfl⟩ := hi
  · exact exec_registerWrite_wide (k := 0x8) h rfl rfl v
  · exact (exec_registerWrite_wide (k := 0x30008) h rfl rfl v).trans (exec_xltInval h v).symm
  · exact (exec_registerWrite_wide (k := 0x60000) h rfl rfl v).trans (exec_codKeyreq h v).symm
  · exact exec_registerWrite_wide (k := 0x90000) h rfl rfl v
  · exact exec_registerWrite_wide (k := 0x90008) h rfl rfl v
  · exact exec_registerWrite_wide (k := 0x108000) h rfl rfl v
  · exact exec_registerWrite_wide (k := 0x108008) h rfl rfl v
  · exact exec_registerWrite_wide (k := 0x108010) h rfl rfl v

theorem registerWrite_doorbell {s : State} (h : hostMay s = true) (v : Word64) (n : Engine) :
    exec (.registerWrite ⟨BitVec.ofNat 24 (0x40000 + 0x40 * n), 8⟩ v) s = exec (.dmaEngDb n v) s := by
  have hn := n.isLt
  have hoffs : (BitVec.ofNat 24 (0x40000 + 0x40 * n.val)).toNat = 0x40000 + 0x40 * n.val := by
    rw [BitVec.toNat_ofNat]
    omega
  rw [exec_registerWrite_wide h hoffs (by omega), wideWrite_doorbell, exec_dmaEngDb h]

theorem registerWrite_resolve {s : State} (h : hostMay s = true) (v : Word64) :
    exec (.registerWrite ⟨0x30000#24, 8⟩ v) s = .next (xltResolve v s) :=
  (exec_registerWrite_wide (k := 0x30000) h rfl rfl v).trans (congrArg Host.Outcome.next (wideWrite_resolve v))

/-! ### Registers whose bits are cleared by writing 1 (R363) -/

section
variable {s : State} (h : hostMay s = true) (v : Word64)
include h

theorem registerWrite_pwrEvents : exec (.registerWrite ⟨0x80008#24, 8⟩ v) s =
    .next (modPwr s fun p => { p with events := w1c p.events v }) :=
  exec_registerWrite_wide (k := 0x80008) h rfl rfl v

theorem registerWrite_summary : exec (.registerWrite ⟨0x90020#24, 8⟩ v) s =
    .next (modEv s fun e => { e with seen := w1c e.seen v }) :=
  exec_registerWrite_wide (k := 0x90020) h rfl rfl v

theorem registerWrite_domain (d : Dom) : exec (.registerWrite ⟨BitVec.ofNat 24 (0x10008 + 0x40 * d), 8⟩ v) s =
    .next (modDom s d fun x => { x with events := w1c x.events v }) := by
  have hd := d.isLt
  have hoffs : (BitVec.ofNat 24 (0x10008 + 0x40 * d.val)).toNat = 0x10008 + 0x40 * d.val := by
    rw [BitVec.toNat_ofNat]
    omega
  rw [exec_registerWrite_wide h hoffs (by omega), wideWrite_domain]

end

theorem modPwr_changesOnly {s : State} {f : PwrSt → PwrSt} (hquads : (f s.pwr).quads.length = s.pwr.quads.length)
    (hka : (f s.pwr).keepalive = s.pwr.keepalive) : ChangesOnly [.pwr] s (modPwr s f) :=
  (modPwr_within (M := 16777216) s f (by decide) hquads (.inr hka) (.refl _ _)).only rfl

/-! ### BOT_WIN and BAR2 (R359, R361) -/

theorem exec_botWin (v : Word64) (s : State) : exec (.botWin v) s = .next (botWin v s) := rfl

theorem botWin_set {s : State} (h : hostMay s = true) {v : Word64} (hv : bits v.toNat 4 0 < 20) :
    botWin v s = modBoot s fun b => { b with win := bits v.toNat 4 0 } := if_pos (by simp [h, hv])

theorem botWin_ignored {s : State} {v : Word64} (hv : 20 ≤ bits v.toNat 4 0) : botWin v s = s :=
  if_neg (by simp [hv])

theorem modBoot_changesOnly {s : State} {f : BootSt → BootSt}
    (hfuses : (f s.boot).fuses = s.boot.fuses) : ChangesOnly [.boot] s (modBoot s f) := by
  intro p hp
  cases p with
  | boot => exact absurd List.mem_cons_self hp
  | fuses => exact hfuses
  | _ => rfl

theorem bar2Bad_inside {s : State} {offs n : Nat} (hon : s.mem.on = true) (hin : offs + n ≤ 2 ^ 36) :
    bar2Bad s offs n = false := by
  unfold bar2Bad
  rw [hon, decide_eq_false (Nat.not_lt.mpr hin)]
  rfl

section
variable {s : State} (hup : s.hif.epUp = true) (offs : BitVec 36) (n : Nat) (data : List Byte)
include hup

theorem exec_bar2Access_bad (w : Bool) (h : s.mem.on = false ∨ 2 ^ 36 < offs.toNat + n) :
    exec (.bar2Access w offs n data) s = .next (emit s (.completion false false [])) := by
  refine congrArg Host.Outcome.next ((if_neg (by simp [hup])).trans (if_pos ?_))
  unfold bar2Bad
  rcases h with h | h
  · rw [h]
    rfl
  · rw [decide_eq_true h, Bool.or_true]

variable (hon : s.mem.on = true) (hin : offs.toNat + n ≤ 2 ^ 36)
include hon hin

theorem exec_bar2Access_write : exec (.bar2Access true offs n data) s =
    .next (writePA s (2 ^ 36 * s.boot.win + offs.toNat) data) :=
  congrArg Host.Outcome.next ((if_neg (by simp [hup])).trans
    ((if_neg (by rw [bar2Bad_inside hon hin]; decide)).trans (if_pos rfl)))

theorem exec_bar2Access_read : exec (.bar2Access false offs n data) s =
    .next (emit (readPA s (2 ^ 36 * s.boot.win + offs.toNat) n).2
      (.completion true (readPA s (2 ^ 36 * s.boot.win + offs.toNat) n).1.poison
        (readPA s (2 ^ 36 * s.boot.win + offs.toNat) n).1.bytes)) :=
  congrArg Host.Outcome.next ((if_neg (by simp [hup])).trans
    ((if_neg (by rw [bar2Bad_inside hon hin]; decide)).trans (if_neg (by decide))))

end

theorem bar2_read_changesOnly (s : State) (pa n : Nat) (o : Out) :
    ChangesOnly (eventParts ++ [.mem, .stackBytes, .out]) s (emit (readPA s pa n).2 o) :=
  (emit_within (M := 251658538) _ _ (by decide) (readPA_within s pa n true (by decide) (.refl _ _))).only rfl

/-! ### The endpoint (R358, R359, R362) -/

theorem exec_endpointReset (k : EndpointReset) (s : State) : exec (.endpointReset k) s = .next (endpointReset s) := rfl

theorem exec_endpointLinkUp (s : State) : exec .endpointLinkUp s = .next (endpointLinkUp s) := rfl

theorem endpointDown_changesOnly (s : State) : ChangesOnly [.boot, .hif, .ev] s (endpointDown s) :=
  (endpointDown_within (M := 73400320) s (by decide) (.refl _ _)).only rfl

/-- The link is down and the window is 0. -/
theorem endpointDown_leaves (s : State) :
    (endpointDown s).hif = { s.hif with epUp := false } ∧ (endpointDown s).boot = { s.boot with win := 0 } := by
  unfold endpointDown
  dsimp only
  split <;> exact ⟨rfl, rfl⟩

section
variable {s : State} (hpow : s.hif.epPowered = true)
include hpow

theorem endpointReset_sealed (h : s.boot.sealed = true) :
    endpointReset s = raise (endpointDown s) bBOT 20 locDevice noSeq 0 :=
  (if_neg (by simp [hpow])).trans (if_pos h)

theorem endpointReset_early (h : s.boot.sealed = false) : endpointReset s = endpointDown s :=
  (if_neg (by simp [hpow])).trans (if_neg (by simp [h]))

theorem endpointLinkUp_down (h : s.hif.epUp = false) : endpointLinkUp s =
    modHif (if s.ev.ringOn then evTidy (evSkipHeld s) else s) fun h => { h with epUp := true } :=
  if_neg (by simp [hpow, h])

/-- What the host ring held is taken unwritten. -/
theorem endpointLinkUp_leaves (h : s.hif.epUp = false) : (endpointLinkUp s).hif = { s.hif with epUp := true } ∧
    (s.ev.ringOn = true → ∀ r ∈ (endpointLinkUp s).ev.buf, r.tookHost = true) := by
  rw [endpointLinkUp_down hpow h]
  cases hring : s.ev.ringOn with
  | false => exact ⟨rfl, fun e => absurd e Bool.false_ne_true⟩
  | true =>
    rw [if_pos rfl]
    exact ⟨rfl, fun _ r => mem_evTidy_skipped⟩

end

theorem endpointLinkUp_changesOnly (s : State) : ChangesOnly [.hif, .ev] s (endpointLinkUp s) :=
  (endpointLinkUp_within (M := 71303168) s (by decide) (.refl _ _)).only rfl

/-! ### The storage root port (R355, R364) -/

/-- The storage link is down, with BOT.030. -/
def storageLost (s : State) : State := raise (modHif s fun h => { h with stUp := false }) bBOT 30 locDevice noSeq 0

theorem storageLost_stUp (s : State) : (storageLost s).hif.stUp = false := by
  unfold storageLost
  rw [(raise_changes _ _ _ _ _ _).hif.resolve_left (by decide)]
  rfl

theorem storageLoss_idle {s : State} (h : s.hif.stUp = true) (hd : s.snp.wardDrain = none) : storageLoss s = storageLost s :=
  (if_neg (by simp [h])).trans (if_neg (by simp [hd]))

theorem storageLoss_draining {s : State} (h : s.hif.stUp = true) (hd : s.snp.wardDrain.isSome = true) :
    storageLoss s = drainFail (storageLost s) :=
  (if_neg (by simp [h])).trans (if_pos hd)

theorem raise_snp (s : State) (block num : Nat) (l : BitVec 32) (seq : Nat) (detail : Word64) :
    (raise s block num l seq detail).snp = s.snp :=
  (raise_changes s block num l seq detail).snp.resolve_left (by decide)

theorem drainFail_snp (s : State) : (drainFail s).snp = { s.snp with wardDrain := none, wardHold := none } :=
  raise_snp _ bSNP 12 locDevice noSeq 0

section
variable {s : State} (hpow : s.hif.stPowered = true) (hdown : s.hif.stUp = false) (nsze : Nat)
include hpow hdown

/-- The store that identifies itself. -/
def storeFound (nsze : Nat) (s : State) : State :=
  modSnp (modHif s fun h => { h with stUp := true, stKnown := true }) fun n => { n with storeOk := true, nsze := nsze }

/-- The store and what its footers say of the ward's snapshots. -/
def storeRead (nsze : Nat) (s : State) : State :=
  modSnp (storeFound nsze s) fun n =>
    { n with wardSnap := if fld (sarkAt s 0 0 32) 0 4 == 0x534B5254 then storeStep (storeFound nsze s) else 0 }

/-- No store that conforms. -/
def storeAbsent (s : State) : State :=
  modSnp (modHif s fun h => { h with stUp := true, stKnown := true }) fun n => { n with storeOk := false }

theorem storageUp_found : storageUp true nsze s = snpSync (storeRead nsze s) :=
  (if_neg (by simp [spPerstN, hpow, hdown])).trans (if_pos rfl)

theorem storageUp_absent : storageUp false nsze s = raise (storeAbsent s) bSNP 3 locDevice noSeq 0 :=
  (if_neg (by simp [spPerstN, hpow, hdown])).trans (if_neg (by decide))

end

theorem storeRead_sarkAt (nsze : Nat) (s : State) (block offs n : Nat) :
    sarkAt (storeRead nsze s) block offs n = sarkAt (storeFound nsze s) block offs n := rfl

theorem storeRead_footerBlock (nsze : Nat) (s : State) (k : Bool) :
    footerBlock (storeRead nsze s) k = footerBlock (storeFound nsze s) k := rfl

theorem withHifSnp_changesOnly (s : State) (h : HostIf) (n : SnpSt) :
    ChangesOnly [.hif, .snp] s { s with hif := h, snp := n } := by
  intro p hp
  cases p with
  | hif => exact absurd (by decide) hp
  | snp => exact absurd (by decide) hp
  | _ => rfl

theorem exec_storageLinkUp (ok : Bool) (nsze : Nat) (s : State) :
    exec (.storageLinkUp ok nsze) s = .next (storageUp ok nsze s) := rfl

/-- The greatest step is not below that of a complete snapshot in either slot. -/
theorem le_storeStep (s : State) {k : Bool} (h : fld (sarkAt s (footerBlock s k) 0 32) 8 2 ≠ 0) :
    fld (sarkAt s (footerBlock s k) 0 32) 0 8 ≤ storeStep s := by
  unfold storeStep
  dsimp only [List.foldl_cons, List.foldl_nil]
  cases k with
  | false =>
    rw [if_neg h]
    split
    · exact Nat.le_max_right _ _
    · exact (Nat.le_max_right _ _).trans (Nat.le_max_left _ _)
  | true =>
    rw [if_neg h]
    exact Nat.le_max_right _ _

/-- Settles O56: registers by their offset, BAR2, the endpoint's resets and link, and the storage link. -/
theorem hostAccessTakesEffect : Obligations.HostAccessTakesEffect := by
  intro s hs
  refine ⟨fun hmay => ⟨fun v => ⟨fun hv => ?_, fun hv => ?_⟩, fun v offs i hi => ?_, fun v => ⟨?_, ?_, fun d => ?_⟩⟩,
    fun offs n v h => congrArg Host.Outcome.next (registerWrite_ignored h v),
    fun hup offs n data => ⟨fun w h => exec_bar2Access_bad hup offs n data w h, fun hon hin =>
      ⟨exec_bar2Access_write hup offs n data hon hin, _, _, exec_bar2Access_read hup offs n data hon hin, rfl, rfl,
        bar2_read_changesOnly _ _ _ _⟩⟩,
    fun hpow => ⟨fun k => ⟨endpointDown s, endpointDown_changesOnly s, (endpointDown_leaves s).1, (endpointDown_leaves s).2,
        fun h => (exec_endpointReset k s).trans (congrArg Host.Outcome.next (endpointReset_sealed hpow h)),
        fun h => (exec_endpointReset k s).trans (congrArg Host.Outcome.next (endpointReset_early hpow h))⟩,
      fun hdown => ⟨_, exec_endpointLinkUp s, endpointLinkUp_changesOnly s, endpointLinkUp_leaves hpow hdown⟩⟩,
    fun hup u hu => ?_, fun hpow hdown nsze => ⟨⟨storeRead nsze s, ?_, ?_, rfl, rfl, fun h => ?_, fun h k hk => ?_⟩, ?_⟩,
    _, _, rfl, rfl, rfl⟩
  · exact ⟨_, (exec_botWin v s).trans (congrArg Host.Outcome.next (botWin_set hmay hv)), modBoot_changesOnly rfl, rfl⟩
  · exact (exec_botWin v s).trans (congrArg Host.Outcome.next (botWin_ignored hv))
  · obtain hi | ⟨n, rfl, rfl⟩ | ⟨rfl, ha, rfl⟩ | ⟨rfl, ha, rfl⟩ := hi
    · exact registerWrite_acts hmay hi
    · exact registerWrite_doorbell hmay v n
    · rw [registerWrite_resolve hmay, xltResolve_retry v ha, exec_xltResolveRetry hmay]
    · rw [registerWrite_resolve hmay, xltResolve_abort v ha, exec_xltResolveAbort hmay]
  · exact ⟨_, registerWrite_pwrEvents hmay v, modPwr_changesOnly rfl rfl, rfl⟩
  · exact ⟨_, registerWrite_summary hmay v, modEv_changesOnly fun _ => id, rfl⟩
  · exact ⟨_, registerWrite_domain hmay v d, modDom_changesOnly _ _ _ (fun _ => rfl) fun _ => rfl,
      domAt_modDom_same _ (by rw [hs.dom_length]; exact d.isLt), fun e he => domAt_modDom_other _ he⟩
  · obtain rfl : storageLost s = u := hu.symm
    refine ⟨storageLost_stUp s, fun hd => congrArg Host.Outcome.next (storageLoss_idle hup hd),
      fun hd => ⟨congrArg Host.Outcome.next (storageLoss_draining hup hd), ?_⟩⟩
    rw [drainFail_snp]
  · exact congrArg Host.Outcome.next (storageUp_found hpow hdown nsze)
  · exact withHifSnp_changesOnly s (storeRead nsze s).hif (storeRead nsze s).snp
  · exact if_neg (by simpa using h)
  · have hsnap : (storeRead nsze s).snp.wardSnap = storeStep (storeFound nsze s) := if_pos (by simpa using h)
    rw [storeRead_footerBlock, storeRead_sarkAt] at hk ⊢
    rw [hsnap]
    exact le_storeStep (storeFound nsze s) hk
  · exact ⟨_, storeAbsent s, (exec_storageLinkUp false nsze s).trans
      (congrArg Host.Outcome.next (storageUp_absent hpow hdown nsze)), rfl, rfl, rfl, withHifSnp_changesOnly s (storeAbsent s).hif (storeAbsent s).snp⟩

end Sys2Proof.Machine
end

section
/-! Captures, the interval and the history (16 R302, R303, R306). Averages in ns are log entry 69. -/

namespace Sys2Proof.Machine

theorem snpSync_snp (s : State) : (snpSync s).snp = s.snp :=
  (snpSync_within (M := 251659554) s (by decide) (.refl _ _)).snp.resolve_left (by decide)

theorem modSnp_changesOnly (s : State) (f : SnpSt → SnpSt) : ChangesOnly [.snp] s (modSnp s f) := by
  intro p hp
  cases p with
  | snp => exact absurd List.mem_cons_self hp
  | _ => rfl

/-! ### A capture ends (R302, R303) -/

theorem exec_captureDone {s : State} {c : Capture} (h : s.snp.capture = some c) :
    exec .captureDone s = .next (captWrite c s) := by
  refine congrArg Host.Outcome.next ?_
  unfold captureDone
  rw [h]

/-- The status after a capture: CAPT, the averages, and the staging that waits for its drain. -/
def SnpSt.captured (c : Capture) (now : Nat) (n : SnpSt) : SnpSt :=
  { n with
    capt := some c.step
    capture := none
    cNs := if c.snapshot then average n.cNs (now - c.startedAt) else n.cNs
    stepNs := match n.lastCapture with
      | some l => average n.stepNs (now - l.2)
      | none => n.stepNs
    lastCapture := some (c.step, now)
    captures := min 2 (n.captures + 1)
    staged := if c.snapshot then some (c.step, c.slot, false) else n.staged }

theorem captWrite_eq (c : Capture) (s : State) : captWrite c s = snpSync (modSnp s (SnpSt.captured c s.time)) := rfl

theorem captWrite_snp (c : Capture) (s : State) : (captWrite c s).snp = s.snp.captured c s.time := by
  rw [captWrite_eq, snpSync_snp]
  rfl

section
variable {c : Capture} {s : State} {p : ProtRec}

theorem exec_mirrorTimeout (hc : s.snp.capture = some c) (hp : s.snp.prot = some p) : exec .mirrorTimeout s = .next
    (if (tensorsOf s.snp.method true p.tensors).isEmpty || decide (s.time < c.startedAt + 1000000 * param s 0x083) then s
    else captWrite c (raise s bSNP 11 (locSlot p.seq) p.seq 0)) := by
  refine congrArg Host.Outcome.next ?_
  unfold mirrorTimeout
  rw [hc, hp]

variable (hc : s.snp.capture = some c) (hp : s.snp.prot = some p)
include hc hp

theorem mirrorTimeout_waits (h : tensorsOf s.snp.method true p.tensors = [] ∨
    s.time < c.startedAt + 1000000 * param s 0x083) : exec .mirrorTimeout s = .next s := by
  rw [exec_mirrorTimeout hc hp, if_pos]
  rcases h with h | h
  · rw [h]
    rfl
  · rw [decide_eq_true h, Bool.or_true]

theorem mirrorTimeout_ends (hne : tensorsOf s.snp.method true p.tensors ≠ [])
    (hlate : c.startedAt + 1000000 * param s 0x083 ≤ s.time) :
    exec .mirrorTimeout s = .next (captWrite c (raise s bSNP 11 (locSlot p.seq) p.seq 0)) := by
  rw [exec_mirrorTimeout hc hp, if_neg]
  rw [decide_eq_false (Nat.not_lt.mpr hlate), Bool.or_false]
  simpa using hne

end

/-! ### The interval (R306) -/

/-- A measurement in µs, with 0 for none. -/
def fromUs (us : Nat) : Option Nat := if us = 0 then none else some (1000 * us)

/-- The status with the leader's interval and history. -/
def SnpSt.told (next f tObs cUs stepUs : Nat) (n : SnpSt) : SnpSt :=
  { n with nextSnap := next, f := f, tObs := tObs, cNs := fromUs cUs, stepNs := fromUs stepUs }

/-- The status after a second of observation. -/
def SnpSt.observed (k : Nat) (n : SnpSt) : SnpSt := { n with tObs := n.tObs + k }

section
variable {s : State} (next f tObs cUs stepUs : Nat)

theorem exec_intervalNotice_leader (h : isLeader s = true) : exec (.intervalNotice next f tObs cUs stepUs) s = .next s :=
  congrArg Host.Outcome.next (if_pos h)

theorem exec_intervalNotice_member (h : isLeader s = false) : exec (.intervalNotice next f tObs cUs stepUs) s =
    .next (snpSync (modSnp s (SnpSt.told next f tObs cUs stepUs))) :=
  congrArg Host.Outcome.next (if_neg (by simp [h]))

end

theorem exec_observationSecond_leader {s : State} (hp : s.snp.prot.isSome = true) (h : isLeader s = true) :
    exec .observationSecond s = .next (snpSync (modSnp s (SnpSt.observed (sliceSize s)))) :=
  congrArg Host.Outcome.next (if_pos (by simp [hp, h]))

theorem exec_observationSecond_member {s : State} (h : isLeader s = false) : exec .observationSecond s = .next s :=
  congrArg Host.Outcome.next (if_neg (by simp [h]))

/-- Settles O46: the two ends of a capture, and what the leader's interval and the seconds of observation write. -/
theorem capturesEndAndSetTheInterval : Obligations.CapturesEndAndSetTheInterval := by
  intro p s hp
  refine ⟨fun c hc => ⟨⟨_, _, exec_captureDone hc, captWrite_eq c s, modSnp_changesOnly _ _, captWrite_snp c s, rfl, rfl,
      rfl, hp, rfl, rfl, rfl, fun h => ⟨if_pos h, if_pos h⟩, fun h => ⟨if_neg (by simp [h]), if_neg (by simp [h])⟩,
      fun l hl => ?_, fun hl => ?_⟩, mirrorTimeout_waits hc hp,
      fun hne hlate => ⟨_, _, mirrorTimeout_ends hc hp hne hlate, rfl, rfl, ?_⟩⟩,
    fun h => ⟨fun next f tObs cUs stepUs => exec_intervalNotice_leader next f tObs cUs stepUs h, _, _,
      exec_observationSecond_leader (by simp [hp]) h, rfl, modSnp_changesOnly _ _, snpSync_snp _⟩,
    fun h => ⟨exec_observationSecond_member h, fun next f tObs cUs stepUs => ⟨_, _,
      exec_intervalNotice_member next f tObs cUs stepUs h, rfl, modSnp_changesOnly _ _, snpSync_snp _⟩⟩⟩
  · simp only [modSnp, SnpSt.captured, hl]
  · simp only [modSnp, SnpSt.captured, hl]
  · rw [captWrite_snp]
    exact ⟨rfl, rfl⟩

end Sys2Proof.Machine
end

section
/-! Mirrors, drains and restores between buddies (16 R303, R305, R308). The layouts of the store and of the pieces are log
entries 67 and 68; poisoned sectors written as poison are log entry 110. -/

namespace Sys2Proof.Machine

/-! ### Fields of a record -/

theorem leBytes_take {k n : Nat} (h : k ≤ n) (x : Nat) : (leBytes n x).take k = leBytes k x := by
  induction k generalizing n x with
  | zero => rfl
  | succ k ih =>
    obtain ⟨n, rfl⟩ : ∃ m, n = m + 1 := ⟨n - 1, by omega⟩
    rw [leBytes, List.take_succ_cons, ih (by omega)]
    rfl

theorem ofLE_leBytes (n x : Nat) : ofLE (leBytes n x) = x % 256 ^ n := by
  induction n generalizing x with
  | zero => exact (Nat.mod_one x).symm
  | succ n ih =>
    rw [leBytes, ofLE, ih, BitVec.toNat_ofNat, show 256 ^ (n + 1) = 256 * 256 ^ n from Nat.pow_succ']
    exact Nat.mod_mul.symm

/-- The first field of a record. -/
theorem fld_record_first (size v : Nat) (w : Nat) (fs : List (Nat × Nat × Nat)) (hw : w ≤ size)
    (hfs : ∀ f ∈ fs, w ≤ f.1) : fld (record size ((0, w, v) :: fs)) 0 w = v % 2 ^ (8 * w) := by
  have hpow : 256 ^ w = 2 ^ (8 * w) := by rw [Nat.pow_mul]
  have hfold : ∀ (l : List (Nat × Nat × Nat)) (acc : Nat), (∀ f ∈ l, w ≤ f.1) →
      (l.foldl (fun acc f => acc + (f.2.2 % 2 ^ (8 * f.2.1)) * 2 ^ (8 * f.1)) acc) % 2 ^ (8 * w) = acc % 2 ^ (8 * w) := by
    intro l
    induction l with
    | nil => exact fun _ _ => rfl
    | cons f l ih =>
      intro acc hl
      obtain ⟨d, hd⟩ := Nat.exists_eq_add_of_le (hl f List.mem_cons_self)
      rw [List.foldl_cons, ih _ fun g hg => hl g (List.mem_cons_of_mem _ hg), hd, Nat.mul_add, Nat.pow_add,
        Nat.mul_left_comm, Nat.add_mul_mod_self_left]
  unfold record fld
  rw [List.drop_zero, leBytes_take hw, ofLE_leBytes, hpow, List.foldl_cons, hfold fs _ hfs]
  simp

theorem modSnp_snp (s : State) (f : SnpSt → SnpSt) : (modSnp s f).snp = f s.snp := rfl

/-! ### The ward's mirror (R303) -/

theorem inject_snp (s : State) (dst cls : Nat) (b : Body) : (inject s dst cls b).snp = s.snp :=
  (inject_within (M := 117465130) s dst cls b (by decide) (.refl _ _)).snp.resolve_left (by decide)

theorem putSectors_snp (va : Nat) (x : Sectors) (s : State) : (putSectors va x s).2.snp = s.snp :=
  (putSectors_within (M := 251659554) va x s (by decide) (.refl _ _)).snp.resolve_left (by decide)

theorem wardWord_congr {s t : State} (h : t.snp = s.snp) (slot : Bool) : wardWord t slot = wardWord s slot := by
  unfold wardWord
  rw [h]

theorem wardWord_setWard (slot : Bool) (w : Word64) (s : State) : wardWord (setWard slot w s) slot = w := by
  cases slot <;> rfl

theorem wardWord_setWard_other (slot : Bool) (w : Word64) (s : State) :
    wardWord (setWard slot w s) (!slot) = wardWord s (!slot) := by
  cases slot <;> rfl

/-- The word of a mirror slot whose trailer has come: its step, whether it is clean, and VALID. -/
def wardTrailer (bs : List Byte) (clean : Bool) : Word64 :=
  BitVec.ofNat 64 (fld bs 0 8 % 2 ^ 48 + clean.toNat * 2 ^ 62 + 2 ^ 63)

theorem wardTrailer_toNat (bs : List Byte) (clean : Bool) :
    (wardTrailer bs clean).toNat = fld bs 0 8 % 2 ^ 48 + clean.toNat * 2 ^ 62 + 2 ^ 63 := by
  have hclean : clean.toNat ≤ 1 := Bool.toNat_le clean
  unfold wardTrailer
  rw [BitVec.toNat_ofNat]
  omega

theorem wardTrailer_valid (bs : List Byte) (clean : Bool) : (wardTrailer bs clean).getLsbD 63 = true := by
  have hclean : clean.toNat ≤ 1 := Bool.toNat_le clean
  rw [BitVec.getLsbD, Nat.testBit_eq_decide_div_mod_eq, wardTrailer_toNat, decide_eq_true_eq]
  omega

theorem wardTrailer_step (bs : List Byte) (clean : Bool) :
    (wardTrailer bs clean).toNat % 2 ^ 48 = fld bs 0 8 % 2 ^ 48 := by
  rw [wardTrailer_toNat]
  omega

/-- VALID is clear while sectors are written. -/
def mirrorOpened (slot : Bool) (s : State) : State := setWard slot (wardWord s slot &&& 0x7FFFFFFFFFFFFFFF) s

theorem mirrorOpened_invalid (slot : Bool) (s : State) : (wardWord (mirrorOpened slot s) slot).getLsbD 63 = false := by
  rw [mirrorOpened, wardWord_setWard, BitVec.getLsbD_and]
  simp

/-- A piece of a mirror slot is taken: a trailer sets the slot's word, other sectors only show where tensors begin. -/
def mirrorTaken (slot : Bool) (offs : Nat) (data : Piece) (trailer : Bool) (wardSnap : Nat) (s : State) : State :=
  if trailer then
    modSnp (setWard slot (wardTrailer data.bytes
      (zeroIn data.bytes 0x10 0x20 && fld data.bytes 8 8 == wardSnap)) s) fun n =>
        { n with wardLen := n.wardLen.set slot.toNat offs }
  else modSnp s fun n => { n with wardStarts := n.wardStarts.modify slot.toNat (noteStart offs data) }

theorem setWard_modSnp_changesOnly (slot : Bool) (w : Word64) (s : State) (f : SnpSt → SnpSt) :
    ChangesOnly [.snp] s (modSnp (setWard slot w s) f) := by
  cases slot
  · exact modSnp_changesOnly s fun n => f { n with wardM0 := w }
  · exact modSnp_changesOnly s fun n => f { n with wardM1 := w }

theorem mirrorTaken_changesOnly (slot : Bool) (offs : Nat) (data : Piece) (trailer : Bool) (snap : Nat) (s : State) :
    ChangesOnly [.snp] s (mirrorTaken slot offs data trailer snap s) := by
  cases trailer
  · exact modSnp_changesOnly _ _
  · exact setWard_modSnp_changesOnly _ _ _ _

theorem exec_mirrorReceive {p : ProtRec} {slot : Bool} {offs : Nat} {data : Piece} {s v : State} (trailer : Bool)
    (hp : s.snp.prot = some p) (hhold : s.snp.wardHold ≠ some slot) (hfits : offs + data.bytes.length ≤ p.mirrorBytes)
    (hput : putSectors (p.mirrorVa + slot.toNat * p.mirrorBytes + offs) ⟨data.bytes, data.bad⟩ (mirrorOpened slot s) = (true, v)) :
    exec (.mirrorReceive slot offs data trailer) s = .next
      (inject (snpSync (mirrorTaken slot offs data trailer s.snp.wardSnap v)) p.ward 5 (.mirrorAck slot offs)) := by
  refine congrArg Host.Outcome.next ?_
  unfold mirrorOpened at hput
  unfold mirrorReceive
  rw [hp]
  dsimp only
  rw [if_neg (by simpa [hhold] using hfits), hput]
  cases trailer <;> rfl

theorem mirrorTaken_trailer (slot : Bool) (offs : Nat) (data : Piece) (snap : Nat) (s : State) (j : Bool) :
    wardWord (mirrorTaken slot offs data true snap s) j =
      wardWord (setWard slot (wardTrailer data.bytes (zeroIn data.bytes 0x10 0x20 && fld data.bytes 8 8 == snap)) s) j := by
  unfold mirrorTaken
  rw [if_pos rfl]
  generalize setWard slot _ s = u
  cases j <;> rfl

/-- The words of the two mirror slots after a piece that was taken. -/
theorem mirrorTaken_words {slot : Bool} {offs : Nat} {data : Piece} {s v : State} (trailer : Bool) (snap : Nat)
    (hv : v.snp = (mirrorOpened slot s).snp) :
    (wardWord (mirrorTaken slot offs data trailer snap v) slot).getLsbD 63 = trailer ∧
      wardWord (mirrorTaken slot offs data trailer snap v) (!slot) = wardWord s (!slot) ∧
      (trailer = true → (wardWord (mirrorTaken slot offs data trailer snap v) slot).toNat % 2 ^ 48 =
        fld data.bytes 0 8 % 2 ^ 48) := by
  have hother : wardWord v (!slot) = wardWord s (!slot) := (wardWord_congr hv _).trans (wardWord_setWard_other _ _ _)
  cases trailer with
  | false =>
    have hkept : ∀ j, wardWord (mirrorTaken slot offs data false snap v) j = wardWord v j := fun j => by cases j <;> rfl
    rw [hkept, hkept, hother, wardWord_congr hv]
    exact ⟨mirrorOpened_invalid slot s, rfl, fun h => absurd h (by decide)⟩
  | true =>
    rw [mirrorTaken_trailer, mirrorTaken_trailer, wardWord_setWard, wardWord_setWard_other]
    exact ⟨wardTrailer_valid _ _, hother, fun _ => wardTrailer_step _ _⟩

/-! ### Drains (R305) -/

/-- The pieces of the staging leave for the buddy. -/
def drainSent (p : ProtRec) (step : Nat) (bs : List Byte) (s : State) : State :=
  each (List.range (cdiv bs.length mirrorPiece)) (fun s i =>
    inject s p.buddy 5 (.snapshotData step (mirrorPiece * i) ((bs.drop (mirrorPiece * i)).take mirrorPiece))) s

theorem drainSent_changes (p : ProtRec) (step : Nat) (bs : List Byte) (s : State) :
    Within 117465130 s (drainSent p step bs s) :=
  each_changes _ (fun s _ => inject_within s _ _ _ (by decide) (.refl _ _)) s

theorem snapRead_snp {va n : Nat} {s v : State} {x : Option Sectors} (h : snapRead va n s = (x, v)) : v.snp = s.snp := by
  rw [← (snapRead_within (M := 251659554) va n s (by decide) (.refl _ _)).snp.resolve_left (by decide), h]

/-- The staging is read, marked, and sent. -/
theorem drainStarted_changes {va n : Nat} {s v : State} {bs : Sectors} (p : ProtRec) (step : Nat) (slot : Bool)
    (h : snapRead va n s = (some bs, v)) :
    Within 251815210 s (drainSent p step bs.bytes (modSnp v fun n => { n with staged := some (step, slot, true) })) := by
  have hread : Within 251659554 s v :=
    Within.ofSnd h (snapRead_within va n s (by decide) (.refl _ _))
  have hmarked : Within 251815210 s (modSnp v fun n => { n with staged := some (step, slot, true) }) :=
    modSnp_within v _ (by decide) (fun _ => id) (hread.mono (by decide))
  exact hmarked.trans ((drainSent_changes p step bs.bytes _).mono (by decide))

theorem exec_drainStart (ward : Option Nat) (s : State) : exec (.drainStart ward) s = .next (drainStart ward s) := rfl

theorem drainStart_ward (step : Nat) (s : State) : drainStart (some step) s = drainWard step s := rfl

section
variable {p : ProtRec} {s : State} (hp : s.snp.prot = some p)
include hp

theorem exec_drainStart_own {step : Nat} {slot : Bool} {bs : Sectors} {v : State}
    (hstaged : s.snp.staged = some (step, slot, false))
    (hread : snapRead p.stageVa (pagedBytes (tensorsOf s.snp.method false p.tensors)) s = (some bs, v)) :
    exec (.drainStart none) s = .next
      (drainSent p step bs.bytes (modSnp v fun n => { n with staged := some (step, slot, true) })) := by
  refine congrArg Host.Outcome.next ?_
  unfold drainStart drainOwn
  dsimp only
  rw [hp, hstaged]
  dsimp only
  rw [hread]
  rfl

/-- The slot of the store that the ward's next snapshot takes. -/
def drainSlot (s : State) : Bool := !((slotWith s s.snp.wardSnap).getD true)

/-- The mirror slot of the step is held while the drain takes it. -/
def drainHold (step : Nat) (s : State) : Option Bool :=
  [false, true].find? fun j => (wardWord s j).getLsbD 63 && (wardWord s j).toNat % 2 ^ 48 == step % 2 ^ 48

/-- The slot of the store has no footer. -/
def drainCleared (s : State) : State := sarkPut (footerBlock s (drainSlot s)) (List.replicate 32 0) s

/-- The header names the ward, and the drain is in progress. -/
def drainBegun (p : ProtRec) (step : Nat) (s : State) : State :=
  modSnp (sarkPut 0 (headerBytes (drainCleared s) (memberCoord (drainCleared s) p.ward)) (drainCleared s)) fun n =>
    { n with wardDrain := some (step, drainSlot s), wardHold := drainHold step s }

theorem drainWard_begins {step : Nat} (hup : s.hif.stUp = true) (hok : s.snp.storeOk = true)
    (hidle : s.snp.wardDrain = none) : drainWard step s = drainBegun p step s := by
  have hbegins : ¬ (!(s.hif.stUp && s.snp.storeOk) || s.snp.wardDrain.isSome) = true := by simp [hup, hok, hidle]
  unfold drainWard drainBegun drainCleared drainSlot drainHold
  rw [hp]
  exact if_neg hbegins

theorem exec_drainStart_ward {step : Nat} (hup : s.hif.stUp = true) (hok : s.snp.storeOk = true)
    (hidle : s.snp.wardDrain = none) : exec (.drainStart (some step)) s = .next (drainBegun p step s) :=
  (exec_drainStart _ s).trans (congrArg Host.Outcome.next ((drainStart_ward step s).trans (drainWard_begins hp hup hok hidle)))

end

theorem drainBegun_changes (p : ProtRec) (step : Nat) (s : State) : Within 131072 s (drainBegun p step s) := by
  unfold drainBegun drainCleared
  exact modSnp_within _ _ (by decide) (fun _ => id) (sarkPut_within _ _ _ (by decide)
    (sarkPut_within _ _ _ (by decide) (.refl _ _)))

theorem drainSlot_free (s : State) :
    slotWith s s.snp.wardSnap = some (!drainSlot s) ∨ slotWith s s.snp.wardSnap = none := by
  unfold drainSlot
  cases h : slotWith s s.snp.wardSnap with
  | none => exact .inr rfl
  | some k => exact .inl (congrArg some (Bool.not_not k).symm)

/-! ### The store (log entry 67) -/

theorem headerBytes_length (s : State) (ward : BitVec 16) : (headerBytes s ward).length = 32 := leBytes_length _ _

theorem footerBytes_length (s : State) (step : Nat) (payload : List Byte) : (footerBytes s step payload).length = 32 :=
  leBytes_length _ _

/-- A footer begins with its step. -/
theorem footerBytes_step (s : State) (step : Nat) (payload : List Byte) :
    fld (footerBytes s step payload) 0 8 = step % 2 ^ 64 :=
  fld_record_first 32 step 8 _ (by decide) fun f hf => by
    simp only [List.mem_cons, List.not_mem_nil, or_false] at hf
    obtain rfl | rfl | rfl := hf
    · exact Nat.le_refl 8
    · exact (by decide : 8 ≤ 16)
    · exact (by decide : 8 ≤ 24)

theorem Sound.store_wf {s : State} (h : Sound s) : memWf zeroByte s.snp.store = true := h.2.1.2.2.2.2

theorem sarkPut_wf {s : State} (h : memWf zeroByte s.snp.store = true) (block : Nat) (bs : List Byte) :
    memWf zeroByte (sarkPut block bs s).snp.store = true := memWrs_wf bs _ h

theorem sarkAt_congr {s t : State} (h : t.snp.store = s.snp.store) (block offs n : Nat) :
    sarkAt t block offs n = sarkAt s block offs n := by
  unfold sarkAt
  rw [h]

theorem sarkAt_sarkPut {s : State} (h : memWf zeroByte s.snp.store = true) (block : Nat) (bs : List Byte) :
    sarkAt (sarkPut block bs s) block 0 bs.length = bs := memRdN_memWrs bs _ h

/-- What is written elsewhere leaves the bytes. -/
theorem sarkAt_sarkPut_other {s : State} (h : memWf zeroByte s.snp.store = true) {block b n : Nat} {bs : List Byte}
    (hout : 4096 * b + n ≤ 4096 * block ∨ 4096 * block + bs.length ≤ 4096 * b) :
    sarkAt (sarkPut block bs s) b 0 n = sarkAt s b 0 n := by
  refine List.map_congr_left fun i hi => ?_
  have hi : i < n := List.mem_range.mp hi
  exact memRd_memWrs_other bs _ _ h (by omega)

theorem footerBlock_pos (s : State) (k : Bool) : 16 ≤ footerBlock s k := Nat.le_add_right _ _

theorem headerBytes_sarkPut (block : Nat) (bs : List Byte) (s : State) (ward : BitVec 16) :
    headerBytes (sarkPut block bs s) ward = headerBytes s ward := by
  unfold headerBytes
  rfl

theorem memberCoord_sarkPut (block : Nat) (bs : List Byte) (s : State) (i : Nat) :
    memberCoord (sarkPut block bs s) i = memberCoord s i := by
  unfold memberCoord
  rfl

theorem drainBegun_store (p : ProtRec) (step : Nat) (s : State) : (drainBegun p step s).snp.store =
    (sarkPut 0 (headerBytes s (memberCoord s p.ward)) (drainCleared s)).snp.store := by
  unfold drainBegun drainCleared
  rw [headerBytes_sarkPut, memberCoord_sarkPut, modSnp_snp]

theorem drainBegun_footer {s : State} (h : Sound s) (p : ProtRec) (step : Nat) :
    sarkAt (drainBegun p step s) (footerBlock s (drainSlot s)) 0 32 = List.replicate 32 0 := by
  have hpos := footerBlock_pos s (drainSlot s)
  have hfooter := sarkAt_sarkPut h.store_wf (footerBlock s (drainSlot s)) (List.replicate 32 0)
  rw [List.length_replicate] at hfooter
  have hwf : memWf zeroByte (drainCleared s).snp.store = true := sarkPut_wf h.store_wf _ _
  rw [sarkAt_congr (drainBegun_store p step s), sarkAt_sarkPut_other hwf, drainCleared, hfooter]
  rw [headerBytes_length]
  omega

theorem drainBegun_header {s : State} (h : Sound s) (p : ProtRec) (step : Nat) :
    sarkAt (drainBegun p step s) 0 0 32 = headerBytes s (memberCoord s p.ward) := by
  have hwf : memWf zeroByte (drainCleared s).snp.store = true := sarkPut_wf h.store_wf _ _
  have hheader := sarkAt_sarkPut hwf 0 (headerBytes s (memberCoord s p.ward))
  rw [headerBytes_length] at hheader
  rw [sarkAt_congr (drainBegun_store p step s), hheader]

/-! ### The ward's drain ends (R305) -/

/-- The payload and its footer are in the store. -/
def drainStored (k : Bool) (step : Nat) (all : List Byte) (s : State) : State :=
  sarkPut (footerBlock s k) (footerBytes s step all) (sarkPut (footerBlock s k + 1) all s)

/-- WARD_SNAP moves to the step. -/
def drainEnded (k : Bool) (step : Nat) (all : List Byte) (s : State) : State :=
  snpSync (modSnp (drainStored k step all s) fun n => { n with wardSnap := step, wardDrain := none, wardHold := none })

section
variable {p : ProtRec} {s : State} {step : Nat} {k : Bool} (hp : s.snp.prot = some p)
  (hdrain : s.snp.wardDrain = some (step, k))
include hp hdrain

theorem exec_drainComplete_stored (payload : List Byte) (hhold : s.snp.wardHold = none) :
    exec (.drainComplete (some payload) true) s = .next
      (inject (raise (drainEnded k step (paged payload) s) bSNP 13 locDevice noSeq 0) p.ward 6 (.snapshotNotice step)) := by
  have hall : paged payload ++ pagedTensors [] [] = paged payload := List.append_nil _
  refine congrArg Host.Outcome.next ?_
  unfold drainComplete drainWardEnd
  dsimp only
  rw [hp, hdrain]
  dsimp only
  rw [if_neg (by decide), hhold]
  dsimp only [Option.elim]
  rw [hall]
  rfl

theorem exec_drainComplete_failed (payload : List Byte) :
    exec (.drainComplete (some payload) false) s = .next (drainFail s) := by
  refine congrArg Host.Outcome.next ?_
  unfold drainComplete drainWardEnd
  dsimp only
  rw [hp, hdrain]
  rfl

end

theorem drainEnded_snp (k : Bool) (step : Nat) (all : List Byte) (s : State) : (drainEnded k step all s).snp =
    { (drainStored k step all s).snp with wardSnap := step, wardDrain := none, wardHold := none } := snpSync_snp _

theorem drainEnded_changes (k : Bool) (step : Nat) (all : List Byte) (s : State) :
    Within 251790626 s (drainEnded k step all s) := by
  unfold drainEnded drainStored
  exact snpSync_within _ (by decide) (modSnp_within _ _ (by decide) (fun _ => id) (sarkPut_within _ _ _ (by decide)
    (sarkPut_within _ _ _ (by decide) (.refl _ _))))

theorem drainEnded_store (k : Bool) (step : Nat) (all : List Byte) (s : State) :
    (drainEnded k step all s).snp.store = (drainStored k step all s).snp.store := by
  rw [drainEnded_snp]

section
variable {s : State} (h : Sound s) (k : Bool) (step : Nat) (all : List Byte)
include h

theorem drainStored_payload : sarkAt (drainStored k step all s) (footerBlock s k + 1) 0 all.length = all := by
  unfold drainStored
  rw [sarkAt_sarkPut_other (sarkPut_wf h.store_wf _ _), sarkAt_sarkPut h.store_wf]
  rw [footerBytes_length]
  omega

theorem drainStored_footer :
    sarkAt (drainStored k step all s) (footerBlock s k) 0 32 = footerBytes s step all := by
  have hfooter := sarkAt_sarkPut (sarkPut_wf h.store_wf (footerBlock s k + 1) all) (footerBlock s k)
    (footerBytes s step all)
  rwa [footerBytes_length] at hfooter

end

/-! ### The notice of the buddy (R305) -/

/-- The status once the buddy holds the snapshot of a step. -/
def SnpSt.saved (step : Nat) (n : SnpSt) : SnpSt :=
  { n with lastSnap := some step, written := n.dirtiedSince, staged := none }

section
variable {p : ProtRec} {s : State} {step : Nat} {slot : Bool} (hstaged : s.snp.staged = some (step, slot, true))
include hstaged

theorem exec_snapshotNotice : exec (.snapshotNotice step) s = .next (snpSync (modSnp s (SnpSt.saved step))) := by
  refine congrArg Host.Outcome.next ?_
  unfold snapshotNotice
  rw [hstaged]
  exact if_neg (not_not.mpr rfl)

theorem exec_drainComplete_own (hp : s.snp.prot = some p) (ok : Bool) : exec (.drainComplete none ok) s = .next
    (if ok then s else raise (modSnp s fun n => { n with staged := none }) bSNP 12 (locSlot p.seq) p.seq 0) := by
  refine congrArg Host.Outcome.next ?_
  unfold drainComplete drainOwnEnd
  dsimp only
  rw [hstaged, hp]

end

/-! ### Restores (R308) -/

theorem exec_restoreRequest_other {p : ProtRec} {s : State} (hp : s.snp.prot = some p) {src : Nat} (step : Nat)
    (h : src ≠ p.ward ∨ namesWard s src = false) :
    exec (.restoreRequest src step) s = .next (inject s src 5 (.restoreAnswer step .noCopy)) := by
  have hnone : (s.snp.prot.filter fun p => p.ward == src && namesWard s src) = none := by
    rw [hp, Option.filter_some, if_neg]
    rcases h with h | h
    · simp [Ne.symm h]
    · simp [h]
  refine congrArg Host.Outcome.next ?_
  unfold restoreRequest
  rw [hnone]

section
variable {p : ProtRec} {s : State} {k : Bool} (hp : s.snp.prot = some p) (hnames : namesWard s p.ward = true)
  (hslot : slotWith s s.snp.wardSnap = some k)
include hslot

/-- For WARD_SNAP the store alone is served. -/
theorem restoreCopy_stored (p : ProtRec) : restoreCopy p s.snp.wardSnap s = ((payloadOf s k).map fun x => [x], s) := by
  unfold restoreCopy
  dsimp only
  rw [if_pos ⟨rfl, by rw [hslot]; rfl⟩, hslot]
  rfl

include hp hnames

theorem restoreRequest_ward : restoreRequest p.ward s.snp.wardSnap s =
    match (payloadOf s k).map fun x => [x] with
    | some parts =>
      inject (sendParts p.ward s.snp.wardSnap parts s) p.ward 5 (.restoreAnswer s.snp.wardSnap .served)
    | none => inject s p.ward 5 (.restoreAnswer s.snp.wardSnap .noStep) := by
  have hsome : (s.snp.prot.filter fun q => q.ward == p.ward && namesWard s p.ward) = some p := by
    rw [hp, Option.filter_some, if_pos (by simp [hnames])]
  unfold restoreRequest
  rw [hsome]
  dsimp only
  rw [restoreCopy_stored hslot] <;> rfl

theorem exec_restoreRequest_served {x : List Byte} (hx : payloadOf s k = some x) :
    exec (.restoreRequest p.ward s.snp.wardSnap) s = .next
      (inject (sendParts p.ward s.snp.wardSnap [x] s) p.ward 5 (.restoreAnswer s.snp.wardSnap .served)) := by
  refine congrArg Host.Outcome.next ((restoreRequest_ward hp hnames hslot).trans ?_)
  rw [hx]
  rfl

theorem exec_restoreRequest_noStep (hx : payloadOf s k = none) : exec (.restoreRequest p.ward s.snp.wardSnap) s = .next
    (inject s p.ward 5 (.restoreAnswer s.snp.wardSnap .noStep)) := by
  refine congrArg Host.Outcome.next ((restoreRequest_ward hp hnames hslot).trans ?_)
  rw [hx]
  rfl

end

/-- No restore waits any more. -/
def restoreOver (s : State) : State := modSnp s fun n => { n with restoring := none }

/-- The status after a restore. -/
def SnpSt.restoredTo (step : Nat) (n : SnpSt) : SnpSt :=
  { n with restored := step, capt := some step, lastSnap := some step, forceNext := true }

section
variable {p : ProtRec} {s : State} {step : Nat} (hp : s.snp.prot = some p) (hr : s.snp.restoring = some step)
  (data : List (List Byte))
include hp hr

theorem restoreComplete_noCopy (ok : Bool) : restoreComplete data ok false s =
    raise (restoreOver s) bSNP 31 (locSlot p.seq) p.seq 0 := by
  unfold restoreComplete
  rw [hp, hr]
  rfl

theorem restoreComplete_badCrc : restoreComplete data false true s =
    raise (restoreOver s) bSNP 30 (locSlot p.seq) p.seq 0 := by
  unfold restoreComplete
  rw [hp, hr]
  rfl

theorem restoreComplete_written {v : State} (hlen : data.map (·.length) = p.tensors.map (·.bytes))
    (hv : restoreTensors (p.tensors.zip data) (restoreOver s) = (true, v)) : restoreComplete data true true s =
      raise (snpSync (modSnp v (SnpSt.restoredTo step))) bSNP 20 (locSlot p.seq) p.seq 0 := by
  unfold restoreOver at hv
  unfold restoreComplete
  rw [hp, hr]
  dsimp only
  rw [if_neg (by decide), if_neg (by simp [hlen]), hv]
  rfl

end

theorem exec_restoreComplete (data : List (List Byte)) (ok holds : Bool) (s : State) :
    exec (.restoreComplete data ok holds) s = .next (restoreComplete data ok holds s) := rfl

theorem restoreTensors_snp (l : List (Tensor × List Byte)) (s : State) : (restoreTensors l s).2.snp = s.snp :=
  (restoreTensors_within (M := 251659554) l s (by decide) (.refl _ _)).snp.resolve_left (by decide)

/-- Settles O47: the ward's mirror, both drains, the notice, and the two sides of a restore. -/
theorem buddiesExchangeSnapshots : Obligations.BuddiesExchangeSnapshots := by
  intro p s hs hp
  refine ⟨fun slot offs data trailer v hhold hfits hput => ?_, fun step slot bs v hstaged hread => ?_,
    fun step hup hok hidle => ⟨_, drainSlot s, exec_drainStart_ward hp hup hok hidle, (drainBegun_changes p step s).only rfl,
      rfl, drainSlot_free s, drainBegun_footer hs p step, drainBegun_header hs p step⟩,
    fun step k payload hdrain => ⟨fun hhold => ?_, _, _, exec_drainComplete_failed hp hdrain payload, rfl,
      modSnp_changesOnly _ _, rfl⟩,
    fun step slot hstaged => ⟨⟨_, _, exec_snapshotNotice hstaged, rfl, modSnp_changesOnly _ _, snpSync_snp _⟩,
      exec_drainComplete_own hstaged hp true, _, _, exec_drainComplete_own hstaged hp false, rfl, modSnp_changesOnly _ _, rfl⟩,
    fun src step h => exec_restoreRequest_other hp step h,
    fun k hnames hslot => ⟨fun x hx => exec_restoreRequest_served hp hnames hslot hx,
      exec_restoreRequest_noStep hp hnames hslot⟩,
    fun step data hr => ⟨fun v hlen hv => ⟨_, _, (exec_restoreComplete ..).trans (congrArg Host.Outcome.next
        (restoreComplete_written hp hr data hlen hv)), rfl, modSnp_changesOnly _ _, ?_⟩,
      ⟨_, _, (exec_restoreComplete ..).trans (congrArg Host.Outcome.next (restoreComplete_badCrc hp hr data)), rfl,
        modSnp_changesOnly _ _, rfl, raise_mem _ _ _ _ _ _⟩,
      fun ok => ⟨_, _, (exec_restoreComplete ..).trans (congrArg Host.Outcome.next (restoreComplete_noCopy hp hr data ok)),
        rfl, modSnp_changesOnly _ _, rfl, raise_mem _ _ _ _ _ _⟩⟩⟩
  · have hv : v.snp = (mirrorOpened slot s).snp := by
      rw [← putSectors_snp (p.mirrorVa + slot.toNat * p.mirrorBytes + offs) ⟨data.bytes, data.bad⟩ (mirrorOpened slot s)]
      exact congrArg (fun x => x.2.snp) hput.symm
    refine ⟨_, _, exec_mirrorReceive trailer hp hhold hfits hput, rfl, mirrorTaken_changesOnly _ _ _ _ _ _, ?_⟩
    rw [wardWord_congr ((inject_snp _ _ _ _).trans (snpSync_snp _)), wardWord_congr ((inject_snp _ _ _ _).trans (snpSync_snp _))]
    exact mirrorTaken_words trailer s.snp.wardSnap hv
  · refine ⟨_, exec_drainStart_own hp hstaged hread, ?_, (drainStarted_changes p step slot hread).only rfl⟩
    rw [(drainSent_changes _ _ _ _).snp.resolve_left (by decide), modSnp_snp, snapRead_snp hread]
  · have hsnp : (inject (raise (drainEnded k step (paged payload) s) bSNP 13 locDevice noSeq 0) p.ward 6
        (.snapshotNotice step)).snp = (drainEnded k step (paged payload) s).snp :=
      (inject_snp _ _ _ _).trans (raise_snp _ _ _ _ _ _)
    have hstore := (congrArg SnpSt.store hsnp).trans (drainEnded_store k step (paged payload) s)
    refine ⟨_, _, exec_drainComplete_stored hp hdrain payload hhold, rfl, ?_, ?_, ?_, ?_,
      (drainEnded_changes _ _ _ _).only rfl⟩
    · rw [hsnp, drainEnded_snp]
    · rw [hsnp, drainEnded_snp]
    · rw [sarkAt_congr hstore, drainStored_payload hs]
    · rw [sarkAt_congr hstore, drainStored_footer hs, footerBytes_step]
  · have hv : v.snp = (restoreOver s).snp :=
      (congrArg (fun x => x.2.snp) hv.symm).trans (restoreTensors_snp _ (restoreOver s))
    rw [modSnp_snp, hv]
    rfl

end Sys2Proof.Machine
end

section
/-! Commands of the codec contexts (17 R316, R318, R323, R325). -/

namespace Sys2Proof.Machine

theorem cmdCtx_lt (c : DmaCmd) : cmdCtx c < 128 := Nat.mod_lt _ (by decide)

theorem powerHalves_ctxAt (s : State) (k : Nat) : ctxAt (powerHalves s) k = ctxAt s k := rfl

theorem withCod_changesOnly (s : State) (k : CodSt) : ChangesOnly [.cod] s { s with cod := k } := by
  intro p hp
  cases p with
  | cod => exact absurd List.mem_cons_self hp
  | _ => rfl

theorem modCtx_changesOnly (s : State) (i : Nat) (f : CtxSt → CtxSt) : ChangesOnly [.cod] s (modCtx s i f) :=
  withCod_changesOnly s _

theorem powerHalves_changesOnly (s : State) (i : Nat) (f : CtxSt → CtxSt) :
    ChangesOnly [.cod] s (powerHalves (modCtx s i f)) := withCod_changesOnly s _

section
variable {s : State} {i : Nat} (f : CtxSt → CtxSt)

theorem ctxAt_modCtx_same (h : i < s.cod.ctxs.length) : ctxAt (modCtx s i f) i = f (ctxAt s i) :=
  (ctxAt_modCtx ..).trans (if_pos ⟨rfl, h⟩)

theorem ctxAt_modCtx_other {k : Nat} (h : k ≠ i) : ctxAt (modCtx s i f) k = ctxAt s k :=
  (ctxAt_modCtx ..).trans (if_neg fun e => h e.1)

theorem modCtx_length : (modCtx s i f).cod.ctxs.length = s.cod.ctxs.length := List.length_modify ..

end

/-! ### What starts on an engine -/

section
variable (e : Engine) (s : State)

theorem exec_open : exec (.open_ e) s = .next (startOp e 0x20 (fun c s => runOpen e c s) s) := rfl
theorem exec_close : exec (.close e) s = .next (startOp e 0x21 (fun c s => runClose e c s) s) := rfl
theorem exec_encode : exec (.encode e) s = .next (startOp e 0x22 (fun c s => runEncode e c s) s) := rfl
theorem exec_decode (au : AccessUnit) :
    exec (.decode e au) s = .next (startOp e 0x23 (fun c s => runDecode e au c s) s) := rfl

end

theorem starts_changes {s v : State} {e : Nat} {c : DmaCmd} (h : starts s e = some (c, v)) : Within 251665902 s v := by
  obtain ⟨-, -, rfl⟩ := starts_cases h
  exact takeCmd_within _ _ _ (by decide) (readQueue_within _ _ _ (by decide) (.refl _ _))

theorem starts_length {s v : State} {e : Nat} {c : DmaCmd} (hs : Sound s) (h : starts s e = some (c, v)) :
    cmdCtx c < v.cod.ctxs.length := by
  rw [((starts_changes h).sound hs).ctxs_length]
  exact cmdCtx_lt c

/-! ### OPEN (R316) -/

/-- The context of a command is open with a descriptor; the halves are powered with their contexts. -/
def ctxOpened (c : DmaCmd) (bs : List Byte) (s : State) : State :=
  powerHalves (modCtx s (cmdCtx c) fun _ => { CtxSt.reset with desc := some (ctxDesc bs), coder := Config.coderStart bs })

theorem runOpen_opens {e : Nat} {c : DmaCmd} {v : State} {g : Held} {r : Xfer}
    (hread : srcBytes ⟨true, true⟩ (cmdN c 8 8 % 2 ^ 52) 128 ⟨v, c, [], e⟩ = (.inl g, r)) (hpoison : g.poison = false)
    (hok : (ctxDesc g.bytes).ok g.bytes = true) (hown : 64 * (ctxDesc g.bytes).dir + (ctxDesc g.bytes).ctx = cmdCtx c)
    (hclosed : (ctxAt r.s (cmdCtx c)).desc = none) (hlive : overLive r.s (cmdCtx c) (ctxDesc g.bytes) = false)
    (hrate : rateLow (ctxDesc g.bytes) = false) :
    runOpen e c v = complete (ctxOpened c g.bytes r.s) e c stOK := by
  unfold runOpen ctxOpened
  dsimp only
  rw [hread]
  dsimp only
  rw [if_neg (by simp [hpoison, hok, hown, hclosed]), if_neg (by simp [hlive, hrate])]

section
variable {c : DmaCmd} {s : State} (bs : List Byte)

theorem ctxOpened_changesOnly : ChangesOnly [.cod] s (ctxOpened c bs s) := by
  unfold ctxOpened
  exact powerHalves_changesOnly _ _ _

theorem ctxAt_ctxOpened (h : cmdCtx c < s.cod.ctxs.length) : ctxAt (ctxOpened c bs s) (cmdCtx c) =
    { CtxSt.reset with desc := some (ctxDesc bs), coder := Config.coderStart bs } := by
  unfold ctxOpened
  rw [powerHalves_ctxAt, ctxAt_modCtx_same _ h]

theorem ctxAt_ctxOpened_other {k : Nat} (hk : k ≠ cmdCtx c) : ctxAt (ctxOpened c bs s) k = ctxAt s k := by
  unfold ctxOpened
  rw [powerHalves_ctxAt, ctxAt_modCtx_other _ hk]

end

/-! ### Commands of a closed context (R318) -/

theorem handPicture_closed {e i : Nat} {c : DmaCmd} {p : Picture} {s : State} (h : (ctxAt s i).desc = none) :
    handPicture e i c p s = closedCtx s e c := by
  unfold handPicture
  rw [h]

theorem runClose_closed {e : Nat} {c : DmaCmd} {s : State} (h : (ctxAt s (cmdCtx c)).desc = none) :
    runClose e c s = closedCtx s e c := if_pos (by rw [h]; rfl)

/-! ### CLOSE (R318) -/

/-- A CLOSE has been accepted. -/
def ctxClosing (e : Nat) (c : DmaCmd) (s : State) : State := modCtx s (cmdCtx c) fun k => { k with closing := some (e, c) }

section
variable {e : Nat} {c : DmaCmd} {s : State} {d : CtxDesc} (hlen : cmdCtx c < s.cod.ctxs.length)
  (hd : (ctxAt s (cmdCtx c)).desc = some d)
include hlen hd

theorem runClose_open : runClose e c s =
    if (ctxAt s (cmdCtx c)).queue.isEmpty then shutCtx (ctxClosing e c s) (cmdCtx c) e c else ctxClosing e c s := by
  have hctx : ctxAt (ctxClosing e c s) (cmdCtx c) = { ctxAt s (cmdCtx c) with closing := some (e, c) } :=
    ctxAt_modCtx_same _ hlen
  have hclose : runClose e c s = closeIfDone (cmdCtx c) (ctxClosing e c s) := if_neg (by rw [hd]; exact Bool.false_ne_true)
  rw [hclose, closeIfDone, hctx]

end

/-- The context has no state any more. -/
def ctxShut (e : Nat) (c : DmaCmd) (s : State) : State :=
  powerHalves (modCtx (ctxClosing e c s) (cmdCtx c) fun _ => CtxSt.reset)

section
variable (e : Nat) {c : DmaCmd} {s : State}

theorem ctxShut_changesOnly : ChangesOnly [.cod] s (ctxShut e c s) := by
  unfold ctxShut ctxClosing
  exact withCod_changesOnly s _

theorem ctxAt_ctxShut (h : cmdCtx c < s.cod.ctxs.length) : ctxAt (ctxShut e c s) (cmdCtx c) = CtxSt.reset := by
  unfold ctxShut
  rw [powerHalves_ctxAt, ctxAt_modCtx_same _ (by rw [ctxClosing, modCtx_length]; exact h)]

theorem ctxAt_ctxShut_other {k : Nat} (hk : k ≠ cmdCtx c) : ctxAt (ctxShut e c s) k = ctxAt s k := by
  unfold ctxShut ctxClosing
  rw [powerHalves_ctxAt, ctxAt_modCtx_other _ hk, ctxAt_modCtx_other _ hk]

end

theorem shutCtx_eq (e : Nat) (c : DmaCmd) (s : State) :
    shutCtx (ctxClosing e c s) (cmdCtx c) e c = complete (ctxShut e c s) e c stOK := rfl

/-! ### ENCODE and DECODE (R318, R323) -/

/-- A picture has joined the end of its context's queue. -/
def ctxJoined (i : Nat) (p : Picture) (s : State) : State := modCtx s i fun k => { k with queue := k.queue ++ [p] }

/-- A picture that no fault has parked, and that is not late, joins its context. -/
theorem handPicture_joins {e i : Nat} {c : DmaCmd} {p : Picture} {s : State} {d : CtxDesc}
    (hd : (ctxAt s i).desc = some d) (hnew : ∀ q ∈ (ctxAt s i).queue, q.cmd.num ≠ c.num)
    (hlive : d.cls = 0 → (domAt s d.domain).tickNo % 2 ^ 48 < p.deadline) :
    handPicture e i c p s = ctxJoined i p s := by
  have hnone : (ctxAt s i).queue.any (·.cmd.num == c.num) = false :=
    List.any_eq_false.mpr fun q hq => by simpa using hnew q hq
  have hintime : ¬ (decide (d.cls = 0) && decide (p.deadline ≤ (domAt s d.domain).tickNo % 2 ^ 48)) = true := by
    rw [Bool.and_eq_true, decide_eq_true_eq, decide_eq_true_eq]
    exact fun hlate => Nat.not_le.mpr (hlive hlate.1) hlate.2
  unfold handPicture ctxJoined
  rw [hd]
  dsimp only
  rw [if_neg (by rw [hnone]; decide)]
  exact if_neg hintime

theorem runEncode_hands (e : Nat) (c : DmaCmd) (s : State) : ∃ key, runEncode e c s =
    handPicture e (cmdCtx c) c (newPicture c e ((ctxAt s (cmdCtx c)).desc.elim 1 (·.bh)) key none) s := ⟨_, rfl⟩

section
variable {s v : State} {e : Engine} {c : DmaCmd} (h : starts s e = some (c, v))
include h

theorem exec_closed (au : AccessUnit) {i : Instr} {op : Nat}
    (hi : (i, op) ∈ [(Instr.close e, 0x21), (.encode e, 0x22), (.decode e au, 0x23)]) (hop : cmdOp c = op)
    (hclosed : (ctxAt v (cmdCtx c)).desc = none) : exec i s = .next (closedCtx v e c) := by
  simp only [List.mem_cons, List.not_mem_nil, or_false, Prod.mk.injEq] at hi
  obtain ⟨rfl, rfl⟩ | ⟨rfl, rfl⟩ | ⟨rfl, rfl⟩ := hi
  · rw [exec_close, startOp_of_starts h hop, runClose_closed hclosed]
  · rw [exec_encode, startOp_of_starts h hop, runEncode, handPicture_closed hclosed]
  · rw [exec_decode, startOp_of_starts h hop, runDecode, handPicture_closed hclosed]

/-- ENCODE and DECODE add one picture. -/
theorem exec_joins {d : CtxDesc} (hd : (ctxAt v (cmdCtx c)).desc = some d) (au : AccessUnit) {i : Instr} {op rows : Nat}
    {a : Option AccessUnit} (hi : (i, op, a, rows) ∈ [(Instr.encode e, 0x22, none, d.bh),
      (.decode e au, 0x23, some au, max 1 (cdiv au.height 64))]) (hop : cmdOp c = op)
    (hnew : ∀ p ∈ (ctxAt v (cmdCtx c)).queue, p.cmd.num ≠ c.num)
    (hlive : d.cls = 0 → (domAt v d.domain).tickNo % 2 ^ 48 < cmdN c 0x30 8 % 2 ^ 48) :
    ∃ key, exec i s = .next (ctxJoined (cmdCtx c) (newPicture c e rows key a) v) := by
  simp only [List.mem_cons, List.not_mem_nil, or_false, Prod.mk.injEq] at hi
  obtain ⟨rfl, rfl, rfl, rfl⟩ | ⟨rfl, rfl, rfl, rfl⟩ := hi
  · obtain ⟨key, hkey⟩ := runEncode_hands e c v
    rw [hd] at hkey
    refine ⟨key, ?_⟩
    rw [exec_encode, startOp_of_starts h hop, hkey]
    exact congrArg Host.Outcome.next (handPicture_joins hd hnew hlive)
  · refine ⟨false, ?_⟩
    rw [exec_decode, startOp_of_starts h hop]
    exact congrArg Host.Outcome.next (handPicture_joins hd hnew hlive)

end

/-- Settles O48: OPEN and CLOSE of a context, the pictures that join one, and every command of a closed one. -/
theorem codecCommandsTakeEffect : Obligations.CodecCommandsTakeEffect := by
  intro e au s v c hs h
  have hlen := starts_length hs h
  refine ⟨fun hop g r hread hpoison hok hown hclosed hlive hrate => ?_, fun i op hi hop hclosed =>
      ⟨_, exec_closed h au hi hop hclosed, rfl⟩,
    fun d hd => ⟨fun hop hempty => ?_, fun hop hwork => ?_, fun i op a rows hi hop hnew hlive => ?_⟩⟩
  · have hread' : Within 251659554 v r.s :=
      congrArg (fun x => x.2.s) hread ▸ srcBytes_within (M := 251659554) _ _ _ ⟨v, c, [], e⟩ (by decide) (.refl _ _)
    have hrlen : cmdCtx c < r.s.cod.ctxs.length := by
      rw [hread'.cod.resolve_left (by decide)]
      exact hlen
    refine ⟨_, ctxOpened c g.bytes r.s, ?_, rfl, ctxOpened_changesOnly _, ctxAt_ctxOpened _ hrlen,
      fun k hk => ctxAt_ctxOpened_other _ hk⟩
    rw [exec_open, startOp_of_starts h hop, runOpen_opens hread hpoison hok hown hclosed hlive hrate]
  · refine ⟨_, ctxShut e c v, ?_, shutCtx_eq e c v, ctxShut_changesOnly e, ctxAt_ctxShut e hlen,
      fun k hk => ctxAt_ctxShut_other e hk⟩
    rw [exec_close, startOp_of_starts h hop, runClose_open hlen hd, if_pos (by rw [hempty]; rfl)]
  · refine ⟨ctxClosing e c v, ?_, modCtx_changesOnly _ _ _, ctxAt_modCtx_same _ hlen, fun k hk => ctxAt_modCtx_other _ hk⟩
    rw [exec_close, startOp_of_starts h hop, runClose_open hlen hd, if_neg (by simpa using hwork)]
  · obtain ⟨key, hexec⟩ := exec_joins h hd au hi hop hnew hlive
    exact ⟨_, newPicture c e rows key a, hexec, modCtx_changesOnly _ _ _, ctxAt_modCtx_same _ hlen, rfl, rfl, rfl, rfl, rfl,
      rfl, fun k hk => ctxAt_modCtx_other _ hk⟩

end Sys2Proof.Machine
end

section
/-! The schedule of the codec's block rows (17 R324, R326). -/

namespace Sys2Proof.Machine

/-! ### The earliest deadline (R326) -/

/-- The order of the live contexts of a half: by deadline, then by number. -/
def rowBefore (a b : Nat × Nat) : Bool := decide (a.1 < b.1) || (a.1 == b.1 && decide (a.2 ≤ b.2))

theorem rowBefore_iff {a b : Nat × Nat} : rowBefore a b = true ↔ a.1 < b.1 ∨ a.1 = b.1 ∧ a.2 ≤ b.2 := by
  simp [rowBefore]

theorem rowBefore_antisymm {a b : Nat × Nat} (h : rowBefore a b = true) (k : rowBefore b a = true) : a = b := by
  rw [rowBefore_iff] at h k
  exact Prod.ext (by omega) (by omega)

theorem rowBefore_sorted (l : List (Nat × Nat)) : (l.mergeSort rowBefore).Pairwise fun a b => rowBefore a b = true := by
  refine List.pairwise_mergeSort (fun a b c hab hbc => ?_) (fun a b => ?_) l
  · rw [rowBefore_iff] at hab hbc ⊢
    omega
  · rw [Bool.or_eq_true, rowBefore_iff, rowBefore_iff]
    omega

/-- An entry that comes before every other one is the first. -/
theorem mergeSort_first {a : Nat × Nat} {l : List (Nat × Nat)} (ha : a ∈ l) (hfirst : ∀ b ∈ l, rowBefore a b = true) :
    ∃ rest, l.mergeSort rowBefore = a :: rest := by
  have hmem : a ∈ l.mergeSort rowBefore := List.mem_mergeSort.mpr ha
  have hsorted := rowBefore_sorted l
  cases hl : l.mergeSort rowBefore with
  | nil => exact absurd (hl ▸ hmem) List.not_mem_nil
  | cons b rest =>
    rw [hl] at hmem hsorted
    have hb : b ∈ l := List.mem_mergeSort.mp (hl ▸ List.mem_cons_self)
    obtain rfl | hrest := List.mem_cons.mp hmem
    · exact ⟨rest, rfl⟩
    · exact ⟨rest, congrArg (· :: rest) (rowBefore_antisymm ((List.pairwise_cons.mp hsorted).1 a hrest) (hfirst b hb))⟩

/-- The live contexts of a list with work, with the deadline of their head picture. -/
def liveWork (s : State) (l : List Nat) : List (Nat × Nat) :=
  l.filterMap fun i => (headPic s i).bind fun p => if p.1.cls = 0 then some (p.2.deadline, i) else none

theorem liveOrder_eq (s : State) (l : List Nat) : liveOrder s l = ((liveWork s l).mergeSort rowBefore).map (·.2) := rfl

theorem mem_liveWork {s : State} {l : List Nat} {a : Nat × Nat} : a ∈ liveWork s l ↔
    ∃ d p, a.2 ∈ l ∧ headPic s a.2 = some (d, p) ∧ d.cls = 0 ∧ p.deadline = a.1 := by
  unfold liveWork
  rw [List.mem_filterMap]
  constructor
  · rintro ⟨i, hi, h⟩
    obtain ⟨⟨d, p⟩, hhead, hq⟩ := Option.bind_eq_some_iff.mp h
    split at hq
    next hcls =>
      cases hq
      exact ⟨d, p, hi, hhead, hcls, rfl⟩
    next => cases hq
  · rintro ⟨d, p, hi, hhead, hcls, hdead⟩
    refine ⟨a.2, hi, Option.bind_eq_some_iff.mpr ⟨(d, p), hhead, ?_⟩⟩
    rw [if_pos hcls, hdead]

/-- The contexts of a half. -/
def halfCtxs (x : Nat) (enc : Bool) : List Nat := (List.range 32).map (32 * x + (if enc then 0 else 64) + ·)

theorem mem_halfCtxs {x : Nat} {enc : Bool} {i : Nat} : i ∈ halfCtxs x enc ↔ i / 32 = x + (if enc then 0 else 2) := by
  unfold halfCtxs
  rw [List.mem_map]
  cases enc
  · constructor
    · rintro ⟨k, hk, rfl⟩
      have := List.mem_range.mp hk
      simp only [Bool.false_eq_true, if_false]
      omega
    · intro h
      simp only [Bool.false_eq_true, if_false] at h ⊢
      exact ⟨i - (32 * x + 64), List.mem_range.mpr (by omega), by omega⟩
  · constructor
    · rintro ⟨k, hk, rfl⟩
      have := List.mem_range.mp hk
      simp only [if_true]
      omega
    · intro h
      simp only [if_true] at h ⊢
      exact ⟨i - 32 * x, List.mem_range.mpr (by omega), by omega⟩

section
variable {x : Nat} {enc : Bool} {i : Nat} {s : State} {d : CtxDesc} {p : Picture}

/-- The context with the earliest deadline is tried first. -/
theorem liveOrder_first (hi : i / 32 = x + (if enc then 0 else 2)) (hhead : headPic s i = some (d, p)) (hcls : d.cls = 0)
    (hearliest : ∀ k e q, k / 32 = i / 32 → headPic s k = some (e, q) → e.cls = 0 →
      p.deadline < q.deadline ∨ (p.deadline = q.deadline ∧ i ≤ k)) :
    ∃ rest, liveOrder s (halfCtxs x enc) = i :: rest := by
  have hwork : (p.deadline, i) ∈ liveWork s (halfCtxs x enc) :=
    mem_liveWork.mpr ⟨d, p, mem_halfCtxs.mpr hi, hhead, hcls, rfl⟩
  obtain ⟨rest, hrest⟩ := mergeSort_first hwork fun b hb => by
    obtain ⟨e, q, hk, hq, he, hdead⟩ := mem_liveWork.mp hb
    rw [rowBefore_iff, ← hdead]
    exact hearliest b.2 e q ((mem_halfCtxs.mp hk).trans hi.symm) hq he
  exact ⟨rest.map (·.2), by rw [liveOrder_eq, hrest, List.map_cons]⟩

/-- Try one context. -/
def tryCtx (i : Nat) (d : CtxDesc) (p : Picture) (s : State) : Bool × State :=
  if i < 64 then encTry i d p s else decTry i d p s

theorem tryRows_done (l : List Nat) (i : Nat) (s : State) :
    l.foldl (fun (acc : Option Nat × State) i =>
      match acc.1, headPic acc.2 i with
      | none, some (d, p) =>
        let r := if i < 64 then encTry i d p acc.2 else decTry i d p acc.2
        (if r.1 then some i else none, r.2)
      | _, _ => acc) (some i, s) = (some i, s) := by
  induction l with
  | nil => rfl
  | cons k l ih => exact ih

/-- The first context of a list that works takes the row. -/
theorem tryRows_first {rest : List Nat} {t : State} (hhead : headPic s i = some (d, p)) (hworks : tryCtx i d p s = (true, t)) :
    tryRows (i :: rest) s = (some i, t) := by
  unfold tryCtx at hworks
  unfold tryRows
  rw [List.foldl_cons, hhead]
  dsimp only
  rw [hworks, if_pos rfl]
  exact tryRows_done rest i t

theorem rowSchedule_first {t : State} (hka : s.pwr.keepalive = false) (hreset : s.boot.inReset = false)
    (hi : i / 32 = x + (if enc then 0 else 2)) (hhead : headPic s i = some (d, p)) (hcls : d.cls = 0)
    (hearliest : ∀ k e q, k / 32 = i / 32 → headPic s k = some (e, q) → e.cls = 0 →
      p.deadline < q.deadline ∨ (p.deadline = q.deadline ∧ i ≤ k)) (hworks : tryCtx i d p s = (true, t)) :
    rowSchedule x enc s = t := by
  obtain ⟨rest, hrest⟩ := liveOrder_first hi hhead hcls hearliest
  unfold halfCtxs at hrest
  unfold rowSchedule
  rw [if_neg (by simp [hka, hreset])]
  dsimp only
  rw [hrest, tryRows_first hhead hworks]
  rfl

end

theorem exec_codecRowSchedule (x : Sys2Proof.Complex) (enc : Bool) (s : State) :
    exec (.codecRowSchedule x enc) s = .next (rowSchedule x enc s) := rfl

/-! ### One row of a picture (R324) -/

theorem headPic_head {s : State} {i : Nat} {d : CtxDesc} {p : Picture} (h : headPic s i = some (d, p)) :
    (ctxAt s i).queue.head? = some p := by
  unfold headPic at h
  split at h
  next hd hp =>
    split at h
    · cases h
    · cases h
      exact hp
  next => cases h

theorem modPic_changesOnly (s : State) (i num : Nat) (f : Picture → Picture) : ChangesOnly [.cod] s (modPic s i num f) :=
  modCtx_changesOnly s i _

theorem ctxAt_modPic_other {s : State} {i k : Nat} (num : Nat) (f : Picture → Picture) (h : k ≠ i) :
    ctxAt (modPic s i num f) k = ctxAt s k := ctxAt_modCtx_other _ h

/-- The picture at the head of a queue, changed by its command's number. -/
theorem modPic_head {s : State} {i : Nat} {p : Picture} (f : Picture → Picture) (hi : i < s.cod.ctxs.length)
    (hp : (ctxAt s i).queue.head? = some p) : (ctxAt (modPic s i p.cmd.num f) i).queue.head? = some (f p) := by
  unfold modPic
  rw [ctxAt_modCtx_same _ hi]
  dsimp only
  rw [List.head?_map, hp, Option.map_some, if_pos rfl]

theorem decTry_row {s : State} {i : Nat} {d : CtxDesc} {p : Picture} {a : AccessUnit} (ha : p.au = some a)
    (hrows : p.rowsDone + 1 < p.rows) :
    decTry i d p s = (true, modPic s i p.cmd.num fun p => { p with begun := true, rowsDone := p.rowsDone + 1 }) := by
  unfold decTry
  rw [ha]
  exact if_pos hrows

/-- What coding blocks does to a picture: the bits that it has spent only grow, and so does its stage. -/
def Coded (p q : Picture) : Prop :=
  q.cmd = p.cmd ∧ q.src = p.src ∧ q.rows = p.rows ∧ p.spent ≤ q.spent ∧ (p.stage ≤ 3 → p.stage ≤ q.stage ∧ q.stage ≤ 3)

theorem Coded.trans {p q r : Picture} (h : Coded p q) (k : Coded q r) : Coded p r := by
  obtain ⟨hcmd, hsrc, hrows, hspent, hstage⟩ := h
  obtain ⟨kcmd, ksrc, krows, kspent, kstage⟩ := k
  refine ⟨kcmd.trans hcmd, ksrc.trans hsrc, krows.trans hrows, hspent.trans kspent, fun h3 => ?_⟩
  obtain ⟨hle, hq⟩ := hstage h3
  obtain ⟨kle, hr⟩ := kstage hq
  exact ⟨hle.trans kle, hr⟩

/-- A block is committed at the picture's stage or at a later one (R323). -/
theorem le_blockStage (coder : Nat) (p : Picture) (total b : Nat) {stage : Nat} (h : stage ≤ 3) :
    stage ≤ blockStage coder p total b stage ∧ blockStage coder p total b stage ≤ 3 := by
  unfold blockStage
  dsimp only
  split
  next h1 =>
    rw [Bool.and_eq_true, decide_eq_true_eq] at h1
    omega
  · split
    next h2 =>
      rw [Bool.and_eq_true, decide_eq_true_eq] at h2
      omega
    · omega

theorem codeBlock_coded (coder total : Nat) (bad : List Nat) (base : Nat) (p : Picture) (k : Nat) :
    Coded p (codeBlock coder total bad base p k) := by
  unfold codeBlock
  dsimp only
  split
  · exact ⟨rfl, rfl, rfl, Nat.le_add_right _ _, fun h => ⟨Nat.le_refl _, h⟩⟩
  · exact ⟨rfl, rfl, rfl, Nat.le_add_right _ _, le_blockStage coder p total (base + k)⟩

/-- The blocks of a row, one after another. -/
def rowCoded (coder : Nat) (d : CtxDesc) (bs : List Byte) (p : Picture) : Picture :=
  (List.range d.bw).foldl (codeBlock coder (d.bw * d.bh) [] (p.rowsDone * d.bw)) { p with src := p.src ++ bs }

theorem rowCoded_coded (coder : Nat) (d : CtxDesc) (bs : List Byte) (p : Picture) :
    Coded { p with src := p.src ++ bs } (rowCoded coder d bs p) :=
  List.foldlRecOn (motive := Coded { p with src := p.src ++ bs }) (List.range d.bw)
    (codeBlock coder (d.bw * d.bh) [] (p.rowsDone * d.bw))
    ⟨rfl, rfl, rfl, Nat.le_refl _, fun h => ⟨Nat.le_refl _, h⟩⟩ fun _ hq k _ => hq.trans (codeBlock_coded _ _ _ _ _ k)

/-- A row without a poisoned sample, which is not the last, is coded. -/
def rowDone (coder : Nat) (d : CtxDesc) (bs : List Byte) (p : Picture) : Picture :=
  { rowCoded coder d bs p with rowsDone := p.rowsDone + 1 }

theorem encTry_row {s : State} {i : Nat} {d : CtxDesc} {p : Picture} {bs : List Byte} {r : Xfer} (hbegun : p.begun = true)
    (hrows : p.rowsDone + 1 < p.rows)
    (hread : readRow d (cmdN p.cmd 8 8 % 2 ^ 52) p.rowsDone ⟨s, p.cmd, [], p.eng⟩ = (.inl ([], bs), r)) :
    encTry i d p s = (true, modPic r.s i p.cmd.num fun _ => rowDone (ctxAt s i).coder d bs p) := by
  have hmore : ¬ (rowDone (ctxAt s i).coder d bs p).rowsDone = (rowDone (ctxAt s i).coder d bs p).rows := by
    obtain ⟨-, -, hsame, -⟩ := rowCoded_coded (ctxAt s i).coder d bs p
    exact fun hlast => Nat.ne_of_lt hrows (hlast.trans hsame)
  unfold encTry
  rw [if_pos hbegun]
  refine congrArg (Prod.mk true) ?_
  unfold encRow
  dsimp only
  rw [hread]
  exact if_neg hmore

/-- Settles O49: the context with the earliest deadline is tried first, and its row is done. -/
theorem rowsGoToTheEarliestDeadline : Obligations.RowsGoToTheEarliestDeadline := by
  intro x s hs
  refine ⟨fun enc i d p hka hreset hi hhead hcls hrows hearliest => ⟨fun a henc ha => ?_, fun bs r henc hbegun hread => ?_⟩,
    fun v hmay => ⟨_, exec_codKeyreq hmay v, withCod_changesOnly s _, rfl⟩⟩
  all_goals
    have hx := x.isLt
    have hlen : i < s.cod.ctxs.length := by
      rw [hs.ctxs_length]
      split at hi <;> omega
  · have hworks : tryCtx i d p s = (true, modPic s i p.cmd.num fun p => { p with begun := true, rowsDone := p.rowsDone + 1 }) :=
      (if_neg (by rw [henc] at hi; simp only [Bool.false_eq_true, if_false] at hi; omega)).trans (decTry_row ha hrows)
    refine ⟨_, (exec_codecRowSchedule x enc s).trans (congrArg Host.Outcome.next
      (rowSchedule_first hka hreset hi hhead hcls hearliest hworks)), modPic_changesOnly _ _ _ _, ?_,
      fun k hk => ctxAt_modPic_other _ _ hk⟩
    rw [modPic_head _ hlen (headPic_head hhead)]
  · have hworks : tryCtx i d p s = (true, modPic r.s i p.cmd.num fun _ => rowDone (ctxAt s i).coder d bs p) :=
      (if_pos (by rw [henc] at hi; simp only [if_true] at hi; omega)).trans (encTry_row hbegun hrows hread)
    have hcod : r.s.cod = s.cod :=
      ((congrArg (fun x => x.2.s) hread ▸ readRow_within (M := 251659554) d _ _ ⟨s, p.cmd, [], p.eng⟩ (by decide)
        (.refl _ _) : Within 251659554 s r.s)).cod.resolve_left (by decide)
    obtain ⟨hcmd, hsrc, -, hspent, hstage⟩ := rowCoded_coded (ctxAt s i).coder d bs p
    refine ⟨_, rowDone (ctxAt s i).coder d bs p, (exec_codecRowSchedule x enc s).trans (congrArg Host.Outcome.next
      (rowSchedule_first hka hreset hi hhead hcls hearliest hworks)), modPic_changesOnly _ _ _ _, ?_, hcmd, rfl, hsrc,
      hspent, fun h => (hstage h).1, fun k hk => (ctxAt_modPic_other _ _ hk).trans (ctxAt_congr hcod k)⟩
    exact modPic_head _ (by rw [hcod]; exact hlen) ((congrArg (fun x => x.queue.head?) (ctxAt_congr hcod i)).trans
      (headPic_head hhead))

end Sys2Proof.Machine
end

section
/-! Input flows, PLAY and the coded flows of ports 2 and 3 (18 R339, R341, R343, R346, R347). -/

namespace Sys2Proof.Machine

/-! ### Flows -/

theorem modFlow_changesOnly (s : State) (f : Nat) (g : FlowSt → FlowSt) : ChangesOnly [.flow] s (modFlow s f g) :=
  (modFlow_within (M := 524288) s f g (by decide) (.refl _ _)).only rfl

theorem ctrAdd_changesOnly (s : State) (i n : Nat) : ChangesOnly [.obs] s (ctrAdd s i n) :=
  (ctrAdd_within (M := 33554432) s i n (by decide) (.refl _ _)).only rfl

theorem flowAt_congr {s t : State} (h : t.flow = s.flow) (k : Nat) : flowAt t k = flowAt s k := by
  unfold flowAt
  rw [h]

theorem flowAt_beyond {s : State} {k : Nat} (h : s.flow.length ≤ k) : flowAt s k = FlowSt.reset :=
  unit_of_length_le _ h

theorem flowAt_modFlow_same {s : State} {f : Nat} (h : f < s.flow.length) (g : FlowSt → FlowSt) :
    flowAt (modFlow s f g) f = g (flowAt s f) :=
  (flowAt_modFlow ..).trans (if_pos ⟨rfl, h⟩)

theorem flowAt_modFlow_other {f k : Nat} (h : k ≠ f) (s : State) (g : FlowSt → FlowSt) :
    flowAt (modFlow s f g) k = flowAt s k :=
  (flowAt_modFlow ..).trans (if_neg fun e => h e.1)

theorem modFlow_length (s : State) (f : Nat) (g : FlowSt → FlowSt) : (modFlow s f g).flow.length = s.flow.length :=
  List.length_modify ..

/-- A configured flow is one of the device. -/
theorem flow_bound {s : State} {f : Nat} {c : FlowCfg} (h : (flowAt s f).cfg = some c) : f < s.flow.length := by
  by_contra hle
  rw [flowAt_beyond (Nat.not_lt.mp hle)] at h
  cases h

@[simp] theorem raise_flowAt (s : State) (block num : Nat) (l : BitVec 32) (seq : Nat) (detail : Word64) (k : Nat) :
    flowAt (raise s block num l seq detail) k = flowAt s k :=
  flowAt_congr ((raise_changes s block num l seq detail).flow.resolve_left (by decide)) k

/-! ### Packets in sequence (R339, R347) -/

theorem behind_next (seq : BitVec 16) : behind (some seq) seq = false := by
  unfold behind
  rw [Option.elim_some, BitVec.sub_self]
  rfl

/-- The state in which an expected packet that nothing is held before is delivered. -/
def packetDue (f : Nat) (p : Packet) (s : State) : State :=
  modFlow (modFlow s f fun y => { y with window := y.window ++ [p] }) f fun y => { y with
    nextSeq := some (p.seq + 1), window := y.window.filter (·.seq != p.seq) }

/-- A window that holds the expected packet alone delivers it. -/
theorem flushWindow_expected {s : State} {f : Nat} {p : Packet} (hnext : (flowAt s f).nextSeq = some p.seq)
    (hwin : (flowAt s f).window = [p]) (hold : Nat) (deliver : Bool → Packet → State → State) :
    flushWindow f hold deliver 1 s = deliver false p (modFlow s f fun y => { y with
      nextSeq := some (p.seq + 1), window := y.window.filter (·.seq != p.seq) }) := by
  unfold flushWindow
  dsimp only
  rw [hnext, hwin]
  simp [firstPacket, flushWindow]

section
variable {s : State} {f : Nat} {p : Packet} (hlen : f < s.flow.length) (hwin : (flowAt s f).window = [])
include hlen hwin

theorem packetDue_flow : flowAt (packetDue f p s) f = { flowAt s f with nextSeq := some (p.seq + 1) } := by
  unfold packetDue
  rw [flowAt_modFlow_same (by rw [modFlow_length]; exact hlen), flowAt_modFlow_same hlen]
  simp [hwin]

/-- The packet that a flow expects, with none held, is delivered at once. -/
theorem offerPacket_next (hnext : (flowAt s f).nextSeq = some p.seq) (hold : Nat)
    (deliver : Bool → Packet → State → State) :
    offerPacket f hold deliver p s = deliver false p (packetDue f p s) := by
  have hs1 := flowAt_modFlow_same hlen fun y : FlowSt => { y with window := y.window ++ [p] }
  unfold offerPacket
  dsimp only
  rw [hnext, behind_next, hwin, if_neg (by simp), hs1, hwin]
  exact flushWindow_expected (by rw [hs1]; exact hnext) (by rw [hs1, hwin]; rfl) hold deliver

end

theorem packetDue_other {f k : Nat} (h : k ≠ f) (p : Packet) (s : State) :
    flowAt (packetDue f p s) k = flowAt s k :=
  (flowAt_modFlow_other h ..).trans (flowAt_modFlow_other h ..)

theorem packetDue_within (f : Nat) (p : Packet) (s : State) : Within 524288 s (packetDue f p s) := by
  unfold packetDue
  exact modFlow_within _ _ _ (by decide) (modFlow_within _ _ _ (by decide) (.refl _ _))

theorem offerPacket_behind {s : State} {f : Nat} {p : Packet} (h : behind (flowAt s f).nextSeq p.seq = true) (hold : Nat)
    (deliver : Bool → Packet → State → State) : offerPacket f hold deliver p s = s :=
  if_pos (by rw [h]; rfl)

/-- The state in which a counted packet is delivered. -/
theorem counted_changes (i f : Nat) (p : Packet) (s : State) :
    ChangesOnly [.flow, .obs] s (packetDue f p (ctrAdd s i 1)) :=
  ((ctrAdd_within (M := 34078720) s i 1 (by decide) (.refl _ _)).trans
    ((packetDue_within f p _).mono (by decide))).only rfl

/-! ### Frames that come in (R343) -/

theorem accepts_cfg {s : State} {f port : Nat} {kinds : List Nat} {ssrc : BitVec 32} {c : FlowCfg}
    (h : accepts s f port kinds ssrc = some c) : (flowAt s f).cfg = some c :=
  (Option.filter_eq_some_iff.mp h).1

theorem takePacket_other {f k : Nat} (h : k ≠ f) (gap : Bool) (p : Packet) (s : State) :
    flowAt (takePacket f gap p s) k = flowAt s k := by
  unfold takePacket
  dsimp only
  split
  next => rfl
  next =>
    split <;> split
    · rw [raise_flowAt, ctrAdd_flowAt, flowAt_modFlow_other h, flowAt_modFlow_other h]
    · rw [ctrAdd_flowAt, flowAt_modFlow_other h, flowAt_modFlow_other h]
    · rw [raise_flowAt, ctrAdd_flowAt, flowAt_modFlow_other h, flowAt_modFlow_other h]
    · split
      · rw [ctrAdd_flowAt, flowAt_modFlow_other h, flowAt_modFlow_other h]
      · rw [flowAt_modFlow_other h, flowAt_modFlow_other h]

/-- A video packet in sequence joins the frame that is being received. -/
theorem takePacket_slots {s : State} {f : Nat} {c : FlowCfg} (hcfg : (flowAt s f).cfg = some c) (hkind : c.kind = 6)
    (p : Packet) :
    (flowAt (takePacket f false p s) f).slots =
      (takeFrame s.time false p.marker p.payload (flowAt s f).slots).1 := by
  have hlen := flow_bound hcfg
  have hone (g h : FlowSt → FlowSt) : flowAt (modFlow (modFlow s f g) f h) f = h (g (flowAt s f)) := by
    rw [flowAt_modFlow_same (by rw [modFlow_length]; exact hlen), flowAt_modFlow_same hlen]
  unfold takePacket
  dsimp only
  rw [hcfg]
  dsimp only
  rw [if_neg (by omega)]
  split
  · rw [raise_flowAt, ctrAdd_flowAt, hone]
  · split
    · rw [ctrAdd_flowAt, hone]
    · rw [hone]

/-- A packet of an RTP-in flow that is not the last of its access unit joins it. -/
theorem rtpPacket_slots {s : State} {f : Nat} {c : FlowCfg} (hcfg : (flowAt s f).cfg = some c) {p : Packet}
    (hm : p.marker = false) :
    (flowAt (rtpPacket f false p s) f).slots =
      (takeFrame s.time false p.marker p.payload (flowAt s f).slots).1 := by
  unfold rtpPacket
  dsimp only
  rw [hcfg]
  dsimp only
  rw [hm]
  split
  · rw [raise_flowAt, ctrAdd_flowAt, flowAt_modFlow_same (flow_bound hcfg)]
    rfl
  · rw [if_neg (by decide), flowAt_modFlow_same (flow_bound hcfg)]
    rfl

theorem inputPacket_accepted {s : State} {f port : Nat} {ssrc : BitVec 32} {c : FlowCfg}
    (h : accepts s f port [6, 7] ssrc = some c) (seq : BitVec 16) (marker : Bool) (payload : List Byte) :
    inputPacket f port seq ssrc marker payload s =
      offerPacket f (if c.ports = 3 then 10000000 else 0) (takePacket f) ⟨seq, 0, marker, payload, s.time⟩
        (ctrAdd s (ctrMedia port 1) 1) := by
  unfold inputPacket
  rw [h]

theorem rtpIn_accepted {s : State} {f p : Nat} {ssrc : BitVec 32} {c : FlowCfg} (hcfg : (flowAt s f).cfg = some c)
    (hkind : c.kind = 5) (hssrc : c.ssrc = 0 ∨ c.ssrc = ssrc) (hport : codedPort s c = some p) (seq : BitVec 16)
    (ts : BitVec 32) (marker : Bool) (payload : List Byte) :
    rtpIn f seq ssrc ts marker payload s =
      offerPacket f 20000000 (rtpPacket f) ⟨seq, ts, marker, payload, s.time⟩ (ctrAdd s (ctrMedia p 1) 1) := by
  unfold rtpIn
  rw [hcfg, Option.bind_some, if_pos (by simpa [hkind] using hssrc), hport]

/-! ### PLAY (R341) -/

/-- The frames of a flow, those of a tick good. -/
def markGood (tick : Nat) (l : List Frame) : List Frame := l.map fun w => if w.tick = tick then { w with good := true } else w

theorem markGood_good {tick : Nat} {l : List Frame} {w : Frame} (hw : w ∈ markGood tick l) (ht : w.tick = tick) :
    w.good = true := by
  obtain ⟨v, -, rfl⟩ := List.mem_map.mp hw
  split at ht
  next => rw [if_pos ‹_›]
  next h => exact absurd ht h

theorem markGood_data (tick : Nat) (l : List Frame) :
    (markGood tick l).map (fun w => (w.tick, w.data)) = l.map fun w => (w.tick, w.data) := by
  unfold markGood
  rw [List.map_map]
  refine List.map_congr_left fun w _ => ?_
  rw [Function.comp_apply]
  split <;> rfl

/-- A flow whose frame for a tick is good. -/
def frameGood (f tick : Nat) (s : State) : State :=
  modFlow s f fun x => { x with waiting := markGood tick x.waiting }

theorem frameGood_waiting (f tick : Nat) (s : State) :
    (flowAt (frameGood f tick s) f).waiting = markGood tick (flowAt s f).waiting := by
  unfold frameGood
  by_cases hf : f < s.flow.length
  · rw [flowAt_modFlow_same hf]
  · rw [flowAt_modFlow, if_neg fun h => hf h.2, flowAt_beyond (Nat.not_lt.mp hf)]
    rfl

/-- A frame that is whole, in time and unspoiled is good. -/
theorem playEnd_good {e f tick : Nat} {x : Xfer} (hclean : x.cmd.poisoned = 0)
    (hspoiled : frameSpoiled x.s x.cmd tick = false) (htime : (domAt x.s (flowAt x.s f).domain).tickNo < tick) :
    playEnd e f tick (none, x) = complete (frameGood f tick x.s) e x.cmd stOK := by
  unfold playEnd
  dsimp only
  rw [if_neg (Nat.not_le.mpr htime), hclean, hspoiled, if_pos (by decide)]
  rfl

theorem cmdN_begun (c : DmaCmd) (o n : Nat) : cmdN { c with started := true } o n = cmdN c o n := rfl

section
variable {c : DmaCmd} {v : State} {k : FlowCfg} {f : Nat} (hflow : cmdN c 3 1 = f) (hcfg : (flowAt v f).cfg = some k)
  (hkind : k.kind ≤ 3) (hnew : c.started = false)
include hflow hcfg hkind hnew

/-- A PLAY for a tick outside its window is refused. -/
theorem runPlay_refused
    (hout : cmdN c 0x18 8 ≤ (domAt v (flowAt v f).domain).tickNo ∨
      (domAt v (flowAt v f).domain).tickNo + k.depth < cmdN c 0x18 8) (e : Nat) :
    runPlay e c v = complete (raise v bMED 11 (locFlow f) (cmdSeq c) 0) e c stREFUSED := by
  subst hflow
  unfold runPlay
  dsimp only
  rw [hcfg]
  dsimp only
  rw [hnew, if_neg (by decide), if_neg (by omega), if_pos]
  rw [decide_eq_false (by omega)]
  rfl

/-- A PLAY for a tick in its window writes its frame. -/
theorem runPlay_taken (hlate : (domAt v (flowAt v f).domain).tickNo < cmdN c 0x18 8)
    (hdepth : cmdN c 0x18 8 ≤ (domAt v (flowAt v f).domain).tickNo + k.depth)
    (hfirst : (flowAt v f).accepted.contains (cmdN c 0x18 8) = false)
    (hlength : playLength (domAt v (flowAt v f).domain).rate k (cmdN c 0x18 8) (cmdN c 0x10 4) = true) (e : Nat) :
    runPlay e c v = playEnd e f (cmdN c 0x18 8)
      (runPieces e (playPieces k f (cmdN c 0x18 8) (cmdN c 8 8) (cmdN c 0x10 4)) 0
        ⟨modFlow v f fun y => { y with accepted := y.accepted ++ [cmdN c 0x18 8] }, { c with started := true }, [], e⟩) := by
  subst hflow
  unfold runPlay
  dsimp only
  rw [hcfg]
  dsimp only
  rw [hnew, if_neg (by decide), if_neg (by omega), decide_eq_true ⟨hlate, hdepth⟩, hfirst, if_neg (by decide), hlength,
    if_neg (by decide), cmdN_begun]

end

theorem exec_play {s v : State} {e : Engine} {c : DmaCmd} (hs : starts s e = some (c, v)) (hop : cmdOp c = 0x24) :
    exec (.play e) s = .next (runPlay e c v) :=
  congrArg Host.Outcome.next (startOp_of_starts hs hop _)

/-! ### Access units that go out (R346) -/

/-- The state after an access unit of a flow left through a port. -/
def unitSent (f p : Nat) (pts : Nat) (payloads : List (List Byte)) (s : State) : State :=
  ctrAdd (modFlow (emit s (.rtpUnit f (pts % 2 ^ 32) payloads)) f fun x => { x with
    lastTick := (domAt s x.domain).tickNo, source := 0 }) (ctrMedia p 0) payloads.length

theorem unitSent_changes (f p pts : Nat) (payloads : List (List Byte)) (s : State) :
    ChangesOnly [.free, .out, .flow, .obs] s (unitSent f p pts payloads s) := by
  unfold unitSent
  exact (ctrAdd_within (M := 34078730) _ _ _ (by decide) (modFlow_within _ _ _ (by decide)
    (emit_within _ _ (by decide) (.refl _ _)))).only rfl

theorem unitSent_out (f p pts : Nat) (payloads : List (List Byte)) (s : State) :
    (unitSent f p pts payloads s).out = .rtpUnit f (pts % 2 ^ 32) payloads :: s.out := rfl

section
variable {s v : State} {f p : Nat} {c : FlowCfg} {d : CtxDesc} {bs : List Byte}
  (hcfg : (flowAt s f).cfg = some c) (hkind : c.kind = 4) (hport : codedPort s c = some p)
  (hdesc : (ctxAt s (c.format % 64)).desc = some d)
  (hcons : ringRead (d.ringBase % 2 ^ 52 + 8) 8 s = (some bs, v))
include hcfg hkind hport hdesc hcons

theorem rtpOut_empty (h : (ctxAt s (c.format % 64)).prodAt ≤ fld bs 0 8) : rtpOut f s = v := by
  unfold rtpOut
  rw [hcfg]
  dsimp only
  rw [if_pos hkind, hport, hdesc]
  dsimp only
  rw [hcons]
  exact if_pos h

theorem rtpOut_sends (h : fld bs 0 8 < (ctxAt s (c.format % 64)).prodAt) {pos n pts : Nat} {r w : State}
    {unit : List Byte} (hrec : ringRecord d.ringBase d.ringData (fld bs 0 8) v = (some (pos, n, pts), r))
    (hunit : ringRead (d.ringBase + 0x40 + pos % d.ringData + 16) n r = (some unit, w)) :
    rtpOut f s = (putAll [(d.ringBase % 2 ^ 52 + 8, leBytes 8 (pos + recordBytes n))]
      (unitSent f p pts (packetised (d.std == 1) unit) w)).2 := by
  unfold rtpOut
  rw [hcfg]
  dsimp only
  rw [if_pos hkind, hport, hdesc]
  dsimp only
  rw [hcons]
  dsimp only
  rw [if_neg (Nat.not_le.mpr h), hrec]
  dsimp only
  rw [hunit]
  rfl

end

theorem exec_inputPacketReceive (f : Flow) (port seq ssrc marker payload) (s : State) :
    exec (.inputPacketReceive f port seq ssrc marker payload) s =
      .next (inputPacket f port.toNat seq ssrc marker payload s) := rfl

theorem exec_rtpInPacket (f : Flow) (seq ssrc ts marker payload) (s : State) :
    exec (.rtpInPacket f seq ssrc ts marker payload) s = .next (rtpIn f seq ssrc ts marker payload s) := rfl

theorem exec_rtpOutAccessUnit (f : Flow) (s : State) : exec (.rtpOutAccessUnit f) s = .next (rtpOut f s) := rfl

/-- Settles O50: a packet in sequence is delivered at once and joins its frame; a PLAY in its window leaves its frame
good; an access unit leaves with the payloads of its coding. -/
theorem flowsTakeAndSend : Obligations.FlowsTakeAndSend := by
  refine fun f s => ⟨fun port seq ssrc marker payload c hacc => ⟨fun hseq hwin => ?_, fun hb => ?_⟩,
    fun seq ssrc ts marker payload c p hcfg hkind hssrc hport => ⟨fun hseq hwin => ?_, fun hb => ?_⟩,
    fun e c v k hs hop hnew hflow hcfg hkind =>
      ⟨fun x hlate hdepth hfirst hlength hrun hclean hspoiled htime => ?_, fun hout => ?_⟩,
    fun c p d bs v hcfg hkind hport hdesc hcons => ⟨fun h => ?_, fun h pos n pts r unit w hrec hunit => ?_⟩⟩
  · have hcfg := accepts_cfg hacc
    have hu := packetDue_flow (p := ⟨seq, 0, marker, payload, s.time⟩)
      (s := ctrAdd s (ctrMedia port.toNat 1) 1) (flow_bound hcfg) hwin
    refine ⟨_, _, exec_inputPacketReceive .., (inputPacket_accepted hacc ..).trans
      (offerPacket_next (s := ctrAdd s _ 1) (flow_bound hcfg) hwin (by exact hseq) ..), counted_changes _ _ _ _, hu, fun hk => ?_, fun k hk => ?_⟩
    all_goals rw [inputPacket_accepted hacc, offerPacket_next (by exact flow_bound hcfg) (by exact hwin) (by exact hseq)]
    · rw [takePacket_slots ((congrArg FlowSt.cfg hu).trans hcfg) hk, congrArg FlowSt.slots hu]
      rfl
    · rw [takePacket_other hk, packetDue_other hk, ctrAdd_flowAt]
  · refine ⟨_, exec_inputPacketReceive .., ?_⟩
    rw [inputPacket_accepted hacc, offerPacket_behind (by exact hb)]
    exact ctrAdd_changesOnly _ _ _
  · have hu := packetDue_flow (p := ⟨seq, ts, marker, payload, s.time⟩)
      (s := ctrAdd s (ctrMedia p 1) 1) (flow_bound hcfg) hwin
    refine ⟨_, _, exec_rtpInPacket .., (rtpIn_accepted hcfg hkind hssrc hport ..).trans
      (offerPacket_next (s := ctrAdd s _ 1) (flow_bound hcfg) hwin (by exact hseq) ..), counted_changes _ _ _ _, hu, fun hm => ?_⟩
    rw [rtpIn_accepted hcfg hkind hssrc hport, offerPacket_next (by exact flow_bound hcfg) (by exact hwin) (by exact hseq),
      rtpPacket_slots ((congrArg FlowSt.cfg hu).trans hcfg) hm, congrArg FlowSt.slots hu]
    rfl
  · refine ⟨_, exec_rtpInPacket .., ?_⟩
    rw [rtpIn_accepted hcfg hkind hssrc hport, offerPacket_behind (by exact hb)]
    exact ctrAdd_changesOnly _ _ _
  · refine ⟨_, frameGood f (cmdN c 0x18 8) x.s, exec_play hs hop, ?_, modFlow_changesOnly _ _ _, fun w hw => ?_, ?_⟩
    · rw [runPlay_taken hflow hcfg hkind hnew hlate hdepth hfirst hlength, hrun, playEnd_good hclean hspoiled htime]
    · exact markGood_good (frameGood_waiting f _ x.s ▸ hw)
    · rw [frameGood_waiting, markGood_data]
  · exact ⟨_, exec_play hs hop, runPlay_refused hflow hcfg hkind hnew hout e⟩
  · rw [exec_rtpOutAccessUnit, rtpOut_empty hcfg hkind hport hdesc hcons h]
  · exact ⟨_, _, exec_rtpOutAccessUnit .., rtpOut_sends hcfg hkind hport hdesc hcons h hrec hunit,
      unitSent_changes _ _ _ _ _, unitSent_out ..⟩

end Sys2Proof.Machine
end

section
/-! How collectives end, and pace notices (15 R291, R292, R294). -/

namespace Sys2Proof.Machine

/-! ### The units -/

theorem withCol_changesOnly (s : State) (k : ColSt) : ChangesOnly [.col] s { s with col := k } := by
  intro p hp
  cases p with
  | col => exact absurd List.mem_cons_self hp
  | _ => rfl

/-- A unit whose collectives are mapped one by one. -/
theorem colUnit_map {s t : State} {g : Collective → Collective}
    (h : t.col.units = s.col.units.map fun u => ⟨u.inProg.map g⟩) (q : Nat) :
    (colUnit t q).inProg = (colUnit s q).inProg.map g := by
  unfold colUnit
  rw [h, unit_map]
  split
  next => rfl
  next hq => rw [unit_of_length_le _ (Nat.not_lt.mp hq)]; rfl

/-! ### The end of a collective (R291, R292) -/

/-- The units and the list of completed collectives after one has ended. -/
def ColSt.ended (q : Nat) (x : Collective) (k : ColSt) : ColSt :=
  { k with
    units := k.units.modify q fun u => ⟨u.inProg.filter fun y => !(y.desc.cid == x.desc.cid && y.tick == x.tick)⟩
    done := (x.desc.cid, x.tick) :: k.done }

theorem colEnd_col (s : State) (q : Nat) (x : Collective) (status : Nat) (holes : List Nat) :
    (colEnd s q x status holes).col = s.col.ended q x := by
  unfold colEnd
  dsimp only
  rw [(wakeIssuer_within (M := 128) _ _ (by decide) (.refl _ _)).col.resolve_left (by decide)]
  dsimp only
  rw [(trace_within (M := 117440546) _ _ _ _ _ (by decide) (.refl _ _)).col.resolve_left (by decide),
    (devPut_within (M := 251659554) _ _ _ (by decide) (.refl _ _)).col.resolve_left (by decide)]
  rfl

theorem colEnd_unit_same (s : State) (q : Nat) (x : Collective) (status : Nat) (holes : List Nat) :
    (colUnit (colEnd s q x status holes) q).inProg =
      (colUnit s q).inProg.filter fun y => !(y.desc.cid == x.desc.cid && y.tick == x.tick) := by
  unfold colUnit
  rw [colEnd_col]
  unfold ColSt.ended
  dsimp only
  rw [unit_modify]
  split
  next => rfl
  next hq => rw [unit_of_length_le _ (Nat.not_lt.mp fun h => hq ⟨rfl, h⟩)]; rfl

theorem colEnd_unit_other {p q : Nat} (h : p ≠ q) (s : State) (x : Collective) (status : Nat) (holes : List Nat) :
    colUnit (colEnd s q x status holes) p = colUnit s p := by
  unfold colUnit
  rw [colEnd_col]
  unfold ColSt.ended
  dsimp only
  rw [unit_modify, if_neg fun e => h e.1]

theorem exec_collectiveComplete {q : Quad} {cid : BitVec 32} {x : Collective} {s : State} (hon : colOn s = true)
    (hx : collByCid s q cid collDone = some x) :
    exec (.collectiveComplete q cid) s = .next (pump (colEnd s q x 0 [])) := by
  refine congrArg Host.Outcome.next ((if_pos hon).trans ?_)
  unfold collectiveComplete
  rw [hx]

theorem exec_collectiveTimeout {s : State} (hon : colOn s = true) (q : Quad) (cid : BitVec 32) :
    exec (.collectiveTimeout q cid) s = .next (collectiveTimeout q cid s) :=
  congrArg Host.Outcome.next (if_pos hon)

/-- Settles O23: the end takes the collective off its unit and touches no other unit; a timeout fills the destination
before it. -/
theorem collectivesEnd : Obligations.CollectivesEnd := by
  refine fun q cid x s hon => ⟨fun hx => ⟨_, _, exec_collectiveComplete hon hx, rfl, rfl,
    congrArg ColSt.done (colEnd_col ..), colEnd_unit_same .., fun p hp => colEnd_unit_other hp ..⟩, fun hx =>
    ⟨_, _, _, exec_collectiveTimeout hon q cid, rfl, rfl, ?_⟩⟩
  unfold collectiveTimeout
  rw [hx] <;> rfl

/-! ### Pace notices (R294) -/

/-- The state in which the next notices go out, those of a cap or those of its end. -/
def paceNumbered (capped : Bool) (s : State) : State :=
  { s with col := { s.col with noticeNo := s.col.noticeNo + 1, paceOn := capped } }

/-- The notices with a delay go to every member that shares a collective. -/
def paceSent (capped : Bool) (delay : Nat) (s : State) : State :=
  each (sharers s) (fun x i => inject x i 6 (.paceNotice x.self.coord x.self.sliceId (s.col.noticeNo + 1) delay))
    (paceNumbered capped s)

theorem paceTimer_capped {s : State} (h : capQuarters s < 4) :
    paceTimer s = paceSent true (paceNs (bytesLeft s) (capQuarters s)) s := by
  have hne : capQuarters s ≠ 4 := Nat.ne_of_lt h
  unfold paceTimer
  dsimp only
  rw [decide_eq_false hne, if_neg (by simp), if_neg hne, bne_iff_ne.mpr hne]
  rfl

theorem paceTimer_capEnds {s : State} (h : capQuarters s = 4) (hon : s.col.paceOn = true) :
    paceTimer s = paceSent false 0 s := by
  unfold paceTimer
  dsimp only
  rw [hon, h, if_neg (by decide), if_pos rfl]
  rfl

theorem exec_paceNoticeTimer {s : State} (hon : colOn s = true) : exec .paceNoticeTimer s = .next (paceTimer s) :=
  congrArg Host.Outcome.next (if_pos hon)

theorem exec_paceNotice {s : State} (hon : colOn s = true) (src slice : BitVec 16) (number delay : Nat) :
    exec (.paceNotice src slice number delay) s = .next (paceNotice src slice number delay s) :=
  congrArg Host.Outcome.next (if_pos hon)

/-- Settles O24: the timer numbers its notices and sends them to those that share a collective; one that comes in is
taken by every collective that its sender shares. -/
theorem paceNoticesGoOutAndComeIn : Obligations.PaceNoticesGoOutAndComeIn := by
  rintro s hon
  refine ⟨?_, fun src number delay i hi => ⟨_, exec_paceNotice hon .., ?_⟩⟩
  · rintro k rfl
    exact ⟨fun hk => ⟨_, paceNumbered true s, exec_paceNoticeTimer hon, withCol_changesOnly _ _, rfl, rfl, rfl,
        paceTimer_capped hk⟩,
      fun hk hpace => ⟨_, paceNumbered false s, exec_paceNoticeTimer hon, withCol_changesOnly _ _, rfl, rfl, rfl,
        paceTimer_capEnds hk hpace⟩⟩
  · unfold paceNotice
    rw [hi]
    exact if_neg fun h => h rfl

end Sys2Proof.Machine
end

section
/-! Shards, their acknowledgements and retries (15 R289, R290, R295). -/

namespace Sys2Proof.Machine

/-! ### Shards that arrive (R290) -/

theorem exec_shardReceive {s : State} (hon : colOn s = true) (sh : Shard) :
    exec (.shardReceive sh) s = .next (shardReceive sh s) :=
  congrArg Host.Outcome.next (if_pos hon)

section
variable {s : State} {sh : Shard} {q : Nat} {x : Collective}

/-- A shard of a collective in progress, from a member of it, is judged by its CRC, then by its age. -/
theorem shardReceive_member (hfind : findColl s sh.cid sh.tick = some (q, x)) (hmem : x.members.contains sh.src = true) :
    shardReceive sh s =
      if !(sh.crc == shardCrc sh.shseq sh.tick sh.offs sh.data) then badShard q x sh s
      else if staleShard s sh then raise s bCOL 3 (locQuad q) x.seq 0
      else goodShard q x sh s := by
  unfold shardReceive
  dsimp only
  rw [hfind]
  dsimp only
  rw [hmem]
  exact if_neg (by decide)

theorem goodShard_again (hgot : (x.got.any fun g => g.1 == x.members.idxOf sh.src && g.2.1 == sh.offs.toNat) = true) :
    goodShard q x sh s = inject s sh.src (colClass x) (.shardAck sh.cid sh.shseq) :=
  if_pos hgot

/-- A new shard is acknowledged, recorded, and written or added. -/
theorem goodShard_first (hgot : (x.got.any fun g => g.1 == x.members.idxOf sh.src && g.2.1 == sh.offs.toNat) = false)
    (hmap : mapDiffers x sh = false) :
    goodShard q x sh s = settleColl q x (writeGot x (x.members.idxOf sh.src) sh.offs.toNat sh.data
      (modColl (inject s sh.src (colClass x) (.shardAck sh.cid sh.shseq)) q x fun y =>
        { y with got := y.got ++ [(x.members.idxOf sh.src, sh.offs.toNat, sh.data)] })) := by
  unfold goodShard
  dsimp only
  rw [hgot, hmap]
  rfl

/-- A collective whose count of the failed copies of a shard moved on. -/
def badCounted (q : Nat) (x : Collective) (sh : Shard) (s : State) : State :=
  modColl s q x fun y => { y with
    bad := (sh.src, sh.shseq, badCopies x sh.src sh.shseq + 1) ::
      y.bad.filter fun b => !(b.1 == sh.src && b.2.1 == sh.shseq) }

theorem badShard_third (h : 2 ≤ badCopies x sh.src sh.shseq) : badShard q x sh s = badCounted q x sh s :=
  if_pos (Nat.succ_le_succ h)

theorem badShard_asked (h : badCopies x sh.src sh.shseq < 2) :
    badShard q x sh s = inject (badCounted q x sh s) sh.src (colClass x) (.shardRetry sh.cid sh.shseq) :=
  if_neg (Nat.not_le.mpr (Nat.succ_lt_succ h))

/-- A shard of no collective in progress is judged by its CRC, by whether its collective has completed, and by its age. -/
theorem shardReceive_none (hfind : findColl s sh.cid sh.tick = none) {done : Bool}
    (hdone : done = s.col.done.any (fun d => d.1 == sh.cid && BitVec.ofNat 32 d.2 == sh.tick)) :
    shardReceive sh s =
      if !(sh.crc == shardCrc sh.shseq sh.tick sh.offs sh.data) then inject s sh.src 0 (.shardRetry sh.cid sh.shseq)
      else if staleShard s sh then
        raise (if done then inject s sh.src 0 (.shardAck sh.cid sh.shseq) else s) bCOL 3 locDevice noSeq 0
      else if done then inject s sh.src 0 (.shardAck sh.cid sh.shseq)
      else inject s sh.src 0 (.notReady sh.cid sh.shseq) := by
  subst hdone
  unfold shardReceive
  dsimp only
  rw [hfind]
  cases s.col.done.any fun d => d.1 == sh.cid && BitVec.ofNat 32 d.2 == sh.tick <;> rfl

end

/-! ### Acknowledgements (R290) -/

/-- A collective of an identifier without the copies that an acknowledgement names. -/
def Collective.released (dst : Nat) (cid shseq : BitVec 32) (x : Collective) : Collective :=
  if x.desc.cid = cid then { x with sent := x.sent.filter fun r => !names dst shseq r } else x

/-- The state whose retained copies of a shard are released. -/
def copiesReleased (dst : Nat) (cid shseq : BitVec 32) (s : State) : State :=
  { s with col := { s.col with units := s.col.units.map fun u => ⟨u.inProg.map (Collective.released dst cid shseq)⟩ } }

theorem names_iff {dst : Nat} {shseq : BitVec 32} {r : Retained} :
    names dst shseq r = true ↔ r.dst = dst ∧ r.shard.shseq = shseq := by
  simp [names]

theorem copiesReleased_unit (dst : Nat) (cid shseq : BitVec 32) (s : State) (q : Nat) :
    (colUnit (copiesReleased dst cid shseq s) q).inProg =
      (colUnit s q).inProg.map (Collective.released dst cid shseq) :=
  colUnit_map rfl q

/-- A release leaves what a collective has got and has to send. -/
theorem Collective.released_keeps (dst : Nat) (cid shseq : BitVec 32) (x : Collective) :
    ((x.released dst cid shseq).desc, (x.released dst cid shseq).tick, (x.released dst cid shseq).got,
      (x.released dst cid shseq).toSend) = (x.desc, x.tick, x.got, x.toSend) := by
  unfold Collective.released
  split <;> rfl

theorem Collective.released_sent {dst : Nat} {cid shseq : BitVec 32} {x : Collective}
    (hcid : (x.released dst cid shseq).desc.cid = cid) {r : Retained} (hr : r ∈ (x.released dst cid shseq).sent) :
    ¬(r.dst = dst ∧ r.shard.shseq = shseq) := by
  unfold Collective.released at hcid hr
  split at hr
  next =>
    rw [← names_iff]
    simpa using (List.mem_filter.mp hr).2
  next hne =>
    rw [if_neg hne] at hcid
    exact absurd hcid hne

theorem exec_shardAck {s : State} (hon : colOn s = true) (dst : Nat) (cid shseq : BitVec 32) :
    exec (.shardAck dst cid shseq) s = .next (pump (copiesReleased dst cid shseq s)) :=
  congrArg Host.Outcome.next (if_pos hon)

/-! ### Retained copies that go out again (R290) -/

/-- The retained shard that an answer names has the answer's destination and number. -/
theorem retainedAt_names {s : State} {dst q : Nat} {cid shseq : BitVec 32} {x : Collective} {r : Retained}
    (h : retainedAt s dst cid shseq = some (q, x, r)) : r.dst = dst ∧ r.shard.shseq = shseq := by
  obtain ⟨p, -, hp⟩ := List.exists_of_findSome?_eq_some h
  obtain ⟨y, -, hy⟩ := List.exists_of_findSome?_eq_some hp
  split at hy
  next =>
    obtain ⟨k, hk, he⟩ := Option.map_eq_some_iff.mp hy
    cases he
    exact names_iff.mp (List.find?_some hk)
  next => cases hy

/-- The retained copy goes out, as the retention region holds it. -/
def keptSent (dst : Nat) (x : Collective) (r : Retained) (s : State) : State :=
  inject (keptShard r s).2 dst (colClass x) (.shard (keptShard r s).1)

theorem keptSent_col (dst : Nat) (x : Collective) (r : Retained) (s : State) : (keptSent dst x r s).col = s.col := by
  unfold keptSent
  exact ((inject_within (M := 117465130) _ _ _ _ (by decide) (.refl _ _)).col.resolve_left (by decide)).trans
    ((keptShard_within (M := 251658530) _ _ (by decide) (.refl _ _)).col.resolve_left (by decide))

section
variable {s : State} {dst q : Nat} {cid shseq : BitVec 32} {x : Collective} {r : Retained} (hon : colOn s = true)
  (hr : retainedAt s dst cid shseq = some (q, x, r))
include hon hr

theorem exec_shardRetry :
    exec (.shardRetry dst cid shseq) s = .next (keptSent dst x r
      (raise (modColl s q x fun y => { y with retries := y.retries + 1 }) bCOL 2 (locQuad q) x.seq 0)) := by
  refine congrArg Host.Outcome.next ((if_pos hon).trans ?_)
  unfold shardRetry
  rw [hr]
  rfl

theorem exec_notreadyResend : exec (.notreadyResend dst cid shseq) s = .next (keptSent dst x r s) := by
  refine congrArg Host.Outcome.next ((if_pos hon).trans ?_)
  unfold notreadyResend
  rw [hr]
  rfl

end

/-- Settles O22: a shard is judged by its CRC, then by its age and by what its collective has; an acknowledgement
releases the copies that it names; a retry sends the copy that is kept. -/
theorem shardsAreAnsweredAndReleased : Obligations.ShardsAreAnsweredAndReleased := by
  refine ⟨fun sh s hon => ⟨fun q x hfind hmem => ⟨fun hcrc => ⟨fun hst => ?_, fun hst hgot => ?_, fun hst hgot hmap => ?_⟩,
    fun hcrc => ⟨_, badCounted q x sh s, exec_shardReceive hon sh, rfl, fun hn => ?_, fun hn => ?_⟩⟩,
    fun hfind done hdone => ⟨fun hcrc => ?_, fun hcrc => ?_⟩⟩,
    fun dst cid shseq s hon => ⟨⟨_, copiesReleased dst cid shseq s, exec_shardAck hon dst cid shseq, rfl,
      withCol_changesOnly _ _, fun q => ?_, fun q x hx hcid r hr => ?_⟩,
      fun q x r hr => ⟨(retainedAt_names hr).1, (retainedAt_names hr).2,
        ⟨_, _, exec_shardRetry hon hr, rfl, rfl⟩, _, exec_notreadyResend hon hr, rfl, keptSent_col ..⟩⟩⟩
  · rw [exec_shardReceive hon, shardReceive_member hfind hmem, ← hcrc, BEq.rfl, hst]
    rfl
  · rw [exec_shardReceive hon, shardReceive_member hfind hmem, ← hcrc, BEq.rfl, hst, ← goodShard_again (q := q) hgot]
    rfl
  · refine ⟨_, exec_shardReceive hon sh, ?_⟩
    rw [shardReceive_member hfind hmem, ← hcrc, BEq.rfl, hst, ← goodShard_first hgot hmap]
    rfl
  · rw [shardReceive_member hfind hmem, beq_false_of_ne hcrc, ← badShard_third hn]
    rfl
  · rw [shardReceive_member hfind hmem, beq_false_of_ne hcrc, ← badShard_asked hn]
    rfl
  · rw [exec_shardReceive hon, shardReceive_none hfind hdone, beq_false_of_ne hcrc]
    rfl
  · refine ⟨?_, ?_, ?_, ?_⟩ <;> intro hd hst <;>
      rw [exec_shardReceive hon, shardReceive_none hfind hdone, ← hcrc, BEq.rfl, hst, hd] <;> rfl
  · rw [copiesReleased_unit, List.map_map]
    exact List.map_congr_left fun x _ => Collective.released_keeps ..
  · rw [copiesReleased_unit] at hx
    obtain ⟨y, -, rfl⟩ := List.mem_map.mp hx
    exact Collective.released_sent hcid hr

end Sys2Proof.Machine
end

section
/-! CQ and the acceptance of a collective (15 R283, R284). -/

namespace Sys2Proof.Machine

section
variable {c : Cluster} {s u : State} {t : Nat} {pc : Word64} (h : issued s c 8 = some (t, pc, u)) (w : BitVec 56)
include h

/-- The registers of the thread that issues are those that it had. -/
theorem reg_issued (r : Nat) : reg (thrAt s c t) r = reg (thrAt u c t) r := by
  obtain ⟨-, -, -, -, -, hthr, -⟩ := issueTakesOneThread c 8 t pc s u h
  rw [hthr]
  rfl

/-- The operation that a CQ names before its issue is the one that its descriptor holds after it. -/
theorem cqOp_issued {a : Nat} (ha : a = (reg (thrAt u c t) (wReg w 51 47)).toNat) (hal : a % 128 = 0)
    (hin : a + 128 ≤ csSize) : cqOp s c w = some (csByte u c a).toNat := by
  subst ha
  obtain ⟨-, hpick, -⟩ := issued_cases h
  have hst : u.st = s.st := (issued_within h).st.resolve_left (by decide)
  unfold cqOp
  rw [hpick, Option.bind_some]
  dsimp only
  rw [reg_issued h, if_pos ⟨hal, hin⟩]
  unfold csByte
  rw [hst]

/-- Each row carries out the CQ of its own operation. -/
theorem exec_collective {i : Instr} {op a : Nat}
    (hi : (i, op) ∈ [(Instr.allReduce c w, 1), (.reduceScatter c w, 2), (.allGather c w, 3), (.allToAll c w, 4),
      (.broadcast c w, 5), (.dispatch c w, 6), (.combine c w, 7)])
    (ha : a = (reg (thrAt u c t) (wReg w 51 47)).toNat) (hal : a % 128 = 0) (hin : a + 128 ≤ csSize)
    (hop : (csByte u c a).toNat = op) : exec i s = .next (cq w c t pc u) := by
  have hrow : exec i s = .next (issueCq op c w s) := by
    simp only [List.mem_cons, List.not_mem_nil, or_false, Prod.mk.injEq] at hi
    obtain ⟨rfl, rfl⟩ | ⟨rfl, rfl⟩ | ⟨rfl, rfl⟩ | ⟨rfl, rfl⟩ | ⟨rfl, rfl⟩ | ⟨rfl, rfl⟩ | ⟨rfl, rfl⟩ := hi <;> rfl
  rw [hrow]
  unfold issueCq
  rw [cqOp_issued h w ha hal hin, hop, Option.elim_some, bne_self_eq_false, Bool.and_false, if_neg (by decide),
    issue_of_issued h]

end

/-- The collective that a thread's CQ brings in. -/
def broughtIn (s : State) (c t : Nat) (pc : Word64) (d : ColDesc) (members : List Nat) (emap : List Byte) : Collective where
  desc := d
  members := members
  pos := members.idxOf (ownIndex s)
  issuer := .thread c t (thrAt s c t).item
  pc := pc
  rank := (thrAt s c t).rank
  pidx := (thrAt s c t).pidx
  item := (thrAt s c t).item
  seq := (thrAt s c t).seq
  tick := (itemOf s (thrAt s c t).seq (thrAt s c t).item).elim 0 (·.target)
  accepted := s.time
  emap := emap
  got := []
  toSend := []
  sent := []
  retries := 0
  bad := []
  rescaled := false
  inexact := false
  ovf := false
  poisoned := false
  dropped := false
  reduced := false
  paces := []
  paceSaid := false

/-- The descriptor that a CQ names, of the quadrant of its cluster. -/
def cqDesc (s : State) (c a : Nat) : ColDesc := { colDesc (csBytes s c a 128) with quad := c / 36 }

/-- The home map that a collective of experts reads. -/
def homeMapRead (d : ColDesc) (s : State) : Option (List Byte) × State :=
  if d.experts then devRead s (.gva (BitVec.ofNat 64 d.emap)) 1024 else (some [], s)

/-- The members that the bytes of a group list. -/
def groupMembers (d : ColDesc) (gb : List Byte) : List Nat := (List.range d.nmem).map fun k => fld gb (2 * k) 2

theorem homeMapRead_within (d : ColDesc) (s : State) : Within 251659554 s (homeMapRead d s).2 := by
  unfold homeMapRead
  split
  · exact devRead_within _ _ _ (by decide) (.refl _ _)
  · exact .refl _ _

section
variable {w : BitVec 56} {u v1 v : State} {c t a : Nat} {d : ColDesc} {gb emap : List Byte}
  (ha : a = (reg (thrAt u c t) (wReg w 51 47)).toNat) (hal : a % 128 = 0) (hin : a + 128 ≤ csSize)
  (hd : d = cqDesc u c a) (hclean : csBadRange u c a 128 = false) (hroom : (colUnit u (c / 36)).inProg.length < 64)
  (hok : colDescOk u d (csBytes u c a 128) = true)
  (hgroup : devRead u (.gva (BitVec.ofNat 64 d.group)) (2 * d.nmem) = (some gb, v1))
  (hmap : homeMapRead d v1 = (some emap, v)) (hmembers : groupOk u (groupMembers d gb) = true)
  (hhomes : d.experts = true → emapOk emap (groupMembers d gb) = true)

include hgroup hmap in
theorem colReads_within : Within 251659554 u v := by
  have h1 : Within 251659554 u v1 := by
    have := devRead_within (M := 251659554) u (.gva (BitVec.ofNat 64 d.group)) (2 * d.nmem) (by decide) (.refl _ u)
    rwa [hgroup] at this
  have h2 := homeMapRead_within d v1
  rw [hmap] at h2
  exact h1.trans h2

include ha hal hin hd hclean hroom hok hgroup hmap hmembers hhomes in
/-- A CQ that passes every check brings its collective into the unit of the quadrant. -/
theorem cq_accepts (pc : Word64) :
    cq w c t pc u = acceptColl (c / 36) (broughtIn u c t pc d (groupMembers d gb) emap) v := by
  subst hd
  unfold homeMapRead cqDesc at hmap
  unfold groupMembers cqDesc at hmembers hhomes ⊢
  unfold cqDesc at hok hgroup
  unfold cq
  dsimp only at hmap hmembers hhomes hok hgroup ⊢
  rw [← ha, if_neg (by omega), if_neg (by omega), hclean, if_neg (by decide), if_neg (by omega), hok,
    if_neg (by decide), hgroup]
  dsimp only
  rw [hmap]
  dsimp only
  rw [hmembers, if_neg (by decide), if_neg]
  · rfl
  · cases he : ColDesc.experts _ with
    | true => rw [hhomes he]; decide
    | false => simp

end

/-- Who the device is in its slice, as the check of a group and the position in it see it. -/
theorem group_congr {s t : State} (h : t.self = s.self) :
    groupOk t = groupOk s ∧ ownIndex t = ownIndex s := by
  unfold groupOk ownIndex sliceSize
  rw [h]
  exact ⟨rfl, rfl⟩

/-- Settles O21: the row carries out its CQ, which reads the group and the home map, and then takes the collective in. -/
theorem collectiveIsAccepted : Obligations.CollectiveIsAccepted := by
  intro op i c w s u v1 v t a pc d gb emap hi hiss ha hal hin hd hop hclean hroom hok hgroup hmap hmembers hhomes
  have hreads := colReads_within hgroup hmap
  obtain ⟨hgroupOk, hown⟩ := group_congr (hreads.self.resolve_left (by decide))
  rw [hgroupOk] at hmembers
  refine ⟨_, broughtIn u c t pc d (groupMembers d gb) emap, exec_collective hiss w hi ha hal hin hop,
    cq_accepts ha hal hin hd hclean hroom hok hgroup hmap hmembers hhomes pc, rfl, rfl, ?_, rfl, rfl, ?_, rfl,
    hreads.changesOnly _ (by intro p; cases p <;> decide)⟩
  · rw [hown]
    rfl
  · rw [itemOf_congr (congrArg SeqSlot.items (seqAt_congr (hreads.seq.resolve_left (by decide)) _))]
    rfl

end Sys2Proof.Machine
end

section
/-! Bytes of the cluster stores under a write and under a loop of writes (04 R61). -/

namespace Sys2Proof.Machine

/-! ### Reading runs of bytes -/

theorem csByte_congr {s t : State} (h : t.st.cs = s.st.cs) (e o : Nat) : csByte t e o = csByte s e o := by
  unfold csByte
  rw [h]

theorem csBytes_congr {s t : State} {c a n : Nat} (h : ∀ o ∈ Set.Ico a (a + n), csByte t c o = csByte s c o) :
    csBytes t c a n = csBytes s c a n := by
  rw [csBytes_eq, csBytes_eq]
  refine List.map_congr_left fun k hk => h _ ⟨Nat.le_add_right a k, ?_⟩
  have := List.mem_range.mp hk
  omega

theorem csBytes_slice (s : State) (c a : Nat) {k l n : Nat} (h : k + l ≤ n) :
    csBytes s c (a + k) l = ((csBytes s c a n).drop k).take l := by
  unfold csBytes csKey
  rw [memRdN_slice _ _ _ _ _ _ h, Nat.add_assoc]

/-- The store of a sound state. -/
abbrev StoreWf (s : State) : Prop := memWf zeroByte s.st.cs = true

theorem csBytes_csWrite_same {s : State} (hwf : StoreWf s) (c a : Nat) {bs : List Byte} {n : Nat} (hn : bs.length = n) :
    csBytes (csWrite s c a bs) c a n = bs :=
  hn ▸ memRdN_memWrs bs _ hwf

/-! ### What may have been written -/

/-- `t` comes from `s` by writes of the store of cluster `c` at offsets of `R`, and by whatever leaves the stores alone; no
sector has become poison. -/
structure WritesIn (c : Nat) (R : Set Nat) (s t : State) : Prop where
  wf : StoreWf s → StoreWf t
  poison : t.st.csPoison ⊆ s.st.csPoison
  outside : StoreWf s → ∀ e o, o < csSize → ¬(e = c ∧ o ∈ R) → csByte t e o = csByte s e o

section
variable {c : Nat} {R Q : Set Nat} {s t u : State}

theorem WritesIn.of_st (h : t.st = s.st) : WritesIn c R s t where
  wf hwf := by rw [StoreWf, h]; exact hwf
  poison := by rw [h]; exact List.Subset.refl _
  outside _ e o _ _ := csByte_congr (congrArg StoreSt.cs h) e o

theorem WritesIn.trans (h : WritesIn c R s t) (k : WritesIn c R t u) : WritesIn c R s u where
  wf hwf := k.wf (h.wf hwf)
  poison := List.Subset.trans k.poison h.poison
  outside hwf e o ho hR := (k.outside (h.wf hwf) e o ho hR).trans (h.outside hwf e o ho hR)

theorem WritesIn.mono (h : WritesIn c R s t) (hRQ : R ⊆ Q) : WritesIn c Q s t where
  wf := h.wf
  poison := h.poison
  outside hwf e o ho hQ := h.outside hwf e o ho fun hR => hQ ⟨hR.1, hRQ hR.2⟩

theorem WritesIn.csWrite (s : State) {a : Nat} {bs : List Byte} (ha : 0 < bs.length → a + bs.length ≤ csSize)
    (hR : Set.Ico a (a + bs.length) ⊆ R) : WritesIn c R s (csWrite s c a bs) where
  wf hwf := memWrs_wf _ _ hwf
  poison := List.filter_subset_self _
  outside hwf e o ho hR' := by
    cases bs with
    | nil => rfl
    | cons x bs => rw [csByte_csWrite hwf (ha (Nat.succ_pos _)) e o ho, if_neg fun h => hR' ⟨h.1, hR h.2⟩]

/-- Bytes away from what was written. -/
theorem WritesIn.csBytes_eq (h : WritesIn c R s t) (hwf : StoreWf s) {a n : Nat} (ha : a + n ≤ csSize)
    (hR : Disjoint R (Set.Ico a (a + n))) : csBytes t c a n = csBytes s c a n :=
  csBytes_congr fun o ho => h.outside hwf c o (Nat.lt_of_lt_of_le ho.2 ha) fun hmem => Set.disjoint_left.mp hR hmem.2 ho

theorem WritesIn.csBadRange (h : WritesIn c R s t) {e a n : Nat} (hs : csBadRange s e a n = false) :
    csBadRange t e a n = false := by
  unfold Machine.csBadRange csBad at *
  rw [List.any_eq_false] at hs ⊢
  intro x hx hmem
  exact hs x hx (by simpa using h.poison (by simpa using hmem))

end

/-! ### Loops whose turns write apart from each other -/

section
variable {α : Type} {c : Nat} {f : State → α → State} {R : α → Set Nat} {l : List α}
  (hf : ∀ x ∈ l, ∀ s, WritesIn c (R x) s (f s x))
include hf

theorem WritesIn.each (s : State) : WritesIn c {o | ∃ x ∈ l, o ∈ R x} s (each l f s) := by
  induction l generalizing s with
  | nil => exact .of_st rfl
  | cons x l ih =>
    have hfirst : WritesIn c {o | ∃ y ∈ x :: l, o ∈ R y} s (f s x) := (hf x (.head _) s).mono fun o ho => ⟨x, .head _, ho⟩
    exact hfirst.trans ((ih (fun y hy => hf y (.tail _ hy)) (f s x)).mono fun o ⟨y, hy, ho⟩ => ⟨y, .tail _ hy, ho⟩)

/-- What the turn of `x` wrote is there in the end: it started from a state `z` that differs from the first one only where
other turns write. -/
theorem each_at (hnodup : l.Nodup) (hapart : ∀ x ∈ l, ∀ y ∈ l, x ≠ y → Disjoint (R x) (R y)) {s : State} (hwf : StoreWf s)
    {x : α} (hx : x ∈ l) : ∃ z, WritesIn c {o | ∃ y ∈ l, y ≠ x ∧ o ∈ R y} s z ∧
      ∀ a n, a + n ≤ csSize → Set.Ico a (a + n) ⊆ R x → csBytes (each l f s) c a n = csBytes (f z x) c a n := by
  obtain ⟨l₁, l₂, rfl⟩ := List.append_of_mem hx
  obtain ⟨-, hnodup₂, hne₁⟩ := List.nodup_append.mp hnodup
  have hbefore := WritesIn.each (fun y hy => hf y (List.mem_append_left _ hy)) s
  refine ⟨Machine.each l₁ f s, hbefore.mono ?_, fun a n ha hR => ?_⟩
  · rintro o ⟨y, hy, ho⟩
    exact ⟨y, List.mem_append_left _ hy, hne₁ y hy x (.head _), ho⟩
  · have hsplit : Machine.each (l₁ ++ x :: l₂) f s = Machine.each l₂ f (f (Machine.each l₁ f s) x) := List.foldl_append
    rw [hsplit]
    refine (WritesIn.each (fun y hy => hf y (List.mem_append_right _ (.tail _ hy))) _).csBytes_eq
      ((hf x hx _).wf (hbefore.wf hwf)) ha ?_
    rw [Set.disjoint_left]
    rintro o ⟨y, hy, ho⟩ hIco
    have hne : y ≠ x := fun h => (List.nodup_cons.mp hnodup₂).1 (h ▸ hy)
    exact Set.disjoint_left.mp (hapart y (List.mem_append_right _ (.tail _ hy)) x hx hne) ho (hR hIco)

end

/-! ### Rows -/

/-- The offsets of the first `len` bytes of a row. -/
abbrev rowSpan (base ld len r : Nat) : Set Nat := Set.Ico (base + r * ld) (base + r * ld + len)

theorem rowSpan_disjoint {ld len rows : Nat} (base : Nat) (h : len ≤ ld ∨ rows ≤ 1) {r q : Nat} (hr : r < rows)
    (hq : q < rows) (hne : r ≠ q) : Disjoint (rowSpan base ld len r) (rowSpan base ld len q) := by
  have hld : len ≤ ld := h.resolve_right (by omega)
  rw [Set.disjoint_left]
  rintro o ⟨hlo, hhi⟩ ⟨hlo', hhi'⟩
  rcases Nat.lt_or_gt_of_ne hne with hlt | hlt
  · have := Nat.mul_le_mul_right ld (Nat.succ_le_of_lt hlt)
    rw [Nat.succ_mul] at this
    omega
  · have := Nat.mul_le_mul_right ld (Nat.succ_le_of_lt hlt)
    rw [Nat.succ_mul] at this
    omega

/-- The rows of a region lie in it. -/
theorem rowSpan_region {base ld rows len r : Nat} (hr : r < rows) (hlen : 0 < len) :
    (region base ld rows len).1 ≤ base + r * ld ∧ base + r * ld + len ≤ (region base ld rows len).2 := by
  have hmul : r * ld ≤ (rows - 1) * ld := Nat.mul_le_mul_right ld (by omega)
  unfold region
  rw [if_neg (by omega)]
  constructor <;> dsimp only <;> omega

theorem rowSpan_le {base ld rows len : Nat} (h : regionIn (region base ld rows len) = true) {r : Nat} (hr : r < rows)
    (hlen : 0 < len) : base + r * ld + len ≤ csSize :=
  (rowSpan_region hr hlen).2.trans (of_decide_eq_true h)

/-- Rows of regions that do not meet lie apart. -/
theorem rowSpan_disjoint_of_regions {base ld rows len base' ld' rows' len' r q : Nat}
    (h : regionsMeet (region base ld rows len) (region base' ld' rows' len') = false) (hr : r < rows) (hq : q < rows') :
    Disjoint (rowSpan base ld len r) (rowSpan base' ld' len' q) := by
  rw [Set.disjoint_left]
  rintro o ⟨hlo, hhi⟩ ⟨hlo', hhi'⟩
  have h1 := rowSpan_region (base := base) (ld := ld) hr (show 0 < len by omega)
  have h2 := rowSpan_region (base := base') (ld := ld') hq (show 0 < len' by omega)
  simp only [regionsMeet, Bool.and_eq_false_iff, decide_eq_false_iff_not] at h
  omega

theorem WritesIn.record {base ld rows len : Nat} (hin : regionIn (region base ld rows len) = true) {c r p : Nat} (hr : r < rows)
    (hp : p = base + r * ld) {bs : List Byte} (hbs : bs.length = len) (z : State) :
    WritesIn c (rowSpan base ld len r) z (Machine.csWrite z c p bs) := by
  subst hp hbs
  exact .csWrite z (rowSpan_le hin hr) (le_refl _)

/-- A loop that writes one record for each row: row `r` holds what its turn wrote. -/
theorem csBytes_each_records {c base ld len rows : Nat} {p : Nat → Nat} {g : State → Nat → List Byte}
    (hp : ∀ r, p r = base + r * ld) (hg : ∀ z r, (g z r).length = len) (hapart : len ≤ ld ∨ rows ≤ 1)
    (hin : regionIn (region base ld rows len) = true) {s : State} (hwf : StoreWf s) {r : Nat} (hr : r < rows) :
    ∃ z, csBytes (each (List.range rows) (fun z r => csWrite z c (p r) (g z r)) s) c (p r) len = g z r := by
  rcases Nat.eq_zero_or_pos len with rfl | hlen
  · exact ⟨s, by rw [List.eq_nil_of_length_eq_zero (hg s r)]; rfl⟩
  obtain ⟨z, hz, heq⟩ := each_at (fun q hq z => .record hin (List.mem_range.mp hq) (hp q) (hg z q) z) List.nodup_range
    (fun q hq p hp => rowSpan_disjoint base hapart (List.mem_range.mp hq) (List.mem_range.mp hp)) hwf (List.mem_range.mpr hr)
  refine ⟨z, ?_⟩
  rw [heq _ _ (by rw [hp]; exact rowSpan_le hin hr hlen) (by rw [hp]), csBytes_csWrite_same (hz.wf hwf) _ _ (hg z r)]

theorem regionIn_mono {base ld rows len len' : Nat} (h : len ≤ len') (hin : regionIn (region base ld rows len') = true) :
    regionIn (region base ld rows len) = true := by
  unfold regionIn region at *
  simp only [decide_eq_true_eq] at *
  split
  · exact Nat.zero_le _
  next hne =>
    rw [if_neg (by omega)] at hin
    dsimp only at hin ⊢
    omega

/-! ### Loops over numbered rows -/

theorem each_zip_range {α : Type} (n : Nat) (g : Nat → α) (f : State → Nat × α → State) (s : State) :
    each ((List.range n).zip ((List.range n).map g)) f s = each (List.range n) (fun s i => f s (i, g i)) s := by
  rw [← List.map_prod_left_eq_zip]
  exact List.foldl_map

theorem each_congr {α : Type} {l : List α} {f g : State → α → State} (h : ∀ x ∈ l, ∀ s, f s x = g s x) (s : State) :
    each l f s = each l g s :=
  List.foldl_ext f g s fun s x hx => h x hx s

/-- Words of one length, one after the other: word `k` is that of element `k`. -/
theorem flatMap_word {α β : Type} {f : α → List β} {m : Nat} (hf : ∀ x, (f x).length = m) (l : List α) (d : α) {k : Nat}
    (hk : k < l.length) : ((l.flatMap f).drop (m * k)).take m = f (l.getD k d) := by
  have hl : l = (List.range l.length).map fun i => l.getD i d := by
    refine List.ext_getElem (by simp) fun i hi _ => ?_
    rw [List.getElem_map, List.getElem_range, List.getD_eq_getElem _ _ hi]
  conv_lhs => rw [hl, List.flatMap_map]
  exact (flatMap_range_word (fun i => f (l.getD i d)) (fun i => hf _) l.length).2 k hk

end Sys2Proof.Machine
end

section
/-! Vector instructions from issue to their effect: what the checks leave, and what the effect may change (06 R98, R99, R102,
R166). -/

namespace Sys2Proof.Machine

/-! ### Past the checks -/

/-- The descriptor that an instruction word names for a thread. -/
def vecIdx (h : Thread) (w : BitVec 56) : Nat := if vecIndex w = 0xFFFF then h.pidx else vecIndex w

/-- The descriptor at that index, as a store holds it. -/
def vecDescAt (s : State) (c : Nat) (h : Thread) (w : BitVec 56) : VecDesc :=
  vecDesc (csBytes s c (h.vdescBase + 128 * vecIdx h w) 128)

/-- What an instruction that passed its checks has. -/
structure VecPassed (s : State) (c : Nat) (h : Thread) (opc : Nat) (w : BitVec 56) (j : VecJob) : Prop where
  opc : j.opc = opc
  desc : j.d = vecDescAt s c h w
  listed : vecIdx h w < h.vdescCount
  opOk : vecOpBad s c j = false
  inside : (vecInputs j ++ vecOutputs j).all regionIn = true

theorem ite_inl_eq_inr {α β : Type} {p : Prop} [Decidable p] {a : α} {x : α ⊕ β} {b : β} :
    (if p then Sum.inl a else x) = Sum.inr b ↔ ¬p ∧ x = Sum.inr b := by
  by_cases hp : p
  · simp [hp]
  · simp [hp]

theorem vecChecks_passed {s : State} {c : Nat} {h : Thread} {opc : Nat} {w : BitVec 56} {j : VecJob}
    (hj : vecChecks s c h opc w = .inr j) : VecPassed s c h opc w j := by
  unfold vecChecks at hj
  dsimp only at hj
  rw [show (if vecIndex w = 0xFFFF then h.pidx else vecIndex w) = vecIdx h w from rfl] at hj
  simp only [ite_inl_eq_inr] at hj
  obtain ⟨hidx, -, hbad, -, hin, -, hjob⟩ := hj
  obtain rfl := Sum.inr.inj hjob
  rw [vecBad, Bool.not_eq_true, Bool.or_eq_false_iff] at hbad
  exact ⟨rfl, rfl, Nat.lt_of_not_le hidx, hbad.2, by simpa using hin⟩

theorem VecPassed.output_in {s : State} {c : Nat} {h : Thread} {opc : Nat} {w : BitVec 56} {j : VecJob}
    (hp : VecPassed s c h opc w j) {r : Nat × Nat} (hr : r ∈ vecOutputs j) : regionIn r = true :=
  List.all_eq_true.mp hp.inside r (List.mem_append_right _ hr)

/-! ### The instruction's effect -/

section
variable {c : Cluster} {w : BitVec 56} {s u : State} {t opc : Nat} {pc : Word64} {j : VecJob}
  (hiss : issued s c 8 = some (t, pc, u)) (hj : vecChecks u c (thrAt u c t) opc w = .inr j)
include hiss hj

theorem exec_vecIssue {i : Instr} {run : VecAt → VecJob → State → State}
    (hexec : exec i s = .next (issue s c 8 (vecIssue opc w run c))) :
    exec i s = .next (run ⟨c, (thrAt u c t).seq, (thrAt u c t).item, thrAt u c t⟩ j
      (ctrAdd u (ctrCluster c 5) (vecCycles j))) := by
  rw [hexec, issue_of_issued hiss]
  unfold vecIssue
  dsimp only
  rw [hj]

/-- The mode that selects a row of the table is that of the descriptor which the checks read. -/
theorem vecModeOf_issued : vecModeOf s c w = j.d.mode := by
  have hp := vecChecks_passed hj
  obtain ⟨-, -, -, -, -, hthr, -⟩ := issueTakesOneThread c 8 t pc s u hiss
  have hcs : u.st.cs = s.st.cs := (issued_within hiss).storeBytes.resolve_left (by decide)
  have hpick : pickThread s c = some t := (issued_cases hiss).2.1
  have hlisted : ¬(thrAt s c t).vdescCount ≤ vecIdx (thrAt s c t) w := by
    have := hp.listed
    rw [hthr] at this
    exact Nat.not_le_of_lt this
  unfold vecModeOf
  rw [hpick]
  refine (if_neg hlisted).trans ?_
  rw [hp.desc, hthr]
  unfold vecDescAt
  rw [csBytes_congr fun o _ => csByte_congr hcs c o]
  rfl

theorem modeForm_issued {b : Bool} {m : Nat} (hm : modeForm b j.d.mode = m) : modeForm b (vecModeOf s c w) = m := by
  rw [vecModeOf_issued hiss hj, hm]

theorem exec_vstat (hm : j.d.mode = 0) :
    exec (.vstat c w) s = .next (issue s c 8 (vecIssue 0x54 w vstatRun c)) :=
  congrArg Host.Outcome.next (if_pos (modeForm_issued hiss hj (by rw [hm]; rfl)))

theorem exec_vstatPartial (hm : j.d.mode = 1) :
    exec (.vstatPartial c w) s = .next (issue s c 8 (vecIssue 0x54 w vstatRun c)) :=
  congrArg Host.Outcome.next (if_pos (modeForm_issued hiss hj (by rw [hm]; rfl)))

theorem exec_vstatCombine (hm : j.d.mode = 2) :
    exec (.vstatCombine c w) s = .next (issue s c 8 (vecIssue 0x54 w vstatCombineRun c)) :=
  congrArg Host.Outcome.next (if_pos (modeForm_issued hiss hj (by rw [hm]; rfl)))

theorem exec_vsoft (hm : j.d.mode = 0) :
    exec (.vsoft c w) s = .next (issue s c 8 (vecIssue 0x55 w vsoftRun c)) :=
  congrArg Host.Outcome.next (if_pos (modeForm_issued hiss hj (by rw [hm]; rfl)))

theorem exec_vsoftSum (hm : j.d.mode = 1 ∨ j.d.mode = 129) :
    exec (.vsoftSum c w) s = .next (issue s c 8 (vecIssue 0x55 w vsoftRun c)) :=
  congrArg Host.Outcome.next (if_pos (modeForm_issued hiss hj (by rcases hm with hm | hm <;> rw [hm] <;> rfl)))

theorem exec_vsoftProb (hm : j.d.mode = 2) :
    exec (.vsoftProb c w) s = .next (issue s c 8 (vecIssue 0x55 w vsoftProbRun c)) :=
  congrArg Host.Outcome.next (if_pos (modeForm_issued hiss hj (by rw [hm]; rfl)))

end

/-! ### What the effect may change -/

/-- Of the state only the stores, the event path and the saturation counts of clusters differ. -/
def VecChanges (s x : State) : Prop :=
  ChangesOnly (eventParts ++ [.st, .storeBytes, .cl]) s x ∧
    ∀ k, { clAt x k with vecSat := [] } = { clAt s k with vecSat := [] }

theorem vecChanges_of_within {u x : State} (i n : Nat) (h : Within 385876514 (ctrAdd u i n) x) : VecChanges u x := by
  have hu : Within 385876514 u x := (ctrAdd_within u i n (by decide) (.refl _ _)).trans h
  refine ⟨hu.changesOnly _ (by intro p; cases p <;> decide), fun k => ?_⟩
  rw [clAt_congr (hu.cl.resolve_left (by decide))]

theorem vecChanges_of_noteSats {u v x : State} {c : Nat} {l : List Nat} (i n : Nat) (h : Within 385876642 (ctrAdd u i n) x)
    (hx : x.cl = (noteSats v c l).cl) (hv : v.cl = u.cl) : VecChanges u x := by
  have hu : Within 385876642 u x := (ctrAdd_within u i n (by decide) (.refl _ _)).trans h
  refine ⟨hu.changesOnly _ (by intro p; cases p <;> decide), fun k => ?_⟩
  rw [clAt_congr hx, ← clAt_congr hv]
  exact clAt_modCl_field (g := fun cl => { cl with vecSat := [] }) (f := fun cl => { cl with vecSat := l }) (fun _ => rfl) v c k

theorem writeRow_cl (c : Nat) (d : VecDesc) (row : Nat) (xs : List Fv) (s : State) : (writeRow c d row xs s).cl = s.cl :=
  (writeRow_within (M := 268435968) c d row xs s (by decide) (.refl _ _)).cl.resolve_left (by decide)

theorem csWrite_cl (s : State) (c a : Nat) (bs : List Byte) : (csWrite s c a bs).cl = s.cl := rfl

theorem touchResiduals_cl (s : State) (blk c slot : Nat) (p : PrecDesc) (blocks : List (Nat × Nat)) :
    (touchResiduals s blk c slot p blocks).cl = s.cl :=
  (touchResiduals_within (M := 117441058) s blk c slot p blocks (by decide) (.refl _ _)).cl.resolve_left (by decide)

theorem vecTouch_cl (w : VecAt) (s : State) (l : List (Nat × Nat)) : (vecTouch w s l).cl = s.cl :=
  (vecTouch_within (M := 117441058) w s l (by decide) (.refl _ s)).cl.resolve_left (by decide)

theorem vecEvents_cl (w : VecAt) (s : State) (a b : Bool) : (vecEvents w s a b).cl = s.cl :=
  (vecEvents_within (M := 117440546) w s a b (by decide) (.refl _ s)).cl.resolve_left (by decide)

theorem vcvtRun_cl (w : VecAt) (j : VecJob) (s : State) :
    ∃ v l, (vcvtRun w j s).cl = (noteSats v w.c l).cl ∧ v.cl = s.cl := by
  unfold vcvtRun
  extract_lets d s1 rows s2 s3
  exact ⟨s2, _, each_field (v := State.cl) (fun z r => writeRow_cl _ _ _ _ _) _ s3,
    (vecEvents_cl _ _ _ _).trans (vecTouch_cl _ _ _)⟩

theorem vqntRun_cl (w : VecAt) (j : VecJob) (s : State) :
    ∃ v l, (vqntRun w j s).cl = (noteSats v w.c l).cl ∧ v.cl = s.cl := by
  unfold vqntRun
  extract_lets d s1 res valid nb blocks s2 xs m gut taken lifted quant satAt count sats s3 s4
  have h1 : s1.cl = s.cl := vecTouch_cl _ _ _
  clear_value s1 res valid blocks
  have h2 : s2.cl = s.cl := by
    unfold s2
    split
    · split
      · exact (touchResiduals_cl _ _ _ _ _ _).trans h1
      · exact h1
    · exact h1
  clear_value s2 xs m gut taken lifted quant satAt count sats
  have h4 : s4.cl = s3.cl := by
    refine each_field (v := State.cl) (fun z rb => ?_) _ _
    extract_lets n inside q vals lift e codes z1
    have hz : z1.cl = z.cl := rfl
    clear_value z1
    split
    · exact hz
    · exact (csWrites_cl _ _ _).trans hz
  have h3 : ∃ v l, s3 = noteSats v w.c l ∧ v.cl = s.cl := ⟨_, _, rfl, (vecEvents_cl _ _ _ _).trans h2⟩
  obtain ⟨v, l, h3, hv⟩ := h3
  rw [h3] at h4
  refine ⟨v, l, ?_, hv⟩
  split
  · exact (each_field (v := State.cl) (fun _ _ => csWrite_cl _ _ _ _) _ _).trans h4
  · exact h4

end Sys2Proof.Machine
end

section
/-! Detection instructions (08 R159-R161), and that vector and detection instructions complete (06 R99, R102). That a kept
index at or beyond N is left out is log entry 42. -/

namespace Sys2Proof.Machine

/-! ### Past the checks (R159) -/

/-- What a detection instruction that passed its checks has. -/
structure DetPassed (nms : Bool) (d : DetDesc) : Prop where
  n_pos : 0 < d.n
  maxout_pos : 0 < d.maxout
  inside : (detInputs nms d ++ detOutputs nms d).all regionIn = true

theorem detChecks_passed {s : State} {c : Nat} {h : Thread} {nms : Bool} {w : BitVec 56} {d : DetDesc}
    (hd : detChecks s c h nms w = .inr d) : DetPassed nms d := by
  unfold detChecks at hd
  dsimp only at hd
  rw [show (if vecIndex w = 0xFFFF then h.pidx else vecIndex w) = vecIdx h w from rfl] at hd
  simp only [ite_inl_eq_inr] at hd
  obtain ⟨-, -, hbad, -, hin, -, hdesc⟩ := hd
  obtain rfl := Sum.inr.inj hdesc
  simp only [detBad, Bool.or_eq_true, not_or, beq_iff_eq, decide_eq_true_eq] at hbad
  exact ⟨by omega, by omega, by simpa using hin⟩

theorem detRegion_eq {n size : Nat} (base : Nat) (hn : 0 < n) (hs : 0 < size) :
    detRegion base n size = (base, base + size * n) := by
  unfold detRegion region
  rw [if_neg (by omega), Nat.add_assoc, ← Nat.succ_mul, Nat.succ_eq_add_one, Nat.sub_add_cancel hn, Nat.mul_comm]

theorem DetPassed.output_in {nms : Bool} {d : DetDesc} (hp : DetPassed nms d) {r : Nat × Nat} (hr : r ∈ detOutputs nms d) :
    regionIn r = true :=
  List.all_eq_true.mp hp.inside r (List.mem_append_right _ hr)

/-- A region of a detection instruction as a range that lies in the store. -/
theorem DetPassed.range_in {nms : Bool} {d : DetDesc} (hp : DetPassed nms d) {base n size : Nat} (hn : 0 < n) (hs : 0 < size)
    (hr : detRegion base n size ∈ detOutputs nms d) : base + size * n ≤ csSize := by
  have := hp.output_in hr
  rw [detRegion_eq base hn hs] at this
  exact of_decide_eq_true this

theorem detRegion_apart {b n k b' n' k' : Nat} (hn : 0 < n) (hk : 0 < k) (hn' : 0 < n') (hk' : 0 < k')
    (h : regionsMeet (detRegion b n k) (detRegion b' n' k') = false) : b + k * n ≤ b' ∨ b' + k' * n' ≤ b := by
  rw [detRegion_eq b hn hk, detRegion_eq b' hn' hk', regionsMeet, Bool.and_eq_false_iff, decide_eq_false_iff_not,
    decide_eq_false_iff_not] at h
  dsimp only at h
  omega

/-! ### The store at its effect -/

theorem Sound.storeWf {s : State} (h : Sound s) : StoreWf s := h.2.1.2.1

theorem raiseIf_st (b : Bool) (s : State) (block num c slot : Nat) : (raiseIf b s block num c slot).st = s.st :=
  (raiseIf_within (M := 117440546) b s block num c slot (by decide) (.refl _ s)).st.resolve_left (by decide)

theorem StoreWf.of_st {s t : State} (h : StoreWf s) (hst : t.st = s.st) : StoreWf t := by
  rw [StoreWf, hst]
  exact h

theorem csBytes_csWrite_other {s : State} (hwf : StoreWf s) {c a b n : Nat} {bs : List Byte} (ha : a + bs.length ≤ csSize)
    (hb : b + n ≤ csSize) (h : b + n ≤ a ∨ a + bs.length ≤ b) : csBytes (csWrite s c a bs) c b n = csBytes s c b n := by
  refine (WritesIn.csWrite s (fun _ => ha) (le_refl _)).csBytes_eq hwf hb (Set.disjoint_left.mpr ?_)
  rintro o ⟨hlo, hhi⟩ ⟨hlo', hhi'⟩
  omega

theorem csWrite_wf {s : State} (h : StoreWf s) (c a : Nat) (bs : List Byte) : StoreWf (csWrite s c a bs) := memWrs_wf _ _ h

theorem length_flatMap_const {α β : Type} {l : List α} {f : α → List β} {m : Nat} (h : ∀ x, (f x).length = m) :
    (l.flatMap f).length = m * l.length := by
  rw [List.length_flatMap, List.map_congr_left (g := fun _ => m) fun x _ => h x]
  simp [Nat.mul_comm]

theorem floatBytes_length (f : Nat) (x : Fv) : (floatBytes f x).length = floatSize f := by
  unfold floatBytes floatSize
  split
  · exact leBytes_length _ _
  · split <;> exact leBytes_length _ _

theorem BoxF.bytes_length (b : BoxF) : b.bytes.length = 16 :=
  length_flatMap_const fun x => floatBytes_length 6 x

/-! ### DBOX (R160) -/

/-- The anchors that DBOX keeps. -/
def keptAnchors (v : State) (c : Nat) (d : DetDesc) : List Nat :=
  (List.range d.n).filter fun i => (dboxAnchor v c d i).2.1

theorem keptAnchors_length_le (v : State) (c : Nat) (d : DetDesc) : (keptAnchors v c d).length ≤ d.n := by
  have := List.length_filter_le (fun i => (dboxAnchor v c d i).2.1) (List.range d.n)
  rwa [List.length_range] at this

theorem dboxRun_eq (c slot : Nat) (d : DetDesc) (s : State) {v : State} (hv : v = detTouch c slot false d s) :
    ∃ z, z.st = v.st ∧ dboxRun c slot d s =
      csWrite (csWrite (csWrite z c d.bBase ((List.range d.n).flatMap fun i => (dboxAnchor v c d i).1.bytes)) c d.kBase
        ((keptAnchors v c d).flatMap (leBytes 4))) c d.cnt (leBytes 4 (keptAnchors v c d).length) := by
  subst hv
  refine ⟨raiseIf (((List.range d.n).map (dboxAnchor (detTouch c slot false d s) c d)).any (·.2.2)) _ bCNV 12 c slot,
    raiseIf_st _ _ _ _ _ _, ?_⟩
  unfold dboxRun keptAnchors
  dsimp only
  rw [← List.map_prod_left_eq_zip, List.filterMap_map, List.flatMap_map, ← List.filterMap_eq_filter]
  rfl

/-- The boxes, the kept indices and their count stand at their bases. -/
theorem dboxRun_bytes {c slot : Nat} {d : DetDesc} {s v : State} (hp : DetPassed false d)
    (hv : v = detTouch c slot false d s) (hwf : StoreWf v)
    (hapart : (detOutputs false d).Pairwise fun a b => regionsMeet a b = false) :
    csBytes (dboxRun c slot d s) c d.bBase (16 * d.n) = (List.range d.n).flatMap (fun i => (dboxAnchor v c d i).1.bytes) ∧
      csBytes (dboxRun c slot d s) c d.kBase (4 * (keptAnchors v c d).length) = (keptAnchors v c d).flatMap (leBytes 4) ∧
      csBytes (dboxRun c slot d s) c d.cnt 4 = leBytes 4 (keptAnchors v c d).length := by
  obtain ⟨z, hz, hrun⟩ := dboxRun_eq c slot d s hv
  have hwfz : StoreWf z := hwf.of_st hz
  have hkept := keptAnchors_length_le v c d
  have hblen : ((List.range d.n).flatMap fun i => (dboxAnchor v c d i).1.bytes).length = 16 * d.n := by
    rw [length_flatMap_const fun i => BoxF.bytes_length _, List.length_range]
  have hklen : ((keptAnchors v c d).flatMap (leBytes 4)).length = 4 * (keptAnchors v c d).length :=
    length_flatMap_const fun i => leBytes_length 4 i
  have hclen : (leBytes 4 (keptAnchors v c d).length).length = 4 := leBytes_length _ _
  have hb : d.bBase + 16 * d.n ≤ csSize := hp.range_in hp.n_pos (by decide) (.head _)
  have hk : d.kBase + 4 * d.n ≤ csSize := hp.range_in hp.n_pos (by decide) (.tail _ (.head _))
  have hc : d.cnt + 4 * 1 ≤ csSize := hp.range_in (by decide) (by decide) (.tail _ (.tail _ (.head _)))
  simp only [detOutputs, Bool.false_eq_true, if_false, List.pairwise_cons, List.mem_cons, List.not_mem_nil, or_false,
    forall_eq_or_imp, forall_eq] at hapart
  obtain ⟨⟨hbk, hbc⟩, hkc, -⟩ := hapart
  replace hbk := detRegion_apart hp.n_pos (by decide) hp.n_pos (by decide) hbk
  replace hbc := detRegion_apart hp.n_pos (by decide) (by decide) (by decide) hbc
  replace hkc := detRegion_apart hp.n_pos (by decide) (by decide) (by decide) hkc
  rw [hrun]
  refine ⟨?_, ?_, csBytes_csWrite_same (csWrite_wf (csWrite_wf hwfz _ _ _) _ _ _) _ _ hclen⟩
  · rw [csBytes_csWrite_other (csWrite_wf (csWrite_wf hwfz _ _ _) _ _ _) (by omega) hb (by omega),
      csBytes_csWrite_other (csWrite_wf hwfz _ _ _) (by omega) hb (by omega), csBytes_csWrite_same hwfz _ _ hblen]
  · rw [csBytes_csWrite_other (csWrite_wf (csWrite_wf hwfz _ _ _) _ _ _) (by omega) (by omega) (by omega),
      csBytes_csWrite_same (csWrite_wf hwfz _ _ _) _ _ hklen]

/-! ### DNMS (R161) -/

theorem nmsAccept_length_le (byClass : Bool) (d : DetDesc) (l : List Cand) : (nmsAccept byClass d l).length ≤ d.maxout := by
  unfold nmsAccept
  refine List.foldlRecOn (motive := fun acc : List Cand => acc.length ≤ d.maxout) l _ (Nat.zero_le _) ?_
  intro acc hacc x _
  split
  next => exact hacc
  next hroom =>
    split
    · exact hacc
    · rw [List.length_append, List.length_singleton]
      omega

/-- The candidates that DNMS takes: of the first `nc` kept indices those below N, in rank order, at most 2,048. -/
def nmsCands (v : State) (c : Nat) (d : DetDesc) (nc : Nat) : List Cand :=
  (((((List.range nc).map fun k => ofLE (csBytes v c (d.kBase + 4 * k) 4)).filter (· < d.n)).map
    (candAt v c d)).mergeSort Cand.before).take 2048

theorem dnmsRun_eq (c slot : Nat) (byClass : Bool) (d : DetDesc) (s : State) {v : State} (hv : v = detTouch c slot true d s)
    {nc : Nat} (hnc : nc = min d.n (ofLE (csBytes v c d.cnt 4))) {out : List Cand}
    (hout : out = nmsAccept byClass d (nmsCands v c d nc)) :
    ∃ z, z.st = v.st ∧ dnmsRun c slot byClass d s = csWrite (csWrite z c d.oBase (out.flatMap fun x => leBytes 4 x.i)) c
      (d.cnt + 4) (leBytes 4 out.length ++ leBytes 4 (decide (2048 < nc)).toNat) := by
  subst hv hnc hout
  exact ⟨_, raiseIf_st _ _ _ _ _ _, rfl⟩

/-- The accepted indices, their count and whether the list was cut stand at their bases. -/
theorem dnmsRun_bytes {c slot : Nat} {byClass : Bool} {d : DetDesc} {s v : State} (hp : DetPassed true d)
    (hv : v = detTouch c slot true d s) (hwf : StoreWf v)
    (hapart : (detOutputs true d).Pairwise fun a b => regionsMeet a b = false)
    {nc : Nat} (hnc : nc = min d.n (ofLE (csBytes v c d.cnt 4))) {out : List Cand}
    (hout : out = nmsAccept byClass d (nmsCands v c d nc)) :
    csBytes (dnmsRun c slot byClass d s) c d.oBase (4 * out.length) = out.flatMap (fun a => leBytes 4 a.i) ∧
      csBytes (dnmsRun c slot byClass d s) c (d.cnt + 4) 8 =
        leBytes 4 out.length ++ leBytes 4 (decide (2048 < nc)).toNat := by
  obtain ⟨z, hz, hrun⟩ := dnmsRun_eq c slot byClass d s hv hnc hout
  have hwfz : StoreWf z := hwf.of_st hz
  have hacc : out.length ≤ d.maxout := hout ▸ nmsAccept_length_le _ _ _
  have holen : (out.flatMap fun x => leBytes 4 x.i).length = 4 * out.length :=
    length_flatMap_const fun x => leBytes_length 4 x.i
  have hclen : (leBytes 4 out.length ++ leBytes 4 (decide (2048 < nc)).toNat).length = 8 := by
    rw [List.length_append, leBytes_length, leBytes_length]
  have ho : d.oBase + 4 * d.maxout ≤ csSize := hp.range_in hp.maxout_pos (by decide) (.head _)
  have hc : d.cnt + 4 + 8 * 1 ≤ csSize := hp.range_in (by decide) (by decide) (.tail _ (.head _))
  simp only [detOutputs, if_true, List.pairwise_cons, List.mem_singleton, forall_eq] at hapart
  have hoc := detRegion_apart hp.maxout_pos (by decide) (by decide) (by decide) hapart.1
  rw [hrun]
  refine ⟨?_, csBytes_csWrite_same (csWrite_wf hwfz _ _ _) _ _ hclen⟩
  rw [csBytes_csWrite_other (csWrite_wf hwfz _ _ _) (by omega) (by omega) (by omega), csBytes_csWrite_same hwfz _ _ holen]

/-! ### Issue (R159) -/

section
variable {c : Cluster} {w : BitVec 56} {s u : State} {t : Nat} {pc : Word64} {d : DetDesc} (hsnd : Sound s)
  (hiss : issued s c 8 = some (t, pc, u))
include hiss

theorem exec_dbox (hd : detChecks u c (thrAt u c t) false w = .inr d) :
    exec (.dbox c w) s = .next (dboxRun c (thrAt u c t).seq d (ctrAdd u (ctrCluster c 5) (dboxCycles d))) := by
  refine congrArg Host.Outcome.next ((issue_of_issued hiss _).trans ?_)
  unfold detIssue
  dsimp only
  rw [hd]
  rfl

theorem exec_dnms (hd : detChecks u c (thrAt u c t) true w = .inr d) :
    exec (.dnms c w) s = .next (dnmsRun c (thrAt u c t).seq (vecFunc w == 1) d
      (ctrAdd u (ctrCluster c 5) (dnmsCycles d (min d.n (ofLE (csBytes u c d.cnt 4)))))) := by
  refine congrArg Host.Outcome.next ((issue_of_issued hiss _).trans ?_)
  unfold detIssue
  dsimp only
  rw [hd]
  rfl

omit hiss in
theorem detTouch_within (c slot : Nat) (nms : Bool) (d : DetDesc) (s : State) (i n : Nat) :
    Within 117441058 s (detTouch c slot nms d (ctrAdd s i n)) :=
  touchAll_within _ _ _ _ _ (by decide) (ctrAdd_within _ _ _ (by decide) (.refl _ _))

include hsnd

/-- The bytes of the stores when a detection instruction has read its inputs. -/
theorem detTouch_storeWf (nms : Bool) (d : DetDesc) (slot i n : Nat) : StoreWf (detTouch c slot nms d (ctrAdd u i n)) :=
  ((detTouch_within c slot nms d u i n).sound ((issued_within hiss).sound hsnd)).storeWf

end

/-! ### Both kinds of instruction complete -/

theorem detChanges_of_within {u x : State} (i n : Nat) (h : Within 385876514 (ctrAdd u i n) x) :
    ChangesOnly (eventParts ++ [.st, .storeBytes]) u x :=
  ((ctrAdd_within u i n (by decide) (.refl _ _)).trans h).changesOnly _ (by intro p; cases p <;> decide)

/-- The forms of the vector instructions: command, opcode, effect, and the modes that belong to it (Table 6.1). -/
def vectorForms (c : Cluster) (w : BitVec 56) : List (Instr × Nat × (VecAt → VecJob → State → State) × (Nat → Bool)) :=
  [(Instr.vew c w, 0x50, vewRun, fun _ => true), (.vcvt c w, 0x51, vcvtRun, fun _ => true),
    (.vqnt c w, 0x52, vqntRun, fun _ => true), (.vsf c w, 0x53, vsfRun, fun _ => true),
    (.vstat c w, 0x54, vstatRun, fun m => m == 0), (.vstatPartial c w, 0x54, vstatRun, fun m => m == 1),
    (.vstatCombine c w, 0x54, vstatCombineRun, fun m => m == 2),
    (.vsoft c w, 0x55, vsoftRun, fun m => m == 0), (.vsoftSum c w, 0x55, vsoftRun, fun m => m == 1 || m == 129),
    (.vsoftProb c w, 0x55, vsoftProbRun, fun m => m == 2), (.vargmax c w, 0x56, vargmaxRun, fun _ => true)]

theorem vector_completes {c : Cluster} {w : BitVec 56} {s u : State} {t : Nat} {pc : Word64}
    (hiss : issued s c 8 = some (t, pc, u)) {i : Instr} {opc : Nat} {form : Nat → Bool}
    {run : VecAt → VecJob → State → State} {j : VecJob}
    (hi : (i, opc, run, form) ∈ vectorForms c w)
    (hj : vecChecks u c (thrAt u c t) opc w = .inr j) (hform : form j.d.mode = true) :
    exec i s = .next (issue s c 8 (vecIssue opc w run c)) ∧
      ∀ a n m, VecChanges u (run a j (ctrAdd u n m)) := by
  simp only [vectorForms, List.mem_cons, Prod.mk.injEq, List.not_mem_nil, or_false] at hi
  obtain ⟨rfl, rfl, rfl, rfl⟩ | ⟨rfl, rfl, rfl, rfl⟩ | ⟨rfl, rfl, rfl, rfl⟩ | ⟨rfl, rfl, rfl, rfl⟩ | ⟨rfl, rfl, rfl, rfl⟩ |
    ⟨rfl, rfl, rfl, rfl⟩ | ⟨rfl, rfl, rfl, rfl⟩ | ⟨rfl, rfl, rfl, rfl⟩ | ⟨rfl, rfl, rfl, rfl⟩ | ⟨rfl, rfl, rfl, rfl⟩ |
    ⟨rfl, rfl, rfl, rfl⟩ := hi
  · exact ⟨rfl, fun a n m => vecChanges_of_within n m (vewRun_within a j _ (by decide) (.refl _ _))⟩
  · refine ⟨rfl, fun a n m => ?_⟩
    obtain ⟨v, l, hx, hv⟩ := vcvtRun_cl a j (ctrAdd u n m)
    exact vecChanges_of_noteSats n m (vcvtRun_within a j _ (by decide) (.refl _ _)) hx hv
  · refine ⟨rfl, fun a n m => ?_⟩
    obtain ⟨v, l, hx, hv⟩ := vqntRun_cl a j (ctrAdd u n m)
    exact vecChanges_of_noteSats n m (vqntRun_within a j _ (by decide) (.refl _ _)) hx hv
  · exact ⟨rfl, fun a n m => vecChanges_of_within n m (vsfRun_within a j _ (by decide) (.refl _ _))⟩
  · exact ⟨exec_vstat hiss hj (by simpa using hform),
      fun a n m => vecChanges_of_within n m (vstatRun_within a j _ (by decide) (.refl _ _))⟩
  · exact ⟨exec_vstatPartial hiss hj (by simpa using hform),
      fun a n m => vecChanges_of_within n m (vstatRun_within a j _ (by decide) (.refl _ _))⟩
  · exact ⟨exec_vstatCombine hiss hj (by simpa using hform),
      fun a n m => vecChanges_of_within n m (vstatCombineRun_within a j _ (by decide) (.refl _ _))⟩
  · exact ⟨exec_vsoft hiss hj (by simpa using hform),
      fun a n m => vecChanges_of_within n m (vsoftRun_within a j _ (by decide) (.refl _ _))⟩
  · exact ⟨exec_vsoftSum hiss hj (by simpa using hform),
      fun a n m => vecChanges_of_within n m (vsoftRun_within a j _ (by decide) (.refl _ _))⟩
  · exact ⟨exec_vsoftProb hiss hj (by simpa using hform),
      fun a n m => vecChanges_of_within n m (vsoftProbRun_within a j _ (by decide) (.refl _ _))⟩
  · exact ⟨rfl, fun a n m => vecChanges_of_within n m (vargmaxRun_within a j _ (by decide) (.refl _ _))⟩

/-- Settles O27: the checked instruction runs its effect on the state it issued in, and the parts that the effect may change
are those of its writes, of its events and of the saturation counts. -/
theorem vectorInstructionsComplete : Obligations.VectorInstructionsComplete := by
  intro c w s u t pc hsnd hiss
  refine ⟨fun i opc form run j hi hj hform => ?_, fun d => ⟨fun hd => ?_, fun hd => ?_⟩⟩
  · obtain ⟨hexec, hchg⟩ := vector_completes hiss hi hj hform
    obtain ⟨hparts, hcl⟩ := hchg ⟨c, (thrAt u c t).seq, (thrAt u c t).item, thrAt u c t⟩ (ctrCluster c 5) (vecCycles j)
    exact ⟨_, exec_vecIssue hiss hj hexec, rfl, hparts, hcl⟩
  · refine ⟨_, exec_dbox hiss hd, rfl, detChanges_of_within _ _ (dboxRun_within _ _ _ _ (by decide) (.refl _ _)), ?_⟩
    rintro hapart v kept hv rfl
    exact dboxRun_bytes (detChecks_passed hd) hv (hv ▸ detTouch_storeWf hsnd hiss _ _ _ _ _) hapart
  · refine ⟨_, exec_dnms hiss hd, rfl, detChanges_of_within _ _ (dnmsRun_within _ _ _ _ _ (by decide) (.refl _ _)), ?_⟩
    rintro hapart v nc out hv hnc hout
    have hcs : v.st.cs = u.st.cs := hv ▸ (detTouch_within _ _ _ _ _ _ _).storeBytes.resolve_left (by decide)
    rw [← csBytes_congr fun o _ => csByte_congr hcs c o] at hnc
    exact dnmsRun_bytes (detChecks_passed hd) hv (hv ▸ detTouch_storeWf hsnd hiss _ _ _ _ _) hapart hnc hout

end Sys2Proof.Machine
end

section
/-! Rows of vector operands and results; the elements that VEW, VCVT and VSF write (06 Table 6.1, R100, R105). -/

namespace Sys2Proof.Machine

/-! ### Rows of operands -/

theorem blockElems_length (s : State) (c f : Nat) (p : Place) (row b : Nat) (inRow : Bool) (kLen : Nat) (pad : Nat → Val)
    (cover : Nat → Option Val) : (blockElems s c f p row b inRow kLen pad cover).length = 32 := by
  unfold blockElems
  rw [List.length_map, List.length_range]

theorem le_roundUp (n : Nat) {b : Nat} (hb : 0 < b) : n ≤ roundUp n b := by
  unfold roundUp cdiv
  have := Nat.div_add_mod (n + b - 1) b
  have := Nat.mod_lt (n + b - 1) hb
  rw [Nat.mul_comm]
  omega

/-- A row has its in-extent elements. -/
theorem vecRow_length (s : State) (c f base ld sbase sld row cols : Nat) :
    (vecRow s c f base ld sbase sld row cols).length = cols := by
  unfold vecRow
  split
  next hf =>
    have hwhole : roundUp cols 32 / 32 * 32 = roundUp cols 32 := by
      unfold roundUp
      rw [Nat.mul_div_cancel _ (by decide)]
    unfold rowElems
    rw [if_neg (by omega), List.length_map, List.length_take,
      length_flatMap_const fun _ => blockElems_length _ _ _ _ _ _ _ _ _ _, List.length_range, Nat.mul_comm,
      hwhole, Nat.min_eq_left (le_roundUp cols (by decide))]
  next => rw [List.length_map, List.length_range]

theorem rowX_length (s : State) (c : Nat) (d : VecDesc) (r : Nat) : (rowX s c d r).length = d.cols :=
  vecRow_length _ _ _ _ _ _ _ _ _

theorem rowY_length (s : State) (c : Nat) (d : VecDesc) (r : Nat) : (rowY s c d r).length = d.cols :=
  (List.length_map _).trans (vecRow_length _ _ _ _ _ _ _ _ _)

theorem rowZ_length (s : State) (c : Nat) (d : VecDesc) (r : Nat) : (rowZ s c d r).length = d.cols :=
  (List.length_map _).trans (vecRow_length _ _ _ _ _ _ _ _ _)

/-! ### What the effects leave of the stores -/

theorem vecEvents_st (w : VecAt) (s : State) (a b : Bool) : (vecEvents w s a b).st = s.st :=
  (vecEvents_within (M := 117440546) w s a b (by decide) (.refl _ s)).st.resolve_left (by decide)

theorem vecTouch_ctrAdd_within (w : VecAt) (s : State) (i n : Nat) (l : List (Nat × Nat)) :
    Within 117441058 s (vecTouch w (ctrAdd s i n) l) :=
  vecTouch_within _ _ _ (by decide) (ctrAdd_within _ _ _ (by decide) (.refl _ _))

/-! ### Rows of float results -/

theorem writeRow_float {d : VecDesc} (hz : 5 ≤ d.zFmt) (c row : Nat) (xs : List Fv) (s : State) :
    writeRow c d row xs s = csWrite s c (d.zBase + row * d.zLd) (xs.flatMap (floatBytes d.zFmt)) :=
  if_neg (by omega)

theorem floatRow_length {f n : Nat} {xs : List Fv} (h : xs.length = n) :
    (xs.flatMap (floatBytes f)).length = floatSize f * n := by
  rw [length_flatMap_const fun x => floatBytes_length f x, h]

/-- The elements of a row of floats lie in the bytes that the checks count for it. -/
theorem floatRow_le_vecLen {f : Nat} (hf : 5 ≤ f) (n : Nat) : floatSize f * n ≤ vecLen f n := by
  unfold floatSize vecLen fmtLen
  rw [if_neg (show ¬f ≤ 4 by omega)]
  split_ifs <;> omega

/-- An element of a row of floats that the store holds. -/
theorem csBytes_floatElem {x : State} {c base f n k : Nat} {l : List Fv} (y : Fv)
    (hrow : csBytes x c base (floatSize f * n) = l.flatMap (floatBytes f)) (hlen : l.length = n) (hk : k < n) :
    csBytes x c (base + floatSize f * k) (floatSize f) = floatBytes f (l.getD k y) := by
  have hin : floatSize f * k + floatSize f ≤ floatSize f * n := Nat.mul_le_mul_left _ hk
  rw [csBytes_slice _ _ _ hin, hrow]
  exact flatMap_word (fun x => floatBytes_length f x) l y (by rw [hlen]; exact hk)

/-- Rows of Z in a float format (06 R100): what element (r, k) holds, and where the loop writes. -/
theorem writeRows_float {d : VecDesc} {c : Nat} {xs : Nat → List Fv} (hz : 5 ≤ d.zFmt) (hlen : ∀ r, (xs r).length = d.cols)
    (hapart : vecLen d.zFmt d.cols ≤ d.zLd ∨ d.rows ≤ 1)
    (hin : regionIn (region d.zBase d.zLd d.rows (vecLen d.zFmt d.cols)) = true) {z : State} (hwf : StoreWf z) :
    (∀ r k y, r < d.rows → k < d.cols →
      csBytes (each (List.range d.rows) (fun z r => writeRow c d r (xs r) z) z) c
        (d.zBase + r * d.zLd + floatSize d.zFmt * k) (floatSize d.zFmt) = floatBytes d.zFmt ((xs r).getD k y)) ∧
    WritesIn c {o | ∃ r ∈ List.range d.rows, o ∈ rowSpan d.zBase d.zLd (floatSize d.zFmt * d.cols) r} z
      (each (List.range d.rows) (fun z r => writeRow c d r (xs r) z) z) := by
  have hlen' : ∀ r, ((xs r).flatMap (floatBytes d.zFmt)).length = floatSize d.zFmt * d.cols := fun r => floatRow_length (hlen r)
  have hle := floatRow_le_vecLen hz d.cols
  have hin' := regionIn_mono hle hin
  simp only [writeRow_float hz]
  refine ⟨fun r k y hr hk => ?_, .each (fun r hr z => .record hin' (List.mem_range.mp hr) rfl (hlen' r) z) z⟩
  obtain ⟨z', hrow⟩ := csBytes_each_records (c := c) (g := fun _ r => (xs r).flatMap (floatBytes d.zFmt)) (fun _ => rfl)
    (fun _ r => hlen' r) (hapart.imp_left fun h => hle.trans h) hin' hwf hr
  exact csBytes_floatElem y hrow (hlen r) hk

/-! ### VEW, VCVT and VSF -/

/-- Row r of the result, before it is rounded. -/
def outRow (v : State) (c : Nat) (j : VecJob) (r : Nat) : List Fv := (List.range j.d.cols).map (vecElem v c j r)

theorem outRow_length (v : State) (c : Nat) (j : VecJob) (r : Nat) : (outRow v c j r).length = j.d.cols := by
  rw [outRow, List.length_map, List.length_range]

theorem outRow_getD {v : State} {c : Nat} {j : VecJob} {r k : Nat} (hk : k < j.d.cols) (y : Fv) :
    (outRow v c j r).getD k y = vecElem v c j r k := by
  rw [List.getD_eq_getElem _ _ (by rw [outRow_length]; exact hk)]
  simp [outRow]

/-- A list of results is the row where its element k is the function of the operands at k. -/
theorem eq_outRow {v : State} {c : Nat} {j : VecJob} {r : Nat} {l : List Fv} (hlen : l.length = j.d.cols)
    (h : ∀ k (hk : k < l.length), l[k] = vecElem v c j r k) : l = outRow v c j r := by
  refine List.ext_getElem (by rw [hlen, outRow_length]) fun k hk _ => ?_
  rw [h k hk]
  simp [outRow]

theorem rowX_getElem {v : State} {c : Nat} {d : VecDesc} {r k : Nat} (hk : k < (rowX v c d r).length) :
    (rowX v c d r)[k].1 = ((rowX v c d r).getD k (Fv.poison, false)).1 := by
  rw [List.getD_eq_getElem _ _ hk]

/-- An operand that an instruction may leave out, where another one stands for it. -/
theorem getElem_operand {p q : Prop} [Decidable p] [Decidable q] (hpq : p ↔ q) {l m : List Fv} {k : Nat}
    (hk : k < (if p then l else m).length) {w y : Fv} (hm : ∀ h : k < m.length, m[k] = w) :
    (if p then l else m)[k] = if q then l.getD k y else w := by
  by_cases h : q
  · simp only [if_pos (hpq.mpr h)] at hk
    simp only [if_pos (hpq.mpr h), if_pos h]
    exact (List.getD_eq_getElem _ _ hk).symm
  · have hp : ¬p := fun hp => h (hpq.mp hp)
    simp only [if_neg hp] at hk
    simp only [if_neg hp, if_neg h]
    exact hm hk

section
variable {a : VecAt} {j : VecJob} {b v : State} (hv : v = vecTouch a b (vecReads j))
include hv

theorem vewRun_rows (hop : j.opc = 0x50) : ∃ z, z.st = v.st ∧
    vewRun a j b = each (List.range j.d.rows) (fun z r => writeRow a.c j.d r (outRow v a.c j r) z) z := by
  have hreads : vecReads j = rangesX j.d
      ++ (if decide (j.func < 6) = true then matRanges j.d.yFmt j.d.yBase j.d.yLd 0 0 j.d.rows j.d.cols else [])
      ++ (if (j.func == 3) = true then matRanges j.d.zFmt j.d.zBase j.d.zLd 0 0 j.d.rows j.d.cols else []) := by
    simp [vecReads, hop]
  unfold vewRun
  extract_lets d useY useZ s1 rows s2
  have hs1 : s1 = v := by rw [hv, hreads]
  refine ⟨s2, by rw [← hs1]; exact vecEvents_st _ _ _ _, ?_⟩
  unfold rows
  rw [each_zip_range, hs1]
  refine each_congr (fun r _ z => congrArg (fun l => writeRow a.c j.d r l z) (eq_outRow ?_ fun k hk => ?_)) s2
  · have hy : (if useY = true then rowY v a.c d r else (rowX v a.c d r).map (·.1)).length = d.cols := by
      split
      · exact rowY_length _ _ _ _
      · rw [List.length_map, rowX_length]
    have hz : (if useZ = true then rowZ v a.c d r else (rowX v a.c d r).map (·.1)).length = d.cols := by
      split
      · exact rowZ_length _ _ _ _
      · rw [List.length_map, rowX_length]
    simp only [List.length_map, List.length_zip, rowX_length, hy, hz, Nat.min_self]
    rfl
  · simp only [List.getElem_map, List.getElem_zip, vecElem, hop]
    rw [rowX_getElem, getElem_operand decide_eq_true_iff _ fun _ => (List.getElem_map _).trans (rowX_getElem _),
      getElem_operand beq_iff_eq _ fun _ => (List.getElem_map _).trans (rowX_getElem _)]

theorem vcvtRun_rows (hop : j.opc = 0x51) : ∃ z, z.st = v.st ∧
    vcvtRun a j b = each (List.range j.d.rows) (fun z r => writeRow a.c j.d r (outRow v a.c j r) z) z := by
  have hreads : vecReads j = rangesX j.d := by simp [vecReads, hop]
  unfold vcvtRun
  extract_lets d s1 rows s2 s3
  have hs1 : s1 = v := by rw [hv, hreads]
  refine ⟨s3, by rw [← hs1]; exact vecEvents_st _ _ _ _, ?_⟩
  unfold rows
  rw [each_zip_range, hs1]
  refine each_congr (fun r _ z => congrArg (fun l => writeRow a.c j.d r l z) (eq_outRow ?_ fun k hk => ?_)) s3
  · rw [List.length_map, rowX_length]
  · simp only [List.getElem_map, vecElem, hop]
    exact rowX_getElem _

theorem vsfRun_rows (hop : j.opc = 0x53) : ∃ z, z.st = v.st ∧
    vsfRun a j b = each (List.range j.d.rows) (fun z r => writeRow a.c j.d r (outRow v a.c j r) z) z := by
  have hreads : vecReads j = rangesX j.d := by simp [vecReads, hop]
  unfold vsfRun
  extract_lets d s1 rows outs s2 s3
  have hs1 : s1 = v := by rw [hv, hreads]
  refine ⟨s3, by rw [← hs1]; exact (raiseIf_st _ _ _ _ _ _).trans (vecEvents_st _ _ _ _), ?_⟩
  unfold outs rows
  rw [List.map_map, each_zip_range, hs1]
  refine each_congr (fun r _ z => congrArg (fun l => writeRow a.c j.d r l z) (eq_outRow ?_ fun k hk => ?_)) s3
  · simp only [Function.comp_apply, List.length_map, rowX_length]
    rfl
  · simp only [Function.comp_apply, List.getElem_map, vecElem, hop]
    rw [rowX_getElem]

end

/-! ### The rows in the store -/

theorem vecTouch_storeWf {s u : State} {c t : Nat} {pc : Word64} (hsnd : Sound s) (hiss : issued s c 8 = some (t, pc, u))
    (a : VecAt) (i n : Nat) (l : List (Nat × Nat)) : StoreWf (vecTouch a (ctrAdd u i n) l) :=
  ((vecTouch_ctrAdd_within a u i n l).sound ((issued_within hiss).sound hsnd)).storeWf

section
variable {c : Cluster} {w : BitVec 56} {s u : State} {t opc : Nat} {pc : Word64} {j : VecJob} {a : VecAt} {b : State}
  (hsnd : Sound s) (hiss : issued s c 8 = some (t, pc, u)) (hj : vecChecks u c (thrAt u c t) opc w = .inr j)
  (ha : a = ⟨c, (thrAt u c t).seq, (thrAt u c t).item, thrAt u c t⟩) (hb : b = ctrAdd u (ctrCluster c 5) (vecCycles j))
include hsnd hiss hj ha hb

/-- VEW, VCVT and VSF into a float format or WX32 (06 R100, R105). -/
theorem elements_written {i : Instr} (hi : (i, opc) ∈ [(Instr.vew c w, 0x50), (.vcvt c w, 0x51), (.vsf c w, 0x53)])
    (hz : 5 ≤ j.d.zFmt) (hapart : vecLen j.d.zFmt j.d.cols ≤ j.d.zLd ∨ j.d.rows ≤ 1) {v : State}
    (hv : v = vecTouch a b (vecReads j)) :
    ∃ x, exec i s = .next x ∧
      (∀ r k, r < j.d.rows → k < j.d.cols →
        csBytes x c (j.d.zBase + r * j.d.zLd + floatSize j.d.zFmt * k) (floatSize j.d.zFmt) =
          floatBytes j.d.zFmt (vecElem v c j r k)) ∧
      ∀ e o, o < csSize → ¬(e = c.val ∧ ∃ r, r < j.d.rows ∧ j.d.zBase + r * j.d.zLd ≤ o ∧
          o < j.d.zBase + r * j.d.zLd + floatSize j.d.zFmt * j.d.cols) → csByte x e o = csByte u e o := by
  have hp := vecChecks_passed hj
  have hwf : StoreWf v := by rw [hv, hb]; exact vecTouch_storeWf hsnd hiss _ _ _ _
  have hcs : v.st.cs = u.st.cs := by
    rw [hv, hb]
    exact (vecTouch_ctrAdd_within a u _ _ _).storeBytes.resolve_left (by decide)
  have hrun : ∃ x z, exec i s = .next x ∧
      vecOutputs j = vecRegions j.d.zFmt j.d.zBase j.d.zLd j.d.zSbase j.d.zSld j.d.rows j.d.cols ∧ z.st = v.st ∧
      x = each (List.range j.d.rows) (fun z r => writeRow c j.d r (outRow v c j r) z) z := by
    simp only [List.mem_cons, Prod.mk.injEq, List.not_mem_nil, or_false] at hi
    have hc : a.c = c.val := by rw [ha]
    obtain ⟨rfl, rfl⟩ | ⟨rfl, rfl⟩ | ⟨rfl, rfl⟩ := hi
    · obtain ⟨z, hz, hx⟩ := vewRun_rows hv hp.opc
      exact ⟨_, z, exec_vecIssue hiss hj rfl, by simp [vecOutputs, hp.opc], hz, by rw [← ha, ← hb, hx, hc]⟩
    · obtain ⟨z, hz, hx⟩ := vcvtRun_rows hv hp.opc
      exact ⟨_, z, exec_vecIssue hiss hj rfl, by simp [vecOutputs, hp.opc], hz, by rw [← ha, ← hb, hx, hc]⟩
    · obtain ⟨z, hz, hx⟩ := vsfRun_rows hv hp.opc
      exact ⟨_, z, exec_vecIssue hiss hj rfl, by simp [vecOutputs, hp.opc], hz, by rw [← ha, ← hb, hx, hc]⟩
  obtain ⟨x, z, hexec, hout, hst, rfl⟩ := hrun
  obtain ⟨helem, hframe⟩ := writeRows_float (c := c) hz (outRow_length v c j) hapart
    (hp.output_in (by rw [hout]; exact .head _)) (hwf.of_st hst)
  refine ⟨_, hexec, fun r k hr hk => ?_, fun e o ho hout => ?_⟩
  · rw [helem r k Fv.poison hr hk, outRow_getD hk]
  · rw [hframe.outside (hwf.of_st hst) e o ho, csByte_congr (congrArg StoreSt.cs hst), csByte_congr hcs]
    rintro ⟨he, r, hr, hlo, hhi⟩
    exact hout ⟨he, r, List.mem_range.mp hr, hlo, hhi⟩

end

end Sys2Proof.Machine
end

section
/-! The records of VSTAT and the rows of VARGMAX (06 R113-R115, 08 R158). Free values of moments and of a row without columns
are log entry 3. -/

namespace Sys2Proof.Machine

/-! ### Records of moments (R113) -/

theorem statRecord_length (eps : BitVec 32) (a1 a2 : Int) (p q : LaElem) (n : Nat) (f : Nat → BitVec 32) :
    (statRecord eps a1 a2 p q n f).1.length = 16 := by
  unfold statRecord
  dsimp only
  split
  · simp only [List.length_append, leBytes_length]
  · simp only [List.length_append, leBytes_length]

/-- With elements to count, no free value is in a record. -/
theorem statRecord_counted {n : Nat} (hn : n ≠ 0) (eps : BitVec 32) (a1 a2 : Int) (p q : LaElem) (f g : Nat → BitVec 32) :
    (statRecord eps a1 a2 p q n f).1 = (statRecord eps a1 a2 p q n g).1 := by
  unfold statRecord
  rw [if_neg hn, if_neg hn]

/-- The record of a row in MODE 0. -/
def momentRecord (d : VecDesc) (xs : List Val) (f : Nat → BitVec 32) : List Byte :=
  let e := statExp xs + (clog2 d.cols : Nat) - 95
  let q := statSums e (statExp xs + e) xs
  (statRecord d.eps e (statExp xs + e) q.1 q.2 d.cols f).1

/-- The record of a row in MODE 1 (R115). -/
def partialRecord (d : VecDesc) (xs : List Val) : List Byte :=
  let q := statOver d.emax xs (statSums (d.emax - 75) (2 * d.emax - 75) xs)
  laBytes q.1 ++ laBytes q.2 ++ leBytes 4 d.cols ++ leBytes 12 (field 8 d.emax)

theorem partialRecord_length (d : VecDesc) (xs : List Val) : (partialRecord d xs).length = 48 := by
  unfold partialRecord laBytes
  simp only [List.length_append, leBytes_length]

/-- The record of a row in MODE 2, from the partial sums that `v` holds. -/
def combinedRecord (v : State) (c : Nat) (d : VecDesc) (r : Nat) (f : Nat → BitVec 32) : List Byte :=
  let bs := csBytes v c (d.aux + 48 * r) 48
  let p := laOfBytes (bs.take 16)
  (statRecord d.eps (d.emax - 75) (2 * d.emax - 75) { p with poison := p.poison || csBadRange v c (d.aux + 48 * r) 48 }
    (laOfBytes ((bs.drop 16).take 16)) (fld bs 32 4) f).1

theorem momentRecord_length (d : VecDesc) (xs : List Val) (f : Nat → BitVec 32) : (momentRecord d xs f).length = 16 :=
  statRecord_length _ _ _ _ _ _ _

theorem momentRecord_counted {d : VecDesc} (h : d.cols ≠ 0) (xs : List Val) (f g : Nat → BitVec 32) :
    momentRecord d xs f = momentRecord d xs g :=
  statRecord_counted h _ _ _ _ _ _ _

theorem combinedRecord_length (v : State) (c : Nat) (d : VecDesc) (r : Nat) (f : Nat → BitVec 32) :
    (combinedRecord v c d r f).length = 16 :=
  statRecord_length _ _ _ _ _ _ _

theorem combinedRecord_counted {v : State} {c : Nat} {d : VecDesc} {r : Nat}
    (h : fld (csBytes v c (d.aux + 48 * r) 48) 32 4 ≠ 0) (f g : Nat → BitVec 32) :
    combinedRecord v c d r f = combinedRecord v c d r g :=
  statRecord_counted h _ _ _ _ _ _ _

section
variable {a : VecAt} {j : VecJob} {b v : State}

theorem vstatRun_moments (hv : v = vecTouch a b (rangesX j.d)) (hm : j.d.mode = 0) :
    ∃ (z : State) (f : Nat → Nat → BitVec 32), z.st = v.st ∧ vstatRun a j b = each (List.range j.d.rows) (fun z r =>
      csWrite z a.c (j.d.aux + 16 * r) (momentRecord j.d (vecVals v a.c j.d r) (f r))) z := by
  subst hv
  unfold vstatRun
  extract_lets d s1 rows s2 k recs len s3
  refine ⟨s3, freeBits s2, (raiseIf_st _ _ _ _ _ _).trans (vecEvents_st _ _ _ _), ?_⟩
  unfold recs rows
  rw [← List.map_prod_left_eq_zip, List.map_map, each_zip_range]
  refine each_congr (fun r _ z => ?_) s3
  have hm1 : ¬d.mode = 1 := by unfold d; omega
  simp only [Function.comp_apply, len, k, if_neg hm1, momentRecord]
  have ha2 (e n : Int) : 2 * e + n - 95 = e + (e + n - 95) := by omega
  rw [ha2]

theorem vstatRun_partials (hv : v = vecTouch a b (rangesX j.d)) (hm : j.d.mode = 1) : ∃ z, z.st = v.st ∧
    vstatRun a j b = each (List.range j.d.rows) (fun z r =>
      csWrite z a.c (j.d.aux + 48 * r) (partialRecord j.d (vecVals v a.c j.d r))) z := by
  subst hv
  unfold vstatRun
  extract_lets d s1 rows s2 k recs len s3
  refine ⟨s3, (raiseIf_st _ _ _ _ _ _).trans (vecEvents_st _ _ _ _), ?_⟩
  unfold recs rows
  rw [← List.map_prod_left_eq_zip, List.map_map, each_zip_range]
  refine each_congr (fun r _ z => ?_) s3
  have hm1 : d.mode = 1 := hm
  have ha (e : Int) : e + 20 - 95 = e - 75 := by omega
  simp only [Function.comp_apply, len, k, if_pos hm1, partialRecord, ha]
  rfl

theorem vstatCombineRun_records (hv : v = vecTouch a b ((List.range j.d.rows).map fun r => (j.d.aux + 48 * r, 48))) :
    ∃ (z : State) (f : Nat → Nat → BitVec 32), z.st = v.st ∧
      vstatCombineRun a j b = drewRows (each (List.range j.d.rows) (fun z r =>
        csWrite z a.c (j.d.zBase + 16 * r) (combinedRecord v a.c j.d r (f r))) z) j.d.rows := by
  subst hv
  unfold vstatCombineRun
  extract_lets d s1 recs s2 s3
  refine ⟨s3, freeBits s1, (raiseIf_st _ _ _ _ _ _).trans (raiseIf_st _ _ _ _ _ _), ?_⟩
  unfold recs
  rw [each_zip_range]
  have ha (e : Int) : e + 20 - 95 = e - 75 := by omega
  simp only [ha]
  rfl

end

theorem csBytes_drewRows (s : State) (n c o k : Nat) : csBytes (drewRows s n) c o k = csBytes s c o k := rfl

/-! ### Rows of VARGMAX (08 R158) -/

/-- The bytes of a row of Z: column and value of the greatest element, the codes of a poisoned row, or free values. -/
def argmaxBytes (s : State) (r : Nat) (xs : List Fv) : List Byte :=
  let out := if xs.any (·.v.isNone) then (0xFFFFFFFF, (0x7FC00000 : BitVec 32))
    else match argmax xs with
      | some b => (b.1, b.2.bits)
      | none => ((freeBits s r 4).toNat, freeBits s r 5)
  leBytes 4 out.1 ++ leBytes 4 out.2.toNat

theorem argmaxBytes_length (s : State) (r : Nat) (xs : List Fv) : (argmaxBytes s r xs).length = 8 := by
  unfold argmaxBytes
  rw [List.length_append, leBytes_length, leBytes_length]

theorem argmaxBytes_poison (s : State) (r : Nat) {xs : List Fv} (h : ∃ y ∈ xs, y.v = none) :
    argmaxBytes s r xs = leBytes 4 0xFFFFFFFF ++ leBytes 4 0x7FC00000 := by
  have hany : (xs.any fun y => y.v.isNone) = true := by simpa using h
  unfold argmaxBytes
  rw [if_pos hany]
  rfl

theorem argmaxBytes_greatest (s : State) (r : Nat) {xs : List Fv} (h : ∀ z ∈ xs, z.v ≠ none) {k : Nat} {y : Fv}
    (hk : argmax xs = some (k, y)) : argmaxBytes s r xs = leBytes 4 k ++ leBytes 4 y.bits.toNat := by
  have hany : ¬(xs.any fun y => y.v.isNone) = true := by simpa using h
  unfold argmaxBytes
  rw [if_neg hany, hk]

theorem vargmaxRun_rows {a : VecAt} {j : VecJob} {b v : State} (hv : v = vecTouch a b (rangesX j.d)) : ∃ z, z.st = v.st ∧
    vargmaxRun a j b = drewRows (each (List.range j.d.rows) (fun z r =>
      csWrite z a.c (j.d.zBase + j.d.zLd * r) (argmaxBytes z r ((rowX v a.c j.d r).map (·.1)))) z) j.d.rows := by
  subst hv
  unfold vargmaxRun
  extract_lets d s1 rows s2
  refine ⟨s2, vecEvents_st _ _ _ _, ?_⟩
  unfold rows
  rw [each_zip_range]
  rfl

/-! ### The records in the store -/

section
variable {c : Cluster} {w : BitVec 56} {s u : State} {t opc : Nat} {pc : Word64} {j : VecJob} {a : VecAt} {b v : State}
  (hsnd : Sound s) (hiss : issued s c 8 = some (t, pc, u)) (hj : vecChecks u c (thrAt u c t) opc w = .inr j)
  (ha : a = ⟨c, (thrAt u c t).seq, (thrAt u c t).item, thrAt u c t⟩) (hb : b = ctrAdd u (ctrCluster c 5) (vecCycles j))
include hsnd hiss hj ha hb

omit hj ha in
theorem touched_storeWf {l : List (Nat × Nat)} (hv : v = vecTouch a b l) : StoreWf v := by
  rw [hv, hb]
  exact vecTouch_storeWf hsnd hiss _ _ _ _

/-- VSTAT in MODE 0 (06 R113). -/
theorem moments_written (hop : opc = 0x54) (hm : j.d.mode = 0) (hv : v = vecTouch a b (rangesX j.d)) :
    ∃ x, exec (.vstat c w) s = .next x ∧ ∀ r, r < j.d.rows →
      csBytes x c (j.d.aux + 16 * r) 16 = momentRecord j.d (vecVals v c j.d r) fun _ => 0 := by
  subst hop
  have hp := vecChecks_passed hj
  have hcols : j.d.cols ≠ 0 := by
    have := hp.opOk
    simp only [vecOpBad, hp.opc, hm, Bool.or_eq_false_iff] at this
    intro h0
    simp [h0] at this
  obtain ⟨z, f, hz, hrun⟩ := vstatRun_moments hv hm
  refine ⟨_, exec_vecIssue hiss hj (exec_vstat hiss hj hm), fun r hr => ?_⟩
  obtain ⟨z', hrec⟩ := csBytes_each_records (c := c) (p := fun r => j.d.aux + 16 * r) (ld := 16)
    (g := fun _ r => momentRecord j.d (vecVals v c j.d r) (f r)) (fun r => by rw [Nat.mul_comm])
    (fun _ _ => momentRecord_length _ _ _) (.inl (le_refl _)) (hp.output_in (by simp [vecOutputs, hp.opc, hm]))
    ((touched_storeWf hsnd hiss hb hv).of_st hz) hr
  rw [← hb, ← ha, hrun, ha]
  exact hrec.trans (momentRecord_counted hcols _ _ _)

/-- VSTAT in MODE 1 (06 R115). -/
theorem partials_written (hop : opc = 0x54) (hm : j.d.mode = 1) (hv : v = vecTouch a b (rangesX j.d)) :
    ∃ x, exec (.vstatPartial c w) s = .next x ∧ ∀ r, r < j.d.rows →
      csBytes x c (j.d.aux + 48 * r) 48 = partialRecord j.d (vecVals v c j.d r) := by
  subst hop
  have hp := vecChecks_passed hj
  obtain ⟨z, hz, hrun⟩ := vstatRun_partials hv hm
  refine ⟨_, exec_vecIssue hiss hj (exec_vstatPartial hiss hj hm), fun r hr => ?_⟩
  obtain ⟨_, hrec⟩ := csBytes_each_records (c := c) (p := fun r => j.d.aux + 48 * r) (ld := 48)
    (g := fun _ r => partialRecord j.d (vecVals v c j.d r)) (fun r => by rw [Nat.mul_comm])
    (fun _ _ => partialRecord_length _ _) (.inl (le_refl _)) (hp.output_in (by simp [vecOutputs, hp.opc, hm]))
    ((touched_storeWf hsnd hiss hb hv).of_st hz) hr
  rw [← hb, ← ha, hrun, ha]
  exact hrec

/-- VSTAT in MODE 2 (06 R115). -/
theorem combined_written (hop : opc = 0x54) (hm : j.d.mode = 2)
    (hv : v = vecTouch a b ((List.range j.d.rows).map fun r => (j.d.aux + 48 * r, 48))) :
    ∃ x, exec (.vstatCombine c w) s = .next x ∧ ∀ r, r < j.d.rows →
      fld (csBytes v c (j.d.aux + 48 * r) 48) 32 4 ≠ 0 →
      csBytes x c (j.d.zBase + 16 * r) 16 = combinedRecord v c j.d r fun _ => 0 := by
  subst hop
  have hp := vecChecks_passed hj
  obtain ⟨z, f, hz, hrun⟩ := vstatCombineRun_records hv
  refine ⟨_, exec_vecIssue hiss hj (exec_vstatCombine hiss hj hm), fun r hr hn => ?_⟩
  obtain ⟨_, hrec⟩ := csBytes_each_records (c := c) (p := fun r => j.d.zBase + 16 * r) (ld := 16)
    (g := fun _ r => combinedRecord v c j.d r (f r)) (fun r => by rw [Nat.mul_comm])
    (fun _ _ => combinedRecord_length _ _ _ _ _) (.inl (le_refl _)) (hp.output_in (by simp [vecOutputs, hp.opc, hm]))
    ((touched_storeWf hsnd hiss hb hv).of_st hz) hr
  rw [← hb, ← ha, hrun, csBytes_drewRows, ha]
  exact hrec.trans (combinedRecord_counted hn _ _)

/-- VARGMAX (08 R158): row r holds the bytes of its greatest element, drawn in some state where they are free. -/
theorem greatest_written (hop : opc = 0x56) (hapart : 8 ≤ j.d.zLd ∨ j.d.rows ≤ 1) (hv : v = vecTouch a b (rangesX j.d)) :
    ∃ x, exec (.vargmax c w) s = .next x ∧ ∀ r, r < j.d.rows →
      ∃ z, csBytes x c (j.d.zBase + j.d.zLd * r) 8 = argmaxBytes z r ((rowX v c j.d r).map (·.1)) := by
  subst hop
  have hp := vecChecks_passed hj
  obtain ⟨z, hz, hrun⟩ := vargmaxRun_rows hv
  refine ⟨_, exec_vecIssue hiss hj rfl, fun r hr => ?_⟩
  obtain ⟨z', hrec⟩ := csBytes_each_records (c := c) (p := fun r => j.d.zBase + j.d.zLd * r) (ld := j.d.zLd)
    (g := fun z r => argmaxBytes z r ((rowX v c j.d r).map (·.1))) (fun r => by rw [Nat.mul_comm])
    (fun _ _ => argmaxBytes_length _ _ _) hapart (hp.output_in (by simp [vecOutputs, hp.opc]))
    ((touched_storeWf hsnd hiss hb hv).of_st hz) hr
  refine ⟨z', ?_⟩
  rw [← hb, ← ha, hrun, csBytes_drewRows, ha]
  exact hrec

end

end Sys2Proof.Machine
end

section
/-! VSOFT: the records of sums and the rows of probabilities (06 R116, R117). The logarithm of a sum that is zero is a free
value (log entry 3). -/

namespace Sys2Proof.Machine

/-! ### One row in MODE 0, 1 and 129 -/

/-- The exponentials of a row. -/
def softUs (xs : List Val) : List Val := xs.map fun y => softU (clampLogit y).1

theorem softUs_length (xs : List Val) : (softUs xs).length = xs.length := List.length_map _

/-- Their sum. -/
def softTotal (xs : List Val) : Val := wxTree (clog2 (softUs xs).length) (softUs xs)

theorem softRecord_length (lse sum : Val) (n flags : Nat) : (softRecord lse sum n flags).length = 16 := by
  unfold softRecord
  simp only [List.length_append, leBytes_length]

theorem ite_eq_mul_toNat (p : Bool) (n : Nat) : (if p = true then n else 0) = n * p.toNat := by
  cases p
  · rfl
  · exact (Nat.mul_one n).symm

/-- FLAGS as the sum of its three bits, of a row whose record before it is not poisoned. -/
theorem bits_eq_softFlags (xs : List Val) (count old : Nat) :
    (if ((xs.map clampLogit).any (·.2) || bitOn old 0) = true then 2 ^ 0 else 0) +
      (if (decide (2 ^ 27 < count) || bitOn old 1) = true then 2 ^ 1 else 0) +
      (if ((xs.any (·.isNone) || false) || bitOn old 2) = true then 2 ^ 2 else 0) = softFlags xs count old := by
  simp only [ite_eq_mul_toNat, List.any_map, Bool.or_false]
  unfold softFlags
  rw [Nat.pow_zero, Nat.one_mul]
  rfl

/-- What a row's turn records in a state: where it starts anew, and where it adds to a record that is not poisoned. -/
structure SoftRecorded (d : VecDesc) (s : State) (c row : Nat) (xs : List Val) (sum : Val) (count flags : Nat) : Prop where
  new : d.mode < 128 → sum = softTotal xs ∧ count = xs.length ∧ flags = softFlags xs xs.length 0
  added : ∀ old, 128 ≤ d.mode → old = csBytes s c (d.aux + 16 * row) 16 → csBadRange s c (d.aux + 16 * row) 16 = false →
    sum = wxAdd (softTotal xs) (ofWx32 (BitVec.ofNat 32 (fld old 4 4))) ∧ count = xs.length + fld old 8 4 ∧
      flags = softFlags xs (xs.length + fld old 8 4) (fld old 12 4)

/-- A row's turn writes its record, and in MODE 0 then its row of Z. -/
theorem softRow_eq (a : VecAt) (d : VecDesc) (s : State) (row : Nat) (xs : List Val) :
    ∃ (z : State) (sum : Val) (count flags : Nat), z.st = s.st ∧
      (∀ t, t = csWrite z a.c (d.aux + 16 * row) (softRecord (softLse s row sum) sum (count % 2 ^ 32) flags) →
        softRow a d s row xs = if d.mode = 0 then
          writeRow a.c d row ((softUs xs).map fun u => softP d.zFmt u (softTotal xs)) t else t) ∧
      SoftRecorded d s a.c row xs sum count flags := by
  unfold softRow
  extract_lets cl us sum0 acc old oldBad sum count ovf oldFlags bit flags s1 s2
  have hus : us = softUs xs := List.map_map
  have hsum0 : sum0 = softTotal xs := by rw [softTotal, softUs_length, ← hus]
  have hnew (h : d.mode < 128) : acc = false ∧ oldBad = false ∧ sum = softTotal xs := by
    have hacc : acc = false := decide_eq_false (by omega)
    refine ⟨hacc, ?_, ?_⟩
    · unfold oldBad
      rw [hacc, Bool.false_and]
    · unfold sum
      rw [hacc, if_neg (by decide), hsum0]
  refine ⟨s1, sum, count, flags, raiseIf_st _ _ _ _ _ _, fun t ht => ?_, fun h => ?_,
    fun old' h hold hbad => ?_⟩
  · obtain rfl : t = s2 := ht
    by_cases hm : d.mode = 0
    · rw [if_pos hm, if_pos hm, ← hus, ← (hnew (by omega)).2.2]
    · rw [if_neg hm, if_neg hm]
  · obtain ⟨hacc, hbad, hsum⟩ := hnew h
    have hcount : count = xs.length := by
      unfold count
      rw [hacc, if_neg (by decide), Nat.add_zero]
    have hold : oldFlags = 0 := by
      unfold oldFlags
      rw [hacc, if_neg (by decide)]
    refine ⟨hsum, hcount, ?_⟩
    unfold flags bit ovf
    rw [hbad, hcount, hold]
    exact bits_eq_softFlags xs _ _
  · have hacc : acc = true := decide_eq_true h
    have hbad' : oldBad = false := by
      unfold oldBad
      rw [hacc, hbad, Bool.true_and]
    have hcount : count = xs.length + fld old' 8 4 := by
      unfold count old
      rw [hacc, if_pos rfl, hold]
    have holdF : oldFlags = fld old' 12 4 := by
      unfold oldFlags old
      rw [hacc, if_pos rfl, hold]
    refine ⟨?_, hcount, ?_⟩
    · unfold sum old
      rw [hacc, hbad', if_pos rfl, if_neg (by decide), hsum0, hold]
    · unfold flags bit ovf
      rw [hbad', hcount, holdF]
      exact bits_eq_softFlags xs _ _

/-! ### The loop over the rows -/

/-- The records of a VSOFT lie in the store; in MODE 0 the rows of Z are floats, lie in the store apart from each other, and
apart from the records. -/
structure SoftRoom (d : VecDesc) : Prop where
  records : regionIn (region d.aux 16 d.rows 16) = true
  floats : d.mode = 0 → 5 ≤ d.zFmt
  rows : d.mode = 0 → regionIn (region d.zBase d.zLd d.rows (floatSize d.zFmt * d.cols)) = true
  apart : d.mode = 0 → floatSize d.zFmt * d.cols ≤ d.zLd ∨ d.rows ≤ 1
  meet : d.mode = 0 →
    regionsMeet (region d.zBase d.zLd d.rows (floatSize d.zFmt * d.cols)) (region d.aux 16 d.rows 16) = false

/-- Where the turn of a row writes its probabilities. -/
def probSpan (d : VecDesc) (r : Nat) : Set Nat := {o | d.mode = 0 ∧ o ∈ rowSpan d.zBase d.zLd (floatSize d.zFmt * d.cols) r}

theorem SoftRoom.disjoint {d : VecDesc} (h : SoftRoom d) {r q : Nat} (hr : r < d.rows) (hq : q < d.rows) (hne : r ≠ q) :
    Disjoint (rowSpan d.aux 16 16 r ∪ probSpan d r) (rowSpan d.aux 16 16 q ∪ probSpan d q) := by
  rw [Set.disjoint_union_left, Set.disjoint_union_right, Set.disjoint_union_right]
  refine ⟨⟨rowSpan_disjoint _ (.inl (le_refl _)) hr hq hne, Set.disjoint_left.mpr ?_⟩, Set.disjoint_left.mpr ?_,
    Set.disjoint_left.mpr ?_⟩
  · rintro o ho ⟨hm, ho'⟩
    exact Set.disjoint_left.mp (rowSpan_disjoint_of_regions (h.meet hm) hq hr) ho' ho
  · rintro o ⟨hm, ho⟩ ho'
    exact Set.disjoint_left.mp (rowSpan_disjoint_of_regions (h.meet hm) hr hq) ho ho'
  · rintro o ⟨hm, ho⟩ ⟨-, ho'⟩
    exact Set.disjoint_left.mp (rowSpan_disjoint d.zBase (h.apart hm) hr hq hne) ho ho'

section
variable {a : VecAt} {d : VecDesc} (hroom : SoftRoom d) {r : Nat} (hr : r < d.rows) {xs : List Val} (hxs : xs.length = d.cols)
include hroom hr hxs

theorem softRow_writesIn (s : State) : WritesIn a.c (rowSpan d.aux 16 16 r ∪ probSpan d r) s (softRow a d s r xs) := by
  obtain ⟨z, sum, count, flags, hz, hrow, -⟩ := softRow_eq a d s r xs
  have hrec := (WritesIn.of_st hz).trans (.record hroom.records hr (p := d.aux + 16 * r) (c := a.c) (by rw [Nat.mul_comm])
    (softRecord_length (softLse s r sum) sum (count % 2 ^ 32) flags) z)
  rw [hrow _ rfl]
  by_cases hm : d.mode = 0
  · rw [if_pos hm, writeRow_float (hroom.floats hm)]
    refine (hrec.mono Set.subset_union_left).trans (WritesIn.mono (.record (hroom.rows hm) hr rfl
      (floatRow_length (by rw [List.length_map, softUs_length, hxs])) _) fun o ho => .inr ⟨hm, ho⟩)
  · rw [if_neg hm]
    exact hrec.mono Set.subset_union_left

/-- What a row's turn leaves: its record, and in MODE 0 its row of Z. -/
theorem softRow_bytes {s : State} (hwf : StoreWf s) : ∃ (sum : Val) (count flags : Nat),
    csBytes (softRow a d s r xs) a.c (d.aux + 16 * r) 16 = softRecord (softLse s r sum) sum (count % 2 ^ 32) flags ∧
      (d.mode = 0 → csBytes (softRow a d s r xs) a.c (d.zBase + r * d.zLd) (floatSize d.zFmt * d.cols) =
        ((softUs xs).map fun u => softP d.zFmt u (softTotal xs)).flatMap (floatBytes d.zFmt)) ∧
      SoftRecorded d s a.c r xs sum count flags := by
  obtain ⟨z, sum, count, flags, hz, hrow, hsaid⟩ := softRow_eq a d s r xs
  refine ⟨sum, count, flags, ?_, fun hm => ?_, hsaid⟩
  · have hrec := csBytes_csWrite_same (hwf.of_st hz) a.c (d.aux + 16 * r)
      (softRecord_length (softLse s r sum) sum (count % 2 ^ 32) flags)
    rw [hrow _ rfl]
    by_cases hm : d.mode = 0
    · have hlen : (((softUs xs).map fun u => softP d.zFmt u (softTotal xs)).flatMap (floatBytes d.zFmt)).length =
          floatSize d.zFmt * d.cols := floatRow_length (by rw [List.length_map, softUs_length, hxs])
      rw [if_pos hm, writeRow_float (hroom.floats hm),
        (WritesIn.record (hroom.rows hm) hr rfl hlen _).csBytes_eq (csWrite_wf (hwf.of_st hz) _ _ _), hrec]
      · rw [Nat.mul_comm]
        exact rowSpan_le hroom.records hr (by decide)
      · rw [Nat.mul_comm 16]
        exact rowSpan_disjoint_of_regions (hroom.meet hm) hr hr
    · rw [if_neg hm, hrec]
  · rw [hrow _ rfl, if_pos hm, writeRow_float (hroom.floats hm)]
    exact csBytes_csWrite_same (csWrite_wf (hwf.of_st hz) _ _ _) _ _
      (floatRow_length (by rw [List.length_map, softUs_length, hxs]))

end

/-- The ranges that VSOFT reads in MODE 0, 1 and 129. -/
def softReads (d : VecDesc) : List (Nat × Nat) :=
  rangesX d ++ (if 128 ≤ d.mode then (List.range d.rows).map fun r => (d.aux + 16 * r, 16) else [])

theorem softReads_new {d : VecDesc} (h : d.mode < 128) : softReads d = rangesX d := by
  rw [softReads, if_neg (Nat.not_le_of_lt h), List.append_nil]

theorem softReads_added {d : VecDesc} (h : 128 ≤ d.mode) :
    softReads d = rangesX d ++ (List.range d.rows).map fun r => (d.aux + 16 * r, 16) := by
  rw [softReads, if_pos h]

theorem vsoftRun_rows {a : VecAt} {j : VecJob} {b v : State} (hv : v = vecTouch a b (softReads j.d)) :
    ∃ z, z.st = v.st ∧ vsoftRun a j b = drewRows
      (each (List.range j.d.rows) (fun z r => softRow a j.d z r (vecVals v a.c j.d r)) z) j.d.rows := by
  subst hv
  unfold vsoftRun
  extract_lets d s1 rows s2 s3
  refine ⟨s3, (raiseIf_st _ _ _ _ _ _).trans (vecEvents_st _ _ _ _), ?_⟩
  unfold rows
  rw [each_zip_range]
  rfl

/-- Row r of a VSOFT in MODE 0, 1 or 129, of the operands and records that `v` holds. -/
theorem vsoftRun_bytes {a : VecAt} {j : VecJob} {b v : State} (hv : v = vecTouch a b (softReads j.d))
    (hwf : StoreWf v) (hroom : SoftRoom j.d) {r : Nat} (hr : r < j.d.rows) {xs : List Val} (hxs : xs = vecVals v a.c j.d r) :
    ∃ (z : State) (sum : Val) (count flags : Nat),
      csBytes (vsoftRun a j b) a.c (j.d.aux + 16 * r) 16 = softRecord (softLse z r sum) sum (count % 2 ^ 32) flags ∧
      (j.d.mode = 0 → csBytes (vsoftRun a j b) a.c (j.d.zBase + r * j.d.zLd) (floatSize j.d.zFmt * j.d.cols) =
        ((softUs xs).map fun u => softP j.d.zFmt u (softTotal xs)).flatMap (floatBytes j.d.zFmt)) ∧
      SoftRecorded j.d v a.c r xs sum count flags := by
  obtain ⟨z₀, hz₀, hrun⟩ := vsoftRun_rows hv
  have hlen (q : Nat) : (vecVals v a.c j.d q).length = j.d.cols := (List.length_map _).trans (rowX_length _ _ _ _)
  have hwf₀ := hwf.of_st hz₀
  obtain ⟨z, hz, hat⟩ := each_at (fun q hq z => softRow_writesIn hroom (List.mem_range.mp hq) (hlen q) z) List.nodup_range
    (fun q hq p hp => hroom.disjoint (List.mem_range.mp hq) (List.mem_range.mp hp)) hwf₀ (List.mem_range.mpr hr)
  obtain ⟨sum, count, flags, hrec, hrow, hsaid⟩ := softRow_bytes (a := a) hroom hr (hlen r) (hz.wf hwf₀)
  have hin : j.d.aux + 16 * r + 16 ≤ csSize := by
    rw [Nat.mul_comm]
    exact rowSpan_le hroom.records hr (by decide)
  have hspan : Set.Ico (j.d.aux + 16 * r) (j.d.aux + 16 * r + 16) ⊆ rowSpan j.d.aux 16 16 r ∪ probSpan j.d r := by
    rw [Nat.mul_comm]
    exact Set.subset_union_left
  subst hxs
  refine ⟨z, sum, count, flags, ?_, fun hm => ?_, hsaid.new, fun old h hold hbad => hsaid.added old h ?_ ?_⟩
  · rw [hrun, csBytes_drewRows, hat _ _ hin hspan, hrec]
  · rcases Nat.eq_zero_or_pos (floatSize j.d.zFmt * j.d.cols) with h0 | hpos
    · rw [← hrow hm, h0]
      rfl
    · rw [hrun, csBytes_drewRows, hat _ _ (rowSpan_le (hroom.rows hm) hr hpos) fun o ho => .inr ⟨hm, ho⟩, hrow hm]
  · rw [hold, hz.csBytes_eq hwf₀ hin]
    · exact csBytes_congr fun o _ => csByte_congr (congrArg StoreSt.cs hz₀.symm) _ _
    · rw [Set.disjoint_left]
      rintro o ⟨q, hq, hne, ho⟩ ho'
      exact Set.disjoint_left.mp (hroom.disjoint (List.mem_range.mp hq) hr hne) ho (hspan ho')
  · exact hz.csBadRange ((WritesIn.of_st (c := a.c) (R := ∅) hz₀).csBadRange hbad)

/-! ### Past the checks -/

theorem softLse_of_ne {sum : Val} (h : ∀ y, sum = some y → y.n ≠ 0) (s v : State) (r : Nat) :
    softLse s r sum = softLse v r sum := by
  cases sum with
  | none => rfl
  | some y =>
    have hy := h y rfl
    unfold softLse
    dsimp only
    rw [if_neg hy, if_neg hy]

theorem vecLen_float {f : Nat} (h : isFloat f = true) (n : Nat) : vecLen f n = floatSize f * n := by
  simp only [isFloat, Bool.or_eq_true, beq_iff_eq] at h
  rcases h with rfl | rfl <;> rfl

section
variable {c : Cluster} {w : BitVec 56} {s u : State} {t opc : Nat} {pc : Word64} {j : VecJob} {a : VecAt} {b v : State}
  (hsnd : Sound s) (hiss : issued s c 8 = some (t, pc, u)) (hj : vecChecks u c (thrAt u c t) opc w = .inr j)
  (ha : a = ⟨c, (thrAt u c t).seq, (thrAt u c t).item, thrAt u c t⟩) (hb : b = ctrAdd u (ctrCluster c 5) (vecCycles j))

section
include hj

theorem softRoom_mode0 (hop : opc = 0x55) (hm : j.d.mode = 0) (hapart : RowsApart j) : SoftRoom j.d := by
  subst hop
  have hp := vecChecks_passed hj
  have hfloat : isFloat j.d.zFmt = true := by
    have := hp.opOk
    simp only [vecOpBad, hp.opc, VecJob.form, hm, Bool.or_eq_false_iff] at this
    simpa using this.1.2
  have hz : 5 ≤ j.d.zFmt := by
    simp only [isFloat, Bool.or_eq_true, beq_iff_eq] at hfloat
    omega
  have hout : vecOutputs j = [region j.d.zBase j.d.zLd j.d.rows (vecLen j.d.zFmt j.d.cols),
      region j.d.aux 16 j.d.rows 16] := by
    have hz' : ¬j.d.zFmt ≤ 4 := by omega
    simp [vecOutputs, hp.opc, VecJob.form, hm, vecRegions, hz']
  obtain ⟨hrows, -, hmeet⟩ := hapart
  rw [vecLen_float hfloat] at hout hrows
  rw [hout] at hmeet
  exact ⟨hp.output_in (by simp [hout]), fun _ => hz, fun _ => hp.output_in (by simp [hout]), fun _ => hrows,
    fun _ => by simpa using hmeet⟩

theorem softRoom_sums (hop : opc = 0x55) (hm : j.d.mode = 1 ∨ j.d.mode = 129) : SoftRoom j.d := by
  subst hop
  have hp := vecChecks_passed hj
  have hform : j.form = 1 := by
    rcases hm with hm | hm <;> rw [VecJob.form, hm]
  have hne : j.d.mode ≠ 0 := by omega
  exact ⟨hp.output_in (by simp [vecOutputs, hp.opc, hform]), fun h => absurd h hne, fun h => absurd h hne,
    fun h => absurd h hne, fun h => absurd h hne⟩

end

include hsnd hiss hj ha hb

/-- VSOFT in MODE 0 (06 R116). -/
theorem softmax_written (hop : opc = 0x55) (hm : j.d.mode = 0) (hapart : RowsApart j) (hv : v = vecTouch a b (rangesX j.d)) :
    ∃ x, exec (.vsoft c w) s = .next x ∧ ∀ r xs, r < j.d.rows → xs = vecVals v c j.d r →
      ((∀ y, softTotal xs = some y → y.n ≠ 0) → csBytes x c (j.d.aux + 16 * r) 16 =
        softRecord (softLse v r (softTotal xs)) (softTotal xs) ((softUs xs).length % 2 ^ 32)
          (softFlags xs (softUs xs).length 0)) ∧
      ∀ k, k < j.d.cols → csBytes x c (j.d.zBase + r * j.d.zLd + floatSize j.d.zFmt * k) (floatSize j.d.zFmt) =
        floatBytes j.d.zFmt (softP j.d.zFmt ((softUs xs).getD k none) (softTotal xs)) := by
  have hroom := softRoom_mode0 hj hop hm hapart
  subst hop
  have hac : a.c = c.val := by rw [ha]
  have hv' : v = vecTouch a b (softReads j.d) := by rw [softReads_new (by omega), hv]
  refine ⟨_, exec_vecIssue hiss hj (exec_vsoft hiss hj hm), fun r xs hr hxs => ?_⟩
  obtain ⟨z, sum, count, flags, hrec, hrow, hsaid⟩ :=
    vsoftRun_bytes hv' (touched_storeWf hsnd hiss hb hv) hroom hr (hac ▸ hxs)
  obtain ⟨rfl, rfl, rfl⟩ := hsaid.new (by omega)
  rw [hac] at hrec hrow
  rw [← hb, ← ha]
  refine ⟨fun hne => by rw [hrec, softLse_of_ne hne z v, softUs_length], fun k hk => ?_⟩
  have hlen : xs.length = j.d.cols := by rw [hxs, List.length_map, rowX_length]
  rw [csBytes_floatElem (softP j.d.zFmt none (softTotal xs)) (hrow hm) (by rw [List.length_map, softUs_length, hlen]) hk,
    List.getD_map]

/-- VSOFT in MODE 1 (06 R117). -/
theorem sums_written (hop : opc = 0x55) (hm : j.d.mode = 1) (hv : v = vecTouch a b (rangesX j.d)) :
    ∃ x, exec (.vsoftSum c w) s = .next x ∧ ∀ r xs, r < j.d.rows → xs = vecVals v c j.d r →
      (∀ y, softTotal xs = some y → y.n ≠ 0) → csBytes x c (j.d.aux + 16 * r) 16 =
        softRecord (softLse v r (softTotal xs)) (softTotal xs) ((softUs xs).length % 2 ^ 32)
          (softFlags xs (softUs xs).length 0) := by
  have hroom := softRoom_sums hj hop (.inl hm)
  subst hop
  have hac : a.c = c.val := by rw [ha]
  have hv' : v = vecTouch a b (softReads j.d) := by rw [softReads_new (by omega), hv]
  refine ⟨_, exec_vecIssue hiss hj (exec_vsoftSum hiss hj (.inl hm)), fun r xs hr hxs hne => ?_⟩
  obtain ⟨z, sum, count, flags, hrec, -, hsaid⟩ :=
    vsoftRun_bytes hv' (touched_storeWf hsnd hiss hb hv) hroom hr (hac ▸ hxs)
  obtain ⟨rfl, rfl, rfl⟩ := hsaid.new (by omega)
  rw [hac] at hrec
  rw [← hb, ← ha, hrec, softLse_of_ne hne z v, softUs_length]

/-- VSOFT in MODE 1 with MODE[7] set (06 R117). -/
theorem added_sums_written (hop : opc = 0x55) (hm : j.d.mode = 129)
    (hv : v = vecTouch a b (rangesX j.d ++ (List.range j.d.rows).map fun r => (j.d.aux + 16 * r, 16))) :
    ∃ x, exec (.vsoftSum c w) s = .next x ∧ ∀ r xs old sum, r < j.d.rows → xs = vecVals v c j.d r →
      old = csBytes v c (j.d.aux + 16 * r) 16 → csBadRange v c (j.d.aux + 16 * r) 16 = false →
      sum = wxAdd (softTotal xs) (ofWx32 (BitVec.ofNat 32 (fld old 4 4))) → (∀ y, sum = some y → y.n ≠ 0) →
      csBytes x c (j.d.aux + 16 * r) 16 = softRecord (softLse v r sum) sum (((softUs xs).length + fld old 8 4) % 2 ^ 32)
        (softFlags xs ((softUs xs).length + fld old 8 4) (fld old 12 4)) := by
  have hroom := softRoom_sums hj hop (.inr hm)
  subst hop
  have hac : a.c = c.val := by rw [ha]
  have hv' : v = vecTouch a b (softReads j.d) := by rw [softReads_added (by omega), hv]
  refine ⟨_, exec_vecIssue hiss hj (exec_vsoftSum hiss hj (.inr hm)), fun r xs old sum hr hxs hold hbad hsum hne => ?_⟩
  obtain ⟨z, sum', count, flags, hrec, -, hsaid⟩ :=
    vsoftRun_bytes hv' (touched_storeWf hsnd hiss hb hv) hroom hr (hac ▸ hxs)
  rw [hac] at hrec hsaid
  obtain ⟨rfl, rfl, rfl⟩ := hsaid.added old (by omega) hold hbad
  rw [← hb, ← ha, hrec, hsum, softLse_of_ne (hsum ▸ hne) z v, softUs_length]

omit hsnd hiss hj ha hb in
theorem vsoftProbRun_rows (hv : v = vecTouch a b (rangesX j.d ++ (List.range j.d.rows).map fun r => (j.d.aux + 16 * r, 16))) :
    ∃ z, z.st = v.st ∧ vsoftProbRun a j b = each (List.range j.d.rows) (fun z r => writeRow a.c j.d r
      ((vecVals v a.c j.d r).map fun y =>
        Fv.of (softU (clampLogit (Val.map2 Dy.sub y (floatAt v a.c 6 (j.d.aux + 16 * r)).v)).1)) z) z := by
  subst hv
  unfold vsoftProbRun
  extract_lets d s1 rows s2 s3
  refine ⟨s3, (raiseIf_st _ _ _ _ _ _).trans (vecEvents_st _ _ _ _), ?_⟩
  unfold rows
  rw [each_zip_range]
  simp only [List.map_map]
  rfl

/-- VSOFT in MODE 2 into floats (06 R117). -/
theorem probabilities_written (hop : opc = 0x55) (hm : j.d.mode = 2) (hz : 5 ≤ j.d.zFmt)
    (hapart : vecLen j.d.zFmt j.d.cols ≤ j.d.zLd ∨ j.d.rows ≤ 1)
    (hv : v = vecTouch a b (rangesX j.d ++ (List.range j.d.rows).map fun r => (j.d.aux + 16 * r, 16))) :
    ∃ x, exec (.vsoftProb c w) s = .next x ∧ ∀ r k, r < j.d.rows → k < j.d.cols →
      csBytes x c (j.d.zBase + r * j.d.zLd + floatSize j.d.zFmt * k) (floatSize j.d.zFmt) = floatBytes j.d.zFmt (Fv.of (softU
        (clampLogit (Val.map2 Dy.sub ((vecVals v c j.d r).getD k none) (floatAt v c 6 (j.d.aux + 16 * r)).v)).1)) := by
  subst hop
  have hp := vecChecks_passed hj
  have hac : a.c = c.val := by rw [ha]
  obtain ⟨z, hst, hrun⟩ := vsoftProbRun_rows hv
  have hin : regionIn (region j.d.zBase j.d.zLd j.d.rows (vecLen j.d.zFmt j.d.cols)) = true :=
    hp.output_in (by simp [vecOutputs, hp.opc, VecJob.form, hm, vecRegions])
  refine ⟨_, exec_vecIssue hiss hj (exec_vsoftProb hiss hj hm), fun r k hr hk => ?_⟩
  rw [← hb, ← ha, hrun, hac, (writeRows_float hz (fun r => by rw [List.length_map, List.length_map, rowX_length]) hapart hin
    ((touched_storeWf hsnd hiss hb hv).of_st hst)).1 r k _ hr hk, List.getD_map]

end

end Sys2Proof.Machine
end

section
/-! VQNT without gutter and feedback: the blocks of its result (06 R103, R105). -/

namespace Sys2Proof.Machine

/-! ### One block -/

/-- Block k of row r as it is quantised, with zeros beyond the row. -/
def quantBlock (v : State) (c : Nat) (d : VecDesc) (r k : Nat) : Block :=
  encBlock d.zFmt ((List.range 32).map fun i => if 32 * k + i < d.cols
    then (vecVals v c d r).getD (32 * k + i) (some Dy.zero) else some Dy.zero) (List.replicate 32 false)

/-- The codes of its elements, 0 beyond the row. -/
def quantCodes (v : State) (c : Nat) (d : VecDesc) (r k : Nat) : List Nat :=
  (List.range 32).map fun i => if 32 * k + i < d.cols then (quantBlock v c d r k).codes.getD i 0 else 0

theorem encBlock_codes_length (f : Nat) {xs : List Val} {l : List Bool} (h : l.length = xs.length) :
    (encBlock f xs l).codes.length = xs.length := by
  unfold encBlock
  dsimp only
  split
  · exact List.length_map _
  · simp only [List.length_map, List.length_zip, h, Nat.min_self]

theorem quantBlock_codes_length (v : State) (c : Nat) (d : VecDesc) (r k : Nat) : (quantBlock v c d r k).codes.length = 32 :=
  (encBlock_codes_length _ (by simp)).trans (by simp)

/-- Where the codes of a block are kept only inside the row. -/
theorem zip_inside_eq_quantCodes (v : State) (c : Nat) (d : VecDesc) (r k : Nat) :
    (((quantBlock v c d r k).codes.zip ((List.range 32).map fun i => decide (i < min 32 (d.cols - 32 * k)))).map fun e =>
      if e.2 = true then e.1 else 0) = quantCodes v c d r k := by
  have hlen := quantBlock_codes_length v c d r k
  refine List.ext_getElem (by simp [quantCodes, hlen]) fun i hi _ => ?_
  have hi32 : i < 32 := by
    simp only [List.length_map, List.length_zip, hlen, List.length_range] at hi
    omega
  have hin : i < min 32 (d.cols - 32 * k) ↔ 32 * k + i < d.cols := by omega
  simp only [quantCodes, List.getElem_map, List.getElem_zip, List.getElem_range, decide_eq_true_eq, hin]
  rw [List.getD_eq_getElem _ _ (by rw [hlen]; exact hi32)]

/-! ### The loop over the blocks -/

theorem cellOf_rows {rows : Nat} {f : Nat → List Val} {r : Nat} (hr : r < rows) (k : Nat) :
    cellOf ((List.range rows).map f) r k = (f r).getD k (some Dy.zero) := by
  unfold cellOf
  rw [List.getD_eq_getElem ((List.range rows).map f) _ (by simpa using hr), List.getElem_map, List.getElem_range]

/-- The blocks of Z, row by row. -/
def quantPlaces (d : VecDesc) : List (Nat × Nat) :=
  (List.range d.rows).flatMap fun r => (List.range (cdiv d.cols 32)).map fun k => (r, k)

theorem mem_quantPlaces {d : VecDesc} {x : Nat × Nat} : x ∈ quantPlaces d ↔ x.1 < d.rows ∧ x.2 < cdiv d.cols 32 := by
  obtain ⟨r, k⟩ := x
  simp [quantPlaces]

/-- The turn of a block. -/
def quantTurn (v : State) (c : Nat) (d : VecDesc) (z : State) (x : Nat × Nat) : State :=
  csWrite (csWrite z c (d.zBase + x.1 * d.zLd + x.2 * payBytes d.zFmt) (packElems d.zFmt (quantCodes v c d x.1 x.2))) c
    (d.zSbase + x.1 * d.zSld + x.2) [BitVec.ofNat 8 (quantBlock v c d x.1 x.2).bse]

theorem vqntRun_blocks {a : VecAt} {j : VecJob} {b v : State} (hgut : j.d.gutBase = noRegion) (hprob : j.d.prob = 0xFFFF)
    (hv : v = vecTouch a b (rangesX j.d)) :
    ∃ z, z.st = v.st ∧ vqntRun a j b = each (quantPlaces j.d) (quantTurn v a.c j.d) z := by
  subst hv
  unfold vqntRun
  extract_lets d s1 res valid nb blocks s2 xs m gut taken lifted quant satAt count sats s3 s4
  have hres : res = none := by
    unfold res vecPrec
    rw [if_pos hprob]
    rfl
  have hs2 : s2 = s1 := by
    unfold s2
    rw [hres]
  have hgut' : gut = false := by
    unfold gut d
    rw [hgut]
    rfl
  have hm (r : Nat) (hr : r < d.rows) (k : Nat) : cellOf m r k = (vecVals s1 a.c d r).getD k (some Dy.zero) := by
    have hxs : xs.getD r [] = vecVals s1 a.c d r := by
      unfold xs
      rw [List.getD_eq_getElem _ _ (by simpa using hr), List.getElem_map, List.getElem_range, hs2]
    have hlen : (List.range d.cols).length = (vecVals s1 a.c d r).length := by
      rw [List.length_range, List.length_map, rowX_length]
    unfold m
    rw [cellOf_rows hr, hxs, hres]
    exact congrArg (fun l : List Val => l.getD k (some Dy.zero)) (List.map_snd_zip (le_of_eq hlen.symm))
  have hquant (r k : Nat) (hr : r < d.rows) : (quant r k).2.2 = quantBlock s1 a.c d r k := by
    have hin (i : Nat) (hi : i ∈ List.range 32) : i < min 32 (d.cols - 32 * k) ↔ 32 * k + i < d.cols := by
      have := List.mem_range.mp hi
      omega
    have hlift (i : Nat) : lifted r i = false := by
      unfold lifted
      rw [hgut', Bool.false_and]
    unfold quant quantBlock
    dsimp only
    congr 1
    · refine List.map_congr_left fun i hi => ?_
      simp only [hin i hi, hm r hr]
    · simp only [hlift, Bool.and_false]
      rfl
  refine ⟨s3, (vecEvents_st _ _ _ _).trans (by rw [hs2]), ?_⟩
  rw [hgut', if_neg (by decide)]
  refine each_congr (fun x hx z => ?_) s3
  have hx' := (mem_quantPlaces.mp hx).1
  dsimp only
  rw [hres]
  dsimp only
  rw [hquant _ _ hx', zip_inside_eq_quantCodes]
  rfl

/-! ### Where the blocks lie -/

/-- The offsets of a block: its payload and its scale. -/
def quantSpan (d : VecDesc) (x : Nat × Nat) : Set Nat :=
  rowSpan (d.zBase + x.1 * d.zLd) (payBytes d.zFmt) (payBytes d.zFmt) x.2 ∪
    Set.Ico (d.zSbase + x.1 * d.zSld + x.2) (d.zSbase + x.1 * d.zSld + x.2 + 1)

theorem rowSpan_one (base len r : Nat) : rowSpan base 1 len r = Set.Ico (base + r) (base + r + len) := by
  rw [rowSpan, Nat.mul_one]

/-- The two regions of a Z in a block format lie in the store, their rows lie apart, and so do the regions. -/
structure QuantRoom (d : VecDesc) : Prop where
  pay : regionIn (region d.zBase d.zLd d.rows (cdiv d.cols 32 * payBytes d.zFmt)) = true
  scale : regionIn (region d.zSbase d.zSld d.rows (cdiv d.cols 32)) = true
  payApart : cdiv d.cols 32 * payBytes d.zFmt ≤ d.zLd ∨ d.rows ≤ 1
  scaleApart : cdiv d.cols 32 ≤ d.zSld ∨ d.rows ≤ 1
  meet : regionsMeet (region d.zBase d.zLd d.rows (cdiv d.cols 32 * payBytes d.zFmt))
    (region d.zSbase d.zSld d.rows (cdiv d.cols 32)) = false

/-- Blocks of a row lie in the row. -/
theorem blockSpan_subset {n size k : Nat} (base ld r : Nat) (hk : k < n) :
    rowSpan (base + r * ld) size size k ⊆ rowSpan base ld (n * size) r := by
  rintro o ⟨hlo, hhi⟩
  have := Nat.mul_le_mul_right size (Nat.succ_le_of_lt hk)
  rw [Nat.succ_mul] at this
  constructor <;> omega

/-- Blocks lie apart where their rows do. -/
theorem blockSpan_disjoint {n size ld rows : Nat} (base : Nat) (h : n * size ≤ ld ∨ rows ≤ 1) {x y : Nat × Nat}
    (hx : x.1 < rows ∧ x.2 < n) (hy : y.1 < rows ∧ y.2 < n) (hne : x ≠ y) :
    Disjoint (rowSpan (base + x.1 * ld) size size x.2) (rowSpan (base + y.1 * ld) size size y.2) := by
  by_cases hrow : x.1 = y.1
  · have hcol : x.2 ≠ y.2 := fun hcol => hne (Prod.ext hrow hcol)
    rw [hrow]
    exact rowSpan_disjoint _ (.inl (le_refl _)) hx.2 hy.2 hcol
  · exact (rowSpan_disjoint base h hx.1 hy.1 hrow).mono (blockSpan_subset _ _ _ hx.2) (blockSpan_subset _ _ _ hy.2)

section
variable {d : VecDesc} (h : QuantRoom d)
include h

theorem QuantRoom.pay_scale {x y : Nat × Nat} (hx : x ∈ quantPlaces d) (hy : y ∈ quantPlaces d) :
    Disjoint (rowSpan (d.zBase + x.1 * d.zLd) (payBytes d.zFmt) (payBytes d.zFmt) x.2)
      (Set.Ico (d.zSbase + y.1 * d.zSld + y.2) (d.zSbase + y.1 * d.zSld + y.2 + 1)) := by
  obtain ⟨hr, hk⟩ := mem_quantPlaces.mp hx
  obtain ⟨hq, hl⟩ := mem_quantPlaces.mp hy
  refine (rowSpan_disjoint_of_regions h.meet hr hq).mono (blockSpan_subset _ _ _ hk) ?_
  have hscale := blockSpan_subset (size := 1) d.zSbase d.zSld y.1 hl
  rwa [rowSpan_one, Nat.mul_one] at hscale

theorem QuantRoom.disjoint {x y : Nat × Nat} (hx : x ∈ quantPlaces d) (hy : y ∈ quantPlaces d) (hne : x ≠ y) :
    Disjoint (quantSpan d x) (quantSpan d y) := by
  unfold quantSpan
  rw [Set.disjoint_union_left, Set.disjoint_union_right, Set.disjoint_union_right]
  have hscale := blockSpan_disjoint (size := 1) d.zSbase (by rw [Nat.mul_one]; exact h.scaleApart) (mem_quantPlaces.mp hx)
    (mem_quantPlaces.mp hy) hne
  rw [rowSpan_one, rowSpan_one] at hscale
  exact ⟨⟨blockSpan_disjoint _ h.payApart (mem_quantPlaces.mp hx) (mem_quantPlaces.mp hy) hne, h.pay_scale hx hy⟩,
    (h.pay_scale hy hx).symm, hscale⟩

theorem QuantRoom.pay_le {x : Nat × Nat} (hx : x ∈ quantPlaces d) (hpos : 0 < payBytes d.zFmt) :
    d.zBase + x.1 * d.zLd + x.2 * payBytes d.zFmt + payBytes d.zFmt ≤ csSize := by
  obtain ⟨hr, hk⟩ := mem_quantPlaces.mp hx
  have hrow := rowSpan_le h.pay hr (Nat.mul_pos (by omega) hpos)
  have := Nat.mul_le_mul_right (payBytes d.zFmt) (Nat.succ_le_of_lt hk)
  rw [Nat.succ_mul] at this
  omega

theorem QuantRoom.scale_le {x : Nat × Nat} (hx : x ∈ quantPlaces d) : d.zSbase + x.1 * d.zSld + x.2 + 1 ≤ csSize := by
  obtain ⟨hr, hk⟩ := mem_quantPlaces.mp hx
  have := rowSpan_le h.scale hr (by omega)
  omega

end

theorem quantPlaces_nodup (d : VecDesc) : (quantPlaces d).Nodup :=
  List.Nodup.product List.nodup_range List.nodup_range

theorem payBytes_pos (f : Nat) : 0 < payBytes f := by
  unfold payBytes elemBits
  split <;> decide

theorem packElems_length (f : Nat) (l : List Nat) : (packElems f l).length = payBytes f := leBytes_length _ _

section
variable {v : State} {c : Nat} {d : VecDesc} (h : QuantRoom d) {x : Nat × Nat} (hx : x ∈ quantPlaces d)
include h hx

theorem quantTurn_writesIn (z : State) : WritesIn c (quantSpan d x) z (quantTurn v c d z x) := by
  have hlen := packElems_length d.zFmt (quantCodes v c d x.1 x.2)
  refine (WritesIn.csWrite z (fun _ => ?_) ?_).trans (.csWrite _ (fun _ => h.scale_le hx) ?_)
  · rw [hlen]
    exact h.pay_le hx (payBytes_pos _)
  · rw [hlen]
    exact Set.subset_union_left
  · exact Set.subset_union_right

/-- What the turn of a block leaves. -/
theorem quantTurn_bytes {z : State} (hwf : StoreWf z) :
    csBytes (quantTurn v c d z x) c (d.zBase + x.1 * d.zLd + x.2 * payBytes d.zFmt) (payBytes d.zFmt) =
        packElems d.zFmt (quantCodes v c d x.1 x.2) ∧
      csBytes (quantTurn v c d z x) c (d.zSbase + x.1 * d.zSld + x.2) 1 = [BitVec.ofNat 8 (quantBlock v c d x.1 x.2).bse] := by
  have hlen := packElems_length d.zFmt (quantCodes v c d x.1 x.2)
  refine ⟨?_, csBytes_csWrite_same (csWrite_wf hwf _ _ _) _ _ rfl⟩
  unfold quantTurn
  rw [(WritesIn.csWrite _ (fun _ => h.scale_le hx) (le_refl _)).csBytes_eq (csWrite_wf hwf _ _ _)
    (h.pay_le hx (payBytes_pos _)) (h.pay_scale hx hx).symm]
  exact csBytes_csWrite_same hwf _ _ hlen

end

/-! ### Past the checks -/

section
variable {c : Cluster} {w : BitVec 56} {s u : State} {t opc : Nat} {pc : Word64} {j : VecJob} {a : VecAt} {b v : State}
  (hsnd : Sound s) (hiss : issued s c 8 = some (t, pc, u)) (hj : vecChecks u c (thrAt u c t) opc w = .inr j)
  (ha : a = ⟨c, (thrAt u c t).seq, (thrAt u c t).item, thrAt u c t⟩) (hb : b = ctrAdd u (ctrCluster c 5) (vecCycles j))
include hj

theorem quantRoom_of_checks (hop : opc = 0x52) (hgut : j.d.gutBase = noRegion) (hapart : RowsApart j) : QuantRoom j.d := by
  subst hop
  have hp := vecChecks_passed hj
  have hz : j.d.zFmt ≤ 4 := by
    have := hp.opOk
    simp only [vecOpBad, hp.opc, Bool.or_eq_false_iff, decide_eq_false_iff_not] at this
    omega
  have hvec : vecLen j.d.zFmt j.d.cols = cdiv j.d.cols 32 * payBytes j.d.zFmt := by
    unfold vecLen fmtLen
    rw [if_neg (by omega), if_pos hz]
  have hout : vecOutputs j = [region j.d.zBase j.d.zLd j.d.rows (cdiv j.d.cols 32 * payBytes j.d.zFmt),
      region j.d.zSbase j.d.zSld j.d.rows (cdiv j.d.cols 32)] := by
    simp [vecOutputs, hp.opc, vecRegions, hz, hgut, hvec]
  obtain ⟨hrows, hscales, hmeet⟩ := hapart
  rw [hout] at hmeet
  rw [hvec] at hrows
  exact ⟨hp.output_in (by simp [hout]), hp.output_in (by simp [hout]), hrows, hscales hz, by simpa using hmeet⟩

include hsnd hiss ha hb

/-- VQNT without gutter and feedback (06 R103). -/
theorem blocks_written (hop : opc = 0x52) (hgut : j.d.gutBase = noRegion) (hprob : j.d.prob = 0xFFFF) (hapart : RowsApart j)
    (hv : v = vecTouch a b (rangesX j.d)) :
    ∃ x, exec (.vqnt c w) s = .next x ∧ ∀ r k, r < j.d.rows → k < cdiv j.d.cols 32 →
      csBytes x c (j.d.zBase + r * j.d.zLd + k * payBytes j.d.zFmt) (payBytes j.d.zFmt) =
        packElems j.d.zFmt (quantCodes v c j.d r k) ∧
      csBytes x c (j.d.zSbase + r * j.d.zSld + k) 1 = [BitVec.ofNat 8 (quantBlock v c j.d r k).bse] := by
  have hroom := quantRoom_of_checks hj hop hgut hapart
  subst hop
  have hac : a.c = c.val := by rw [ha]
  obtain ⟨z₀, hz₀, hrun⟩ := vqntRun_blocks hgut hprob hv
  have hwf₀ : StoreWf z₀ := (touched_storeWf hsnd hiss hb hv).of_st hz₀
  refine ⟨_, exec_vecIssue hiss hj rfl, fun r k hr hk => ?_⟩
  have hx : (r, k) ∈ quantPlaces j.d := mem_quantPlaces.mpr ⟨hr, hk⟩
  obtain ⟨z, hz, hat⟩ := each_at (fun x hx z => quantTurn_writesIn (v := v) (c := c) hroom hx z) (quantPlaces_nodup j.d)
    (fun x hx y hy => hroom.disjoint hx hy) hwf₀ hx
  obtain ⟨hpay, hscale⟩ := quantTurn_bytes (v := v) hroom hx (hz.wf hwf₀)
  rw [← hb, ← ha, hrun, hac]
  refine ⟨(hat _ _ (hroom.pay_le hx (payBytes_pos _)) Set.subset_union_left).trans hpay,
    (hat _ _ (hroom.scale_le hx) Set.subset_union_right).trans hscale⟩

end

end Sys2Proof.Machine
end

section
/-! The results of the vector instructions (06 R100-R117, 08 R158). -/

namespace Sys2Proof.Machine

/-- Settles O28: each effect is a loop whose turns write apart from each other, so what a turn writes is there in the end. -/
theorem elementwiseResults : Obligations.ElementwiseResults := by
  intro c w s u t opc pc j a b hsnd hiss hj ha hb
  refine ⟨fun i v hi hz hapart hv => elements_written hsnd hiss hj ha hb hi hz hapart hv, fun v hop hgut hprob hapart hv => ?_,
    fun v hop hm hv => ?_, fun v hop hm hv => ?_, fun v hop hm hv => ?_, fun v hop hm hapart hv => ?_, fun v hop hm hv => ?_,
    fun v hop hm hv => ?_, fun v hop hm hz hapart hv => probabilities_written hsnd hiss hj ha hb hop hm hz hapart hv,
    fun v hop hapart hv => ?_⟩
  · obtain ⟨x, hx, hblock⟩ := blocks_written hsnd hiss hj ha hb hop hgut hprob hapart hv
    refine ⟨x, hx, fun r k e hr hk he => ?_⟩
    subst he
    exact hblock r k hr hk
  · obtain ⟨x, hx, hrec⟩ := moments_written hsnd hiss hj ha hb hop hm hv
    refine ⟨x, hx, fun r e q hr he hq => ?_⟩
    subst he hq
    exact hrec r hr
  · obtain ⟨x, hx, hrec⟩ := partials_written hsnd hiss hj ha hb hop hm hv
    refine ⟨x, hx, fun r q hr hq => ?_⟩
    subst hq
    exact hrec r hr
  · obtain ⟨x, hx, hrec⟩ := combined_written hsnd hiss hj ha hb hop hm hv
    refine ⟨x, hx, fun r p q hr hp hq hn => ?_⟩
    subst hp hq
    exact hrec r hr hn
  · obtain ⟨x, hx, hrow⟩ := softmax_written hsnd hiss hj ha hb hop hm hapart hv
    refine ⟨x, hx, fun r us sum hr hus hsum => ?_⟩
    obtain rfl : us = softUs (vecVals v c j.d r) := hus
    obtain rfl : sum = softTotal (vecVals v c j.d r) := hsum
    exact hrow r _ hr rfl
  · obtain ⟨x, hx, hrec⟩ := sums_written hsnd hiss hj ha hb hop hm hv
    refine ⟨x, hx, fun r us sum hr hus hsum hne => ?_⟩
    obtain rfl : us = softUs (vecVals v c j.d r) := hus
    obtain rfl : sum = softTotal (vecVals v c j.d r) := hsum
    exact hrec r _ hr rfl hne
  · obtain ⟨x, hx, hrec⟩ := added_sums_written hsnd hiss hj ha hb hop hm hv
    refine ⟨x, hx, fun r old us sum hr hold hbad hus hsum hne => ?_⟩
    obtain rfl : us = softUs (vecVals v c j.d r) := hus
    exact hrec r _ old sum hr rfl hold hbad hsum hne
  · obtain ⟨x, hx, hrow⟩ := greatest_written hsnd hiss hj ha hb hop hapart hv
    refine ⟨x, hx, fun r xs hr hxs => ?_⟩
    obtain ⟨z, hbytes⟩ := hrow r hr
    subst hxs
    rw [hbytes]
    exact ⟨argmaxBytes_poison z r, fun k y hall hk => argmaxBytes_greatest z r hall hk⟩

end Sys2Proof.Machine
end
